-- ==== Sys2Proof/Word.lean ====
section
/-!
DEFINITION. Sys2Proof/Word.lean: the words of the machine.
-/

namespace Sys2Proof

/-- A 64-bit register or memory word. -/
abbrev Word := BitVec 64

/-- A byte. -/
abbrev Byte := BitVec 8

/-- A 1,024-bit vector register or scale register (R281, R415). -/
abbrev Vec := BitVec 1024

/-- A 128-bit mask register, one bit per byte of a vector (R281). -/
abbrev Mask := BitVec 128

end Sys2Proof
end

