-- ==== Sys2Proof/Machine/Table.lean ====
section
/-!
DEFINITION. Sys2Proof/Machine/Table.lean: sparse tables and byte memory, the two containers the state is made of.

Both are lists of (key, value) pairs in one canonical form: keys strictly rising and no entry equal to what an
unlisted key reads as, so that equal contents are equal data.
-/

namespace Sys2Proof.Machine

/-- A sparse table: what an unlisted key reads as is given at each read and write. -/
structure Tab (α : Type) where
  cells : List (Nat × α)
  deriving DecidableEq, Repr

/-- The table that lists nothing. -/
def Tab.empty {α : Type} : Tab α := { cells := [] }

/-- The first value listed under a key. -/
def findKey {α : Type} (k : Nat) : List (Nat × α) → Option α
  | [] => none
  | (k', a) :: t => if k = k' then some a else findKey k t

/-- List a value under a key, in rising order. -/
def insKey {α : Type} (k : Nat) (a : α) : List (Nat × α) → List (Nat × α)
  | [] => [(k, a)]
  | (k', a') :: t => if k < k' then (k, a) :: (k', a') :: t else if k = k' then (k, a) :: t else (k', a') :: insKey k a t

/-- Remove every value listed under a key. -/
def delKey {α : Type} (k : Nat) : List (Nat × α) → List (Nat × α)
  | [] => []
  | (k', a') :: t => if k = k' then delKey k t else (k', a') :: delKey k t

/-- The value under a key, `d` where none is listed. -/
def Tab.get {α : Type} (t : Tab α) (d : α) (k : Nat) : α := (findKey k t.cells).getD d

/-- Store a value under a key, where an unlisted key reads as `d`. -/
def Tab.set {α : Type} [DecidableEq α] (t : Tab α) (d : α) (k : Nat) (a : α) : Tab α :=
  { cells := if a = d then delKey k t.cells else insKey k a t.cells }

/-- Change the value under a key. -/
def Tab.upd {α : Type} [DecidableEq α] (t : Tab α) (d : α) (k : Nat) (f : α → α) : Tab α := t.set d k (f (t.get d k))

/-- The keys listed, rising. -/
def Tab.keys {α : Type} (t : Tab α) : List Nat := t.cells.map (·.1)

/-- Keep the entries a test accepts. -/
def Tab.keep {α : Type} (t : Tab α) (p : Nat → α → Bool) : Tab α := { cells := t.cells.filter (fun c => p c.1 c.2) }

/-- Whether the keys of a list rise strictly from above a bound. -/
def risesFrom {α : Type} : Option Nat → List (Nat × α) → Bool
  | _, [] => true
  | none, (k, _) :: t => risesFrom (some k) t
  | some b, (k, _) :: t => decide (b < k) && risesFrom (some k) t

/-- Byte memory over the whole of the machine's storage. A key names a byte of one of the storages laid out in
Sys2Proof/Machine/Ops.lean; an unlisted byte reads zero (assumption 5). -/
structure Memory where
  cells : List Host.Cell
  deriving DecidableEq, Repr

/-- The memory that lists nothing. -/
def Memory.empty : Memory := { cells := [] }

/-- One byte of memory. -/
def Memory.byte (m : Memory) (k : Nat) : Byte := (findKey k m.cells).getD 0

/-- Store one byte: a zero byte is not listed. -/
def Memory.setByte (m : Memory) (k : Nat) (b : Byte) : Memory :=
  { cells := if b = 0 then delKey k m.cells else insKey k b m.cells }

/-- The canonical form: keys strictly rising, no zero byte listed. -/
def Memory.wf (m : Memory) : Bool := risesFrom none m.cells && m.cells.all (fun c => c.2 != 0)

/-- Store the bytes of a list from a key on. -/
def Memory.setBytes (m : Memory) (k : Nat) : List Byte → Memory
  | [] => m
  | b :: t => (m.setByte k b).setBytes (k + 1) t

/-- `n` bytes from a key on. -/
def Memory.bytes (m : Memory) (k : Nat) : Nat → List Byte
  | 0 => []
  | n + 1 => m.byte k :: m.bytes (k + 1) n

/-- Make every byte of a range read zero. -/
def Memory.zeroRange (m : Memory) (lo n : Nat) : Memory :=
  { cells := m.cells.filter (fun c => !(decide (lo ≤ c.1) && decide (c.1 < lo + n))) }

/-- The listed bytes of a range, with keys relative to its start. -/
def Memory.extract (m : Memory) (lo n : Nat) : List Host.Cell :=
  (m.cells.filter (fun c => decide (lo ≤ c.1) && decide (c.1 < lo + n))).map (fun c => (c.1 - lo, c.2))

/-- Write a list of listed bytes back over a range whose other bytes read zero. -/
def Memory.restore (m : Memory) (lo n : Nat) (l : List Host.Cell) : Memory :=
  l.foldl (fun m c => m.setByte (lo + c.1) c.2) (m.zeroRange lo n)

/-- The number a list of bytes holds, lowest byte first (R4). -/
def leNat : List Byte → Nat
  | [] => 0
  | b :: t => b.toNat + 256 * leNat t

/-- The `n` bytes of a number, lowest byte first (R4). -/
def leBytes (x : Nat) : Nat → List Byte
  | 0 => []
  | n + 1 => BitVec.ofNat 8 x :: leBytes (x / 256) n

end Sys2Proof.Machine
end

