-- ==== Sys2Proof/Syntax.lean ====
section
/-!
DEFINITION. Sys2Proof/Syntax.lean: the instructions, one constructor per row of the opcode table.

Rows of four kinds stand in one type. The words of the seven slots of a bundle (R331-R337) act on the core the step
names; the stream instructions (R93) act on the stream context the step names; the micro-operations (R439) act on the
matrix engine of that core; and the machine's own events (a power change, a register write by the host, a packet's
delivery, a dispatcher's round, ...) carry in their operands what they name and what the outside world supplies.
-/

namespace Sys2Proof

/-- Element and conversion format codes: the ET values of R330, and the two FP8 codes VCVT alone accepts (R408). -/
inductive Fmt where
  | i8
  | i16
  | i32
  | i64
  | n8
  | n16
  | n32
  | n64
  | f16
  | bf16
  | f32
  | bq8
  | bq4
  | cb3
  | e4m3
  | e5m2
  deriving DecidableEq, Repr

/-- The condition codes of the stream's BRC (R99). -/
inductive BrCond where
  | eq | ne | lt | ge | ltu | geu
  deriving DecidableEq, Repr

/-- One input entry of a launch's extension word (R114). -/
structure LaunchIn where
  evt   : BitVec 6
  valid : BitVec 1
  qt    : BitVec 5
  deriving DecidableEq, Repr

/-- The four input entries of LAUNCH and LAUNCHP (R114). -/
structure LaunchIns where
  i0 : LaunchIn
  i1 : LaunchIn
  i2 : LaunchIn
  i3 : LaunchIn
  deriving DecidableEq, Repr

/-- The prediction fields of LAUNCHP's second extension word (R116). -/
structure PredFields where
  site : BitVec 8
  mode : BitVec 2
  dim  : BitVec 2
  pct  : BitVec 8
  slot : BitVec 10
  fixv : BitVec 16
  deriving DecidableEq, Repr

/-- A firmware image offered for a flash copy, or held in one (R77): the fields of its 4 KiB header, whose other bytes are zero, and its
body. Byte j of DIGEST is byte j of the header; the ECDSA signature is r then s, the first byte at the top. -/
structure FwImage where
  magic  : BitVec 32
  typ    : BitVec 32
  svn    : BitVec 32
  length : BitVec 32
  digest : BitVec 384
  ecdsa  : BitVec 768
  hss    : List (BitVec 8)
  body   : List (BitVec 8)
  deriving DecidableEq, Repr

/-- Which packet of a source and a destination is delivered (R35, R232): the lane, and how many of that lane's packets between them stand
before it. -/
structure LanePick where
  lane : Nat
  pick : Nat
  deriving DecidableEq, Repr

/-- Which peer read a completion answers (R60): the token of the command, and the request among its open ones, in the order they left. -/
structure PeerReq where
  tok : Nat
  req : Nat
  deriving DecidableEq, Repr

/-- The way an SPDM request comes: PCIe Data Object Exchange on the PF, or MCTP over I3C (R81). -/
inductive Transport where
  | doe | mctp
  deriving DecidableEq, Repr

/-- An access of the host that may reach a module in deep idle (R24, R25): of BAR0 by function 0's window offset, of BAR2
through a function, or of a virtual function's page, where a value makes it a write. -/
inductive HostAccess where
  | read    (off : Nat) (n : Nat)
  | write   (off : Nat) (n : Nat) (v : BitVec 64)
  | apRead  (fn : Nat) (x : Nat) (n : Nat)
  | apWrite (fn : Nat) (x : Nat) (data : List (BitVec 8))
  | page    (p : Nat) (off : Nat) (n : Nat) (v : Option (BitVec 64))
  | link
  deriving DecidableEq, Repr

/-- The way a management register is written: function 0's management window, the mailbox page of a partition's
function, or the I3C sideband (R61, R62). -/
inductive Via where
  | bar0
  | page (part : Nat)
  | i3c
  deriving DecidableEq, Repr

/-- A place a fabric packet starts from or arrives at (R34-R37). -/
inductive Node where
  | core (c : Nat)
  | die  (d : Nat)
  | io   (i : Nat)
  | host
  | link (p : Nat)
  deriving DecidableEq, Repr

/-- What a scrub or patrol read finds at the place it reads. -/
inductive ScrubFind where
  | clean
  | corrected
  | uncorrectable
  deriving DecidableEq, Repr

/-- The status with which a storage peer ends a read (R60). -/
inductive PeerStatus where
  | success
  | error
  | poisoned
  deriving DecidableEq, Repr

/-- The algorithms a requester may offer (R81). -/
inductive SpdmAlg where
  | ecdsaP384
  | sha384
  | ecdheP384
  | aes256gcm
  | other (code : Nat)
  deriving DecidableEq, Repr

/-- The instructions: one constructor per row of the opcode table. The rows with a slot word stand
first, then the micro-operations, the stream instructions and the events; the rows without operands stand last. -/
inductive Instr where
  | br (i : BitVec 26)
  | brz (a : BitVec 6) (i : BitVec 20)
  | brnz (a : BitVec 6) (i : BitVec 20)
  | loop (c : BitVec 1) (n : BitVec 12) (e : BitVec 12)
  | loopReg (c : BitVec 1) (a : BitVec 6) (e : BitVec 12)
  | call (d : BitVec 6) (i : BitVec 20)
  | callr (d : BitVec 6) (a : BitVec 6)
  | ret (a : BitVec 6)
  | trap (i : BitVec 20)
  | waitt (x : BitVec 6) (y : BitVec 6) (z : BitVec 6)
  | waitg (a : BitVec 6) (b : BitVec 6)
  | drain (s : BitVec 3)
  | fenceT (s : BitVec 3)
  | segchk (c : BitVec 12)
  | sysr (d : BitVec 6) (i : BitVec 12)
  | sysw (a : BitVec 6) (i : BitVec 12)
  | shapepub (a : BitVec 6) (s : BitVec 10)
  | shapepubClr (s : BitVec 10)
  | ctlHint (h : BitVec 2) (x : BitVec 26)
  | add (d : BitVec 6) (a : BitVec 6) (b : BitVec 6)
  | sub (d : BitVec 6) (a : BitVec 6) (b : BitVec 6)
  | and_ (d : BitVec 6) (a : BitVec 6) (b : BitVec 6)
  | or_ (d : BitVec 6) (a : BitVec 6) (b : BitVec 6)
  | xor_ (d : BitVec 6) (a : BitVec 6) (b : BitVec 6)
  | shl (d : BitVec 6) (a : BitVec 6) (b : BitVec 6)
  | shr (d : BitVec 6) (a : BitVec 6) (b : BitVec 6)
  | sar (d : BitVec 6) (a : BitVec 6) (b : BitVec 6)
  | slt (d : BitVec 6) (a : BitVec 6) (b : BitVec 6)
  | sltu (d : BitVec 6) (a : BitVec 6) (b : BitVec 6)
  | seq (d : BitVec 6) (a : BitVec 6) (b : BitVec 6)
  | min (d : BitVec 6) (a : BitVec 6) (b : BitVec 6)
  | max (d : BitVec 6) (a : BitVec 6) (b : BitVec 6)
  | minu (d : BitVec 6) (a : BitVec 6) (b : BitVec 6)
  | maxu (d : BitVec 6) (a : BitVec 6) (b : BitVec 6)
  | mul (d : BitVec 6) (a : BitVec 6) (b : BitVec 6)
  | mulh (d : BitVec 6) (a : BitVec 6) (b : BitVec 6)
  | mulhu (d : BitVec 6) (a : BitVec 6) (b : BitVec 6)
  | clmul (d : BitVec 6) (a : BitVec 6) (b : BitVec 6)
  | clmulh (d : BitVec 6) (a : BitVec 6) (b : BitVec 6)
  | sel (d : BitVec 6) (a : BitVec 6) (b : BitVec 6) (c : BitVec 6)
  | movi (d : BitVec 6) (i : BitVec 20)
  | movhi (d : BitVec 6) (p : BitVec 2) (i : BitVec 16)
  | clz (d : BitVec 6) (a : BitVec 6)
  | ctz (d : BitVec 6) (a : BitVec 6)
  | popc (d : BitVec 6) (a : BitVec 6)
  | sptest (d : BitVec 6) (a : BitVec 6)
  | spcastSp (d : BitVec 6) (a : BitVec 6)
  | spcastCl (d : BitVec 6) (a : BitVec 6)
  | gptr (d : BitVec 6) (a : BitVec 6) (b : BitVec 6)
  | gptrH (d : BitVec 6) (a : BitVec 6) (b : BitVec 6)
  | padd (d : BitVec 6) (a : BitVec 6) (b : BitVec 6)
  | stg (r : BitVec 3) (p : BitVec 3) (a : BitVec 6)
  | shf (r : BitVec 3) (p : BitVec 3) (a : BitVec 6)
  | mpw (r : BitVec 3) (p : BitVec 3) (a : BitVec 6)
  | addi (d : BitVec 6) (a : BitVec 6) (i : BitVec 14)
  | andi (d : BitVec 6) (a : BitVec 6) (i : BitVec 14)
  | ori (d : BitVec 6) (a : BitVec 6) (i : BitVec 14)
  | xori (d : BitVec 6) (a : BitVec 6) (i : BitVec 14)
  | shli (d : BitVec 6) (a : BitVec 6) (i : BitVec 6)
  | shri (d : BitVec 6) (a : BitVec 6) (i : BitVec 6)
  | sari (d : BitVec 6) (a : BitVec 6) (i : BitVec 6)
  | slti (d : BitVec 6) (a : BitVec 6) (i : BitVec 14)
  | sltui (d : BitVec 6) (a : BitVec 6) (i : BitVec 14)
  | seqi (d : BitVec 6) (a : BitVec 6) (i : BitVec 14)
  | sHint (h : BitVec 2) (x : BitVec 26)
  | ld (d : BitVec 6) (a : BitVec 6) (z : BitVec 2) (x : BitVec 1) (i : BitVec 11)
  | st (b : BitVec 6) (a : BitVec 6) (z : BitVec 2) (i : BitVec 11)
  | vld (d : BitVec 6) (a : BitVec 6) (i : BitVec 10)
  | vst (b : BitVec 6) (a : BitVec 6) (k : BitVec 4) (i : BitVec 10)
  | vlds (d : BitVec 6) (a : BitVec 6) (s : BitVec 6) (k : BitVec 4) (e : Fmt)
  | vsts (b : BitVec 6) (a : BitVec 6) (s : BitVec 6) (k : BitVec 4) (e : Fmt)
  | vldx (d : BitVec 6) (a : BitVec 6) (x : BitVec 6) (k : BitVec 4) (e : Fmt)
  | vstx (b : BitVec 6) (a : BitVec 6) (x : BitVec 6) (k : BitVec 4) (e : Fmt)
  | ldl (d : BitVec 6) (a : BitVec 6) (f : BitVec 2) (r : BitVec 12)
  | amoAdd (d : BitVec 6) (a : BitVec 6) (w : BitVec 1) (q : BitVec 9)
  | amoAnd (d : BitVec 6) (a : BitVec 6) (w : BitVec 1) (q : BitVec 9)
  | amoOr (d : BitVec 6) (a : BitVec 6) (w : BitVec 1) (q : BitVec 9)
  | amoXor (d : BitVec 6) (a : BitVec 6) (w : BitVec 1) (q : BitVec 9)
  | amoMin (d : BitVec 6) (a : BitVec 6) (w : BitVec 1) (q : BitVec 9)
  | amoMax (d : BitVec 6) (a : BitVec 6) (w : BitVec 1) (q : BitVec 9)
  | amoMinu (d : BitVec 6) (a : BitVec 6) (w : BitVec 1) (q : BitVec 9)
  | amoMaxu (d : BitVec 6) (a : BitVec 6) (w : BitVec 1) (q : BitVec 9)
  | amoSwap (d : BitVec 6) (a : BitVec 6) (w : BitVec 1) (q : BitVec 9)
  | amoFadd (d : BitVec 6) (a : BitVec 6) (q : BitVec 9)
  | cas (d : BitVec 6) (a : BitVec 6) (w : BitVec 1) (r : BitVec 12)
  | redAdd (a : BitVec 6) (b : BitVec 6) (w : BitVec 1)
  | redAnd (a : BitVec 6) (b : BitVec 6) (w : BitVec 1)
  | redOr (a : BitVec 6) (b : BitVec 6) (w : BitVec 1)
  | redXor (a : BitVec 6) (b : BitVec 6) (w : BitVec 1)
  | redMin (a : BitVec 6) (b : BitVec 6) (w : BitVec 1)
  | redMax (a : BitVec 6) (b : BitVec 6) (w : BitVec 1)
  | redMinu (a : BitVec 6) (b : BitVec 6) (w : BitVec 1)
  | redMaxu (a : BitVec 6) (b : BitVec 6) (w : BitVec 1)
  | redFadd (a : BitVec 6) (b : BitVec 6)
  | ldAcq (d : BitVec 6) (a : BitVec 6) (z : BitVec 1) (s : BitVec 3)
  | stRel (b : BitVec 6) (a : BitVec 6) (z : BitVec 1) (s : BitVec 3)
  | hingeRel (c : BitVec 6) (a : BitVec 6) (b : BitVec 6)
  | hingeAcq (d : BitVec 6) (a : BitVec 6) (b : BitVec 6)
  | bgive (h : BitVec 2) (i : BitVec 4) (n : BitVec 2)
  | syncarm (a : BitVec 6) (b : BitVec 6)
  | spill (b : BitVec 6) (v : BitVec 1) (s : BitVec 10)
  | fill (d : BitVec 6) (v : BitVec 1) (s : BitVec 10)
  | pref (a : BitVec 6) (n : BitVec 4)
  | lsHint (h : BitVec 2) (x : BitVec 26)
  | vadd (d : BitVec 6) (a : BitVec 6) (b : BitVec 6) (k : BitVec 4) (e : Fmt)
  | vsub (d : BitVec 6) (a : BitVec 6) (b : BitVec 6) (k : BitVec 4) (e : Fmt)
  | vmul (d : BitVec 6) (a : BitVec 6) (b : BitVec 6) (k : BitVec 4) (e : Fmt)
  | vmulh (d : BitVec 6) (a : BitVec 6) (b : BitVec 6) (k : BitVec 4) (e : Fmt)
  | vmin (d : BitVec 6) (a : BitVec 6) (b : BitVec 6) (k : BitVec 4) (e : Fmt)
  | vmax (d : BitVec 6) (a : BitVec 6) (b : BitVec 6) (k : BitVec 4) (e : Fmt)
  | vabs (d : BitVec 6) (a : BitVec 6) (k : BitVec 4) (e : Fmt)
  | vand (d : BitVec 6) (a : BitVec 6) (b : BitVec 6) (k : BitVec 4) (e : Fmt)
  | vor (d : BitVec 6) (a : BitVec 6) (b : BitVec 6) (k : BitVec 4) (e : Fmt)
  | vxor (d : BitVec 6) (a : BitVec 6) (b : BitVec 6) (k : BitVec 4) (e : Fmt)
  | vandn (d : BitVec 6) (a : BitVec 6) (b : BitVec 6) (k : BitVec 4) (e : Fmt)
  | vshl (d : BitVec 6) (a : BitVec 6) (b : BitVec 6) (k : BitVec 4) (e : Fmt)
  | vshr (d : BitVec 6) (a : BitVec 6) (b : BitVec 6) (k : BitVec 4) (e : Fmt)
  | vsar (d : BitVec 6) (a : BitVec 6) (b : BitVec 6) (k : BitVec 4) (e : Fmt)
  | vadds (d : BitVec 6) (a : BitVec 6) (b : BitVec 6) (k : BitVec 4) (e : Fmt)
  | vsubs (d : BitVec 6) (a : BitVec 6) (b : BitVec 6) (k : BitVec 4) (e : Fmt)
  | vcmpeq (d : BitVec 4) (a : BitVec 6) (b : BitVec 6) (k : BitVec 4) (e : Fmt)
  | vcmpne (d : BitVec 4) (a : BitVec 6) (b : BitVec 6) (k : BitVec 4) (e : Fmt)
  | vcmplt (d : BitVec 4) (a : BitVec 6) (b : BitVec 6) (k : BitVec 4) (e : Fmt)
  | vcmple (d : BitVec 4) (a : BitVec 6) (b : BitVec 6) (k : BitVec 4) (e : Fmt)
  | vsel (d : BitVec 6) (a : BitVec 6) (b : BitVec 6) (k : BitVec 4) (e : Fmt)
  | vbcast (d : BitVec 6) (a : BitVec 6) (k : BitVec 4) (e : Fmt)
  | vextr (d : BitVec 6) (a : BitVec 6) (b : BitVec 6) (e : Fmt)
  | vinsr (d : BitVec 6) (a : BitVec 6) (b : BitVec 6) (e : Fmt)
  | vclmulLo (d : BitVec 6) (a : BitVec 6) (b : BitVec 6) (k : BitVec 4) (e : Fmt)
  | vclmulHi (d : BitVec 6) (a : BitVec 6) (b : BitVec 6) (k : BitVec 4) (e : Fmt)
  | vscanAdd (d : BitVec 6) (a : BitVec 6) (k : BitVec 4) (e : Fmt)
  | vscanMin (d : BitVec 6) (a : BitVec 6) (k : BitVec 4) (e : Fmt)
  | vscanMax (d : BitVec 6) (a : BitVec 6) (k : BitVec 4) (e : Fmt)
  | vscanXor (d : BitVec 6) (a : BitVec 6) (k : BitVec 4) (e : Fmt)
  | vscanAnd (d : BitVec 6) (a : BitVec 6) (k : BitVec 4) (e : Fmt)
  | vscanOr (d : BitVec 6) (a : BitVec 6) (k : BitVec 4) (e : Fmt)
  | vreduceAdd (d : BitVec 6) (a : BitVec 6) (k : BitVec 4) (e : Fmt)
  | vreduceMin (d : BitVec 6) (a : BitVec 6) (k : BitVec 4) (e : Fmt)
  | vreduceMax (d : BitVec 6) (a : BitVec 6) (k : BitVec 4) (e : Fmt)
  | vreduceXor (d : BitVec 6) (a : BitVec 6) (k : BitVec 4) (e : Fmt)
  | vreduceAnd (d : BitVec 6) (a : BitVec 6) (k : BitVec 4) (e : Fmt)
  | vreduceOr (d : BitVec 6) (a : BitVec 6) (k : BitVec 4) (e : Fmt)
  | vperm (d : BitVec 6) (a : BitVec 6) (b : BitVec 6) (k : BitVec 4) (e : Fmt)
  | vcompress (d : BitVec 6) (a : BitVec 6) (k : BitVec 4) (e : Fmt)
  | vexpand (d : BitVec 6) (a : BitVec 6) (k : BitVec 4) (e : Fmt)
  | vmergeLo (d : BitVec 6) (a : BitVec 6) (b : BitVec 6) (m : BitVec 2) (e : Fmt)
  | vmergeHi (d : BitVec 6) (a : BitVec 6) (b : BitVec 6) (m : BitVec 2) (e : Fmt)
  | vmergekv (d : BitVec 6) (a : BitVec 6) (b : BitVec 6) (m : BitVec 2) (e : Fmt)
  | vfadd (d : BitVec 6) (a : BitVec 6) (b : BitVec 6) (k : BitVec 4) (e : Fmt)
  | vfsub (d : BitVec 6) (a : BitVec 6) (b : BitVec 6) (k : BitVec 4) (e : Fmt)
  | vfmul (d : BitVec 6) (a : BitVec 6) (b : BitVec 6) (k : BitVec 4) (e : Fmt)
  | vfma (d : BitVec 6) (a : BitVec 6) (b : BitVec 6) (k : BitVec 4) (e : Fmt)
  | vfmin (d : BitVec 6) (a : BitVec 6) (b : BitVec 6) (k : BitVec 4) (e : Fmt)
  | vfmax (d : BitVec 6) (a : BitVec 6) (b : BitVec 6) (k : BitVec 4) (e : Fmt)
  | vcvt (d : BitVec 6) (a : BitVec 6) (t : Fmt) (r : BitVec 2) (p : BitVec 3) (s : BitVec 1) (e : Fmt)
  | vamax (d : BitVec 6) (a : BitVec 6) (p : BitVec 6) (k : BitVec 4) (e : Fmt)
  | vbqpack (d : BitVec 6) (a : BitVec 6) (s : BitVec 3) (b : BitVec 6) (e : Fmt)
  | vbqunpk (d : BitVec 6) (a : BitVec 6) (s : BitVec 3) (b : BitVec 6) (e : Fmt)
  | kand (d : BitVec 4) (a : BitVec 4) (b : BitVec 4)
  | kor (d : BitVec 4) (a : BitVec 4) (b : BitVec 4)
  | kxor (d : BitVec 4) (a : BitVec 4) (b : BitVec 4)
  | knot (d : BitVec 4) (a : BitVec 4)
  | kpop (d : BitVec 6) (a : BitVec 4) (e : Fmt)
  | kset (d : BitVec 4) (a : BitVec 6) (b : BitVec 6)
  | vmov (d : BitVec 6) (a : BitVec 6) (k : BitVec 4) (e : Fmt)
  | vmovFromMg (d : BitVec 6) (a : BitVec 2)
  | vmovToMg (d : BitVec 2) (a : BitVec 6)
  | vmovMaskLo (d : BitVec 6) (a : BitVec 4)
  | vmovMaskHi (d : BitVec 6) (a : BitVec 4)
  | vHint (h : BitVec 2) (x : BitVec 26)
  | fexp2 (d : BitVec 6) (a : BitVec 6) (k : BitVec 4) (e : Fmt)
  | flog2 (d : BitVec 6) (a : BitVec 6) (k : BitVec 4) (e : Fmt)
  | frcp (d : BitVec 6) (a : BitVec 6) (k : BitVec 4) (e : Fmt)
  | frsq (d : BitVec 6) (a : BitVec 6) (k : BitVec 4) (e : Fmt)
  | fsqrt (d : BitVec 6) (a : BitVec 6) (k : BitVec 4) (e : Fmt)
  | frsqe (d : BitVec 6) (a : BitVec 6) (b : BitVec 6) (x : BitVec 4)
  | ftanh (d : BitVec 6) (a : BitVec 6) (k : BitVec 4) (e : Fmt)
  | fsig (d : BitVec 6) (a : BitVec 6) (k : BitVec 4) (e : Fmt)
  | ferf (d : BitVec 6) (a : BitVec 6) (k : BitVec 4) (e : Fmt)
  | scalegen (s : BitVec 3) (a : BitVec 6) (h : BitVec 1) (k : BitVec 4) (e : Fmt)
  | scld (s : BitVec 3) (a : BitVec 6) (d : BitVec 10)
  | tbld (t : BitVec 1) (a : BitVec 6)
  | sfHint (h : BitVec 2) (x : BitVec 26)
  | mxcall (o : BitVec 6) (x : BitVec 6) (y : BitVec 6) (e : Fmt) (s : BitVec 1)
  | mxjoin (o : BitVec 6) (x : BitVec 6) (y : BitVec 6) (s : BitVec 1)
  | mxpart (o : BitVec 6) (x : BitVec 6) (y : BitVec 6) (s : BitVec 1)
  | mxnorm (o : BitVec 6) (x : BitVec 6) (y : BitVec 6) (s : BitVec 1)
  | mxzero (o : BitVec 6) (x : BitVec 6) (y : BitVec 6) (s : BitVec 1)
  | mxrda (o : BitVec 6) (x : BitVec 6) (y : BitVec 6) (e : Fmt) (s : BitVec 1)
  | mxwra (o : BitVec 6) (x : BitVec 6) (y : BitVec 6) (e : Fmt) (s : BitVec 1)
  | mxwb (o : BitVec 6) (x : BitVec 6) (y : BitVec 6) (e : Fmt) (s : BitVec 1)
  | mxucw (o : BitVec 6) (x : BitVec 6) (y : BitVec 6) (s : BitVec 1)
  | mxHint (h : BitVec 2) (x : BitVec 26)
  | xcopy (o : BitVec 6) (x : BitVec 6) (y : BitVec 6) (z : BitVec 6) (s : BitVec 1)
  | xstore (o : BitVec 6) (x : BitVec 6) (y : BitVec 6) (z : BitVec 6) (s : BitVec 1)
  | xweight (o : BitVec 6) (x : BitVec 6) (y : BitVec 6) (z : BitVec 6) (s : BitVec 1)
  | xtrans (o : BitVec 6) (x : BitVec 6) (y : BitVec 6) (z : BitVec 6) (s : BitVec 1)
  | xgather (o : BitVec 6) (x : BitVec 6) (y : BitVec 6) (z : BitVec 6) (s : BitVec 1)
  | xkv (o : BitVec 6) (x : BitVec 6) (y : BitVec 6) (z : BitVec 6) (s : BitVec 1)
  | xsend (o : BitVec 6) (x : BitVec 6) (y : BitVec 6) (z : BitVec 6) (s : BitVec 1)
  | xred (o : BitVec 6) (x : BitVec 6) (y : BitVec 6) (z : BitVec 6) (s : BitVec 1)
  | xdecomp (o : BitVec 6) (x : BitVec 6) (y : BitVec 6) (z : BitVec 6) (s : BitVec 1)
  | xfill (o : BitVec 6) (x : BitVec 6) (y : BitVec 6) (z : BitVec 6) (s : BitVec 1)
  | xcancel (o : BitVec 6) (x : BitVec 6) (y : BitVec 6) (z : BitVec 6) (s : BitVec 1)
  | xfHint (h : BitVec 2) (x : BitVec 26)
  | mloada (ra : BitVec 3) (tr : BitVec 1) (ic : BitVec 1)
  | mloadb (ra : BitVec 3) (tr : BitVec 1)
  | mscale (ra : BitVec 3) (rb : BitVec 3)
  | mskip (x : BitVec 16)
  | mnext (ra : BitVec 3) (rb : BitVec 3)
  | mloop (ct : BitVec 2) (x : BitVec 16)
  | mnorm (x : BitVec 8)
  | streamBr (imm : BitVec 32)
  | brc (cc : BrCond) (a : BitVec 5) (b : BitVec 5) (imm : BitVec 32)
  | streamCall (d : BitVec 5) (imm : BitVec 32)
  | streamRet (a : BitVec 5)
  | seth (imm : BitVec 32)
  | streamAdd (d : BitVec 5) (a : BitVec 5) (b : BitVec 5)
  | streamSub (d : BitVec 5) (a : BitVec 5) (b : BitVec 5)
  | streamMul (d : BitVec 5) (a : BitVec 5) (b : BitVec 5)
  | streamMulhu (d : BitVec 5) (a : BitVec 5) (b : BitVec 5)
  | streamAnd (d : BitVec 5) (a : BitVec 5) (b : BitVec 5)
  | streamOr (d : BitVec 5) (a : BitVec 5) (b : BitVec 5)
  | streamXor (d : BitVec 5) (a : BitVec 5) (b : BitVec 5)
  | streamShl (d : BitVec 5) (a : BitVec 5) (b : BitVec 5)
  | streamShr (d : BitVec 5) (a : BitVec 5) (b : BitVec 5)
  | streamSar (d : BitVec 5) (a : BitVec 5) (b : BitVec 5)
  | streamSlt (d : BitVec 5) (a : BitVec 5) (b : BitVec 5)
  | streamSltu (d : BitVec 5) (a : BitVec 5) (b : BitVec 5)
  | streamSeq (d : BitVec 5) (a : BitVec 5) (b : BitVec 5)
  | streamMin (d : BitVec 5) (a : BitVec 5) (b : BitVec 5)
  | streamMax (d : BitVec 5) (a : BitVec 5) (b : BitVec 5)
  | streamMinu (d : BitVec 5) (a : BitVec 5) (b : BitVec 5)
  | streamMaxu (d : BitVec 5) (a : BitVec 5) (b : BitVec 5)
  | streamAddi (d : BitVec 5) (a : BitVec 5) (imm : BitVec 32)
  | streamSubi (d : BitVec 5) (a : BitVec 5) (imm : BitVec 32)
  | streamMuli (d : BitVec 5) (a : BitVec 5) (imm : BitVec 32)
  | streamMulhui (d : BitVec 5) (a : BitVec 5) (imm : BitVec 32)
  | streamAndi (d : BitVec 5) (a : BitVec 5) (imm : BitVec 32)
  | streamOri (d : BitVec 5) (a : BitVec 5) (imm : BitVec 32)
  | streamXori (d : BitVec 5) (a : BitVec 5) (imm : BitVec 32)
  | streamShli (d : BitVec 5) (a : BitVec 5) (sh : BitVec 6)
  | streamShri (d : BitVec 5) (a : BitVec 5) (sh : BitVec 6)
  | streamSari (d : BitVec 5) (a : BitVec 5) (sh : BitVec 6)
  | streamSlti (d : BitVec 5) (a : BitVec 5) (imm : BitVec 32)
  | streamSltui (d : BitVec 5) (a : BitVec 5) (imm : BitVec 32)
  | streamSeqi (d : BitVec 5) (a : BitVec 5) (imm : BitVec 32)
  | streamMini (d : BitVec 5) (a : BitVec 5) (imm : BitVec 32)
  | streamMaxi (d : BitVec 5) (a : BitVec 5) (imm : BitVec 32)
  | streamMinui (d : BitVec 5) (a : BitVec 5) (imm : BitVec 32)
  | streamMaxui (d : BitVec 5) (a : BitVec 5) (imm : BitVec 32)
  | streamMovi (d : BitVec 5) (imm : BitVec 32)
  | streamMovhi (d : BitVec 5) (imm : BitVec 32)
  | srd (d : BitVec 5) (idx : BitVec 6)
  | streamHint (k : BitVec 3) (xn : BitVec 2) (rest : BitVec 56)
  | ldq (d : BitVec 5) (a : BitVec 5) (sz : BitVec 2) (sx : BitVec 1) (imm : BitVec 32)
  | stq (a : BitVec 5) (b : BitVec 5) (sz : BitVec 2) (imm : BitVec 32)
  | fence (scope : BitVec 3) (sv : BitVec 1) (md : BitVec 1)
  | waitmb (d : BitVec 5) (a : BitVec 5) (b : BitVec 5)
  | irq (a : BitVec 5) (imm : BitVec 32)
  | launch (a : BitVec 5) (ev : BitVec 6) (sig : BitVec 1) (ins : LaunchIns)
  | launchp (a : BitVec 5) (b : BitVec 5) (ev : BitVec 6) (sig : BitVec 1) (ins : LaunchIns) (pred : PredFields)
  | waite (a : BitVec 5) (ev : BitVec 6) (imm : BitVec 32)
  | sige (d : BitVec 5) (a : BitVec 5) (ev : BitVec 6) (n : BitVec 16)
  | sigeRemote (a : BitVec 5) (ev : BitVec 6) (n : BitVec 16)
  | shpub (a : BitVec 5) (slot : BitVec 10)
  | shpubClr (slot : BitVec 10)
  | coll (a : BitVec 5) (ev : BitVec 6) (sig : BitVec 1)
  | deadline (a : BitVec 5) (pct : BitVec 8)
  | prio (c : BitVec 2)
  | tdecl (d : BitVec 5) (a : BitVec 5)
  | tfree (a : BitVec 5)
  | tpin (a : BitVec 5) (b : BitVec 5) (llc : BitVec 1)
  | tunpin (a : BitVec 5) (b : BitVec 5)
  | trecOpen (a : BitVec 5) (mask : BitVec 31)
  | tuse (a : BitVec 5) (b : BitVec 5)
  | tprot (a : BitVec 5) (flags : BitVec 4)
  | streamMacro (m : BitVec 8) (n : BitVec 4) (a : BitVec 5)
  | mload (a : BitVec 5)
  | flashImageUpdate (copyB : Bool) (img : FwImage)
  | pcieConfigRequest (sriov : Option (Bool × BitVec 3))
  | functionLevelReset (fn : Nat)
  | powerCapStepDown (watts : Nat)
  | powerCapStepUp (watts : Nat)
  | thermalStepDown (die : Nat) (sensors : BitVec 64)
  | thermalAlarm (die : Nat) (sensors : BitVec 64)
  | thermalTrip (die : Nat) (sensors : BitVec 64)
  | modpwrReqAuto (v : BitVec 64) (i3c : Bool)
  | modpwrReqM2 (v : BitVec 64)
  | modpwrReqM3 (v : BitVec 64)
  | m2ExitStart (acc : HostAccess)
  | registerWrite (via : Via) (off : Nat) (n : Nat) (v : BitVec 64)
  | spgateWrite (core : Nat) (v : BitVec 64)
  | bankWakeComplete (core : Nat) (bank : Nat)
  | llcwayWrite (die : Nat) (v : BitVec 32)
  | llcWayDrained (die : Nat)
  | fabricPacketDelivery (at_ : LanePick) (src : Node) (dst : Node)
  | flitSend (port : Nat) (vl : Nat)
  | flitReceive (port : Nat) (flit : List (BitVec 8))
  | portRetrain (port : Nat) (ok : Bool)
  | ngportWrite (port : Nat) (v : BitVec 64)
  | portTrainingComplete (port : Nat) (lanes : BitVec 4)
  | routeSwitchRelease (port : Nat) (dest : Nat)
  | remoteRequestTimeout (core : Nat) (tok : Nat)
  | hbmChannelRetrain (stack : Nat) (chan : Nat) (ok : Bool)
  | patrolScrub (mem : Nat) (addr : Nat) (found : ScrubFind)
  | lpddrChannelRetrain (io : Nat) (chan : Nat)
  | peerReadCompletion (core : Nat) (of_ : PeerReq) (st : PeerStatus) (data : List (BitVec 8))
  | peerReadTimeout (core : Nat) (tok : Nat)
  | apertureRead (fn : Nat) (x : Nat) (n : Nat)
  | apertureWrite (fn : Nat) (x : Nat) (data : List (BitVec 8))
  | apertureHeldWritePerform (part : Nat)
  | clusterMapWrite (part : Nat) (i : Nat) (v : BitVec 8)
  | partctlWrite (part : Nat) (v : BitVec 64)
  | ctxctlRun (ctx : Nat) (v : BitVec 64)
  | ctxctlStop (ctx : Nat) (v : BitVec 64)
  | contextStopComplete (ctx : Nat)
  | ctxctlKill (ctx : Nat) (v : BitVec 64)
  | contextKillComplete (ctx : Nat)
  | contextEndComplete (ctx : Nat)
  | macstatClear (ctx : Nat) (v : BitVec 64)
  | hostDeclare (part : Nat) (v : BitVec 64)
  | hostFree (part : Nat) (v : BitVec 64)
  | msixUnmask (entry : Nat)
  | measExtend (v : BitVec 64)
  | negotiateAlgorithms (offered : List SpdmAlg)
  | getCertificate (slot : Nat)
  | challenge (nonce : BitVec 256) (verified : Bool)
  | getMeasurements (index : Nat) (signed : Bool)
  | keyExchange (sess : Nat) (pub : BitVec 768) (established : Bool)
  | finish (sess : Nat) (mac : BitVec 384)
  | endSession (sess : Nat)
  | heartbeat (sess : Nat)
  | debugUnlock (ecdsa : BitVec 768) (hss : List (BitVec 8))
  | snapshotTriggerArrival (block : Nat)
  | waitmbWake (ctx : Nat)
  | remoteSignalArrival (ctx : Nat)
  | streamWaitWake (ctx : Nat)
  | streamWaitLimit (ctx : Nat)
  | launchFailureDelivery (ctx : Nat)
  | launchQueueWaitEnd (ctx : Nat)
  | launchThresholdsMet (launchId : Nat)
  | launchResident (launchId : Nat)
  | restoreWaitTimeout (launchId : Nat)
  | shareArrival (die : Nat)
  | dispatchRound (cluster : Nat)
  | taskImageLoad (core : Nat)
  | taskSaveComplete (core : Nat)
  | launchComplete (launchId : Nat)
  | preemptSoft (part : Nat) (v : BitVec 64)
  | preemptHard (part : Nat) (v : BitVec 64)
  | deadlineOverrun (core : Nat)
  | partschedRelease (part : Nat) (v : BitVec 64)
  | holdQueuePauseTimeout (cluster : Nat)
  | substreamPreemptTimeout (cluster : Nat)
  | shapeSlotWrite (part : Nat) (slot : Nat) (v : BitVec 32)
  | trim (launchId : Nat)
  | evict (die : Nat)
  | optimisticCopyPass (h : Nat)
  | swapPairExchange (h : Nat)
  | restoreComplete (h : Nat)
  | substreamStart (die : Nat)
  | substreamComplete (h : Nat)
  | dependentMaterialisation (h : Nat)
  | pageWalk (die : Nat) (ia : Nat)
  | rangeTableFill (core : Nat) (h : Nat)
  | bounceApply (die : Nat)
  | hforceSpill (die : Nat) (v : BitVec 64)
  | hforceCompress (die : Nat) (v : BitVec 64)
  | hforceDrop (die : Nat) (v : BitVec 64)
  | hrqselWrite (die : Nat) (v : BitVec 64)
  | bundleIssue (core : Nat)
  | checkpoint (core : Nat)
  | pauseEnd (core : Nat)
  | landingArrival (core : Nat) (id : Nat)
  | rollback (core : Nat)
  | clusterRetirement (cluster : Nat)
  | scratchpadScrub (core : Nat) (sector : Nat) (found : ScrubFind)
  | storeFaultUnresolved (core : Nat)
  | hingeReleasePerform (core : Nat)
  | engineCommandStart (core : Nat) (tok : Nat)
  | engineLinePerform (core : Nat) (tok : Nat) (line : Nat)
  | weightBlockExpand (core : Nat)
  | deltaApply (die : Nat)
  | dieFence (die : Nat)
  | dieRebuild (die : Nat)
  | dbctlMrebuild (v : BitVec 64)
  | matrixCommandEnd (core : Nat)
  | decodeTableComplete (core : Nat) (ts : Nat)
  | powerOn
  | powerLoss
  | moduleReset
  | hostPerst
  | storagePerst
  | m1Entry
  | m1Exit
  | m2ExitComplete
  | getVersion
  | getCapabilities
  | getDigests
  | tamperAlarm
  | snapshotFire
  | snapshotRearm
  | streamEnd
  | sethRemove
  | streamEret
  | streamEretSkip
  | nop
  | trecClose
  | tend
  | eret
  | eretSkip
  | fenceSvDie
  | fenceSvModule
  | yieldp
  | mmac
  | mmact
  | mbcast
  | mend
  | msync
  deriving DecidableEq, Repr

/-- The code of a format in a four-bit field (R330, R408). -/
def Fmt.code : Fmt → Nat
  | .i8 => 0
  | .i16 => 1
  | .i32 => 2
  | .i64 => 3
  | .n8 => 4
  | .n16 => 5
  | .n32 => 6
  | .n64 => 7
  | .f16 => 8
  | .bf16 => 9
  | .f32 => 10
  | .bq8 => 11
  | .bq4 => 12
  | .cb3 => 13
  | .e4m3 => 14
  | .e5m2 => 15

/-- The format a four-bit code names. -/
def Fmt.ofCode : Nat → Fmt
  | 0 => .i8
  | 1 => .i16
  | 2 => .i32
  | 3 => .i64
  | 4 => .n8
  | 5 => .n16
  | 6 => .n32
  | 7 => .n64
  | 8 => .f16
  | 9 => .bf16
  | 10 => .f32
  | 11 => .bq8
  | 12 => .bq4
  | 13 => .cb3
  | 14 => .e4m3
  | _ => .e5m2

/-- The code of a branch condition (R99). -/
def BrCond.code : BrCond → Nat
  | .eq => 0 | .ne => 1 | .lt => 2 | .ge => 3 | .ltu => 4 | .geu => 5

end Sys2Proof
end

