-- ==== Sys2Proof/WellFormed.lean ====
section
/-!
DEFINITION. Sys2Proof/WellFormed.lean: the operand values the encoding rules admit beyond the width of a field.

Every condition is one that R329, the instruction's own encoding table or the stream opcode map states as raising
ILLEGAL_ENCODING from the word alone.
-/

namespace Sys2Proof

/-- The element types R390 calls INT. -/
def Fmt.isInt : Fmt → Bool
  | .i8 | .i16 | .i32 | .i64 | .n8 | .n16 | .n32 | .n64 => true
  | _ => false

/-- The signed integer types. -/
def Fmt.isSigned : Fmt → Bool
  | .i8 | .i16 | .i32 | .i64 => true
  | _ => false

/-- The element types R390 calls FLT. -/
def Fmt.isFlt : Fmt → Bool
  | .f16 | .bf16 | .f32 => true
  | _ => false

/-- The element types R390 calls PLAIN. -/
def Fmt.isPlain (e : Fmt) : Bool := e.isInt || e.isFlt

/-- The block formats of the vector slots (R411, R412). -/
def Fmt.isBlock : Fmt → Bool
  | .bq8 | .bq4 => true
  | _ => false

/-- The types the 64-bit lane instructions accept (R393). -/
def Fmt.is64 : Fmt → Bool
  | .i64 | .n64 => true
  | _ => false

/-- The types the strided and indexed loads and stores accept (R374). -/
def Fmt.is32or64 : Fmt → Bool
  | .i32 | .n32 | .f32 | .i64 | .n64 => true
  | _ => false

/-- The FP8 types, which VCVT alone accepts (R408). -/
def Fmt.isFp8 : Fmt → Bool
  | .e4m3 | .e5m2 => true
  | _ => false

/-- The width of an element in bits; the block and codebook formats have none and answer zero. -/
def Fmt.width : Fmt → Nat
  | .i8 | .n8 | .e4m3 | .e5m2 => 8
  | .i16 | .n16 | .f16 | .bf16 => 16
  | .i32 | .n32 | .f32 => 32
  | .i64 | .n64 => 64
  | .bq8 | .bq4 | .cb3 => 0

/-- How many 32-element blocks one vector of the type holds (R410). -/
def Fmt.blocks : Fmt → Nat
  | .f16 | .bf16 => 2
  | _ => 1

/-- How many parts the wider side of a conversion has (R409). -/
def cvtRatio (e t : Fmt) : Nat := Nat.max e.width t.width / Nat.min e.width t.width

/-- The conversions VCVT performs, with the mode, part and saturation bits each allows (R408, R409). -/
def vcvtOk (e t : Fmt) (r : BitVec 2) (p : BitVec 3) (s : BitVec 1) : Bool :=
  ((e.isPlain && t.isPlain) || (e.isFp8 && t.isFlt) || (e.isFlt && t.isFp8)) &&
  (p.toNat < cvtRatio e t) &&
  (!(e.isInt && t.isInt) || r == 0) &&
  (!(!e.isInt && !t.isInt && e.width < t.width) || r == 0) &&
  (!(!e.isInt && t.isInt) || s == 0) &&
  (!(!e.isInt && t.isFlt) || s == 0)

/-- The engine instructions that carry an element type. -/
inductive MxEtUse where
  | call | rda | wra | wb
  deriving DecidableEq, Repr

/-- The element types each of them accepts: the routines' own types for MXCALL (R441), and the tile formats of the
accumulator moves (R431-R433). -/
def mxEt : MxEtUse → Fmt → Bool
  | .call, e => e == .i8 || e == .bq8 || e == .bq4 || e == .bf16 || e == .f32
  | .rda,  e => e == .f32 || e == .bf16 || e == .f16 || e == .i32
  | .wra,  e => e == .f32 || e == .bf16 || e == .i32
  | .wb,   e => e == .bq8 || e == .bq4

/-- The operand conditions of each instruction. -/
def Instr.wf : Instr → Bool
  | .srd _ idx => idx.toNat ≤ 16
  | .fence scope sv md => 2 ≤ scope.toNat && scope.toNat ≤ 5 && (md == 0 || sv == 1)
  | .launchp _ _ _ _ _ pred => pred.dim != 3
  | .streamMacro _ n a => n.toNat ≤ 8 && a.toNat + n.toNat ≤ 32
  | .drain s => s.toNat ≤ 5
  | .fenceT s => 2 ≤ s.toNat && s.toNat ≤ 5
  | .stg _ p _ => p != 7
  | .shf _ p _ => p != 7
  | .mpw _ p _ => p != 7
  | .vlds _ _ _ _ e => e.is32or64
  | .vsts _ _ _ _ e => e.is32or64
  | .vldx _ _ _ _ e => e.is32or64
  | .vstx _ _ _ _ e => e.is32or64
  | .ldl _ _ f r => f != 3 && r != 0
  | .amoAdd _ _ _ q => q != 0
  | .amoAnd _ _ _ q => q != 0
  | .amoOr _ _ _ q => q != 0
  | .amoXor _ _ _ q => q != 0
  | .amoMin _ _ _ q => q != 0
  | .amoMax _ _ _ q => q != 0
  | .amoMinu _ _ _ q => q != 0
  | .amoMaxu _ _ _ q => q != 0
  | .amoSwap _ _ _ q => q != 0
  | .amoFadd _ _ q => q != 0
  | .cas d _ _ r => d.toNat % 2 == 0 && r != 0
  | .ldAcq _ _ _ s => s.toNat ≤ 5
  | .stRel _ _ _ s => s.toNat ≤ 5
  | .vadd _ _ _ _ e => e.isInt
  | .vsub _ _ _ _ e => e.isInt
  | .vmul _ _ _ _ e => e.isInt
  | .vmulh _ _ _ _ e => e.isInt
  | .vmin _ _ _ _ e => e.isInt
  | .vmax _ _ _ _ e => e.isInt
  | .vabs _ _ _ e => e.isSigned
  | .vand _ _ _ _ e => e.isInt
  | .vor _ _ _ _ e => e.isInt
  | .vxor _ _ _ _ e => e.isInt
  | .vandn _ _ _ _ e => e.isInt
  | .vshl _ _ _ _ e => e.isInt
  | .vshr _ _ _ _ e => e.isInt
  | .vsar _ _ _ _ e => e.isInt
  | .vadds _ _ _ _ e => e.isInt
  | .vsubs _ _ _ _ e => e.isInt
  | .vcmpeq _ _ _ _ e => e.isPlain
  | .vcmpne _ _ _ _ e => e.isPlain
  | .vcmplt _ _ _ _ e => e.isPlain
  | .vcmple _ _ _ _ e => e.isPlain
  | .vsel _ _ _ k e => e.isPlain && k != 0
  | .vbcast _ _ _ e => e.isPlain
  | .vextr _ _ _ e => e.isPlain
  | .vinsr _ _ _ e => e.isPlain
  | .vclmulLo _ _ _ _ e => e.is64
  | .vclmulHi _ _ _ _ e => e.is64
  | .vscanAdd _ _ _ e => e.isPlain
  | .vscanMin _ _ _ e => e.isPlain
  | .vscanMax _ _ _ e => e.isPlain
  | .vscanXor _ _ _ e => e.isInt
  | .vscanAnd _ _ _ e => e.isInt
  | .vscanOr _ _ _ e => e.isInt
  | .vreduceAdd _ _ _ e => e.isPlain
  | .vreduceMin _ _ _ e => e.isPlain
  | .vreduceMax _ _ _ e => e.isPlain
  | .vreduceXor _ _ _ e => e.isInt
  | .vreduceAnd _ _ _ e => e.isInt
  | .vreduceOr _ _ _ e => e.isInt
  | .vperm _ _ _ _ e => e.isPlain
  | .vcompress _ _ _ e => e.isPlain
  | .vexpand _ _ _ e => e.isPlain
  | .vmergeLo _ _ _ _ e => e.is64
  | .vmergeHi _ _ _ _ e => e.is64
  | .vmergekv _ _ _ _ e => e.is64
  | .vfadd _ _ _ _ e => e.isFlt
  | .vfsub _ _ _ _ e => e.isFlt
  | .vfmul _ _ _ _ e => e.isFlt
  | .vfma _ _ _ _ e => e.isFlt
  | .vfmin _ _ _ _ e => e.isFlt
  | .vfmax _ _ _ _ e => e.isFlt
  | .vcvt _ _ t r p s e => vcvtOk e t r p s
  | .vamax _ _ p _ e => e.isFlt && p.toNat + e.blocks ≤ 32
  | .vbqpack _ _ _ _ e => e.isBlock
  | .vbqunpk _ _ _ _ e => e.isBlock
  | .kpop _ _ e => e.isPlain
  | .vmov _ _ _ e => e.isPlain
  | .fexp2 _ _ _ e => e.isFlt
  | .flog2 _ _ _ e => e.isFlt
  | .frcp _ _ _ e => e.isFlt
  | .frsq _ _ _ e => e.isFlt
  | .fsqrt _ _ _ e => e.isFlt
  | .ftanh _ _ _ e => e.isFlt
  | .fsig _ _ _ e => e.isFlt
  | .ferf _ _ _ e => e.isFlt
  | .scalegen _ _ _ _ e => e.isBlock
  | .mxcall _ _ _ e _ => mxEt .call e
  | .mxrda _ _ _ e _ => mxEt .rda e
  | .mxwra _ _ _ e _ => mxEt .wra e
  | .mxwb _ _ _ e _ => mxEt .wb e
  | .mloop ct _ => ct.toNat < 4
  | .mnorm x => x.toInt ≥ -64 && x.toInt ≤ 64
  | _ => true

end Sys2Proof
end

