-- ==== Sys2Proof/Machine/Bits.lean ====
section
/-!
DEFINITION. Sys2Proof/Machine/Bits.lean: bit fields, sign extension, elements of vectors, and the CRC of R255.
-/

namespace Sys2Proof.Machine

/-- The number held by `n` bits at bit `lo` of a number. -/
def bitsOf (x lo n : Nat) : Nat := x / 2 ^ lo % 2 ^ n

/-- Bit `i` of a number. -/
def bitAt (x i : Nat) : Bool := x / 2 ^ i % 2 == 1

/-- A word's field. -/
def fieldW (x : Word) (lo n : Nat) : Nat := bitsOf x.toNat lo n

/-- A number with the `n` bits at `lo` replaced. -/
def withBits (x lo n v : Nat) : Nat := x - bitsOf x lo n * 2 ^ lo + v % 2 ^ n * 2 ^ lo

/-- The signed reading of a `w`-bit number. -/
def signed (w x : Nat) : Int := if 2 ^ (w - 1) ≤ x % 2 ^ w then (x % 2 ^ w : Int) - 2 ^ w else (x % 2 ^ w : Int)

/-- An integer modulo 2^w. -/
def wrap (w : Nat) (i : Int) : Nat := (i % (2 ^ w : Int)).toNat

/-- An integer held within bounds (R348). -/
def satI (x lo hi : Int) : Int := if x < lo then lo else if hi < x then hi else x

/-- The value of a `w`-bit element under an integer type. -/
def ival (sgn : Bool) (w x : Nat) : Int := if sgn then signed w x else (x % 2 ^ w : Int)

/-- The least and the greatest value of an integer type. -/
def ilo (sgn : Bool) (w : Nat) : Int := if sgn then -(2 ^ (w - 1) : Int) else 0
def ihi (sgn : Bool) (w : Nat) : Int := if sgn then (2 ^ (w - 1) : Int) - 1 else (2 ^ w : Int) - 1

/-- A field sign-extended to 64 bits (R348). -/
def sx {n : Nat} (x : BitVec n) : Word := x.signExtend 64

/-- Element `i` of width `w` of a vector's number (R281). -/
def elem (v : Nat) (w i : Nat) : Nat := v / 2 ^ (w * i) % 2 ^ w

/-- The vector whose elements of width `w` are those of a list, element 0 first. -/
def packElems (w : Nat) : List Nat → Nat
  | [] => 0
  | x :: t => x % 2 ^ w + 2 ^ w * packElems w t

/-- The elements of a vector. -/
def elems (v : Vec) (w : Nat) : List Nat := (List.range (1024 / w)).map (elem v.toNat w)

/-- The vector of a list of elements. -/
def ofElems (w : Nat) (l : List Nat) : Vec := BitVec.ofNat 1024 (packElems w l)

/-- The mask bit of element `i` of width `w`: that of its lowest byte (R281). -/
def maskElem (m : Mask) (w i : Nat) : Bool := m.getLsbD (i * w / 8)

/-- Carry-less product of two numbers, over the low `n` bits of the second (R367). -/
def clmulN (a b : Nat) : Nat → Nat
  | 0 => 0
  | n + 1 => Nat.xor (if bitAt b n then a * 2 ^ n else 0) (clmulN a b n)

/-- One bit of the reflected CRC-32C (polynomial 0x82F63B78). -/
def crcBit (c : Nat) : Nat := if c % 2 = 1 then Nat.xor (c / 2) 0x82F63B78 else c / 2

/-- One byte into a running CRC-32C register. -/
def crcByte (c : Nat) (b : Byte) : Nat :=
  crcBit (crcBit (crcBit (crcBit (crcBit (crcBit (crcBit (crcBit (Nat.xor c b.toNat))))))))

/-- Bytes into a running CRC-32C register. -/
def crcBytes (c : Nat) (l : List Byte) : Nat := l.foldl crcByte c

/-- CRC-32C of a list of bytes, going on from the CRC of what came before (zero for nothing). -/
def crc32cFrom (c : BitVec 32) (l : List Byte) : BitVec 32 :=
  BitVec.ofNat 32 (Nat.xor (crcBytes (Nat.xor c.toNat 0xFFFFFFFF) l) 0xFFFFFFFF)

/-- CRC-32C of a list of bytes (R255, R324). -/
def crc32c (l : List Byte) : BitVec 32 := crc32cFrom 0 l

/-- The greatest bit set in a number; zero for zero. -/
def topBit (x : Nat) : Nat := Nat.log2 x

/-- How many of the low `n` bits are set. -/
def popN (x : Nat) : Nat → Nat
  | 0 => 0
  | n + 1 => (if bitAt x n then 1 else 0) + popN x n

/-- Trailing zeros among the `n` bits from bit `i`; `i + n` when all are clear. -/
def ctzN (x i : Nat) : Nat → Nat
  | 0 => i
  | n + 1 => if bitAt x i then i else ctzN x (i + 1) n

/-- A list with the entry at an index replaced. -/
def setAt {α : Type} : List α → Nat → α → List α
  | [], _, _ => []
  | _ :: t, 0, a => a :: t
  | x :: t, i + 1, a => x :: setAt t i a

/-- The entry of a list at an index, or a default. -/
def nthD {α : Type} (l : List α) (i : Nat) (d : α) : α := (l[i]?).getD d

end Sys2Proof.Machine
end

