-- ==== Sys2Proof/Machine/Flags.lean ====
section
/-!
DEFINITION. Sys2Proof/Machine/Flags.lean: the sticky bits of NUMSTAT (R303) and rounding, which sets them (R297-R301).

An exact value is a sign, a natural number and a power of two; `sticky` says that the true magnitude lies strictly
between that number and the next one.
-/

namespace Sys2Proof.Machine

/-- The bits of NUMSTAT (R303). -/
def fNV : Nat := 1
def fDZ : Nat := 2
def fOF : Nat := 4
def fUF : Nat := 8
def fNX : Nat := 16
def fSAT : Nat := 32
def fFLOOR : Nat := 64
def fOVER : Nat := 128

/-- Both sets of sticky bits. -/
def fOr (a b : Nat) : Nat := Nat.lor a b

/-- A floating-point format (R297): exponent and fraction bits, bias, and whether it has infinities. -/
structure FFmt where
  eb  : Nat
  fb  : Nat
  bias : Nat
  inf : Bool
  deriving DecidableEq, Repr

def ffOf : Fmt → FFmt
  | .f16 => { eb := 5, fb := 10, bias := 15, inf := true }
  | .bf16 => { eb := 8, fb := 7, bias := 127, inf := true }
  | .e4m3 => { eb := 4, fb := 3, bias := 7, inf := false }
  | .e5m2 => { eb := 5, fb := 2, bias := 15, inf := true }
  | _ => { eb := 8, fb := 23, bias := 127, inf := true }

/-- The width of a format. -/
def FFmt.w (f : FFmt) : Nat := 1 + f.eb + f.fb
/-- The canonical NaN (R297). -/
def FFmt.nan (f : FFmt) : Nat := if f.inf then (2 ^ f.eb - 1) * 2 ^ f.fb + 2 ^ (f.fb - 1) else 2 ^ (f.eb + f.fb) - 1
/-- The magnitude of the largest finite value (R297). -/
def FFmt.big (f : FFmt) : Nat := if f.inf then (2 ^ f.eb - 1) * 2 ^ f.fb - 1 else 2 ^ (f.eb + f.fb) - 2
/-- The magnitude of infinity. -/
def FFmt.infM (f : FFmt) : Nat := (2 ^ f.eb - 1) * 2 ^ f.fb
/-- A magnitude with a sign. -/
def FFmt.sgn (f : FFmt) (neg : Bool) (m : Nat) : Nat := (if neg then 2 ^ (f.eb + f.fb) else 0) + m

/-- A floating-point value: a NaN, an infinity, or (-1)^neg * m * 2^e. -/
inductive FV where
  | nan (sig : Bool)
  | inf (neg : Bool)
  | fin (neg : Bool) (m : Nat) (e : Int)
  deriving DecidableEq, Repr

/-- The value of a bit pattern (R297). A NaN whose fraction MSB is clear is signalling (R298). -/
def fdec (f : FFmt) (x : Nat) : FV :=
  let neg := bitAt x (f.eb + f.fb)
  let E := bitsOf x f.fb f.eb
  let F := bitsOf x 0 f.fb
  if f.inf ∧ E = 2 ^ f.eb - 1 then (if F = 0 then .inf neg else .nan (!bitAt F (f.fb - 1)))
  else if !f.inf ∧ E = 2 ^ f.eb - 1 ∧ F = 2 ^ f.fb - 1 then .nan false
  else if E = 0 then .fin neg F (1 - (f.bias : Int) - f.fb)
  else .fin neg (2 ^ f.fb + F) ((E : Int) - f.bias - f.fb)

/-- A rounded result: its bits and the sticky bits it sets. -/
structure Rnd where
  bits : Nat
  flags : Nat
  deriving DecidableEq, Repr

/-- The integer nearest to `m * 2^e` under a rounding mode of R299 for a sign, and whether it differs from it. -/
def roundMag (rm : Nat) (neg : Bool) (m : Nat) (e : Int) (sticky : Bool) : Nat × Bool :=
  if 0 ≤ e then (m * 2 ^ e.toNat, sticky)
  else
    let d := (-e).toNat
    let q := m / 2 ^ d
    let r := m % 2 ^ d
    let inexact := r != 0 || sticky
    let half := 2 ^ (d - 1)
    let up : Bool :=
      match rm with
      | 0 => decide (half < r) || (r == half && (sticky || q % 2 == 1))
      | 1 => false
      | 2 => neg && inexact
      | _ => !neg && inexact
    (if up then q + 1 else q, inexact)

/-- What a finite result too large for the format becomes (R299). -/
def overflowMag (f : FFmt) (rm : Nat) (neg : Bool) : Nat :=
  let toInf : Bool := match rm with | 0 => true | 1 => false | 2 => neg | _ => !neg
  if toInf then (if f.inf then f.infM else f.nan) else f.big

/-- `round(x, f, rm)` for a finite exact value (R298, R299, R303); `zneg` is the sign of an exact zero. -/
def fround (f : FFmt) (rm : Nat) (neg : Bool) (m : Nat) (e : Int) (sticky : Bool) : Rnd :=
  if m = 0 ∧ !sticky then { bits := f.sgn neg 0, flags := 0 }
  else
    let emin : Int := 1 - (f.bias : Int) - f.fb
    -- a magnitude below one unit still has its place: scale it up so that the leading bit exists
    let L : Int := if m = 0 then e - 1 else (topBit m : Int) + e
    let ulp : Int := max (L - f.fb) emin
    let (q, inexact) := roundMag rm neg m (e - ulp) sticky
    let enc := q + (ulp - emin).toNat * 2 ^ f.fb
    let lowTiny : Bool := decide (L < 1 - (f.bias : Int))
    let (q2, _) := roundMag rm neg m (e - (L - f.fb)) sticky
    let tiny := lowTiny && !(decide (L = -(f.bias : Int)) && decide (2 ^ (f.fb + 1) ≤ q2))
    if f.big < enc then { bits := f.sgn neg (overflowMag f rm neg), flags := fOr fOF fNX }
    else { bits := f.sgn neg enc, flags := (if inexact then fNX else 0) + (if tiny && inexact then fUF else 0) }

/-- The canonical NaN with the invalid bit where an operand or the operation asks for it. -/
def fnan (f : FFmt) (nv : Bool) : Rnd := { bits := f.nan, flags := if nv then fNV else 0 }

/-- Whether a value is a NaN, and whether it is a signalling one. -/
def isNaN : FV → Bool | .nan _ => true | _ => false
def isSig : FV → Bool | .nan s => s | _ => false

/-- The exact sum of two finite values, as a signed integer and a power of two. -/
def exactAdd (an : Bool) (am : Nat) (ae : Int) (bn : Bool) (bm : Nat) (be : Int) : Int × Int :=
  let e := min ae be
  let A : Int := am * 2 ^ (ae - e).toNat
  let B : Int := bm * 2 ^ (be - e).toNat
  ((if an then -A else A) + (if bn then -B else B), e)

/-- Round a signed exact value; an exact zero takes the sign `zneg`. -/
def froundI (f : FFmt) (rm : Nat) (v : Int) (e : Int) (zneg : Bool) : Rnd :=
  if v = 0 then { bits := f.sgn zneg 0, flags := 0 } else fround f rm (decide (v < 0)) v.natAbs e false

/-- The sign of an exact zero sum of two values (R298). -/
def zeroSign (rm : Nat) (an bn : Bool) : Bool := if an = bn then an else rm == 2

/-- a + b, rounded once. -/
def fadd (f : FFmt) (rm : Nat) (a b : FV) : Rnd :=
  match a, b with
  | .nan s, y => fnan f (s || isSig y)
  | _, .nan s => fnan f s
  | .inf x, .inf y => if x = y then { bits := f.sgn x f.infM, flags := 0 } else fnan f true
  | .inf x, _ => { bits := f.sgn x f.infM, flags := 0 }
  | _, .inf y => { bits := f.sgn y f.infM, flags := 0 }
  | .fin an am ae, .fin bn bm be =>
    let (v, e) := exactAdd an am ae bn bm be
    froundI f rm v e (if am = 0 ∧ bm = 0 then zeroSign rm an bn else rm == 2)

/-- The value with its sign changed. -/
def fneg : FV → FV | .nan s => .nan s | .inf n => .inf (!n) | .fin n m e => .fin (!n) m e

/-- a * b, rounded once. -/
def fmul (f : FFmt) (rm : Nat) (a b : FV) : Rnd :=
  match a, b with
  | .nan s, y => fnan f (s || isSig y)
  | _, .nan s => fnan f s
  | .inf x, .inf y => { bits := f.sgn (x != y) f.infM, flags := 0 }
  | .inf x, .fin y m _ => if m = 0 then fnan f true else { bits := f.sgn (x != y) f.infM, flags := 0 }
  | .fin x m _, .inf y => if m = 0 then fnan f true else { bits := f.sgn (x != y) f.infM, flags := 0 }
  | .fin an am ae, .fin bn bm be => fround f rm (an != bn) (am * bm) (ae + be) false

/-- a * b + d, rounded once. -/
def ffma (f : FFmt) (rm : Nat) (a b d : FV) : Rnd :=
  let sig := isSig a || isSig b || isSig d
  let prod : Option FV :=
    match a, b with
    | .nan _, _ => some (.nan false)
    | _, .nan _ => some (.nan false)
    | .inf x, .inf y => some (.inf (x != y))
    | .inf x, .fin y m _ => if m = 0 then none else some (.inf (x != y))
    | .fin x m _, .inf y => if m = 0 then none else some (.inf (x != y))
    | .fin an am ae, .fin bn bm be => some (.fin (an != bn) (am * bm) (ae + be))
  match prod with
  | none => fnan f true
  | some p =>
    let r := fadd f rm p d
    { r with flags := fOr r.flags (if sig then fNV else 0) }

/-- Compare two finite values: below zero, zero or above zero. -/
def fcmp (a b : FV) : Int :=
  match a, b with
  | .inf x, .inf y => if x = y then 0 else if x then -1 else 1
  | .inf x, _ => if x then -1 else 1
  | _, .inf y => if y then 1 else -1
  | .fin an am ae, .fin bn bm be => (exactAdd an am ae (!bn) bm be).1
  | _, _ => 0

/-- Whether a value carries a negative sign. -/
def fsign : FV → Bool | .inf n => n | .fin n _ _ => n | _ => false

/-- The lesser or greater of two bit patterns, -0 below +0 (R407). -/
def fminmax (f : FFmt) (mx : Bool) (x y : Nat) : Rnd :=
  let a := fdec f x
  let b := fdec f y
  let nv := if isSig a || isSig b then fNV else 0
  if isNaN a ∧ isNaN b then { bits := f.nan, flags := nv }
  else if isNaN a then { bits := y, flags := nv }
  else if isNaN b then { bits := x, flags := nv }
  else
    let c := fcmp a b
    let aLess : Bool := decide (c < 0) || (c == 0 && fsign a && !fsign b)
    { bits := if aLess != mx then x else y, flags := nv }

/-- Round a finite or special value to a format; a NaN becomes the canonical one (R298, R300). -/
def fto (f : FFmt) (rm : Nat) (v : FV) : Rnd :=
  match v with
  | .nan s => fnan f s
  | .inf n => { bits := f.sgn n f.infM, flags := 0 }
  | .fin n m e => fround f rm n m e false

/-- A conversion to an FP8 format under its saturation bit (R301). -/
def ftoFp8 (f : FFmt) (rm : Nat) (sat : Bool) (v : FV) : Rnd :=
  match v with
  | .nan s => fnan f s
  | .inf n =>
    if sat then { bits := f.sgn n f.big, flags := 0 }
    else if f.inf then { bits := f.sgn n f.infM, flags := 0 } else fnan f true
  | .fin n m e =>
    let r := fround f rm n m e false
    if r.flags / 4 % 2 = 1 then
      if sat then { bits := f.sgn n f.big, flags := r.flags }
      else if !f.inf ∧ r.bits % 2 ^ (f.eb + f.fb) = f.nan then { bits := f.nan, flags := r.flags }
      else r
    else r

/-- A conversion to an integer type, which always saturates (R300). -/
def ftoInt (sgn : Bool) (w rm : Nat) (v : FV) : Rnd :=
  match v with
  | .nan _ => { bits := 0, flags := fNV }
  | .inf n => { bits := wrap w (if n then ilo sgn w else ihi sgn w), flags := fNV }
  | .fin n m e =>
    let (q, inexact) := roundMag rm n m e false
    let x : Int := if n then -(q : Int) else q
    if x < ilo sgn w then { bits := wrap w (ilo sgn w), flags := fNV }
    else if ihi sgn w < x then { bits := wrap w (ihi sgn w), flags := fNV }
    else { bits := wrap w x, flags := if inexact then fNX else 0 }

/-- A conversion of an integer to a floating format (R300). -/
def fofInt (f : FFmt) (rm : Nat) (sat : Bool) (x : Int) : Rnd :=
  let r := froundI f rm x 0 false
  if sat ∧ r.flags / 4 % 2 = 1 then { bits := f.sgn (decide (x < 0)) f.big, flags := r.flags } else r

/-- Nearest integer to a signed exact value, ties to even. -/
def nearestI (v : Int) (e : Int) : Int :=
  let (q, _) := roundMag 0 (decide (v < 0)) v.natAbs e false
  if v < 0 then -(q : Int) else q

/-- One element's conversion under VCVT (R408, R409). -/
def convert (x : Nat) (e t : Fmt) (rm : Nat) (sat : Bool) : Rnd :=
  if e.isInt then
    let v := ival e.isSigned e.width x
    if t.isInt then
      { bits := wrap t.width (if sat then satI v (ilo t.isSigned t.width) (ihi t.isSigned t.width) else v), flags := 0 }
    else fofInt (ffOf t) rm sat v
  else
    let v := fdec (ffOf e) x
    if t.isInt then ftoInt t.isSigned t.width rm v
    else if t.isFp8 then ftoFp8 (ffOf t) rm sat v
    else fto (ffOf t) rm v

end Sys2Proof.Machine
end

