-- ==== Sys2Proof/Config.lean ====
section
/-!
DEFINITION. Sys2Proof/Config.lean: what an implementation fixes, and the free values the spec leaves open.

A free value is an opaque constant: it has no body, nothing can evaluate it, and a statement about it holds whatever it
is. The counter `State.free` gives each use an argument of its own.
-/

namespace Sys2Proof.Config

/-- A value the spec leaves open, for the use with the given number. -/
opaque freeValue : Nat → Word

/-- The channel that holds a sector, numbered over the stacks of its die: the spec gives no address mapping of the channels. -/
opaque channelOf : Nat → Nat

/-- The PF vector, among the entries 0 to 63 of R76, of a link alarm (0) and of a thermal alarm (1): the spec numbers neither. -/
opaque alarmVector : Nat → Nat

/-- Whether a tensor of another module, named by module id and handle, is survivable. -/
opaque remoteSurvivable : Nat → Nat → Bool

/-- The ECDSA P-384 signature of a message under Genrek's key (R78). -/
opaque genrekEcdsa : List (BitVec 8) → BitVec 768

/-- The HSS signature of a message under Genrek's root key (R78). -/
opaque genrekHss : List (BitVec 8) → List (BitVec 8)

/-- Whether a signature that Genrek did not make verifies under its P-384 key in the boot ROM, which the spec does not give (R78). -/
opaque otherEcdsa : List (BitVec 8) → BitVec 768 → Bool

/-- Whether a signature that Genrek did not make verifies under its HSS root key (R78). -/
opaque otherHss : List (BitVec 8) → List (BitVec 8) → Bool

/-- The signed parts of the certificates of the device's chain: the device's own, or those of the alarmed identity (R82, R84). -/
opaque chain : Bool → List (List (BitVec 8))

/-- The two signatures that the device's key gives a transcript, or that of the alarmed identity; the HSS signature takes a leaf
(R82, R84). -/
opaque deviceEcdsa : Bool → List (BitVec 8) → BitVec 768
opaque deviceHss : Bool → Nat → List (BitVec 8) → List (BitVec 8)

/-- The digest of an SPDM transcript, by the number of its use. -/
opaque transcript : Nat → List (BitVec 8)

/-- The key of an SPDM session, by the number of its use (R81). -/
opaque sessionKey : Nat → BitVec 256

/-- Escutcheon's challenge to a debugger, by the number of its use (R85). -/
opaque debugChallenge : Nat → BitVec 256

/-- The diagnostic state that a block latches in a snapshot at a time (R64). -/
opaque diagnostic : Nat → Nat → Word

/-- Whether a FINISH message authenticates under a session's key (R81). -/
opaque macOk : BitVec 256 → BitVec 384 → Bool

end Sys2Proof.Config
end

