-- ==== Sys2Proof/Decode.lean ====
section
/-!
DEFINITION. Sys2Proof/Decode.lean: from bits to instructions, total on any bits, and back.

A slot's word is decoded by the map of its slot (R331-R337) and the encoding tables of the instruction chapters
(R352, R364, R374, R393, R412, R422, R447); a stream instruction by R91-R93; a micro-word by R437 and R439. A word no
row claims is rejected with the reason's name; every reason is the ILLEGAL_ENCODING of R329, R92 or R440.
-/

namespace Sys2Proof

/-- Why a word is no instruction. The machine raises ILLEGAL_ENCODING for each of them. -/
inductive DecodeError where
  | reservedOpcode
  | reservedField
  | operandValue
  | wordCount
  deriving DecidableEq, Repr

/-- The field of `n` bits at bit `lo` of a word. -/
def fld (w lo n : Nat) : BitVec n := BitVec.ofNat n (w / 2 ^ lo)

/-- The number held by the `n` bits at bit `lo` of a word. -/
def num (w lo n : Nat) : Nat := w / 2 ^ lo % 2 ^ n

/-- The format held by the four bits at bit `lo` of a word. -/
def fmtAt (w lo : Nat) : Fmt := Fmt.ofCode (num w lo 4)

/-- A decoded word stands only with the operand values its instruction admits. -/
def withOperands (r : Except DecodeError Instr) : Except DecodeError Instr :=
  match r with
  | .ok i => if i.wf then .ok i else .error .operandValue
  | .error e => .error e

/-- The row of the CTL map that a word belongs to. -/
def rawCtl (w : Nat) : Except DecodeError Instr :=
  match num w 26 6 with
  | 1 =>
    .ok (.br (fld w 0 26))
  | 2 =>
    .ok (.brz (fld w 20 6) (fld w 0 20))
  | 3 =>
    .ok (.brnz (fld w 20 6) (fld w 0 20))
  | 4 =>
    if num w 24 1 = 0 then .ok (.loop (fld w 25 1) (fld w 12 12) (fld w 0 12)) else
    if num w 12 6 = 0 ∧ num w 24 1 = 1 then .ok (.loopReg (fld w 25 1) (fld w 18 6) (fld w 0 12)) else
    .error .reservedField
  | 5 =>
    .ok (.call (fld w 20 6) (fld w 0 20))
  | 6 =>
    if num w 0 14 = 0 then .ok (.callr (fld w 20 6) (fld w 14 6)) else
    .error .reservedField
  | 7 =>
    if num w 0 14 = 0 ∧ num w 20 6 = 0 then .ok (.ret (fld w 14 6)) else
    .error .reservedField
  | 8 =>
    if num w 0 26 = 0 then .ok .tend else
    .error .reservedField
  | 9 =>
    if num w 20 6 = 0 then .ok (.trap (fld w 0 20)) else
    .error .reservedField
  | 10 =>
    if num w 0 26 = 0 then .ok .eret else
    if num w 0 26 = 1 then .ok .eretSkip else
    .error .reservedField
  | 11 =>
    if num w 0 8 = 0 then .ok (.waitt (fld w 20 6) (fld w 14 6) (fld w 8 6)) else
    .error .reservedField
  | 12 =>
    if num w 0 8 = 0 ∧ num w 20 6 = 0 then .ok (.waitg (fld w 14 6) (fld w 8 6)) else
    .error .reservedField
  | 13 =>
    if num w 3 23 = 0 then .ok (.drain (fld w 0 3)) else
    .error .reservedField
  | 14 =>
    if num w 3 23 = 0 then .ok (.fenceT (fld w 0 3)) else
    .error .reservedField
  | 15 =>
    if num w 0 26 = 0 then .ok .fenceSvDie else
    if num w 0 26 = 1 then .ok .fenceSvModule else
    .error .reservedField
  | 16 =>
    if num w 12 14 = 0 then .ok (.segchk (fld w 0 12)) else
    .error .reservedField
  | 17 =>
    if num w 12 8 = 0 then .ok (.sysr (fld w 20 6) (fld w 0 12)) else
    .error .reservedField
  | 18 =>
    if num w 12 2 = 0 ∧ num w 20 6 = 0 then .ok (.sysw (fld w 14 6) (fld w 0 12)) else
    .error .reservedField
  | 19 =>
    if num w 0 26 = 0 then .ok .yieldp else
    .error .reservedField
  | 20 =>
    if num w 10 4 = 0 ∧ num w 20 6 = 0 then .ok (.shapepub (fld w 14 6) (fld w 0 10)) else
    if num w 10 16 = 1024 then .ok (.shapepubClr (fld w 0 10)) else
    .error .reservedField
  | 56 => .ok (.ctlHint (fld w 26 2) (fld w 0 26))
  | 57 => .ok (.ctlHint (fld w 26 2) (fld w 0 26))
  | 58 => .ok (.ctlHint (fld w 26 2) (fld w 0 26))
  | 59 => .ok (.ctlHint (fld w 26 2) (fld w 0 26))
  | _ => .error .reservedOpcode

/-- A word of the CTL slot (R331). -/
def decodeCtl (w : Nat) : Except DecodeError Instr := withOperands (rawCtl w)

/-- The row of the S0 and S1 map that a word belongs to. -/
def rawS (w : Nat) : Except DecodeError Instr :=
  match num w 26 6 with
  | 1 =>
    if num w 0 8 = 0 then .ok (.add (fld w 20 6) (fld w 14 6) (fld w 8 6)) else
    if num w 0 8 = 1 then .ok (.sub (fld w 20 6) (fld w 14 6) (fld w 8 6)) else
    if num w 0 8 = 2 then .ok (.and_ (fld w 20 6) (fld w 14 6) (fld w 8 6)) else
    if num w 0 8 = 3 then .ok (.or_ (fld w 20 6) (fld w 14 6) (fld w 8 6)) else
    if num w 0 8 = 4 then .ok (.xor_ (fld w 20 6) (fld w 14 6) (fld w 8 6)) else
    if num w 0 8 = 5 then .ok (.shl (fld w 20 6) (fld w 14 6) (fld w 8 6)) else
    if num w 0 8 = 6 then .ok (.shr (fld w 20 6) (fld w 14 6) (fld w 8 6)) else
    if num w 0 8 = 7 then .ok (.sar (fld w 20 6) (fld w 14 6) (fld w 8 6)) else
    if num w 0 8 = 8 then .ok (.slt (fld w 20 6) (fld w 14 6) (fld w 8 6)) else
    if num w 0 8 = 9 then .ok (.sltu (fld w 20 6) (fld w 14 6) (fld w 8 6)) else
    if num w 0 8 = 10 then .ok (.seq (fld w 20 6) (fld w 14 6) (fld w 8 6)) else
    if num w 0 8 = 11 then .ok (.min (fld w 20 6) (fld w 14 6) (fld w 8 6)) else
    if num w 0 8 = 12 then .ok (.max (fld w 20 6) (fld w 14 6) (fld w 8 6)) else
    if num w 0 8 = 13 then .ok (.minu (fld w 20 6) (fld w 14 6) (fld w 8 6)) else
    if num w 0 8 = 14 then .ok (.maxu (fld w 20 6) (fld w 14 6) (fld w 8 6)) else
    .error .reservedField
  | 2 =>
    if num w 0 8 = 0 then .ok (.mul (fld w 20 6) (fld w 14 6) (fld w 8 6)) else
    if num w 0 8 = 1 then .ok (.mulh (fld w 20 6) (fld w 14 6) (fld w 8 6)) else
    if num w 0 8 = 2 then .ok (.mulhu (fld w 20 6) (fld w 14 6) (fld w 8 6)) else
    .error .reservedField
  | 3 =>
    if num w 0 8 = 0 then .ok (.clmul (fld w 20 6) (fld w 14 6) (fld w 8 6)) else
    .error .reservedField
  | 4 =>
    if num w 0 8 = 0 then .ok (.clmulh (fld w 20 6) (fld w 14 6) (fld w 8 6)) else
    .error .reservedField
  | 5 =>
    if num w 0 2 = 0 then .ok (.sel (fld w 20 6) (fld w 14 6) (fld w 8 6) (fld w 2 6)) else
    .error .reservedField
  | 6 =>
    .ok (.movi (fld w 20 6) (fld w 0 20))
  | 7 =>
    if num w 16 2 = 0 then .ok (.movhi (fld w 20 6) (fld w 18 2) (fld w 0 16)) else
    .error .reservedField
  | 8 =>
    if num w 0 14 = 0 then .ok (.clz (fld w 20 6) (fld w 14 6)) else
    if num w 0 14 = 1 then .ok (.ctz (fld w 20 6) (fld w 14 6)) else
    if num w 0 14 = 2 then .ok (.popc (fld w 20 6) (fld w 14 6)) else
    .error .reservedField
  | 9 =>
    if num w 0 14 = 0 then .ok (.sptest (fld w 20 6) (fld w 14 6)) else
    .error .reservedField
  | 10 =>
    if num w 0 14 = 0 then .ok (.spcastSp (fld w 20 6) (fld w 14 6)) else
    if num w 0 14 = 1 then .ok (.spcastCl (fld w 20 6) (fld w 14 6)) else
    .error .reservedField
  | 11 =>
    if num w 0 8 = 0 then .ok (.gptr (fld w 20 6) (fld w 14 6) (fld w 8 6)) else
    if num w 0 8 = 1 then .ok (.gptrH (fld w 20 6) (fld w 14 6) (fld w 8 6)) else
    .error .reservedField
  | 12 =>
    if num w 0 8 = 0 then .ok (.padd (fld w 20 6) (fld w 14 6) (fld w 8 6)) else
    .error .reservedField
  | 13 =>
    if num w 0 14 = 0 then .ok (.stg (fld w 23 3) (fld w 20 3) (fld w 14 6)) else
    .error .reservedField
  | 14 =>
    if num w 0 14 = 0 then .ok (.shf (fld w 23 3) (fld w 20 3) (fld w 14 6)) else
    .error .reservedField
  | 15 =>
    if num w 0 14 = 0 then .ok (.mpw (fld w 23 3) (fld w 20 3) (fld w 14 6)) else
    .error .reservedField
  | 16 =>
    .ok (.addi (fld w 20 6) (fld w 14 6) (fld w 0 14))
  | 17 =>
    .ok (.andi (fld w 20 6) (fld w 14 6) (fld w 0 14))
  | 18 =>
    .ok (.ori (fld w 20 6) (fld w 14 6) (fld w 0 14))
  | 19 =>
    .ok (.xori (fld w 20 6) (fld w 14 6) (fld w 0 14))
  | 20 =>
    if num w 6 8 = 0 then .ok (.shli (fld w 20 6) (fld w 14 6) (fld w 0 6)) else
    .error .reservedField
  | 21 =>
    if num w 6 8 = 0 then .ok (.shri (fld w 20 6) (fld w 14 6) (fld w 0 6)) else
    .error .reservedField
  | 22 =>
    if num w 6 8 = 0 then .ok (.sari (fld w 20 6) (fld w 14 6) (fld w 0 6)) else
    .error .reservedField
  | 23 =>
    .ok (.slti (fld w 20 6) (fld w 14 6) (fld w 0 14))
  | 24 =>
    .ok (.sltui (fld w 20 6) (fld w 14 6) (fld w 0 14))
  | 25 =>
    .ok (.seqi (fld w 20 6) (fld w 14 6) (fld w 0 14))
  | 56 => .ok (.sHint (fld w 26 2) (fld w 0 26))
  | 57 => .ok (.sHint (fld w 26 2) (fld w 0 26))
  | 58 => .ok (.sHint (fld w 26 2) (fld w 0 26))
  | 59 => .ok (.sHint (fld w 26 2) (fld w 0 26))
  | _ => .error .reservedOpcode

/-- A word of the S0 and S1 slot (R332). -/
def decodeS (w : Nat) : Except DecodeError Instr := withOperands (rawS w)

/-- The row of the LS map that a word belongs to. -/
def rawLs (w : Nat) : Except DecodeError Instr :=
  match num w 26 6 with
  | 1 =>
    .ok (.ld (fld w 20 6) (fld w 14 6) (fld w 12 2) (fld w 11 1) (fld w 0 11))
  | 2 =>
    if num w 11 1 = 0 then .ok (.st (fld w 20 6) (fld w 14 6) (fld w 12 2) (fld w 0 11)) else
    .error .reservedField
  | 3 =>
    if num w 10 4 = 0 then .ok (.vld (fld w 20 6) (fld w 14 6) (fld w 0 10)) else
    .error .reservedField
  | 4 =>
    .ok (.vst (fld w 20 6) (fld w 14 6) (fld w 10 4) (fld w 0 10))
  | 5 =>
    .ok (.vlds (fld w 20 6) (fld w 14 6) (fld w 8 6) (fld w 4 4) (fmtAt w 0))
  | 6 =>
    .ok (.vsts (fld w 20 6) (fld w 14 6) (fld w 8 6) (fld w 4 4) (fmtAt w 0))
  | 7 =>
    .ok (.vldx (fld w 20 6) (fld w 14 6) (fld w 8 6) (fld w 4 4) (fmtAt w 0))
  | 8 =>
    .ok (.vstx (fld w 20 6) (fld w 14 6) (fld w 8 6) (fld w 4 4) (fmtAt w 0))
  | 9 =>
    .ok (.ldl (fld w 20 6) (fld w 14 6) (fld w 12 2) (fld w 0 12))
  | 10 =>
    if num w 10 4 = 0 then .ok (.amoAdd (fld w 20 6) (fld w 14 6) (fld w 9 1) (fld w 0 9)) else
    if num w 10 4 = 1 then .ok (.amoAnd (fld w 20 6) (fld w 14 6) (fld w 9 1) (fld w 0 9)) else
    if num w 10 4 = 2 then .ok (.amoOr (fld w 20 6) (fld w 14 6) (fld w 9 1) (fld w 0 9)) else
    if num w 10 4 = 3 then .ok (.amoXor (fld w 20 6) (fld w 14 6) (fld w 9 1) (fld w 0 9)) else
    if num w 10 4 = 4 then .ok (.amoMin (fld w 20 6) (fld w 14 6) (fld w 9 1) (fld w 0 9)) else
    if num w 10 4 = 5 then .ok (.amoMax (fld w 20 6) (fld w 14 6) (fld w 9 1) (fld w 0 9)) else
    if num w 10 4 = 6 then .ok (.amoMinu (fld w 20 6) (fld w 14 6) (fld w 9 1) (fld w 0 9)) else
    if num w 10 4 = 7 then .ok (.amoMaxu (fld w 20 6) (fld w 14 6) (fld w 9 1) (fld w 0 9)) else
    if num w 10 4 = 8 then .ok (.amoSwap (fld w 20 6) (fld w 14 6) (fld w 9 1) (fld w 0 9)) else
    if num w 9 5 = 18 then .ok (.amoFadd (fld w 20 6) (fld w 14 6) (fld w 0 9)) else
    .error .reservedField
  | 11 =>
    if num w 12 1 = 0 then .ok (.cas (fld w 20 6) (fld w 14 6) (fld w 13 1) (fld w 0 12)) else
    .error .reservedField
  | 12 =>
    if num w 0 3 = 0 ∧ num w 4 4 = 0 ∧ num w 20 6 = 0 then .ok (.redAdd (fld w 14 6) (fld w 8 6) (fld w 3 1)) else
    if num w 0 3 = 0 ∧ num w 4 4 = 1 ∧ num w 20 6 = 0 then .ok (.redAnd (fld w 14 6) (fld w 8 6) (fld w 3 1)) else
    if num w 0 3 = 0 ∧ num w 4 4 = 2 ∧ num w 20 6 = 0 then .ok (.redOr (fld w 14 6) (fld w 8 6) (fld w 3 1)) else
    if num w 0 3 = 0 ∧ num w 4 4 = 3 ∧ num w 20 6 = 0 then .ok (.redXor (fld w 14 6) (fld w 8 6) (fld w 3 1)) else
    if num w 0 3 = 0 ∧ num w 4 4 = 4 ∧ num w 20 6 = 0 then .ok (.redMin (fld w 14 6) (fld w 8 6) (fld w 3 1)) else
    if num w 0 3 = 0 ∧ num w 4 4 = 5 ∧ num w 20 6 = 0 then .ok (.redMax (fld w 14 6) (fld w 8 6) (fld w 3 1)) else
    if num w 0 3 = 0 ∧ num w 4 4 = 6 ∧ num w 20 6 = 0 then .ok (.redMinu (fld w 14 6) (fld w 8 6) (fld w 3 1)) else
    if num w 0 3 = 0 ∧ num w 4 4 = 7 ∧ num w 20 6 = 0 then .ok (.redMaxu (fld w 14 6) (fld w 8 6) (fld w 3 1)) else
    if num w 0 8 = 144 ∧ num w 20 6 = 0 then .ok (.redFadd (fld w 14 6) (fld w 8 6)) else
    .error .reservedField
  | 13 =>
    if num w 0 9 = 0 ∧ num w 13 1 = 1 then .ok (.ldAcq (fld w 20 6) (fld w 14 6) (fld w 12 1) (fld w 9 3)) else
    .error .reservedField
  | 14 =>
    if num w 0 9 = 0 ∧ num w 13 1 = 1 then .ok (.stRel (fld w 20 6) (fld w 14 6) (fld w 12 1) (fld w 9 3)) else
    .error .reservedField
  | 15 =>
    if num w 0 8 = 0 then .ok (.hingeRel (fld w 20 6) (fld w 14 6) (fld w 8 6)) else
    .error .reservedField
  | 16 =>
    if num w 0 8 = 0 then .ok (.hingeAcq (fld w 20 6) (fld w 14 6) (fld w 8 6)) else
    .error .reservedField
  | 17 =>
    if num w 0 12 = 0 ∧ num w 20 6 = 0 then .ok (.bgive (fld w 18 2) (fld w 14 4) (fld w 12 2)) else
    .error .reservedField
  | 18 =>
    if num w 0 8 = 0 ∧ num w 20 6 = 0 then .ok (.syncarm (fld w 14 6) (fld w 8 6)) else
    .error .reservedField
  | 19 =>
    if num w 0 8 = 0 ∧ num w 18 1 = 0 then .ok (.spill (fld w 20 6) (fld w 19 1) (fld w 8 10)) else
    .error .reservedField
  | 20 =>
    if num w 0 8 = 0 ∧ num w 18 1 = 0 then .ok (.fill (fld w 20 6) (fld w 19 1) (fld w 8 10)) else
    .error .reservedField
  | 21 =>
    if num w 0 10 = 0 ∧ num w 20 6 = 0 then .ok (.pref (fld w 14 6) (fld w 10 4)) else
    .error .reservedField
  | 56 => .ok (.lsHint (fld w 26 2) (fld w 0 26))
  | 57 => .ok (.lsHint (fld w 26 2) (fld w 0 26))
  | 58 => .ok (.lsHint (fld w 26 2) (fld w 0 26))
  | 59 => .ok (.lsHint (fld w 26 2) (fld w 0 26))
  | _ => .error .reservedOpcode

/-- A word of the LS slot (R333). -/
def decodeLs (w : Nat) : Except DecodeError Instr := withOperands (rawLs w)

/-- The row of the V0 and V1 map that a word belongs to. -/
def rawV (w : Nat) : Except DecodeError Instr :=
  match num w 26 6 with
  | 1 =>
    .ok (.vadd (fld w 20 6) (fld w 14 6) (fld w 8 6) (fld w 4 4) (fmtAt w 0))
  | 2 =>
    .ok (.vsub (fld w 20 6) (fld w 14 6) (fld w 8 6) (fld w 4 4) (fmtAt w 0))
  | 3 =>
    .ok (.vmul (fld w 20 6) (fld w 14 6) (fld w 8 6) (fld w 4 4) (fmtAt w 0))
  | 4 =>
    .ok (.vmulh (fld w 20 6) (fld w 14 6) (fld w 8 6) (fld w 4 4) (fmtAt w 0))
  | 5 =>
    .ok (.vmin (fld w 20 6) (fld w 14 6) (fld w 8 6) (fld w 4 4) (fmtAt w 0))
  | 6 =>
    .ok (.vmax (fld w 20 6) (fld w 14 6) (fld w 8 6) (fld w 4 4) (fmtAt w 0))
  | 7 =>
    if num w 8 6 = 0 then .ok (.vabs (fld w 20 6) (fld w 14 6) (fld w 4 4) (fmtAt w 0)) else
    .error .reservedField
  | 8 =>
    .ok (.vand (fld w 20 6) (fld w 14 6) (fld w 8 6) (fld w 4 4) (fmtAt w 0))
  | 9 =>
    .ok (.vor (fld w 20 6) (fld w 14 6) (fld w 8 6) (fld w 4 4) (fmtAt w 0))
  | 10 =>
    .ok (.vxor (fld w 20 6) (fld w 14 6) (fld w 8 6) (fld w 4 4) (fmtAt w 0))
  | 11 =>
    .ok (.vandn (fld w 20 6) (fld w 14 6) (fld w 8 6) (fld w 4 4) (fmtAt w 0))
  | 12 =>
    .ok (.vshl (fld w 20 6) (fld w 14 6) (fld w 8 6) (fld w 4 4) (fmtAt w 0))
  | 13 =>
    .ok (.vshr (fld w 20 6) (fld w 14 6) (fld w 8 6) (fld w 4 4) (fmtAt w 0))
  | 14 =>
    .ok (.vsar (fld w 20 6) (fld w 14 6) (fld w 8 6) (fld w 4 4) (fmtAt w 0))
  | 15 =>
    .ok (.vadds (fld w 20 6) (fld w 14 6) (fld w 8 6) (fld w 4 4) (fmtAt w 0))
  | 16 =>
    .ok (.vsubs (fld w 20 6) (fld w 14 6) (fld w 8 6) (fld w 4 4) (fmtAt w 0))
  | 17 =>
    if num w 24 2 = 0 then .ok (.vcmpeq (fld w 20 4) (fld w 14 6) (fld w 8 6) (fld w 4 4) (fmtAt w 0)) else
    .error .reservedField
  | 18 =>
    if num w 24 2 = 0 then .ok (.vcmpne (fld w 20 4) (fld w 14 6) (fld w 8 6) (fld w 4 4) (fmtAt w 0)) else
    .error .reservedField
  | 19 =>
    if num w 24 2 = 0 then .ok (.vcmplt (fld w 20 4) (fld w 14 6) (fld w 8 6) (fld w 4 4) (fmtAt w 0)) else
    .error .reservedField
  | 20 =>
    if num w 24 2 = 0 then .ok (.vcmple (fld w 20 4) (fld w 14 6) (fld w 8 6) (fld w 4 4) (fmtAt w 0)) else
    .error .reservedField
  | 21 =>
    .ok (.vsel (fld w 20 6) (fld w 14 6) (fld w 8 6) (fld w 4 4) (fmtAt w 0))
  | 22 =>
    if num w 8 6 = 0 then .ok (.vbcast (fld w 20 6) (fld w 14 6) (fld w 4 4) (fmtAt w 0)) else
    .error .reservedField
  | 23 =>
    if num w 4 4 = 0 then .ok (.vextr (fld w 20 6) (fld w 14 6) (fld w 8 6) (fmtAt w 0)) else
    .error .reservedField
  | 24 =>
    if num w 4 4 = 0 then .ok (.vinsr (fld w 20 6) (fld w 14 6) (fld w 8 6) (fmtAt w 0)) else
    .error .reservedField
  | 25 =>
    .ok (.vclmulLo (fld w 20 6) (fld w 14 6) (fld w 8 6) (fld w 4 4) (fmtAt w 0))
  | 26 =>
    .ok (.vclmulHi (fld w 20 6) (fld w 14 6) (fld w 8 6) (fld w 4 4) (fmtAt w 0))
  | 27 =>
    if num w 8 6 = 0 then .ok (.vscanAdd (fld w 20 6) (fld w 14 6) (fld w 4 4) (fmtAt w 0)) else
    if num w 8 6 = 1 then .ok (.vscanMin (fld w 20 6) (fld w 14 6) (fld w 4 4) (fmtAt w 0)) else
    if num w 8 6 = 2 then .ok (.vscanMax (fld w 20 6) (fld w 14 6) (fld w 4 4) (fmtAt w 0)) else
    if num w 8 6 = 3 then .ok (.vscanXor (fld w 20 6) (fld w 14 6) (fld w 4 4) (fmtAt w 0)) else
    if num w 8 6 = 4 then .ok (.vscanAnd (fld w 20 6) (fld w 14 6) (fld w 4 4) (fmtAt w 0)) else
    if num w 8 6 = 5 then .ok (.vscanOr (fld w 20 6) (fld w 14 6) (fld w 4 4) (fmtAt w 0)) else
    .error .reservedField
  | 28 =>
    if num w 8 6 = 0 then .ok (.vreduceAdd (fld w 20 6) (fld w 14 6) (fld w 4 4) (fmtAt w 0)) else
    if num w 8 6 = 1 then .ok (.vreduceMin (fld w 20 6) (fld w 14 6) (fld w 4 4) (fmtAt w 0)) else
    if num w 8 6 = 2 then .ok (.vreduceMax (fld w 20 6) (fld w 14 6) (fld w 4 4) (fmtAt w 0)) else
    if num w 8 6 = 3 then .ok (.vreduceXor (fld w 20 6) (fld w 14 6) (fld w 4 4) (fmtAt w 0)) else
    if num w 8 6 = 4 then .ok (.vreduceAnd (fld w 20 6) (fld w 14 6) (fld w 4 4) (fmtAt w 0)) else
    if num w 8 6 = 5 then .ok (.vreduceOr (fld w 20 6) (fld w 14 6) (fld w 4 4) (fmtAt w 0)) else
    .error .reservedField
  | 29 =>
    .ok (.vperm (fld w 20 6) (fld w 14 6) (fld w 8 6) (fld w 4 4) (fmtAt w 0))
  | 30 =>
    if num w 8 6 = 0 then .ok (.vcompress (fld w 20 6) (fld w 14 6) (fld w 4 4) (fmtAt w 0)) else
    .error .reservedField
  | 31 =>
    if num w 8 6 = 0 then .ok (.vexpand (fld w 20 6) (fld w 14 6) (fld w 4 4) (fmtAt w 0)) else
    .error .reservedField
  | 32 =>
    if num w 6 2 = 0 then .ok (.vmergeLo (fld w 20 6) (fld w 14 6) (fld w 8 6) (fld w 4 2) (fmtAt w 0)) else
    .error .reservedField
  | 33 =>
    if num w 6 2 = 0 then .ok (.vmergeHi (fld w 20 6) (fld w 14 6) (fld w 8 6) (fld w 4 2) (fmtAt w 0)) else
    .error .reservedField
  | 34 =>
    if num w 6 2 = 0 then .ok (.vmergekv (fld w 20 6) (fld w 14 6) (fld w 8 6) (fld w 4 2) (fmtAt w 0)) else
    .error .reservedField
  | 35 =>
    .ok (.vfadd (fld w 20 6) (fld w 14 6) (fld w 8 6) (fld w 4 4) (fmtAt w 0))
  | 36 =>
    .ok (.vfsub (fld w 20 6) (fld w 14 6) (fld w 8 6) (fld w 4 4) (fmtAt w 0))
  | 37 =>
    .ok (.vfmul (fld w 20 6) (fld w 14 6) (fld w 8 6) (fld w 4 4) (fmtAt w 0))
  | 38 =>
    .ok (.vfma (fld w 20 6) (fld w 14 6) (fld w 8 6) (fld w 4 4) (fmtAt w 0))
  | 39 =>
    .ok (.vfmin (fld w 20 6) (fld w 14 6) (fld w 8 6) (fld w 4 4) (fmtAt w 0))
  | 40 =>
    .ok (.vfmax (fld w 20 6) (fld w 14 6) (fld w 8 6) (fld w 4 4) (fmtAt w 0))
  | 41 =>
    .ok (.vcvt (fld w 20 6) (fld w 14 6) (fmtAt w 10) (fld w 8 2) (fld w 5 3) (fld w 4 1) (fmtAt w 0))
  | 42 =>
    .ok (.vamax (fld w 20 6) (fld w 14 6) (fld w 8 6) (fld w 4 4) (fmtAt w 0))
  | 43 =>
    if num w 4 1 = 0 then .ok (.vbqpack (fld w 20 6) (fld w 14 6) (fld w 11 3) (fld w 5 6) (fmtAt w 0)) else
    .error .reservedField
  | 44 =>
    if num w 4 1 = 0 then .ok (.vbqunpk (fld w 20 6) (fld w 14 6) (fld w 11 3) (fld w 5 6) (fmtAt w 0)) else
    .error .reservedField
  | 46 =>
    if num w 0 8 = 0 ∧ num w 12 2 = 0 ∧ num w 18 2 = 0 ∧ num w 24 2 = 0 then .ok (.kand (fld w 20 4) (fld w 14 4) (fld w 8 4)) else
    .error .reservedField
  | 47 =>
    if num w 0 8 = 0 ∧ num w 12 2 = 0 ∧ num w 18 2 = 0 ∧ num w 24 2 = 0 then .ok (.kor (fld w 20 4) (fld w 14 4) (fld w 8 4)) else
    .error .reservedField
  | 48 =>
    if num w 0 8 = 0 ∧ num w 12 2 = 0 ∧ num w 18 2 = 0 ∧ num w 24 2 = 0 then .ok (.kxor (fld w 20 4) (fld w 14 4) (fld w 8 4)) else
    .error .reservedField
  | 49 =>
    if num w 0 14 = 0 ∧ num w 18 2 = 0 ∧ num w 24 2 = 0 then .ok (.knot (fld w 20 4) (fld w 14 4)) else
    .error .reservedField
  | 50 =>
    if num w 4 10 = 0 ∧ num w 18 2 = 0 then .ok (.kpop (fld w 20 6) (fld w 14 4) (fmtAt w 0)) else
    .error .reservedField
  | 51 =>
    if num w 0 8 = 0 ∧ num w 24 2 = 0 then .ok (.kset (fld w 20 4) (fld w 14 6) (fld w 8 6)) else
    .error .reservedField
  | 52 =>
    if num w 8 6 = 0 then .ok (.vmov (fld w 20 6) (fld w 14 6) (fld w 4 4) (fmtAt w 0)) else
    if num w 0 14 = 256 ∧ num w 16 4 = 0 then .ok (.vmovFromMg (fld w 20 6) (fld w 14 2)) else
    if num w 0 14 = 512 ∧ num w 22 4 = 0 then .ok (.vmovToMg (fld w 20 2) (fld w 14 6)) else
    if num w 0 14 = 768 ∧ num w 18 2 = 0 then .ok (.vmovMaskLo (fld w 20 6) (fld w 14 4)) else
    if num w 0 14 = 1024 ∧ num w 18 2 = 0 then .ok (.vmovMaskHi (fld w 20 6) (fld w 14 4)) else
    .error .reservedField
  | 56 => .ok (.vHint (fld w 26 2) (fld w 0 26))
  | 57 => .ok (.vHint (fld w 26 2) (fld w 0 26))
  | 58 => .ok (.vHint (fld w 26 2) (fld w 0 26))
  | 59 => .ok (.vHint (fld w 26 2) (fld w 0 26))
  | _ => .error .reservedOpcode

/-- A word of the V0 and V1 slot (R334). -/
def decodeV (w : Nat) : Except DecodeError Instr := withOperands (rawV w)

/-- The row of the SF map that a word belongs to. -/
def rawSf (w : Nat) : Except DecodeError Instr :=
  match num w 26 6 with
  | 1 =>
    if num w 8 6 = 0 then .ok (.fexp2 (fld w 20 6) (fld w 14 6) (fld w 4 4) (fmtAt w 0)) else
    .error .reservedField
  | 2 =>
    if num w 8 6 = 0 then .ok (.flog2 (fld w 20 6) (fld w 14 6) (fld w 4 4) (fmtAt w 0)) else
    .error .reservedField
  | 3 =>
    if num w 8 6 = 0 then .ok (.frcp (fld w 20 6) (fld w 14 6) (fld w 4 4) (fmtAt w 0)) else
    .error .reservedField
  | 4 =>
    if num w 8 6 = 0 then .ok (.frsq (fld w 20 6) (fld w 14 6) (fld w 4 4) (fmtAt w 0)) else
    .error .reservedField
  | 5 =>
    if num w 8 6 = 0 then .ok (.fsqrt (fld w 20 6) (fld w 14 6) (fld w 4 4) (fmtAt w 0)) else
    .error .reservedField
  | 6 =>
    if num w 0 4 = 10 then .ok (.frsqe (fld w 20 6) (fld w 14 6) (fld w 8 6) (fld w 4 4)) else
    .error .reservedField
  | 7 =>
    if num w 8 6 = 0 then .ok (.ftanh (fld w 20 6) (fld w 14 6) (fld w 4 4) (fmtAt w 0)) else
    .error .reservedField
  | 8 =>
    if num w 8 6 = 0 then .ok (.fsig (fld w 20 6) (fld w 14 6) (fld w 4 4) (fmtAt w 0)) else
    .error .reservedField
  | 9 =>
    if num w 8 6 = 0 then .ok (.ferf (fld w 20 6) (fld w 14 6) (fld w 4 4) (fmtAt w 0)) else
    .error .reservedField
  | 10 =>
    if num w 9 5 = 0 ∧ num w 23 3 = 0 then .ok (.scalegen (fld w 20 3) (fld w 14 6) (fld w 8 1) (fld w 4 4) (fmtAt w 0)) else
    .error .reservedField
  | 11 =>
    if num w 0 4 = 0 ∧ num w 23 3 = 0 then .ok (.scld (fld w 20 3) (fld w 14 6) (fld w 4 10)) else
    .error .reservedField
  | 12 =>
    if num w 0 14 = 0 ∧ num w 21 5 = 0 then .ok (.tbld (fld w 20 1) (fld w 14 6)) else
    .error .reservedField
  | 56 => .ok (.sfHint (fld w 26 2) (fld w 0 26))
  | 57 => .ok (.sfHint (fld w 26 2) (fld w 0 26))
  | 58 => .ok (.sfHint (fld w 26 2) (fld w 0 26))
  | 59 => .ok (.sfHint (fld w 26 2) (fld w 0 26))
  | _ => .error .reservedOpcode

/-- A word of the SF slot (R335). -/
def decodeSf (w : Nat) : Except DecodeError Instr := withOperands (rawSf w)

/-- The row of the MX map that a word belongs to. -/
def rawMx (w : Nat) : Except DecodeError Instr :=
  match num w 26 6 with
  | 1 =>
    if num w 0 1 = 0 ∧ num w 2 2 = 0 then .ok (.mxcall (fld w 20 6) (fld w 14 6) (fld w 8 6) (fmtAt w 4) (fld w 1 1)) else
    .error .reservedField
  | 2 =>
    if num w 0 1 = 0 ∧ num w 2 6 = 0 then .ok (.mxjoin (fld w 20 6) (fld w 14 6) (fld w 8 6) (fld w 1 1)) else
    .error .reservedField
  | 3 =>
    if num w 0 1 = 0 ∧ num w 2 6 = 0 then .ok (.mxpart (fld w 20 6) (fld w 14 6) (fld w 8 6) (fld w 1 1)) else
    .error .reservedField
  | 4 =>
    if num w 0 1 = 0 ∧ num w 2 6 = 0 then .ok (.mxnorm (fld w 20 6) (fld w 14 6) (fld w 8 6) (fld w 1 1)) else
    .error .reservedField
  | 5 =>
    if num w 0 1 = 0 ∧ num w 2 6 = 0 then .ok (.mxzero (fld w 20 6) (fld w 14 6) (fld w 8 6) (fld w 1 1)) else
    .error .reservedField
  | 6 =>
    if num w 0 1 = 0 ∧ num w 2 2 = 0 then .ok (.mxrda (fld w 20 6) (fld w 14 6) (fld w 8 6) (fmtAt w 4) (fld w 1 1)) else
    .error .reservedField
  | 7 =>
    if num w 0 1 = 0 ∧ num w 2 2 = 0 then .ok (.mxwra (fld w 20 6) (fld w 14 6) (fld w 8 6) (fmtAt w 4) (fld w 1 1)) else
    .error .reservedField
  | 8 =>
    if num w 0 1 = 0 ∧ num w 2 2 = 0 then .ok (.mxwb (fld w 20 6) (fld w 14 6) (fld w 8 6) (fmtAt w 4) (fld w 1 1)) else
    .error .reservedField
  | 9 =>
    if num w 0 1 = 0 ∧ num w 2 6 = 0 then .ok (.mxucw (fld w 20 6) (fld w 14 6) (fld w 8 6) (fld w 1 1)) else
    .error .reservedField
  | 56 => .ok (.mxHint (fld w 26 2) (fld w 0 26))
  | 57 => .ok (.mxHint (fld w 26 2) (fld w 0 26))
  | 58 => .ok (.mxHint (fld w 26 2) (fld w 0 26))
  | 59 => .ok (.mxHint (fld w 26 2) (fld w 0 26))
  | _ => .error .reservedOpcode

/-- A word of the MX slot (R336). -/
def decodeMx (w : Nat) : Except DecodeError Instr := withOperands (rawMx w)

/-- The row of the XF map that a word belongs to. -/
def rawXf (w : Nat) : Except DecodeError Instr :=
  match num w 26 6 with
  | 1 =>
    if num w 0 1 = 0 then .ok (.xcopy (fld w 20 6) (fld w 14 6) (fld w 8 6) (fld w 2 6) (fld w 1 1)) else
    .error .reservedField
  | 2 =>
    if num w 0 1 = 0 then .ok (.xstore (fld w 20 6) (fld w 14 6) (fld w 8 6) (fld w 2 6) (fld w 1 1)) else
    .error .reservedField
  | 3 =>
    if num w 0 1 = 0 then .ok (.xweight (fld w 20 6) (fld w 14 6) (fld w 8 6) (fld w 2 6) (fld w 1 1)) else
    .error .reservedField
  | 4 =>
    if num w 0 1 = 0 then .ok (.xtrans (fld w 20 6) (fld w 14 6) (fld w 8 6) (fld w 2 6) (fld w 1 1)) else
    .error .reservedField
  | 5 =>
    if num w 0 1 = 0 then .ok (.xgather (fld w 20 6) (fld w 14 6) (fld w 8 6) (fld w 2 6) (fld w 1 1)) else
    .error .reservedField
  | 6 =>
    if num w 0 1 = 0 then .ok (.xkv (fld w 20 6) (fld w 14 6) (fld w 8 6) (fld w 2 6) (fld w 1 1)) else
    .error .reservedField
  | 7 =>
    if num w 0 1 = 0 then .ok (.xsend (fld w 20 6) (fld w 14 6) (fld w 8 6) (fld w 2 6) (fld w 1 1)) else
    .error .reservedField
  | 8 =>
    if num w 0 1 = 0 then .ok (.xred (fld w 20 6) (fld w 14 6) (fld w 8 6) (fld w 2 6) (fld w 1 1)) else
    .error .reservedField
  | 9 =>
    if num w 0 1 = 0 then .ok (.xdecomp (fld w 20 6) (fld w 14 6) (fld w 8 6) (fld w 2 6) (fld w 1 1)) else
    .error .reservedField
  | 10 =>
    if num w 0 1 = 0 then .ok (.xfill (fld w 20 6) (fld w 14 6) (fld w 8 6) (fld w 2 6) (fld w 1 1)) else
    .error .reservedField
  | 11 =>
    if num w 0 1 = 0 then .ok (.xcancel (fld w 20 6) (fld w 14 6) (fld w 8 6) (fld w 2 6) (fld w 1 1)) else
    .error .reservedField
  | 56 => .ok (.xfHint (fld w 26 2) (fld w 0 26))
  | 57 => .ok (.xfHint (fld w 26 2) (fld w 0 26))
  | 58 => .ok (.xfHint (fld w 26 2) (fld w 0 26))
  | 59 => .ok (.xfHint (fld w 26 2) (fld w 0 26))
  | _ => .error .reservedOpcode

/-- A word of the XF slot (R337). -/
def decodeXf (w : Nat) : Except DecodeError Instr := withOperands (rawXf w)

/-- The branch condition a three-bit code names (R99); six and seven name none. -/
def condOf : Nat → Option BrCond
  | 0 => some .eq | 1 => some .ne | 2 => some .lt | 3 => some .ge | 4 => some .ltu | 5 => some .geu
  | _ => none

/-- How many extension words an opcode takes (R93); the hints take any number and are met before this is asked. -/
def extWords (op : Nat) : Nat := if op = 24 then 1 else if op = 25 then 2 else 0

/-- One input entry at bit `lo` of a launch's extension word (R114). -/
def inAt (x lo : Nat) : LaunchIn := { evt := fld x lo 6, valid := fld x (lo + 6) 1, qt := fld x (lo + 8) 5 }

/-- The four input entries of an extension word. -/
def insOf (x : Nat) : LaunchIns := { i0 := inAt x 0, i1 := inAt x 16, i2 := inAt x 32, i3 := inAt x 48 }

/-- The zero bits of the four entries. -/
def insClear (x : Nat) : Bool :=
  num x 7 1 == 0 && num x 13 3 == 0 && num x 23 1 == 0 && num x 29 3 == 0 &&
  num x 39 1 == 0 && num x 45 3 == 0 && num x 55 1 == 0 && num x 61 3 == 0

/-- The prediction fields of a second extension word (R116). -/
def predOf (x : Nat) : PredFields :=
  { site := fld x 0 8, mode := fld x 8 2, dim := fld x 10 2, pct := fld x 12 8, slot := fld x 20 10, fixv := fld x 30 16 }

/-- The row of the stream opcode map (R93) that a primary word and its extension words belong to. -/
noncomputable def rawStream (w : Nat) (xs : List Nat) : Except DecodeError Instr :=
  match num w 58 6 with
  | 1 =>
    if num w 32 24 = 0 then .ok (.streamBr (fld w 0 32)) else
    .error .reservedField
  | 2 =>
    if num w 35 6 = 0 ∧ num w 51 5 = 0 then (match condOf (num w 32 3) with | some cc => .ok (.brc cc (fld w 46 5) (fld w 41 5) (fld w 0 32)) | none => .error .operandValue) else
    .error .reservedField
  | 3 =>
    if num w 32 19 = 0 then .ok (.streamCall (fld w 51 5) (fld w 0 32)) else
    .error .reservedField
  | 4 =>
    if num w 0 46 = 0 ∧ num w 51 5 = 0 then .ok (.streamRet (fld w 46 5)) else
    .error .reservedField
  | 5 =>
    if num w 0 56 = 0 then .ok .streamEnd else
    .error .reservedField
  | 6 =>
    if num w 32 3 = 0 ∧ num w 35 21 = 0 then .ok (.seth (fld w 0 32)) else
    if num w 0 32 = 0 ∧ num w 32 3 = 1 ∧ num w 35 21 = 0 then .ok .sethRemove else
    .error .reservedField
  | 7 =>
    if num w 0 32 = 0 ∧ num w 32 3 = 0 ∧ num w 35 21 = 0 then .ok .streamEret else
    if num w 0 32 = 0 ∧ num w 32 3 = 1 ∧ num w 35 21 = 0 then .ok .streamEretSkip else
    .error .reservedField
  | 8 =>
    if num w 0 35 = 0 ∧ num w 35 6 = 0 then .ok (.streamAdd (fld w 51 5) (fld w 46 5) (fld w 41 5)) else
    if num w 0 35 = 0 ∧ num w 35 6 = 1 then .ok (.streamSub (fld w 51 5) (fld w 46 5) (fld w 41 5)) else
    if num w 0 35 = 0 ∧ num w 35 6 = 2 then .ok (.streamMul (fld w 51 5) (fld w 46 5) (fld w 41 5)) else
    if num w 0 35 = 0 ∧ num w 35 6 = 3 then .ok (.streamMulhu (fld w 51 5) (fld w 46 5) (fld w 41 5)) else
    if num w 0 35 = 0 ∧ num w 35 6 = 4 then .ok (.streamAnd (fld w 51 5) (fld w 46 5) (fld w 41 5)) else
    if num w 0 35 = 0 ∧ num w 35 6 = 5 then .ok (.streamOr (fld w 51 5) (fld w 46 5) (fld w 41 5)) else
    if num w 0 35 = 0 ∧ num w 35 6 = 6 then .ok (.streamXor (fld w 51 5) (fld w 46 5) (fld w 41 5)) else
    if num w 0 35 = 0 ∧ num w 35 6 = 7 then .ok (.streamShl (fld w 51 5) (fld w 46 5) (fld w 41 5)) else
    if num w 0 35 = 0 ∧ num w 35 6 = 8 then .ok (.streamShr (fld w 51 5) (fld w 46 5) (fld w 41 5)) else
    if num w 0 35 = 0 ∧ num w 35 6 = 9 then .ok (.streamSar (fld w 51 5) (fld w 46 5) (fld w 41 5)) else
    if num w 0 35 = 0 ∧ num w 35 6 = 10 then .ok (.streamSlt (fld w 51 5) (fld w 46 5) (fld w 41 5)) else
    if num w 0 35 = 0 ∧ num w 35 6 = 11 then .ok (.streamSltu (fld w 51 5) (fld w 46 5) (fld w 41 5)) else
    if num w 0 35 = 0 ∧ num w 35 6 = 12 then .ok (.streamSeq (fld w 51 5) (fld w 46 5) (fld w 41 5)) else
    if num w 0 35 = 0 ∧ num w 35 6 = 13 then .ok (.streamMin (fld w 51 5) (fld w 46 5) (fld w 41 5)) else
    if num w 0 35 = 0 ∧ num w 35 6 = 14 then .ok (.streamMax (fld w 51 5) (fld w 46 5) (fld w 41 5)) else
    if num w 0 35 = 0 ∧ num w 35 6 = 15 then .ok (.streamMinu (fld w 51 5) (fld w 46 5) (fld w 41 5)) else
    if num w 0 35 = 0 ∧ num w 35 6 = 16 then .ok (.streamMaxu (fld w 51 5) (fld w 46 5) (fld w 41 5)) else
    .error .reservedField
  | 9 =>
    if num w 32 3 = 0 ∧ num w 35 6 = 0 ∧ num w 41 5 = 0 then .ok (.streamAddi (fld w 51 5) (fld w 46 5) (fld w 0 32)) else
    if num w 32 3 = 0 ∧ num w 35 6 = 1 ∧ num w 41 5 = 0 then .ok (.streamSubi (fld w 51 5) (fld w 46 5) (fld w 0 32)) else
    if num w 32 3 = 0 ∧ num w 35 6 = 2 ∧ num w 41 5 = 0 then .ok (.streamMuli (fld w 51 5) (fld w 46 5) (fld w 0 32)) else
    if num w 32 3 = 0 ∧ num w 35 6 = 3 ∧ num w 41 5 = 0 then .ok (.streamMulhui (fld w 51 5) (fld w 46 5) (fld w 0 32)) else
    if num w 32 3 = 0 ∧ num w 35 6 = 4 ∧ num w 41 5 = 0 then .ok (.streamAndi (fld w 51 5) (fld w 46 5) (fld w 0 32)) else
    if num w 32 3 = 0 ∧ num w 35 6 = 5 ∧ num w 41 5 = 0 then .ok (.streamOri (fld w 51 5) (fld w 46 5) (fld w 0 32)) else
    if num w 32 3 = 0 ∧ num w 35 6 = 6 ∧ num w 41 5 = 0 then .ok (.streamXori (fld w 51 5) (fld w 46 5) (fld w 0 32)) else
    if num w 6 29 = 0 ∧ num w 35 6 = 7 ∧ num w 41 5 = 0 then .ok (.streamShli (fld w 51 5) (fld w 46 5) (fld w 0 6)) else
    if num w 6 29 = 0 ∧ num w 35 6 = 8 ∧ num w 41 5 = 0 then .ok (.streamShri (fld w 51 5) (fld w 46 5) (fld w 0 6)) else
    if num w 6 29 = 0 ∧ num w 35 6 = 9 ∧ num w 41 5 = 0 then .ok (.streamSari (fld w 51 5) (fld w 46 5) (fld w 0 6)) else
    if num w 32 3 = 0 ∧ num w 35 6 = 10 ∧ num w 41 5 = 0 then .ok (.streamSlti (fld w 51 5) (fld w 46 5) (fld w 0 32)) else
    if num w 32 3 = 0 ∧ num w 35 6 = 11 ∧ num w 41 5 = 0 then .ok (.streamSltui (fld w 51 5) (fld w 46 5) (fld w 0 32)) else
    if num w 32 3 = 0 ∧ num w 35 6 = 12 ∧ num w 41 5 = 0 then .ok (.streamSeqi (fld w 51 5) (fld w 46 5) (fld w 0 32)) else
    if num w 32 3 = 0 ∧ num w 35 6 = 13 ∧ num w 41 5 = 0 then .ok (.streamMini (fld w 51 5) (fld w 46 5) (fld w 0 32)) else
    if num w 32 3 = 0 ∧ num w 35 6 = 14 ∧ num w 41 5 = 0 then .ok (.streamMaxi (fld w 51 5) (fld w 46 5) (fld w 0 32)) else
    if num w 32 3 = 0 ∧ num w 35 6 = 15 ∧ num w 41 5 = 0 then .ok (.streamMinui (fld w 51 5) (fld w 46 5) (fld w 0 32)) else
    if num w 32 3 = 0 ∧ num w 35 6 = 16 ∧ num w 41 5 = 0 then .ok (.streamMaxui (fld w 51 5) (fld w 46 5) (fld w 0 32)) else
    .error .reservedField
  | 10 =>
    if num w 32 19 = 0 then .ok (.streamMovi (fld w 51 5) (fld w 0 32)) else
    .error .reservedField
  | 11 =>
    if num w 32 19 = 0 then .ok (.streamMovhi (fld w 51 5) (fld w 0 32)) else
    .error .reservedField
  | 12 =>
    if num w 0 35 = 0 ∧ num w 41 10 = 0 then .ok (.srd (fld w 51 5) (fld w 35 6)) else
    .error .reservedField
  | 13 =>
    if num w 0 56 = 0 then .ok .nop else
    .error .reservedField
  | 16 =>
    if num w 35 11 = 0 then .ok (.ldq (fld w 51 5) (fld w 46 5) (fld w 32 2) (fld w 34 1) (fld w 0 32)) else
    .error .reservedField
  | 17 =>
    if num w 34 7 = 0 ∧ num w 51 5 = 0 then .ok (.stq (fld w 46 5) (fld w 41 5) (fld w 32 2) (fld w 0 32)) else
    .error .reservedField
  | 18 =>
    if num w 0 32 = 0 ∧ num w 34 1 = 0 ∧ num w 38 18 = 0 then .ok (.fence (fld w 35 3) (fld w 32 1) (fld w 33 1)) else
    .error .reservedField
  | 19 =>
    if num w 0 41 = 0 then .ok (.waitmb (fld w 51 5) (fld w 46 5) (fld w 41 5)) else
    .error .reservedField
  | 20 =>
    if num w 32 14 = 0 ∧ num w 51 5 = 0 then .ok (.irq (fld w 46 5) (fld w 0 32)) else
    .error .reservedField
  | 24 =>
    if num w 0 32 = 0 ∧ num w 33 2 = 0 ∧ num w 41 5 = 0 ∧ num w 51 5 = 0 then (match xs with | [x] => if insClear x then .ok (.launch (fld w 46 5) (fld w 35 6) (fld w 32 1) (insOf x)) else .error .reservedField | _ => .error .wordCount) else
    .error .reservedField
  | 25 =>
    if num w 0 32 = 0 ∧ num w 33 2 = 0 ∧ num w 51 5 = 0 then (match xs with | [x, y] => if insClear x ∧ num y 46 18 = 0 then .ok (.launchp (fld w 46 5) (fld w 41 5) (fld w 35 6) (fld w 32 1) (insOf x) (predOf y)) else .error .reservedField | _ => .error .wordCount) else
    .error .reservedField
  | 26 =>
    if num w 32 3 = 0 ∧ num w 41 5 = 0 ∧ num w 51 5 = 0 then .ok (.waite (fld w 46 5) (fld w 35 6) (fld w 0 32)) else
    .error .reservedField
  | 27 =>
    if num w 16 16 = 0 ∧ num w 32 3 = 0 ∧ num w 41 5 = 0 then .ok (.sige (fld w 51 5) (fld w 46 5) (fld w 35 6) (fld w 0 16)) else
    if num w 16 16 = 0 ∧ num w 32 3 = 1 ∧ num w 41 5 = 0 ∧ num w 51 5 = 0 then .ok (.sigeRemote (fld w 46 5) (fld w 35 6) (fld w 0 16)) else
    .error .reservedField
  | 28 =>
    if num w 10 22 = 0 ∧ num w 32 3 = 0 ∧ num w 35 11 = 0 ∧ num w 51 5 = 0 then .ok (.shpub (fld w 46 5) (fld w 0 10)) else
    if num w 10 22 = 0 ∧ num w 32 3 = 1 ∧ num w 35 21 = 0 then .ok (.shpubClr (fld w 0 10)) else
    .error .reservedField
  | 29 =>
    if num w 0 32 = 0 ∧ num w 33 2 = 0 ∧ num w 41 5 = 0 ∧ num w 51 5 = 0 then .ok (.coll (fld w 46 5) (fld w 35 6) (fld w 32 1)) else
    .error .reservedField
  | 30 =>
    if num w 8 38 = 0 ∧ num w 51 5 = 0 then .ok (.deadline (fld w 46 5) (fld w 0 8)) else
    .error .reservedField
  | 31 =>
    if num w 2 54 = 0 then .ok (.prio (fld w 0 2)) else
    .error .reservedField
  | 32 =>
    if num w 0 46 = 0 then .ok (.tdecl (fld w 51 5) (fld w 46 5)) else
    .error .reservedField
  | 33 =>
    if num w 0 46 = 0 ∧ num w 51 5 = 0 then .ok (.tfree (fld w 46 5)) else
    .error .reservedField
  | 34 =>
    if num w 0 32 = 0 ∧ num w 33 8 = 0 ∧ num w 51 5 = 0 then .ok (.tpin (fld w 46 5) (fld w 41 5) (fld w 32 1)) else
    .error .reservedField
  | 35 =>
    if num w 0 41 = 0 ∧ num w 51 5 = 0 then .ok (.tunpin (fld w 46 5) (fld w 41 5)) else
    .error .reservedField
  | 36 =>
    if num w 0 1 = 0 ∧ num w 32 14 = 0 ∧ num w 51 5 = 0 then .ok (.trecOpen (fld w 46 5) (fld w 1 31)) else
    .error .reservedField
  | 37 =>
    if num w 0 56 = 0 then .ok .trecClose else
    .error .reservedField
  | 38 =>
    if num w 0 41 = 0 ∧ num w 51 5 = 0 then .ok (.tuse (fld w 46 5) (fld w 41 5)) else
    .error .reservedField
  | 39 =>
    if num w 4 42 = 0 ∧ num w 51 5 = 0 then .ok (.tprot (fld w 46 5) (fld w 0 4)) else
    .error .reservedField
  | 40 =>
    if num w 12 34 = 0 ∧ num w 51 5 = 0 then .ok (.streamMacro (fld w 0 8) (fld w 8 4) (fld w 46 5)) else
    .error .reservedField
  | 41 =>
    if num w 0 46 = 0 ∧ num w 51 5 = 0 then .ok (.mload (fld w 46 5)) else
    .error .reservedField
  | 48 => .ok (.streamHint (fld w 58 3) (fld w 56 2) (fld w 0 56))
  | 49 => .ok (.streamHint (fld w 58 3) (fld w 56 2) (fld w 0 56))
  | 50 => .ok (.streamHint (fld w 58 3) (fld w 56 2) (fld w 0 56))
  | 51 => .ok (.streamHint (fld w 58 3) (fld w 56 2) (fld w 0 56))
  | 52 => .ok (.streamHint (fld w 58 3) (fld w 56 2) (fld w 0 56))
  | 53 => .ok (.streamHint (fld w 58 3) (fld w 56 2) (fld w 0 56))
  | 54 => .ok (.streamHint (fld w 58 3) (fld w 56 2) (fld w 0 56))
  | 55 => .ok (.streamHint (fld w 58 3) (fld w 56 2) (fld w 0 56))
  | _ => .error .reservedOpcode

/-- Whether a primary word is one of the hints (R93). -/
def isStreamHint (w : Nat) : Bool := num w 61 3 == 6

/-- A stream instruction from its primary word and the words that follow: a primary word whose XN is not the map's is
refused (R92), and a hint is taken with any XN (R94). -/
noncomputable def decodeStream (w : Nat) (xs : List Nat) : Except DecodeError Instr :=
  if isStreamHint w then withOperands (rawStream w [])
  else if num w 56 2 = extWords (num w 58 6) then withOperands (rawStream w (xs.take (num w 56 2)))
  else .error .wordCount

/-- The row of the micro-operation table (R439) that a micro-word belongs to, with every unused field zero (R440). -/
def rawMicro (w : Nat) : Except DecodeError Instr :=
  match num w 59 5 with
  | 1 => if num w 0 32 = 0 ∧ num w 34 22 = 0 then .ok (.mloada (fld w 56 3) (fld w 32 1) (fld w 33 1)) else .error .reservedField
  | 2 => if num w 0 32 = 0 ∧ num w 33 23 = 0 then .ok (.mloadb (fld w 56 3) (fld w 32 1)) else .error .reservedField
  | 3 => if num w 0 59 = 0 then .ok .mmac else .error .reservedField
  | 4 => if num w 0 59 = 0 then .ok .mmact else .error .reservedField
  | 5 => if num w 0 53 = 0 then .ok (.mscale (fld w 56 3) (fld w 53 3)) else .error .reservedField
  | 6 => if num w 0 59 = 0 then .ok .mbcast else .error .reservedField
  | 7 => if num w 0 32 = 0 ∧ num w 48 11 = 0 then .ok (.mskip (fld w 32 16)) else .error .reservedField
  | 8 => if num w 0 53 = 0 then .ok (.mnext (fld w 56 3) (fld w 53 3)) else .error .reservedField
  | 9 => if num w 0 32 = 0 ∧ num w 48 3 = 0 ∧ num w 53 6 = 0 then .ok (.mloop (fld w 51 2) (fld w 32 16)) else .error .reservedField
  | 10 => if num w 0 32 = 0 ∧ num w 40 19 = 0 then .ok (.mnorm (fld w 32 8)) else .error .reservedField
  | 11 => if num w 0 59 = 0 then .ok .mend else .error .reservedField
  | 12 => if num w 0 59 = 0 then .ok .msync else .error .reservedField
  | _ => .error .reservedOpcode

/-- A micro-word (R437, R440). -/
def decodeMicro (w : Nat) : Except DecodeError Instr := withOperands (rawMicro w)

/-- A field's value moved to bit `lo` of a word. -/
def put (v lo : Nat) : Nat := v * 2 ^ lo

/-- The word of a launch input entry (R114). -/
def inWord (i : LaunchIn) : Nat := i.evt.toNat + put i.valid.toNat 6 + put i.qt.toNat 8

/-- The extension word of a launch's four input entries (R114). -/
def insWord (x : LaunchIns) : Nat := inWord x.i0 + put (inWord x.i1) 16 + put (inWord x.i2) 32 + put (inWord x.i3) 48

/-- The second extension word of LAUNCHP (R116). -/
def predWord (p : PredFields) : Nat :=
  p.site.toNat + put p.mode.toNat 8 + put p.dim.toNat 10 + put p.pct.toNat 12 + put p.slot.toNat 20 + put p.fixv.toNat 30

/-- The word of an instruction of the CTL slot. -/
def encodeCtl : Instr → Option Nat
  | .br i => some (0x4000000 + i.toNat)
  | .brz a i => some (0x8000000 + put a.toNat 20 + i.toNat)
  | .brnz a i => some (0xc000000 + put a.toNat 20 + i.toNat)
  | .loop c n e => some (0x10000000 + put c.toNat 25 + put n.toNat 12 + e.toNat)
  | .loopReg c a e => some (0x11000000 + put c.toNat 25 + put a.toNat 18 + e.toNat)
  | .call d i => some (0x14000000 + put d.toNat 20 + i.toNat)
  | .callr d a => some (0x18000000 + put d.toNat 20 + put a.toNat 14)
  | .ret a => some (0x1c000000 + put a.toNat 14)
  | .tend => some (0x20000000)
  | .trap i => some (0x24000000 + i.toNat)
  | .eret => some (0x28000000)
  | .eretSkip => some (0x28000001)
  | .waitt x y z => some (0x2c000000 + put x.toNat 20 + put y.toNat 14 + put z.toNat 8)
  | .waitg a b => some (0x30000000 + put a.toNat 14 + put b.toNat 8)
  | .drain s => some (0x34000000 + s.toNat)
  | .fenceT s => some (0x38000000 + s.toNat)
  | .fenceSvDie => some (0x3c000000)
  | .fenceSvModule => some (0x3c000001)
  | .segchk c => some (0x40000000 + c.toNat)
  | .sysr d i => some (0x44000000 + put d.toNat 20 + i.toNat)
  | .sysw a i => some (0x48000000 + put a.toNat 14 + i.toNat)
  | .yieldp => some (0x4c000000)
  | .shapepub a s => some (0x50000000 + put a.toNat 14 + s.toNat)
  | .shapepubClr s => some (0x50100000 + s.toNat)
  | .ctlHint h x => some (0xe0000000 + put h.toNat 26 + x.toNat)
  | _ => none

/-- The word of an instruction of the S0 and S1 slots. -/
def encodeS : Instr → Option Nat
  | .add d a b => some (0x4000000 + put d.toNat 20 + put a.toNat 14 + put b.toNat 8)
  | .sub d a b => some (0x4000001 + put d.toNat 20 + put a.toNat 14 + put b.toNat 8)
  | .and_ d a b => some (0x4000002 + put d.toNat 20 + put a.toNat 14 + put b.toNat 8)
  | .or_ d a b => some (0x4000003 + put d.toNat 20 + put a.toNat 14 + put b.toNat 8)
  | .xor_ d a b => some (0x4000004 + put d.toNat 20 + put a.toNat 14 + put b.toNat 8)
  | .shl d a b => some (0x4000005 + put d.toNat 20 + put a.toNat 14 + put b.toNat 8)
  | .shr d a b => some (0x4000006 + put d.toNat 20 + put a.toNat 14 + put b.toNat 8)
  | .sar d a b => some (0x4000007 + put d.toNat 20 + put a.toNat 14 + put b.toNat 8)
  | .slt d a b => some (0x4000008 + put d.toNat 20 + put a.toNat 14 + put b.toNat 8)
  | .sltu d a b => some (0x4000009 + put d.toNat 20 + put a.toNat 14 + put b.toNat 8)
  | .seq d a b => some (0x400000a + put d.toNat 20 + put a.toNat 14 + put b.toNat 8)
  | .min d a b => some (0x400000b + put d.toNat 20 + put a.toNat 14 + put b.toNat 8)
  | .max d a b => some (0x400000c + put d.toNat 20 + put a.toNat 14 + put b.toNat 8)
  | .minu d a b => some (0x400000d + put d.toNat 20 + put a.toNat 14 + put b.toNat 8)
  | .maxu d a b => some (0x400000e + put d.toNat 20 + put a.toNat 14 + put b.toNat 8)
  | .mul d a b => some (0x8000000 + put d.toNat 20 + put a.toNat 14 + put b.toNat 8)
  | .mulh d a b => some (0x8000001 + put d.toNat 20 + put a.toNat 14 + put b.toNat 8)
  | .mulhu d a b => some (0x8000002 + put d.toNat 20 + put a.toNat 14 + put b.toNat 8)
  | .clmul d a b => some (0xc000000 + put d.toNat 20 + put a.toNat 14 + put b.toNat 8)
  | .clmulh d a b => some (0x10000000 + put d.toNat 20 + put a.toNat 14 + put b.toNat 8)
  | .sel d a b c => some (0x14000000 + put d.toNat 20 + put a.toNat 14 + put b.toNat 8 + put c.toNat 2)
  | .movi d i => some (0x18000000 + put d.toNat 20 + i.toNat)
  | .movhi d p i => some (0x1c000000 + put d.toNat 20 + put p.toNat 18 + i.toNat)
  | .clz d a => some (0x20000000 + put d.toNat 20 + put a.toNat 14)
  | .ctz d a => some (0x20000001 + put d.toNat 20 + put a.toNat 14)
  | .popc d a => some (0x20000002 + put d.toNat 20 + put a.toNat 14)
  | .sptest d a => some (0x24000000 + put d.toNat 20 + put a.toNat 14)
  | .spcastSp d a => some (0x28000000 + put d.toNat 20 + put a.toNat 14)
  | .spcastCl d a => some (0x28000001 + put d.toNat 20 + put a.toNat 14)
  | .gptr d a b => some (0x2c000000 + put d.toNat 20 + put a.toNat 14 + put b.toNat 8)
  | .gptrH d a b => some (0x2c000001 + put d.toNat 20 + put a.toNat 14 + put b.toNat 8)
  | .padd d a b => some (0x30000000 + put d.toNat 20 + put a.toNat 14 + put b.toNat 8)
  | .stg r p a => some (0x34000000 + put r.toNat 23 + put p.toNat 20 + put a.toNat 14)
  | .shf r p a => some (0x38000000 + put r.toNat 23 + put p.toNat 20 + put a.toNat 14)
  | .mpw r p a => some (0x3c000000 + put r.toNat 23 + put p.toNat 20 + put a.toNat 14)
  | .addi d a i => some (0x40000000 + put d.toNat 20 + put a.toNat 14 + i.toNat)
  | .andi d a i => some (0x44000000 + put d.toNat 20 + put a.toNat 14 + i.toNat)
  | .ori d a i => some (0x48000000 + put d.toNat 20 + put a.toNat 14 + i.toNat)
  | .xori d a i => some (0x4c000000 + put d.toNat 20 + put a.toNat 14 + i.toNat)
  | .shli d a i => some (0x50000000 + put d.toNat 20 + put a.toNat 14 + i.toNat)
  | .shri d a i => some (0x54000000 + put d.toNat 20 + put a.toNat 14 + i.toNat)
  | .sari d a i => some (0x58000000 + put d.toNat 20 + put a.toNat 14 + i.toNat)
  | .slti d a i => some (0x5c000000 + put d.toNat 20 + put a.toNat 14 + i.toNat)
  | .sltui d a i => some (0x60000000 + put d.toNat 20 + put a.toNat 14 + i.toNat)
  | .seqi d a i => some (0x64000000 + put d.toNat 20 + put a.toNat 14 + i.toNat)
  | .sHint h x => some (0xe0000000 + put h.toNat 26 + x.toNat)
  | _ => none

/-- The word of an instruction of the LS slot. -/
def encodeLs : Instr → Option Nat
  | .ld d a z x i => some (0x4000000 + put d.toNat 20 + put a.toNat 14 + put z.toNat 12 + put x.toNat 11 + i.toNat)
  | .st b a z i => some (0x8000000 + put b.toNat 20 + put a.toNat 14 + put z.toNat 12 + i.toNat)
  | .vld d a i => some (0xc000000 + put d.toNat 20 + put a.toNat 14 + i.toNat)
  | .vst b a k i => some (0x10000000 + put b.toNat 20 + put a.toNat 14 + put k.toNat 10 + i.toNat)
  | .vlds d a s k e => some (0x14000000 + put d.toNat 20 + put a.toNat 14 + put s.toNat 8 + put k.toNat 4 + e.code)
  | .vsts b a s k e => some (0x18000000 + put b.toNat 20 + put a.toNat 14 + put s.toNat 8 + put k.toNat 4 + e.code)
  | .vldx d a x k e => some (0x1c000000 + put d.toNat 20 + put a.toNat 14 + put x.toNat 8 + put k.toNat 4 + e.code)
  | .vstx b a x k e => some (0x20000000 + put b.toNat 20 + put a.toNat 14 + put x.toNat 8 + put k.toNat 4 + e.code)
  | .ldl d a f r => some (0x24000000 + put d.toNat 20 + put a.toNat 14 + put f.toNat 12 + r.toNat)
  | .amoAdd d a w q => some (0x28000000 + put d.toNat 20 + put a.toNat 14 + put w.toNat 9 + q.toNat)
  | .amoAnd d a w q => some (0x28000400 + put d.toNat 20 + put a.toNat 14 + put w.toNat 9 + q.toNat)
  | .amoOr d a w q => some (0x28000800 + put d.toNat 20 + put a.toNat 14 + put w.toNat 9 + q.toNat)
  | .amoXor d a w q => some (0x28000c00 + put d.toNat 20 + put a.toNat 14 + put w.toNat 9 + q.toNat)
  | .amoMin d a w q => some (0x28001000 + put d.toNat 20 + put a.toNat 14 + put w.toNat 9 + q.toNat)
  | .amoMax d a w q => some (0x28001400 + put d.toNat 20 + put a.toNat 14 + put w.toNat 9 + q.toNat)
  | .amoMinu d a w q => some (0x28001800 + put d.toNat 20 + put a.toNat 14 + put w.toNat 9 + q.toNat)
  | .amoMaxu d a w q => some (0x28001c00 + put d.toNat 20 + put a.toNat 14 + put w.toNat 9 + q.toNat)
  | .amoSwap d a w q => some (0x28002000 + put d.toNat 20 + put a.toNat 14 + put w.toNat 9 + q.toNat)
  | .amoFadd d a q => some (0x28002400 + put d.toNat 20 + put a.toNat 14 + q.toNat)
  | .cas d a w r => some (0x2c000000 + put d.toNat 20 + put a.toNat 14 + put w.toNat 13 + r.toNat)
  | .redAdd a b w => some (0x30000000 + put a.toNat 14 + put b.toNat 8 + put w.toNat 3)
  | .redAnd a b w => some (0x30000010 + put a.toNat 14 + put b.toNat 8 + put w.toNat 3)
  | .redOr a b w => some (0x30000020 + put a.toNat 14 + put b.toNat 8 + put w.toNat 3)
  | .redXor a b w => some (0x30000030 + put a.toNat 14 + put b.toNat 8 + put w.toNat 3)
  | .redMin a b w => some (0x30000040 + put a.toNat 14 + put b.toNat 8 + put w.toNat 3)
  | .redMax a b w => some (0x30000050 + put a.toNat 14 + put b.toNat 8 + put w.toNat 3)
  | .redMinu a b w => some (0x30000060 + put a.toNat 14 + put b.toNat 8 + put w.toNat 3)
  | .redMaxu a b w => some (0x30000070 + put a.toNat 14 + put b.toNat 8 + put w.toNat 3)
  | .redFadd a b => some (0x30000090 + put a.toNat 14 + put b.toNat 8)
  | .ldAcq d a z s => some (0x34002000 + put d.toNat 20 + put a.toNat 14 + put z.toNat 12 + put s.toNat 9)
  | .stRel b a z s => some (0x38002000 + put b.toNat 20 + put a.toNat 14 + put z.toNat 12 + put s.toNat 9)
  | .hingeRel c a b => some (0x3c000000 + put c.toNat 20 + put a.toNat 14 + put b.toNat 8)
  | .hingeAcq d a b => some (0x40000000 + put d.toNat 20 + put a.toNat 14 + put b.toNat 8)
  | .bgive h i n => some (0x44000000 + put h.toNat 18 + put i.toNat 14 + put n.toNat 12)
  | .syncarm a b => some (0x48000000 + put a.toNat 14 + put b.toNat 8)
  | .spill b v s => some (0x4c000000 + put b.toNat 20 + put v.toNat 19 + put s.toNat 8)
  | .fill d v s => some (0x50000000 + put d.toNat 20 + put v.toNat 19 + put s.toNat 8)
  | .pref a n => some (0x54000000 + put a.toNat 14 + put n.toNat 10)
  | .lsHint h x => some (0xe0000000 + put h.toNat 26 + x.toNat)
  | _ => none

/-- The word of an instruction of the V0 and V1 slots. -/
def encodeV : Instr → Option Nat
  | .vadd d a b k e => some (0x4000000 + put d.toNat 20 + put a.toNat 14 + put b.toNat 8 + put k.toNat 4 + e.code)
  | .vsub d a b k e => some (0x8000000 + put d.toNat 20 + put a.toNat 14 + put b.toNat 8 + put k.toNat 4 + e.code)
  | .vmul d a b k e => some (0xc000000 + put d.toNat 20 + put a.toNat 14 + put b.toNat 8 + put k.toNat 4 + e.code)
  | .vmulh d a b k e => some (0x10000000 + put d.toNat 20 + put a.toNat 14 + put b.toNat 8 + put k.toNat 4 + e.code)
  | .vmin d a b k e => some (0x14000000 + put d.toNat 20 + put a.toNat 14 + put b.toNat 8 + put k.toNat 4 + e.code)
  | .vmax d a b k e => some (0x18000000 + put d.toNat 20 + put a.toNat 14 + put b.toNat 8 + put k.toNat 4 + e.code)
  | .vabs d a k e => some (0x1c000000 + put d.toNat 20 + put a.toNat 14 + put k.toNat 4 + e.code)
  | .vand d a b k e => some (0x20000000 + put d.toNat 20 + put a.toNat 14 + put b.toNat 8 + put k.toNat 4 + e.code)
  | .vor d a b k e => some (0x24000000 + put d.toNat 20 + put a.toNat 14 + put b.toNat 8 + put k.toNat 4 + e.code)
  | .vxor d a b k e => some (0x28000000 + put d.toNat 20 + put a.toNat 14 + put b.toNat 8 + put k.toNat 4 + e.code)
  | .vandn d a b k e => some (0x2c000000 + put d.toNat 20 + put a.toNat 14 + put b.toNat 8 + put k.toNat 4 + e.code)
  | .vshl d a b k e => some (0x30000000 + put d.toNat 20 + put a.toNat 14 + put b.toNat 8 + put k.toNat 4 + e.code)
  | .vshr d a b k e => some (0x34000000 + put d.toNat 20 + put a.toNat 14 + put b.toNat 8 + put k.toNat 4 + e.code)
  | .vsar d a b k e => some (0x38000000 + put d.toNat 20 + put a.toNat 14 + put b.toNat 8 + put k.toNat 4 + e.code)
  | .vadds d a b k e => some (0x3c000000 + put d.toNat 20 + put a.toNat 14 + put b.toNat 8 + put k.toNat 4 + e.code)
  | .vsubs d a b k e => some (0x40000000 + put d.toNat 20 + put a.toNat 14 + put b.toNat 8 + put k.toNat 4 + e.code)
  | .vcmpeq d a b k e => some (0x44000000 + put d.toNat 20 + put a.toNat 14 + put b.toNat 8 + put k.toNat 4 + e.code)
  | .vcmpne d a b k e => some (0x48000000 + put d.toNat 20 + put a.toNat 14 + put b.toNat 8 + put k.toNat 4 + e.code)
  | .vcmplt d a b k e => some (0x4c000000 + put d.toNat 20 + put a.toNat 14 + put b.toNat 8 + put k.toNat 4 + e.code)
  | .vcmple d a b k e => some (0x50000000 + put d.toNat 20 + put a.toNat 14 + put b.toNat 8 + put k.toNat 4 + e.code)
  | .vsel d a b k e => some (0x54000000 + put d.toNat 20 + put a.toNat 14 + put b.toNat 8 + put k.toNat 4 + e.code)
  | .vbcast d a k e => some (0x58000000 + put d.toNat 20 + put a.toNat 14 + put k.toNat 4 + e.code)
  | .vextr d a b e => some (0x5c000000 + put d.toNat 20 + put a.toNat 14 + put b.toNat 8 + e.code)
  | .vinsr d a b e => some (0x60000000 + put d.toNat 20 + put a.toNat 14 + put b.toNat 8 + e.code)
  | .vclmulLo d a b k e => some (0x64000000 + put d.toNat 20 + put a.toNat 14 + put b.toNat 8 + put k.toNat 4 + e.code)
  | .vclmulHi d a b k e => some (0x68000000 + put d.toNat 20 + put a.toNat 14 + put b.toNat 8 + put k.toNat 4 + e.code)
  | .vscanAdd d a k e => some (0x6c000000 + put d.toNat 20 + put a.toNat 14 + put k.toNat 4 + e.code)
  | .vscanMin d a k e => some (0x6c000100 + put d.toNat 20 + put a.toNat 14 + put k.toNat 4 + e.code)
  | .vscanMax d a k e => some (0x6c000200 + put d.toNat 20 + put a.toNat 14 + put k.toNat 4 + e.code)
  | .vscanXor d a k e => some (0x6c000300 + put d.toNat 20 + put a.toNat 14 + put k.toNat 4 + e.code)
  | .vscanAnd d a k e => some (0x6c000400 + put d.toNat 20 + put a.toNat 14 + put k.toNat 4 + e.code)
  | .vscanOr d a k e => some (0x6c000500 + put d.toNat 20 + put a.toNat 14 + put k.toNat 4 + e.code)
  | .vreduceAdd d a k e => some (0x70000000 + put d.toNat 20 + put a.toNat 14 + put k.toNat 4 + e.code)
  | .vreduceMin d a k e => some (0x70000100 + put d.toNat 20 + put a.toNat 14 + put k.toNat 4 + e.code)
  | .vreduceMax d a k e => some (0x70000200 + put d.toNat 20 + put a.toNat 14 + put k.toNat 4 + e.code)
  | .vreduceXor d a k e => some (0x70000300 + put d.toNat 20 + put a.toNat 14 + put k.toNat 4 + e.code)
  | .vreduceAnd d a k e => some (0x70000400 + put d.toNat 20 + put a.toNat 14 + put k.toNat 4 + e.code)
  | .vreduceOr d a k e => some (0x70000500 + put d.toNat 20 + put a.toNat 14 + put k.toNat 4 + e.code)
  | .vperm d a b k e => some (0x74000000 + put d.toNat 20 + put a.toNat 14 + put b.toNat 8 + put k.toNat 4 + e.code)
  | .vcompress d a k e => some (0x78000000 + put d.toNat 20 + put a.toNat 14 + put k.toNat 4 + e.code)
  | .vexpand d a k e => some (0x7c000000 + put d.toNat 20 + put a.toNat 14 + put k.toNat 4 + e.code)
  | .vmergeLo d a b m e => some (0x80000000 + put d.toNat 20 + put a.toNat 14 + put b.toNat 8 + put m.toNat 4 + e.code)
  | .vmergeHi d a b m e => some (0x84000000 + put d.toNat 20 + put a.toNat 14 + put b.toNat 8 + put m.toNat 4 + e.code)
  | .vmergekv d a b m e => some (0x88000000 + put d.toNat 20 + put a.toNat 14 + put b.toNat 8 + put m.toNat 4 + e.code)
  | .vfadd d a b k e => some (0x8c000000 + put d.toNat 20 + put a.toNat 14 + put b.toNat 8 + put k.toNat 4 + e.code)
  | .vfsub d a b k e => some (0x90000000 + put d.toNat 20 + put a.toNat 14 + put b.toNat 8 + put k.toNat 4 + e.code)
  | .vfmul d a b k e => some (0x94000000 + put d.toNat 20 + put a.toNat 14 + put b.toNat 8 + put k.toNat 4 + e.code)
  | .vfma d a b k e => some (0x98000000 + put d.toNat 20 + put a.toNat 14 + put b.toNat 8 + put k.toNat 4 + e.code)
  | .vfmin d a b k e => some (0x9c000000 + put d.toNat 20 + put a.toNat 14 + put b.toNat 8 + put k.toNat 4 + e.code)
  | .vfmax d a b k e => some (0xa0000000 + put d.toNat 20 + put a.toNat 14 + put b.toNat 8 + put k.toNat 4 + e.code)
  | .vcvt d a t r p s e => some (0xa4000000 + put d.toNat 20 + put a.toNat 14 + put t.code 10 + put r.toNat 8 + put p.toNat 5 + put s.toNat 4 + e.code)
  | .vamax d a p k e => some (0xa8000000 + put d.toNat 20 + put a.toNat 14 + put p.toNat 8 + put k.toNat 4 + e.code)
  | .vbqpack d a s b e => some (0xac000000 + put d.toNat 20 + put a.toNat 14 + put s.toNat 11 + put b.toNat 5 + e.code)
  | .vbqunpk d a s b e => some (0xb0000000 + put d.toNat 20 + put a.toNat 14 + put s.toNat 11 + put b.toNat 5 + e.code)
  | .kand d a b => some (0xb8000000 + put d.toNat 20 + put a.toNat 14 + put b.toNat 8)
  | .kor d a b => some (0xbc000000 + put d.toNat 20 + put a.toNat 14 + put b.toNat 8)
  | .kxor d a b => some (0xc0000000 + put d.toNat 20 + put a.toNat 14 + put b.toNat 8)
  | .knot d a => some (0xc4000000 + put d.toNat 20 + put a.toNat 14)
  | .kpop d a e => some (0xc8000000 + put d.toNat 20 + put a.toNat 14 + e.code)
  | .kset d a b => some (0xcc000000 + put d.toNat 20 + put a.toNat 14 + put b.toNat 8)
  | .vmov d a k e => some (0xd0000000 + put d.toNat 20 + put a.toNat 14 + put k.toNat 4 + e.code)
  | .vmovFromMg d a => some (0xd0000100 + put d.toNat 20 + put a.toNat 14)
  | .vmovToMg d a => some (0xd0000200 + put d.toNat 20 + put a.toNat 14)
  | .vmovMaskLo d a => some (0xd0000300 + put d.toNat 20 + put a.toNat 14)
  | .vmovMaskHi d a => some (0xd0000400 + put d.toNat 20 + put a.toNat 14)
  | .vHint h x => some (0xe0000000 + put h.toNat 26 + x.toNat)
  | _ => none

/-- The word of an instruction of the SF slot. -/
def encodeSf : Instr → Option Nat
  | .fexp2 d a k e => some (0x4000000 + put d.toNat 20 + put a.toNat 14 + put k.toNat 4 + e.code)
  | .flog2 d a k e => some (0x8000000 + put d.toNat 20 + put a.toNat 14 + put k.toNat 4 + e.code)
  | .frcp d a k e => some (0xc000000 + put d.toNat 20 + put a.toNat 14 + put k.toNat 4 + e.code)
  | .frsq d a k e => some (0x10000000 + put d.toNat 20 + put a.toNat 14 + put k.toNat 4 + e.code)
  | .fsqrt d a k e => some (0x14000000 + put d.toNat 20 + put a.toNat 14 + put k.toNat 4 + e.code)
  | .frsqe d a b x => some (0x1800000a + put d.toNat 20 + put a.toNat 14 + put b.toNat 8 + put x.toNat 4)
  | .ftanh d a k e => some (0x1c000000 + put d.toNat 20 + put a.toNat 14 + put k.toNat 4 + e.code)
  | .fsig d a k e => some (0x20000000 + put d.toNat 20 + put a.toNat 14 + put k.toNat 4 + e.code)
  | .ferf d a k e => some (0x24000000 + put d.toNat 20 + put a.toNat 14 + put k.toNat 4 + e.code)
  | .scalegen s a h k e => some (0x28000000 + put s.toNat 20 + put a.toNat 14 + put h.toNat 8 + put k.toNat 4 + e.code)
  | .scld s a d => some (0x2c000000 + put s.toNat 20 + put a.toNat 14 + put d.toNat 4)
  | .tbld t a => some (0x30000000 + put t.toNat 20 + put a.toNat 14)
  | .sfHint h x => some (0xe0000000 + put h.toNat 26 + x.toNat)
  | _ => none

/-- The word of an instruction of the MX slot. -/
def encodeMx : Instr → Option Nat
  | .mxcall o x y e s => some (0x4000000 + put o.toNat 20 + put x.toNat 14 + put y.toNat 8 + put e.code 4 + put s.toNat 1)
  | .mxjoin o x y s => some (0x8000000 + put o.toNat 20 + put x.toNat 14 + put y.toNat 8 + put s.toNat 1)
  | .mxpart o x y s => some (0xc000000 + put o.toNat 20 + put x.toNat 14 + put y.toNat 8 + put s.toNat 1)
  | .mxnorm o x y s => some (0x10000000 + put o.toNat 20 + put x.toNat 14 + put y.toNat 8 + put s.toNat 1)
  | .mxzero o x y s => some (0x14000000 + put o.toNat 20 + put x.toNat 14 + put y.toNat 8 + put s.toNat 1)
  | .mxrda o x y e s => some (0x18000000 + put o.toNat 20 + put x.toNat 14 + put y.toNat 8 + put e.code 4 + put s.toNat 1)
  | .mxwra o x y e s => some (0x1c000000 + put o.toNat 20 + put x.toNat 14 + put y.toNat 8 + put e.code 4 + put s.toNat 1)
  | .mxwb o x y e s => some (0x20000000 + put o.toNat 20 + put x.toNat 14 + put y.toNat 8 + put e.code 4 + put s.toNat 1)
  | .mxucw o x y s => some (0x24000000 + put o.toNat 20 + put x.toNat 14 + put y.toNat 8 + put s.toNat 1)
  | .mxHint h x => some (0xe0000000 + put h.toNat 26 + x.toNat)
  | _ => none

/-- The word of an instruction of the XF slot. -/
def encodeXf : Instr → Option Nat
  | .xcopy o x y z s => some (0x4000000 + put o.toNat 20 + put x.toNat 14 + put y.toNat 8 + put z.toNat 2 + put s.toNat 1)
  | .xstore o x y z s => some (0x8000000 + put o.toNat 20 + put x.toNat 14 + put y.toNat 8 + put z.toNat 2 + put s.toNat 1)
  | .xweight o x y z s => some (0xc000000 + put o.toNat 20 + put x.toNat 14 + put y.toNat 8 + put z.toNat 2 + put s.toNat 1)
  | .xtrans o x y z s => some (0x10000000 + put o.toNat 20 + put x.toNat 14 + put y.toNat 8 + put z.toNat 2 + put s.toNat 1)
  | .xgather o x y z s => some (0x14000000 + put o.toNat 20 + put x.toNat 14 + put y.toNat 8 + put z.toNat 2 + put s.toNat 1)
  | .xkv o x y z s => some (0x18000000 + put o.toNat 20 + put x.toNat 14 + put y.toNat 8 + put z.toNat 2 + put s.toNat 1)
  | .xsend o x y z s => some (0x1c000000 + put o.toNat 20 + put x.toNat 14 + put y.toNat 8 + put z.toNat 2 + put s.toNat 1)
  | .xred o x y z s => some (0x20000000 + put o.toNat 20 + put x.toNat 14 + put y.toNat 8 + put z.toNat 2 + put s.toNat 1)
  | .xdecomp o x y z s => some (0x24000000 + put o.toNat 20 + put x.toNat 14 + put y.toNat 8 + put z.toNat 2 + put s.toNat 1)
  | .xfill o x y z s => some (0x28000000 + put o.toNat 20 + put x.toNat 14 + put y.toNat 8 + put z.toNat 2 + put s.toNat 1)
  | .xcancel o x y z s => some (0x2c000000 + put o.toNat 20 + put x.toNat 14 + put y.toNat 8 + put z.toNat 2 + put s.toNat 1)
  | .xfHint h x => some (0xe0000000 + put h.toNat 26 + x.toNat)
  | _ => none

/-- The words of a stream instruction: the primary word and its extension words. A hint's extension words carry nothing and are written zero. -/
def encodeStream : Instr → Option (List Nat)
  | .streamBr imm => some [0x400000000000000 + imm.toNat]
  | .brc cc a b imm => some [0x800000000000000 + put cc.code 32 + put a.toNat 46 + put b.toNat 41 + imm.toNat]
  | .streamCall d imm => some [0xc00000000000000 + put d.toNat 51 + imm.toNat]
  | .streamRet a => some [0x1000000000000000 + put a.toNat 46]
  | .streamEnd => some [0x1400000000000000]
  | .seth imm => some [0x1800000000000000 + imm.toNat]
  | .sethRemove => some [0x1800000100000000]
  | .streamEret => some [0x1c00000000000000]
  | .streamEretSkip => some [0x1c00000100000000]
  | .streamAdd d a b => some [0x2000000000000000 + put d.toNat 51 + put a.toNat 46 + put b.toNat 41]
  | .streamSub d a b => some [0x2000000800000000 + put d.toNat 51 + put a.toNat 46 + put b.toNat 41]
  | .streamMul d a b => some [0x2000001000000000 + put d.toNat 51 + put a.toNat 46 + put b.toNat 41]
  | .streamMulhu d a b => some [0x2000001800000000 + put d.toNat 51 + put a.toNat 46 + put b.toNat 41]
  | .streamAnd d a b => some [0x2000002000000000 + put d.toNat 51 + put a.toNat 46 + put b.toNat 41]
  | .streamOr d a b => some [0x2000002800000000 + put d.toNat 51 + put a.toNat 46 + put b.toNat 41]
  | .streamXor d a b => some [0x2000003000000000 + put d.toNat 51 + put a.toNat 46 + put b.toNat 41]
  | .streamShl d a b => some [0x2000003800000000 + put d.toNat 51 + put a.toNat 46 + put b.toNat 41]
  | .streamShr d a b => some [0x2000004000000000 + put d.toNat 51 + put a.toNat 46 + put b.toNat 41]
  | .streamSar d a b => some [0x2000004800000000 + put d.toNat 51 + put a.toNat 46 + put b.toNat 41]
  | .streamSlt d a b => some [0x2000005000000000 + put d.toNat 51 + put a.toNat 46 + put b.toNat 41]
  | .streamSltu d a b => some [0x2000005800000000 + put d.toNat 51 + put a.toNat 46 + put b.toNat 41]
  | .streamSeq d a b => some [0x2000006000000000 + put d.toNat 51 + put a.toNat 46 + put b.toNat 41]
  | .streamMin d a b => some [0x2000006800000000 + put d.toNat 51 + put a.toNat 46 + put b.toNat 41]
  | .streamMax d a b => some [0x2000007000000000 + put d.toNat 51 + put a.toNat 46 + put b.toNat 41]
  | .streamMinu d a b => some [0x2000007800000000 + put d.toNat 51 + put a.toNat 46 + put b.toNat 41]
  | .streamMaxu d a b => some [0x2000008000000000 + put d.toNat 51 + put a.toNat 46 + put b.toNat 41]
  | .streamAddi d a imm => some [0x2400000000000000 + put d.toNat 51 + put a.toNat 46 + imm.toNat]
  | .streamSubi d a imm => some [0x2400000800000000 + put d.toNat 51 + put a.toNat 46 + imm.toNat]
  | .streamMuli d a imm => some [0x2400001000000000 + put d.toNat 51 + put a.toNat 46 + imm.toNat]
  | .streamMulhui d a imm => some [0x2400001800000000 + put d.toNat 51 + put a.toNat 46 + imm.toNat]
  | .streamAndi d a imm => some [0x2400002000000000 + put d.toNat 51 + put a.toNat 46 + imm.toNat]
  | .streamOri d a imm => some [0x2400002800000000 + put d.toNat 51 + put a.toNat 46 + imm.toNat]
  | .streamXori d a imm => some [0x2400003000000000 + put d.toNat 51 + put a.toNat 46 + imm.toNat]
  | .streamShli d a sh => some [0x2400003800000000 + put d.toNat 51 + put a.toNat 46 + sh.toNat]
  | .streamShri d a sh => some [0x2400004000000000 + put d.toNat 51 + put a.toNat 46 + sh.toNat]
  | .streamSari d a sh => some [0x2400004800000000 + put d.toNat 51 + put a.toNat 46 + sh.toNat]
  | .streamSlti d a imm => some [0x2400005000000000 + put d.toNat 51 + put a.toNat 46 + imm.toNat]
  | .streamSltui d a imm => some [0x2400005800000000 + put d.toNat 51 + put a.toNat 46 + imm.toNat]
  | .streamSeqi d a imm => some [0x2400006000000000 + put d.toNat 51 + put a.toNat 46 + imm.toNat]
  | .streamMini d a imm => some [0x2400006800000000 + put d.toNat 51 + put a.toNat 46 + imm.toNat]
  | .streamMaxi d a imm => some [0x2400007000000000 + put d.toNat 51 + put a.toNat 46 + imm.toNat]
  | .streamMinui d a imm => some [0x2400007800000000 + put d.toNat 51 + put a.toNat 46 + imm.toNat]
  | .streamMaxui d a imm => some [0x2400008000000000 + put d.toNat 51 + put a.toNat 46 + imm.toNat]
  | .streamMovi d imm => some [0x2800000000000000 + put d.toNat 51 + imm.toNat]
  | .streamMovhi d imm => some [0x2c00000000000000 + put d.toNat 51 + imm.toNat]
  | .srd d idx => some [0x3000000000000000 + put d.toNat 51 + put idx.toNat 35]
  | .nop => some [0x3400000000000000]
  | .streamHint k xn rest => some ((0xC000000000000000 + put k.toNat 58 + put xn.toNat 56 + rest.toNat) :: List.replicate xn.toNat 0)
  | .ldq d a sz sx imm => some [0x4000000000000000 + put d.toNat 51 + put a.toNat 46 + put sz.toNat 32 + put sx.toNat 34 + imm.toNat]
  | .stq a b sz imm => some [0x4400000000000000 + put a.toNat 46 + put b.toNat 41 + put sz.toNat 32 + imm.toNat]
  | .fence scope sv md => some [0x4800000000000000 + put scope.toNat 35 + put sv.toNat 32 + put md.toNat 33]
  | .waitmb d a b => some [0x4c00000000000000 + put d.toNat 51 + put a.toNat 46 + put b.toNat 41]
  | .irq a imm => some [0x5000000000000000 + put a.toNat 46 + imm.toNat]
  | .launch a ev sig ins => some [0x6100000000000000 + put a.toNat 46 + put ev.toNat 35 + put sig.toNat 32, insWord ins]
  | .launchp a b ev sig ins pred => some [0x6600000000000000 + put a.toNat 46 + put b.toNat 41 + put ev.toNat 35 + put sig.toNat 32, insWord ins, predWord pred]
  | .waite a ev imm => some [0x6800000000000000 + put a.toNat 46 + put ev.toNat 35 + imm.toNat]
  | .sige d a ev n => some [0x6c00000000000000 + put d.toNat 51 + put a.toNat 46 + put ev.toNat 35 + n.toNat]
  | .sigeRemote a ev n => some [0x6c00000100000000 + put a.toNat 46 + put ev.toNat 35 + n.toNat]
  | .shpub a slot => some [0x7000000000000000 + put a.toNat 46 + slot.toNat]
  | .shpubClr slot => some [0x7000000100000000 + slot.toNat]
  | .coll a ev sig => some [0x7400000000000000 + put a.toNat 46 + put ev.toNat 35 + put sig.toNat 32]
  | .deadline a pct => some [0x7800000000000000 + put a.toNat 46 + pct.toNat]
  | .prio c => some [0x7c00000000000000 + c.toNat]
  | .tdecl d a => some [0x8000000000000000 + put d.toNat 51 + put a.toNat 46]
  | .tfree a => some [0x8400000000000000 + put a.toNat 46]
  | .tpin a b llc => some [0x8800000000000000 + put a.toNat 46 + put b.toNat 41 + put llc.toNat 32]
  | .tunpin a b => some [0x8c00000000000000 + put a.toNat 46 + put b.toNat 41]
  | .trecOpen a mask => some [0x9000000000000000 + put a.toNat 46 + put mask.toNat 1]
  | .trecClose => some [0x9400000000000000]
  | .tuse a b => some [0x9800000000000000 + put a.toNat 46 + put b.toNat 41]
  | .tprot a flags => some [0x9c00000000000000 + put a.toNat 46 + flags.toNat]
  | .streamMacro m n a => some [0xa000000000000000 + m.toNat + put n.toNat 8 + put a.toNat 46]
  | .mload a => some [0xa400000000000000 + put a.toNat 46]
  | _ => none

/-- The word of a micro-operation. -/
def encodeMicro : Instr → Option Nat
  | .mloada ra tr ic => some (0x800000000000000 + put ra.toNat 56 + put tr.toNat 32 + put ic.toNat 33)
  | .mloadb ra tr => some (0x1000000000000000 + put ra.toNat 56 + put tr.toNat 32)
  | .mmac => some (0x1800000000000000)
  | .mmact => some (0x2000000000000000)
  | .mscale ra rb => some (0x2800000000000000 + put ra.toNat 56 + put rb.toNat 53)
  | .mbcast => some (0x3000000000000000)
  | .mskip x => some (0x3800000000000000 + put x.toNat 32)
  | .mnext ra rb => some (0x4000000000000000 + put ra.toNat 56 + put rb.toNat 53)
  | .mloop ct x => some (0x4800000000000000 + put ct.toNat 51 + put x.toNat 32)
  | .mnorm x => some (0x5000000000000000 + put x.toNat 32)
  | .mend => some (0x5800000000000000)
  | .msync => some (0x6000000000000000)
  | _ => none

/-- The words of a well-formed instruction, in order: the slots' words are 32 bits wide, the stream's and the
microcode's 64. An event of the machine has no words. -/
def encode (i : Instr) : List Nat :=
  match encodeCtl i, encodeS i, encodeLs i, encodeV i, encodeSf i, encodeMx i, encodeXf i, encodeMicro i, encodeStream i with
  | some w, _, _, _, _, _, _, _, _ => [w]
  | _, some w, _, _, _, _, _, _, _ => [w]
  | _, _, some w, _, _, _, _, _, _ => [w]
  | _, _, _, some w, _, _, _, _, _ => [w]
  | _, _, _, _, some w, _, _, _, _ => [w]
  | _, _, _, _, _, some w, _, _, _ => [w]
  | _, _, _, _, _, _, some w, _, _ => [w]
  | _, _, _, _, _, _, _, some w, _ => [w]
  | _, _, _, _, _, _, _, _, some ws => ws
  | _, _, _, _, _, _, _, _, _ => []

/-- The first answer of two decoders that is an instruction. -/
def orElse (a : Except DecodeError Instr) (b : Except DecodeError Instr) : Except DecodeError Instr :=
  match a with
  | .ok i => .ok i
  | .error _ => b

/-- An instruction read from a word of the opcode table, whose rows name no slot: a 32-bit word is decoded by the slot
maps in the order CTL, S, LS, V, SF, MX, XF, and the first that claims it answers; a 64-bit word is a stream
instruction with extension words of zeros, and failing that a micro-word. See assumption 2. -/
noncomputable def decodeTableWord (nbits w : Nat) : Option Instr :=
  let r : Except DecodeError Instr :=
    if nbits = 32 then
      orElse (decodeCtl w) (orElse (decodeS w) (orElse (decodeLs w) (orElse (decodeV w)
        (orElse (decodeSf w) (orElse (decodeMx w) (decodeXf w))))))
    else if nbits = 64 then orElse (decodeStream w [0, 0, 0]) (decodeMicro w)
    else .error .wordCount
  match r with
  | .ok i => some i
  | .error _ => none

end Sys2Proof
end

