-- ==== Sys2Proof/Machine/CoreState.lean ====
section
/-!
DEFINITION. Sys2Proof/Machine/CoreState.lean: the state of one Karol core (R270-R295, R348-R457).

Register files are sparse tables in which an unlisted register reads zero. `Regs` is the part a checkpoint copies
(R249); `Body` the part a hard pre-emption saves (R155); `Core` the whole.
-/

namespace Sys2Proof.Machine

/-- A counted loop's counter: its count and the start and end addresses of its body (R354). -/
structure LoopCtr where
  count : BitVec 32
  start : Word
  stop  : Option Word
  deriving DecidableEq, Repr

/-- The status of an engine command (R247). -/
inductive TokStatus where
  | pending | done | part | fault
  deriving DecidableEq, Repr

/-- The record of a token (R247). `used`: some command of the task has named it; `taken`: a WAITT consumed its fault
(R248, R358); `snap`: the twelve registers latched at issue, xg0-xg7 and xs0-xs3 or mp0-mp7 and ms0-ms3. -/
structure TokenRec where
  used     : Bool
  status   : TokStatus
  code     : BitVec 8
  short    : Bool
  tout     : Bool
  engine   : BitVec 4
  progress : BitVec 48
  pc       : Word
  vcc      : BitVec 48
  snap     : List Word
  taken    : Bool
  deriving DecidableEq, Repr

/-- The record of a token that no command has named: it reads as zero (R247). -/
def TokenRec.free : TokenRec :=
  { used := false, status := .pending, code := 0, short := false, tout := false, engine := 0, progress := 0, pc := 0,
    vcc := 0, snap := [], taken := false }

/-- Where a result is written (R274): a register, a shadow register of an engine with the part of R340, or the owner of
a buffer-table entry, which BGIVE in a lockstep cluster changes two cycles later (R211). -/
inductive Dst where
  | s (n : Nat) | v (n : Nat) | k (n : Nat) | sc (n : Nat) | mg (n : Nat)
  | shX (n : Nat) (part : Nat) | shM (n : Nat) (part : Nat)
  | buf (n : Nat)
  deriving DecidableEq, Repr

/-- A result on its way to a register, with its due cycle (R274). -/
structure Res where
  dst : Dst
  val : BitVec 1024
  due : Nat
  deriving DecidableEq, Repr

/-- A landing request (R277, R278). `resp` is the data that has reached the core's port and `data` what has arrived
in the landing entry; `held` marks the landing of an atomic in the provisional hold queue (R380). -/
structure Landing where
  id     : Nat
  dst    : Dst
  ptr    : Word
  n      : Nat
  due    : Nat
  resp   : Option (BitVec 1024 × Bool)
  data   : Option (BitVec 1024 × Bool)
  held   : Bool
  deriving DecidableEq, Repr

/-- What one access does to memory at the place it performs (R220, R223, R381). `fwd` holds what stores that the core still held at
issue give of the bytes a load reads (R225). -/
inductive AccessOp where
  | store (bytes : List Byte) (mask : List Bool)
  | red (opc : Nat) (w8 : Bool) (b : Word)
  | amo (opc : Nat) (w8 : Bool) (b : Word) (land : Nat)
  | cas (w8 : Bool) (cmp new : Word) (land : Nat)
  | load (n : Nat) (land : Nat) (fwd : List (Option Byte))
  | table (ts : Nat) (stamp : Nat) (fwd : List (Option Byte))
  deriving DecidableEq, Repr

/-- Where an access goes: bytes of a storage reached by key, a tensor's bytes, or a bus address. -/
inductive Loc where
  | flat (key : Nat)
  | glob (h o : Nat)
  | host (addr : Nat) (port : Bool)
  deriving DecidableEq, Repr

/-- The chain word of HINGE.REL (R241). -/
structure HingeRel where
  flagH : Nat
  flagO : Nat
  value : Word
  head  : Nat
  count : Nat
  newown : Nat
  deriving DecidableEq, Repr

/-- What a commit-queue entry holds (R223), or a barrier a DRAIN put there (R235). -/
inductive CBody where
  | access (ptr : Word) (loc : Loc) (op : AccessOp)
  | rel (scope : Nat) (ptr : Word) (loc : Loc) (op : AccessOp)
  | hinge (ptr : Word) (h : HingeRel)
  | bgive (core idx own : Nat)
  | xstore (tok : Nat)
  | barrier (scope : Nat)
  deriving DecidableEq, Repr

/-- A held entry with the bundle that made it, which a deferred fault names (R237). -/
structure CEntry where
  body : CBody
  pc   : Word
  vcc  : Nat
  deriving DecidableEq, Repr

/-- A segment's start and running CRC-32C (R255). -/
structure Seg where
  vcc0 : Nat
  crc  : BitVec 32
  deriving DecidableEq, Repr

/-- The state a checkpoint copies (R249). -/
structure Regs where
  pc     : Word
  vcc    : Nat
  s      : Tab Word
  v      : Tab Vec
  k      : Tab Mask
  sc     : Tab Vec
  mg     : Tab Word
  lc0    : LoopCtr
  lc1    : LoopCtr
  liveX  : Tab Word
  shadX  : Tab Word
  liveM  : Tab Word
  shadM  : Tab Word
  spill  : BitVec 1024
  toks   : Tab TokenRec
  bufs   : Tab Word
  seg    : Seg
  res    : List Res
  lands  : List Landing
  joined : Bool
  deriving DecidableEq, Repr

/-- A decode table slot of the weight path (R417): its 16 bytes, whether a load is under way, and the core clock at
which a local load completes or the stamp a global one waits for. -/
structure TableSlot where
  data    : BitVec 128
  loading : Bool
  due     : Nat
  stamp   : Nat
  bad     : Bool
  deriving DecidableEq, Repr

/-- A queued weight block (R292, R448): the command's token and issue cycle, the block's number in its walk, the table slot a CB3 block
captured, the source bytes and the position bytes read for it. -/
structure WBlock where
  tok   : Nat
  vcc   : Nat
  idx   : Nat
  table : Option Nat
  src   : List Byte
  pos   : List Byte
  deriving DecidableEq, Repr

/-- The task a command was issued by: its launch, partition, context and slot; and the bundle that issued it. -/
structure Issuer where
  launch : Nat
  part   : Nat
  ctx    : Nat
  slot   : Nat
  pc     : Word
  deriving DecidableEq, Repr

/-- A command of the copy engine (R421, R445). Its lines are numbered row * 2^20 + line in the row; `row` and `line` name
the first that has not performed, `did` lists those beyond it that have, `sent` those under way to another module, and
`cursor` counts the bytes, rows, pages or blocks done in order (PROGRESS). `ptr` is the page of a chain an XKV has come to,
`sentUs` one more than the package time at which each line under way was sent, zero for one that awaits no response any more (R46, R182), and `outb` and `next` the rest of an expanded block and the
fault that follows it. `after` numbers the accesses it waits for (R235), `locks` lists the page runs it
has locked, each a handle, a first page and a page count (R180), `orphan` marks a command whose task has ended
(R356), and `fault` is the code of a consumed token that ended FAULT (R248). -/
structure XfCmd where
  op      : Nat
  tok     : Nat
  ins     : List Nat
  snap    : List Word
  pc      : Word
  vcc     : Nat
  held    : Bool
  started : Bool
  row     : Nat
  line    : Nat
  did     : List Nat
  sent    : List Nat
  cursor  : Nat
  ptr     : Word
  sentUs  : Tab Nat
  outb    : List Byte
  next    : Option (BitVec 8)
  short   : Bool
  cancel  : Bool
  after   : List Nat
  locks   : List (Nat × Nat × Nat)
  orphan  : Bool
  fault   : Option (BitVec 8)
  who     : Issuer
  deriving DecidableEq, Repr

/-- A routine's working state (R438): registers mw, counters mc with their starting values, the group number and row
cursor, the panels and panel scales, and whether an MBCAST serves the next loads by rotation. -/
structure MicroState where
  upc   : Nat
  mw    : Tab Word
  mc    : List Nat
  mc0   : List Nat
  g     : Nat
  rc    : Nat
  pa    : List (List Nat)
  pb    : List (List Nat)
  sa    : List (Nat × Nat)
  sb    : List (Nat × Nat)
  rot   : Bool
  sync  : Bool
  bad   : Nat
  deriving DecidableEq, Repr

/-- A command of the matrix engine (R421, R425). `after` numbers the accesses of its core it waits for (R230). -/
structure MxCmd where
  op      : Nat
  et      : Fmt
  tok     : Nat
  ins     : List Nat
  snap    : List Word
  pc      : Word
  vcc     : Nat
  started : Bool
  micro   : Option MicroState
  after   : List Nat
  orphan  : Bool
  fault   : Option (BitVec 8)
  who     : Issuer
  deriving DecidableEq, Repr

/-- A tile of the microprogram store's entry table (R436). -/
structure MicroEntry where
  start : Nat
  len   : Nat
  valid : Bool
  deriving DecidableEq, Repr

/-- The image a bundle store holds (R324, R325). -/
structure ImageInfo where
  handle   : Nat
  gen      : BitVec 32
  codeOff  : Nat
  codeLen  : Nat
  constOff : Nat
  constLen : Nat
  deriving DecidableEq, Repr

/-- How far a task has come: its image is loading, it runs, it stands at a step of TEND (R356), or it is being saved
(R155), in TEND or not. -/
inductive TaskStage where
  | loading
  | running
  | tend (step : Nat)
  | saving (inTend : Bool)
  deriving DecidableEq, Repr

/-- The task a core runs (R149, R150). -/
structure Task where
  launch  : Nat
  part    : Nat
  ctx     : Nat
  cls     : Nat
  step    : Nat
  lin     : Nat
  x       : Nat
  y       : Nat
  z       : Nat
  slot    : Nat
  group   : Bool
  prov    : Bool
  tail    : Bool
  persist : Bool
  limit   : Nat
  start   : Nat
  excl    : Nat
  savedAt : Nat
  stage   : TaskStage
  image   : Option ImageInfo
  deriving DecidableEq, Repr

/-- A pause in force: its cause code (R279) and the clock at which it began. -/
structure Pause where
  cause : Nat
  since : Nat
  deriving DecidableEq, Repr

/-- A logged external command (R250). -/
structure ExtLog where
  slot : Nat
  op   : Nat
  et   : Nat
  tok  : Nat
  snap : List Word
  deriving DecidableEq, Repr

/-- A phase signature of check mode (R253). -/
structure PhaseSig where
  vccs   : Nat
  crcB   : BitVec 32
  crcC   : BitVec 32
  deriving DecidableEq, Repr

/-- A command of the running phase whose destination is the core's own scratchpad or weight buffers, as the refetch list
keeps it (R250): the slot is 6 for MX and 7 for XF. -/
structure Refetch where
  slot : Nat
  op   : Nat
  et   : Fmt
  tok  : Nat
  snap : List Word
  pc   : Word
  vcc  : Nat
  who  : Issuer
  deriving DecidableEq, Repr

/-- Where check mode stands (R252, R253): the number of the rerun, the first rerun's signature, the code and bundle of
the consumption that began the rollback, the next unused log entry, the CRC over the bundle words of this rerun, and the
error log's slot and entry for the rollback (R268), which agreeing reruns mark as repaired. -/
structure CheckMode where
  rerun : Nat
  first : Option PhaseSig
  code  : BitVec 8
  pc0   : Word
  next  : Nat
  crcB  : BitVec 32
  slot  : Nat
  entry : BitVec 128
  deriving DecidableEq, Repr

/-- What a hard pre-emption saves (R155), beside the bytes of the core's own storages. `ckptH` is the handler state at the
checkpoint. `stuck` is the core clock since which a provisional task has paused for its confirmation while a share waits for a core (R167).
The fields `hdr...` describe the
bundle at PC: its IDLE and CKPT fields (R320), its length in bytes and its words; `taken` is the target of a transfer
the issuing bundle takes (R353); `tendRegs` the registers as a TEND bundle found them, while the task stands in TEND. -/
structure Body where
  r        : Regs
  ckpt     : Option Regs
  ckptH    : Bool × Word × List Res × List Landing
  accSave  : Tab (BitVec 40)
  accXSave : Tab (BitVec 16)
  task     : Option Task
  acc      : Tab (BitVec 40)
  accX     : Tab (BitVec 16)
  numstat  : Word
  fltstat  : Word
  fltpc    : Word
  fltvcc   : BitVec 48
  fltaddr  : Word
  trapvec  : Word
  tksel    : BitVec 6
  inHandler : Bool
  resumePc : Word
  latched  : List Res
  latchedL : List Landing
  pauseCnt : BitVec 48
  lastPause : BitVec 4
  pause    : Option Pause
  commitQ  : List CEntry
  holdQ    : List CEntry
  ckptDone : Bool
  refetch  : List Refetch
  phaseCmds : List Refetch
  refetchWait : List Nat
  amoKeep  : List Landing
  extLog   : List ExtLog
  noroll   : Bool
  check    : Option CheckMode
  detected : Option (BitVec 8 × Word × Word)
  mxQ      : List MxCmd
  xfQ      : List XfCmd
  wbQ      : List WBlock
  tab0     : TableSlot
  tab1     : TableSlot
  micro    : Tab Word
  entries  : Tab MicroEntry
  deferred : List (CEntry × BitVec 8)
  stuck    : Option Nat
  taken    : Option Word
  tendRegs : Option Regs
  hdrIdle  : Nat
  hdrCkpt  : Bool
  hdrLen   : Nat
  hdrWords : List Nat
  deriving DecidableEq, Repr

/-- A save frame in the die's HBM4E (R156): the body, the saved bytes of the READY scratchpad banks and of the weight
buffers, and SPGATE. -/
structure Frame where
  body  : Body
  spad  : List Host.Cell
  bad   : List Nat
  wbuf  : List Host.Cell
  gate  : BitVec 32
  ready : BitVec 32
  deriving DecidableEq, Repr

/-- An entry of an address-range table (R175): a handle, the first page of its intermediate addresses, its byte size, and the operand
ranges that a launch has of it, each an offset, a length and the rights RD and WR. -/
structure RangeEntry where
  h      : Nat
  iapage : Nat
  bytes  : Nat
  launch : Nat
  ranges : List (Nat × Nat × Bool × Bool)
  deriving DecidableEq, Repr

/-- One Karol core. `out` lists the ids of its posted accesses that have not performed (R232-R235); `artab` its address-range table,
the entry last fetched first (R175). -/
structure Core where
  b       : Body
  frames  : List Frame
  slots   : BitVec 32
  image   : Option ImageInfo
  gate    : BitVec 32
  ready   : BitVec 32
  spstat  : Word
  coreerr : Word
  out     : List Nat
  artab   : List RangeEntry
  deriving DecidableEq, Repr

def LoopCtr.zero : LoopCtr := { count := 0, start := 0, stop := none }

def Seg.zero : Seg := { vcc0 := 0, crc := 0 }

/-- The registers as a task start leaves them before s0-s17 are written (R150), and as reset leaves them. -/
def Regs.zero : Regs :=
  { pc := 0, vcc := 0, s := .empty, v := .empty, k := .empty, sc := .empty, mg := .empty, lc0 := .zero, lc1 := .zero,
    liveX := .empty, shadX := .empty, liveM := .empty, shadM := .empty, spill := 0, toks := .empty, bufs := .empty,
    seg := .zero, res := [], lands := [], joined := false }

def TableSlot.zero : TableSlot := { data := 0, loading := false, due := 0, stamp := 0, bad := false }

def MicroEntry.zero : MicroEntry := { start := 0, len := 0, valid := false }

/-- FLTSTAT at reset: SLOT 0xF (R245). -/
def fltstatReset : Word := 0xF00

def Body.zero : Body :=
  { r := .zero, ckpt := none, ckptH := (false, 0, [], []), accSave := .empty, accXSave := .empty, task := none, acc := .empty, accX := .empty,
    numstat := 0, fltstat := fltstatReset, fltpc := 0, fltvcc := 0, fltaddr := 0, trapvec := 0, tksel := 0,
    inHandler := false, resumePc := 0, latched := [], latchedL := [], pauseCnt := 0, lastPause := 0, pause := none,
    commitQ := [], holdQ := [], ckptDone := false, refetch := [], phaseCmds := [], refetchWait := [], amoKeep := [], extLog := [], noroll := false,
    check := none, detected := none, mxQ := [], xfQ := [], wbQ := [], tab0 := .zero, tab1 := .zero,
    micro := .empty, entries := .empty, deferred := [], stuck := none,
    taken := none, tendRegs := none, hdrIdle := 0, hdrCkpt := false, hdrLen := 8, hdrWords := [] }

/-- A core at reset: no task, every bank powered and READY (R26). -/
def Core.zero : Core :=
  { b := .zero, frames := [], slots := 0, image := none, gate := 0, ready := 0xFFFFFFFF, spstat := 0, coreerr := 0,
    out := [], artab := [] }

end Sys2Proof.Machine
end

