-- ==== Sys2Proof/Machine/DieState.lean ====
section
/-!
DEFINITION. Sys2Proof/Machine/DieState.lean: the state of the die sequencers and of the residency engine: stream
contexts (R88), launches and their shares (R111-R118, R140-R149), dispatchers (R151-R156), tensor records (R170),
recipes (R198), the Hasp's registers (R204), and the packets of the die fabric (R34-R37).
-/

namespace Sys2Proof.Machine

/-- The state of a stream context, as CTXSTAT reports it (R71, R72). -/
inductive CtxState where
  | idle | running | waiting | stopping | ended | faulted
  deriving DecidableEq, Repr

/-- What a waiting context waits for (R76, R90). The instruction at PC has not completed. `info` is the FINFO of a fault that the wait for a
tensor may end in (R98). -/
inductive WaitKind where
  | mailbox (d : Nat) (h o : Nat) (old : Word)
  | event (ev : Nat) (thr : BitVec 32)
  | queue
  | fence (scope : Nat) (sv md : Bool)
  | fetch (h : Nat)
  | tensor (h : Nat) (info : Word)
  | pin (h : Nat)
  | free (h : Nat)
  | close
  | store (h : Nat)
  | expansion (idx : Nat)
  deriving DecidableEq, Repr

/-- An open recipe bracket (R127-R130): its number, the output, the saved registers, the offset after TREC.OPEN, the greatest
forward target branched to, the launches issued, the inputs met and whether one of its launches failed. -/
structure Bracket where
  num     : Nat
  out     : Nat
  saved   : List (Nat × Word)
  start   : Nat
  maxT    : Nat
  ids     : List Nat
  inputs  : List (Nat × BitVec 32)
  cycles  : Nat
  failed  : Bool
  deriving DecidableEq, Repr

/-- A launch failure waiting for delivery (R97). -/
structure Failure where
  step  : Word
  code  : BitVec 8
  core  : Nat
  chain : List Nat
  deriving DecidableEq, Repr

/-- One stream context (R88), the host's registers of it (R71), and where it stands. `flen` is the instruction length of
the last synchronous fault, which ERET with skip passes over; zero after an asynchronous one. `mret` says that an expansion
in progress is being executed, not held; `woken` that the instruction at PC has issued and its wait is over; `stores` the
numbers of its STQs under way, `inbox` the remote signals that have reached it, `wlen` the length in bytes of an instruction that waits,
`holds` the pins that re-issues have left to it, each with the number of the STQ it serves once that is under way (R197), and `sub` the output of the recipe sub-stream
a pseudo-context runs. -/
structure Ctx where
  q       : Tab Word
  e       : Tab (BitVec 32)
  pc      : BitVec 48
  code    : Word
  step    : Word
  cls     : BitVec 2
  margin  : BitVec 8
  limit   : BitVec 32
  handler : Option (BitVec 48)
  inh     : Bool
  fpc     : BitVec 48
  fcode   : BitVec 8
  finfo   : Word
  flen    : Nat
  fdepth  : BitVec 4
  chain   : List Nat
  bracket : Option Bracket
  inmac   : Bool
  mindex  : BitVec 8
  mpos    : BitVec 12
  mparams : List Word
  mret    : Bool
  run     : Bool
  prio    : BitVec 2
  part    : BitVec 3
  entry   : Word
  state   : CtxState
  wait    : Option WaitKind
  waitUs  : Nat
  woken   : Bool
  fails   : List Failure
  ending  : Bool
  killing : Bool
  num     : Word
  inbox   : List (Nat × Nat)
  sub     : Option Nat
  stores  : List Nat
  wlen    : Nat
  holds   : List (Option Nat × Nat)
  irqend  : Bool
  vec     : BitVec 11
  refused : Bool
  fault   : BitVec 8
  deriving DecidableEq, Repr

/-- One operand of a launch (R112). -/
structure Operand where
  ptr  : Word
  len  : Nat
  rd   : Bool
  wr   : Bool
  retr : Bool
  deriving DecidableEq, Repr

/-- The states of a launch queue entry (R141). -/
inductive LaunchState where
  | waitEv | waitRes | ready | running | drain | done
  deriving DecidableEq, Repr

/-- The prediction of a LAUNCHP (R116, R162-R166): `learn` while the launch is still to learn its truth, `truth`
once that has performed, `cut` once the trim has cancelled and squashed, with the accesses of squashed tasks that are still to perform, and
`trimmed` once it has been applied whole. -/
structure Pred where
  site  : Nat
  dim   : Nat
  slot  : Nat
  min   : Nat
  maxe  : Nat
  ext   : Nat
  learn : Bool
  truth : Option Nat
  cut     : Option (List Nat)
  trimmed : Bool
  deriving DecidableEq, Repr

/-- What a launch runs (R111, R132): tasks of an image, or a collective. -/
inductive LaunchWhat where
  | tasks
  | coll (desc : List Byte)
  deriving DecidableEq, Repr

/-- A launch queue entry (R111-R118, R140-R149). `todo` lists the linear indexes not started, by logical cluster,
`live` counts the tasks started that have not ended, `tails` the tail tasks, `rejoin` the recipe fault
chain, `bracket` the bracket it was issued in, `roomUs` each tensor whose
restore it waits for and finds no victim, since when, and the locks then in force on its die (R145),
`held` the held effects of provisional tasks that have ended, with their core and coordinate (R165), `locks` the page runs a
collective has locked (R180). -/
structure Launch where
  die     : Nat
  ctx     : Nat
  part    : Nat
  cls     : Nat
  step    : Word
  what    : LaunchWhat
  state   : LaunchState
  entry   : Word
  gx      : Nat
  gy      : Nat
  gz      : Nat
  group   : Bool
  persist : Bool
  args    : List Byte
  plMode  : Nat
  plBase  : Nat
  plCount : Nat
  plTable : Word
  table   : List Byte
  dlcyc   : Nat
  margin  : Nat
  ops     : List Operand
  waits   : List (Nat × BitVec 32)
  sig     : Option Nat
  pred    : Option Pred
  reserved : Bool
  bracket : Option Nat
  sub     : Option Nat
  live    : Nat
  outs    : List Nat
  fail    : Option (BitVec 8 × Nat)
  chain   : List Nat
  pins    : List Nat
  roomUs  : List (Nat × Nat × Nat)
  held    : List (Nat × Nat × CEntry)
  locks   : List (Nat × Nat × Nat)
  deriving DecidableEq, Repr

/-- The tasks of one launch on one cluster (R146): each its linear index, its coordinates and whether it is a tail task; `age`
and `agedAt` its age and the round in which it aged (R151, R152), `since` the time since which it has waited for a core (R168), and
`seq` its place in arrival order. -/
structure Share where
  launch : Nat
  cl     : Nat
  todo   : List (Nat × Nat × Nat × Nat × Bool)
  age    : Nat
  agedAt : Nat
  cls    : Nat
  step   : Word
  group  : Bool
  sub    : Bool
  since  : Nat
  seq    : Nat
  deriving DecidableEq, Repr

/-- A cluster dispatcher (R146, R151): its shares in arrival order, the share that has reserved the cluster, the place in arrival order of
the share each class's round-robin pointer last named, and a count of the rounds made. -/
structure Dispatcher where
  shares   : List Share
  reserved : Option Nat
  rr       : List Nat
  rounds   : Nat
  deriving DecidableEq, Repr

/-- The residency of a tensor (R171). -/
inductive TState where
  | free | hbm | llcpin | spilled | compressed | dropped
  deriving DecidableEq, Repr

/-- A tensor record (R170). `freeing` marks a tensor freed by TFREE whose record is not yet released (R122). -/
structure TRec where
  state   : TState
  busy    : Bool
  format  : BitVec 8
  rank    : BitVec 3
  surv    : Bool
  survm   : Bool
  growv   : Bool
  grow    : BitVec 3
  prot    : BitVec 4
  owner   : BitVec 6
  part    : BitVec 3
  rvalid  : Bool
  lost    : Bool
  cdepth  : BitVec 4
  ratio   : BitVec 8
  pincnt  : BitVec 16
  bytes   : Nat
  gen     : BitVec 32
  cext    : BitVec 32
  dims    : List Nat
  uselist : Word
  ubase   : Word
  upos    : BitVec 12
  nuse    : Word
  iapage  : Nat
  rhcnt   : BitVec 32
  recix   : Option Nat
  loc     : BitVec 48
  ckib    : BitVec 32
  freeing : Bool
  deriving DecidableEq, Repr

/-- A stored recipe (R198). -/
structure Recipe where
  ctx    : Nat
  code   : Nat
  lo     : Nat
  hi     : Nat
  saved  : List (Nat × Word)
  inputs : List (Nat × BitVec 32)
  cycles : Nat
  deriving DecidableEq, Repr

/-- A TPIN entry (R123). -/
structure PinEntry where
  ptr : Word
  len : Nat
  llc : Bool
  deriving DecidableEq, Repr

/-- Who asked for a dropped tensor (R131, R182, R196, R197): a launch, a waiting context, the re-issue of the tensor named, the
Hasp for a held writer, or the Hasp for bounced data. -/
inductive Ask where
  | launch (l : Nat)
  | ctx (c : Nat)
  | parent (h : Nat)
  | dep
  | bounce
  deriving DecidableEq, Repr

/-- A re-issue in progress (R131, R168, R197): the output, the chain of handles down to it, the inputs pinned so far, those
who wait for it with their own chains, the partition and class of the request that began it, the pseudo-context of its
sub-stream once it runs, and whether a launch of it failed. -/
structure Reissue where
  h       : Nat
  chain   : List Nat
  pinned  : List Nat
  asks    : List (Ask × List Nat)
  part    : Nat
  cls     : Nat
  sub     : Option Nat
  failed  : Bool
  deriving DecidableEq, Repr

/-- A page move in progress (R191-R194): the tensor, whether it is a restore and whether its bytes are ZX tiles, the page
being moved, the lines of it that the dirty filter marks, the passes made, the lines that a swap has exchanged and whether the next one is in
the staging buffer, and whether HFORCE asked for it (R463). -/
structure Move where
  h       : Nat
  restore : Bool
  comp    : Bool
  page    : Nat
  marked  : List Nat
  pass    : Nat
  lines   : Nat
  staged  : Bool
  forced  : Bool
  deriving DecidableEq, Repr

/-- An entry of a page-lock table (R180): a handle, a first page, a page count and a lock count. -/
structure PageLock where
  h     : Nat
  first : Nat
  pages : Nat
  count : Nat
  deriving DecidableEq, Repr

/-- Link data in a bounce buffer (R182): its tensor, offset, bytes and which of them are poisoned, and the tag and line by which its sender
knows it. -/
structure Bounced where
  h     : Nat
  o     : Nat
  bytes : List Byte
  bad   : List Bool
  tag   : Nat
  line  : Nat
  deriving DecidableEq, Repr

/-- The Hasp slice of a die: its registers (R204), pin entries, pinned LLC bytes, moves in progress, the handles an
eviction run has tried, the bounce buffer (R182), the next index never issued and the freed ones in order (R119), and
HFORCE (R463). -/
structure Hasp where
  spill   : BitVec 16
  compk   : BitVec 16
  compr   : BitVec 16
  rdef    : BitVec 8
  recomp  : BitVec 16
  dist    : BitVec 24
  hdepth  : BitVec 3
  low     : BitVec 16
  high    : BitVec 16
  defmode : Bool
  retry   : BitVec 3
  rgns    : Tab (BitVec 128)
  hstat   : Word
  hrqsel  : BitVec 23
  hrqdata : BitVec 1024
  pins    : List PinEntry
  moves   : List Move
  tried   : List Nat
  bounce  : List Bounced
  nextIdx : Nat
  freed   : List Nat
  hfH     : BitVec 23
  hfAct   : BitVec 2
  hfBusy  : Bool
  hfDone  : Bool
  hfRef   : Bool
  hfWhy   : BitVec 3
  deriving DecidableEq, Repr

/-- What a packet of the die fabric carries (R35). -/
inductive PBody where
  | access (ptr : Word) (loc : Loc) (op : AccessOp) (own : Option Nat) (e : CEntry)
  | hinge (h : HingeRel) (own : Nat) (part : Nat) (e : CEntry)
  | bgive (core idx own : Nat)
  | resp (land : Nat) (val : BitVec 1024) (bad : Bool)
  | tableResp (ts stamp : Nat) (val : BitVec 128) (bad : Bool)
  | signal (ctx ev n : Nat)
  | share (sh : Share) (cluster : Nat)
  | net (vl : Nat) (bytes : List Byte)
  | delta (stripe : Nat) (off : Nat) (bytes : List Byte)
  deriving DecidableEq, Repr

/-- A packet under way (R34-R37): its lane, source and destination, the core and number of the access it carries, and
the numbers of that core's accesses it must wait for (R233, R235). `lackUs` is the package time at which its home first had no room
for its page (R237). -/
structure Packet where
  id    : Nat
  lane  : Nat
  src   : Node
  dst   : Node
  core  : Nat
  after : List Nat
  lackUs : Option Nat
  body  : PBody
  deriving DecidableEq, Repr

/-- One entry of a partition's host window route table (R59), as its 128-bit image. -/
structure Route where
  base  : BitVec 60
  port  : Bool
  valid : Bool
  write : Bool
  limit : BitVec 60
  deriving DecidableEq, Repr

/-- An entry of a die's directory of expansions (R134). -/
structure MDir where
  start : Nat
  len   : Nat
  part  : BitVec 3
  valid : Bool
  deriving DecidableEq, Repr

def MDir.zero : MDir := { start := 0, len := 0, part := 0, valid := false }

def Ctx.zero : Ctx :=
  { q := .empty, e := .empty, pc := 0, code := 0, step := 0, cls := 0, margin := 0, limit := 0, handler := none,
    inh := false, fpc := 0, fcode := 0, finfo := 0, flen := 0, fdepth := 0, chain := [], bracket := none,
    inmac := false, mindex := 0, mpos := 0, mparams := [], mret := false, run := false, prio := 2, part := 0, entry := 0,
    state := .idle, wait := none, waitUs := 0, woken := false, fails := [], ending := false, killing := false, num := 0, inbox := [],
    sub := none, stores := [], wlen := 8, holds := [], irqend := false, vec := 0, refused := false, fault := 0 }

/-- A FREE record: NUSE and RECIX all ones, the rest zero (R170). -/
def TRec.zero : TRec :=
  { state := .free, busy := false, format := 0, rank := 0, surv := false, survm := false, growv := false, grow := 0,
    prot := 0, owner := 0, part := 0, rvalid := false, lost := false, cdepth := 0, ratio := 0, pincnt := 0, bytes := 0,
    gen := 0, cext := 0, dims := [], uselist := 0, ubase := 0, upos := 0, nuse := 0xFFFFFFFFFFFFFFFF, iapage := 0,
    rhcnt := 0, recix := none, loc := 0, ckib := 0, freeing := false }

def Launch.zero : Launch :=
  { die := 0, ctx := 0, part := 0, cls := 0, step := 0, what := .tasks, state := .done, entry := 0, gx := 0, gy := 0,
    gz := 0, group := false, persist := false, args := [], plMode := 0, plBase := 0, plCount := 0, plTable := 0,
    table := [], dlcyc := 0, margin := 0, ops := [], waits := [], sig := none, pred := none, reserved := false,
    bracket := none, sub := none, live := 0, outs := [], fail := none, chain := [], pins := [], roomUs := [],
    held := [], locks := [] }

def Recipe.zero : Recipe := { ctx := 0, code := 0, lo := 0, hi := 0, saved := [], inputs := [], cycles := 0 }

def Dispatcher.zero : Dispatcher := { shares := [], reserved := none, rr := [], rounds := 0 }

/-- The Hasp's registers at reset (R204). -/
def Hasp.zero : Hasp :=
  { spill := 4, compk := 2, compr := 8, rdef := 128, recomp := 40, dist := 800, hdepth := 3, low := 256, high := 1024,
    defmode := false, retry := 3, rgns := .empty, hstat := 0, hrqsel := 0, hrqdata := 0, pins := [], moves := [],
    tried := [], bounce := [], nextIdx := 0, freed := [], hfH := 0, hfAct := 0, hfBusy := false, hfDone := false,
    hfRef := false, hfWhy := 0 }

def Route.zero : Route := { base := 0, port := false, valid := false, write := false, limit := 0 }

end Sys2Proof.Machine
end

