-- ==== Sys2Proof/Machine/ModuleState.lean ====
section
/-!
DEFINITION. Sys2Proof/Machine/ModuleState.lean: the state of the module around its dies: power and clocks (R17-R30),
Ngusin ports (R38-R48), memory channels (R51-R58), the host port (R61-R76), boot and Escutcheon (R77-R85), snapshots
(R86, R87), Deadbolt (R261-R267) and the error log (R268).
-/

namespace Sys2Proof.Machine

/-- The module power states (R22). -/
inductive PowerState where
  | m0 | m1 | m2 | m3
  deriving DecidableEq, Repr

/-- How far the module's start has come: no power; all dies held in reset, by a trip, a tamper alarm, or an image that
was not accepted; recovery mode; boot step 7 under way; step 7 failed (R79); started. -/
inductive BootState where
  | off | held | recovery | training | failed | up
  deriving DecidableEq, Repr

/-- Power, clock and thermal state (R17-R25, R64). `held` lists the accesses that wait for the exit from M2. -/
structure Power where
  state    : PowerState
  req      : BitVec 2
  refused  : Bool
  cap      : BitVec 12
  mhz      : BitVec 12
  capped   : Bool
  hot      : Bool
  talarm   : Bool
  therm    : Tab Word
  pwrgd    : Bool
  alert    : Bool
  thermN   : Bool
  boot     : BootState
  exiting  : Bool
  held     : List HostAccess
  deriving DecidableEq, Repr

/-- The states of a port (R47). -/
inductive PortState where
  | down | training | up | failed
  deriving DecidableEq, Repr

/-- A packet on a virtual lane, by its destination module and its bytes. -/
structure NetPacket where
  dest  : Nat
  vl    : Nat
  bytes : List Byte
  deriving DecidableEq, Repr

/-- A flit to be sent (R39): the destination of its packet, its lane, KIND and ZXF, and its payload; and, once it has been sent, the
credit it returned. -/
structure LinkFlit where
  dest : Nat
  vl   : Nat
  kind : Nat
  zxf  : Bool
  data : List Byte
  cvl  : Nat
  ccnt : Nat
  deriving DecidableEq, Repr

/-- A packet being received on a lane (assumption 13): its destination and length, the bytes that have come, and the payloads of the
flits of a tile that is not yet whole, with their sequence numbers where it is a ZX tile. -/
structure RxPacket where
  dest  : Nat
  len   : Nat
  bytes : List Byte
  run   : List Byte
  seqs  : List (BitVec 16)
  deriving DecidableEq, Repr

/-- One Ngusin port (R38-R48): its register NGPORT; the sender's next sequence number, replay buffer, the count of its flits
to be sent again, its spent credit, the packets waiting with the routing table that sent them here, what is still to be cut into tiles of each
lane's packet begun, the flits of tiles made, and the
last flit sent; the receiver's next expected number, credit owed, NAK owed, packets being received, sequence numbers accepted
beyond the next expected, and packets held until the exit from M2; the runs of NAKs for one number that were received and sent, the
time of the last ACK progress, and the failed retrains in succession. -/
structure Port where
  enable  : Bool
  zxen    : Bool
  state   : PortState
  laneok  : BitVec 4
  nakcnt  : BitVec 16
  zxHold  : Bool
  seq     : BitVec 16
  replay  : List (BitVec 16 × LinkFlit)
  again   : Nat
  spent   : Tab Nat
  queue   : List (Nat × NetPacket)
  tx      : Tab (Option (Nat × NetPacket))
  flits   : List LinkFlit
  lastTx  : List Byte
  expect  : BitVec 16
  owed    : Tab Nat
  nakOwed : Bool
  rx      : Tab (Option RxPacket)
  ahead   : List (BitVec 16)
  inbox   : List NetPacket
  naksIn  : Nat
  nakIn   : BitVec 16
  naksOut : Nat
  nakOut  : BitVec 16
  ackUs   : Nat
  fails   : Nat
  deriving DecidableEq, Repr

/-- A memory stack's or an I/O die's error registers (R55-R58): `half` lists the channels below their full rate, `grade` how many speed
grades an LPDDR6 channel has gone down (R57). -/
structure MemBank where
  ce      : BitVec 16
  ue      : BitVec 16
  retry   : BitVec 16
  ovfl    : Bool
  half    : List Nat
  grade   : Tab Nat
  dead    : List Nat
  period  : BitVec 6
  nowb    : Bool
  log     : Tab (BitVec 128)
  next    : Nat
  count   : Nat
  deriving DecidableEq, Repr

/-- A host declaration or free under way (R74), as HDCTL, HDRES and HDDESC gave it at its GO. -/
structure HdReq where
  free  : Bool
  owner : BitVec 6
  ptr   : Word
  desc  : List Byte
  deriving DecidableEq, Repr

/-- A partition's registers that are no cluster map, route, shape slot or PREEMPT bit (R69, R74, R159). -/
structure Part where
  vecbase  : BitVec 11
  veccount : BitVec 12
  refused  : Bool
  reason   : BitVec 3
  aperr    : Bool
  halted   : Bool
  hcode    : BitVec 8
  hcore    : BitVec 9
  hstep    : BitVec 32
  hddesc   : List Byte
  hdop     : Bool
  hdowner  : BitVec 6
  hdreq    : Option HdReq
  hddone   : Bool
  hdrefused : Bool
  hdcode   : BitVec 8
  hdres    : Word
  overran  : List Nat
  frozen   : List Nat
  heldW    : List (Nat × Nat × List Byte)
  heldR    : List (Nat × Nat × Nat)
  deriving DecidableEq, Repr

/-- Both signatures of a certificate or a response (R82): whether it carries the alarmed mark, and whether the keys are those of the
alarmed identity (R84). -/
structure Signed where
  alarmed  : Bool
  identity : Bool
  ecdsa    : BitVec 768
  hss      : List Byte
  deriving DecidableEq, Repr

/-- Escutcheon's last answer to an SPDM request (R81, R82): none yet, an error, and whether it is Unspecified, or the response. A
certificate is what it certifies, with its signatures. -/
inductive SpdmReply where
  | none
  | error (unspecified : Bool)
  | version
  | capabilities
  | algorithms (l : List SpdmAlg)
  | digests (d : List Byte)
  | certificate (l : List (List Byte × Signed))
  | challenge (nonce : BitVec 256) (sig : Signed)
  | measurements (blocks : List (Nat × Nat)) (sig : Option Signed)
  | keyExchange (sess : Nat) (sig : Signed)
  | finish (sess : Nat)
  | endSession (sess : Nat)
  | heartbeat (sess : Nat)
  deriving DecidableEq, Repr

/-- How far an SPDM connection has come on one transport. -/
structure Conn where
  version : Bool
  caps    : Bool
  algs    : Bool
  deriving DecidableEq, Repr

/-- A connection that has not begun. -/
def Conn.zero : Conn := { version := false, caps := false, algs := false }

/-- An SPDM session: its transport and number, its key, and whether it waits for FINISH. -/
structure Session where
  tr   : Transport
  id   : Nat
  key  : BitVec 256
  wait : Bool
  deriving DecidableEq, Repr

/-- Escutcheon (R77-R85): flash copies by image type and copy, the images booted, fused minimums, the alarm fuse, the HSS leaf counter,
the measurement registers, alarms, whether verification has ended until the next reset, debug with the challenge to which a response is
due, whether the device's identity keys are still there and whether a class C alarm holds the dies until the next power-on, and the SPDM
connections with the transport over which requests come (the model's own, assumption 101), their sessions and failures. -/
structure Trust where
  flash    : List (Option FwImage × Option FwImage)
  booted   : List (Option FwImage)
  svnMin   : Tab Nat
  fused    : Bool
  hss      : Nat
  meas     : Tab (BitVec 384)
  measData : BitVec 384
  measIdx  : BitVec 3
  measRef  : Bool
  classA   : Bool
  classB   : Bool
  acount   : BitVec 5
  blocked  : Bool
  unlocked : Bool
  locked   : Bool
  challenge : Option (BitVec 256)
  keys     : Bool
  holdC    : Bool
  doe      : Conn
  mctp     : Conn
  via      : Transport
  sessions : List Session
  failUs   : List Nat
  reply    : SpdmReply
  deriving DecidableEq, Repr

/-- Snapshot state (R86, R87): SNAPCTL, SNAPSTAT, the core clock of the trigger held, the blocks
that have still to latch, and what each block latched with the package time of its latch. -/
structure Snap where
  faulten : Bool
  code    : BitVec 8
  vccen   : Bool
  core    : BitVec 9
  match_  : BitVec 48
  held    : Bool
  cause   : BitVec 3
  fcode   : BitVec 8
  lost    : BitVec 16
  at_     : Nat
  todo    : List Nat
  latch   : Tab (List Word)
  times   : Tab Nat
  deriving DecidableEq, Repr

/-- Deadbolt (R261-R267). `slots` maps a die's data slot to the page it protects, by die * 2^24 + slot, and `mslots` a module
slot; `pendLoss` lists the lost dies whose rebuild has not ended, with the dies they hosted, `kept` the survivors' protected pages as they
were at the fence, and `mrebuild` says that a module rebuild runs. -/
structure Deadbolt where
  dbslots    : BitVec 24
  dbmslots   : BitVec 24
  rebuilding : Bool
  lostdies   : BitVec 8
  adopters   : BitVec 8
  progress   : BitVec 46
  retired    : BitVec 80
  slots      : Tab (Nat × Nat)
  mslots     : Tab (Nat × Nat)
  group      : Word
  pendLoss   : List Nat
  kept       : Tab (List Byte × List Nat)
  mrebuild   : Bool
  deriving DecidableEq, Repr

/-- A contribution to a reduction across modules that has arrived on a link (R453, R133): whether it is a COLL's, what
names the reduction, the rank, and the bytes. -/
structure RedIn where
  coll  : Bool
  part  : Nat
  key   : List Nat
  rank  : Nat
  data  : List Byte
  codes : List Byte
  deriving DecidableEq, Repr

/-- A read request that left the storage port (R60): the core, token and issue cycle of its command, the row of the command's source and
the 512-byte block of the bus it covers, its first byte within the row and its length, the package time it left, and the bytes that
have come, in order. -/
structure PeerRead where
  core : Nat
  tok  : Nat
  vcc  : Nat
  row  : Nat
  lo   : Nat
  n    : Nat
  us   : Nat
  data : List Byte
  deriving DecidableEq, Repr

/-- The last answer to a host access (R25, R67): none yet, bytes, an Unsupported Request or a poisoned completion, a request held
until a restore or a wake, or for configuration requests success, retry status, or no answer at all. -/
inductive HostAnswer where
  | none
  | data (bytes : List Byte)
  | ur
  | poisoned
  | held
  | ok
  | retry
  | silent
  deriving DecidableEq, Repr

/-- The module's own state. `sent` lists the interrupt messages sent, newest first; `routeHold` holds packets with the
routing table that sent them, and `lastRoute` the port each table last sent a destination's packets to, plus one (R46). -/
structure Module where
  power   : Power
  rsvhit  : Word
  errvec  : Word
  ngself  : BitVec 12
  ngrt    : Tab (BitVec 32)
  ports   : Tab Port
  routeHold : List (Nat × NetPacket)
  lastRoute : Tab Nat
  hbm     : Tab MemBank
  lp      : Tab MemBank
  parts   : Tab Part
  apslots : Tab Word
  msix    : Tab (BitVec 128)
  pending : Tab Bool
  sent    : List Nat
  vfen    : Bool
  numvfs  : BitVec 3
  trust   : Trust
  snap    : Snap
  errlog  : Tab (BitVec 128)
  errnext : BitVec 8
  errovfl : Bool
  db      : Deadbolt
  llc     : Tab (BitVec 16)
  llcBusy : Tab (BitVec 16)
  llcRef  : Tab Bool
  errinj  : Tab Word
  redIn   : List RedIn
  peerReads : List PeerRead
  answer  : HostAnswer
  deriving DecidableEq, Repr

def Power.reset : Power :=
  { state := .m1, req := 0, refused := false, cap := 2800, mhz := 1800, capped := false, hot := false, talarm := false,
    therm := .empty, pwrgd := true, alert := false, thermN := false, boot := .up, exiting := false, held := [] }

/-- NGPORT resets to ZXEN set and everything else clear (R48). -/
def Port.zero : Port :=
  { enable := false, zxen := true, state := .down, laneok := 0, nakcnt := 0, zxHold := false, seq := 0, replay := [], again := 0,
    spent := .empty, queue := [], tx := .empty, flits := [], lastTx := [], expect := 0, owed := .empty, nakOwed := false, rx := .empty, ahead := [],
    inbox := [], naksIn := 0, nakIn := 0, naksOut := 0, nakOut := 0, ackUs := 0, fails := 0 }

/-- A scrub period of twelve hours (R55). -/
def MemBank.zero : MemBank :=
  { ce := 0, ue := 0, retry := 0, ovfl := false, half := [], grade := .empty, dead := [], period := 12, nowb := false, log := .empty,
    next := 0, count := 0 }

def Part.zero : Part :=
  { vecbase := 0, veccount := 0, refused := false, reason := 0, aperr := false, halted := false, hcode := 0, hcore := 0,
    hstep := 0, hddesc := List.replicate 64 0, hdop := false, hdowner := 0, hdreq := none, hddone := false,
    hdrefused := false, hdcode := 0, hdres := 0, overran := [], frozen := [], heldW := [], heldR := [] }

/-- Bytes 0 to 63 of an image's header, which both signatures cover (R77). -/
def imageHead (i : FwImage) : List Byte :=
  [i.magic, i.typ, i.svn, i.length].flatMap (fun x => leBytes x.toNat 4) ++ leBytes i.digest.toNat 48

/-- The image of SVN 0 with no body that Genrek has signed for a type, as each flash copy holds before any update (assumption 9). -/
def stockImage (typ : Nat) : FwImage :=
  let i : FwImage := {
    magic := 0x4B584946, typ := BitVec.ofNat 32 typ, svn := 0, length := 0,
    digest := 0x5bb99848f1d21ad5fb656fe7bfde4e27dae1f663bfc70c4c4307be1411b7fd216ae3b1b17e32d94c3896ac51a760b038,
    ecdsa := 0, hss := [], body := [] }
  { i with ecdsa := Config.genrekEcdsa (imageHead i), hss := Config.genrekHss (imageHead i) }

/-- A measurement register that has taken one extend with the digest of a stock image. -/
def stockMeas : BitVec 384 :=
  0xa50fc64b9f71073a60bc94809b3ed107cec8b3ebf9662829897300268acee09138290f3346d962e66074818bcefb921

def Trust.reset : Trust :=
  { flash := (List.range 6).map (fun i => (some (stockImage (i + 1)), some (stockImage (i + 1)))),
    booted := (List.range 6).map (fun i => some (stockImage (i + 1))), svnMin := .empty,
    fused := false, hss := 0, meas := { cells := (List.range 6).map (fun i => (i, stockMeas)) }, measData := 0, measIdx := 0, measRef := false,
    classA := false, classB := false, acount := 0, blocked := false, unlocked := false, locked := false, challenge := none, keys := true,
    holdC := false, doe := .zero, mctp := .zero, via := .doe, sessions := [], failUs := [], reply := .none }

/-- SNAPCTL resets with CODE 0xFF (R86). -/
def Snap.reset : Snap :=
  { faulten := false, code := 0xFF, vccen := false, core := 0, match_ := 0, held := false, cause := 0, fcode := 0,
    lost := 0, at_ := 0, todo := [], latch := .empty, times := .empty }

/-- DBSLOTS and DBMSLOTS as the stock configuration image sets them (assumption 15). -/
def Deadbolt.reset : Deadbolt :=
  { dbslots := 524288, dbmslots := 65536, rebuilding := false, lostdies := 0, adopters := 0, progress := 0, retired := 0,
    slots := .empty, mslots := .empty, group := 0, pendLoss := [], kept := .empty, mrebuild := false }

/-- HBMVEC and LPVEC reset to 4 (R64). -/
def Module.reset : Module :=
  { power := .reset, rsvhit := 0, errvec := 0x40004, ngself := 0, ngrt := .empty, ports := .empty, routeHold := [], lastRoute := .empty,
    hbm := .empty, lp := .empty, parts := .empty, apslots := .empty, msix := .empty, pending := .empty, sent := [],
    vfen := false, numvfs := 0, trust := .reset, snap := .reset, errlog := .empty, errnext := 0, errovfl := false,
    db := .reset, llc := .empty, llcBusy := .empty, llcRef := .empty, errinj := .empty, redIn := [], peerReads := [], answer := .none }

end Sys2Proof.Machine
end

