-- ==== Sys2Proof/Machine/State.lean ====
section
/-!
DEFINITION. Sys2Proof/Machine/State.lean: the whole state of the machine as plain data, the reasons a step can stop,
and the state right after reset.
-/

namespace Sys2Proof.Machine

/-- What happens in the module or around it that the opcode table has no row for (assumption 101): byte symbols of a stored sector go wrong (R52), a
transfer of a memory channel goes through at a retry (R53, R57), a core finds an uncorrectable accumulator word or a residue mismatch
(R251), a cache's read of a line is uncorrectable (R257), a ZX tile cannot be expanded (R191), an I/O die fails (R258), boot step 7 ends
(R79), SPDM requests come over a transport (R81), Escutcheon challenges a debugger (R85), the host port serves a held read (R67), and the parts of a module rebuild (R266). -/
inductive World where
  | upset (sector : Nat) (two : Bool)
  | retried (mem n : Nat)
  | coreError (c : Nat)
  | cacheError (die : Nat) (llc : Bool) (h line : Nat)
  | tileError (h tile : Nat)
  | ioDieError
  | bootEnd (ok : Bool)
  | spdmVia (tr : Transport)
  | debugChallenge
  | servedRead (fn i : Nat)
  | rebuiltRecord (h : Nat) (r : TRec) (recipe : Option Recipe)
  | rebuiltPage (h page : Nat) (bytes : List Byte)
  | rebuildEnd
  deriving DecidableEq, Repr

/-- Who acts in a step: a context's next stream instruction, a core's next bundle, a matrix engine's next
micro-operation, an event of the machine or of the world outside it, or a read of a register from outside, which has no row of the
opcode table, or a happening of `World`. -/
inductive Actor where
  | ctx (c : Nat)
  | core (c : Nat)
  | micro (c : Nat)
  | event (i : Instr)
  | read (via : Via) (off n : Nat)
  | world (w : World)
  deriving DecidableEq, Repr

/-- One turn of the agenda: the microseconds and core clocks that pass before it, and who acts (assumption 3). -/
structure Turn where
  us    : Nat
  clks  : Nat
  actor : Actor
  deriving DecidableEq, Repr

/-- Why the machine stops with a fault. -/
inductive Fault where
  /-- The cores' own faults are taken as exceptions and never stop the machine; this constructor is raised by nobody
  and is safe. -/
  | none
  deriving DecidableEq, Repr

/-- Why a step has no meaning. -/
inductive Refusal where
  /-- Raised by the dispatcher for an instruction that has no meaning yet; safe: nothing is proved of it. -/
  | notModelled (mnemonic : String)
  deriving DecidableEq, Repr

/-- The state of the module. -/
structure State where
  /-- Core clocks since reset. -/
  clk      : Nat
  /-- Package time in microseconds since reset (R95). -/
  us       : Nat
  /-- The turns still to come; the model's own field (assumption 3). -/
  agenda   : List Turn
  /-- The core whose slots and micro-operations the step's instruction acts on; the model's own field. -/
  curCore  : Nat
  /-- The context whose stream instruction the step runs; the model's own field. -/
  curCtx   : Nat
  /-- The number of the next free value; the model's own field. -/
  free     : Nat
  /-- The number of the next launch, landing request, packet or table load; the model's own field. -/
  nextId   : Nat
  mem      : Memory
  /-- Poisoned 32-byte sectors, by key / 32 (R54, R256). -/
  poison   : Tab Bool
  /-- How many byte symbols of a stored sector are wrong, by key / 32 (R52, R58). -/
  wrong    : Tab Nat
  cores    : Tab Core
  ctxs     : Tab Ctx
  launches : Tab Launch
  recs     : Tab TRec
  recipes  : Tab Recipe
  reissues : List Reissue
  hasps    : Tab Hasp
  disps    : Tab Dispatcher
  /-- Shares waiting at their die's sequencer (R146). -/
  waiting  : Tab (List Share)
  routes   : Tab Route
  /-- Shape slots: bit 16 VALID, bits 15-0 VALUE (R163), by partition and slot. -/
  shapes   : Tab (BitVec 32)
  /-- Tumbler entries, by die and site (R161). -/
  tumblers : Tab (BitVec 128)
  /-- The words, tags and directories of the dies' stores of expansions (R134), by die * 4096 + word and die * 256 + entry. -/
  mwords   : Tab Word
  mtags    : Tab (BitVec 4)
  mdirs    : Tab MDir
  /-- The allocated 64 KiB pages of tensors (R176), by die and page. -/
  pages    : Tab Bool
  /-- The page-table entries that a page-table store has written (R178), by die * 2^27 + entry; the others are those the Hasp keeps. -/
  ptw      : Tab Bool
  /-- Translation caches of the memory controllers: leaf entries by controller, die and page (R177). -/
  tlb      : Tab Word
  /-- Lines with an expected read count in a die's L2, one more than the count left (R218). -/
  l2       : Tab Nat
  /-- Lines that a die's L2 holds dirty (R218). -/
  l2Dirty  : Tab Bool
  packets  : List Packet
  /-- Partition cluster maps, one byte for each logical cluster (R69), by partition * 80 + index. -/
  maps     : Tab (BitVec 8)
  /-- PREEMPT.SOFT of each partition (R154). -/
  softs    : BitVec 8
  /-- DBSTAT.DEGRADED (R264, R267). -/
  degraded : Bool
  mod      : Module
  deriving DecidableEq, Repr

/-- The machine right after reset. -/
def State.reset : State :=
  { clk := 0, us := 0, agenda := [], curCore := 0, curCtx := 0, free := 0, nextId := 0, mem := .empty, poison := .empty, wrong := .empty,
    cores := .empty, ctxs := .empty, launches := .empty, recs := .empty, recipes := .empty, reissues := [],
    hasps := .empty, disps := .empty, waiting := .empty, routes := .empty, shapes := .empty, tumblers := .empty, mwords := .empty,
    mtags := .empty, mdirs := .empty, pages := .empty,
    ptw := .empty, tlb := .empty, l2 := .empty, l2Dirty := .empty, packets := [], maps := .empty, softs := 0, degraded := false, mod := .reset }

end Sys2Proof.Machine
end

