-- ==== Sys2Proof/Machine/Ops.lean ====
section
/-!
DEFINITION. Sys2Proof/Machine/Ops.lean: the named operations over registers and memory that the meanings are made of:
the layout of memory keys, the checks of a dereference, results and their due cycles, the commit queue, and taking a
precise fault and returning from it.
-/

namespace Sys2Proof.Machine

/-! ### Names of the machine's parts (R11, R15) -/

/-- The die of a physical core id. -/
def coreDie (c : Nat) : Nat := c / 64
/-- The core-in-cluster number of a physical core id. -/
def coreCic (c : Nat) : Nat := c % 4
/-- The physical cluster id of a core (R15). -/
def coreCluster (c : Nat) : Nat := c / 64 * 16 + c % 64 / 4
/-- Core q of a physical cluster. -/
def clusterCore (cl q : Nat) : Nat := cl / 16 * 64 + cl % 16 * 4 + q
/-- The cores of a core's cluster. -/
def clusterCores (c : Nat) : List Nat := (List.range 4).map (clusterCore (coreCluster c))
/-- How many clusters a die has: twelve on dies 0-3, eight on dies 4-7 (R10, R70). -/
def dieClusters (d : Nat) : Nat := if d < 4 then 12 else if d < 8 then 8 else 0
/-- Whether a physical cluster exists. -/
def clusterExists (cl : Nat) : Bool := decide (cl % 16 < dieClusters (cl / 16))
/-- Whether a physical core exists. -/
def coreExists (c : Nat) : Bool := decide (c < 512) && clusterExists (coreCluster c)
/-- The home die of a handle (R119). -/
def handleDie (h : Nat) : Nat := h / 2 ^ 20 % 8
/-- Whether a die has been lost (R267). -/
def isLost (s : State) (d : Nat) : Bool := s.mod.db.lostdies.getLsbD d
/-- The adopter of a lost die: the first surviving die of d XOR 1, the other dies of its row, and every other die (R260). -/
def adopterOf (s : State) (d : Nat) : Nat :=
  ((Nat.xor d 1 :: ((List.range 4).map (fun i => d / 4 * 4 + i) ++ List.range 8)).find? (fun x => !isLost s x)).getD d
/-- The die whose HBM4E holds the tensors homed on a die. -/
def hostDie (s : State) (d : Nat) : Nat := if isLost s d then adopterOf s d else d
/-- The stacks of a die (R13). -/
def stacksOf (d : Nat) : List Nat := if d < 4 then [d] else [3 * d - 8, 3 * d - 7, 3 * d - 6]

/-! ### Memory keys -/

/-- The key of byte `o` of the tensor with handle `h`, where its pages lie in the frames of the Hasp's own choosing. -/
def globKey (h o : Nat) : Nat := 2 ^ 63 + h * 2 ^ 40 + o
/-- The key of a scratchpad byte; the private area of slot s lies at offset 0x380000 + 0x4000 s (R206). -/
def spadKey (core off : Nat) : Nat := 2 ^ 60 + core * 2 ^ 51 + off
/-- The key of a weight buffer byte. -/
def wbufKey (core wb off : Nat) : Nat := 3 * 2 ^ 60 + core * 2 ^ 51 + wb * 2 ^ 18 + off
/-- The key of a byte at a bus address of the host window. -/
def hostKey (addr : Nat) : Nat := 4 * 2 ^ 60 + addr
/-- The key of a byte of a physical frame that a page-table store has named (R176, R178). -/
def frameKey (die tier pa : Nat) : Nat := 5 * 2 ^ 60 + die * 2 ^ 53 + tier * 2 ^ 52 + pa
/-- The key of a byte of a core's bundle store: code at 0, constants at 0x30000 (R325). -/
def storeKey (core off : Nat) : Nat := 6 * 2 ^ 60 + core * 2 ^ 51 + off
/-- The scratchpad offset of a private area (R206). -/
def privOff (slot : Nat) : Nat := 0x380000 + 0x4000 * slot

/-! ### Parts of the state -/

/-- A core. -/
def coreAt (s : State) (c : Nat) : Core := s.cores.get .zero c
/-- Change a core. -/
def updCore (s : State) (c : Nat) (f : Core → Core) : State := { s with cores := s.cores.upd .zero c f }
/-- Change the savable part of a core. -/
def updBody (s : State) (c : Nat) (f : Body → Body) : State := updCore s c (fun k => { k with b := f k.b })
/-- Change the checkpointed part of a core. -/
def updRegs (s : State) (c : Nat) (f : Regs → Regs) : State := updBody s c (fun b => { b with r := f b.r })
/-- A stream context. -/
def ctx (s : State) (c : Nat) : Ctx := s.ctxs.get .zero c
/-- Change a stream context. -/
def updCtx (s : State) (c : Nat) (f : Ctx → Ctx) : State := { s with ctxs := s.ctxs.upd .zero c f }
/-- A tensor record. -/
def trec (s : State) (h : Nat) : TRec := s.recs.get .zero h
/-- Change a tensor record. -/
def updRec (s : State) (h : Nat) (f : TRec → TRec) : State := { s with recs := s.recs.upd .zero h f }
/-- A launch. -/
def launchOf (s : State) (l : Nat) : Launch := s.launches.get .zero l
/-- Change a launch. -/
def updLaunch (s : State) (l : Nat) (f : Launch → Launch) : State := { s with launches := s.launches.upd .zero l f }
/-- A Hasp slice. -/
def hasp (s : State) (d : Nat) : Hasp := s.hasps.get .zero d
/-- Change a Hasp slice. -/
def updHasp (s : State) (d : Nat) (f : Hasp → Hasp) : State := { s with hasps := s.hasps.upd .zero d f }
/-- A dispatcher. -/
def disp (s : State) (cl : Nat) : Dispatcher := s.disps.get .zero cl
/-- Change a dispatcher. -/
def updDisp (s : State) (cl : Nat) (f : Dispatcher → Dispatcher) : State := { s with disps := s.disps.upd .zero cl f }
/-- A fresh number. -/
def fresh (s : State) : Nat × State := (s.nextId, { s with nextId := s.nextId + 1 })

/-! ### Core registers -/

def sReg (s : State) (c n : Nat) : Word := (coreAt s c).b.r.s.get 0 n
def vReg (s : State) (c n : Nat) : Vec := (coreAt s c).b.r.v.get 0 n
def kReg (s : State) (c n : Nat) : Mask := (coreAt s c).b.r.k.get 0 n
def scReg (s : State) (c n : Nat) : Vec := (coreAt s c).b.r.sc.get 0 n
def mgReg (s : State) (c n : Nat) : Word := (coreAt s c).b.r.mg.get 0 n
def tokRec (s : State) (c t : Nat) : TokenRec := (coreAt s c).b.r.toks.get .free t
def setTok (s : State) (c t : Nat) (f : TokenRec → TokenRec) : State :=
  updRegs s c (fun r => { r with toks := r.toks.upd .free t f })
/-- The task a core runs. -/
def taskOf (s : State) (c : Nat) : Option Task := (coreAt s c).b.task
/-- Whether a core's task runs in a lockstep group (R273). -/
def isGroup (s : State) (c : Nat) : Bool := match taskOf s c with | some t => t.group | none => false
/-- The cores that issue a bundle together with this one, the leading core first (R273). -/
def groupOf (s : State) (c : Nat) : List Nat := if isGroup s c then clusterCores c else [c]
/-- Whether a core's task is provisional and not yet confirmed (R164, R348). -/
def isProv (s : State) (c : Nat) : Bool := match taskOf s c with | some t => t.prov | none => false
/-- Whether a core's task is privileged: its launch belongs to partition 0 (R351). -/
def isPriv (s : State) (c : Nat) : Bool := match taskOf s c with | some t => t.part == 0 | none => true
/-- The operands of a core's launch (R112). -/
def taskOps (s : State) (c : Nat) : List Operand := match taskOf s c with | some t => (launchOf s t.launch).ops | none => []
/-- The partition of a core's task. -/
def taskPart (s : State) (c : Nat) : Nat := match taskOf s c with | some t => t.part | none => 0

/-! ### Fault codes (R243) -/

def codeIllegal : BitVec 8 := 0x01
def codeConflict : BitVec 8 := 0x02
def codePrivilege : BitVec 8 := 0x03
def codeTokenLive : BitVec 8 := 0x04
def codeAlign : BitVec 8 := 0x05
def codeForeign : BitVec 8 := 0x10
def codeSpace : BitVec 8 := 0x11
def codeBuf : BitVec 8 := 0x12
def codeBounds : BitVec 8 := 0x13
def codeUndeclared : BitVec 8 := 0x14
def codeProv : BitVec 8 := 0x15
def codeMxBank : BitVec 8 := 0x20
def codeMxBounds : BitVec 8 := 0x21
def codeMxJoin : BitVec 8 := 0x22
def codeDecompOver : BitVec 8 := 0x28
def codeDecompShort : BitVec 8 := 0x29
def codeDataUe : BitVec 8 := 0x30
def codeSegMismatch : BitVec 8 := 0x31
def codeRerun : BitVec 8 := 0x32
def codePoison : BitVec 8 := 0x38
def codeDeadline : BitVec 8 := 0x40
def codeSegDeadline : BitVec 8 := 0x41
def codeRecipeDepth : BitVec 8 := 0x48
def codeRecipeInvalid : BitVec 8 := 0x49
def codeTranslation : BitVec 8 := 0x50
def codeDeferred : BitVec 8 := 0x51
def codeDieLost : BitVec 8 := 0x58
def codeRetired : BitVec 8 := 0x59
def codeTrap : BitVec 8 := 0x60

/-- Why a slot's operation does not take effect at this attempt: a precise fault with its code, faulting pointer and,
where a token's record reported it, the core, the token and whether a WAITT consumes it (R244, R245, R248), or a pause
with its cause code (R279) and the scratchpad bank whose wake the access begins (R27). -/
inductive Stop where
  | fault (code : BitVec 8) (addr : Word) (tok : Option (Nat × Nat × Bool))
  | pause (cause : Nat) (wake : Option (Nat × Nat))
  deriving DecidableEq, Repr

/-- The effect of one slot's operation on one core: registers, memory and tables are read from the first state, the one
before the bundle issues, and the second state is changed (R8, R229). -/
abbrev Eff := Nat → State → State → Except Stop State

/-- A precise fault without a pointer. -/
def flt {α : Type} (code : BitVec 8) : Except Stop α := .error (.fault code 0 none)
/-- A precise fault at a pointer. -/
def fltAt {α : Type} (code : BitVec 8) (p : Word) : Except Stop α := .error (.fault code p none)
/-- A pause. -/
def pauseFor {α : Type} (cause : Nat) : Except Stop α := .error (.pause cause none)
/-- A check that raises a fault unless it holds. -/
def need (b : Bool) (code : BitVec 8) (p : Word) : Except Stop Unit := if b then .ok () else fltAt code p

/-! ### Results (R274) -/

/-- Write a value into a register at the due cycle `lat` cycles after the bundle's. -/
def result (c : Nat) (dst : Dst) (val : BitVec 1024) (lat : Nat) (s : State) : State :=
  updRegs s c (fun r => { r with res := r.res ++ [{ dst := dst, val := val, due := r.vcc + lat }] })

/-- A 64-bit result. -/
def resultS (c n : Nat) (x : Word) (lat : Nat) (s : State) : State := result c (.s n) (x.setWidth 1024) lat s
/-- A vector result. -/
def resultV (c n : Nat) (x : Vec) (lat : Nat) (s : State) : State := result c (.v n) x lat s
/-- A mask result. -/
def resultK (c n : Nat) (x : Mask) (lat : Nat) (s : State) : State := result c (.k n) (x.setWidth 1024) lat s

/-- Bits of an engine shadow register that a part code of R340 writes: the low bit and the width. -/
def partRange : Nat → Nat × Nat
  | 0 => (0, 64) | 1 => (0, 32) | 2 => (32, 32) | 3 => (0, 16) | 4 => (16, 16) | 5 => (32, 16) | 6 => (48, 16)
  | _ => (0, 0)

/-- The bits of a copy engine register that are not reserved: xg0-xg7 are numbers 0-7, xs0-xs3 are 8-11 (R443, R6). -/
def keepX : Nat → Nat
  | 3 => 0xFFFF01FF | 8 => 0xFFFFFFFFFFFFFF | _ => 0xFFFFFFFFFFFFFFFF
/-- The bits of a matrix engine register that are not reserved: mp0-mp7 are numbers 0-7, ms0-ms3 are 8-11 (R423, R6). -/
def keepM : Nat → Nat
  | 8 => 0xFFFFFFFFFFFFFF | 9 => 0xFFFF000FFFFF | 10 => 0xFFF0F | 11 => 0x1FFFFF3F | _ => 0xFFFFFFFFFFFFFFFF

/-- Write a value into its destination; reserved bits of an engine register ignore what is written (R6). -/
def writeDst (r : Regs) (d : Dst) (x : BitVec 1024) : Regs :=
  match d with
  | .s n => { r with s := r.s.set 0 n (x.setWidth 64) }
  | .v n => { r with v := r.v.set 0 n x }
  | .k n => { r with k := r.k.set 0 n (x.setWidth 128) }
  | .sc n => { r with sc := r.sc.set 0 n x }
  | .mg n => { r with mg := r.mg.set 0 n (x.setWidth 64) }
  | .buf n => { r with bufs := r.bufs.upd 0 n (fun e => BitVec.ofNat 64 (withBits e.toNat 1 2 x.toNat)) }
  | .shX n p => { r with shadX := r.shadX.upd 0 n (fun w => BitVec.ofNat 64 (withBits w.toNat (partRange p).1 (partRange p).2 x.toNat) &&& BitVec.ofNat 64 (keepX n)) }
  | .shM n p => { r with shadM := r.shadM.upd 0 n (fun w => BitVec.ofNat 64 (withBits w.toNat (partRange p).1 (partRange p).2 x.toNat) &&& BitVec.ofNat 64 (keepM n)) }

/-- Set sticky bits of NUMSTAT (R303). -/
def setFlags (c : Nat) (flags : Nat) (s : State) : State :=
  updBody s c (fun b => { b with numstat := b.numstat ||| BitVec.ofNat 64 (flags % 256) })

/-- Add to NUMSTAT.NANCNT, saturating (R303). -/
def addNan (c n : Nat) (s : State) : State :=
  updBody s c (fun b => { b with numstat := BitVec.ofNat 64 (withBits b.numstat.toNat 16 16 (Nat.min 65535 (fieldW b.numstat 16 16 + n))) })

/-! ### Translation of global bytes (R173, R176-R179) -/

/-- The index every slice leaves to its page table (R119, R178). -/
def isPageTable (h : Nat) : Bool := h % 2 ^ 20 == 0xFFFFF
/-- The bytes of a die's page table: a root of 512 entries, and the next levels of 4,096 entries behind it
(assumption 6). -/
def pageTableBytes : Nat := 2 ^ 30
/-- The physical address at which a die's page table area begins (assumption 6). -/
def pageTableBase : Nat := 2 ^ 51

/-- The number of the first frame the Hasp gives to a page of a tensor: that of page `p` of a die is `ownFrame + p` (assumption 6). -/
def ownFrame : Nat := 2 ^ 34

/-- A page of a die's intermediate addresses. -/
def pageOf (ia : Nat) : Nat := ia % 2 ^ 49 / 2 ^ 16

/-- The slot of a page of a die. -/
def tlbKey (die ia : Nat) : Nat := die * 2 ^ 33 + pageOf ia

/-- The live tensor in whose range of intermediate addresses a page of a die lies (R173). -/
def tensorAt (s : State) (die p : Nat) : Option Nat :=
  (s.recs.cells.find? (fun x => handleDie x.1 == die && x.2.state != .free && decide (x.2.iapage % 2 ^ 33 ≤ p) &&
    decide (p < x.2.iapage % 2 ^ 33 + (x.2.bytes + 65535) / 65536))).map (·.1)

/-- Whether a page of a tensor lies in the LPDDR6: the tensor is SPILLED, or a move has taken or has still to bring it (R193). -/
def inSpill (s : State) (h i : Nat) : Bool :=
  match (hasp s (handleDie h)).moves.find? (fun m => m.h == h) with
  | some m => !m.comp && (if m.restore then decide (m.page ≤ i) else decide (i < m.page))
  | none => (trec s h).state == .spilled

/-- The leaf entry the Hasp keeps for a page of a die (R176): V with ZERO until the page is allocated, TIER while it lies in the LPDDR6,
MIG while it moves. -/
def ownLeaf (s : State) (die p : Nat) : Nat :=
  match tensorAt s die p with
  | none => 0
  | some h =>
    let i := p - (trec s h).iapage % 2 ^ 33
    let has := s.pages.get false (die * 2 ^ 33 + p) || inSpill s h i
    1 + (if inSpill s h i then 2 else 0) + (if has then (ownFrame + p) * 2 ^ 16 else 4) +
      (if (hasp s die).moves.any (fun m => m.h == h && m.page == i) then 8 else 0)

/-- The entry the Hasp keeps at an offset of a die's page table (assumption 6): the root's 512 entries name the second-level tables,
64 KiB apart behind it, whose entries name the leaf tables behind those. -/
def ownEntry (s : State) (die off : Nat) : Nat :=
  let t := off / 2 ^ 16
  let i := off % 2 ^ 16 / 8
  if t = 0 then (if i < 512 then 1 + (pageTableBase + 2 ^ 16 * (1 + i)) else 0)
  else if 4096 ≤ i then 0
  else if t ≤ 512 then (if (t - 1) * 4096 + i < 15871 then 1 + (pageTableBase + 2 ^ 16 * (513 + (t - 1) * 4096 + i)) else 0)
  else ownLeaf s die ((t - 513) * 4096 + i)

/-- The slot of an entry of a die's page table. -/
def entryKey (die off : Nat) : Nat := die * 2 ^ 27 + off / 8

/-- The key of a byte at a physical address of a die: inside the page table's area, the bytes of the table's own handle; in a frame the
Hasp gave a page of a tensor, that page's; elsewhere a frame that only page-table stores name. -/
def physKey (s : State) (die tier pa : Nat) : Nat :=
  if pageTableBase ≤ pa ∧ pa < pageTableBase + pageTableBytes then globKey (die * 2 ^ 20 + 0xFFFFF) (pa - pageTableBase)
  else
    let p := pa / 2 ^ 16 - ownFrame
    match (if ownFrame ≤ pa / 2 ^ 16 ∧ p < 2 ^ 33 then tensorAt s die p else none) with
    | some h => globKey h ((p - (trec s h).iapage % 2 ^ 33) * 2 ^ 16 + pa % 2 ^ 16)
    | none => frameKey die tier pa

/-- A page-table entry at a physical address, as a page-table store or else the Hasp wrote it. -/
def pte (s : State) (die pa : Nat) : Nat :=
  let off := pa - pageTableBase
  if pageTableBase ≤ pa ∧ off < pageTableBytes ∧ s.ptw.get false (entryKey die off) = false then ownEntry s die (off / 8 * 8)
  else leNat (s.mem.bytes (physKey s die 0 pa) 8)

/-- The physical address of the leaf entry that a walk of a die's table comes to for an intermediate address (R176); none where an
entry on the way is not valid. -/
def leafAddr (s : State) (die ia : Nat) : Option Nat :=
  let e1 := pte s die (pageTableBase + 8 * bitsOf ia 40 9)
  if bitAt e1 0 then
    let e2 := pte s die (bitsOf e1 16 36 * 2 ^ 16 + 8 * bitsOf ia 28 12)
    if bitAt e2 0 then some (bitsOf e2 16 36 * 2 ^ 16 + 8 * bitsOf ia 16 12) else none
  else none

/-- The leaf entry that a walk of a die's table finds for an intermediate address (R176); zero where an entry on the way is not valid. -/
def walk (s : State) (die ia : Nat) : Nat := match leafAddr s die ia with | some a => pte s die a | none => 0

/-- The memory controller of a die that serves an intermediate address: one to each of its stacks (R177; assumption 6). -/
def ctlOf (die ia : Nat) : Nat :=
  let n := (stacksOf die).length
  if n ≤ 1 then 0 else Config.channelOf (ia / 32) % (32 * n) / 32

/-- The slot of a page in the translation cache of the controller that serves an address. -/
def cacheKey (die ia : Nat) : Nat := ctlOf die ia * 2 ^ 36 + tlbKey die ia

/-- The leaf entry that the controller uses for an intermediate address: the cached one, else the one a walk finds. -/
def leafOf (s : State) (die ia : Nat) : Nat :=
  match findKey (cacheKey die ia) s.tlb.cells with
  | some e => e.toNat
  | none => walk s die ia

/-- Whether a leaf entry is one that a page-table store has changed. -/
def leafWritten (s : State) (die ia : Nat) : Bool :=
  match leafAddr s die ia with
  | some a => decide (a < pageTableBase) || decide (pageTableBase + pageTableBytes ≤ a) || s.ptw.get false (entryKey die (a - pageTableBase))
  | none => true

/-- A key at which nothing is ever stored: a page without a frame reads zero there. -/
def zeroKey : Nat := 2 * 2 ^ 60

/-- The key of byte `o` of tensor `h`: in the frame its page's leaf entry names (assumption 6). -/
def byteKey (s : State) (h o : Nat) : Nat :=
  if isPageTable h then globKey h o
  else
    let ia := (trec s h).iapage * 2 ^ 16 + o
    let e := leafOf s (handleDie h) ia
    if bitAt e 0 && !bitAt e 2 then
      (if bitsOf e 16 36 = ownFrame + pageOf ia then globKey h o
      else physKey s (handleDie h) (if bitAt e 1 then 1 else 0) (bitsOf e 16 36 * 2 ^ 16 + ia % 2 ^ 16))
    else if leafWritten s (handleDie h) ia then zeroKey else globKey h o

/-- The key of byte `i` of a place. -/
def locKey (s : State) (l : Loc) (i : Nat) : Nat :=
  match l with
  | .flat k => k + i
  | .glob h o => byteKey s h (o + i)
  | .host a _ => hostKey (a + i)

/-- Byte `i` of a place: of a page table, of the entry the Hasp keeps where no store has written it. -/
def byteAt (s : State) (l : Loc) (i : Nat) : Byte :=
  match l with
  | .glob h o =>
    if isPageTable h && !s.ptw.get false (entryKey (handleDie h) (o + i)) then BitVec.ofNat 8 (ownEntry s (handleDie h) ((o + i) / 8 * 8) / 2 ^ (8 * ((o + i) % 8)))
    else s.mem.byte (locKey s l i)
  | _ => s.mem.byte (locKey s l i)

/-- `n` bytes at a place. -/
def readLoc (s : State) (l : Loc) (n : Nat) : List Byte := (List.range n).map (byteAt s l)

/-- The number at a place. -/
def readNat (s : State) (l : Loc) (n : Nat) : Nat := leNat (readLoc s l n)

/-- The home die of a byte that lies in HBM4E. -/
def hbmDie (k : Nat) : Option Nat :=
  if 2 ^ 63 ≤ k then some ((k - 2 ^ 63) / 2 ^ 60 % 8)
  else if 5 * 2 ^ 60 ≤ k ∧ k < 6 * 2 ^ 60 ∧ (k - 5 * 2 ^ 60) / 2 ^ 52 % 2 = 0 then some ((k - 5 * 2 ^ 60) / 2 ^ 53 % 8)
  else none

/-- Whether a byte lies in a disabled channel, whose every access returns the poison syndrome (R53). -/
def deadSector (s : State) (k : Nat) : Bool :=
  match hbmDie k with
  | none => false
  | some d =>
    let st := stacksOf (hostDie s d)
    if st.all (fun t => (s.mod.hbm.get .zero t).dead == []) then false
    else
      let ch := Config.channelOf (k / 32) % (32 * st.length)
      (s.mod.hbm.get .zero (nthD st (ch / 32) 0)).dead.contains (ch % 32)

/-- Whether a byte is read with poison: its sector is poisoned, cannot be corrected (R52), or lies in a disabled channel. -/
def poisonAt (s : State) (k : Nat) : Bool := s.poison.get false (k / 32) || decide (2 ≤ s.wrong.get 0 (k / 32)) || deadSector s k

/-- Whether any of `n` bytes at a place is poisoned. -/
def poisoned (s : State) (l : Loc) (n : Nat) : Bool := (List.range n).any (fun i => poisonAt s (locKey s l i))

/-- Before a store to a page table: the entries it touches are from now on those in memory (R178). -/
def writeEntries (s : State) (l : Loc) (n : Nat) : State :=
  match l with
  | .glob h o =>
    if !isPageTable h || n == 0 then s
    else
      (List.range ((o + n - 1) / 8 - o / 8 + 1)).foldl (fun t i =>
        let off := (o / 8 + i) * 8
        let k := entryKey (handleDie h) off
        if t.ptw.get false k then t
        else { t with mem := t.mem.setBytes (globKey h off) (leBytes (ownEntry s (handleDie h) off) 8), ptw := t.ptw.set false k true }) s
  | _ => s

/-- Write bytes, those whose mask flag is set, one after another from byte `i` of a place on. -/
def writeMasked (s : State) (l : Loc) (i : Nat) : List Byte → List Bool → State
  | b :: t, m :: ms =>
    writeMasked (if m then { s with mem := s.mem.setByte (locKey s l i) b } else s) l (i + 1) t ms
  | _, _ => s

/-- The sectors wholly covered by a write of `n` bytes whose mask flags are all set get good check bytes (R54, R256). -/
def clearPoison (s : State) (l : Loc) (n : Nat) (mask : List Bool) : State :=
  (List.range n).foldl (fun s' i =>
    let k := locKey s l i
    if k % 32 = 0 ∧ i + 32 ≤ n ∧ ((mask.drop i).take 32).all (fun b => b) then { s' with poison := s'.poison.set false (k / 32) false, wrong := s'.wrong.set 0 (k / 32) 0 } else s') s

/-- Write bytes at a place. -/
def writeLoc (s : State) (l : Loc) (bytes : List Byte) : State :=
  clearPoison (writeMasked s l 0 bytes (bytes.map (fun _ => true))) l bytes.length (bytes.map (fun _ => true))

/-- Mark the sectors of `n` bytes at a place poisoned. -/
def poisonLoc (s : State) (l : Loc) (n : Nat) : State :=
  (List.range n).foldl (fun s' i => { s' with poison := s'.poison.set false (locKey s l i / 32) true }) s

/-! ### Dereference (R205-R212, R174, R59) -/

/-- The windows an instruction accepts (R375). -/
structure Windows where
  priv : Bool
  spad : Bool
  clus : Bool
  host : Bool
  glob : Bool
  deriving DecidableEq, Repr

def winLocal : Windows := { priv := true, spad := true, clus := false, host := false, glob := false }
def winAll : Windows := { priv := true, spad := true, clus := true, host := true, glob := true }
def winAtomic : Windows := { priv := false, spad := true, clus := true, host := false, glob := true }
def winRelease : Windows := { priv := false, spad := true, clus := true, host := true, glob := true }
def winGlobal : Windows := { priv := false, spad := false, clus := false, host := false, glob := true }
def winSync : Windows := { priv := false, spad := true, clus := true, host := false, glob := false }
def winScale : Windows := { priv := true, spad := true, clus := false, host := false, glob := false }
def winTable : Windows := { priv := true, spad := true, clus := false, host := false, glob := true }
def winNear : Windows := { priv := true, spad := true, clus := true, host := false, glob := false }

/-- Whether a buffer-table entry covers any of `n` bytes from an offset and belongs to another core (R209). -/
def bufBlocks (e : Word) (off n own : Nat) : Bool :=
  bitAt e.toNat 0 && decide (fieldW e 7 15 * 128 < off + n) && decide (off < (fieldW e 7 15 + fieldW e 32 15) * 128) && fieldW e 1 2 != own

/-- Whether bytes of a core's scratchpad belong to another core than the one named (R209). -/
def owned (s : State) (hold off n own : Nat) : Bool :=
  (List.range 16).any (fun i => bufBlocks ((coreAt s hold).b.r.bufs.get 0 i) off n own)

/-- The offset of an operand range in its tensor. -/
def opOff (o : Operand) : Nat := fieldW o.ptr 0 40
/-- The handle of an operand. -/
def opHandle (o : Operand) : Nat := fieldW o.ptr 40 23

/-- Whether a byte of a tensor lies in some operand range of a list (R112). -/
def inRange (ops : List Operand) (h b : Nat) : Bool :=
  ops.any (fun o => opHandle o == h && decide (opOff o ≤ b) && decide (b < opOff o + o.len))

/-- The byte size of a tensor or page table. -/
def tensorBytes (s : State) (h : Nat) : Nat := if isPageTable h then pageTableBytes else (trec s h).bytes

/-- The task a core runs, as an issuer of accesses. -/
def issuerOf (s : State) (c : Nat) : Issuer :=
  match taskOf s c with
  | some t => { launch := t.launch, part := t.part, ctx := t.ctx, slot := t.slot, pc := (coreAt s c).b.r.pc }
  | none => { launch := 0, part := 0, ctx := 0, slot := 0, pc := 0 }

/-- Whether a byte lies in one of the ranges of an entry that a test of the rights accepts. -/
def inRanges (l : List (Nat × Nat × Bool × Bool)) (ok : Bool × Bool → Bool) (b : Nat) : Bool :=
  l.any (fun r => ok r.2.2 && decide (r.1 ≤ b) && decide (b < r.1 + r.2.1))

/-- The entry that the home slice gives for a handle under a launch's operands (R112, R174, R175); none where the handle is no operand or is
FREE. -/
def homeEntry (s : State) (launch h : Nat) : Option RangeEntry :=
  let mine := (launchOf s launch).ops.filter (fun p => opHandle p == h)
  if mine = [] ∨ (!isPageTable h ∧ (trec s h).state = .free) then none
  else some { h := h, iapage := (trec s h).iapage, bytes := tensorBytes s h, launch := launch, ranges := mine.map (fun p => (opOff p, p.len, p.rd, p.wr)) }

/-- The entry an access of a core uses: that of its address-range table, or after a miss the one fetched (R175). -/
def rangeEntry (s : State) (c launch h : Nat) : Option RangeEntry :=
  match (coreAt s c).artab.find? (fun e => e.h == h && e.launch == launch) with
  | some e => some e
  | none => homeEntry s launch h

/-- The fault of the range map for an access of a core under a launch's operands, if any (R174): `wr` for a store, atomic or
reduction. -/
def rangeMapOf (s : State) (c launch h o n : Nat) (wr : Bool) : Option (BitVec 8) :=
  match rangeEntry s c launch h with
  | none => some codeUndeclared
  | some e =>
    if e.bytes < o + n ∨ !(List.range n).all (fun i => inRanges e.ranges (fun _ => true) (o + i)) then some codeBounds
    else if !(List.range n).all (fun i => inRanges e.ranges (fun r => if wr then r.2 else r.1) (o + i)) then some codePrivilege
    else if wr && !isPageTable h && (trec s h).prot.getLsbD 0 && !e.ranges.any (fun r => r.2.2.2) then some codePrivilege
    else none

/-- The fault of the range map for an access by a core's task, if any (R174). -/
def rangeMap (s : State) (c h o n : Nat) (wr : Bool) : Option (BitVec 8) := rangeMapOf s c (issuerOf s c).launch h o n wr

/-- The valid route entry of lowest number that holds `n` bytes at a bus address (R59). -/
def routeFor (s : State) (part a n : Nat) : Option Route :=
  ((List.range 16).map (fun i => s.routes.get .zero (part * 16 + i))).find?
    (fun r => r.valid && decide (r.base.toNat ≤ a) && decide (a + n ≤ r.limit.toNat + 1))

/-- The dereference checks of R207 in their order, for an access of `n` bytes by a core on behalf of an issuing task. -/
def accessAs (s : State) (c : Nat) (who : Issuer) (p : Word) (n align : Nat) (win : Windows) (wr : Bool) : Except Stop Loc :=
  let x := p.toNat
  let w := bitsOf x 60 4
  let al : Except Stop Unit := need (bitsOf x 0 40 % align == 0) codeAlign p
  if bitAt x 63 then do
    need win.glob codeSpace p
    al
    match rangeMapOf s c who.launch (bitsOf x 40 23) (bitsOf x 0 40) n wr with
    | some code => fltAt code p
    | none => .ok (.glob (bitsOf x 40 23) (bitsOf x 0 40))
  else match w with
  | 0 => do
    need win.priv codeSpace p
    need (bitsOf x 51 9 == c && bitsOf x 46 5 == who.slot) codeForeign p
    need (decide (bitsOf x 0 46 + n ≤ 0x4000)) codeBounds p
    al
    .ok (.flat (spadKey c (privOff who.slot + bitsOf x 0 46)))
  | 1 => do
    need win.spad codeSpace p
    need (bitsOf x 51 9 == c) codeForeign p
    need (bitsOf x 22 29 == 0 && decide (bitsOf x 0 22 + n ≤ 0x380000)) codeBounds p
    al
    need (!owned s c (bitsOf x 0 22) n (coreCic c)) codeBuf p
    .ok (.flat (spadKey c (bitsOf x 0 22)))
  | 2 => do
    need win.clus codeSpace p
    need (bitsOf x 24 36 == 0 && decide (bitsOf x 0 22 + n ≤ 0x380000)) codeBounds p
    al
    let t := clusterCore (coreCluster c) (bitsOf x 22 2)
    need (!owned s t (bitsOf x 0 22) n (coreCic c)) codeBuf p
    .ok (.flat (spadKey t (bitsOf x 0 22)))
  | 4 => do
    need win.host codeSpace p
    al
    match routeFor s who.part (bitsOf x 0 60) n with
    | none => fltAt codeTranslation p
    | some r => if wr && (!r.write || r.port) then fltAt codeTranslation p else .ok (.host (bitsOf x 0 60) r.port)
  | _ => fltAt codeSpace p

/-- The dereference checks for an access of `n` bytes by the task the core runs. -/
def access (s : State) (c : Nat) (p : Word) (n align : Nat) (win : Windows) (wr : Bool) : Except Stop Loc :=
  accessAs s c (issuerOf s c) p n align win wr

/-- The window number of a pointer, 8 for every global pointer. -/
def winOf (p : Word) : Nat := if bitAt p.toNat 63 then 8 else bitsOf p.toNat 60 4
/-- Whether a pointer names global space or the host window, whose stores are held (R223). -/
def isHeldWin (p : Word) : Bool := winOf p == 8 || winOf p == 4

/-- The scratchpad bank and core a local place lies in, if it does (R26). -/
def bankOf (l : Loc) : Option (Nat × Nat) :=
  match l with
  | .flat k => if 2 ^ 60 ≤ k ∧ k < 2 * 2 ^ 60 then some ((k - 2 ^ 60) / 2 ^ 51, k % 2 ^ 51 / 2 ^ 17) else none
  | _ => none

/-- The first bank among those of `n` bytes at a place that is not READY (R26). -/
def unready (s : State) (l : Loc) (n : Nat) : Option (Nat × Nat) :=
  match l with
  | .flat k => ([k, k + (n - 1)].filterMap (fun a => bankOf (.flat a))).find? (fun x => !(coreAt s x.1).ready.getLsbD x.2)
  | _ => none

/-- Whether every scratchpad bank that `n` bytes at a place lie in serves accesses. An access to one that does not clears its GATE
bit, which begins its wake, and waits: the core's own access as a pause of code 2 (R27). -/
def bankReady (s : State) (l : Loc) (n : Nat) : Bool := (unready s l n).isNone

/-- A pause for a bank that is gated or waking, code 2. -/
def pauseWake {α : Type} (s : State) (l : Loc) (n : Nat) : Except Stop α := .error (.pause 2 (unready s l n))

/-- Record a detected error of a core, if it has none yet, with the bundle it belongs to (R251) and the pointer of the
access that met it, or zero. -/
def detectPtr (p pc : Word) (c : Nat) (code : BitVec 8) (s : State) : State :=
  updBody s c (fun b => if b.task.isNone then b else { b with detected := some (b.detected.getD (code, pc, p)) })

/-- Record a detected error that is of no access of a pointer. -/
def detectAt (pc : Word) (c : Nat) (code : BitVec 8) (s : State) : State := detectPtr 0 pc c code s

/-- Record a detected error of the bundle at a core's PC. -/
def detect (c : Nat) (code : BitVec 8) (s : State) : State := detectAt (coreAt s c).b.r.pc c code s

/-- A 16-bit field of a register counted up by one, saturating. -/
def countField (x : Word) (lo : Nat) : Word := BitVec.ofNat 64 (withBits x.toNat lo 16 (Nat.min 65535 (fieldW x lo 16 + 1)))

/-- Add to COREERR's SPCE (field 0), SPUE (1) or ROLLS (2), saturating (R257). -/
def countErr (c field : Nat) (s : State) : State :=
  updCore s c (fun k => { k with coreerr := countField k.coreerr (16 * field) })

/-- ERRINJ of a core as a read of `n` bytes at a scratchpad place by a requester of a class meets it (R458, R459): one
inverted bit is corrected and counted; two are an uncorrectable read, which poisons the sector and is a detected error
of the reading core, or in a lockstep group of the core whose scratchpad it is (R460). -/
def injected (src reader : Nat) (pc : Word) (l : Loc) (n : Nat) (s : State) : State :=
  match bankOf l with
  | none => s
  | some (q, _) =>
    let e := s.mod.errinj.get 0 q
    let off := fieldW e 35 19 * 8
    let base := locKey s l 0 - spadKey q 0
    if bitAt e.toNat 0 && (fieldW e 5 3 == 0 || fieldW e 5 3 == src) && bankReady s l n && decide (base < off + 8) && decide (off < base + n) then
      let s := { s with mod := { s.mod with errinj := s.mod.errinj.set 0 q (BitVec.ofNat 64 (withBits (withBits e.toNat 0 1 0) 2 1 1)) } }
      if bitAt e.toNat 1 && fieldW e 8 6 != fieldW e 14 6 then
        let w := leNat (s.mem.bytes (spadKey q off) 8)
        let w := Nat.xor w (2 ^ fieldW e 8 6 + 2 ^ fieldW e 14 6)
        let s := { s with mem := s.mem.setBytes (spadKey q off) (leBytes w 8), poison := s.poison.set false (spadKey q off / 32) true }
        detectAt pc (if isGroup s reader then q else reader) codeDataUe (countErr q 1 s)
      else countErr q 0 s
    else s

/-- Begin the wake of the first bank of a place that is not READY, if it is gated (R27). -/
def wakeBank (s : State) (l : Loc) (n : Nat) : State :=
  match unready s l n with
  | some (c, b) => updCore s c (fun k => { k with gate := BitVec.ofNat 32 (withBits k.gate.toNat b 1 0) })
  | none => s

/-- Whether a die is fenced and its tensors are not yet at an adopter (R37, R260). -/
def dieGone (s : State) (d : Nat) : Bool := s.mod.db.pendLoss.contains d

/-- Whether a place lies on such a die. -/
def locGone (s : State) (l : Loc) : Bool :=
  match l with
  | .glob h _ => dieGone s (handleDie h)
  | _ => false

/-- The pointer no window accepts (R348). -/
def ptrInvalid : Word := 0x3000000000000000

/-! ### The commit queue (R223) and the hold queue (R164) -/

/-- Append an entry to the commit queue, pausing with code 6 while it holds 256 entries. -/
def commit (c : Nat) (o s : State) (body : CBody) : Except Stop State :=
  if (coreAt s c).b.commitQ.length ≥ 256 then pauseFor 6
  else .ok (updBody s c (fun b => { b with commitQ := b.commitQ ++ [{ body := body, pc := (coreAt o c).b.r.pc, vcc := (coreAt o c).b.r.vcc }] }))

/-- Append an entry to the provisional hold queue, pausing with code 7 while it holds 64 entries. -/
def holdIn (c : Nat) (o s : State) (body : CBody) : Except Stop State :=
  if (coreAt s c).b.holdQ.length ≥ 64 then pauseFor 7
  else .ok (updBody s c (fun b => { b with holdQ := b.holdQ ++ [{ body := body, pc := (coreAt o c).b.r.pc, vcc := (coreAt o c).b.r.vcc }] }))

/-! ### Code addresses (R326) -/

/-- The running image of a core's task. -/
def imageOf (s : State) (c : Nat) : Option ImageInfo := match taskOf s c with | some t => t.image | none => none

/-- Whether a word is a code address of the running image. -/
def isCodeAddr (s : State) (c : Nat) (t : Word) : Bool :=
  match imageOf s c with
  | some im => bitAt t.toNat 63 && fieldW t 40 23 == im.handle && decide (im.codeOff ≤ fieldW t 0 40) &&
      decide (fieldW t 0 40 < im.codeOff + im.codeLen) && fieldW t 0 2 == 0
  | none => false

/-- The code address a word displacement names (R348). -/
def codeaddr (s : State) (c : Nat) (d : Word) : Word := (coreAt s c).b.r.pc + 4 * d

/-- The bundle word at a code address. -/
def codeWord (s : State) (c : Nat) (t : Word) : Nat :=
  match imageOf s c with
  | some im => leNat (s.mem.bytes (storeKey c (fieldW t 0 40 - im.codeOff)) 4)
  | none => 0

/-- The length in bytes of the bundle whose header is a word: four bytes and four for each slot present (R321). -/
def bundleLen (hdr : Nat) : Nat := 4 * (1 + popN hdr 9)

/-- The code address after the bundle at an address (R348). -/
def after (s : State) (c : Nat) (t : Word) : Word := t + BitVec.ofNat 64 (bundleLen (codeWord s c t))

/-- The code address after the issuing bundle (R348). -/
def nextpc (s : State) (c : Nat) : Word := (coreAt s c).b.r.pc + BitVec.ofNat 64 (coreAt s c).b.hdrLen

/-- A taken transfer: the checks of R326, and the target. -/
def transfer (c : Nat) (o s : State) (t : Word) : Except Stop State :=
  if isCodeAddr o c t then .ok (updBody s c (fun b => { b with taken := some t })) else fltAt codeIllegal 0

/-- An entry of the constant section (R327). -/
def constEntry (s : State) (c i : Nat) : Except Stop Nat :=
  match imageOf s c with
  | some im => if i < im.constLen / 16 then .ok (leNat (s.mem.bytes (storeKey c (0x30000 + 16 * i)) 16)) else flt codeBounds
  | none => flt codeBounds

/-! ### Taking a precise fault and returning from it (R244-R246, R283) -/

/-- Whether a destination is the owner of a buffer. -/
def isBuf : Dst → Bool
  | .buf _ => true
  | _ => false

/-- Whether a landing request has its data and was due before a cycle. -/
def landsBefore (f : Nat) (x : Landing) : Bool := decide (x.due < f) && x.data.isSome

/-- Divert every result due at or after the boundary into shadow latches with its remaining offset, and record the
landing requests' offsets the same way (R283). A result or landed data due before it, in the idle span that the boundary ends, is written
before the next bundle reads (R274, R278). -/
def latch (b : Body) : Body :=
  { b with
    latched := (b.r.res.filter (fun x => decide (b.r.vcc ≤ x.due) && !isBuf x.dst)).map (fun x => { x with due := x.due - b.r.vcc }),
    latchedL := (b.r.lands.filter (fun x => !landsBefore b.r.vcc x)).map (fun x => { x with due := x.due - b.r.vcc }),
    r := { b.r with res := b.r.res.filter (fun x => decide (x.due < b.r.vcc) || isBuf x.dst), lands := b.r.lands.filter (landsBefore b.r.vcc) } }

/-- Re-deliver latched results and landings at their offsets from the cycle of the bundle that resumes (R246, R283). -/
def unlatch (b : Body) (f : Nat) : Body :=
  { b with
    r := { b.r with
      res := b.r.res ++ b.latched.map (fun x => { x with due := x.due + f }),
      lands := b.r.lands ++ b.latchedL.map (fun x => { x with due := x.due + f }) },
    latched := [], latchedL := [] }

/-- Write the fault registers (R245). -/
def recordFault (b : Body) (code : BitVec 8) (slot : Nat) (tok : Option Nat) (cause : BitVec 8) (pc addr : Word) (vcc : Nat) : Body :=
  { b with
    fltstat := BitVec.ofNat 64 (code.toNat + slot % 16 * 2 ^ 8 + (match tok with | some t => t % 64 * 2 ^ 12 + 2 ^ 18 | none => 0) + cause.toNat * 2 ^ 19),
    fltpc := pc, fltvcc := BitVec.ofNat 48 vcc, fltaddr := addr }

/-- What ends a task: why, for its launch (R97, R246). -/
structure TaskEnd where
  core : Nat
  code : BitVec 8
  deriving DecidableEq, Repr

/-- Whether a code never enters a handler (R246). -/
def noHandler (code : BitVec 8) : Bool := code == codeDeadline || code == codeSegDeadline || code == codeDieLost || code == codeRetired

/-- Enter the trap handler on one core: the fault registers are written, results in flight are latched, and issue goes on
at TRAPVEC three cycles after the faulting bundle's VCC (R246, R468). -/
def enterHandler (vec : Word) (code : BitVec 8) (slot : Nat) (tok : Option Nat) (cause : BitVec 8) (pc addr : Word) (vcc : Nat) (resume : Word) (b : Body) : Body :=
  let b := recordFault (latch b) code slot tok cause pc addr vcc
  { b with inHandler := true, resumePc := resume, pause := none, r := { b.r with pc := vec, vcc := b.r.vcc + 3 } }

/-- Return from the handler on one core: issue resumes at the saved bundle, or after it, three cycles and the idle count
later, and the latched results are re-delivered from that cycle (R246, R357). -/
def leaveHandler (target : Word) (b : Body) : Body :=
  let f := b.r.vcc + 3 + b.hdrIdle
  { unlatch b f with inHandler := false, taken := some target }

end Sys2Proof.Machine
end

