-- ==== Sys2Proof/Machine/Operands.lean ====
section
/-!
DEFINITION. Sys2Proof/Machine/Operands.lean: the operand forms of the slot instructions: masked elements of vectors
(R281, R390, R391), and element-wise application of an operation.
-/

namespace Sys2Proof.Machine

/-- Whether element `i` of width `w` is active under mask field `k` (R391). -/
def active (o : State) (c : Nat) (k : BitVec 4) (w i : Nat) : Bool := k == 0 || maskElem (kReg o c k.toNat) w i

/-- How many elements of a type a vector holds. -/
def lanes (e : Fmt) : Nat := if e.width = 0 then 0 else 1024 / e.width

/-- Element `i` of a v register under an element type. -/
def vElem (o : State) (c n : Nat) (e : Fmt) (i : Nat) : Nat := elem (vReg o c n).toNat e.width i

/-- The value of an element under an integer type. -/
def eVal (e : Fmt) (x : Nat) : Int := ival e.isSigned e.width x

/-- An element extended to 64 bits as VEXTR extends it (R396). -/
def extendE (e : Fmt) (x : Nat) : Word :=
  if e.isSigned then BitVec.ofInt 64 (signed e.width x) else BitVec.ofNat 64 (x % 2 ^ e.width)

/-- A masked vector write: each active element takes the result given for it, each inactive one the element of v[D]
before the bundle (R391); the sticky bits of the active elements are set. -/
def mapLanes (c : Nat) (o s : State) (d : Nat) (k : BitVec 4) (e : Fmt) (lat : Nat) (f : Nat → Rnd) : State :=
  let w := e.width
  let rs := (List.range (lanes e)).map (fun i => if active o c k w i then f i else { bits := vElem o c d e i, flags := 0 })
  setFlags c (rs.foldl (fun a r => fOr a r.flags) 0) (resultV c d (ofElems w (rs.map (·.bits))) lat s)

/-- A masked vector write of exact results, which set no flag. -/
def mapExact (c : Nat) (o s : State) (d : Nat) (k : BitVec 4) (e : Fmt) (lat : Nat) (f : Nat → Nat) : State :=
  mapLanes c o s d k e lat (fun i => { bits := f i, flags := 0 })

/-- The mask whose element `i` holds `f i` in each of its byte bits (R395). -/
def maskOf (w n : Nat) (f : Nat → Bool) : Mask :=
  BitVec.ofNat 128 (packElems (w / 8) ((List.range n).map (fun i => if f i then 2 ^ (w / 8) - 1 else 0)))

end Sys2Proof.Machine
end

