-- ==== Sys2Proof/Machine/Vector.lean ====
section
/-!
DEFINITION. Sys2Proof/Machine/Vector.lean: the effects of the V0 and V1 instructions (R390-R411).
-/

namespace Sys2Proof.Machine

/-- An element-wise integer operation on v[A] and v[B] (R394). -/
def effVInt (f : Fmt → Nat → Nat → Nat) (d a b : BitVec 6) (k : BitVec 4) (e : Fmt) : Eff := fun c o s =>
  .ok (mapExact c o s d.toNat k e 2 (fun i => f e (vElem o c a.toNat e i) (vElem o c b.toNat e i)))

def vAdd (e : Fmt) (x y : Nat) : Nat := (x + y) % 2 ^ e.width
def vSub (e : Fmt) (x y : Nat) : Nat := wrap e.width ((x : Int) - y)
def vMul (e : Fmt) (x y : Nat) : Nat := x * y % 2 ^ e.width
def vMulh (e : Fmt) (x y : Nat) : Nat := wrap (2 * e.width) (eVal e x * eVal e y) / 2 ^ e.width
def vMin (e : Fmt) (x y : Nat) : Nat := if eVal e y < eVal e x then y else x
def vMax (e : Fmt) (x y : Nat) : Nat := if eVal e x < eVal e y then y else x
def vAnd (_ : Fmt) (x y : Nat) : Nat := Nat.land x y
def vOr (_ : Fmt) (x y : Nat) : Nat := Nat.lor x y
def vXor (_ : Fmt) (x y : Nat) : Nat := Nat.xor x y
def vAndn (e : Fmt) (x y : Nat) : Nat := Nat.land x (2 ^ e.width - 1 - y % 2 ^ e.width)
def vShl (e : Fmt) (x y : Nat) : Nat := x * 2 ^ (y % e.width) % 2 ^ e.width
def vShr (e : Fmt) (x y : Nat) : Nat := x / 2 ^ (y % e.width)
def vSar (e : Fmt) (x y : Nat) : Nat := wrap e.width (signed e.width x / 2 ^ (y % e.width))
def vAdds (e : Fmt) (x y : Nat) : Nat := wrap e.width (satI (eVal e x + eVal e y) (ilo e.isSigned e.width) (ihi e.isSigned e.width))
def vSubs (e : Fmt) (x y : Nat) : Nat := wrap e.width (satI (eVal e x - eVal e y) (ilo e.isSigned e.width) (ihi e.isSigned e.width))

/-- VABS (R394): the most negative value stays itself. -/
def effVabs (d a : BitVec 6) (k : BitVec 4) (e : Fmt) : Eff := fun c o s =>
  .ok (mapExact c o s d.toNat k e 2 (fun i => wrap e.width (signed e.width (vElem o c a.toNat e i)).natAbs))

/-- A comparison's relation and the sticky bit it sets (R395): integer types by ET, floating ones as IEEE values. -/
def vCmp (rel : Int → Bool) (ne ordered : Bool) (e : Fmt) (x y : Nat) : Bool × Nat :=
  if e.isInt then (rel (eVal e x - eVal e y), 0)
  else
    let a := fdec (ffOf e) x
    let b := fdec (ffOf e) y
    if isNaN a || isNaN b then (ne, if isSig a || isSig b || ordered then fNV else 0) else (rel (fcmp a b), 0)

def relEq (d : Int) : Bool := d == 0
def relNe (d : Int) : Bool := d != 0
def relLt (d : Int) : Bool := decide (d < 0)
def relLe (d : Int) : Bool := decide (d ≤ 0)

/-- A comparison into a mask register: an inactive element's bits are written 0 (R391, R395). -/
def effVcmp (rel : Int → Bool) (ne ordered : Bool) (d : BitVec 4) (a b : BitVec 6) (k : BitVec 4) (e : Fmt) : Eff := fun c o s =>
  let w := e.width
  let rs := (List.range (lanes e)).map (fun i =>
    if active o c k w i then vCmp rel ne ordered e (vElem o c a.toNat e i) (vElem o c b.toNat e i) else (false, 0))
  .ok (setFlags c (rs.foldl (fun f r => fOr f r.2) 0)
    (resultK c d.toNat (maskOf w (lanes e) (fun i => (nthD rs i (false, 0)).1)) 2 s))

/-- VSEL: K is the selector and every element is written (R396). -/
def effVsel (d a b : BitVec 6) (k : BitVec 4) (e : Fmt) : Eff := fun c o s =>
  .ok (resultV c d.toNat (ofElems e.width ((List.range (lanes e)).map (fun i =>
    if maskElem (kReg o c k.toNat) e.width i then vElem o c a.toNat e i else vElem o c b.toNat e i))) 2 s)

/-- VBCAST (R396). -/
def effVbcast (d a : BitVec 6) (k : BitVec 4) (e : Fmt) : Eff := fun c o s =>
  .ok (mapExact c o s d.toNat k e 2 (fun _ => (sReg o c a.toNat).toNat % 2 ^ e.width))

/-- VEXTR (R396). -/
def effVextr (d a b : BitVec 6) (e : Fmt) : Eff := fun c o s =>
  let j := (sReg o c b.toNat).toNat
  .ok (resultS c d.toNat (if j < lanes e then extendE e (vElem o c a.toNat e j) else 0) 2 s)

/-- VINSR (R396). -/
def effVinsr (d a b : BitVec 6) (e : Fmt) : Eff := fun c o s =>
  let j := (sReg o c b.toNat).toNat
  .ok (resultV c d.toNat (ofElems e.width ((List.range (lanes e)).map (fun i =>
    if i = j then (sReg o c a.toNat).toNat % 2 ^ e.width else vElem o c d.toNat e i))) 2 s)

/-- VCLMUL.LO and VCLMUL.HI (R399). -/
def effVclmul (hi : Bool) (d a b : BitVec 6) (k : BitVec 4) (e : Fmt) : Eff := fun c o s =>
  .ok (mapExact c o s d.toNat k e 3 (fun i =>
    let p := clmulN (vElem o c a.toNat e i) (vElem o c b.toNat e i) 64
    if hi then p / 2 ^ 64 else p % 2 ^ 64))

/-- The operations of VSCAN and VREDUCE (R400). -/
inductive ScanOp where
  | add | min | max | xor_ | and_ | or_
  deriving DecidableEq, Repr

/-- The identity of an operation (R400). -/
def scanId (p : ScanOp) (e : Fmt) : Nat :=
  let f := ffOf e
  match p with
  | .add => if e.isInt then 0 else f.sgn true 0
  | .min => if e.isInt then wrap e.width (ihi e.isSigned e.width) else f.infM
  | .max => if e.isInt then wrap e.width (ilo e.isSigned e.width) else f.sgn true f.infM
  | .and_ => 2 ^ e.width - 1
  | _ => 0

/-- One step of a scan (R400). -/
def scanStep (p : ScanOp) (e : Fmt) (x y : Nat) : Rnd :=
  if e.isInt then
    { bits := match p with
        | .add => vAdd e x y | .min => vMin e x y | .max => vMax e x y
        | .xor_ => Nat.xor x y | .and_ => Nat.land x y | .or_ => Nat.lor x y,
      flags := 0 }
  else
    match p with
    | .add => fadd (ffOf e) 0 (fdec (ffOf e) x) (fdec (ffOf e) y)
    | .min => fminmax (ffOf e) false x y
    | .max => fminmax (ffOf e) true x y
    | _ => { bits := x, flags := 0 }

/-- The running values of a scan, left to right, each step rounded (R400). -/
def scanRun (p : ScanOp) (e : Fmt) : Nat → List Nat → List Rnd
  | _, [] => []
  | acc, x :: t => let r := scanStep p e acc x; r :: scanRun p e r.bits t

/-- The values of R400 over the elements of v[A]: element 0 as it stands, then one step for each further element. -/
def scanVals (c : Nat) (o : State) (p : ScanOp) (a : BitVec 6) (k : BitVec 4) (e : Fmt) : List Rnd :=
  match (List.range (lanes e)).map (fun i => if active o c k e.width i then vElem o c a.toNat e i else scanId p e) with
  | [] => []
  | x :: t => { bits := x, flags := 0 } :: scanRun p e x t

/-- VSCAN (R400). An inactive element keeps its value; its step takes the identity and sets no flag. -/
def effVscan (p : ScanOp) (d a : BitVec 6) (k : BitVec 4) (e : Fmt) : Eff := fun c o s =>
  let rs := scanVals c o p a k e
  .ok (mapLanes c o s d.toNat k e 4 (fun i => nthD rs i { bits := 0, flags := 0 }))

/-- VREDUCE (R400). -/
def effVreduce (p : ScanOp) (d a : BitVec 6) (k : BitVec 4) (e : Fmt) : Eff := fun c o s =>
  let rs := scanVals c o p a k e
  .ok (setFlags c (((List.range (lanes e)).filter (active o c k e.width)).foldl (fun f i => fOr f (nthD rs i { bits := 0, flags := 0 }).flags) 0)
    (resultS c d.toNat (extendE e (nthD rs (lanes e - 1) { bits := 0, flags := 0 }).bits) 4 s))

/-- VPERM (R401). -/
def effVperm (d a b : BitVec 6) (k : BitVec 4) (e : Fmt) : Eff := fun c o s =>
  .ok (mapExact c o s d.toNat k e 3 (fun i =>
    let x := vElem o c b.toNat e i
    if x < lanes e then vElem o c a.toNat e x else 0))

/-- VCOMPRESS (R402). -/
def effVcompress (d a : BitVec 6) (k : BitVec 4) (e : Fmt) : Eff := fun c o s =>
  .ok (resultV c d.toNat (ofElems e.width
    (((List.range (lanes e)).filter (active o c k e.width)).map (vElem o c a.toNat e))) 3 s)

/-- The elements of an expansion: the next source element where the selector is set, zero elsewhere (R402). -/
def expandL (sel : Nat → Bool) : List Nat → List Nat → List Nat
  | [], _ => []
  | i :: t, src => if sel i then (match src with | x :: r => x :: expandL sel t r | [] => 0 :: expandL sel t []) else 0 :: expandL sel t src

/-- VEXPAND (R402). -/
def effVexpand (d a : BitVec 6) (k : BitVec 4) (e : Fmt) : Eff := fun c o s =>
  .ok (resultV c d.toNat (ofElems e.width
    (expandL (active o c k e.width) (List.range (lanes e)) (elems (vReg o c a.toNat) e.width))) 3 s)

/-- The stable merge of two lists of lanes, with the source of each output (R404). -/
def mergeL (e : Fmt) : Nat → List Nat → List Nat → List (Nat × Bool)
  | 0, _, _ => []
  | n + 1, x :: xs, [] => (x, false) :: mergeL e n xs []
  | n + 1, [], y :: ys => (y, true) :: mergeL e n [] ys
  | n + 1, x :: xs, y :: ys =>
    if eVal e y < eVal e x then (y, true) :: mergeL e n (x :: xs) ys else (x, false) :: mergeL e n xs (y :: ys)
  | _ + 1, [], [] => []

/-- VMERGE.LO and VMERGE.HI (R403, R404). -/
def effVmerge (hi : Bool) (d a b : BitVec 6) (m : BitVec 2) (e : Fmt) : Eff := fun c o s =>
  let out := ((mergeL e 32 (elems (vReg o c a.toNat) 64) (elems (vReg o c b.toNat) 64)).drop (if hi then 16 else 0)).take 16
  let src := packElems 1 (out.map (fun x => if x.2 then 1 else 0))
  let nb := popN src 16
  let g := mgReg o c m.toNat
  let g' := src + (if hi then 2 ^ 16 else 0) + (fieldW g 17 23 + (16 - nb)) % 2 ^ 23 * 2 ^ 17 + (fieldW g 40 23 + nb) % 2 ^ 23 * 2 ^ 40
  .ok (result c (.mg m.toNat) (BitVec.ofNat 1024 g') 3 (resultV c d.toNat (ofElems 64 (out.map (·.1))) 3 s))

/-- The lanes VMERGEKV selects (R405): a source index of 16 or more gives zero. -/
def mergekvL (src : Nat) (a b : List Nat) : Nat → Nat → Nat → Nat → List Nat
  | 0, _, _, _ => []
  | n + 1, t, ia, ib =>
    if bitAt src t then nthD b ib 0 :: mergekvL src a b n (t + 1) ia (ib + 1)
    else nthD a ia 0 :: mergekvL src a b n (t + 1) (ia + 1) ib

/-- VMERGEKV (R405). -/
def effVmergekv (d a b : BitVec 6) (m : BitVec 2) (_e : Fmt) : Eff := fun c o s =>
  let g := mgReg o c m.toNat
  let src := fieldW g 0 16
  let p := popN src 16
  let hi := bitAt g.toNat 16
  .ok (resultV c d.toNat (ofElems 64 (mergekvL src (elems (vReg o c a.toNat) 64) (elems (vReg o c b.toNat) 64) 16 0
    (if hi then p else 0) (if hi then 16 - p else 0))) 3 s)

/-- A floating operation on each active element of v[A] and v[B] (R406). -/
def effVFlt (f : FFmt → FV → FV → Rnd) (d a b : BitVec 6) (k : BitVec 4) (e : Fmt) : Eff := fun c o s =>
  .ok (mapLanes c o s d.toNat k e 4 (fun i =>
    f (ffOf e) (fdec (ffOf e) (vElem o c a.toNat e i)) (fdec (ffOf e) (vElem o c b.toNat e i))))

def vFadd (f : FFmt) (a b : FV) : Rnd := fadd f 0 a b
def vFsub (f : FFmt) (a b : FV) : Rnd := fadd f 0 a (fneg b)
def vFmul (f : FFmt) (a b : FV) : Rnd := fmul f 0 a b

/-- VFMA: a * b + d with one rounding (R406). -/
def effVfma (d a b : BitVec 6) (k : BitVec 4) (e : Fmt) : Eff := fun c o s =>
  .ok (mapLanes c o s d.toNat k e 4 (fun i =>
    ffma (ffOf e) 0 (fdec (ffOf e) (vElem o c a.toNat e i)) (fdec (ffOf e) (vElem o c b.toNat e i)) (fdec (ffOf e) (vElem o c d.toNat e i))))

/-- VFMIN and VFMAX (R407). -/
def effVfminmax (mx : Bool) (d a b : BitVec 6) (k : BitVec 4) (e : Fmt) : Eff := fun c o s =>
  .ok (mapLanes c o s d.toNat k e 4 (fun i => fminmax (ffOf e) mx (vElem o c a.toNat e i) (vElem o c b.toNat e i)))

/-- VCVT (R408, R409): the part of the wider side is converted and the elements of v[D] outside it keep their values. -/
def effVcvt (d a : BitVec 6) (t : Fmt) (r : BitVec 2) (p : BitVec 3) (sat : BitVec 1) (e : Fmt) : Eff := fun c o s =>
  let m := 1024 / Nat.max e.width t.width
  let conv := fun i => convert (vElem o c a.toNat e i) e t r.toNat (sat == 1)
  let rs := (List.range m).map (fun i => conv (if t.width ≤ e.width then i else p.toNat * m + i))
  let out := (List.range (1024 / t.width)).map (fun j =>
    if t.width ≤ e.width then
      (if p.toNat * m ≤ j ∧ j < p.toNat * m + m then (nthD rs (j - p.toNat * m) { bits := 0, flags := 0 }).bits else vElem o c d.toNat t j)
    else (nthD rs j { bits := 0, flags := 0 }).bits)
  .ok (setFlags c (rs.foldl (fun f x => fOr f x.flags) 0) (resultV c d.toNat (ofElems t.width out) 3 s))

/-- The FP32 bits of the greatest magnitude among the active elements of block `j` (R410). -/
def blockAmax (c : Nat) (o : State) (a : BitVec 6) (k : BitVec 4) (e : Fmt) (j : Nat) : Nat :=
  let f := ffOf e
  let xs := ((List.range 32).filter (fun i => active o c k e.width (32 * j + i))).map (fun i => vElem o c a.toNat e (32 * j + i))
  if xs.any (fun x => isNaN (fdec f x)) then (ffOf .f32).nan
  else (fto (ffOf .f32) 0 (fdec f (xs.foldl (fun m x => Nat.max m (x % 2 ^ (f.eb + f.fb))) 0))).bits

/-- VAMAX (R410): the magnitude of a finite or infinite value is ordered as its bits are. -/
def effVamax (d a p : BitVec 6) (k : BitVec 4) (e : Fmt) : Eff := fun c o s =>
  .ok (resultV c d.toNat (ofElems 32 ((List.range 32).map (fun i =>
    if p.toNat ≤ i ∧ i < p.toNat + e.blocks then blockAmax c o a k e (i - p.toNat) else elem (vReg o c d.toNat).toNat 32 i))) 3 s)

/-- The exponent a code of a block format stands for, of one step of the magnitude (R304, R305). -/
def stepExp (bq8 : Bool) (code : Nat) : Int := (code : Int) - (if bq8 then 132 else 128)

/-- Pack an exact value, given by its sign and magnitude m * 2^e, under a block's codes (R306): the element and the
sticky bits. -/
def packFin (bq8 : Bool) (e0 e1 : Nat) (neg : Bool) (m : Nat) (e : Int) : Nat × Nat :=
  let mmax := if bq8 then 63 else 3
  let mag := fun (code : Nat) (first : Bool) =>
    if code = 0 then (some 0, 0)
    else
      let (q, _) := roundMag 0 false m (e - stepExp bq8 code) false
      if mmax < q then (if first then (some mmax, fOF) else (none, 0)) else (some q, 0)
  let (m0, of0) := mag e0 true
  let (m1, _) := mag e1 false
  -- the errors, scaled to a common power of two
  let base : Int := min e (min (stepExp bq8 e0) (stepExp bq8 e1))
  let X := m * 2 ^ (e - base).toNat
  let val := fun (code q : Nat) => if code = 0 then 0 else q * 2 ^ (stepExp bq8 code - base).toNat
  let err := fun (code q : Nat) => ((X : Int) - val code q).natAbs
  let q0 := m0.getD 0
  let sel1 : Bool := match m1 with | none => false | some q1 => decide (err e1 q1 < err e0 q0)
  let q := if sel1 then m1.getD 0 else q0
  let code := if sel1 then e1 else e0
  let sgnBit := if q ≠ 0 ∧ neg then 1 else 0
  let el := if bq8 then (if sel1 then 128 else 0) + 64 * sgnBit + q else (if sel1 then 8 else 0) + 4 * sgnBit + q
  (el, of0 + (if err code q = 0 then 0 else fNX))

/-- Pack a value under a block's codes (R306). -/
def packVal (bq8 : Bool) (e0 e1 : Nat) (x : FV) : Nat × Nat :=
  if e0 = 255 ∨ e1 = 255 then (0, 0)
  else match x with
  | .nan _ => (0, fNV)
  | .inf _ => (0, fNV)
  | .fin n m e => packFin bq8 e0 e1 n m e

/-- The value of a block element under its codes (R304, R305). -/
def blockVal (bq8 : Bool) (e0 e1 x : Nat) : FV :=
  if e0 = 255 ∨ e1 = 255 then .nan false
  else
    let sel := if bq8 then bitAt x 7 else bitAt x 3
    let neg := if bq8 then bitAt x 6 else bitAt x 2
    let m := if bq8 then x % 64 else x % 4
    let code := if sel then e1 else e0
    if code = 0 then .fin neg 0 0 else .fin neg m (stepExp bq8 code)

/-- The codes of a block of a given amax (R307), and whether one was raised to 1. The amax is m * 2^e. -/
def scaleFin (bq8 : Bool) (m : Nat) (e : Int) : Nat × Nat × Bool :=
  if m = 0 then (1, 1, false)
  else
    let L : Int := (topBit m : Int) + e
    -- a >= 63.5 * 2^(L-5) or 3.5 * 2^(L-1): compare at a common power of two
    let (t, te) : Nat × Int := if bq8 then (127, L - 6) else (7, L - 2)
    let base : Int := min e te
    let ge := decide (t * 2 ^ (te - base).toNat ≤ m * 2 ^ (e - base).toNat)
    let e0 : Int := L + 127 + (if ge then 1 else 0)
    let e0 := if 254 < e0 then 254 else e0
    let e1 := e0 - 8
    ((if e0 < 1 then 1 else e0.toNat), (if e1 < 1 then 1 else e1.toNat), decide (e0 < 1) || decide (e1 < 1))

/-- The codes of a block whose amax is a value (R307). -/
def scaleVal (bq8 : Bool) (x : FV) : Nat × Nat × Bool :=
  match x with
  | .nan _ => (255, 255, false)
  | .inf _ => (255, 255, false)
  | .fin _ m e => scaleFin bq8 m e

/-- The code bytes of a block of a scale register (R415). -/
def scCode (o : State) (c sc b : Nat) : Nat := elem (scReg o c sc).toNat 8 b

/-- VBQPACK (R411). -/
def effVbqpack (d a : BitVec 6) (sc : BitVec 3) (blk : BitVec 6) (e : Fmt) : Eff := fun c o s =>
  let bq8 := e == .bq8
  let e0 := scCode o c sc.toNat (2 * blk.toNat)
  let e1 := scCode o c sc.toNat (2 * blk.toNat + 1)
  let ps := (List.range 32).map (fun i => packVal bq8 e0 e1 (fdec (ffOf .f32) (elem (vReg o c a.toNat).toNat 32 i)))
  let bw := if bq8 then 256 else 128
  let pos := if bq8 then blk.toNat % 4 else blk.toNat % 8
  let block := packElems (if bq8 then 8 else 4) (ps.map (·.1))
  .ok (setFlags c (ps.foldl (fun f x => fOr f x.2) 0)
    (resultV c d.toNat (BitVec.ofNat 1024 (withBits (vReg o c d.toNat).toNat (bw * pos) bw block)) 4 s))

/-- VBQUNPK (R411). -/
def effVbqunpk (d a : BitVec 6) (sc : BitVec 3) (blk : BitVec 6) (e : Fmt) : Eff := fun c o s =>
  let bq8 := e == .bq8
  let e0 := scCode o c sc.toNat (2 * blk.toNat)
  let e1 := scCode o c sc.toNat (2 * blk.toNat + 1)
  let bw := if bq8 then 256 else 128
  let pos := if bq8 then blk.toNat % 4 else blk.toNat % 8
  let block := bitsOf (vReg o c a.toNat).toNat (bw * pos) bw
  .ok (resultV c d.toNat (ofElems 32 ((List.range 32).map (fun i =>
    (fto (ffOf .f32) 0 (blockVal bq8 e0 e1 (elem block (if bq8 then 8 else 4) i))).bits))) 4 s)

/-- KAND, KOR and KXOR (R397). -/
def effKbin (f : Mask → Mask → Mask) (d a b : BitVec 4) : Eff := fun c o s =>
  .ok (resultK c d.toNat (f (kReg o c a.toNat) (kReg o c b.toNat)) 2 s)

/-- KNOT (R397). -/
def effKnot (d a : BitVec 4) : Eff := fun c o s => .ok (resultK c d.toNat (~~~ kReg o c a.toNat) 2 s)

/-- KPOP (R397). -/
def effKpop (d : BitVec 6) (a : BitVec 4) (e : Fmt) : Eff := fun c o s =>
  .ok (resultS c d.toNat (BitVec.ofNat 64 ((List.range (lanes e)).filter (maskElem (kReg o c a.toNat) e.width)).length) 2 s)

/-- KSET (R397). -/
def effKset (d : BitVec 4) (a b : BitVec 6) : Eff := fun c o s =>
  .ok (resultK c d.toNat (sReg o c b.toNat ++ sReg o c a.toNat) 2 s)

/-- VMOV between v registers (R398). -/
def effVmov (d a : BitVec 6) (k : BitVec 4) (e : Fmt) : Eff := fun c o s =>
  .ok (mapExact c o s d.toNat k e 2 (vElem o c a.toNat e))

/-- VMOV from a merge register (R398). -/
def effVmovFromMg (d : BitVec 6) (a : BitVec 2) : Eff := fun c o s => .ok (resultS c d.toNat (mgReg o c a.toNat) 2 s)

/-- VMOV to a merge register; bit 63 is reserved (R398, R403). -/
def effVmovToMg (d : BitVec 2) (a : BitVec 6) : Eff := fun c o s =>
  .ok (result c (.mg d.toNat) (((sReg o c a.toNat) &&& 0x7FFFFFFFFFFFFFFF).setWidth 1024) 2 s)

/-- VMOV of the low or high half of a mask register (R398). -/
def effVmovMask (hi : Bool) (d : BitVec 6) (a : BitVec 4) : Eff := fun c o s =>
  .ok (resultS c d.toNat (((kReg o c a.toNat) >>> (if hi then 64 else 0)).setWidth 64) 2 s)

/-- A hint has no effect (R329). -/
def effHint : Eff := fun _ _ s => .ok s

end Sys2Proof.Machine
end

