-- ==== Sys2Proof/Machine/Codec.lean ====
section
/-!
DEFINITION. Sys2Proof/Machine/Codec.lean: LZ4 blocks (R313), ZX tiles (R310-R312), and the exact reduction of XRED and
COLL (R317, R318).
-/

namespace Sys2Proof.Machine

/-! ### LZ4 (R313) -/

/-- A length whose nibble is given, with its extension bytes: the length and the rest of the input. -/
def lz4Len (nib : Nat) : List Byte → Option (Nat × List Byte)
  | inp => if nib < 15 then some (nib, inp) else go 15 inp
where
  go (acc : Nat) : List Byte → Option (Nat × List Byte)
    | [] => none
    | b :: t => if b = 255 then go (acc + 255) t else some (acc + b.toNat, t)

/-- A match of `n` bytes at an offset, copied byte by byte. -/
def lz4Copy (off : Nat) : Nat → List Byte → List Byte
  | 0, out => out
  | n + 1, out => lz4Copy off n (out ++ [nthD out (out.length - off) 0])

/-- The sequences of a block, with fuel for each byte of input. -/
def lz4Go : Nat → List Byte → List Byte → Option (List Byte)
  | 0, _, _ => none
  | _ + 1, [], _ => none
  | f + 1, t :: inp, out =>
    match lz4Len (t.toNat / 16) inp with
    | none => none
    | some (n, inp) =>
      if inp.length < n then none
      else
        let out := out ++ inp.take n
        match inp.drop n with
        | [] => some out
        | o0 :: o1 :: inp =>
          let off := o0.toNat + 256 * o1.toNat
          if off = 0 ∨ out.length < off then none
          else match lz4Len (t.toNat % 16) inp with
            | none => none
            | some (m, inp) => lz4Go f inp (lz4Copy off (m + 4) out)
        | _ => none

/-- The output of a block; none where it is malformed. -/
def lz4Block (inp : List Byte) : Option (List Byte) := lz4Go (inp.length + 1) inp []

/-! ### ZX tiles (R310-R312) -/

/-- The element width in bytes that an EW names. -/
def zxWidth (ew : Nat) : Nat := if ew = 0 then 1 else if ew = 1 then 2 else 4

/-- The numbers of the `w`-byte elements of a list. -/
def zxElems (w : Nat) (l : List Byte) : List Nat := (List.range (l.length / w)).map (fun i => leNat ((l.drop (i * w)).take w))

/-- The exponent field of an element. -/
def zxExp (ew x : Nat) : Nat := if ew = 1 then bitsOf x 7 8 else bitsOf x 23 8

/-- The residue bytes of an element. -/
def zxResidue (ew x : Nat) : List Byte :=
  if ew = 0 then leBytes x 1
  else if ew = 1 then leBytes (bitsOf x 15 1 * 128 + bitsOf x 0 7) 1
  else leBytes (bitsOf x 31 1 * 2 ^ 23 + bitsOf x 0 23) 3

/-- The element of an exponent and a residue. -/
def zxJoin (ew e r : Nat) : Nat :=
  if ew = 0 then r else if ew = 1 then bitsOf r 7 1 * 2 ^ 15 + e * 2 ^ 7 + bitsOf r 0 7 else bitsOf r 23 1 * 2 ^ 31 + e * 2 ^ 23 + bitsOf r 0 23

/-- The nibbles and escape bytes of a run of exponents. -/
def zxDeltas : Nat → List Nat → List Nat × List Byte
  | _, [] => ([], [])
  | prev, e :: t =>
    let d : Int := (e : Int) - prev
    let r := zxDeltas e t
    if -7 ≤ d ∧ d ≤ 7 then (wrap 4 d :: r.1, r.2) else (8 :: r.1, BitVec.ofNat 8 e :: r.2)

/-- The exponents that nibbles and escape bytes give, and the escape bytes left over. -/
def zxExps : Nat → List Nat → List Byte → Option (List Nat × List Byte)
  | _, [], esc => some ([], esc)
  | _, 8 :: t, e :: esc => (zxExps e.toNat t esc).map (fun r => (e.toNat :: r.1, r.2))
  | _, 8 :: _, [] => none
  | prev, d :: t, esc =>
    let e := wrap 8 ((prev : Int) + signed 4 d)
    (zxExps e t esc).map (fun r => (e :: r.1, r.2))

/-- The nibbles of bytes, low nibble first. -/
def nibbles (l : List Byte) : List Nat := l.flatMap (fun b => [b.toNat % 16, b.toNat / 16])

/-- A tile's bytes for a source under an EW. -/
def zxTile (ew : Nat) (src : List Byte) : List Byte :=
  let head := fun (body : List Byte) =>
    leBytes (src.length + ew * 2 ^ 13) 2 ++ leBytes (16 + body.length) 2 ++ leBytes (crc32c src).toNat 4 ++ List.replicate 8 0 ++ body
  if ew = 3 then head src
  else
    let xs := zxElems (zxWidth ew) src
    let nz := xs.filter (fun x => x != 0)
    let ds := if ew = 0 then ([], []) else zxDeltas 127 (nz.map (zxExp ew))
    head (leBytes (packElems 1 (xs.map (fun x => if x = 0 then 0 else 1))) ((xs.length + 7) / 8) ++
      leBytes (packElems 4 ds.1) ((ds.1.length + 1) / 2) ++ ds.2 ++ nz.flatMap (zxResidue ew))

/-- The elements of a body: a zero where the bitmap is clear, else the next value. -/
def zxFill : List Bool → List Nat → List Nat
  | [], _ => []
  | true :: m, x :: t => x :: zxFill m t
  | true :: m, [] => 0 :: zxFill m []
  | false :: m, l => 0 :: zxFill m l

/-- The source of a tile; none where it is malformed (R311). -/
def zxExpand (tile : List Byte) : Option (List Byte) :=
  let h0 := leNat (tile.take 2)
  let h1 := leNat ((tile.drop 2).take 2)
  let size := bitsOf h0 0 13
  let ew := bitsOf h0 13 2
  let w := zxWidth ew
  let crc := leNat ((tile.drop 4).take 4)
  let body := tile.drop 16
  let good := fun (src : List Byte) => if (crc32c src).toNat = crc ∧ src.length = size then some src else none
  if tile.length < 16 ∨ bitAt h0 15 ∨ bitsOf h1 13 3 ≠ 0 ∨ (tile.drop 8).take 8 ≠ List.replicate 8 0 ∨ size = 0 ∨ 4096 < size ∨ bitsOf h1 0 13 ≠ tile.length then none
  else if ew = 3 then good body
  else if size % w ≠ 0 then none
  else
    let n := size / w
    let nb := (n + 7) / 8
    if body.length < nb then none
    else
      let map := (List.range n).map (fun i => bitAt (leNat (body.take nb)) i)
      let z := (map.filter (fun b => b)).length
      let rest := body.drop nb
      let nd := if ew = 0 then 0 else (z + 1) / 2
      let rw := if ew = 2 then 3 else 1
      if rest.length < nd then none
      else
        match (if ew = 0 then some (List.replicate z 0, rest) else zxExps 127 ((nibbles (rest.take nd)).take z) (rest.drop nd)) with
        | none => none
        | some (es, res) =>
          if res.length ≠ z * rw then none
          else
            let xs := (List.range z).map (fun i => zxJoin ew (nthD es i 0) (leNat ((res.drop (i * rw)).take rw)))
            good ((zxFill map xs).flatMap (fun x => leBytes x w))

/-- The EW of a residency tile of a tensor's format (R312), by its format code. -/
def zxTensorEw (fmt : Nat) : Nat :=
  if fmt = 0 ∨ fmt = 1 ∨ fmt = 4 ∨ fmt = 9 then 1 else if fmt = 2 ∨ fmt = 5 ∨ fmt = 10 then 2 else 0

/-- A residency tile: stored where compression does not make it shorter (R312). -/
def zxResidency (fmt : Nat) (src : List Byte) : List Byte :=
  let t := zxTile (zxTensorEw fmt) src
  if src.length % zxWidth (zxTensorEw fmt) ≠ 0 ∨ src.length + 16 ≤ t.length then zxTile 3 src else t

/-- The shortest link tile, of the lowest EW among equals (R312). -/
def zxLink (src : List Byte) : List Byte :=
  ([0, 1, 2].filter (fun ew => src.length % zxWidth ew == 0)).foldl (fun best ew =>
    let t := zxTile ew src
    if best = [] ∨ t.length < best.length then t else best) []

/-! ### Exact reduction (R317, R318) -/

/-- What a reduction of one element gives before it is rounded: a NaN, an infinity, a zero, an exact value m * 2^e, or the
tree's FP32 value. -/
inductive Sum where
  | nan
  | inf (neg : Bool)
  | zero (neg : Bool)
  | val (m : Int) (e : Int)
  | tree (v : FV)
  deriving DecidableEq, Repr

/-- One level of the rank-ordered tree. -/
def treeLevel : List FV → List FV
  | a :: b :: t => fdec (ffOf .f32) (fadd (ffOf .f32) 0 a b).bits :: treeLevel t
  | l => l

/-- The rank-ordered tree: as many levels as bring 4,096 contributions to one. -/
def treeSum (l : List FV) : FV := ((List.range 13).foldl (fun l _ => treeLevel l) l).headD (.fin false 0 0)

/-- floor(log2 |x|) of a nonzero finite value. -/
def log2F : FV → Int
  | .fin _ m e => (topBit m : Int) + e
  | _ => 0

/-- The exact sum of an element's contributions in rank order (R317). -/
def exactSum (c : List FV) : Sum :=
  let isInf := fun (n : Bool) (x : FV) => x == .inf n
  if c.any isNaN || (c.any (isInf true) && c.any (isInf false)) then .nan
  else if c.any (isInf true) then .inf true
  else if c.any (isInf false) then .inf false
  else
    let nz := c.filter (fun x => match x with | .fin _ m _ => m != 0 | _ => false)
    match nz with
    | [] => .zero (c.all fsign)
    | x :: t =>
      let emax := t.foldl (fun a y => max a (log2F y)) (log2F x)
      let emin := t.foldl (fun a y => min a (log2F y)) (log2F x)
      if 32 < emax - emin then .tree (treeSum c)
      else
        let u := emax - 61
        .val ((nz.map (fun y => match y with | .fin n m e => nearestI (if n then -(m : Int) else m) (e - u) | _ => 0)).sum) u

/-- The value of a sum, for packing. -/
def sumFV : Sum → FV
  | .nan => .nan false
  | .inf n => .inf n
  | .zero n => .fin n 0 0
  | .val m e => .fin (decide (m < 0)) m.natAbs e
  | .tree v => v

/-- The bits of a sum in a floating format. -/
def sumBits (f : FFmt) (x : Sum) : Nat := (fto f 0 (sumFV x)).bits

/-- Whether a sum took the tree. -/
def isTree : Sum → Bool
  | .tree _ => true
  | _ => false

/-- A participant's bytes: elements and, for BQ8, scale codes. -/
structure Contrib where
  data  : List Byte
  codes : List Byte
  deriving DecidableEq, Repr

/-- The value of element `i` of a contribution. -/
def contribVal (et : Fmt) (x : Contrib) (i : Nat) : FV :=
  let byte := fun (l : List Byte) (j : Nat) => (nthD l j 0).toNat
  match et with
  | .bq8 => blockVal true (byte x.codes (2 * (i / 32))) (byte x.codes (2 * (i / 32) + 1)) (byte x.data i)
  | .bf16 => fdec (ffOf .bf16) (leNat ((x.data.drop (2 * i)).take 2))
  | _ => fdec (ffOf .f32) (leNat ((x.data.drop (4 * i)).take 4))

/-- The reduction of whole contributions in rank order: the result, and whether any element took the tree. -/
def reduceAll (et : Fmt) (cs : List Contrib) : Contrib × Bool :=
  let len := (cs.headD { data := [], codes := [] }).data.length
  if et = .i32 ∨ et = .i64 then
    let w := if et = .i32 then 4 else 8
    let out := (List.range ((len + w - 1) / w)).flatMap (fun i =>
      leBytes ((cs.map (fun x => leNat ((x.data.drop (w * i)).take w))).sum % 2 ^ (8 * w)) w)
    ({ data := out.take len, codes := [] }, false)
  else
    let w := if et = .bf16 then 2 else if et = .f32 then 4 else 1
    let sums := (List.range ((len + w - 1) / w)).map (fun i => exactSum (cs.map (fun x => contribVal et x i)))
    if et = .bq8 then
      let block := fun (b : Nat) =>
        let xs := ((sums.drop (32 * b)).take 32).map sumFV
        let sc : Nat × Nat × Bool :=
          if xs.any (fun x => match x with | .fin _ _ _ => false | _ => true) then (255, 255, false)
          else
            let amax := xs.foldl (fun a x => if fcmp a (match x with | .fin _ m e => .fin false m e | y => y) < 0 then
              (match x with | .fin _ m e => .fin false m e | y => y) else a) (.fin false 0 0)
            scaleVal true amax
        (xs.map (fun x => BitVec.ofNat 8 (packVal true sc.1 sc.2.1 x).1), [BitVec.ofNat 8 sc.1, BitVec.ofNat 8 sc.2.1])
      let bs := (List.range ((len + 31) / 32)).map block
      ({ data := bs.flatMap (·.1), codes := bs.flatMap (·.2) }, sums.any isTree)
    else
      ({ data := (sums.flatMap (fun x => leBytes (sumBits (ffOf et) x) w)).take len, codes := [] }, sums.any isTree)

end Sys2Proof.Machine
end

