-- ==== Sys2Proof/Machine/Sectors.lean ====
section
/-!
DEFINITION. Sys2Proof/Machine/Sectors.lean: what the memory controllers find as they read a sector of HBM4E or a unit of LPDDR6 (R52-R58):
a wrong symbol they correct, a sector they cannot correct and poison, the poison syndrome; the counters and logs that tell of it, and the interrupt messages they send (R76).
-/

namespace Sys2Proof.Machine

/-! ### Interrupt messages (R76) -/

/-- An MSI-X entry after reset: masked, as PCIe defines it (assumption 10). -/
def msixReset : BitVec 128 := 2 ^ 96

/-- Send the message of an MSI-X entry, or set its pending bit where the entry is masked (R76). -/
def sendMsix (e : Nat) (s : State) : State :=
  if ((s.mod.msix.get msixReset e).getLsbD 96) then { s with mod := { s.mod with pending := s.mod.pending.set false e true } }
  else { s with mod := { s.mod with sent := e :: s.mod.sent } }

/-! ### The memories -/

/-- The memories with error registers: stacks 0 to 15, and 16 and 17 for the LPDDR6 behind I/O dies 0 and 1. -/
def memBank (s : State) (m : Nat) : MemBank := if m < 16 then s.mod.hbm.get .zero m else s.mod.lp.get .zero (m - 16)
/-- Change one. -/
def updBank (m : Nat) (f : MemBank → MemBank) (s : State) : State :=
  if m < 16 then { s with mod := { s.mod with hbm := s.mod.hbm.upd .zero m f } } else { s with mod := { s.mod with lp := s.mod.lp.upd .zero (m - 16) f } }

/-- A 16-bit counter that saturates. -/
def satAdd (x : BitVec 16) (n : Nat) : BitVec 16 := BitVec.ofNat 16 (Nat.min 65535 (x.toNat + n))

/-- A log entry (R56). -/
def memEntry (addr kind symbol us : Nat) : BitVec 128 :=
  BitVec.ofNat 128 (addr % 2 ^ 48 / 32 * 32 + kind % 256 * 2 ^ 48 + symbol % 32 * 2 ^ 56 + us % 2 ^ 64 * 2 ^ 64)

/-- Write a memory's log entry and send the vector ERRVEC names (R56, R58, R64). -/
def logMem (m addr kind symbol : Nat) (s : State) : State :=
  let s := updBank m (fun b => { b with
    log := b.log.set 0 b.next (memEntry addr kind symbol s.us), next := (b.next + 1) % 64, count := Nat.min 64 (b.count + 1), ovfl := b.ovfl || b.count == 64 }) s
  sendMsix (fieldW s.mod.errvec (if m < 16 then 0 else 16) 11) s

/-- A number the spec leaves open. -/
def freeNat (s : State) : State × Nat := ({ s with free := s.free + 1 }, (Config.freeValue s.free).toNat)

/-- Log an event whose sector and symbol the spec does not give. -/
def logOpen (m kind : Nat) (s : State) : State :=
  let a := freeNat s
  logMem m a.2 kind 0 a.1

/-- Whether a byte of a tensor lies in the spill tier. -/
def isSpilledKey (s : State) (k : Nat) : Bool :=
  if 2 ^ 63 ≤ k then (trec s ((k - 2 ^ 63) / 2 ^ 40)).state == .spilled
  else decide (5 * 2 ^ 60 ≤ k) && decide (k < 6 * 2 ^ 60) && decide ((k - 5 * 2 ^ 60) / 2 ^ 52 % 2 = 1)

/-- Whether a memory holds a sector: a stack those of the die that hosts it, an I/O die's half those that are spilled. -/
def bankHolds (s : State) (m k : Nat) : Bool :=
  if m < 16 then !isSpilledKey s k && (match hbmDie k with | some d => (stacksOf (hostDie s d)).contains m | none => false)
  else decide (m < 18) && isSpilledKey s k

/-- The physical address of a sector: open where its frame is of the Hasp's own choosing. -/
def sectorAddr (s : State) (k : Nat) : State × Nat := if 2 ^ 63 ≤ k then freeNat s else (s, k % 2 ^ 52)

/-- The memory whose channel holds a sector: the stack or, of a spilled byte, the half of the LPDDR6 (assumption 63). -/
def memOf (s : State) (k : Nat) : Option Nat :=
  if isSpilledKey s k then some (16 + Config.channelOf (k / 64) / 16 % 2)
  else (hbmDie k).map (fun d =>
    let st := stacksOf (hostDie s d)
    nthD st (Config.channelOf (k / 32) % (32 * st.length) / 32) 0)

/-- The 32-byte sectors of a memory's unit of correction: one of HBM4E, two of LPDDR6 (R52, R58). -/
def unitOf (m q : Nat) : List Nat := if m < 16 then [q] else [q / 2 * 2, q / 2 * 2 + 1]

/-- Sectors hold what their check bytes say. -/
def mend (l : List Nat) (s : State) : State := { s with wrong := l.foldl (fun t q => t.set 0 q 0) s.wrong }

/-- The controller writes sectors poisoned (R54). -/
def spoil (l : List Nat) (s : State) : State := mend l { s with poison := l.foldl (fun t q => t.set false q true) s.poison }

/-- Whether a read of a sector finds anything but good data. -/
def needsCare (s : State) (q : Nat) : Bool := poisonAt s (32 * q) || s.wrong.get 0 q != 0

/-- A read of a sector (R52, R54, R56): the poison syndrome is recognised and logged; one wrong symbol is corrected and counted; two
make the sector uncorrectable, and it is poisoned. -/
def findOnRead (q : Nat) (s : State) : State :=
  match memOf s (32 * q) with
  | none => s
  | some m =>
    let a := sectorAddr s (32 * q)
    let n := ((unitOf m q).map (fun i => s.wrong.get 0 i)).sum
    if s.poison.get false q || deadSector s (32 * q) then logMem m a.2 3 0 a.1
    else if n = 0 then s
    else if n = 1 then
      let y := freeNat a.1
      logMem m a.2 1 y.2 (updBank m (fun b => { b with ce := satAdd b.ce 1 }) y.1)
    else logMem m a.2 2 0 (updBank m (fun b => { b with ue := satAdd b.ue 1 }) (spoil (unitOf m q) a.1))

/-- The sectors of `n` bytes at a place. -/
def sectorsOf (s : State) (l : Loc) (n : Nat) : List Nat := ((List.range n).map (fun i => locKey s l i / 32)).dedup

/-- A read of `n` bytes at a place of HBM4E reaches its channels (R52; assumption 63). -/
def demandRead (l : Loc) (n : Nat) (s : State) : State := ((sectorsOf s l n).filter (needsCare s)).foldl (fun s q => findOnRead q s) s

/-- The sectors a write leaves part of: the controller reads them first (R54). -/
def partSectors (s : State) (l : Loc) (n : Nat) (mask : List Bool) : List Nat :=
  (sectorsOf s l n).filter (fun q => decide (((List.range n).filter (fun i => locKey s l i / 32 == q && nthD mask i false)).length < 32))

/-- A write of bytes at a place of HBM4E, as its channels see it. -/
def demandWrite (l : Loc) (n : Nat) (mask : List Bool) (s : State) : State :=
  ((partSectors s l n mask).filter (needsCare s)).foldl (fun s q => findOnRead q s) s

/-- The pager or the context save path reads a run of bytes whole and writes it elsewhere (R14, R58): what it finds, sector by sector,
and the copy carries no wrong symbol any more. -/
def pagerRead (k n : Nat) (s : State) : State :=
  let mine := fun (q : Nat) => decide (k ≤ 32 * q) && decide (32 * q < k + n)
  let l := ((s.wrong.keys.filter mine) ++ (s.poison.keys.filter mine)).dedup
  mend (l.filter (fun q => s.wrong.get 0 q != 0)) (l.foldl (fun s q => findOnRead q s) s)

end Sys2Proof.Machine
end

