-- ==== Sys2Proof/Machine/LoadStore.lean ====
section
/-!
DEFINITION. Sys2Proof/Machine/LoadStore.lean: the effects of the LS instructions (R374-R388).
-/

namespace Sys2Proof.Machine

/-! ### Retractable regions (R201) -/

/-- The block length of a tensor format (R296, R120). -/
def blockLen (f : Nat) : Nat := if f = 0x10 ∨ f = 0x11 then 32 else if f = 0x12 then 128 else if f = 0x13 then 4 else 1
/-- Bytes of an element of a plain tensor format. -/
def elemBytes (f : Nat) : Nat :=
  if f = 0 ∨ f = 1 ∨ f = 4 ∨ f = 9 then 2 else if f = 2 ∨ f = 5 ∨ f = 0xA then 4 else if f = 6 ∨ f = 0xB then 8 else 1
/-- DIM0 rounded up to the block length (R296). -/
def pitch0 (t : TRec) : Nat := (nthD t.dims 0 1 + blockLen t.format.toNat - 1) / blockLen t.format.toNat * blockLen t.format.toNat
/-- An extent, one at or above RANK. -/
def dimOf (t : TRec) (i : Nat) : Nat := if i < t.rank.toNat then nthD t.dims i 1 else 1
/-- The padded element count G of R296. -/
def elemCount (t : TRec) : Nat := pitch0 t * dimOf t 1 * dimOf t 2 * dimOf t 3 * dimOf t 4
/-- The bytes of a format's first plane, rounded up to 128 where a second one follows (R296). -/
def plane0 (f G : Nat) : Nat :=
  if f = 0x10 then (G + 127) / 128 * 128 else if f = 0x11 then (G + 255) / 256 * 128
  else if f = 0x12 then (3 * G + 1023) / 1024 * 128 else if f = 0x13 then (G + 127) / 128 * 128 else G * elemBytes f
/-- The layout size of a tensor (R296). -/
def layoutSize (f G : Nat) : Nat :=
  if f = 0x10 ∨ f = 0x11 then plane0 f G + G / 16 else if f = 0x12 then plane0 f G + G / 8
  else if f = 0x13 then plane0 f G + (G + 7) / 8 else G * elemBytes f
/-- The first and last element a byte holds or serves (R201). -/
def byteElems (f G b : Nat) : Nat × Nat :=
  if f = 0x10 then (if b < plane0 f G then (b, b) else let k := (b - plane0 f G) / 2; (32 * k, 32 * k + 31))
  else if f = 0x11 then (if b < plane0 f G then (2 * b, 2 * b + 1) else let k := (b - plane0 f G) / 2; (32 * k, 32 * k + 31))
  else if f = 0x12 then (if b < plane0 f G then (8 * b / 3, (8 * b + 7) / 3) else let k := (b - plane0 f G) / 16; (128 * k, 128 * k + 127))
  else if f = 0x13 then (if b < plane0 f G then (b / 4 * 4, b / 4 * 4 + 3) else let k := b - plane0 f G; (8 * k, 8 * k + 7))
  else (b / elemBytes f, b / elemBytes f)
/-- The coordinate of an element on the growth dimension. -/
def growCoord (t : TRec) (e : Nat) : Nat :=
  match t.grow.toNat with
  | 0 => e % pitch0 t
  | 1 => e / pitch0 t % dimOf t 1
  | 2 => e / (pitch0 t * dimOf t 1) % dimOf t 2
  | 3 => e / (pitch0 t * dimOf t 1 * dimOf t 2) % dimOf t 3
  | _ => e / (pitch0 t * dimOf t 1 * dimOf t 2 * dimOf t 3) % dimOf t 4
/-- Whether a byte of a tensor lies in its retractable region for an extent (R201). A byte that holds and serves no element
(between the planes, or past the layout) is taken to lie outside it (DEDUCED, assumption 17). -/
def retractable (t : TRec) (ext b : Nat) : Bool :=
  let r := byteElems t.format.toNat (elemCount t) b
  t.growv && decide (r.1 < elemCount t) && (List.range (r.2 - r.1 + 1)).all (fun i => decide (elemCount t ≤ r.1 + i) || decide (ext ≤ growCoord t (r.1 + i)))

/-- Whether `n` bytes a task stores lie within the retractable region of a RETR operand of its launch (R164, R380). -/
def inRetr (s : State) (c h o n : Nat) : Bool :=
  let ops := (taskOps s c).filter (fun p => p.retr && opHandle p == h)
  (List.range n).all (fun i => inRange ops h (o + i) && retractable (trec s h) (trec s h).cext.toNat (o + i))

/-- Whether a place lies there. -/
def locRetr (s : State) (c : Nat) (l : Loc) (n : Nat) : Bool :=
  match l with | .glob h o => inRetr s c h o n | _ => false

/-! ### The L2 (R217, R218) -/

/-- The slot of a tensor line in a die's L2 read counts. -/
def l2Key (die h o : Nat) : Nat := die * 2 ^ 64 + globKey h o / 128

/-- The lines that `n` bytes of a tensor touch, as keys of a die's L2. -/
def l2Lines (die h o n : Nat) : List Nat := (List.range ((o + n - 1) / 128 - o / 128 + 1)).map (fun i => l2Key die h (o + 128 * i))

/-- A store makes the lines of `n` bytes ordinary, and takes them from every L2 (R217, R218). -/
def dropCounts (s : State) (h o n : Nat) : State :=
  (List.range 8).foldl (fun s d => (l2Lines d h o n).foldl (fun s k => { s with l2 := s.l2.set 0 k 0, l2Dirty := s.l2Dirty.set false k false }) s) s

/-- A store leaves the lines of `n` bytes dirty in the L2 of the die whose core or engine stored (assumption 99). -/
def dirtyLines (s : State) (die h o n : Nat) : State :=
  (l2Lines die h o n).foldl (fun s k => { s with l2Dirty := s.l2Dirty.set false k true }) s

/-- One read of `n` bytes by a core or engine of a die counts down the lines it touches (R218): at zero the line goes. -/
def countRead (s : State) (die h o n : Nat) : State :=
  (l2Lines die h o n).foldl (fun s k =>
    let x := s.l2.get 0 k
    if x = 0 then s else { s with l2 := s.l2.set 0 k (if x ≤ 2 then 0 else x - 1) }) s

/-- A read of `n` bytes that a core makes at issue of a place it pauses for (R233, R242), as the memory channels and the L2 see it. -/
def acqRead (c : Nat) (l : Loc) (n : Nat) (s : State) : State :=
  match l with
  | .glob h o => countRead (demandRead l n s) (coreDie c) h o n
  | _ => s

/-! ### Accesses (R220, R381) -/

/-- The new value of an atomic or reduction (R381). -/
def amoVal (opc : Nat) (w8 : Bool) (m b : Nat) : Nat :=
  let w := if w8 then 64 else 32
  let b := b % 2 ^ w
  match opc with
  | 0 => (m + b) % 2 ^ w
  | 1 => Nat.land m b
  | 2 => Nat.lor m b
  | 3 => Nat.xor m b
  | 4 => if signed w b < signed w m then b else m
  | 5 => if signed w m < signed w b then b else m
  | 6 => if b < m then b else m
  | 7 => if m < b then b else m
  | 8 => b
  | _ => (fadd (ffOf .f32) 0 (fdec (ffOf .f32) m) (fdec (ffOf .f32) b)).bits

/-- The bytes an access changes at its place. -/
def opBytes : AccessOp → Nat
  | .store bs _ => bs.length
  | .red _ w8 _ => if w8 then 8 else 4
  | .amo _ w8 _ _ => if w8 then 8 else 4
  | .cas w8 _ _ _ => if w8 then 8 else 4
  | .load _ _ _ => 0
  | .table _ _ _ => 0

/-- Whether an access writes. -/
def opWrites : AccessOp → Bool
  | .load _ _ _ => false
  | .table _ _ _ => false
  | _ => true

/-- The bytes an access touches. -/
def opSpan : AccessOp → Nat
  | .store bs _ => bs.length
  | .load n _ _ => n
  | .table _ _ _ => 16
  | op => opBytes op

/-- A number of up to 128 bytes as a vector. -/
def vecOf (l : List Byte) : Vec := BitVec.ofNat 1024 (leNat l)

/-- All bytes of a store. -/
def allMask (n : Nat) : List Bool := List.replicate n true

/-! ### Shared operations -/

/-- A pointer displaced by a signed immediate. -/
def disp_ (p : Word) (d : Word) : Word := p + d

/-- The bytes of a place that the stores a core still holds give, the latest store of each byte (R225). -/
def heldBytes (o : State) (c : Nat) (l : Loc) (n : Nat) : List (Option Byte) :=
  let put := fun (acc : List (Option Byte)) (a a2 : Nat) (bs : List Byte) (mk : List Bool) =>
    (List.range n).map (fun i =>
      let j := a + i
      if a2 ≤ j ∧ j < a2 + bs.length ∧ nthD mk (j - a2) false then some (nthD bs (j - a2) 0) else nthD acc i none)
  let one := fun (acc : List (Option Byte)) (l2 : Loc) (op : AccessOp) =>
    match l, l2, op with
    | .glob h a, .glob h2 a2, .store bs mk => if h = h2 then put acc a a2 bs mk else acc
    | .host a _, .host a2 _, .store bs mk => put acc a a2 bs mk
    | _, _, _ => acc
  (coreAt o c).b.commitQ.foldl (fun acc e =>
    match e.body with
    | .access _ l2 op => one acc l2 op
    | .rel _ _ l2 op => one acc l2 op
    | _ => acc) []

/-- Bytes read, under the held bytes. -/
def withHeld (bs : List Byte) (fw : List (Option Byte)) : List Byte := (List.range bs.length).map (fun i => (nthD fw i none).getD (nthD bs i 0))

/-- Whether a byte read from memory, and not given by a held store, is poisoned. -/
def poisonBeyond (s : State) (l : Loc) (n : Nat) (fw : List (Option Byte)) : Bool :=
  (List.range n).any (fun i => (nthD fw i none).isNone && poisonAt s (locKey s l i))

/-- Perform an access on a place whose checks are done: `put` stores bytes there. -/
def applyOp (s : State) (l : Loc) (op : AccessOp) (put : State → List Byte → List Bool → State) : State × Option (BitVec 1024 × Bool) :=
  let size := fun (w8 : Bool) => if w8 then 8 else 4
  match op with
  | .store bs mk => (put s bs mk, none)
  | .red opc w8 b => (put s (leBytes (amoVal opc w8 (readNat s l (size w8)) b.toNat) (size w8)) (allMask (size w8)), none)
  | .amo opc w8 b _ =>
    (put s (leBytes (amoVal opc w8 (readNat s l (size w8)) b.toNat) (size w8)) (allMask (size w8)),
      some (BitVec.ofNat 1024 (readNat s l (size w8)), poisoned s l (size w8)))
  | .cas w8 cmp new _ =>
    let old := readNat s l (size w8)
    let s2 := if old = cmp.toNat % 2 ^ (8 * size w8) then put s (leBytes new.toNat (size w8)) (allMask (size w8)) else s
    (s2, some (BitVec.ofNat 1024 old, poisoned s l (size w8)))
  | .load n _ fw => (s, some (vecOf (withHeld (readLoc s l n) fw), poisonBeyond s l n fw))
  | .table _ _ fw => (s, some (vecOf (withHeld (readLoc s l 16) fw), poisonBeyond s l 16 fw))

/-- What a load by this core sees at a place: memory, overlaid by the stores it still holds, oldest first (R225). -/
def overlay (o : State) (c : Nat) (l : Loc) (n : Nat) : List Byte := withHeld (readLoc o l n) (heldBytes o c l n)

/-- The place a packet for a location goes to (R35). -/
def nodeOf (l : Loc) : Node :=
  match l with
  | .glob h _ => .die (handleDie h)
  | .host _ _ => .host
  | .flat k => .core ((k - 2 ^ 60) / 2 ^ 51)

/-- Send an access on its way: it performs when its packet is delivered (R232), after the numbered accesses it must
wait for. -/
def post (c : Nat) (s : State) (ptr : Word) (l : Loc) (op : AccessOp) (own : Option Nat) (e : CEntry) (after : List Nat) : State :=
  let (id, s) := fresh s
  let s := { s with packets := s.packets ++ [{ id := id, lane := 0, src := .core c, dst := nodeOf l, core := c, after := after, lackUs := none, body := .access ptr l op own e }] }
  updCore s c (fun k => { k with out := k.out ++ [id] })

/-- The entry that describes the issuing bundle. -/
def entryNow (o : State) (c : Nat) (body : CBody) : CEntry := { body := body, pc := (coreAt o c).b.r.pc, vcc := (coreAt o c).b.r.vcc }

/-- The context whose launch a core's task belongs to, which may write the tensors it owns (R240). -/
def ownerCtx (s : State) (c : Nat) : Option Nat := match taskOf s c with | some t => some t.ctx | none => none

/-- Whether two places share a byte. -/
def locMeets (s : State) (l : Loc) (n : Nat) (l2 : Loc) (n2 : Nat) : Bool :=
  (List.range n).any (fun i => (List.range n2).any (fun j => locKey s l i == locKey s l2 j))

/-- Whether an earlier access of the core to the same bytes is still on its way: a read waits for it (R231). -/
def pendingTo (o : State) (c : Nat) (l : Loc) (n : Nat) : Bool :=
  o.packets.any (fun p => p.core == c && (match p.body with | .access _ l2 op _ _ => locMeets o l n l2 (opBytes op) | _ => false))

/-! ### The core's own storages (R230, R231) -/

/-- Whether a key is one of the core's own scratchpad or private areas. -/
def isOwnKey (c k : Nat) : Bool := (k - 2 ^ 60) / 2 ^ 51 == c

/-- Store bytes at a local place. -/
def putFlat (l : Loc) (s : State) (bytes : List Byte) (mask : List Bool) : State :=
  clearPoison (writeMasked s l 0 bytes mask) l bytes.length mask

/-- The accesses of a core to its own storages that are under way and change them, in the order of issue. -/
def ownPend (s : State) (c : Nat) : List Packet :=
  s.packets.filter (fun p => p.core == c && (match p.body with | .access _ (.flat k) op _ _ => isOwnKey c k && opWrites op | _ => false))

/-- A core's own storages as it sees them itself: each access of its own that is under way has taken place. -/
def seen (s : State) (c : Nat) : State :=
  (ownPend s c).foldl (fun t p => match p.body with | .access _ l op _ _ => (applyOp t l op (putFlat l)).1 | _ => t) s

/-- What a later access of a core to its own storages must wait for, to perform in VCC order (R230). -/
def behindOwn (s : State) (c : Nat) : List Nat :=
  (ownPend s c).map (fun p => p.id) ++ (ownPend s c).flatMap (fun p => p.after.filter (fun i => decide (2 ^ 61 ≤ i)))

/-- Bytes read at issue from the core's own storages: a waking bank pauses with code 2 (R27), a poisoned byte is consumed
(R256): the core's detected error is recorded and the value stands. `src` is the requester's class (R458). -/
def readOwn (src c : Nat) (o s : State) (p : Word) (l : Loc) (n : Nat) : Except Stop (List Byte × State) :=
  if !bankReady o l n then pauseWake o l n
  else .ok (readLoc (seen o c) l n,
    injected src c (coreAt o c).b.r.pc l n (if poisoned (seen o c) l n then detectPtr p (coreAt s c).b.r.pc c codePoison s else s))

/-- An access to the core's own storages takes place at issue, or behind those still under way (R230). -/
def ownAccess (c : Nat) (o s : State) (p : Word) (l : Loc) (op : AccessOp) : State :=
  if (ownPend o c).isEmpty then (applyOp s l op (putFlat l)).1
  else post c s p l op none (entryNow o c (.access p l op)) (behindOwn o c)

/-- The most landing requests a core holds (R277). -/
def landLimit : Nat := 256

/-- The landing entries of a core in use: of the running code and, while a handler runs, of what it interrupted (R277, R283). -/
def landEntries (s : State) (c : Nat) : Nat := (coreAt s c).b.r.lands.length + (coreAt s c).b.latchedL.length

/-- The global table loads of a core under way (R417). -/
def tablesOut (s : State) (c : Nat) : Nat :=
  (s.packets.filter (fun p => p.core == c && (match p.body with | .access _ _ (.table _ _ _) _ _ => true | .tableResp _ _ _ _ => true | _ => false))).length

/-- The outstanding-request places in use, of 8,192: those of landing requests, of global table loads, and of the engine's lines that
wait for another module or a storage peer (R277, R291, R417). -/
def outstanding (s : State) (c : Nat) : Nat :=
  landEntries s c + tablesOut s c + ((coreAt s c).b.xfQ.map (fun x => x.sent.length)).sum + (s.mod.peerReads.filter (fun r => r.core == c)).length

/-- `land`: a landing request of n bytes, whose access goes out now (R277, R278, R348). One to the core's own storages is answered at
once: a load's bytes, and the old value of an atomic that takes place in VCC order (R230). -/
def land (c : Nat) (o s : State) (dst : Dst) (ptr : Word) (l : Loc) (n due : Nat) (op : Nat → AccessOp) (held : Bool) : Except Stop State :=
  if landLimit ≤ landEntries o c ∨ 8192 ≤ outstanding o c then pauseFor 8
  else if decide (winOf ptr < 2) && !bankReady o l n then pauseWake o l n
  else
    let (id, s) := fresh s
    let local_ : Bool := match l with | .flat k => isOwnKey c k && bankReady o l n | _ => false
    let isLoad : Bool := match op id with | .load _ _ _ => true | _ => false
    let atOnce := local_ && !isLoad && decide (winOf ptr < 2) && (ownPend o c).isEmpty
    let now : Option (BitVec 1024 × Bool) :=
      if isLoad && local_ then some (vecOf (readLoc (seen o c) l n), poisoned (seen o c) l n)
      else if atOnce then (applyOp s l (op id) (putFlat l)).2 else none
    let lnd : Landing := { id := id, dst := dst, ptr := ptr, n := n, due := due, resp := now, data := none, held := held }
    let s := updRegs (if atOnce then (applyOp s l (op id) (putFlat l)).1 else s) c (fun r => { r with lands := r.lands ++ [lnd] })
    if held then holdIn c o s (.access ptr l (op id))
    else if (isLoad && local_) || atOnce then .ok s
    else .ok (post c s ptr l (op id) (ownerCtx o c) (entryNow o c (.access ptr l (op id))) (if winOf ptr < 2 then behindOwn o c else []))

/-- A store that performs as its window says (R223, R376, R380): to global space or the host window it is held in the
commit queue; to the cluster window it is posted; to the core's own storages it performs in VCC order. -/
def storeTo (c : Nat) (o s : State) (p : Word) (l : Loc) (bytes : List Byte) (mask : List Bool) : Except Stop State :=
  if isHeldWin p then
    if isProv o c && !locRetr o c l bytes.length then fltAt codeProv p
    else commit c o s (.access p l (.store bytes mask))
  else if !bankReady o l bytes.length && winOf p != 2 then pauseWake o l bytes.length
  else if winOf p = 2 then .ok (post c s p l (.store bytes mask) none (entryNow o c (.access p l (.store bytes mask))) [])
  else .ok (ownAccess c o s p l (.store bytes mask))

/-! ### Plain loads and stores (R376) -/

/-- LD. -/
def effLd (d a : BitVec 6) (z : BitVec 2) (x : BitVec 1) (i : BitVec 11) : Eff := fun c o s => do
  let n := 2 ^ z.toNat
  let p := disp_ (sReg o c a.toNat) (sx i)
  let l ← access o c p n n winLocal false
  let (bs, s) ← readOwn 1 c o s p l n
  let v := leNat bs
  .ok (resultS c d.toNat (if x = 1 then BitVec.ofInt 64 (signed (8 * n) v) else BitVec.ofNat 64 v) 4 s)

/-- ST. -/
def effSt (b a : BitVec 6) (z : BitVec 2) (i : BitVec 11) : Eff := fun c o s => do
  let n := 2 ^ z.toNat
  let p := disp_ (sReg o c a.toNat) (sx i)
  let l ← access o c p n n winAll true
  storeTo c o s p l (leBytes (sReg o c b.toNat).toNat n) (allMask n)

/-- VLD (R377). -/
def effVld (d a : BitVec 6) (i : BitVec 10) : Eff := fun c o s => do
  let p := disp_ (sReg o c a.toNat) (8 * sx i)
  let l ← access o c p 128 8 winLocal false
  let (bs, s) ← readOwn 1 c o s p l 128
  .ok (resultV c d.toNat (vecOf bs) 5 s)

/-- VST (R377). -/
def effVst (b a : BitVec 6) (k : BitVec 4) (i : BitVec 10) : Eff := fun c o s => do
  let p := disp_ (sReg o c a.toNat) (8 * sx i)
  let l ← access o c p 128 8 winAll true
  storeTo c o s p l (leBytes (vReg o c b.toNat).toNat 128)
    ((List.range 128).map (fun j => k == 0 || (kReg o c k.toNat).getLsbD j))

/-- The places of the active elements of a strided or indexed access, in element order; the first element that fails a
check gives the fault (R378). -/
def elemLocs (o : State) (c : Nat) (k : BitVec 4) (e : Fmt) (addr : Nat → Word) (wr : Bool) : List Nat → Except Stop (List (Nat × Loc))
  | [] => .ok []
  | i :: t =>
    if active o c k e.width i then do
      let l ← access o c (addr i) (e.width / 8) (e.width / 8) winLocal wr
      if !bankReady o l (e.width / 8) then pauseWake o l (e.width / 8)
      else do
        let r ← elemLocs o c k e addr wr t
        .ok ((i, l) :: r)
    else elemLocs o c k e addr wr t

/-- A gathered load: masked-off elements are written as zero (R378). -/
def gather (d : BitVec 6) (k : BitVec 4) (e : Fmt) (addr : Nat → State → Nat → Word) : Eff := fun c o s => do
  let ls ← elemLocs o c k e (fun i => addr c o i) false (List.range (lanes e))
  let n := e.width / 8
  let v := seen o c
  let bad := ls.find? (fun x => poisoned v x.2 n)
  let s := ls.foldl (fun s x => injected 1 c (coreAt o c).b.r.pc x.2 n s) (match bad with | some x => detectPtr (addr c o x.1) (coreAt s c).b.r.pc c codePoison s | none => s)
  .ok (resultV c d.toNat (ofElems e.width ((List.range (lanes e)).map (fun i =>
    match ls.find? (fun x => x.1 == i) with | some x => readNat v x.2 n | none => 0))) 5 s)

/-- The sectors of the core's own storages that an access writes element by element get good check bytes where all their bytes are
written (R256). -/
def clearWhole (ls : List Nat) (s : State) : State :=
  ((ls.map (fun k => k / 32)).eraseDups.filter (fun q => (List.range 32).all (fun i => ls.contains (32 * q + i)))).foldl
    (fun s q => { s with poison := s.poison.set false q false, wrong := s.wrong.set 0 q 0 }) s

/-- A scattered store: of two elements that name the same bytes, the one of higher number is written (R378). -/
def scatter (b : BitVec 6) (k : BitVec 4) (e : Fmt) (addr : Nat → State → Nat → Word) : Eff := fun c o s => do
  let ls ← elemLocs o c k e (fun i => addr c o i) true (List.range (lanes e))
  let n := e.width / 8
  let s := ls.foldl (fun s x => ownAccess c o s (addr c o x.1) x.2 (.store (leBytes (vElem o c b.toNat e x.1) n) (allMask n))) s
  .ok (if (ownPend o c).isEmpty then clearWhole (ls.flatMap (fun x => (List.range n).map (locKey o x.2))) s else s)

/-- Element addresses of the strided forms. -/
def strideAddr (a st : BitVec 6) (c : Nat) (o : State) (i : Nat) : Word := sReg o c a.toNat + BitVec.ofNat 64 i * sReg o c st.toNat
/-- Element addresses of the indexed forms. -/
def indexAddr (a x : BitVec 6) (e : Fmt) (c : Nat) (o : State) (i : Nat) : Word := sReg o c a.toNat + BitVec.ofNat 64 (vElem o c x.toNat e i)

/-- LDL (R379): an address checked by access, and a landing request. -/
def effLdl (d a : BitVec 6) (f : BitVec 2) (r : BitVec 12) : Eff := fun c o s => do
  let n := if f = 0 then 8 else if f = 1 then 4 else 128
  let p := sReg o c a.toNat
  let l ← access o c p n (if n = 128 then 8 else n) winAll false
  land c o s (if f = 2 then .v d.toNat else .s d.toNat) p l n ((coreAt o c).b.r.vcc + r.toNat) (fun id => .load n id (heldBytes o c l n)) false

/-! ### Atomics and reductions (R381, R382) -/

/-- The landing record kept with the checkpoint for a global atomic of the checkpoint bundle itself: present when the
bundle is issued again after a rollback (R226). -/
def keptAmo (o : State) (c n : Nat) : Option Landing :=
  match (coreAt o c).b.ckpt with
  | some k => if k.vcc = (coreAt o c).b.r.vcc ∧ k.pc = (coreAt o c).b.r.pc then (coreAt o c).b.amoKeep.find? (fun l => l.dst == .s n) else none
  | none => none

/-- A global atomic of a checkpoint bundle: issued once, its landing kept with the checkpoint; on the rerun only its value
is delivered again (R226). -/
def globalAmo (c : Nat) (o s : State) (n : Nat) (ptr : Word) (l : Loc) (size due : Nat) (op : Nat → AccessOp) (held : Bool) : Except Stop State :=
  match keptAmo o c n with
  | some k => .ok (updRegs s c (fun r => { r with lands := r.lands ++ [k] }))
  | none => do
    let s ← land c o s (.s n) ptr l size due op held
    .ok (updBody s c (fun b => { b with amoKeep := b.amoKeep ++ b.r.lands.drop (b.r.lands.length - 1) }))

/-- AMO (R382). -/
def effAmo (opc : Nat) (d a : BitVec 6) (w : BitVec 1) (q : BitVec 9) : Eff := fun c o s => do
  let w8 := w == 1
  let n := if w8 then 8 else 4
  let p := sReg o c a.toNat
  let l ← access o c p n n winAtomic true
  if winOf p = 8 ∧ !(coreAt o c).b.hdrCkpt then flt codeIllegal
  else
    let held := winOf p == 8 && isProv o c && !locRetr o c l n
    let op := fun id => AccessOp.amo opc w8 (sReg o c d.toNat) id
    let due := (coreAt o c).b.r.vcc + 8 * q.toNat
    if winOf p = 8 then globalAmo c o s d.toNat p l n due op held else land c o s (.s d.toNat) p l n due op held

/-- CAS (R382). -/
def effCas (d a : BitVec 6) (w : BitVec 1) (r : BitVec 12) : Eff := fun c o s => do
  let w8 := w == 1
  let n := if w8 then 8 else 4
  let p := sReg o c a.toNat
  let l ← access o c p n n winAtomic true
  if winOf p = 8 ∧ !(coreAt o c).b.hdrCkpt then flt codeIllegal
  else
    let held := winOf p == 8 && isProv o c && !locRetr o c l n
    let op := fun id => AccessOp.cas w8 (sReg o c d.toNat) (sReg o c (d.toNat + 1)) id
    let due := (coreAt o c).b.r.vcc + r.toNat
    if winOf p = 8 then globalAmo c o s d.toNat p l n due op held else land c o s (.s d.toNat) p l n due op held

/-- RED (R382): to global space it is held; through the cluster window it is posted to the bank's port; to the core's own scratchpad it
performs in VCC order. -/
def effRed (opc : Nat) (a b : BitVec 6) (w : BitVec 1) : Eff := fun c o s => do
  let w8 := w == 1
  let n := if w8 then 8 else 4
  let p := sReg o c a.toNat
  let l ← access o c p n n winAtomic true
  let op : AccessOp := .red opc w8 (sReg o c b.toNat)
  if winOf p = 8 then
    if isProv o c && !locRetr o c l n then holdIn c o s (.access p l op) else commit c o s (.access p l op)
  else if !bankReady o l n && winOf p != 2 then pauseWake o l n
  else if winOf p = 2 then .ok (post c s p l op none (entryNow o c (.access p l op)) [])
  else .ok (ownAccess c o s p l op)

/-! ### Release, acquire and the Hinge (R383, R384) -/

/-- LD.ACQ (R383): pauses with code 10 until the value can be read, and reads it. A bank of the core's own scratchpad that is not READY
pauses with code 2, and a bank that is gated begins its wake either way (R27). -/
def effLdAcq (d a : BitVec 6) (z : BitVec 1) (_sc : BitVec 3) : Eff := fun c o s => do
  let n := if z = 1 then 8 else 4
  let p := sReg o c a.toNat
  let l ← access o c p n n winAtomic false
  need (!locGone o l) codeDieLost p
  if !bankReady o l n then .error (.pause (if winOf p = 2 then 10 else 2) (unready o l n))
  else if pendingTo o c l n then pauseFor 10
  else
    let bs := overlay o c l n
    let s := acqRead c l n s
    let s := if poisonBeyond o l n (heldBytes o c l n) then detectPtr p (coreAt s c).b.r.pc c codePoison s else s
    .ok (resultS c d.toNat (BitVec.ofNat 64 (leNat bs)) 1 s)

/-- The number by which an access waits for the entries its core holds as it issues: it tells how many of them there are (R233). -/
def heldId (s : State) (c : Nat) : List Nat :=
  let n := ((coreAt s c).b.commitQ.filter (fun e => match e.body with | .barrier _ => false | _ => true)).length
  if n = 0 then [] else [2 ^ 61 + c * 1024 + n]

/-- ST.REL (R383): held to global space and the host window; elsewhere posted behind every earlier access, those still held
included (R233). -/
def effStRel (b a : BitVec 6) (z : BitVec 1) (sc : BitVec 3) : Eff := fun c o s => do
  let n := if z = 1 then 8 else 4
  let p := sReg o c a.toNat
  let l ← access o c p n n winRelease true
  let op : AccessOp := .store (leBytes (sReg o c b.toNat).toNat n) (allMask n)
  if isHeldWin p then
    if isProv o c && !locRetr o c l n then fltAt codeProv p
    else commit c o s (.rel sc.toNat p l op)
  else .ok (post c s p l op none (entryNow o c (.rel sc.toNat p l op)) ((coreAt s c).out ++ heldId s c))

/-- No provisional task hands over or acquires (R164, R241, R242). -/
def notProv (o : State) (c : Nat) (p : Word) : Except Stop Unit := need (!isProv o c) codeProv p

/-- The flag and chain word of a HINGE.REL (R241). -/
def hingeOf (p w v : Word) : HingeRel :=
  { flagH := fieldW p 40 23, flagO := fieldW p 0 40, value := v, head := fieldW w 0 23, count := fieldW w 24 8 + 1,
    newown := fieldW w 32 6 }

/-- HINGE.REL (R241, R384). -/
def effHingeRel (x a b : BitVec 6) : Eff := fun c o s => do
  let p := sReg o c a.toNat
  let w := sReg o c x.toNat
  need (bitAt w.toNat 23 == false && fieldW w 38 26 == 0) codeBounds p
  let _ ← access o c p 8 8 winGlobal true
  need ((ctx o (fieldW w 32 6)).part.toNat == taskPart o c) codePrivilege p
  notProv o c p
  commit c o s (.hinge p (hingeOf p w (sReg o c b.toNat)))

/-- HINGE.ACQ (R242, R384): pauses with code 10 until the flag is at least s[B]; the read that ends the pause is an LD.ACQ's, and
consumes poison as one does (R256). -/
def effHingeAcq (d a b : BitVec 6) : Eff := fun c o s => do
  let p := sReg o c a.toNat
  let l ← access o c p 8 8 winGlobal true
  notProv o c p
  need (!locGone o l) codeDieLost p
  let v := leNat (overlay o c l 8)
  if pendingTo o c l 8 then pauseFor 10
  else if v < (sReg o c b.toNat).toNat then pauseFor 10
  else
    let s := acqRead c l 8 s
    let s := if poisonBeyond o l 8 (heldBytes o c l 8) then detectPtr p (coreAt s c).b.r.pc c codePoison s else s
    .ok (resultS c d.toNat (BitVec.ofNat 64 v) 1 s)

/-! ### Buffers, sync words, spill slots and prefetch (R385-R388) -/

/-- Give a buffer-table entry to a new owner (R211). -/
def giveBuf (s : State) (hold idx own : Nat) : State :=
  updRegs s hold (fun r => { r with bufs := r.bufs.upd 0 idx (fun e => BitVec.ofNat 64 (withBits e.toNat 1 2 own)) })

/-- BGIVE (R211, R385): held in the commit queue for a core-granular task; in a lockstep group it is executed once, by
the entry's owner. -/
def effBgive (h : BitVec 2) (i : BitVec 4) (n : BitVec 2) : Eff := fun c o s =>
  let hold := clusterCore (coreCluster c) h.toNat
  let e := (coreAt o hold).b.r.bufs.get 0 i.toNat
  if bitAt e.toNat 0 = false then flt codeBuf
  else if isGroup o c then
    if fieldW e 1 2 = coreCic c then
      .ok (updRegs s hold (fun r => { r with res := r.res ++ [{ dst := .buf i.toNat, val := BitVec.ofNat 1024 n.toNat, due := (coreAt o c).b.r.vcc + 2 }] }))
    else .ok s
  else if fieldW e 1 2 ≠ coreCic c then flt codeBuf
  else commit c o s (.bgive hold i.toNat n.toNat)

/-- SYNCARM (R214, R386): TARGET and COUNT are written in one step and GEN is left. -/
def effSyncarm (a b : BitVec 6) : Eff := fun c o s => do
  let p := sReg o c a.toNat
  let l ← access o c p 16 16 winSync true
  notProv o c p
  let bs := leBytes ((sReg o c b.toNat).toNat % 2 ^ 32) 8
  if winOf p = 2 then .ok (post c s p l (.store bs (allMask 8)) none (entryNow o c (.access p l (.store bs (allMask 8)))) [])
  else if !bankReady o l 8 then pauseWake o l 8
  else .ok (ownAccess c o s p l (.store bs (allMask 8)))

/-- The accumulator element and column of word `i` of a spill slot (R284). -/
def spillElem (slot i : Nat) : Nat := slot / 512 * 16384 + (32 * (slot % 4) + i) * 128 + slot / 4 % 128

/-- The data of a spill slot: 32 mantissa words (R284). -/
def spillRead (s : State) (c slot : Nat) : Vec :=
  BitVec.ofNat 1024 (packElems 32 ((List.range 32).map (fun i => ((coreAt s c).b.acc.get 0 (spillElem slot i)).toNat % 2 ^ 32)))

/-- The queued commands' accumulator regions, as bank, first row, rows, first column, columns (R387): for a ragged routine
the rows of its groups; for a joint command the part in the core's own quadrant; none for MXJOIN, MXPART and MXUCW. -/
def regionOf (c : Nat) (m : MxCmd) : Option (Nat × Nat × Nat × Nat × Nat) :=
  let ms0 := nthD m.snap 8 0
  let ms1 := nthD m.snap 9 0
  let ms2 := nthD m.snap 10 0
  let ms3 := nthD m.snap 11 0
  if m.op = 2 ∨ m.op = 3 ∨ m.op = 9 then none
  else
    let g := if fieldW ms2 0 4 = 0 then 1 else fieldW ms2 0 4
    let rows := if m.op = 1 ∧ fieldW ms3 0 6 = 3 then
        ((List.range g).map (fun i => fieldW (nthD m.snap 6 0) (8 * i) 8)).sum else fieldW ms0 0 16
    let cols := fieldW ms0 16 16
    let bank := fieldW ms1 16 1
    if m.op = 1 ∧ bitAt ms1.toNat 19 then
      let q := coreCic c
      let r0 := 128 * (q / 2)
      let c0 := 128 * (q % 2)
      some (bank, 0, Nat.min 128 (rows - r0), 0, Nat.min 128 (cols - c0))
    else some (bank, fieldW ms1 0 8, rows, fieldW ms1 8 8, cols)

/-- Whether a spill slot lies in a region: whether any of its 32 rows does (R387). -/
def slotIn (slot : Nat) (r : Nat × Nat × Nat × Nat × Nat) : Bool :=
  slot / 512 == r.1 && decide (r.2.2.2.1 ≤ slot / 4 % 128) && decide (slot / 4 % 128 < r.2.2.2.1 + r.2.2.2.2) &&
    decide (r.2.1 < 32 * (slot % 4) + 32) && decide (32 * (slot % 4) < r.2.1 + r.2.2.1)

/-- Whether a spill slot lies in the region of an MX command that has not ended. -/
def slotBusy (s : State) (c slot : Nat) : Bool :=
  (coreAt s c).b.mxQ.any (fun m => match regionOf c m with | some r => slotIn slot r | none => false)

/-- Write the mantissa words of a spill slot, guard words untouched, and set its map bit (R284, R387). -/
def spillWrite (b : Body) (slot : Nat) (x : Vec) : Body :=
  { b with
    acc := (List.range 32).foldl (fun t i =>
      t.upd 0 (spillElem slot i) (fun a => BitVec.ofNat 40 (withBits a.toNat 0 32 (elem x.toNat 32 i)))) b.acc,
    r := { b.r with spill := b.r.spill ||| (1#1024 <<< slot) } }

/-- SPILL (R387). -/
def effSpill (b : BitVec 6) (v : BitVec 1) (j : BitVec 10) : Eff := fun c o s =>
  if slotBusy o c j.toNat then flt codeMxBank
  else .ok (updBody s c (fun k => spillWrite k j.toNat (if v = 1 then vReg o c b.toNat else (sReg o c b.toNat).setWidth 1024)))

/-- FILL (R387). -/
def effFill (d : BitVec 6) (v : BitVec 1) (j : BitVec 10) : Eff := fun c o s =>
  if slotBusy o c j.toNat then flt codeMxBank
  else
    let x := spillRead o c j.toNat
    .ok (if v = 1 then resultV c d.toNat x 3 s else resultS c d.toNat (x.setWidth 64) 3 s)

/-- Set the expected read count of a line (R218): a dirty line is left, and a plain prefetch leaves a count as it is. The entry holds one
more than the count. -/
def prefLine (s : State) (die h o n : Nat) : State :=
  if n = 0 ∨ s.l2Dirty.get false (l2Key die h o) then s else { s with l2 := s.l2.set 0 (l2Key die h o) (n + 1) }

/-- PREF (R218, R388): only a global pointer that passes the range map has an effect. -/
def effPref (a : BitVec 6) (n : BitVec 4) : Eff := fun c o s =>
  let p := sReg o c a.toNat
  if winOf p = 8 ∧ (rangeMap o c (fieldW p 40 23) (fieldW p 0 40) 1 false).isNone then
    .ok (prefLine s (coreDie c) (fieldW p 40 23) (fieldW p 0 40) n.toNat)
  else .ok s

end Sys2Proof.Machine
end

