-- ==== Sys2Proof/Machine/Scalar.lean ====
section
/-!
DEFINITION. Sys2Proof/Machine/Scalar.lean: the effects of the S0 and S1 instructions (R364-R373).
-/

namespace Sys2Proof.Machine

/-- The scalar functions of R101 and R365. -/
def fnAdd (a b : Word) : Word := a + b
def fnSub (a b : Word) : Word := a - b
def fnMul (a b : Word) : Word := a * b
def fnMulhu (a b : Word) : Word := BitVec.ofNat 64 (a.toNat * b.toNat / 2 ^ 64)
def fnMulh (a b : Word) : Word := BitVec.ofInt 64 (a.toInt * b.toInt / 2 ^ 64)
def fnAnd (a b : Word) : Word := a &&& b
def fnOr (a b : Word) : Word := a ||| b
def fnXor (a b : Word) : Word := a ^^^ b
def fnShl (a b : Word) : Word := a <<< (b.toNat % 64)
def fnShr (a b : Word) : Word := a >>> (b.toNat % 64)
def fnSar (a b : Word) : Word := a.sshiftRight (b.toNat % 64)
def fnSlt (a b : Word) : Word := if a.slt b then 1 else 0
def fnSltu (a b : Word) : Word := if a.ult b then 1 else 0
def fnSeq (a b : Word) : Word := if a = b then 1 else 0
def fnMin (a b : Word) : Word := if b.slt a then b else a
def fnMax (a b : Word) : Word := if a.slt b then b else a
def fnMinu (a b : Word) : Word := if b.ult a then b else a
def fnMaxu (a b : Word) : Word := if a.ult b then b else a
def fnClmul (a b : Word) : Word := BitVec.ofNat 64 (clmulN a.toNat b.toNat 64)
def fnClmulh (a b : Word) : Word := BitVec.ofNat 64 (clmulN a.toNat b.toNat 64 / 2 ^ 64)
def fnClz (a : Word) : Word := if a = 0 then 64 else BitVec.ofNat 64 (63 - topBit a.toNat)
def fnCtz (a : Word) : Word := BitVec.ofNat 64 (ctzN a.toNat 0 64)
def fnPopc (a : Word) : Word := BitVec.ofNat 64 (popN a.toNat 64)

/-- A register-register form: s[D] := f(s[A], s[B]) (R365, R367). -/
def effBin (f : Word → Word → Word) (lat : Nat) (d a b : BitVec 6) : Eff := fun c o s =>
  .ok (resultS c d.toNat (f (sReg o c a.toNat) (sReg o c b.toNat)) lat s)

/-- An immediate form: s[D] := f(s[A], sext(IMM, 14)) (R366). -/
def effImm (f : Word → Word → Word) (d a : BitVec 6) (i : BitVec 14) : Eff := fun c o s =>
  .ok (resultS c d.toNat (f (sReg o c a.toNat) (sx i)) 1 s)

/-- A shift by an immediate (R366). -/
def effShi (f : Word → Word → Word) (d a i : BitVec 6) : Eff := fun c o s =>
  .ok (resultS c d.toNat (f (sReg o c a.toNat) (i.setWidth 64)) 1 s)

/-- A one-operand form (R368). -/
def effUn (f : Word → Word) (d a : BitVec 6) : Eff := fun c o s => .ok (resultS c d.toNat (f (sReg o c a.toNat)) 1 s)

/-- SEL (R368). -/
def effSel (d a b x : BitVec 6) : Eff := fun c o s =>
  .ok (resultS c d.toNat (if sReg o c x.toNat = 0 then sReg o c b.toNat else sReg o c a.toNat) 1 s)

/-- MOVI (R368). -/
def effMovi (d : BitVec 6) (i : BitVec 20) : Eff := fun c _ s => .ok (resultS c d.toNat (sx i) 1 s)

/-- MOVHI (R368). -/
def effMovhi (d : BitVec 6) (p : BitVec 2) (i : BitVec 16) : Eff := fun c o s =>
  .ok (resultS c d.toNat (BitVec.ofNat 64 (withBits (sReg o c d.toNat).toNat (16 * p.toNat) 16 i.toNat)) 1 s)

/-- The flags SPTEST returns for a pointer (R369): each is one check of a one-byte load. -/
def sptest (s : State) (c : Nat) (p : Word) : Nat :=
  let x := p.toNat
  let w := winOf p
  let slot := match taskOf s c with | some t => t.slot | none => 0
  let flag := fun (b : Bool) (i : Nat) => if b then 2 ^ i else 0
  let hold := if w = 1 then bitsOf x 51 9 else clusterCore (coreCluster c) (bitsOf x 22 2)
  w + flag (w == 3 || w == 5 || w == 6 || w == 7) 4
    + flag ((w == 0 && !(bitsOf x 51 9 == c && bitsOf x 46 5 == slot)) || (w == 1 && bitsOf x 51 9 != c)) 5
    + flag ((w == 1 && bitsOf x 22 29 != 0) || (w == 2 && bitsOf x 24 36 != 0)) 6
    + flag ((w == 0 && decide (0x4000 ≤ bitsOf x 0 46)) || ((w == 1 || w == 2) && decide (0x380000 ≤ bitsOf x 0 22))) 7
    + flag ((w == 1 || w == 2) && owned s hold (bitsOf x 0 22) 1 (coreCic c)) 8
    + flag (w == 8 && !(taskOps s c).any (fun q => opHandle q == bitsOf x 40 23)) 9
    + flag (w == 4 && (routeFor s (taskPart s c) (bitsOf x 0 60) 1).isNone) 10

/-- SPTEST (R369). -/
def effSptest (d a : BitVec 6) : Eff := fun c o s =>
  .ok (resultS c d.toNat (BitVec.ofNat 64 (sptest o c (sReg o c a.toNat))) 1 s)

/-- The pointer SPCAST.SP gives (R370). -/
def spcastSp (c : Nat) (p : Word) : Word :=
  let x := p.toNat
  if bitsOf x 60 4 = 1 then p
  else if bitsOf x 60 4 = 2 ∧ bitsOf x 24 36 = 0 then
    BitVec.ofNat 64 (2 ^ 60 + (c / 4 * 4 + bitsOf x 22 2) * 2 ^ 51 + bitsOf x 0 22)
  else ptrInvalid

/-- The pointer SPCAST.CL gives (R370). -/
def spcastCl (c : Nat) (p : Word) : Word :=
  let x := p.toNat
  if bitsOf x 60 4 = 2 then p
  else if bitsOf x 60 4 = 1 ∧ bitsOf x 22 29 = 0 ∧ bitsOf x 53 7 = c / 4 then
    BitVec.ofNat 64 (2 * 2 ^ 60 + bitsOf x 51 2 * 2 ^ 22 + bitsOf x 0 22)
  else ptrInvalid

/-- SPCAST.SP and SPCAST.CL (R370). -/
def effSpcast (cl : Bool) (d a : BitVec 6) : Eff := fun c o s =>
  .ok (resultS c d.toNat (if cl then spcastCl c (sReg o c a.toNat) else spcastSp c (sReg o c a.toNat)) 1 s)

/-- GPTR and GPTR.H (R371). -/
def effGptr (h : Bool) (d a b : BitVec 6) : Eff := fun c o s =>
  let p := sReg o c a.toNat
  let q := sReg o c b.toNat
  let hd := if h then fieldW p 0 23 else fieldW p 40 23
  if fieldW q 40 24 ≠ 0 ∨ (h = false ∧ bitAt p.toNat 63 = false) then .ok (resultS c d.toNat ptrInvalid 1 s)
  else if (taskOps o c).any (fun x => opHandle x == hd) then
    .ok (resultS c d.toNat (BitVec.ofNat 64 (2 ^ 63 + hd * 2 ^ 40 + fieldW q 0 40)) 1 s)
  else flt codeUndeclared

/-- The width of a pointer's offset field; zero for a reserved window (R372). -/
def offWidth (p : Word) : Nat :=
  match winOf p with
  | 0 => 46 | 1 => 22 | 2 => 22 | 4 => 60 | 8 => 40 | _ => 0

/-- PADD's result (R372). -/
def padd (p q : Word) : Word :=
  let w := offWidth p
  let sum : Int := (fieldW p 0 w : Int) + q.toInt
  if w = 0 ∨ sum < 0 ∨ 2 ^ w ≤ sum then ptrInvalid else BitVec.ofNat 64 (withBits p.toNat 0 w sum.toNat)

/-- PADD (R372). -/
def effPadd (d a b : BitVec 6) : Eff := effBin padd 1 d a b

/-- STG: a part of a copy-engine staging shadow (R340, R373). -/
def effStg (r p : BitVec 3) (a : BitVec 6) : Eff := fun c o s =>
  .ok (result c (.shX r.toNat p.toNat) ((sReg o c a.toNat).setWidth 1024) 1 s)

/-- SHF: a part of a shape shadow, xs0-xs3 for 0-3 and ms0-ms3 for 4-7 (R340). -/
def effShf (r p : BitVec 3) (a : BitVec 6) : Eff := fun c o s =>
  .ok (result c (if r.toNat < 4 then .shX (8 + r.toNat) p.toNat else .shM (8 + (r.toNat - 4)) p.toNat)
    ((sReg o c a.toNat).setWidth 1024) 1 s)

/-- MPW: a part of a matrix parameter shadow (R340, R373). -/
def effMpw (r p : BitVec 3) (a : BitVec 6) : Eff := fun c o s =>
  .ok (result c (.shM r.toNat p.toNat) ((sReg o c a.toNat).setWidth 1024) 1 s)

end Sys2Proof.Machine
end

