-- ==== Sys2Proof/Machine/Control.lean ====
section
/-!
DEFINITION. Sys2Proof/Machine/Control.lean: the effects of the CTL instructions (R352-R363).

`c` is the core whose registers the slot reads: core-in-cluster 0 of a lockstep group (R350). What a CTL instruction
writes goes to every core of the group; the shared operations here name the core they act on.
-/

namespace Sys2Proof.Machine

/-- The same change on every core of a list. -/
def onCores (f : Nat → State → State) (l : List Nat) (s : State) : State := l.foldl (fun s c => f c s) s

/-- BR (R353). -/
def effBr (i : BitVec 26) : Eff := fun c o s => transfer c o s (codeaddr o c (sx i))

/-- BRZ and BRNZ (R353). -/
def effBrz (nz : Bool) (a : BitVec 6) (i : BitVec 20) : Eff := fun c o s =>
  if (sReg o c a.toNat == 0) != nz then transfer c o s (codeaddr o c (sx i)) else .ok s

/-- Set a loop counter on every core of the group (R354). -/
def setLoop (lc1 : Bool) (l : LoopCtr) (r : Regs) : Regs := if lc1 then { r with lc1 := l } else { r with lc0 := l }
/-- A loop counter. -/
def getLoop (lc1 : Bool) (r : Regs) : LoopCtr := if lc1 then r.lc1 else r.lc0

/-- LOOP with a count (R354): an END of zero is refused; a zero count skips the body. -/
def loopWith (c : Nat) (o s : State) (lc1 : Bool) (n : Nat) (e : BitVec 12) : Except Stop State :=
  let t := codeaddr o c (e.setWidth 64)
  if e = 0 ∨ !isCodeAddr o c t then flt codeIllegal
  else if n = 0 then
    transfer c o (onCores (fun q s => updRegs s q (fun r => setLoop lc1 { getLoop lc1 r with count := 0 } r)) (groupOf o c) s) (after o c t)
  else
    .ok (onCores (fun q s => updRegs s q (setLoop lc1 { count := BitVec.ofNat 32 n, start := nextpc o c, stop := some t })) (groupOf o c) s)

/-- LOOP lcn, #count, label. -/
def effLoop (l : BitVec 1) (n e : BitVec 12) : Eff := fun c o s => loopWith c o s (l == 1) n.toNat e
/-- LOOP lcn, sa, label. -/
def effLoopReg (l : BitVec 1) (a : BitVec 6) (e : BitVec 12) : Eff := fun c o s => loopWith c o s (l == 1) ((sReg o c a.toNat).toNat % 2 ^ 32) e

/-- A CTL result goes to every core of the group (R273). -/
def resultAll (c : Nat) (o : State) (n : Nat) (x : Word) (lat : Nat) (s : State) : State :=
  onCores (fun q s => resultS q n x lat s) (groupOf o c) s

/-- CALL (R353). -/
def effCall (d : BitVec 6) (i : BitVec 20) : Eff := fun c o s =>
  transfer c o (resultAll c o d.toNat (nextpc o c) 1 s) (codeaddr o c (sx i))
/-- CALLR (R353). -/
def effCallr (d a : BitVec 6) : Eff := fun c o s =>
  transfer c o (resultAll c o d.toNat (nextpc o c) 1 s) (sReg o c a.toNat)
/-- RET (R353). -/
def effRet (a : BitVec 6) : Eff := fun c o s => transfer c o s (sReg o c a.toNat)

/-- The tokens of a core whose commands have not ended, those of held XSTOREs left out (R356). -/
def liveToks (s : State) (c : Nat) : List Nat :=
  let held := (coreAt s c).b.commitQ.filterMap (fun e => match e.body with | .xstore t => some t | _ => none)
  (List.range 64).filter (fun t => (tokRec s c t).used && (tokRec s c t).status == .pending && !held.contains t)

/-- The lowest token of a core that ended FAULT and that no WAITT consumed (R248). -/
def faultTok (s : State) (c : Nat) : Option Nat :=
  (List.range 64).find? (fun t => (tokRec s c t).used && (tokRec s c t).status == .fault && !(tokRec s c t).taken)

/-- TEND (R356): the task enters step 1; the steps follow in `tendGo` once the bundle's other slots have issued. -/
def effTend : Eff := fun c o s =>
  .ok (onCores (fun q s => updBody s q (fun b => { b with task := b.task.map (fun t => { t with stage := .tend 1 }), tendRegs := some (coreAt o q).b.r })) (groupOf o c) s)

/-- TRAP (R357): the fault TRAP with the immediate as its address. -/
def effTrap (i : BitVec 20) : Eff := fun _ _ _ => fltAt codeTrap (i.setWidth 64)

/-- ERET and ERET.SKIP (R246, R357): outside a handler they are refused; a DEFERRED_STORE resumes at the boundary it was
taken at in both forms. -/
def effEret (skip : Bool) : Eff := fun c o s =>
  let b := (coreAt o c).b
  if !b.inHandler then flt codeIllegal
  else
    let deferred := fieldW b.fltstat 0 8 == codeDeferred.toNat
    let t := if skip && !deferred then after o c b.fltpc else b.resumePc
    .ok (onCores (fun q s => updBody s q (leaveHandler t)) (groupOf o c) s)

/-- The tokens a T word names (R339): T0 always, T1 and T2 when they differ from it. -/
def waitToks (x y z : BitVec 6) : List Nat := x.toNat :: ((if y = x then [] else [y.toNat]) ++ (if z = x then [] else [z.toNat]))

/-- WAITT (R248, R358): on all cores of a group (R350). -/
def effWaitt (x y z : BitVec 6) : Eff := fun c o s =>
  let ts := waitToks x y z
  let g := groupOf o c
  if g.any (fun q => ts.any (fun t => (tokRec o q t).used && (tokRec o q t).status == .pending)) then pauseFor 4
  else
    match ((List.range 64).flatMap (fun t => (g.filter (fun q => ts.contains t && (tokRec o q t).used && (tokRec o q t).status == .fault)).map (fun q => (q, t)))).head? with
    | some (q, t) => .error (.fault (tokRec o q t).code 0 (some (q, t, true)))
    | none => .ok s

/-- WAITG (R216, R358): pauses with code 5 while GEN equals the value given, and with code 2 while its bank wakes (R27). -/
def effWaitg (a b : BitVec 6) : Eff := fun c o s => do
  let l ← access o c (sReg o c a.toNat) 16 16 winSync false
  if !bankReady o l 16 then pauseWake o l 16
  else if pendingTo o c l 16 then pauseFor 5
  else if readNat o l 16 / 2 ^ 64 % 2 ^ 32 = (sReg o c b.toNat).toNat % 2 ^ 32 then pauseFor 5 else .ok s

/-- The accesses of a core that have left the commit queue and have not performed: one that waits for entries still held counts among
those (R223, R235). -/
def outLive (s : State) (c : Nat) : List Nat :=
  (coreAt s c).out.filter (fun i => !s.packets.any (fun p => p.id == i && p.after.any (fun j => decide (2 ^ 61 ≤ j))))

/-- Whether every access of a core that has left the commit queue has performed (R235). -/
def allPerformed (s : State) (c : Nat) : Bool := outLive s c == [] && (coreAt s c).b.r.lands.all (fun l => l.resp.isSome || l.data.isSome)

/-- DRAIN (R235, R359): pauses with code 11 until every access of the group not held has performed and every engine
command has ended, and puts a barrier into the commit queue. -/
def effDrain (sc : BitVec 3) : Eff := fun c o s =>
  let g := groupOf o c
  if g.all (fun q => allPerformed o q && liveToks o q == []) then
    .ok (onCores (fun q s => updBody s q (fun b => if b.commitQ = [] then b
      else { b with commitQ := b.commitQ ++ [{ body := .barrier sc.toNat, pc := b.r.pc, vcc := b.r.vcc }] })) g s)
  else pauseFor 11

/-- Drop the cached leaf entries of the dies a scope covers (R178, R359). -/
def dropTlb (s : State) (dies : List Nat) : State := { s with tlb := s.tlb.keep (fun k _ => !dies.contains (k % 2 ^ 36 / 2 ^ 33)) }

/-- The dies that hold a cluster of a partition. -/
def partDies (s : State) (part : Nat) : List Nat :=
  (List.range 8).filter (fun d => (List.range 80).any (fun i =>
    let e := (s.maps.get 0 (part * 80 + i)).toNat
    bitAt e 7 && e % 128 / 16 == d))

/-- FENCE.T (R178, R359): only in a checkpoint bundle; waits until the core's page-table stores have performed, then drops
the entries cached within the scope. -/
def effFenceT (sc : BitVec 3) : Eff := fun c o s =>
  if !(coreAt o c).b.hdrCkpt then flt codeIllegal
  else if !(groupOf o c).all (fun q => allPerformed o q) then pauseFor 11
  else .ok (dropTlb s (if sc = 2 then [coreDie c] else if sc = 3 then partDies o (taskPart o c) else List.range 8))

/-- FENCE.SV (R238, R359): pauses with code 11 until the parity of the covered writes has been performed at the die-level
holders, and at level MODULE at the module-level holders as well. -/
def effFenceSv (module : Bool) : Eff := fun c o s =>
  let g := groupOf o c
  if !g.all (fun q => outLive o q == []) then pauseFor 11
  else if (o.packets.any (fun p => match p.body with | .delta _ _ _ => g.contains p.core && p.lane == 3 | _ => false)) && !(o.degraded && o.mod.db.pendLoss == []) then pauseFor 11
  else if module && o.packets.any (fun p => match p.body with | .delta _ _ _ => g.contains p.core && p.lane == 4 | _ => false) then pauseFor 11
  else .ok s

/-- The end of a segment on one core: the next one begins, a failed check is recorded, and a passed one restarts the
segment count of a persistent task (R158, R255). -/
def segEnd (pass : Bool) (seg : Seg) (clk : Nat) (b : Body) : Body :=
  let r := { b.r with seg := seg }
  if pass then
    { b with r := r, task := b.task.map (fun t => if t.persist then { t with start := clk, excl := 0 } else t) }
  else { b with r := r, detected := some (b.detected.getD (codeSegMismatch, b.r.pc, 0)) }

/-- SEGCHK (R255, R360): a failing check is the detected error SEG_MISMATCH; a passing one restarts a persistent task's
segment count. The next segment begins after this bundle. -/
def effSegchk (i : BitVec 12) : Eff := fun c o s => do
  let k ← constEntry o c i.toNat
  if bitsOf k 50 14 ≠ 0 ∨ bitsOf k 96 32 ≠ 0 then flt codeIllegal
  else
    let b := (coreAt o c).b
    let n := b.r.vcc - b.r.seg.vcc0
    let pass := (if bitAt k 48 then decide (n ≤ bitsOf k 0 48) else n == bitsOf k 0 48) &&
      (!bitAt k 49 || b.r.seg.crc.toNat == bitsOf k 64 32)
    let seg : Seg := { vcc0 := b.r.vcc + 1 + b.hdrIdle, crc := 0 }
    .ok (onCores (fun q s => updBody s q (segEnd pass seg o.clk)) (groupOf o c) s)

/-! ### System registers (R361) -/

/-- COREID (R282). -/
def coreIdReg (s : State) (c : Nat) : Word :=
  BitVec.ofNat 64 (c % 512 + coreCluster c % 128 * 2 ^ 9 + coreCic c * 2 ^ 16 + (if isGroup s c then 2 ^ 18 else 0) +
    (match taskOf s c with | some t => t.slot % 32 * 2 ^ 19 | none => 0))

/-- The first word of a token record (R247). -/
def tokWord0 (t : TokenRec) : Word :=
  BitVec.ofNat 64 ((match t.status with | .pending => 0 | .done => 1 | .part => 2 | .fault => 3) + t.code.toNat * 2 ^ 2 +
    (if t.short then 2 ^ 10 else 0) + (if t.tout then 2 ^ 11 else 0) + t.engine.toNat * 2 ^ 12 + t.progress.toNat * 2 ^ 16)

/-- SPGATE as it reads (R26). -/
def spgateReg (s : State) (c : Nat) : Word := BitVec.ofNat 64 ((coreAt s c).gate.toNat + (coreAt s c).ready.toNat * 2 ^ 32)

/-- The system register at an index, none where the index names none (R361). -/
def sysReg (s : State) (c i : Nat) : Option Word :=
  let b := (coreAt s c).b
  if i = 0 then some (coreIdReg s c)
  else if i = 1 then some (BitVec.ofNat 64 (b.r.vcc % 2 ^ 48))
  else if i = 2 then some (BitVec.ofNat 64 (b.pauseCnt.toNat + b.lastPause.toNat * 2 ^ 48))
  else if 0x10 ≤ i ∧ i ≤ 0x1F then some (BitVec.ofNat 64 (bitsOf b.r.spill.toNat (64 * (i - 0x10)) 64))
  else if i = 0x20 then some b.fltstat
  else if i = 0x21 then some b.fltpc
  else if i = 0x22 then some (b.fltvcc.setWidth 64)
  else if i = 0x23 then some b.fltaddr
  else if i = 0x24 then some b.trapvec
  else if i = 0x30 then some (b.tksel.setWidth 64)
  else if 0x31 ≤ i ∧ i ≤ 0x3F then
    let t := tokRec s c b.tksel.toNat
    some (if i = 0x31 then tokWord0 t else if i = 0x32 then t.pc else if i = 0x33 then t.vcc.setWidth 64 else nthD t.snap (i - 0x34) 0)
  else if i = 0x40 then some b.numstat
  else if i = 0x48 then some (b.r.lc0.count.setWidth 64)
  else if i = 0x49 then some (b.r.lc1.count.setWidth 64)
  else if 0x50 ≤ i ∧ i ≤ 0x5F then some (b.r.bufs.get 0 (i - 0x50))
  else if i = 0x60 then some (spgateReg s c)
  else if i = 0x61 then some (coreAt s c).spstat
  else none

/-- SYSR (R350, R361): each core of a group reads its own register. Any task reads SPGATE: the spec raises PRIVILEGE for SYSW only (DESIGN
CHOICE, assumption 95). -/
def effSysr (d : BitVec 6) (i : BitVec 12) : Eff := fun c o s =>
  match sysReg o c i.toNat with
  | none => flt codeIllegal
  | some _ =>
    .ok (onCores (fun q s => resultS q d.toNat ((sysReg o q i.toNat).getD 0) 2 s) (groupOf o c) s)

/-- NUMSTAT after a write (R303): sticky bits clear where a 1 is written, NANCNT is written. -/
def numstatWrite (old x : Word) : Word :=
  BitVec.ofNat 64 (Nat.land (fieldW old 0 8) (255 - fieldW x 0 8) + fieldW x 16 16 * 2 ^ 16)

/-- Whether two buffer entries name a common byte (R210). -/
def bufOverlap (a b : Word) : Bool :=
  bitAt b.toNat 0 && decide (fieldW a 7 15 < fieldW b 7 15 + fieldW b 32 15) && decide (fieldW b 7 15 < fieldW a 7 15 + fieldW a 32 15)

/-- The fault a write of a buffer-table entry raises, if any (R210). -/
def bufRefuse (s : State) (c i : Nat) (x : Word) : Option (BitVec 8) :=
  let old := (coreAt s c).b.r.bufs.get 0 i
  if bitAt old.toNat 0 ∧ fieldW old 1 2 ≠ coreCic c then some codePrivilege
  else if bitAt x.toNat 0 ∧ fieldW x 1 2 ≠ coreCic c then some codePrivilege
  else if bitAt x.toNat 0 ∧ (fieldW x 32 15 = 0 ∨ 28672 < fieldW x 7 15 + fieldW x 32 15 ∨
      (List.range 16).any (fun j => j != i && bufOverlap x ((coreAt s c).b.r.bufs.get 0 j))) then some codeBounds
  else if fieldW x 3 4 ≠ 0 ∨ fieldW x 22 10 ≠ 0 ∨ fieldW x 47 17 ≠ 0 then some codeBounds
  else none

/-- Whether a scratchpad bank may not be gated: it holds part of a valid buffer, or of an active slot's private area (R27). -/
def bankBusy (s : State) (c b : Nat) : Bool :=
  (List.range 16).any (fun i =>
    let e := (coreAt s c).b.r.bufs.get 0 i
    bitAt e.toNat 0 && decide (fieldW e 7 15 * 128 < (b + 1) * 2 ^ 17) && decide (b * 2 ^ 17 < (fieldW e 7 15 + fieldW e 32 15) * 128))
  || (List.range 32).any (fun j => (coreAt s c).slots.getLsbD j && privOff j / 2 ^ 17 == b)

/-- Discard the contents of a scratchpad bank, poison with them (R27). -/
def dropBank (c : Nat) (s : State) (b : Nat) : State :=
  let lo := spadKey c (b * 2 ^ 17)
  let mem := s.mem.zeroRange lo (2 ^ 17)
  let poison := s.poison.keep (fun k _ => !(decide (lo ≤ k * 32) && decide (k * 32 < lo + 2 ^ 17)))
  { s with mem := mem, poison := poison }

/-- A write of SPGATE (R27): a refused bit stays clear and sets SPSTAT.REFUSED; a newly gated bank loses its contents and
its READY bit; clearing a bit starts a wake. -/
def writeSpgate (s : State) (c : Nat) (x : Word) : State :=
  let want := x.toNat % 2 ^ 32
  let refused := (List.range 32).filter (fun b => bitAt want b && !(coreAt s c).gate.getLsbD b && bankBusy s c b)
  let gate := packElems 1 ((List.range 32).map (fun b => if bitAt want b && !refused.contains b then 1 else 0))
  let newly := (List.range 32).filter (fun b => bitAt gate b && (coreAt s c).ready.getLsbD b)
  let s := updCore s c (fun k => { k with
    gate := BitVec.ofNat 32 gate,
    ready := BitVec.ofNat 32 (packElems 1 ((List.range 32).map (fun b => if k.ready.getLsbD b && !bitAt gate b then 1 else 0))),
    spstat := if refused = [] then k.spstat else k.spstat ||| 1 })
  newly.foldl (dropBank c) s

/-- Write a system register other than BUF0-BUF15 on one core; a read-only one ignores the write (R361). -/
def sysWrite (i : Nat) (x : Word) (c : Nat) (s : State) : State :=
  if i = 0x24 then updBody s c (fun b => { b with trapvec := x })
  else if i = 0x30 then updBody s c (fun b => { b with tksel := x.setWidth 6 })
  else if i = 0x40 then updBody s c (fun b => { b with numstat := numstatWrite b.numstat x })
  else if i = 0x48 then updRegs s c (fun r => { r with lc0 := { r.lc0 with count := x.setWidth 32 } })
  else if i = 0x49 then updRegs s c (fun r => { r with lc1 := { r.lc1 with count := x.setWidth 32 } })
  else if i = 0x60 then writeSpgate s c x
  else if i = 0x61 then updCore s c (fun k => { k with spstat := k.spstat &&& ~~~ (x &&& 1) })
  else s

/-- SYSW (R350, R361, R210): BUF0-BUF15 are written by each core from its own register, and a refusal on any is taken by
all; every other register is written on every core from the leading core's. -/
def effSysw (a : BitVec 6) (i : BitVec 12) : Eff := fun c o s =>
  let n := i.toNat
  let g := groupOf o c
  if (sysReg o c n).isNone then flt codeIllegal
  else if n = 0x60 ∧ !isPriv o c then flt codePrivilege
  else if 0x50 ≤ n ∧ n ≤ 0x5F then
    match (g.filterMap (fun q => bufRefuse o q (n - 0x50) (sReg o q a.toNat))).head? with
    | some code => flt code
    | none => .ok (onCores (fun q s => updRegs s q (fun r => { r with bufs := r.bufs.set 0 (n - 0x50) (sReg o q a.toNat) })) g s)
  else .ok (onCores (sysWrite n (sReg o c a.toNat)) g s)

/-- YIELDP (R157, R362): it asks for a save of a persistent task whose partition is being pre-empted softly. -/
def effYieldp : Eff := fun c o s =>
  match taskOf o c with
  | some t =>
    if t.persist && o.softs.getLsbD t.part && (groupOf o c).all (fun q => decide ((coreAt o q).frames.length < 2)) then
      .ok (onCores (fun q s => updBody s q (fun b => { b with task := b.task.map (fun t => { t with stage := .saving false }) })) (groupOf o c) s)
    else .ok s
  | none => .ok s

/-- The launches that wait on a shape slot, in ascending STEP. -/
def slotLaunches (s : State) (part slot : Nat) : List Nat :=
  let ins := fun (acc : List (Nat × Nat)) (x : Nat × Nat) => acc.filter (fun y => decide (y.1 ≤ x.1)) ++ x :: acc.filter (fun y => decide (x.1 < y.1))
  (((s.launches.cells.filter (fun x => x.2.part == part && (match x.2.pred with | some p => p.slot == slot && p.truth.isNone | none => false))).map
    (fun x => (x.2.step.toNat, x.1))).foldl ins []).map (·.2)

/-- A launch meets its truth: it learns it where its Tumbler entry still names its partition (R162). -/
def meetTruth (v : Nat) (s : State) (l : Nat) : State :=
  let x := launchOf s l
  match x.pred with
  | none => s
  | some p =>
    let k := x.die * 256 + p.site
    let e := (s.tumblers.get 0 k).toNat
    let s := if p.learn ∧ bitsOf e 67 3 = x.part then
        { s with tumblers := s.tumblers.set 0 k (BitVec.ofNat 128 (bitsOf e 0 48 * 2 ^ 16 + v + Nat.min 4 (bitsOf e 64 3 + 1) * 2 ^ 64 + x.part * 2 ^ 67)) } else s
    updLaunch s l (fun x => { x with pred := some { p with truth := some v, learn := false } })

/-- Publish a truth into a shape slot: the first publication wins (R117), and every launch that waits on the slot meets it. -/
def publish (s : State) (part slot v : Nat) : State :=
  if bitAt (s.shapes.get 0 (part * 1024 + slot)).toNat 16 then s
  else
    let s := { s with shapes := s.shapes.set 0 (part * 1024 + slot) (BitVec.ofNat 32 (v % 2 ^ 16 + 2 ^ 16)) }
    (slotLaunches s part slot).foldl (meetTruth (v % 2 ^ 16)) s

/-- Clear a shape slot (R117). -/
def unpublish (s : State) (part slot : Nat) : State := { s with shapes := s.shapes.set 0 (part * 1024 + slot) 0 }

/-- The conditions SHAPEPUB shares in both forms (R363): a checkpoint bundle, no provisional task, and a release at
PACKAGE scope, which waits with code 11 for every earlier access of the group. -/
def shapeGuard (c : Nat) (o : State) : Except Stop Unit := do
  if !(coreAt o c).b.hdrCkpt then flt codeIllegal
  else if isProv o c then flt codeProv
  else if (groupOf o c).all (fun q => allPerformed o q) then .ok ()
  else pauseFor 11

/-- SHAPEPUB (R363). -/
def effShapepub (a : BitVec 6) (slot : BitVec 10) : Eff := fun c o s => do
  if 65535 < (sReg o c a.toNat).toNat ∧ (coreAt o c).b.hdrCkpt then flt codeBounds
  else
    let _ ← shapeGuard c o
    .ok (publish s (taskPart o c) slot.toNat (sReg o c a.toNat).toNat)

/-- SHAPEPUB.CLR (R363). -/
def effShapepubClr (slot : BitVec 10) : Eff := fun c o s => do
  let _ ← shapeGuard c o
  .ok (unpublish s (taskPart o c) slot.toNat)

end Sys2Proof.Machine
end

