-- ==== Sys2Proof/Machine/Functions.lean ====
section
/-!
DEFINITION. Sys2Proof/Machine/Functions.lean: the correctly rounded functions of the SF slot (R413, R414).

The algebraic functions are exact: an integer quotient or square root and whether it is exact. The transcendental ones
are computed to 640 fractional bits, which is far past the place where any result of the three formats could lie nearer
to a rounding boundary than the error (assumption 8).
-/

namespace Sys2Proof.Machine

/-- One step of Newton's square root, repeated while it falls. -/
def isqrtGo (n : Nat) : Nat → Nat → Nat
  | 0, x => x
  | k + 1, x => let y := (x + n / x) / 2; if y < x then isqrtGo n k y else x

/-- The greatest natural number whose square does not exceed `n`. -/
def isqrt (n : Nat) : Nat := if n = 0 then 0 else isqrtGo n 4096 (2 ^ (Nat.log2 n / 2 + 1))

/-- The fractional bits of the series. -/
def fxK : Nat := 640

/-- One, in fixed point. -/
def fx1 : Nat := 2 ^ fxK

/-- The exponential series of x < 1 in fixed point: term, index, fuel. -/
def expSer (x : Nat) : Nat → Nat → Nat → Nat
  | 0, _, _ => 0
  | k + 1, t, i => if t = 0 then 0 else t + expSer x k (t * x / fx1 / i) (i + 1)

/-- e^x for 0 <= x < 1, in fixed point. -/
def expFx (x : Nat) : Nat := expSer x 400 fx1 1

/-- The series of the inverse hyperbolic tangent: z + z^3/3 + ... -/
def atanhSer (z2 : Nat) : Nat → Nat → Nat → Nat
  | 0, _, _ => 0
  | k + 1, t, i => if t = 0 then 0 else t / i + atanhSer z2 k (t * z2 / fx1) (i + 2)

/-- ln y for 1 <= y <= 2, in fixed point. -/
def lnFx (y : Nat) : Nat :=
  let z := (y - fx1) * fx1 / (y + fx1)
  2 * atanhSer (z * z / fx1) 500 z 1

/-- ln 2, in fixed point. -/
def ln2Fx : Nat := lnFx (2 * fx1)

/-- e^-y for y >= 0, in fixed point: y = n ln 2 + r. -/
def expNegFx (y : Nat) : Nat :=
  let n := y / ln2Fx + 1
  -- e^-y = 2^-n * e^(n ln 2 - y)
  let r := n * ln2Fx - y
  expFx r / 2 ^ n

/-- The arctangent series of 1/k: used for pi. -/
def atanInv (k2 : Nat) : Nat → Nat → Nat → Bool → Int
  | 0, _, _, _ => 0
  | n + 1, t, i, neg => if t = 0 then 0 else (if neg then -((t / i : Nat) : Int) else ((t / i : Nat) : Int)) + atanInv k2 n (t / k2) (i + 2) (!neg)

/-- pi, in fixed point (Machin). -/
def piFx : Nat := (16 * atanInv 25 500 (fx1 / 5) 1 false - 4 * atanInv 57121 500 (fx1 / 239) 1 false).toNat

/-- The error function's series, all terms of one sign: x, 2x^3/3, 4x^5/15, ... -/
def erfSer (x2 : Nat) : Nat → Nat → Nat → Nat
  | 0, _, _ => 0
  | k + 1, t, i => if t = 0 then 0 else t + erfSer x2 k (2 * t * x2 / fx1 / (i + 2)) (i + 2)

/-- erf x for 0 <= x < 6, in fixed point: 2/sqrt(pi) * e^(-x^2) * (x + 2x^3/3 + ...). -/
def erfFx (x : Nat) : Nat :=
  let x2 := x * x / fx1
  2 * (expNegFx x2 * erfSer x2 900 x 1 / fx1) * fx1 / isqrt (piFx * fx1)

/-- A magnitude m * 2^e in fixed point; the exponents of the formats keep it exact. -/
def toFx (m : Nat) (e : Int) : Nat := if 0 ≤ e + fxK then m * 2 ^ (e + fxK).toNat else m / 2 ^ (-(e + fxK)).toNat

/-- Whether a magnitude is at least a whole number. -/
def geNat (m : Nat) (e : Int) (n : Nat) : Bool := decide (n * fx1 ≤ toFx m e)

/-- A number in fixed point, rounded once; the series never ends, so it is never exact. -/
def fxRound (f : FFmt) (neg : Bool) (x : Nat) : Rnd := fround f 0 neg x (-(fxK : Int)) true

/-- The value just below one. -/
def belowOne (f : FFmt) (neg : Bool) : Rnd := fround f 0 neg (fx1 - 1) (-(fxK : Int)) true

/-- One, exactly. -/
def oneBits (f : FFmt) (neg : Bool) : Rnd := fround f 0 neg 1 0 false

/-- 2^x (R413). -/
def fnExp2 (f : FFmt) (x : FV) : Rnd :=
  match x with
  | .nan s => fnan f s
  | .inf n => if n then { bits := 0, flags := 0 } else { bits := f.infM, flags := 0 }
  | .fin n m e =>
    if geNat m e 512 then
      (if n then fround f 0 false 0 (-2000) true else fround f 0 false 1 2000 false)
    else
      let X := toFx m e
      let whole := X / fx1
      let frac := X % fx1
      -- 2^x = 2^k * 2^g with 0 <= g < 1
      let k : Int := if n then -((whole : Int) + (if frac = 0 then 0 else 1)) else whole
      let g := if frac = 0 then 0 else if n then fx1 - frac else frac
      if g = 0 then fround f 0 false 1 k false
      else fround f 0 false (expFx (g * ln2Fx / fx1)) (k - fxK) true

/-- log2 x (R413). -/
def fnLog2 (f : FFmt) (x : FV) : Rnd :=
  match x with
  | .nan s => fnan f s
  | .inf n => if n then fnan f true else { bits := f.infM, flags := 0 }
  | .fin n m e =>
    if m = 0 then { bits := f.sgn true f.infM, flags := fDZ }
    else if n then fnan f true
    else
      let t := topBit m
      let E : Int := (t : Int) + e
      if m = 2 ^ t then froundI f 0 E 0 false
      else
        let y := m * 2 ^ (fxK - t)
        let L : Int := E * fx1 + ((lnFx y * fx1 / ln2Fx : Nat) : Int)
        if L < 0 then fround f 0 true ((-L).toNat - 1) (-(fxK : Int)) true else fround f 0 false L.toNat (-(fxK : Int)) true

/-- 1/x (R413). -/
def fnRcp (f : FFmt) (x : FV) : Rnd :=
  match x with
  | .nan s => fnan f s
  | .inf n => { bits := f.sgn n 0, flags := 0 }
  | .fin n m e =>
    if m = 0 then { bits := f.sgn n f.infM, flags := fDZ }
    else fround f 0 n (2 ^ 400 / m) (-400 - e) (2 ^ 400 % m != 0)

/-- The root of a magnitude m * 2^e, with 200 or more bits below the point: root, power of two, exactness. -/
def rootOf (m : Nat) (e : Int) : Nat × Int × Bool :=
  let sh : Int := if e % 2 = 0 then 400 else 401
  let A := m * 2 ^ sh.toNat
  let r := isqrt A
  (r, (e - sh) / 2, decide (r * r = A))

/-- 1/sqrt x (R413). -/
def fnRsq (f : FFmt) (x : FV) : Rnd :=
  match x with
  | .nan s => fnan f s
  | .inf n => if n then fnan f true else { bits := 0, flags := 0 }
  | .fin n m e =>
    if m = 0 then { bits := f.sgn n f.infM, flags := fDZ }
    else if n then fnan f true
    else
      -- 1/sqrt x = sqrt(2^(2k) / m) with the even power of two put inside
      let (m', e') : Nat × Int := if e % 2 = 0 then (m, e) else (2 * m, e - 1)
      let N := 2 ^ 800
      let q := N / m'
      let r := isqrt q
      fround f 0 false r (-400 - e' / 2) !(decide (r * r * m' = N))

/-- sqrt x (R413). -/
def fnSqrt (f : FFmt) (x : FV) : Rnd :=
  match x with
  | .nan s => fnan f s
  | .inf n => if n then fnan f true else { bits := f.infM, flags := 0 }
  | .fin n m e =>
    if m = 0 then { bits := f.sgn n 0, flags := 0 }
    else if n then fnan f true
    else let (r, re, ex) := rootOf m e; fround f 0 false r re !ex

/-- tanh x (R413). -/
def fnTanh (f : FFmt) (x : FV) : Rnd :=
  match x with
  | .nan s => fnan f s
  | .inf n => oneBits f n
  | .fin n m e =>
    if m = 0 then { bits := f.sgn n 0, flags := 0 }
    else if geNat m e 200 then belowOne f n
    else let E := expNegFx (2 * toFx m e); fxRound f n ((fx1 - E) * fx1 / (fx1 + E))

/-- 1/(1 + e^-x) (R413). -/
def fnSig (f : FFmt) (x : FV) : Rnd :=
  match x with
  | .nan s => fnan f s
  | .inf n => if n then { bits := 0, flags := 0 } else oneBits f false
  | .fin n m e =>
    if m = 0 then fround f 0 false 1 (-1) false
    else if geNat m e 300 then (if n then fround f 0 false 0 (-400) true else belowOne f false)
    else
      let E := expNegFx (toFx m e)
      -- for x < 0 the function is E/(1+E), for x > 0 it is 1/(1+E)
      fxRound f false ((if n then E else fx1) * fx1 / (fx1 + E))

/-- erf x (R413). -/
def fnErf (f : FFmt) (x : FV) : Rnd :=
  match x with
  | .nan s => fnan f s
  | .inf n => oneBits f n
  | .fin n m e =>
    if m = 0 then { bits := f.sgn n 0, flags := 0 }
    else if geNat m e 6 then belowOne f n
    else fxRound f n (erfFx (toFx m e))

/-- What one element of FRSQE becomes (R414): a new weight, or a kept one with the sticky bits and a count. -/
inductive RsqeOut where
  | keep (flags : Nat)
  | set (r : Rnd)
  deriving DecidableEq, Repr

/-- w - b*q for finite b and w with q = 1/(sqrt a + eps), a = am * 2^ae >= 0, eps = 2^-k, rounded once (R414). -/
def rsqeFin (k : Nat) (am : Nat) (ae : Int) (bn : Bool) (bm : Nat) (be : Int) (wn : Bool) (wm : Nat) (we : Int) : Rnd :=
  let f := ffOf .f32
  if bm = 0 then
    -- the product is a zero of b's sign
    froundI f 0 (if wn then -(wm : Int) else wm) we (if wm = 0 then wn && !bn else wn)
  else
    let P : Nat := 1200
    -- the denominator in units of 2^-P
    let sh : Int := if ae % 2 = 0 then 0 else 1
    let ae' := ae - sh
    let A := am * 2 ^ sh.toNat * 2 ^ (2 * P + ae').toNat
    let r := isqrt A
    let exactRoot := decide (r * r = A)
    let D := r + 2 ^ (P - k)
    -- |b| * q in units of 2^-P, and whether that is exact
    let N := bm * 2 ^ (2 * P + be).toNat
    let Q := N / D
    let exact := exactRoot && decide (N % D = 0)
    let W : Int := (if wn then -(wm : Int) else wm) * 2 ^ (P + we).toNat
    -- w - b q lies at V, or strictly between V and the next unit away in the direction of -b
    if exact then froundI f 0 (W - (if bn then -(Q : Int) else Q)) (-(P : Int)) false
    else
      let lo : Int := if bn then W + Q else W - Q - 1
      if 0 ≤ lo then fround f 0 false lo.toNat (-(P : Int)) true
      else fround f 0 true ((-lo).toNat - 1) (-(P : Int)) true

/-- One element of FRSQE (R414). -/
def rsqe (epsx : Nat) (a b w : FV) : RsqeOut :=
  let f := ffOf .f32
  let sig := if isSig a || isSig b || isSig w then fNV else 0
  match a, b, w with
  | .nan _, _, _ => .keep sig
  | _, .nan _, _ => .keep sig
  | _, _, .nan _ => .keep sig
  | a, b, w =>
    let aInf : Bool := match a with | .inf n => !n | _ => false
    match b, w with
    | .inf bn, .inf wn => if aInf then .keep fNV else if bn = wn then .keep fNV else .set { bits := f.sgn wn f.infM, flags := 0 }
    | .inf bn, _ => if aInf then .keep fNV else .set { bits := f.sgn (!bn) f.infM, flags := 0 }
    | .fin _ _ _, .inf wn => .set { bits := f.sgn wn f.infM, flags := 0 }
    | .fin bn bm be, .fin wn wm we =>
      if aInf then .set (rsqeFin (16 + epsx) 0 0 bn 0 be wn wm we)
      else match a with
        | .fin an am ae => .set (rsqeFin (16 + epsx) (if an then 0 else am) ae bn bm be wn wm we)
        | _ => .set (rsqeFin (16 + epsx) 0 0 bn bm be wn wm we)
    | _, _ => .keep sig

end Sys2Proof.Machine
end

