-- ==== Sys2Proof/Machine/Special.lean ====
section
/-!
DEFINITION. Sys2Proof/Machine/Special.lean: the effects of the SF instructions (R412-R418).
-/

namespace Sys2Proof.Machine

/-- A function of each active element (R413). -/
def effFn (f : FFmt → FV → Rnd) (lat : Nat) (d a : BitVec 6) (k : BitVec 4) (e : Fmt) : Eff := fun c o s =>
  .ok (mapLanes c o s d.toNat k e lat (fun i => f (ffOf e) (fdec (ffOf e) (vElem o c a.toNat e i))))

/-- FRSQE (R414). -/
def effFrsqe (d a b : BitVec 6) (x : BitVec 4) : Eff := fun c o s =>
  let f := ffOf .f32
  let el := fun (r : BitVec 6) (i : Nat) => elem (vReg o c r.toNat).toNat 32 i
  let rs := (List.range 32).map (fun i => (el d i, rsqe x.toNat (fdec f (el a i)) (fdec f (el b i)) (fdec f (el d i))))
  let bits := rs.map (fun r => match r.2 with | .keep _ => r.1 | .set y => y.bits)
  let flags := rs.foldl (fun g r => fOr g (match r.2 with | .keep y => y | .set y => y.flags)) 0
  let nans := (rs.filter (fun r => match r.2 with | .keep _ => true | .set _ => false)).length
  .ok (addNan c nans (setFlags c flags (resultV c d.toNat (ofElems 32 bits) 16 s)))

/-- SCALEGEN (R307, R416): a negative amax is treated as its magnitude. -/
def effScalegen (sc : BitVec 3) (a : BitVec 6) (h : BitVec 1) (k : BitVec 4) (e : Fmt) : Eff := fun c o s =>
  let old := scReg o c sc.toNat
  let cs := (List.range 32).map (fun i => scaleVal (e == .bq8) (fdec (ffOf .f32) (elem (vReg o c a.toNat).toNat 32 i % 2 ^ 31)))
  let act := fun j => active o c k 32 j
  let bytes := (List.range 128).map (fun b =>
    if b / 64 = h.toNat ∧ act (b % 64 / 2) then
      let x := nthD cs (b % 64 / 2) (1, 1, false)
      if b % 2 = 0 then x.1 else x.2.1
    else elem old.toNat 8 b)
  let floor := (List.range 32).any (fun j => act j && (nthD cs j (1, 1, false)).2.2)
  .ok (setFlags c (if floor then fFLOOR else 0) (result c (.sc sc.toNat) (ofElems 8 bytes) 6 s))

/-- SCLD (R415). -/
def effScld (sc : BitVec 3) (a : BitVec 6) (d : BitVec 10) : Eff := fun c o s => do
  let p := sReg o c a.toNat + 128 * sx d
  let l ← access o c p 128 128 winScale false
  let (bs, s) ← readOwn 3 c o s p l 128
  .ok (result c (.sc sc.toNat) (vecOf bs) 6 s)

/-- A decode table slot. -/
def tabSlot (b : Body) (ts : Nat) : TableSlot := if ts = 0 then b.tab0 else b.tab1
/-- Write a decode table slot. -/
def setTab (ts : Nat) (t : TableSlot) (b : Body) : Body := if ts = 0 then { b with tab0 := t } else { b with tab1 := t }

/-- Whether a weight block of an XWEIGHT still references a table slot: from the issue of the command until the block has
expanded (R461). -/
def tabRefd (o : State) (c ts : Nat) : Bool :=
  (coreAt o c).b.xfQ.any (fun x => x.op == 3 && fieldW (nthD x.snap 3 0) 7 2 == 1 && fieldW (nthD x.snap 3 0) 6 1 == ts &&
    decide (x.cursor < fieldW (nthD x.snap 8 0) 0 24 / 48) && fieldW (nthD x.snap 8 0) 24 16 == 1 && fieldW (nthD x.snap 8 0) 40 16 == 1)

/-- TBLD (R417): it pauses with code 3 while a queued block references the slot, and for the global window with code 8
while no outstanding-request place is free. The slot is then loading: a local load completes six cycles after issue, a
global one when its bytes arrive; a later TBLD replaces a load under way. -/
def effTbld (ts : BitVec 1) (a : BitVec 6) : Eff := fun c o s => do
  let p := sReg o c a.toNat
  let l ← access o c p 16 16 winTable false
  if tabRefd o c ts.toNat then pauseFor 3
  else if winOf p = 8 then
    if 8192 ≤ outstanding o c then pauseFor 8
    else
      let (id, s) := fresh s
      let t : TableSlot := { data := 0, loading := true, due := 0, stamp := id, bad := false }
      let s := updBody s c (setTab ts.toNat t)
      let op : AccessOp := .table ts.toNat id (heldBytes o c l 16)
      .ok (post c s p l op none (entryNow o c (.access p l op)) [])
  else if !bankReady o l 16 then pauseWake o l 16
  else
    let v := seen o c
    let t : TableSlot := { data := BitVec.ofNat 128 (readNat v l 16), loading := true, due := o.clk + 6, stamp := 0, bad := poisoned v l 16 }
    .ok (injected 3 c (coreAt o c).b.r.pc l 16 (updBody s c (setTab ts.toNat t)))

end Sys2Proof.Machine
end

