-- ==== Sys2Proof/Machine/Issue.lean ====
section
/-!
DEFINITION. Sys2Proof/Machine/Issue.lean: how a bundle issues on a core or lockstep group: results that fall due (R274,
R275, R278), pauses (R279), precise faults (R244-R246, R468), the end of a task (R246, R356), checkpoints, buffer phases
and rollback (R249-R253), and the records the module keeps of them (R86, R97, R268).
-/

namespace Sys2Proof.Machine

/-! ### The error log and snapshot triggers (R268, R86) -/

/-- The registers of a partition. -/
def partOf (s : State) (p : Nat) : Part := s.mod.parts.get .zero p
/-- Change the registers of a partition. -/
def updPart (s : State) (p : Nat) (f : Part → Part) : State :=
  { s with mod := { s.mod with parts := s.mod.parts.upd .zero p f } }

/-- An error log entry (R268): `who` is a physical core id, or a die number times 64 for a die-level source. -/
def errEntry (code : BitVec 8) (src who part : Nat) (retire fence rolled : Bool) (detail us : Nat) : BitVec 128 :=
  BitVec.ofNat 128 (code.toNat + src % 16 * 2 ^ 8 + who % 512 * 2 ^ 12 + part % 8 * 2 ^ 21 + (if retire then 2 ^ 24 else 0) +
    (if fence then 2 ^ 25 else 0) + (if rolled then 2 ^ 26 else 0) + detail % 2 ^ 32 * 2 ^ 32 + us % 2 ^ 64 * 2 ^ 64)

/-- Write an error log entry and send PF vector 4 (R268). An entry counts as overwritten once 256 have been written. -/
def logErr (e : BitVec 128) (s : State) : State :=
  let i := s.mod.errnext.toNat
  let full := s.mod.errlog.get 0 i != 0
  sendMsix 4 { s with mod := { s.mod with errlog := s.mod.errlog.set 0 i e, errnext := s.mod.errnext + 1, errovfl := s.mod.errovfl || full } }

/-- The blocks with snapshot registers: the cores by physical id, then the die sequencers as 512 + die, the Hasp slices
as 520 + die, the ports as 528 + port, the management controller as 560, the L2 of each die as 561 + die, its LLC slice as 569 + die, the fabric
routers of the ten dies as 577 + die, the HBM4E controllers as 587 + stack, and the host and the storage port as 603 and 604 (assumption 11). -/
def snapBlocks : List Nat := (List.range 512).filter coreExists ++ (List.range 93).map (fun i => 512 + i)

/-- A trigger (R86, R87): while a snapshot is held it only counts; of two in one clock the lower cause is recorded. -/
def fireTrig (cause : Nat) (code : BitVec 8) (s : State) : State :=
  let n := s.mod.snap
  let lost : BitVec 16 := if n.lost = 0xFFFF then n.lost else n.lost + 1
  if n.held then
    if n.at_ = s.clk ∧ cause < n.cause.toNat then
      { s with mod := { s.mod with snap := { n with cause := BitVec.ofNat 3 cause, fcode := code, lost := lost } } }
    else { s with mod := { s.mod with snap := { n with lost := lost } } }
  else
    { s with mod := { s.mod with snap := { n with held := true, cause := BitVec.ofNat 3 cause, fcode := code, at_ := s.clk, todo := snapBlocks } } }

/-- The trigger a fault sends when its code matches SNAPCTL (R86). -/
def snapFault (code : BitVec 8) (s : State) : State :=
  if s.mod.snap.faulten && (s.mod.snap.code == 0xFF || s.mod.snap.code == code) then fireTrig 1 code s else s

/-- The trigger of a VCC match, for a core whose VCC goes from one value to another (R86). -/
def snapVcc (c v v' : Nat) (s : State) : State :=
  let n := s.mod.snap
  if n.vccen && n.core.toNat == c && decide (v ≤ n.match_.toNat) && decide (n.match_.toNat < v') then fireTrig 2 0 s else s

/-! ### Results that fall due (R274, R275, R278) -/

/-- Whether two destinations share a bit. -/
def dstMeets : Dst → Dst → Bool
  | .s a, .s b => a == b
  | .v a, .v b => a == b
  | .k a, .k b => a == b
  | .sc a, .sc b => a == b
  | .mg a, .mg b => a == b
  | .shX a p, .shX b q => a == b && partMeets p q
  | .shM a p, .shM b q => a == b && partMeets p q
  | _, _ => false
where
  partMeets (p q : Nat) : Bool :=
    decide ((partRange p).1 < (partRange q).1 + (partRange q).2) && decide ((partRange q).1 < (partRange p).1 + (partRange p).2)

/-- One value to be written, with its due cycle and whether it is poisoned. -/
structure Due where
  dst : Dst
  val : BitVec 1024
  due : Nat
  bad : Bool
  ptr : Word
  deriving DecidableEq, Repr

/-- The results and landed data due at or before the VCC. -/
def dueNow (r : Regs) : List Due :=
  (r.res.filter (fun x => decide (x.due ≤ r.vcc))).map (fun x => { dst := x.dst, val := x.val, due := x.due, bad := false, ptr := 0 }) ++
  (r.lands.filter (fun x => decide (x.due ≤ r.vcc))).filterMap (fun x => x.data.map (fun d => { dst := x.dst, val := d.1, due := x.due, bad := d.2, ptr := x.ptr }))

/-- Whether a landing request is due without its data (R278). -/
def isLate (r : Regs) : Bool := r.lands.any (fun x => decide (x.due ≤ r.vcc) && x.data.isNone)

/-- Whether two entries of a list name one register at one cycle (R275). -/
def clashIn : List Due → List (Dst × Nat)
  | [] => []
  | x :: t => (match t.find? (fun y => y.due == x.due && dstMeets x.dst y.dst) with | some y => [(x.dst, x.due), (y.dst, y.due)] | none => []) ++ clashIn t

/-- Insert by due cycle, keeping the order of equals. -/
def insDue (x : Due) : List Due → List Due
  | [] => [x]
  | y :: t => if x.due < y.due then x :: y :: t else y :: insDue x t

/-- By due cycle. -/
def byDue (l : List Due) : List Due := l.foldl (fun acc x => insDue x acc) []

/-- Write everything due, in order of due cycle; poisoned data consumed by a register is a detected error (R256). -/
def settle (b : Body) : Body :=
  let l := byDue (dueNow b.r)
  let r := l.foldl (fun r x => writeDst r x.dst x.val) b.r
  let r := { r with res := r.res.filter (fun x => decide (r.vcc < x.due)), lands := r.lands.filter (fun x => decide (r.vcc < x.due)) }
  { b with r := r, detected := (match l.find? (fun x => x.bad) with | some x => some (b.detected.getD (codePoison, b.r.pc, x.ptr)) | none => b.detected) }

/-- Discard the results of a conflict (R275). -/
def dropClash (b : Body) : Body :=
  let cl := clashIn (dueNow b.r)
  let r := b.r
  { b with r := { r with res := r.res.filter (fun x => !cl.contains (x.dst, x.due)), lands := r.lands.filter (fun x => !cl.contains (x.dst, x.due)) } }

/-! ### The end of a task -/

/-- The number an XSTORE has among the accesses of its core: that of its token. -/
def tokId (c t : Nat) : Nat := 2 ^ 60 + c * 64 + t
/-- Whether numbered access `id` has still to perform: a packet under way, an XSTORE that runs (R235), or entries still held (R233). -/
def notDone (s : State) (id : Nat) : Bool :=
  if id < 2 ^ 60 then s.packets.any (fun p => p.id == id)
  else if 2 ^ 61 ≤ id then true
  else (coreAt s ((id - 2 ^ 60) / 64)).b.xfQ.any (fun x => x.tok == id % 64)

/-- What the release of a commit queue carries from entry to entry: the numbers of the entries released, and those that
an entry behind the last barrier must wait for (R235). -/
structure Release where
  s    : State
  ids  : List Nat
  wait : List Nat

/-- Send a packet from a core. -/
def sendFrom (c : Nat) (dst : Node) (after : List Nat) (body : PBody) (s : State) : State :=
  let (id, s) := fresh s
  let s := { s with packets := s.packets ++ [{ id := id, lane := 0, src := .core c, dst := dst, core := c, after := after, lackUs := none, body := body }] }
  updCore s c (fun k => { k with out := k.out ++ [id] })

/-- Release one held entry (R224, R233, R235). -/
def releaseEntry (c : Nat) (r : Release) (e : CEntry) : Release :=
  let own := ownerCtx r.s c
  let outs := (coreAt r.s c).out
  let go := fun (dst : Node) (after : List Nat) (body : PBody) =>
    ({ s := sendFrom c dst after body r.s, ids := r.ids ++ [r.s.nextId], wait := r.wait } : Release)
  match e.body with
  | .access p l op => go (nodeOf l) r.wait (.access p l op own e)
  | .rel _ p l op => go (nodeOf l) (r.wait ++ outs) (.access p l op own e)
  | .hinge _ h => go (.die (handleDie h.flagH)) (r.wait ++ outs) (.hinge h (own.getD 0) (taskPart r.s c) e)
  | .bgive q i n => go (.core q) (r.wait ++ outs) (.bgive q i n)
  | .xstore t =>
    let s := updBody r.s c (fun b => { b with xfQ := b.xfQ.map (fun x => if x.tok = t ∧ x.held then { x with held := false, after := x.after ++ r.wait } else x) })
    { s := s, ids := r.ids ++ [tokId c t], wait := r.wait }
  | .barrier _ => { r with wait := r.ids }

/-- The accesses that waited for entries a core held wait from now on for these entries' accesses to perform (R233). -/
def unhold (c : Nat) (ids : List Nat) (s : State) : State :=
  { s with packets := s.packets.map (fun p =>
      if p.core = c then { p with after := p.after.flatMap (fun i => if 2 ^ 61 ≤ i then (ids.take (i % 1024)).filter (fun j => decide (j < 2 ^ 60)) else [i]) } else p) }

/-- Release every held entry in queue order (R224). -/
def releaseQueue (c : Nat) (s : State) : State :=
  let r := (coreAt s c).b.commitQ.foldl (releaseEntry c) { s := s, ids := [], wait := [] }
  updBody (unhold c r.ids r.s) c (fun b => { b with commitQ := [] })

/-- Where a core's held entries are discarded, the accesses that were to perform only after them never perform. -/
def dropBehind (c : Nat) (s : State) : State :=
  let gone := (s.packets.filter (fun p => p.core == c && p.after.any (fun i => decide (2 ^ 61 ≤ i)))).map (fun p => p.id)
  updCore { s with packets := s.packets.filter (fun p => !gone.contains p.id) } c (fun k =>
    { k with out := k.out.filter (fun i => !gone.contains i) })

/-- Release the held effects of a confirmed provisional task in held order (R165). -/
def releaseHeld (c : Nat) (l : List CEntry) (s : State) : State :=
  (l.foldl (releaseEntry c) { s := s, ids := [], wait := [] }).s

/-- A launch fails: the code and core of its first faulting task stand (R97, R98). One whose entry is free has nothing left to fail. -/
def failLaunch (l : Nat) (code : BitVec 8) (who : Nat) (s : State) : State :=
  updLaunch s l (fun x => if x.state = .done then x else { x with fail := some (x.fail.getD (code, who)) })

/-- The coordinate of a task on a dimension. -/
def taskCoord (t : Task) (dim : Nat) : Nat := if dim = 0 then t.x else if dim = 1 then t.y else t.z

/-- A core leaves its task: the slot is freed, any join dissolves, and engine commands that are still under way go on
for the launch. -/
def freeCore (c : Nat) (s : State) : State :=
  match taskOf s c with
  | none => s
  | some t =>
    let s := dropBehind c s
    let s := updLaunch s t.launch (fun l => { l with outs := l.outs ++ (coreAt s c).out })
    updCore s c (fun k =>
      let b := k.b
      let b := { b with
        task := none, pause := none, commitQ := [], holdQ := [], check := none, ckpt := none, detected := none, deferred := [], taken := none, tendRegs := none, inHandler := false,
        mxQ := b.mxQ.map (fun m => { m with orphan := true }),
        xfQ := (b.xfQ.filter (fun x => !x.held)).map (fun x => { x with orphan := true }),
        r := { b.r with joined := false, lands := [], res := [] } }
      { k with b := b, out := [], slots := k.slots &&& ~~~ (1#32 <<< t.slot) })

/-- A task ends on every core of its group: its launch counts one task less. -/
def leaveTask (g : List Nat) (s : State) : State :=
  match g.head? with
  | none => s
  | some c =>
    match taskOf s c with
    | none => s
    | some t => g.foldl (fun s q => freeCore q s) (updLaunch s t.launch (fun l => { l with live := l.live - 1 }))

/-- A task ends at a fault: its commit queue and held effects are discarded and its launch fails (R246, R97). -/
def endFaulted (g : List Nat) (code : BitVec 8) (s : State) : State :=
  match g.head? with
  | none => s
  | some c =>
    match taskOf s c with
    | none => s
    | some t => failLaunch t.launch code c (leaveTask g s)

/-- A precise fault as it is taken. -/
structure FaultInfo where
  code   : BitVec 8
  slot   : Nat
  tok    : Option Nat
  cause  : BitVec 8
  pc     : Word
  addr   : Word
  vcc    : Nat
  resume : Word
  deriving DecidableEq, Repr

/-- Take a precise fault on a core or group (R244-R246, R273, R326): the handler is entered where there is one, no
handler runs yet, and the code may enter one; else the task ends. -/
def takeFault (g : List Nat) (f : FaultInfo) (s : State) : State :=
  match g.head? with
  | none => s
  | some c =>
    let b := (coreAt s c).b
    let s := snapFault f.code s
    if noHandler f.code || b.trapvec == 0 || b.inHandler then
      endFaulted g f.code (onCores (fun q s => updBody s q (fun b => recordFault b f.code f.slot f.tok f.cause f.pc f.addr f.vcc)) g s)
    else if !isCodeAddr s c b.trapvec then
      endFaulted g codeIllegal (onCores (fun q s => updBody s q (fun b => recordFault b f.code f.slot f.tok f.cause f.pc f.addr f.vcc)) g s)
    else onCores (fun q s => updBody s q (enterHandler b.trapvec f.code f.slot f.tok f.cause f.pc f.addr f.vcc f.resume)) g s

/-- A precise fault at the bundle about to issue. -/
def faultHere (s : State) (c : Nat) (code : BitVec 8) (slot : Nat) (tok : Option Nat) (addr : Word) : FaultInfo :=
  { code := code, slot := slot, tok := tok, cause := 0, pc := (coreAt s c).b.r.pc, addr := addr, vcc := (coreAt s c).b.r.vcc, resume := (coreAt s c).b.r.pc }

/-! ### Checkpoints and rollback (R249-R253) -/

/-- The bytes an entry of the commit queue contributes to a phase signature: pointer and data (R253). -/
def entryBytes (e : CEntry) : List Byte :=
  let opB : AccessOp → List Byte
    | .store bs mk => (bs.zip mk).map (fun x => if x.2 then x.1 else 0)
    | .red opc w8 b => BitVec.ofNat 8 opc :: leBytes b.toNat (if w8 then 8 else 4)
    | .amo opc _ b _ => BitVec.ofNat 8 opc :: leBytes b.toNat 8
    | .cas _ a b _ => leBytes a.toNat 8 ++ leBytes b.toNat 8
    | .load _ _ _ => []
    | .table _ _ _ => []
  match e.body with
  | .access p _ op => leBytes p.toNat 8 ++ opB op
  | .rel sc p _ op => BitVec.ofNat 8 sc :: (leBytes p.toNat 8 ++ opB op)
  | .hinge p h => leBytes p.toNat 8 ++ leBytes h.value.toNat 8 ++ leBytes (h.head + h.count * 2 ^ 24 + h.newown * 2 ^ 40) 8
  | .bgive q i n => leBytes q 2 ++ leBytes i 1 ++ leBytes n 1
  | .xstore t => leBytes t 1
  | .barrier sc => leBytes sc 1

/-- The signature of the phase that a core ends now (R253). -/
def phaseSig (b : Body) : PhaseSig :=
  { vccs := b.r.vcc - (match b.ckpt with | some k => k.vcc | none => 0),
    crcB := (match b.check with | some m => m.crcB | none => 0),
    crcC := crc32c (b.commitQ.flatMap entryBytes) }

/-- The checkpoint copy, and the lists of the phase that begins (R249, R250). -/
def copyCkpt (b : Body) : Body :=
  { b with
    ckpt := some b.r, ckptH := (b.inHandler, b.resumePc, b.latched, b.latchedL), accSave := b.acc, accXSave := b.accX,
    refetch := b.phaseCmds, phaseCmds := [], extLog := [], amoKeep := [], noroll := decide (64 < b.phaseCmds.length) }

/-- Whether a token names a logged external command, whose record a rollback keeps (R252). -/
def logged (b : Body) (t : Nat) : Bool := b.extLog.any (fun x => x.tok == t)

/-- Whether a command was issued in the running phase. -/
def inPhase (b : Body) (vcc : Nat) : Bool := match b.ckpt with | some k => decide (k.vcc ≤ vcc) | none => true

/-- Restore the checkpoint copy of one core (R249, R252): in-flight commands of the phase with destinations inside the
core stop, held entries of the phase are discarded, and the tokens of logged external commands keep their records. -/
def restoreCkpt (b : Body) : Body :=
  match b.ckpt with
  | none => b
  | some k =>
    let toks := (List.range 64).foldl (fun t i => if logged b i then t.set .free i (b.r.toks.get .free i) else t) k.toks
    { b with
      r := { k with toks := toks },
      inHandler := b.ckptH.1, resumePc := b.ckptH.2.1, latched := b.ckptH.2.2.1, latchedL := b.ckptH.2.2.2,
      acc := b.accSave, accX := b.accXSave, commitQ := [], holdQ := b.holdQ.filter (fun e => !inPhase b e.vcc), detected := none, pause := none, taken := none, tendRegs := none,
      phaseCmds := [], mxQ := b.mxQ.filter (fun m => m.orphan || !inPhase b m.vcc || logged b m.tok),
      xfQ := b.xfQ.filter (fun x => x.orphan || (!x.held && (!inPhase b x.vcc || logged b x.tok))),
      wbQ := b.wbQ.filter (fun w => b.xfQ.any (fun x => x.tok == w.tok && !inPhase b x.vcc)) }

/-- A copy command as it enters its queue. -/
def newXf (f : Refetch) (ins after : List Nat) (fault : Option (BitVec 8)) (held : Bool) : XfCmd :=
  { op := f.op, tok := f.tok, ins := ins, snap := f.snap, pc := f.pc, vcc := f.vcc, held := held, started := false, row := 0, line := 0, did := [], sent := [],
    cursor := 0, ptr := nthD f.snap 0 0, sentUs := .empty, outb := [], next := none, short := false, cancel := false, after := after, locks := [],
    orphan := false, fault := fault, who := f.who }

/-- A matrix command as it enters its queue. -/
def newMx (f : Refetch) (ins after : List Nat) (fault : Option (BitVec 8)) : MxCmd :=
  { op := f.op, et := f.et, tok := f.tok, ins := ins, snap := f.snap, pc := f.pc, vcc := f.vcc, started := false, micro := none, after := after, orphan := false,
    fault := fault, who := f.who }

/-- Put the commands of the refetch list back into their engines (R252). -/
def reissueRefetch (b : Body) : Body :=
  b.refetch.foldl (fun b f =>
    let toks := b.r.toks.upd .free f.tok (fun t => { t with status := .pending, code := 0, short := false, tout := false, progress := 0 })
    let b := { b with refetchWait := b.refetchWait ++ [f.tok], r := { b.r with toks := toks } }
    if f.slot = 6 then { b with mxQ := b.mxQ ++ [newMx f [] [] none] } else { b with xfQ := b.xfQ ++ [newXf f [] [] none false] }) { b with refetchWait := [] }

/-- Begin a rerun on one core. -/
def beginRerun (m : CheckMode) (b : Body) : Body :=
  reissueRefetch { restoreCkpt b with check := some { m with next := 0, crcB := 0 }, ckptDone := true }

/-- Mark the error log's entry of a rollback as repaired (R268: ROLLED), if it still stands in the log. -/
def markRolled (m : CheckMode) (s : State) : State :=
  if s.mod.errlog.get 0 m.slot = m.entry then
    { s with mod := { s.mod with errlog := s.mod.errlog.set 0 m.slot (m.entry ||| (1#128 <<< 26)) } }
  else s

/-- The end of a phase, at a checkpoint or at TEND (R253): outside check mode it takes effect. Rerun 1 records its
signature and gives way to rerun 2; rerun 2 takes effect when every core's signatures agree, and else leaves the error
RERUN_DISAGREE. The flag says whether the end takes effect. -/
def judgePhase (g : List Nat) (s : State) : State × Bool :=
  match (g.head?.bind (fun c => (coreAt s c).b.check)) with
  | none => (s, true)
  | some m =>
    if m.rerun = 1 then
      (onCores (fun q s => updBody (dropBehind q s) q (fun b =>
        beginRerun { (b.check.getD m) with rerun := 2, first := some (phaseSig b) } b)) g s, false)
    else if g.all (fun q => (coreAt s q).b.check.bind (fun m => m.first) == some (phaseSig (coreAt s q).b)) then
      (onCores (fun q s => updBody s q (fun b => { b with check := none })) g (markRolled m s), true)
    else (onCores (fun q s => updBody s q (fun b => { b with detected := some (codeRerun, b.r.pc, 0) })) g s, false)

/-! ### Pauses -/

/-- Begin a pause on a core or group (R279). -/
def setPause (g : List Nat) (cause : Nat) (s : State) : State :=
  onCores (fun q s => updBody s q (fun b => { b with pause := some { cause := cause, since := s.clk } })) g s

/-- Begin the wake of a gated bank (R27). -/
def wake (w : Option (Nat × Nat)) (s : State) : State :=
  match w with
  | some (q, b) => updCore s q (fun k => { k with gate := BitVec.ofNat 32 (withBits k.gate.toNat b 1 0) })
  | none => s

/-- End a pause: PAUSECNT counts its clocks and names its cause (R279, R282). -/
def clearPause (g : List Nat) (s : State) : State :=
  onCores (fun q s => updBody s q (fun b =>
    match b.pause with
    | some p =>
      let n := s.clk - p.since
      if n = 0 then { b with pause := none }
      else { b with pause := none, pauseCnt := BitVec.ofNat 48 (Nat.min (2 ^ 48 - 1) (b.pauseCnt.toNat + n)), lastPause := BitVec.ofNat 4 p.cause }
    | none => b)) g s

/-! ### TEND, steps 3 to 6 (R356) -/

/-- The last steps: the join is dissolved and the slot freed; the held effects of a provisional task stay with its launch
until its trim (R165). A store that has faulted behind the queue by then fails the launch (R237). -/
def tendFree (g : List Nat) (s : State) : State :=
  let s := if g.any (fun q => (coreAt s q).b.deferred != []) then
      (match g.head?.bind (taskOf s) with | some t => failLaunch t.launch codeDeferred (g.headD 0) s | none => s) else s
  let s := g.foldl (fun s q =>
    match taskOf s q with
    | some t =>
      let dim := match (launchOf s t.launch).pred with | some p => p.dim | none => 0
      updLaunch s t.launch (fun l => { l with held := l.held ++ (coreAt s q).b.holdQ.map (fun e => (q, taskCoord t dim, e)) })
    | none => s) s
  leaveTask g s

/-- Set the stage of a group's task. -/
def setStage (g : List Nat) (st : TaskStage) (s : State) : State :=
  onCores (fun q s => updBody s q (fun b => { b with task := b.task.map (fun t => { t with stage := st }) })) g s

/-- Step 5: wait with code 13 until every landing has arrived. -/
def tendLand (g : List Nat) (s : State) : State :=
  if g.all (fun q => (coreAt s q).b.r.lands.all (fun l => l.data.isSome)) then tendFree g (clearPause g s)
  else if g.any (fun q => (coreAt s q).b.pause.isSome) then s
  else setPause g 13 s

/-- Step 2: the fault of a token is taken precisely at the TEND bundle, whose other slots then count as not issued (R244). -/
def tendFault (g : List Nat) (q t : Nat) (s : State) : State :=
  let code := (tokRec s q t).code
  let s := onCores (fun q s => updBody s q (fun b =>
    { b with tendRegs := none, r := match b.tendRegs with | some k => { k with toks := b.r.toks, bufs := b.r.bufs } | none => b.r })) g s
  takeFault g (faultHere s (g.headD q) code 0 (some t) 0) (setStage g .running s)

/-- TEND (R356): step 1 waits with code 4 for the tokens, step 2 takes an unconsumed fault of the lowest-numbered token; a
detected error is left to the rollback; in check mode the end of the phase is judged (step 3); then the commit queue is
released (step 4). -/
def tendGo (g : List Nat) (s : State) : State :=
  if g.any (fun q => (coreAt s q).b.detected.isSome) then s
  else if g.any (fun q => liveToks s q != []) then
    if g.any (fun q => (coreAt s q).b.pause.isSome) then s else setPause g 4 s
  else
    let s := clearPause g s
    match ((List.range 64).flatMap (fun t => (g.filter (fun q => faultTok s q == some t)).map (fun q => (q, t)))).head? with
    | some (q, t) => tendFault g q t s
    | none =>
      let r := judgePhase g s
      if r.2 then tendLand g (setStage g (.tend 5) (g.foldl (fun s q => releaseQueue q s) r.1)) else setStage g .running r.1

/-! ### Issue -/

/-- Whether a core may issue: a task runs on it, no pause is in force, no detected error waits for its rollback, and no
refetched command is under way (R252). -/
def canIssue (s : State) (c : Nat) : Bool :=
  (groupOf s c).all (fun q =>
    let b := (coreAt s q).b
    (match b.task with | some t => t.stage == .running | none => false) && b.pause.isNone && b.detected.isNone && b.refetchWait == [])

/-- The bytes of the bundle being issued. -/
def bundleBytes (b : Body) : List Byte := b.hdrWords.flatMap (fun w => leBytes w 4)

/-- Where issue goes on after the bundle, and after how many cycles (R272, R353-R355): the loop counters are those the
bundle found. -/
def nextBundle (b : Body) (taken : Option Word) (after : Word) : Word × Nat × Bool × Bool :=
  match taken with
  | some t => (t, 3 + b.hdrIdle, false, false)
  | none =>
    if b.r.lc1.stop = some b.r.pc ∧ 2 ≤ b.r.lc1.count.toNat then (b.r.lc1.start, 1 + b.hdrIdle, false, true)
    else if b.r.lc0.stop = some b.r.pc ∧ 2 ≤ b.r.lc0.count.toNat then (b.r.lc0.start, 1 + b.hdrIdle, true, false)
    else (after, 1 + b.hdrIdle, false, false)

/-- The counters after an end bundle that takes no transfer (R355): one is counted down unless the bundle itself wrote
it; lc0 is examined only where lc1 takes no back edge. -/
def countLoops (old new : Regs) (back1 : Bool) : Regs :=
  let dec := fun (l : LoopCtr) => if l.count = 0 then l else { l with count := l.count - 1 }
  let new := if old.lc1.stop = some old.pc ∧ new.lc1 = old.lc1 then { new with lc1 := dec new.lc1 } else new
  if old.lc0.stop = some old.pc ∧ !back1 ∧ new.lc0 = old.lc0 then { new with lc0 := dec new.lc0 } else new

/-- Finish a bundle on one core of a group: the next bundle, the VCC, the loops, and the running CRCs (R255, R253). -/
def advance (old : Body) (taken : Option Word) (b : Body) : Body :=
  let n := nextBundle old taken (old.r.pc + BitVec.ofNat 64 old.hdrLen)
  let r := if taken = none then countLoops old.r b.r n.2.2.2 else b.r
  let seg := if old.r.vcc < r.seg.vcc0 then r.seg else { r.seg with crc := crc32cFrom r.seg.crc (bundleBytes old) }
  { b with
    r := { r with pc := n.1, vcc := old.r.vcc + n.2.1, seg := seg }, taken := none, ckptDone := false,
    check := b.check.map (fun m => { m with crcB := crc32cFrom m.crcB (bundleBytes old) }) }

/-- Whether a core's task stands in TEND. -/
def inTend (s : State) (c : Nat) : Bool := match taskOf s c with | some t => (match t.stage with | .tend _ => true | _ => false) | none => false

/-- Finish a bundle on the whole group. A TEND bundle keeps its PC and VCC while the task stands in it. -/
def finishBundle (g : List Nat) (o s : State) : State :=
  match g.head? with
  | none => s
  | some c =>
    let taken := (coreAt s c).b.taken
    let s := onCores (fun q s => updBody s q (advance (coreAt o q).b taken)) g s
    let s := onCores (fun q s => snapVcc q (coreAt o q).b.r.vcc (coreAt s q).b.r.vcc s) g s
    if inTend s c then
      tendGo g (onCores (fun q s => updRegs s q (fun r => { r with pc := (coreAt o q).b.r.pc, vcc := (coreAt o q).b.r.vcc })) g s)
    else s

/-- Apply the slots' effects to every core of the group, the CTL slot to the leading core alone (R273), and collect what
stops them, by core and then by slot position. -/
def evalSlots (g : List Nat) (slots : List (Nat × Eff)) (o : State) : State × List (Nat × Nat × Stop) :=
  g.foldl (fun acc q =>
    slots.foldl (fun acc x =>
      if x.1 = 0 ∧ g.head? ≠ some q then acc
      else match x.2 q o acc.1 with
        | .ok s => (s, acc.2)
        | .error e => (acc.1, acc.2 ++ [(q, x.1, e)])) acc) (o, [])

/-- The first fault of a list of stops: that of the lowest core, and of its lowest slot position (R244, R273). -/
def firstFault : List (Nat × Nat × Stop) → Option (Nat × Nat × BitVec 8 × Word × Option (Nat × Nat × Bool))
  | [] => none
  | (q, p, .fault code addr tok) :: _ => some (q, p, code, addr, tok)
  | _ :: t => firstFault t

/-- The first pause of a list of stops. -/
def firstPause : List (Nat × Nat × Stop) → Option (Nat × Option (Nat × Nat))
  | [] => none
  | (_, _, .pause cause w) :: _ => some (cause, w)
  | _ :: t => firstPause t

/-- What stands in the way of a bundle before its slots are looked at: a fault behind the commit queue (R237), late data
(R278), a write conflict of results that fall due (R275). -/
inductive Ahead where
  | deferred (e : CEntry) (cause : BitVec 8)
  | late
  | conflict
  | clear
  deriving DecidableEq, Repr

/-- The pointer of a queue entry. -/
def entryPtr (e : CEntry) : Word :=
  match e.body with
  | .access p _ _ => p
  | .rel _ p _ _ => p
  | .hinge p _ => p
  | _ => 0

def ahead (s : State) (g : List Nat) : Ahead :=
  match (g.flatMap (fun q => (coreAt s q).b.deferred)).head? with
  | some (e, cause) => .deferred e cause
  | none =>
    if g.any (fun q => isLate (coreAt s q).b.r) then .late
    else if g.any (fun q => clashIn (dueNow (coreAt s q).b.r) != []) then .conflict else .clear

/-- Take the first fault behind the commit queue off its core's list; any further one waits for a later boundary. -/
def takeDeferred (g : List Nat) (s : State) : State :=
  match g.find? (fun q => (coreAt s q).b.deferred != []) with
  | some q => updBody s q (fun b => { b with deferred := b.deferred.tail })
  | none => s

/-- Whether a consumption of poison repeats, in a rerun, the one that began the rollback (R253). -/
def repeatsPoison (b : Body) : Bool :=
  match b.check, b.detected with
  | some m, some (code, pc, _) => code == codePoison && m.code == codePoison && pc == m.pc0
  | _, _ => false

/-- The pointer of the access that met a core's detected error, or zero. -/
def detectedPtr (b : Body) : Word := match b.detected with | some (_, _, p) => p | none => 0

/-- Leave check mode without judging it. -/
def dropCheck (g : List Nat) (s : State) : State :=
  onCores (fun q s => updBody s q (fun b => { b with check := none, detected := none })) g s

/-- The slot position at which a bundle consumes poison: 15 where a landing does. -/
def poisonSlot (c : Nat) (slots : List (Nat × Eff)) (o : State) : Nat :=
  if (coreAt o c).b.detected.isSome then 15
  else
    match slots.find? (fun x => match x.2 c o o with | .ok s => (coreAt s c).b.detected.isSome | .error _ => false) with
    | some x => x.1
    | none => 15

/-- Issue a bundle whose words have been fetched: `extra` is a fault that the bundle's own checks give ahead of the slots'
effects, with its slot position (R323). A CKPT bundle faults, ends the wait of a WAITT, which may fault, and meets the poison that
lands at it before it waits with code 12 for its checkpoint (R249, R269); its other waits follow the release (R226, R359;
assumption 98). -/
def issueSlots (c : Nat) (slots : List (Nat × Eff)) (extra : Option (BitVec 8 × Nat)) (s : State) : State :=
  let g := groupOf s c
  let lead := g.headD c
  if !canIssue s c then s
  else match ahead s g with
  | .deferred e cause =>
    let s := takeDeferred g s
    takeFault g { code := codeDeferred, slot := 15, tok := none, cause := cause, pc := e.pc, addr := entryPtr e, vcc := e.vcc, resume := (coreAt s lead).b.r.pc } s
  | .late => setPause g 1 s
  | .conflict => takeFault g (faultHere s lead codeConflict 15 none 0) (onCores (fun q s => updBody s q dropClash) g s)
  | .clear =>
    let o := onCores (fun q s => updBody s q settle) g s
    let r := evalSlots g slots o
    let mine := firstFault r.2
    let worst : Option (Nat × Nat × BitVec 8 × Word × Option (Nat × Nat × Bool)) :=
      match extra, mine with
      | some (code, p), some (q, p2, m) => if p ≤ p2 ∨ q ≠ lead then some (lead, p, code, 0, none) else some (q, p2, m)
      | some (code, p), none => some (lead, p, code, 0, none)
      | none, m => m
    match worst with
    | some (_, p, code, addr, tok) =>
      let s := match tok with
        | some (q, t, true) => setTok s q t (fun x => { x with taken := true })
        | _ => s
      takeFault g (faultHere s lead code p (tok.map (fun x => x.2.1)) addr) s
    | none =>
      if (coreAt s lead).b.hdrCkpt && !(coreAt s lead).b.ckptDone then
        (if (firstPause r.2).map (fun p => p.1) = some 4 then setPause g 4 s
        else if g.any (fun q => (coreAt o q).b.detected.isSome) then o
        else setPause g 12 s)
      else match firstPause r.2 with
        | some (cause, w) => setPause g cause (wake w s)
        | none =>
          match g.find? (fun q => repeatsPoison (coreAt r.1 q).b) with
          | some q => takeFault g (faultHere s lead codePoison (poisonSlot q slots o) none (detectedPtr (coreAt r.1 q).b)) (dropCheck g s)
          | none => finishBundle g o r.1

/-- Issue a bundle of one slot on the core the step names: the meaning of each slot instruction. -/
def runSlot (pos : Nat) (f : Eff) (s : State) : Host.Outcome State Fault Refusal :=
  .next (issueSlots s.curCore [(pos, f)] none s)

end Sys2Proof.Machine
end

