-- ==== Sys2Proof/Machine/Engine.lean ====
section
/-!
DEFINITION. Sys2Proof/Machine/Engine.lean: what the matrix and copy engines share: issue of a command (R420-R422, R339,
R341), its log for a rerun (R250, R252), the end of its token (R247, R248, R421), and the reads and writes of its lines.
-/

namespace Sys2Proof.Machine

/-- Why an engine cannot make an access now: a fault that ends its token, or a bank that is gated or waking (R27). -/
inductive EngStop where
  | fail (code : BitVec 8)
  | stall (bank : Option (Nat × Nat))
  deriving DecidableEq, Repr

/-- A check of R207 as an engine meets it. -/
def engLoc (s : State) (c : Nat) (who : Issuer) (p : Word) (n align : Nat) (win : Windows) (wr : Bool) : Except EngStop Loc :=
  match accessAs s c who p n align win wr with
  | .ok l => if bankReady s l n then .ok l else .error (.stall (unready s l n))
  | .error (.fault code _ _) => .error (.fail code)
  | .error (.pause _ w) => .error (.stall w)

/-- An engine's read of a local place, by a requester class of R458: a poisoned byte is consumed by the core (R256). -/
def engRead (src : Nat) (consume : Bool) (s : State) (c : Nat) (pc : Word) (l : Loc) (n : Nat) : State × List Byte :=
  (injected src c pc l n (if consume && poisoned s l n then detectAt pc c codePoison s else s), readLoc s l n)

/-- The four-core cluster's cores that take part in a joint operation, or the core alone. -/
def jointCores (c : Nat) (joint : Bool) : List Nat := if joint then clusterCores c else [c]

/-! ### Issue -/

/-- The twelve registers of the copy engine, live after the exchange (R341, R247). -/
def snapX (r : Regs) (sw : Bool) : List Word := (List.range 12).map (fun i => (if sw then r.shadX else r.liveX).get 0 i)
/-- The twelve registers of the matrix engine. -/
def snapM (r : Regs) (sw : Bool) : List Word := (List.range 12).map (fun i => (if sw then r.shadM else r.liveM).get 0 i)

/-- The tokens a command waits on: an input field equal to TOUT names none (R339). -/
def tokIns (tout : Nat) (l : List Nat) : List Nat := (l.filter (fun t => t != tout)).eraseDups

/-- Whether a token is live (R339). -/
def tokLive (o : State) (c t : Nat) : Bool := (tokRec o c t).used && (tokRec o c t).status == .pending

/-- The log entry of a command (R250). -/
def logOf (f : Refetch) : ExtLog := { slot := f.slot, op := f.op, et := f.et.code, tok := f.tok, snap := f.snap }

/-- In check mode, the next unused entry of the external log, if there is one (R252): the entries that earlier slots of the bundle bound to
are used. -/
def nextLog (o : State) (c : Nat) : Option ExtLog :=
  match (coreAt o c).b.check with
  | some m => (coreAt o c).b.extLog[m.next]?
  | none => none

/-- Whether the command is one that a rerun binds to its log entry and does not issue (R252). -/
def binds (o : State) (c : Nat) (ext : Bool) (f : Refetch) : Bool := ext && nextLog o c == some (logOf f)

/-- The exchange of R341 on one core. -/
def exchange (mx : Bool) (r : Regs) : Regs :=
  if mx then { r with liveM := r.shadM, shadM := r.liveM } else { r with liveX := r.shadX, shadX := r.liveX }

/-- Enter a command into its engine (R421), log it for a rerun (R250), or bind it to its log entry (R252). `ext` says that
its destination lies outside the core, `int` that it lies in the core's scratchpad or weight buffers. -/
def enterCmd (c : Nat) (o s : State) (ext int sw : Bool) (f : Refetch) (toks : List Nat) (engine : BitVec 4)
    (push : List Nat → Option (BitVec 8) → Body → Body) : State :=
  let s := if sw then updRegs s c (exchange (f.slot == 6)) else s
  if binds s c ext f then
    updBody s c (fun b => { b with check := b.check.map (fun m => { m with next := m.next + 1 }) })
  else if ext && (nextLog s c).isSome then detect c codeRerun s
  else
    let ins := toks.filter (tokLive o c)
    let fault := (toks.filter (fun t => (tokRec o c t).used && (tokRec o c t).status == .fault)).head?.map (fun t => (tokRec o c t).code)
    let rec_ : TokenRec :=
      { used := true, status := .pending, code := 0, short := false, tout := false, engine := engine, progress := 0, pc := f.pc,
        vcc := BitVec.ofNat 48 f.vcc, snap := f.snap, taken := false }
    let s := setTok s c f.tok (fun _ => rec_)
    updBody s c (fun b =>
      let b := push ins fault b
      let b := if ext then (if b.extLog.length < 64 then { b with extLog := b.extLog ++ [logOf f] } else { b with noroll := true }) else b
      let b := match b.check with | some m => if ext then { b with check := some { m with next := m.next + 1 } } else b | none => b
      if int then { b with phaseCmds := b.phaseCmds ++ [f] } else b)

/-- The description of a command as its bundle issues it. -/
def cmdNow (o : State) (c slot op : Nat) (et : Fmt) (tok : Nat) (snap : List Word) : Refetch :=
  { slot := slot, op := op, et := et, tok := tok, snap := snap, pc := (coreAt o c).b.r.pc, vcc := (coreAt o c).b.r.vcc, who := issuerOf o c }

/-- The lowest-numbered block of a table slot in the weight-block queue waits for a table still loading (R292). -/
def tableStall (o : State) (c : Nat) : Bool :=
  let b := (coreAt o c).b
  b.wbQ.any (fun w => match w.table with | some ts => (tabSlot b ts).loading && decide (0 < w.src.length) | none => false)

/-- An SF or MX operation waits with code 3 while a weight block waits for its table (R292); its own faults come first. -/
def behindTable (f : Eff) : Eff := fun c o s =>
  match f c o s with
  | .error (.fault code a t) => .error (.fault code a t)
  | r => if tableStall o c then pauseFor 3 else r

/-! ### The end of a command -/

/-- What a consumed token's end means to the commands that wait for it (R234, R248). -/
def tokEnded (t : Nat) (code : Option (BitVec 8)) (ins : List Nat) (fault : Option (BitVec 8)) : List Nat × Option (BitVec 8) :=
  if ins.contains t then (ins.filter (fun u => u != t), if fault.isSome then fault else code) else (ins, fault)

/-- A command ends (R421): its record, or its launch where its task has ended (R356); the commands that consume its token;
and the wait of a rollback for a refetched command, whose fault is taken precisely (R252). -/
def endTok (c t : Nat) (orphan : Bool) (who : Issuer) (st : TokStatus) (code : BitVec 8) (prog : Nat) (s : State) : State :=
  let bad : Option (BitVec 8) := if st = .fault then some code else none
  let s := if orphan then (if st = .fault then failLaunch who.launch code c s else s)
    else setTok s c t (fun r => { r with status := st, code := code, progress := BitVec.ofNat 48 prog })
  let wait := !orphan && (coreAt s c).b.refetchWait.contains t
  let s := updBody s c (fun b => { b with
    mxQ := b.mxQ.map (fun m => if m.orphan = orphan then { m with ins := (tokEnded t bad m.ins m.fault).1, fault := (tokEnded t bad m.ins m.fault).2 } else m),
    xfQ := b.xfQ.map (fun x => if x.orphan = orphan then { x with ins := (tokEnded t bad x.ins x.fault).1, fault := (tokEnded t bad x.ins x.fault).2 } else x),
    refetchWait := if orphan then b.refetchWait else b.refetchWait.filter (fun u => u != t) })
  if wait ∧ st = .fault then
    let s := updBody s c (fun b => { b with refetchWait := [] })
    takeFault (groupOf s c) (faultHere s c code 15 none 0) s
  else s

end Sys2Proof.Machine
end

