-- ==== Sys2Proof/Machine/Home.lean ====
section
/-!
DEFINITION. Sys2Proof/Machine/Home.lean: what an access does at the place where it performs: the home slice of a tensor
(R217-R222, R240), a scratchpad bank (R220), or the host window; the pages it allocates (R176, R179), the read counts of
cached lines (R218), and the parity deltas of survivable tensors (R262, R265).
-/

namespace Sys2Proof.Machine

/-! ### Free values, lost dies, free pages -/

/-- `n` bytes the spec leaves open: what the world outside the module holds. -/
def freeBytes (s : State) (n : Nat) : State × List Byte :=
  let k := (n + 7) / 8
  ({ s with free := s.free + k }, ((List.range k).flatMap (fun i => leBytes (Config.freeValue (s.free + i)).toNat 8)).take n)

/-- The HBM4E pages of 64 KiB of a die (R13). -/
def hbmPages (d : Nat) : Nat := if d < 4 then 48 * 16384 else 144 * 16384

/-- The pages of a slice's own tables (R170, R180, R188, R198; assumption 36): records, recipe store, dependent table and page-lock
table. -/
def haspPages : Nat := 2048 + 2048 + 8 + 4

/-- The pages a die reserves at boot: bounce buffer (R182), save frames (R156), the page table's area (assumption 6), the Deadbolt holder
areas (R261, R265) and the slice's tables. -/
def reservedPages (s : State) (d : Nat) : Nat :=
  4096 + dieClusters d * 4 * 2 * 80 + pageTableBytes / 65536 + s.mod.db.dbslots.toNat / 8 + s.mod.db.dbmslots.toNat / 4 + haspPages

/-- The pages of a number of bytes. -/
def pagesOf (bytes : Nat) : Nat := (bytes + 65535) / 65536

/-- The pages in use for compressed tiles on a die. -/
def tilePages (s : State) (d : Nat) : Nat :=
  (s.recs.cells.map (fun x => if hostDie s (handleDie x.1) = d ∧ x.2.state = .compressed then pagesOf (x.2.ckib.toNat * 1024) else 0)).sum

/-- The allocated pages of a die, or of those it hosts, that a spill has already moved out of HBM4E. -/
def movedOut (s : State) (e : Nat) : Nat :=
  ((List.range 8).map (fun d => if hostDie s d = e then
    ((hasp s d).moves.map (fun m => if m.restore ∨ m.comp then 0
      else ((List.range m.page).filter (fun i => s.pages.get false (d * 2 ^ 33 + (trec s m.h).iapage % 2 ^ 33 + i))).length)).sum else 0)).sum

/-- The free HBM4E pages for tensors of a die, those of its adopter once the die is lost (R184, R260). -/
def freePages (s : State) (d : Nat) : Nat :=
  let e := hostDie s d
  hbmPages e + movedOut s e - reservedPages s e - tilePages s e - (s.pages.cells.filter (fun x => decide (hostDie s (x.1 / 2 ^ 33) = e))).length

/-- The free pages of a die's share of the LPDDR6, an eighth of the whole (R14). -/
def freeSpill (s : State) (d : Nat) : Nat :=
  2 ^ 41 / 8 / 65536 - (s.recs.cells.map (fun x => if handleDie x.1 = d ∧ x.2.state = .spilled then pagesOf x.2.bytes else 0)).sum

/-- Whether eviction can free nothing more on a die: its share of the LPDDR6 is full, or no tensor of it is unpinned (R179, R184). -/
def noRoomLeft (s : State) (d : Nat) : Bool :=
  freeSpill s d == 0 || !s.recs.cells.any (fun x => handleDie x.1 == d && x.2.state == .hbm && x.2.pincnt == 0 && !(hasp s d).pins.any (fun p => bitsOf p.ptr.toNat 40 23 == x.1))

/-- The page-table index of a page of a tensor. -/
def pageKey (s : State) (h page : Nat) : Nat := tlbKey (handleDie h) (((trec s h).iapage + page) * 2 ^ 16)

/-- The pages of a tensor that `n` bytes touch and that are not allocated. -/
def newPages (s : State) (h o n : Nat) : List Nat :=
  if isPageTable h ∨ n = 0 then []
  else ((List.range ((o + n - 1) / 65536 - o / 65536 + 1)).map (fun i => o / 65536 + i)).filter (fun i =>
    (!s.pages.get false (pageKey s h i) && !inSpill s h i) || byteKey s h (65536 * i) == zeroKey)

/-- The Hasp writes its own leaf entry for a page of a die, where a walk comes to it, and the controllers forget what they held (R176).
Where a page-table store has cut the way to it, the Hasp's own tables stand again. -/
def writeLeaf (die p : Nat) (s : State) : State :=
  let s := { s with tlb := s.tlb.keep (fun j _ => j % 2 ^ 36 != die * 2 ^ 33 + p) }
  let own := 65536 * (513 + p / 4096) + 8 * (p % 4096)
  match leafAddr s die (p * 2 ^ 16) with
  | some a =>
    if a = pageTableBase + own then { s with ptw := s.ptw.set false (entryKey die own) false }
    else { s with mem := s.mem.setBytes (physKey s die 0 a) (leBytes (ownLeaf s die p) 8) }
  | none =>
    let second := 65536 * (1 + p / 2 ^ 24) + 8 * (p / 2 ^ 12 % 2 ^ 12)
    { s with ptw := [8 * (p / 2 ^ 24), second, own].foldl (fun t off => t.set false (entryKey die off) false) s.ptw }

/-- The pager installs a zero page where a page-table store has left an allocated page of a tensor without a frame (R179). -/
def installPage (h page : Nat) (s : State) : State :=
  if isPageTable h ∨ byteKey s h (65536 * page) ≠ zeroKey then s
  else writeLeaf (handleDie h) (pageOf (((trec s h).iapage + page) * 2 ^ 16)) { s with mem := s.mem.zeroRange (globKey h (65536 * page)) 65536 }

/-- The pages that `n` bytes of a tensor touch. -/
def pagesAt (o n : Nat) : List Nat := if n = 0 then [] else (List.range ((o + n - 1) / 65536 - o / 65536 + 1)).map (fun i => o / 65536 + i)

/-- Those of them whose walk finds V clear (R179). -/
def pagesClear (s : State) (h o n : Nat) : List Nat :=
  if isPageTable h then []
  else (pagesAt o n).filter (fun i => !bitAt (leafOf s (handleDie h) (((trec s h).iapage + i) * 2 ^ 16)) 0 && byteKey s h (65536 * i) == zeroKey)

/-- Whether a read of the entries on the way to a page's leaf meets poison. -/
def tablePoison (s : State) (h i : Nat) : Bool :=
  let d := handleDie h
  let ia := ((trec s h).iapage + i) * 2 ^ 16
  let root := pageTableBase + 8 * bitsOf ia 40 9
  let second := bitsOf (pte s d root) 16 36 * 2 ^ 16 + 8 * bitsOf ia 28 12
  [some root, some second, leafAddr s d ia].any (fun a => match a with | some a => poisonAt s (physKey s d 0 a) | none => false)

/-- Allocate pages of a tensor. -/
def takePages (h : Nat) (l : List Nat) (s : State) : State :=
  l.foldl (fun s i => installPage h i { s with pages := s.pages.set false (pageKey s h i) true }) s

/-- Free every page of a tensor. -/
def freeTensorPages (s : State) (h : Nat) : State :=
  (List.range (pagesOf (trec s h).bytes)).foldl (fun s i => { s with pages := s.pages.set false (pageKey s h i) false }) s

/-! ### Parity deltas (R262, R265) -/

/-- The key of a byte of a die's parity page of a stripe (R261). -/
def parityKey (d k o : Nat) : Nat := 7 * 2 ^ 60 + d * 2 ^ 48 + k * 2 ^ 16 + o
/-- The key of a byte of module-level parity. -/
def mparityKey (d k o : Nat) : Nat := 7 * 2 ^ 60 + 2 ^ 56 + d * 2 ^ 48 + k * 2 ^ 16 + o

/-- The data slot that protects a page, in a slot map keyed by die * 2^24 + slot. -/
def slotOf (m : Tab (Nat × Nat)) (h page : Nat) : Option Nat := (m.cells.find? (fun x => x.2 == (h, page))).map (·.1)

/-- The exclusive or of two byte lists. -/
def xorBytes (a b : List Byte) : List Byte := (a.zip b).map (fun x => x.1 ^^^ x.2)

/-- A delta on its way to the parity holder of a stripe, on lane 3. -/
def sendDelta (src stripe off : Nat) (bytes : List Byte) (s : State) : State :=
  let (id, s) := fresh s
  { s with packets := s.packets ++ [{ id := id, lane := 3, src := .die src, dst := .die (stripe % 8), core := 512, after := [], lackUs := none, body := .delta stripe off bytes }] }

/-- Member `i` of the Deadbolt group (R49). -/
def dbMember (s : State) (i : Nat) : Nat := fieldW s.mod.db.group (12 * i) 12

/-- The first 16 bytes of every link packet (assumption 13): source module, kind, an argument, destination module, a tag and a
line. -/
def netHead (s : State) (kind arg dest tag line : Nat) : List Byte :=
  leBytes s.mod.ngself.toNat 2 ++ [BitVec.ofNat 8 kind, BitVec.ofNat 8 arg] ++ leBytes dest 2 ++ leBytes tag 4 ++ leBytes line 6

/-- A module-level delta as it travels on Ngusin lane 4 (R265): its holder compares the member list it carries with its own
(R49). -/
def mdelta (s : State) (d id j off : Nat) (bytes : List Byte) : NetPacket :=
  { dest := dbMember s (j % 4), vl := 4, bytes := netHead s 5 d (dbMember s (j % 4)) id 0 ++ leBytes s.mod.db.group.toNat 6 ++ leBytes j 4 ++ leBytes off 4 ++ bytes }

/-! ### Routing (R45, R46) -/

/-- An entry of the routing table of a port. -/
def ngrtEntry (s : State) (q dest : Nat) : Nat := (s.mod.ngrt.get 0 (q * 4096 + dest)).toNat
/-- Whether a port is up. -/
def portUp (s : State) (q : Nat) : Bool := (s.mod.ports.get .zero q).state == .up
/-- Whether a primary port takes packets: it is neither FAILED nor disabled. One that trains keeps them until it is up (assumption 97). -/
def portTakes (s : State) (q : Nat) : Bool := portUp s q || (s.mod.ports.get .zero q).state == .training
/-- The port an entry chooses: the primary, or a valid alternate that is up (R45, R46). -/
def routePort (s : State) (q dest : Nat) : Option Nat :=
  let e := ngrtEntry s q dest
  if portTakes s (bitsOf e 0 5) then some (bitsOf e 0 5)
  else if bitAt e 11 && portUp s (bitsOf e 6 5) then some (bitsOf e 6 5) else none
/-- Change a port. -/
def updPort (s : State) (q : Nat) (f : Port → Port) : State := { s with mod := { s.mod with ports := s.mod.ports.upd .zero q f } }
/-- Whether packets for a destination that a table sent to a port are not all acknowledged. -/
def routeBusy (s : State) (q dest port : Nat) : Bool :=
  let x := s.mod.ports.get .zero port
  x.queue.any (fun p => p.1 == q && p.2.dest == dest) || x.tx.cells.any (fun p => match p.2 with | some r => r.2.dest == dest | none => false) || x.flits.any (fun f => f.dest == dest) || x.replay.any (fun f => f.2.dest == dest)
/-- Whether packets of a table for a destination are held for a switch of route. -/
def routeHeld (s : State) (q dest : Nat) : Bool := s.mod.routeHold.any (fun p => p.1 == q && p.2.dest == dest)
/-- The payload bytes of a flit (R39). -/
def flitBytes : Nat := 52
/-- The bytes in a port's smoothing queue (R47). -/
def queueBytes (x : Port) : Nat :=
  (x.queue.map (fun p => p.2.bytes.length)).sum + (x.tx.cells.map (fun p => match p.2 with | some r => r.2.bytes.length | none => 0)).sum + flitBytes * x.flits.length
/-- The queue stops compression above 1.5 MiB and lets it begin again below 1 MiB (R47). -/
def zxGate (x : Port) : Port :=
  { x with zxHold := if 3 * 2 ^ 19 < queueBytes x then true else if queueBytes x < 2 ^ 20 then false else x.zxHold }
/-- Queue a packet at a port. -/
def putPort (q port : Nat) (p : NetPacket) (s : State) : State :=
  let s := updPort s port (fun x => zxGate { x with queue := x.queue ++ [(q, p)] })
  { s with mod := { s.mod with lastRoute := s.mod.lastRoute.set 0 (q * 4096 + p.dest) (port + 1) } }
/-- Give a packet to this module. -/
def toLocal (p : NetPacket) (s : State) : State :=
  let (id, s) := fresh s
  { s with packets := s.packets ++ [{ id := id, lane := 0, src := .io 0, dst := .io 0, core := 512, after := [], lackUs := none, body := .net p.vl p.bytes }] }

/-- Send a packet through the routing table of a port (R45, R46); the flag says whether a route took it. A packet on a new route is
held until what went before it on the old route has been acknowledged. -/
def netRoute (q : Nat) (p : NetPacket) (s : State) : State × Bool :=
  let e := ngrtEntry s q p.dest
  if 4096 ≤ p.dest ∨ !bitAt e 12 then (s, false)
  else match (if bitAt e 5 then some none else (routePort s q p.dest).map some) with
  | none => (s, false)
  | some way =>
    let old := s.mod.lastRoute.get 0 (q * 4096 + p.dest)
    let new := match way with | some port => port + 1 | none => 0
    if routeHeld s q p.dest || (old != 0 && old != new && routeBusy s q p.dest (old - 1)) then
      ({ s with mod := { s.mod with routeHold := s.mod.routeHold ++ [(q, p)] } }, true)
    else match way with
    | some port => (putPort q port p s, true)
    | none => (toLocal p { s with mod := { s.mod with lastRoute := s.mod.lastRoute.set 0 (q * 4096 + p.dest) 0 } }, true)

/-- Send a packet of this module: it is looked up in the table of port 0 (R45). -/
def netSend (p : NetPacket) (s : State) : State × Bool := netRoute 0 p s

/-- Send a module-level delta; a marker stays until its holder answers. -/
def sendMdelta (d j off : Nat) (bytes : List Byte) (s : State) : State :=
  let (id, s) := fresh s
  let r := netSend (mdelta s d id j off bytes) s
  if r.2 then { r.1 with packets := r.1.packets ++ [{ id := id, lane := 4, src := .die d, dst := .link 0, core := 512, after := [], lackUs := none, body := .delta j off bytes }] }
  else r.1

/-- Name the writer, a core or 512 and a context, of the deltas sent since a packet number. -/
def tagDeltas (old who : Nat) (s : State) : State :=
  { s with packets := s.packets.map (fun p => match p.body with | .delta _ _ _ => if old ≤ p.id then { p with core := who } else p | _ => p) }

/-- The die-level delta of one page of a write; none while the package is degraded (R262, R264). -/
def dieDelta (h page off : Nat) (bytes : List Byte) (s : State) : State :=
  match slotOf s.mod.db.slots h page with
  | some k => if s.degraded then s else sendDelta (handleDie h) (k % 2 ^ 24) off bytes s
  | none => s

/-- The module-level delta of one page of a write (R265). -/
def modDelta (h page off : Nat) (bytes : List Byte) (s : State) : State :=
  match (if (trec s h).survm && bitAt s.mod.db.group.toNat 50 then slotOf s.mod.db.mslots h page else none) with
  | some j => sendMdelta (handleDie h) (j % 2 ^ 24) off bytes s
  | none => s

/-- The deltas of one page of a write: those at die level and, for SURVM, at module level. -/
def pageDelta (s : State) (h page off : Nat) (bytes : List Byte) : State := modDelta h page off bytes (dieDelta h page off bytes s)

/-- The deltas of a write of `n` bytes, page by page. -/
def survDelta (s : State) (h o : Nat) (d : List Byte) : State :=
  if !(trec s h).surv || d.all (fun b => b == 0) then s
  else
    (List.range ((o + d.length - 1) / 65536 - o / 65536 + 1)).foldl (fun s i =>
      let page := o / 65536 + i
      let lo := Nat.max o (page * 65536)
      let part := (d.drop (lo - o)).take ((page + 1) * 65536 - lo)
      pageDelta s h page (lo % 65536) part) s

/-! ### Page moves that a program interferes with (R189, R193) -/

/-- The end of a request of HFORCE (R463): DONE, or REFUSED with its reason; PF vector 3 follows. -/
def hforceEnd (d why : Nat) (s : State) : State :=
  sendMsix 3 (updHasp s d (fun x => { x with
    hfBusy := false, hfDone := x.hfDone || why == 0, hfRef := x.hfRef || why != 0, hfWhy := if why = 0 then x.hfWhy else BitVec.ofNat 3 why }))

/-- The move in progress of a tensor. -/
def moveOf (s : State) (h : Nat) : Option Move := (hasp s (handleDie h)).moves.find? (fun m => m.h == h)
/-- Take the move of a tensor away. -/
def dropMove (h : Nat) (s : State) : State := updHasp s (handleDie h) (fun x => { x with moves := x.moves.filter (fun m => m.h != h) })
/-- Change the move of a tensor. -/
def updMove (h : Nat) (f : Move → Move) (s : State) : State :=
  updHasp s (handleDie h) (fun x => { x with moves := x.moves.map (fun m => if m.h = h then f m else m) })

/-- The Hasp's own leaf entry of a page stands again, and the page's bytes are in the frame it names, after a page-table store had put them
elsewhere (R176, R178). -/
def settlePage (h page : Nat) (s : State) : State :=
  let own := globKey h (65536 * page)
  let k := byteKey s h (65536 * page)
  let s := if k = own then s else { s with
    mem := s.mem.setBytes own (s.mem.bytes k 65536), poison := (List.range 2048).foldl (fun t q => t.set false (own / 32 + q) (poisonAt s (k + 32 * q))) s.poison }
  writeLeaf (handleDie h) (pageOf (((trec s h).iapage + page) * 2 ^ 16)) s

/-- The line of a page that a swap has in its staging buffer (R194). -/
def stagedLine (m : Move) : Option Nat := if m.staged then some (512 * m.page + m.lines) else none

/-- Whether `n` bytes of a tensor meet a line that is in a staging buffer: a write of them is held until the line lands (R194). -/
def isStaged (s : State) (h o n : Nat) : Bool :=
  match moveOf s h with
  | some m => (match stagedLine m with | some l => decide (128 * l < o + n) && decide (o < 128 * (l + 1)) | none => false)
  | none => false

/-- The next page of a move follows. -/
def nextPage (h : Nat) (s : State) : State := updMove h (fun m => { m with page := m.page + 1, marked := [], pass := 0, lines := 0, staged := false }) s

/-- The restore that exchanges a page with the spill of a tensor, where an exchange of theirs has begun (R194). -/
def inExchange (s : State) (m : Move) : Option Move :=
  if m.lines = 0 ∧ !m.staged then none
  else (hasp s (handleDie m.h)).moves.find? (fun x => x.restore && (x.lines != 0 || x.staged))

/-- An eviction action in progress is abandoned: the tensor stays HBM with its contents, and the pages already moved go back (R189, R193).
An exchange that has begun is not abandoned: its restored page has come in (R194). -/
def abandonMove (h : Nat) (s : State) : State :=
  match moveOf s h with
  | some m =>
    if m.restore then s
    else
      let s := match inExchange s m with
        | some x => nextPage x.h (settlePage x.h x.page { s with pages := s.pages.set false (pageKey s x.h x.page) true })
        | none => s
      let s := updRec (dropMove h s) h (fun r => { r with busy := false })
      if m.forced then hforceEnd (handleDie h) 6 s else s
  | none => s

/-- A write marks its lines in the dirty filter of the page being copied (R193). -/
def markMove (h o n : Nat) (s : State) : State :=
  match moveOf s h with
  | some _ =>
    let hit := (List.range ((o + n - 1) / 128 - o / 128 + 1)).map (fun i => o / 128 + i)
    updMove h (fun m => { m with marked := (m.marked ++ hit.filter (fun l => l / 512 == m.page && !m.marked.contains l)) }) s
  | none => s

/-! ### Tensor bytes -/

/-- Write bytes of a tensor as its home does: pages are allocated, poison cleared where whole sectors are written, read
counts dropped, and parity deltas sent. -/
def storeGlob (s : State) (h o : Nat) (bytes : List Byte) (mask : List Bool) : State :=
  let l := Loc.glob h o
  let old := readLoc s l bytes.length
  let s := writeEntries (takePages h (newPages s h o bytes.length) s) l bytes.length
  let s := clearPoison (writeMasked s l 0 bytes mask) l bytes.length mask
  let s := markMove h o bytes.length (dropCounts s h o bytes.length)
  survDelta s h o (xorBytes old (readLoc s l bytes.length))

/-- What comes of an access at its home: done, with a response, to be tried again later, or a fault (R237). -/
inductive HomeRes where
  | done (s : State) (resp : Option (BitVec 1024 × Bool))
  | wait
  | fault (code : BitVec 8)
  deriving DecidableEq, Repr

/-- The bytes of its span an access stores to, where it stores. -/
def opMask : AccessOp → List Bool
  | .store _ mk => mk
  | op => allMask (opSpan op)

/-- What an access's home reads of HBM4E for it (R52, R54). -/
def atHbm (l : Loc) (op : AccessOp) (s : State) : State :=
  if opWrites op then demandWrite l (opSpan op) (opMask op) s else demandRead l (opSpan op) s

/-- An access at the place where it performs. `die` is the die of the requester, `own` the context it writes for (R240);
`lands` where a scratchpad access comes from. -/
def homeAccess (s : State) (die : Nat) (l : Loc) (op : AccessOp) (own : Option Nat) : HomeRes :=
  match l with
  | .glob h o =>
    if dieGone s (handleDie h) then .fault codeDieLost
    else if opWrites op && !isPageTable h && own.isSome && own != some (trec s h).owner.toNat then .fault codePrivilege
    else if opWrites op && isStaged s h o (opSpan op) then .wait
    else if (pagesClear s h o (opSpan op)).any (tablePoison s h) then (if opWrites op then .fault codeTranslation else .done s (some (0, true)))
    else if decide (freePages s (handleDie h) < (if opWrites op then newPages s h o (opSpan op) else pagesClear s h o (opSpan op)).length) then
      (if !opWrites op && noRoomLeft s (handleDie h) then .done s (some (0, true)) else .wait)
    else
      let s := if opWrites op then s else takePages h (pagesClear s h o (opSpan op)) s
      let r := applyOp (atHbm l op s) l op (fun s bs mk => storeGlob s h o bs mk)
      .done (match op with
        | .store bs _ => dirtyLines r.1 die h o bs.length
        | .load n _ _ => countRead r.1 die h o n
        | .table _ _ _ => countRead r.1 die h o 16
        | _ => r.1) r.2
  | .flat _ =>
    if !bankReady s l (opSpan op) then .wait
    else
      let r := applyOp s l op (putFlat l)
      .done r.1 r.2
  | .host _ _ =>
    match op with
    | .load n _ fw =>
      let r := freeBytes s n
      .done r.1 (some (vecOf (withHeld r.2 fw), false))
    | _ =>
      let r := applyOp s l op (fun s bs mk => writeMasked s l 0 bs mk)
      .done r.1 r.2

/-! ### Link data (R182, R183) -/

/-- Whether a tensor's bytes are in HBM4E or the LLC (R171). -/
def isResident (t : TRec) : Bool := t.state == .hbm || t.state == .llcpin

/-- A tensor is written by something other than a re-run of its own recipe (R195). -/
def spoilRecipe (h : Nat) (s : State) : State := updRec s h (fun r => { r with rvalid := false })

/-- A tensor is written by link data (R126, R195, R196): the recipes that name it no longer match (assumption 19). -/
def linkWritten (h : Nat) (s : State) : State := updRec s h (fun r => { r with gen := r.gen + 1, rvalid := false })

/-- Whether a bounce buffer holds data for a tensor: no later access performs before it is applied (R182). -/
def bounceHeld (s : State) (h : Nat) : Bool := (hasp s (handleDie h)).bounce.any (fun b => b.h == h)

/-- Whether accesses to a tensor's bytes may perform: they are there, and no data waits to be applied first. -/
def isReady (s : State) (h : Nat) : Bool := isResident (trec s h) && !bounceHeld s h

/-- The bytes a die's bounce buffer holds (R182). -/
def bounceBytes (s : State) (d : Nat) : Nat := ((hasp s d).bounce.map (fun b => b.bytes.length)).sum

/-- Whether data for a resident tensor can be written now: the tensor is not recipe-held (R196), its page has room, and no line of it is in a
staging buffer. -/
def linkFits (s : State) (h o n : Nat) : Bool :=
  (trec s h).rhcnt == 0 && decide ((newPages s h o n).length ≤ freePages s (handleDie h)) && !isStaged s h o n

/-- What comes of link data: it is written, lands in the bounce buffer, waits, or faults. -/
inductive LinkRes where
  | done (s : State)
  | bounced (s : State)
  | wait
  | fault (code : BitVec 8)
  deriving DecidableEq, Repr

/-- Data from a link for a tensor (R183): checked for the target's partition; bounced where the tensor is not resident, or behind data that
is (R182); held while the tensor is recipe-held (R196) or the bounce buffer is full. -/
def linkWrite (s : State) (part : Nat) (b : Bounced) : LinkRes :=
  let r := trec s b.h
  let d := handleDie b.h
  if r.state = .free ∨ r.freeing ∨ r.part.toNat ≠ part ∨ isPageTable b.h then .fault codeUndeclared
  else if r.bytes < b.o + b.bytes.length then .fault codeBounds
  else if dieGone s d then .fault codeDieLost
  else if !isReady s b.h then
    if 2 ^ 28 < bounceBytes s d + b.bytes.length then .wait else .bounced (updHasp s d (fun x => { x with bounce := x.bounce ++ [b] }))
  else if !linkFits s b.h b.o b.bytes.length then .wait
  else .done (linkWritten b.h (storeGlob s b.h b.o b.bytes (allMask b.bytes.length)))

end Sys2Proof.Machine
end

