-- ==== Sys2Proof/Machine/Copy.lean ====
section
/-!
DEFINITION. Sys2Proof/Machine/Copy.lean: the XF commands (R443-R457): their checks at issue, their lines, the
weight-block queue (R291, R292, R448), and the exact reduction between cores (R453).
-/

namespace Sys2Proof.Machine

/-! ### Parameters (R443) -/

def xfSrc (q : List Word) : Word := nthD q 0 0
def xfDst (q : List Word) : Word := nthD q 1 0
def xfSync (q : List Word) : Word := nthD q 2 0
def xfG (q : List Word) (i : Nat) : Word := nthD q i 0
def xfEt (q : List Word) : Fmt := Fmt.ofCode (fieldW (xfG q 3) 0 4)
def xfStrict (q : List Word) : Bool := bitAt (xfG q 3).toNat 4
def xfAlg (q : List Word) : Nat := fieldW (xfG q 3) 5 1
def xfTs (q : List Word) : Nat := fieldW (xfG q 3) 6 1
def xfWmode (q : List Word) : Nat := fieldW (xfG q 3) 7 2
def xfCount (q : List Word) : Nat := fieldW (xfG q 3) 16 16
def xfX0 (q : List Word) : Nat := fieldW (nthD q 8 0) 0 24
def xfX1 (q : List Word) : Nat := fieldW (nthD q 8 0) 24 16
def xfX2 (q : List Word) : Nat := fieldW (nthD q 8 0) 40 16
def xfSrs (q : List Word) : Nat := fieldW (nthD q 9 0) 0 32
def xfSps (q : List Word) : Nat := fieldW (nthD q 9 0) 32 32
def xfDrs (q : List Word) : Nat := fieldW (nthD q 10 0) 0 32
def xfDps (q : List Word) : Nat := fieldW (nthD q 10 0) 32 32
def xfEcol (q : List Word) : Nat := fieldW (nthD q 11 0) 0 32
def xfErow (q : List Word) : Nat := fieldW (nthD q 11 0) 32 32

/-- A pointer some bytes further on. -/
def ptrAdd (p : Word) (n : Nat) : Word := p + BitVec.ofNat 64 n

/-- Whether the walk of xs0 moves nothing (R445). -/
def xfEmpty (q : List Word) : Bool := xfX0 q == 0 || xfX1 q == 0 || xfX2 q == 0

/-- The bits of the twelve registers that a command reads or, being reserved in its map, ignores (R443, R444, R448-R454, R6;
assumption 14). -/
def xfUsed (op : Nat) (q : List Word) : List Nat :=
  let all := 2 ^ 64 - 1
  let walk := [2 ^ 56 - 1, all, all]
  let blk := xfEt q == .bq8 || xfEt q == .bq4
  match op with
  | 1 => [all, all, all, 0, 0, 0, 0, 0] ++ walk ++ [0]
  | 2 => [all, all, 0, 0, 0, 0, 0, 0] ++ walk ++ [0]
  | 3 => [all, 2 ^ 19 - 1, all, 0x1C0, if xfWmode q = 2 then all else 0, 0, 0, 0] ++ walk ++ [0]
  | 4 => [all, all, all, 0xF, 0, if blk then all else 0, if blk then all else 0, if blk then all else 0] ++ walk ++ [all]
  | 5 => [all, all, all, 0, all, 0, 0, 0] ++ walk ++ [0]
  | 6 => [all, all, all, 0, 0xFF + (2 ^ 32 - 1) * 2 ^ 16, all, 0, 0] ++ walk ++ [0]
  | 7 => [all, all, 0, 0, 0xFFF, 0, 0, 0] ++ walk ++ [0]
  | 8 => [all, all, all, 0xF, all, if bitAt (xfG q 4).toNat 42 then all else 0, if blk then all else 0, if blk then all else 0] ++ walk ++ [0]
  | 9 => [all, all, all, 0xFFFF0030, all, 0, 0, 0, 0, all, all, 0]
  | 10 => [0, all, all, 0, all, 0, 0, 0] ++ walk ++ [0]
  | _ => List.replicate 12 all

/-- Whether a destination pointer is remote: global space or the host window. -/
def isRemote (p : Word) : Bool := winOf p == 8 || winOf p == 4

/-- Whether the staging of a command is refused at issue with ILLEGAL_ENCODING (R422, R444, R448-R454). -/
def xfIllegal (op : Nat) (q : List Word) : Bool :=
  let et := xfEt q
  let bad : Bool :=
    match op with
    | 3 => xfWmode q == 3 || (xfWmode q != 0 && (xfX1 q != 1 || xfX2 q != 1 || xfX0 q % (if xfWmode q = 1 then 48 else 128) != 0))
    | 4 => xfX2 q != 1 || !(decide (et.code ≤ 10) || ((et == .bq8 || et == .bq4) && xfX0 q % 32 == 0 && xfX1 q % 32 == 0))
    | 5 => xfX2 q != 1
    | 6 => xfX1 q != 1 || xfX2 q != 1 || decide (fieldW (xfG q 4) 0 8 < 5) || fieldW (xfG q 4) 16 32 == 0
    | 8 => xfX1 q != 1 || xfX2 q != 1 || !(et == .bf16 || et == .f32 || et == .bq8 || et == .i32 || et == .i64) ||
        decide (fieldW (xfG q 4) 16 13 < 2) || decide (4096 < fieldW (xfG q 4) 16 13) || decide (fieldW (xfG q 4) 16 13 ≤ fieldW (xfG q 4) 29 13) ||
        (bitAt (xfG q 4).toNat 43 && decide (fieldW (xfG q 4) 16 13 ≤ fieldW (xfG q 4) 44 13))
    | 9 => xfCount q == 0
    | _ => false
  op != 11 && (!usedBits (xfUsed op q) || bad || (op != 3 && xfSync q != 0 && isRemote (xfDst q)))
where
  usedBits (used : List Nat) : Bool := (List.range 12).all (fun i => Nat.land (nthD q i 0).toNat (2 ^ 64 - 1 - nthD used i 0) == 0)

/-- The offset just past the last byte an XWEIGHT writes (R448). -/
def xwEnd (q : List Word) : Nat :=
  fieldW (xfDst q) 0 18 +
    (if xfEmpty q then 0
    else if xfWmode q = 1 then xfX0 q / 48 * 256
    else if xfWmode q = 2 then 2 * xfX0 q
    else (xfX1 q - 1) * xfDrs q + (xfX2 q - 1) * xfDps q + xfX0 q)

/-- Whether an XSTORE's whole destination walk lies within the retractable region of a RETR operand (R456). -/
def xstoreRetr (o : State) (c : Nat) (q : List Word) : Bool :=
  xfEmpty q || (winOf (xfDst q) == 8 &&
    (List.range (xfX1 q * xfX2 q)).all (fun r =>
      let p := ptrAdd (xfDst q) (r % xfX1 q * xfDrs q + r / xfX1 q * xfDps q)
      inRetr o c (fieldW p 40 23) (fieldW p 0 40) (xfX0 q)))

/-- Whether a command's destination lies outside the core (R250): another core's scratchpad, a module, or a reduction. -/
def xfExternal (c op : Nat) (q : List Word) : Bool :=
  match op with
  | 2 => false
  | 3 => false
  | 7 => true
  | 8 => true
  | 11 => false
  | _ => isRemote (xfDst q) || (winOf (xfDst q) == 2 && fieldW (xfDst q) 22 2 != coreCic c)

/-- Whether XCANCEL stops commands of this kind (R455). -/
def cancellable (op : Nat) : Bool := op != 2 && op != 8 && op != 11

/-! ### The end of a command -/

/-- Whether a command is the one with a token. -/
def isCmd (tok vcc : Nat) (x : XfCmd) : Bool := x.tok == tok && x.vcc == vcc

/-- Whether a read request of the storage port is a command's. -/
def isReadOf (c : Nat) (x : XfCmd) (r : PeerRead) : Bool := r.core == c && r.tok == x.tok && r.vcc == x.vcc

/-- A command leaves the engine and its token ends. -/
def endXf (c : Nat) (x : XfCmd) (st : TokStatus) (code : BitVec 8) (s : State) : State :=
  let s := updBody s c (fun b => { b with
    xfQ := b.xfQ.filter (fun y => !(isCmd x.tok x.vcc y && y.orphan == x.orphan)),
    wbQ := b.wbQ.filter (fun w => !(w.tok == x.tok && w.vcc == x.vcc)) })
  let s := if x.orphan then s else setTok s c x.tok (fun r => { r with short := x.short })
  let s := { s with mod := { s.mod with peerReads := s.mod.peerReads.filter (fun r => !isReadOf c x r) } }
  endTok c x.tok x.orphan x.who st code x.cursor s

/-- Change a command; the record of its token shows its progress (R361). -/
def updXf (c : Nat) (x : XfCmd) (f : XfCmd → XfCmd) (s : State) : State :=
  let s := if x.orphan then s else setTok s c x.tok (fun r => { r with progress := BitVec.ofNat 48 (f x).cursor })
  updBody s c (fun b => { b with xfQ := b.xfQ.map (fun y => if isCmd x.tok x.vcc y && y.orphan == x.orphan then f y else y) })

/-! ### Reads and writes of a line -/

/-- Poison the sectors that receive a poisoned byte (R256). -/
def markPoison (s : State) (l : Loc) (bad : List Bool) : State :=
  (List.range bad.length).foldl (fun s i => if nthD bad i false then { s with poison := s.poison.set false (locKey s l i / 32) true } else s) s

/-- A read of a line: the bytes, and which of them are poisoned. -/
def engFetch (c : Nat) (x : XfCmd) (p : Word) (n : Nat) (win : Windows) (s : State) : Except EngStop (State × List Byte × List Bool) :=
  if n = 0 then .ok (s, [], [])
  else match engLoc s c x.who p n 1 win false with
  | .error e => .error e
  | .ok l =>
    let flags := fun (s : State) => (List.range n).map (fun i => poisonAt s (locKey s l i))
    match l with
    | .glob h o => if dieGone s (handleDie h) then .error (.fail codeDieLost) else .ok (countRead (demandRead l n s) (coreDie c) h o n, readLoc s l n, flags s)
    | .host _ true => .error (.stall none)
    | .host _ false =>
      let r := freeBytes s n
      .ok (r.1, r.2, List.replicate n false)
    | .flat _ =>
      let s := injected 4 c x.pc l n s
      .ok (s, readLoc s l n, flags s)

/-- A write of a line, carrying poison. A page that cannot be installed ends the command (R179). -/
def engPut (c : Nat) (x : XfCmd) (p : Word) (bytes : List Byte) (bad : List Bool) (win : Windows) (s : State) : Except EngStop State :=
  if bytes = [] then .ok s
  else match engLoc s c x.who p bytes.length 1 win true with
  | .error e => .error e
  | .ok l =>
    match homeAccess s (coreDie c) l (.store bytes (allMask bytes.length)) (some x.who.ctx) with
    | .done s2 _ => .ok (markPoison (tagDeltas s.nextId c s2) l bad)
    | .fault code => .error (.fail code)
    | .wait =>
      match l with
      | .glob h o => .error (if noRoomLeft s (handleDie h) && decide (freePages s (handleDie h) < (newPages s h o bytes.length).length) then .fail codeTranslation else .stall none)
      | _ => .error (.stall (unready s l bytes.length))

/-- The update of a sync word for one destination line (R213, R215). -/
def syncUpdate (c : Nat) (x : XfCmd) (n : Nat) (s : State) : Except EngStop State :=
  if xfSync x.snap = 0 then .ok s
  else match engLoc s c x.who (xfSync x.snap) 16 16 winSync true with
  | .error e => .error e
  | .ok l =>
    let w := readNat s l 12
    let target := bitsOf w 0 32
    let count := bitsOf w 32 32 + n
    let gen := bitsOf w 64 32
    let count2 := if target = 0 then Nat.min count (2 ^ 32 - 1) else count % target
    let gen2 := if target = 0 then gen else gen + count / target
    .ok (writeLoc s l (leBytes (target + count2 * 2 ^ 32 + gen2 % 2 ^ 32 * 2 ^ 64) 12))

/-- Sync updates for the 128-byte lines of a run of `n` bytes at a destination. -/
def syncRun (c : Nat) (x : XfCmd) (start : Nat) (n : Nat) (s : State) : Except EngStop State :=
  if n = 0 then .ok s
  else (List.range ((start % 128 + n + 127) / 128)).foldlM (fun s k =>
    let lo := if k = 0 then 0 else 128 * k - start % 128
    syncUpdate c x (Nat.min n (128 * (k + 1) - start % 128) - lo) s) s

/-! ### The lines of a command -/

/-- How many rows a command's destination has. -/
def xfRows (x : XfCmd) : Nat :=
  let q := x.snap
  match x.op with
  | 4 => if xfEmpty q then 0 else xfX0 q
  | 5 => if xfEmpty q then 0 else xfX1 q
  | 6 => if xfEmpty q then 0 else fieldW (xfG q 4) 16 32
  | 8 => 1
  | 9 => xfCount q
  | _ => if xfEmpty q then 0 else xfX1 q * xfX2 q

/-- The bytes of a destination row. -/
def xfLen (x : XfCmd) : Nat :=
  if x.op = 4 then xfX1 x.snap * (xfEt x.snap).width / 8 else xfX0 x.snap

/-- The destination of a row. -/
def xfRowDst (x : XfCmd) (row : Nat) : Word :=
  let q := x.snap
  match x.op with
  | 4 => ptrAdd (xfDst q) (row * xfDrs q)
  | 5 => ptrAdd (xfDst q) (row * xfDrs q)
  | 6 => ptrAdd (xfDst q) (row % fieldW (xfG q 4) 0 8 * xfDrs q)
  | 3 => BitVec.ofNat 64 (fieldW (xfDst q) 0 18 + row % xfX1 q * xfDrs q + row / xfX1 q * xfDps q)
  | _ => ptrAdd (xfDst q) (row % xfX1 q * xfDrs q + row / xfX1 q * xfDps q)

/-- The source of a row of a plain walk. -/
def xfRowSrc (x : XfCmd) (row : Nat) : Word :=
  ptrAdd (xfSrc x.snap) (row % xfX1 x.snap * xfSrs x.snap + row / xfX1 x.snap * xfSps x.snap)

/-- How many lines a row has, each within one 128-byte block of the destination (R445). -/
def xfLines (x : XfCmd) (row : Nat) : Nat :=
  if xfLen x = 0 then 0 else (fieldW (xfRowDst x row) 0 7 + xfLen x + 127) / 128

/-- The first byte of a line within its row, and its length. -/
def xfSpan (x : XfCmd) (row k : Nat) : Nat × Nat :=
  let a := fieldW (xfRowDst x row) 0 7
  let lo := if k = 0 then 0 else 128 * k - a
  (lo, Nat.min (xfLen x) (128 * (k + 1) - a) - lo)

/-- Step over the lines that have performed: the new first line, with what the command has done in order. `unit` says
whether progress counts rows. -/
def xfSkip (x : XfCmd) : Nat → XfCmd
  | 0 => x
  | f + 1 =>
    let id := x.row * 2 ^ 20 + x.line
    if x.did.contains id then
      let n := (xfSpan x x.row x.line).2
      let last := xfLines x x.row ≤ x.line + 1
      let byRow := x.op = 5 ∨ x.op = 6
      xfSkip { x with
        did := x.did.filter (fun i => i != id),
        cursor := x.cursor + (if byRow then (if last then 1 else 0) else n),
        row := if last then x.row + 1 else x.row,
        line := if last then 0 else x.line + 1 } f
    else x

/-- Whether every line has performed. -/
def xfOver (x : XfCmd) : Bool := decide (xfRows x ≤ x.row)

/-- Whether a command reads the host window, through the ports its partition's route table chooses. -/
def hostSource (x : XfCmd) : Bool := (x.op == 1 || x.op == 9) && winOf (xfSrc x.snap) == 4
/-- Whether a request still waits for data. -/
def isOpenRead (r : PeerRead) : Bool := decide (r.data.length < r.n)
/-- The requests of a command, in the order they left. -/
def readsOf (s : State) (c : Nat) (x : XfCmd) : List PeerRead := s.mod.peerReads.filter (isReadOf c x)
/-- The request of a command that covers a byte of a row. -/
def readAt (s : State) (c : Nat) (x : XfCmd) (row i : Nat) : Option PeerRead :=
  (readsOf s c x).find? (fun r => r.row == row && decide (r.lo ≤ i) && decide (i < r.lo + r.n))

/-- The length of the input of an XDECOMP's next block, where its entry can be read. -/
def inputLen (s : State) (c : Nat) (x : XfCmd) : Option Nat :=
  match engLoc s c x.who (ptrAdd (xfG x.snap 4) (8 * x.row)) 8 8 winLocal false with
  | .error _ => none
  | .ok l => some (readNat s l 8 % 2 ^ 32)

/-- Whether the reads of a run of a row have all left for the storage peer. -/
def allAsked (s : State) (c : Nat) (x : XfCmd) (row lo n : Nat) : Bool :=
  n != 0 && (List.range n).all (fun i => (readAt s c x row (lo + i)).isSome)

/-- Whether a command's next line has had its source read (R455): the rest of an expanded block is to be written, or every read the line
needs has left for the storage peer. Every other line reads and writes in one event. -/
def readIssued (s : State) (c : Nat) (x : XfCmd) : Bool :=
  if x.op = 9 then
    x.outb != [] || (hostSource x && !xfOver x && (match inputLen s c x with | some n => allAsked s c x x.row 0 n | none => false))
  else hostSource x && !xfOver x && allAsked s c x x.row (xfSpan x x.row x.line).1 (xfSpan x x.row x.line).2

/-- Whether a command has a line in flight (R455): one sent to another module, or one whose source read has been issued. -/
def inFlight (s : State) (c : Nat) (x : XfCmd) : Bool := x.sent != [] || readIssued s c x

/-- What follows a line that has performed: the command goes on, ends DONE with its last line, or ends PARTIAL where it was
stopped and nothing is in flight. -/
def afterLine (c : Nat) (x : XfCmd) (s : State) : State :=
  if x.cancel then (if inFlight s c x then updXf c x (fun _ => x) s else endXf c x .part 0 s)
  else if xfOver x && x.sent == [] then endXf c x .done 0 s
  else updXf c x (fun _ => x) s

/-- A line has performed. -/
def lineDone (c : Nat) (x : XfCmd) (id : Nat) (s : State) : State :=
  let y := { x with did := x.did ++ [id], sent := x.sent.filter (fun i => i != id) }
  afterLine c (xfSkip y (y.did.length + 1)) s

/-- Whether two runs of bytes of a command's walk may overlap: its source and destination lie in one storage. -/
def xfOverlap (c : Nat) (x : XfCmd) : Bool :=
  let home := fun (p : Word) => if winOf p = 2 then clusterCore (coreCluster c) (fieldW p 22 2) else c
  let near := fun (p : Word) => winOf p == 0 || winOf p == 1 || winOf p == 2
  (x.op == 1 || x.op == 4) && near (xfSrc x.snap) && near (xfDst x.snap) && home (xfSrc x.snap) == home (xfDst x.snap)

/-- The windows of a command's source (R444). -/
def xfSrcWin (op : Nat) : Windows :=
  match op with
  | 1 => winAll
  | 3 => { winAll with host := false }
  | 4 => { winAll with host := false }
  | 5 => winGlobal
  | 6 => winGlobal
  | 9 => { winGlobal with host := true }
  | _ => winNear

/-- The windows of a command's destination (R444). -/
def xfDstWin (op : Nat) : Windows :=
  match op with
  | 2 => { winGlobal with host := true }
  | 8 => { winNear with glob := true }
  | _ => winNear

/-- A failure of a line: the command ends FAULT with what it has done in order; a bank that is gated begins its wake and
the line is tried again. -/
def lineStop (c : Nat) (x : XfCmd) (e : EngStop) (s : State) : State :=
  match e with
  | .fail code => endXf c x .fault code s
  | .stall w => wake w s

/-- XCANCEL stops the named commands that are PENDING (R455): those with no line in flight end PARTIAL at once. -/
def cancelCmds (c : Nat) (names : List Nat) (s : State) : State :=
  ((coreAt s c).b.xfQ.filter (fun x => !x.orphan && names.contains x.tok && cancellable x.op)).foldl (fun s x =>
    if inFlight s c x then updXf c x (fun y => { y with cancel := true }) s else endXf c x .part 0 s) s

/-! ### Issue -/

/-- An XF word at issue (R420, R421, R422, R444, R447, R448, R455, R456). -/
def effXf (op : Nat) (tout t0 t1 t2 : BitVec 6) (sw : BitVec 1) : Eff := fun c o s => do
  let b := (coreAt o c).b
  let q := snapX b.r (sw == 1)
  let f := cmdNow o c 7 op .i8 tout.toNat q
  let ext := xfExternal c op q
  let names := tokIns tout.toNat [t0.toNat, t1.toNat, t2.toNat]
  let toks := if op = 11 then [] else names
  need (!tokLive o c tout.toNat || binds s c ext f) codeTokenLive 0
  need (!xfIllegal op q) codeIllegal 0
  need (op != 3 || decide (xwEnd q ≤ 262144)) codeBounds 0
  need (!isProv o c || !(op == 7 || op == 8 || (op == 2 && !xstoreRetr o c q))) codeProv 0
  let push := fun (ins : List Nat) (fault : Option (BitVec 8)) (b : Body) =>
    { b with xfQ := b.xfQ ++ [{ newXf f ins ((ownPend o c).map (fun p => p.id)) fault (op == 2) with did := if op = 11 then names else [] }] }
  let s2 := enterCmd c o s ext (op != 2 && op != 11 && !ext) (sw == 1) f toks 0 push
  if 32 ≤ b.xfQ.length ∧ !binds s c ext f then pauseFor 9
  else if op = 2 then commit c o s2 (.xstore tout.toNat)
  else .ok (if op = 11 then cancelCmds c names s2 else s2)

/-! ### Reads of a storage peer (R59, R60) -/

/-- The bytes of a row of `n` bytes at a bus address that lie in one 512-byte block with byte `i`: the first, and how many
(assumption 96). -/
def readPart (a n i : Nat) : Nat × Nat :=
  let k := (a + i) % 512
  (i - Nat.min i k, Nat.min n (i + 512 - k) - (i - Nat.min i k))

/-- Send the read requests that the bytes from `i` to `hi` of a row of `n` bytes at `p` need and that are not under way, where the bytes
are the storage peer's and the port has fewer than 256 outstanding. -/
def askPeer (c : Nat) (x : XfCmd) (row : Nat) (p : Word) (n hi : Nat) : Nat → Nat → State → State
  | 0, _, s => s
  | f + 1, i, s =>
    if hi ≤ i then s
    else
      let k := readPart (fieldW p 0 60) n i
      let s :=
        if (readAt s c x row i).isSome ∨ 256 ≤ (s.mod.peerReads.filter isOpenRead).length then s
        else match engLoc s c x.who (ptrAdd p k.1) k.2 1 (xfSrcWin x.op) false with
        | .ok (.host _ true) =>
          { s with mod := { s.mod with peerReads := s.mod.peerReads ++ [{ core := c, tok := x.tok, vcc := x.vcc, row := row, lo := k.1, n := k.2, us := s.us, data := [] }] } }
        | _ => s
      askPeer c x row p n hi f (k.1 + k.2) s

/-- The bytes from `i` to `hi` of a row read through the host window: those of a peer once they have come, those behind the host port
as the world gives them. -/
def hostRun (c : Nat) (x : XfCmd) (row : Nat) (p : Word) (n hi : Nat) : Nat → Nat → State → Except EngStop (State × List Byte)
  | 0, _, s => .ok (s, [])
  | f + 1, i, s =>
    if hi ≤ i then .ok (s, [])
    else
      let k := readPart (fieldW p 0 60) n i
      let e := Nat.min hi (k.1 + k.2)
      let part : Except EngStop (State × List Byte) :=
        match readAt s c x row i with
        | some r => if isOpenRead r then .error (.stall none) else .ok (s, (r.data.drop (i - r.lo)).take (e - i))
        | none => match engLoc s c x.who (ptrAdd p i) (e - i) 1 (xfSrcWin x.op) false with
          | .ok (.host _ false) => .ok (freeBytes s (e - i))
          | .ok _ => .error (.stall none)
          | .error e => .error e
      match part with
      | .error e => .error e
      | .ok r => match hostRun c x row p n hi f e r.1 with
        | .error e => .error e
        | .ok t => .ok (t.1, r.2 ++ t.2)

/-- Whether some byte of a run of a row comes from the storage peer: a request covers it. -/
def isPeerRun (s : State) (c : Nat) (x : XfCmd) (row lo n : Nat) : Bool :=
  hostSource x && (List.range n).any (fun i => (readAt s c x row (lo + i)).isSome)

/-- The requests of a row whose bytes have been taken up to a byte are done with. -/
def forgetReads (c : Nat) (x : XfCmd) (row hi : Nat) (s : State) : State :=
  { s with mod := { s.mod with peerReads := s.mod.peerReads.filter (fun r => !(isReadOf c x r && r.row == row && decide (r.lo + r.n ≤ hi))) } }

/-! ### Accesses that stay performed (R212, R422) -/

/-- Perform steps in turn: those before one that fails stay performed. -/
def engSeq (s : State) : List (State → Except EngStop State) → State × Option EngStop
  | [] => (s, none)
  | f :: t => match f s with
    | .ok s => engSeq s t
    | .error e => (s, some e)

/-! ### Plain walks: XCOPY, XSTORE, XFILL, XWEIGHT raw, XGATHER, XKV -/

/-- The source bytes of a line. -/
def lineSource (c : Nat) (x : XfCmd) (row lo n : Nat) (s : State) : Except EngStop (State × List Byte × List Bool) :=
  let q := x.snap
  match x.op with
  | 10 => .ok (s, (List.range n).map (fun i => BitVec.ofNat 8 (fieldW (xfG q 4) (8 * ((fieldW (xfRowDst x row) 0 3 + lo + i) % 8)) 8)), List.replicate n false)
  | 5 => do
    let l ← engLoc s c x.who (ptrAdd (xfG q 4) (4 * row)) 4 4 winLocal false
    let i := readNat s l 4
    if i = 0xFFFFFFFF then .ok (s, List.replicate n 0, List.replicate n false)
    else engFetch c x (ptrAdd (xfSrc q) (i * xfSrs q + lo)) n (xfSrcWin 5) s
  | 6 => engFetch c x (ptrAdd x.ptr lo) n (xfSrcWin 6) s
  | _ =>
    if hostSource x then (hostRun c x row (xfRowSrc x row) (xfLen x) (lo + n) (n + 1) lo s).map (fun r => (r.1, r.2, List.replicate n false))
    else engFetch c x (ptrAdd (xfRowSrc x row) lo) n (xfSrcWin x.op) s

/-- Write a line of a plain walk. -/
def lineSink (c : Nat) (x : XfCmd) (row lo : Nat) (bytes : List Byte) (bad : List Bool) (s : State) : Except EngStop State :=
  if x.op = 3 then
    if bad.any (fun b => b) then .error (.fail codePoison)
    else .ok { s with mem := s.mem.setBytes (wbufKey c (fieldW (xfDst x.snap) 18 1) ((xfRowDst x row).toNat + lo)) bytes }
  else engPut c x (ptrAdd (xfRowDst x row) lo) bytes bad (xfDstWin x.op) s

/-- Whether the chain of an XKV may start its page: four pages ahead of the consumer word at most (R451). -/
def xkvReady (c : Nat) (x : XfCmd) (s : State) : Except EngStop Bool := do
  let l ← engLoc s c x.who (xfG x.snap 5) 4 4 winLocal false
  .ok (decide (x.row ≤ readNat s l 4 + 4))

/-- After the last line of a page, the chain moves to the page its header names, or ends (R451). -/
def xkvNext (c : Nat) (x : XfCmd) (s : State) : Except EngStop (State × XfCmd) :=
  if x.op ≠ 6 ∨ x.line ≠ 0 ∨ xfOver x then .ok (s, x)
  else do
    let h := x.ptr &&& ~~~ 0xFFFFFFFFFF#64
    let r ← engFetch c x h 8 winGlobal s
    let next := leNat r.2.1
    if next = 0 then .ok (r.1, { x with row := xfRows x })
    else .ok (r.1, { x with ptr := BitVec.ofNat 64 (2 ^ 63 + bitsOf next 40 23 * 2 ^ 40 + fieldW x.ptr 0 40) })

/-- One line of a plain walk: it reads its source, writes its destination, and counts into SYNC. -/
def plainLine (c : Nat) (x : XfCmd) (row k : Nat) (s : State) : State :=
  let id := row * 2 ^ 20 + k
  let span := xfSpan x row k
  let first := row = x.row ∧ k = x.line
  if xfRows x ≤ row ∨ xfLines x row ≤ k ∨ x.did.contains id ∨ row < x.row ∨ (row = x.row ∧ k < x.line) then s
  else
    let s := if hostSource x && !x.cancel then askPeer c x row (xfRowSrc x row) (xfLen x) (span.1 + span.2) (span.2 + 1) span.1 s else s
    if (xfOverlap c x || isPeerRun s c x row span.1 span.2 || x.op == 6 || x.cancel) ∧ ¬ first then s
    else match (if x.op = 6 then xkvReady c x s else .ok true) with
    | .error e => lineStop c x e s
    | .ok false => s
    | .ok true =>
      match lineSource c x row span.1 span.2 s with
      | .error e => lineStop c x e s
      | .ok src =>
        match engSeq src.1 [lineSink c x row span.1 src.2.1 src.2.2, syncUpdate c x span.2] with
        | (s, some e) => lineStop c x e s
        | (s, none) =>
          if x.op = 6 then
            let y := xfSkip { x with did := x.did ++ [id] } 2
            match xkvNext c y s with
            | .error e => lineStop c y e s
            | .ok (s, y) => afterLine c y s
          else lineDone c x id (forgetReads c x row (span.1 + span.2) s)

/-! ### XTRANS (R449) -/

/-- The extents of the source tensor, where the source is global. -/
def srcDims (s : State) (x : XfCmd) : Option (Nat × Nat) :=
  if winOf (xfSrc x.snap) = 8 then
    let t := trec s (fieldW (xfSrc x.snap) 40 23)
    some (dimOf t 0, dimOf t 1)
  else none

/-- Whether a source element is missing at a tensor's edge. -/
def isMissing (s : State) (x : XfCmd) (r col : Nat) : Bool :=
  match srcDims s x with
  | some (d0, d1) => decide (d0 ≤ xfEcol x.snap + col) || decide (d1 ≤ xfErow x.snap + r)
  | none => false

/-- One byte of a transposed plain tile: byte `j` of destination row `col`. -/
def transByte (c : Nat) (x : XfCmd) (col j : Nat) (s : State) : Except EngStop (State × Byte × Bool) :=
  let w := (xfEt x.snap).width / 8
  if isMissing s x (j / w) col then .ok (s, 0, false)
  else do
    let r ← engFetch c x (ptrAdd (xfSrc x.snap) (j / w * xfSrs x.snap + col * w + j % w)) 1 (xfSrcWin 4) s
    .ok (r.1, r.2.1.headD 0, r.2.2.headD false)

/-- The bytes of a run of a destination row. -/
def transBytes (c : Nat) (x : XfCmd) (col lo : Nat) : Nat → State → Except EngStop (State × List Byte × List Bool)
  | 0, s => .ok (s, [], [])
  | n + 1, s => do
    let b ← transByte c x col lo s
    let r ← transBytes c x col (lo + 1) n b.1
    .ok (r.1, b.2.1 :: r.2.1, b.2.2 :: r.2.2)

/-- The value of a source element of a block format, with whether it came poisoned. -/
def transElem (c : Nat) (x : XfCmd) (r col : Nat) (s : State) : Except EngStop (State × FV × Bool) :=
  let q := x.snap
  let bq8 := xfEt q == .bq8
  if isMissing s x r col then .ok (s, .fin false 0 0, false)
  else do
    let e ← engFetch c x (ptrAdd (xfSrc q) (r * xfSrs q + (if bq8 then col else col / 2))) 1 (xfSrcWin 4) s
    let k ← engFetch c x (ptrAdd (xfG q 5) (r * fieldW (xfG q 7) 0 32 + 2 * (col / 32))) 2 (xfSrcWin 4) e.1
    let b := (e.2.1.headD 0).toNat
    let el := if bq8 then b else if col % 2 = 0 then b % 16 else b / 16
    .ok (k.1, blockVal bq8 (k.2.1.headD 1).toNat (nthD k.2.1 1 1).toNat el, (e.2.2 ++ k.2.2).any (fun z => z))

/-- The values of a run of source rows of one column. -/
def transElems (c : Nat) (x : XfCmd) (col r0 : Nat) : Nat → State → Except EngStop (State × List FV × Bool)
  | 0, s => .ok (s, [], false)
  | n + 1, s => do
    let e ← transElem c x r0 col s
    let t ← transElems c x col (r0 + 1) n e.1
    .ok (t.1, e.2.1 :: t.2.1, e.2.2 || t.2.2)

/-- The greatest magnitude of values; a NaN or infinity stands for all. -/
def amaxFV (l : List FV) : FV :=
  l.foldl (fun a v =>
    match a, v with
    | .fin _ _ _, .fin _ m e => if fcmp a (.fin false m e) < 0 then .fin false m e else a
    | .fin _ _ _, y => y
    | y, _ => y) (.fin false 0 0)

/-- One line of XTRANS: a run of a destination row, or a destination block with its codes. -/
def transLine (c : Nat) (x : XfCmd) (row k : Nat) (s : State) : State :=
  let q := x.snap
  let blk := xfEt q == .bq8 || xfEt q == .bq4
  let bq8 := xfEt q == .bq8
  let id := row * 2 ^ 20 + k
  let first := row = x.row ∧ k = x.line
  if xfRows x ≤ row ∨ (if blk then xfX1 q / 32 else xfLines x row) ≤ k ∨ x.did.contains id ∨ row < x.row ∨ (row = x.row ∧ k < x.line) ∨ ((xfOverlap c x ∨ blk) ∧ ¬ first) then s
  else if blk then
    let size := if bq8 then 32 else 16
    match transElems c x row (32 * k) 32 s with
    | .error e => lineStop c x e s
    | .ok r =>
      let sc := scaleVal bq8 (amaxFV r.2.1)
      let els := r.2.1.map (fun v => (packVal bq8 sc.1 sc.2.1 v).1)
      let did := engSeq r.1 [
        engPut c x (ptrAdd (xfDst q) (row * xfDrs q + size * k)) (leBytes (packElems (if bq8 then 8 else 4) els) size) (List.replicate size r.2.2) winNear,
        engPut c x (ptrAdd (xfG q 6) (row * fieldW (xfG q 7) 32 32 + 2 * k)) [BitVec.ofNat 8 sc.1, BitVec.ofNat 8 sc.2.1] [r.2.2, r.2.2] winNear,
        syncUpdate c x size, syncUpdate c x 2]
      match did with
      | (s, some e) => lineStop c x e s
      | (s, none) =>
        let last := xfX1 q / 32 ≤ k + 1
        afterLine c { x with cursor := x.cursor + size, row := if last then row + 1 else row, line := if last then 0 else k + 1 } s
  else
    let span := xfSpan x row k
    match transBytes c x row span.1 span.2 s with
    | .error e => lineStop c x e s
    | .ok r => match engSeq r.1 [engPut c x (ptrAdd (xfRowDst x row) span.1) r.2.1 r.2.2 winNear, syncUpdate c x span.2] with
      | (s, some e) => lineStop c x e s
      | (s, none) => lineDone c x id s

/-! ### XWEIGHT by weight blocks (R448) -/

/-- The source bytes of a weight block. -/
def wbSize (x : XfCmd) : Nat := if xfWmode x.snap = 1 then 48 else 128

/-- One read of a weight block, which enters the weight-block queue in order while it has room. `row` counts the blocks
entered and `cursor` those expanded; after a failing read nothing more enters, and the command ends once the blocks
before it have expanded. -/
def weightLine (c : Nat) (x : XfCmd) (n : Nat) (s : State) : State :=
  let q := x.snap
  let size := wbSize x
  if n ≠ x.row ∨ x.next.isSome ∨ xfX0 q / size ≤ n ∨ 64 ≤ (coreAt s c).b.wbQ.length then s
  else
    let go : Except EngStop (State × List Byte × List Byte) := do
      let r ← engFetch c x (ptrAdd (xfSrc q) (size * n)) size (xfSrcWin 3) s
      let p ← if xfWmode q = 2 then engFetch c x (ptrAdd (xfG q 4) (16 * n)) 16 (xfSrcWin 3) r.1 else .ok (r.1, [], [])
      if (r.2.2 ++ p.2.2).any (fun b => b) then .error (.fail codePoison) else .ok (p.1, r.2.1, p.2.1)
    match go with
    | .error (.stall w) => wake w s
    | .error (.fail code) =>
      let prog := if code = codePoison then size * n else x.cursor
      if x.cursor = n then endXf c { x with cursor := prog } .fault code s
      else updXf c x (fun y => { y with next := some code }) s
    | .ok (s, src, pos) =>
      let w : WBlock := { tok := x.tok, vcc := x.vcc, idx := n, table := if xfWmode q = 1 then some (xfTs q) else none, src := src, pos := pos }
      updBody (updXf c x (fun y => { y with row := n + 1 }) s) c (fun b => { b with wbQ := b.wbQ ++ [w] })

/-- The bytes a CB3 block expands to: 128 BF16 entries of its table (R308). -/
def expandCb3 (table : BitVec 128) (src : List Byte) : List Byte :=
  (List.range 128).flatMap (fun n => leBytes (elem table.toNat 16 (bitsOf (leNat src) (3 * n) 3)) 2)

/-- The bytes an S24 block expands to (R309). -/
def expandS24 (src pos : List Byte) : List Byte :=
  (List.range 32).flatMap (fun g =>
    let nib := bitsOf (leNat pos) (4 * g) 4
    let v0 := leNat ((src.drop (4 * g)).take 2)
    let v1 := leNat ((src.drop (4 * g + 2)).take 2)
    (List.range 4).flatMap (fun i => leBytes (if i = nib / 4 then v1 else if i = nib % 4 then v0 else 0) 2))

/-- Whether a block's table is complete (R292). -/
def wbReady (b : Body) (w : WBlock) : Bool :=
  match w.table with
  | some ts => !(tabSlot b ts).loading
  | none => true

/-- WEIGHT_BLOCK_EXPAND: the first block whose table is complete expands into its weight buffer (R292, R448). A poisoned
table is consumed by the load, not here. -/
def expandWeight (c : Nat) (s : State) : State :=
  let b := (coreAt s c).b
  match b.wbQ.find? (wbReady b) with
  | none => s
  | some w =>
    match b.xfQ.find? (isCmd w.tok w.vcc) with
    | none => updBody s c (fun b => { b with wbQ := b.wbQ.filter (fun y => y != w) })
    | some x =>
      let q := x.snap
      let out := match w.table with | some ts => expandCb3 (tabSlot b ts).data w.src | none => expandS24 w.src w.pos
      let off := fieldW (xfDst q) 0 18 + 256 * w.idx
      match syncRun c x off 256 { s with mem := s.mem.setBytes (wbufKey c (fieldW (xfDst q) 18 1) off) out } with
      | .error e => lineStop c x e s
      | .ok s =>
        let s := updBody s c (fun b => { b with wbQ := b.wbQ.filter (fun y => y != w) })
        let y := { x with cursor := x.cursor + 1 }
        if y.cursor = y.row ∧ y.next.isSome then
          let code := y.next.getD 0
          endXf c { y with cursor := if code = codePoison then wbSize x * y.row else y.cursor } .fault code s
        else if xfX0 q / wbSize x ≤ y.cursor then endXf c y .done 0 s
        else updXf c x (fun _ => y) s

/-! ### XSEND (R452) -/

/-- The wire form of a link request (assumption 13): source and destination module, kind, partition, the reply tag of the
core, token and line, the pointer, and the data. -/
def netRequest (s : State) (dest kind part tag line : Nat) (ptr : Word) (data : List Byte) : List Byte :=
  netHead s kind part dest tag line ++ leBytes ptr.toNat 8 ++ data

/-- The reply tag of a core's token. -/
def netTag (c tok : Nat) : Nat := c * 64 + tok

/-- One line of XSEND: read here, and delivered here or sent on lane 2. -/
def sendLine (c : Nat) (x : XfCmd) (row k : Nat) (s : State) : State :=
  let q := x.snap
  let id := row * 2 ^ 20 + k
  let span := xfSpan x row k
  let dst := ptrAdd (xfRowDst x row) span.1
  let modid := fieldW (xfG q 4) 0 12
  if xfRows x ≤ row ∨ xfLines x row ≤ k ∨ x.did.contains id ∨ x.sent.contains id ∨ row < x.row ∨ (row = x.row ∧ k < x.line) then s
  else if winOf (xfDst q) ≠ 8 then endXf c x .fault codeSpace s
  else match engFetch c x (ptrAdd (xfRowSrc x row) span.1) span.2 winNear s with
  | .error e => lineStop c x e s
  | .ok (s, bytes, bad) =>
    if modid = s.mod.ngself.toNat then
      match linkWrite s x.who.part { h := fieldW dst 40 23, o := fieldW dst 0 40, bytes := bytes, bad := bad, tag := netTag c x.tok, line := id } with
      | .done s => lineDone c x id (markPoison s (.glob (fieldW dst 40 23) (fieldW dst 0 40)) bad)
      | .bounced s => updXf c x (fun y => { y with sent := y.sent ++ [id] }) s
      | .wait => s
      | .fault code => endXf c x .fault code s
    else
      let r := netSend { dest := modid, vl := 2, bytes := netRequest s modid 0 x.who.part (netTag c x.tok) id dst bytes } s
      if r.2 then updXf c x (fun y => { y with sent := y.sent ++ [id], sentUs := y.sentUs.set 0 id (s.us + 1) }) r.1 else endXf c x .fault codeTranslation r.1

/-! ### XDECOMP (R454) -/

/-- The source bytes from an offset on: the peer's delivered bytes, or a read in pieces of one line. -/
def fetchRun (c : Nat) (x : XfCmd) (win : Windows) : Nat → Word → Nat → State → Except EngStop (State × List Byte × List Bool)
  | 0, _, _, s => .ok (s, [], [])
  | f + 1, p, n, s =>
    if n = 0 then .ok (s, [], [])
    else do
      let m := Nat.min n (128 - fieldW p 0 7)
      let r ← engFetch c x p m win s
      let t ← fetchRun c x win f (ptrAdd p m) (n - m) r.1
      .ok (t.1, r.2.1 ++ t.2.1, r.2.2 ++ t.2.2)

/-- What a block gives: its bytes cut or filled to the declared size, whether it came short, and the fault that follows it. -/
def judgeBlock (q : List Word) (dsize : Nat) (out : List Byte) : List Byte × Bool × Option (BitVec 8) :=
  if dsize < out.length then (out.take dsize, false, some codeDecompOver)
  else if out.length < dsize then
    (out ++ List.replicate (dsize - out.length) 0, true, if xfStrict q then some codeDecompShort else none)
  else (out, false, none)

/-- Begin the next block: its entry is read and checked, its input taken, and its output expanded. `ptr` is the address of
the block's input. -/
def startBlock (c : Nat) (x : XfCmd) (s : State) : Except EngStop (State × XfCmd) := do
  let q := x.snap
  let l ← engLoc s c x.who (ptrAdd (xfG q 4) (8 * x.row)) 8 8 winLocal false
  let e := readNat s l 8
  let clen := bitsOf e 0 32
  let dsize := bitsOf e 32 17
  let max := if xfAlg q = 0 then 65536 else 4096
  if bitsOf e 49 15 ≠ 0 ∨ dsize = 0 ∨ max < dsize then .error (.fail codeBounds)
  else do
    let r ← if hostSource x then (hostRun c x x.row x.ptr clen clen (clen + 1) 0 s).map (fun r => (r.1, r.2, []))
      else fetchRun c x (xfSrcWin 9) (clen / 128 + 2) x.ptr clen s
    if r.2.2.any (fun b => b) then .error (.fail codePoison)
    else
      match (if xfAlg q = 0 then lz4Block r.2.1 else zxExpand r.2.1) with
      | none => .error (.fail codeBounds)
      | some out =>
        let j := judgeBlock q dsize out
        .ok (forgetReads c x x.row clen r.1, { x with outb := j.1, short := x.short || j.2.1, next := j.2.2, ptr := ptrAdd x.ptr clen })

/-- Send the read requests of the next block's input, where its entry can be read. -/
def askBlock (c : Nat) (x : XfCmd) (s : State) : State :=
  if x.outb ≠ [] ∨ !hostSource x ∨ x.cancel then s
  else match inputLen s c x with
  | none => s
  | some clen => askPeer c x x.row x.ptr clen clen (clen / 512 + 2) 0 s

/-- One line of XDECOMP: the next run of output within one destination block of 128 bytes. -/
def decompLine (c : Nat) (x : XfCmd) (s : State) : State :=
  let s := askBlock c x s
  match (if x.outb = [] then startBlock c x s else .ok (s, x)) with
  | .error e => lineStop c x e s
  | .ok (s, y) =>
    let dst := ptrAdd (xfDst x.snap) y.cursor
    let n := Nat.min y.outb.length (128 - fieldW dst 0 7)
    match engSeq s [engPut c y dst (y.outb.take n) [] winNear, syncUpdate c y n] with
    | (s, some (.fail code)) => endXf c y .fault code s
    | (s, some (.stall w)) => wake w (updXf c x (fun _ => y) s)
    | (s, none) =>
      let z := { y with cursor := y.cursor + n, outb := y.outb.drop n }
      if z.outb ≠ [] then updXf c x (fun _ => z) s
      else match z.next with
        | some code => endXf c z .fault code s
        | none => afterLine c { z with row := z.row + 1 } s

/-! ### XRED (R453) -/

/-- What names a reduction among the participants of a partition: NRANK, SCOPE, ET and X0. -/
def redKey (q : List Word) : List Nat := [fieldW (xfG q 4) 0 16, fieldW (xfG q 4) 16 13, fieldW (xfG q 4) 42 1, (xfEt q).code, xfX0 q]
def redRank (q : List Word) : Nat := fieldW (xfG q 4) 29 13
def redRanks (q : List Word) : Nat := fieldW (xfG q 4) 16 13

/-- The started XRED commands of one partition and tag, with their cores. -/
def redCmds (s : State) (part tag : Nat) : List (Nat × XfCmd) :=
  s.cores.cells.flatMap (fun k => (k.2.b.xfQ.filter (fun x => x.op == 8 && x.started && x.who.part == part && (redKey x.snap).headD 0 == tag)).map (fun x => (k.1, x)))

/-- Read a participant's contribution. -/
def redRead (c : Nat) (x : XfCmd) (s : State) : Except EngStop (State × Contrib) := do
  let q := x.snap
  let n := xfX0 q
  let r ← fetchRun c x winNear (n / 128 + 2) (xfSrc q) n s
  let k ← if xfEt q = .bq8 then fetchRun c x winNear (n / 2048 + 2) (xfG q 6) (2 * ((n + 31) / 32)) r.1 else .ok (r.1, [], [])
  if (r.2.2 ++ k.2.2).any (fun b => b) then .error (.fail codePoison)
  else .ok (k.1, { data := r.2.1, codes := k.2.1 })

/-- Write a run of bytes line by line, each counted into SYNC: the bytes written, and why it stopped. Lines that have performed stay
(R212). -/
def putRun (c : Nat) (x : XfCmd) (win : Windows) : Nat → Word → List Byte → Nat → State → State × Nat × Option EngStop
  | 0, _, _, n, s => (s, n, none)
  | f + 1, p, bs, n, s =>
    if bs = [] then (s, n, none)
    else
      let m := Nat.min bs.length (128 - fieldW p 0 7)
      match engSeq s [engPut c x p (bs.take m) [] win, syncUpdate c x m] with
      | (s, some e) => (s, n, some e)
      | (s, none) => putRun c x win f (ptrAdd p m) (bs.drop m) (n + m) s

/-- Write the result of a reduction for a participant: its elements, then its scale codes. -/
def redPut (c : Nat) (x : XfCmd) (r : Contrib) (s : State) : State × Nat × Option EngStop :=
  match putRun c x (xfDstWin 8) (r.data.length / 128 + 2) (xfDst x.snap) r.data 0 s with
  | (s, n, none) =>
    if xfEt x.snap = .bq8 then
      let k := putRun c x (xfDstWin 8) (r.codes.length / 128 + 2) (xfG x.snap 7) r.codes 0 s
      (k.1, n, k.2.2)
    else (s, n, none)
  | w => w

/-- A participant takes the result: its destination is written unless ROOTONLY names another rank, and OVERSPAN is set in
NUMSTAT before the token ends (R319). A line that fails ends it FAULT with the bytes written before. -/
def redFinish (c : Nat) (x : XfCmd) (r : Contrib × Bool) (s : State) : State :=
  let q := x.snap
  let mine := !bitAt (xfG q 4).toNat 43 || fieldW (xfG q 4) 44 13 == redRank q
  let s := if r.2 then setFlags c fOVER s else s
  if !mine then endXf c x .done 0 s
  else match redPut c x r.1 s with
  | (s, n, some e) => lineStop c { x with cursor := n } e s
  | (s, _, none) => endXf c { x with cursor := xfX0 q } .done 0 s

/-- Whether a participant's destination lies in a bank that is gated or waking. -/
def redStall (c : Nat) (x : XfCmd) (r : Contrib) (s : State) : Option EngStop :=
  match redPut c x r s with
  | (_, _, some (.stall w)) => some (.stall w)
  | _ => none

/-- Every command of a tag ends FAULT with BOUNDS after a mismatch. -/
def redMismatch (l : List (Nat × XfCmd)) (s : State) : State := l.foldl (fun s p => endXf p.1 p.2 .fault codeBounds s) s

/-- Whether started commands of a tag disagree, or two take one rank. -/
def redBad (l : List (Nat × XfCmd)) : Bool :=
  l.any (fun p => l.any (fun r => redKey p.2.snap != redKey r.2.snap)) || decide ((l.map (fun p => redRank p.2.snap)).dedup.length < l.length)

/-- The modules of a reduction across modules, in rank order. -/
def redMods (c : Nat) (x : XfCmd) (s : State) : Except EngStop (State × List Nat) := do
  let n := redRanks x.snap
  let r ← fetchRun c x winGlobal (n / 64 + 2) (xfG x.snap 5) (2 * n) s
  .ok (r.1, (List.range n).map (fun i => leNat ((r.2.1.drop (2 * i)).take 2)))

/-- The wire form of a contribution to a reduction across modules (assumption 13). -/
def netContrib (s : State) (dest tag : Nat) (coll : Bool) (part : Nat) (key : List Nat) (rank : Nat) (x : Contrib) : List Byte :=
  netHead s 4 part dest tag 0 ++ [if coll then 1 else 0, BitVec.ofNat 8 key.length] ++
    key.flatMap (fun k => leBytes k 8) ++ leBytes rank 4 ++ leBytes x.data.length 8 ++ x.data ++ x.codes

/-- The step of an XRED: in one module, the reduction is made for every participant at once when the last rank has started;
across modules, a participant's contribution is sent once, and the reduction made when every rank's has arrived. Commands, or a contribution
from another module, that differ from a participant of their tag end every command of the tag. -/
def redLine (c : Nat) (x : XfCmd) (s : State) : State :=
  let q := x.snap
  let n := redRanks q
  let all := redCmds s x.who.part ((redKey q).headD 0)
  if redBad all then redMismatch all s
  else if !bitAt (xfG q 4).toNat 42 then
    if all.length < n then s
    else
      let ranked := (List.range n).filterMap (fun i => all.find? (fun p => redRank p.2.snap == i))
      let read := ranked.foldl (fun (a : State × List Contrib × Bool) p =>
        match redRead p.1 p.2 a.1 with
        | .ok (s, k) => (s, a.2.1 ++ [k], a.2.2)
        | .error e => (lineStop p.1 p.2 e a.1, a.2.1, false)) (s, [], true)
      if !read.2.2 then read.1
      else
        let r := reduceAll (xfEt q) read.2.1
        match ranked.findSome? (fun p => redStall p.1 p.2 r.1 read.1) with
        | some e => lineStop c x e read.1
        | none => ranked.foldl (fun s p => redFinish p.1 p.2 r s) read.1
  else
    let rootOnly := bitAt (xfG q 4).toNat 43
    let root := fieldW (xfG q 4) 44 13
    let away := rootOnly && root != redRank q
    if x.sent = [] then
      match (do
        let m ← redMods c x s
        let k ← redRead c x m.1
        .ok (k.1, m.2, k.2)) with
      | .error e => lineStop c x e s
      | .ok (s, mods, k) =>
        let own : RedIn := { coll := false, part := x.who.part, key := redKey q, rank := redRank q, data := k.data, codes := k.codes }
        let s := if away then s else { s with mod := { s.mod with redIn := s.mod.redIn ++ [own] } }
        let dests := (List.range n).filter (fun i => i != redRank q && (!rootOnly || i == root))
        let r := dests.foldl (fun (a : State × Bool) i =>
          let r := netSend { dest := nthD mods i 0, vl := 3, bytes := netContrib a.1 (nthD mods i 0) (netTag c x.tok) false x.who.part (redKey q) (redRank q) k } a.1
          (r.1, a.2 && r.2)) (s, true)
        let us := if dests.any (fun i => nthD mods i 0 != s.mod.ngself.toNat) then s.us + 1 else 0
        if r.2 then updXf c x (fun y => { y with sent := [0], sentUs := y.sentUs.set 0 0 us }) r.1 else endXf c x .fault codeTranslation r.1
    else
      let tagged := s.mod.redIn.filter (fun r => !r.coll && r.part == x.who.part && r.key.headD 0 == (redKey q).headD 0)
      let got := (List.range n).filterMap (fun i => tagged.find? (fun r => r.key == redKey q && r.rank == i))
      let without := fun (l : List RedIn) (s : State) => { s with mod := { s.mod with redIn := l.foldl (fun t r => t.erase r) s.mod.redIn } }
      if away then redFinish c x ({ data := [], codes := [] }, false) s
      else if got.length = n then
        let r := reduceAll (xfEt q) (got.map (fun r => { data := r.data, codes := r.codes }))
        match redStall c x r.1 s with
        | some e => lineStop c x e s
        | none => redFinish c x r (without got s)
      else if tagged.any (fun r => r.key != redKey q) then redMismatch all (without tagged s)
      else s

/-! ### The events of the engine -/

/-- The command of a token that has started, or waits to. -/
def xfFind (s : State) (c tok : Nat) (started : Bool) : Option XfCmd :=
  (coreAt s c).b.xfQ.find? (fun x => x.tok == tok && x.started == started && !x.held)

/-! ### Page locks (R180) -/

/-- The pages that a walk from a global pointer touches: a handle, a first page and a page count. -/
def walkPages (p : Word) (x0 x1 st1 x2 st2 : Nat) : List (Nat × Nat × Nat) :=
  if winOf p ≠ 8 ∨ x0 = 0 ∨ x1 = 0 ∨ x2 = 0 then []
  else
    let o := fieldW p 0 40
    [(fieldW p 40 23, o / 65536, (o + (x1 - 1) * st1 + (x2 - 1) * st2 + x0 - 1) / 65536 - o / 65536 + 1)]

/-- The pages from a global pointer to the end of its tensor. -/
def restPages (s : State) (p : Word) : List (Nat × Nat × Nat) :=
  walkPages p (tensorBytes s (fieldW p 40 23) - fieldW p 0 40) 1 0 1 0

/-- The ranges of global space that a copy command reads and writes in this module (R443-R454; assumption 98). -/
def lockRanges (s : State) (x : XfCmd) : List (Nat × Nat × Nat) :=
  let q := x.snap
  let blk := xfEt q == .bq8 || xfEt q == .bq4
  match x.op with
  | 1 => walkPages (xfSrc q) (xfX0 q) (xfX1 q) (xfSrs q) (xfX2 q) (xfSps q)
  | 2 => walkPages (xfDst q) (xfX0 q) (xfX1 q) (xfDrs q) (xfX2 q) (xfDps q)
  | 3 => walkPages (xfSrc q) (xfX0 q) (xfX1 q) (xfSrs q) (xfX2 q) (xfSps q) ++ (if xfWmode q = 2 then walkPages (xfG q 4) (xfX0 q / 8) 1 0 1 0 else [])
  | 4 => walkPages (xfSrc q) (xfX0 q * (xfEt q).width / 8) (xfX1 q) (xfSrs q) 1 0 ++
      (if blk then walkPages (xfG q 5) (xfX0 q / 16) (xfX1 q) (fieldW (xfG q 7) 0 32) 1 0 else [])
  | 5 => restPages s (BitVec.ofNat 64 ((xfSrc q).toNat / 2 ^ 40 * 2 ^ 40))
  | 6 => walkPages (xfSrc q) (xfX0 q) 1 0 1 0
  | 8 => walkPages (xfDst q) (xfX0 q) 1 0 1 0 ++ (if bitAt (xfG q 4).toNat 42 then walkPages (xfG q 5) (2 * redRanks q) 1 0 1 0 else []) ++
      (if xfEt q = .bq8 then walkPages (xfG q 7) (2 * ((xfX0 q + 31) / 32)) 1 0 1 0 else [])
  | 9 => restPages s (xfSrc q)
  | _ => []

/-- Every lock in force: those of started copy commands and of collectives. -/
def heldLocks (s : State) : List (Nat × Nat × Nat) :=
  s.cores.cells.flatMap (fun k => k.2.b.xfQ.flatMap (fun x => x.locks)) ++ s.launches.cells.flatMap (fun l => l.2.locks)

/-- The page-lock table of a die: one entry for each run of pages locked, with how often. -/
def lockTable (s : State) (d : Nat) : List PageLock :=
  let l := (heldLocks s).filter (fun r => handleDie r.1 == d)
  l.dedup.map (fun r => { h := r.1, first := r.2.1, pages := r.2.2, count := l.count r })

/-- Whether every die has free lock entries for some runs of pages. -/
def locksFit (s : State) (rs : List (Nat × Nat × Nat)) : Bool :=
  (List.range 8).all (fun d =>
    let t := lockTable s d
    let new := (rs.dedup.filter (fun r => handleDie r.1 == d && !t.any (fun e => e.h == r.1 && e.first == r.2.1 && e.pages == r.2.2))).length
    new == 0 || decide (t.length + new ≤ 16384))

/-- Whether a tensor is locked by an engine command (R180). -/
def isLocked (s : State) (h : Nat) : Bool := (heldLocks s).any (fun r => r.1 == h)

/-- ENGINE_COMMAND_START for the copy engine (R421, R180): once its consumed tokens have ended and every die it names has
free lock entries, the command begins; a walk that moves nothing ends DONE. -/
def beginXf (c : Nat) (x : XfCmd) (s : State) : State :=
  if x.ins ≠ [] ∨ x.after.any (notDone s) then s
  else match x.fault with
  | some code => endXf c x .fault code s
  | none =>
    if x.op = 11 then
      (if (coreAt s c).b.xfQ.any (fun y => !y.orphan && y.cancel && x.did.contains y.tok) then s else endXf c x .done 0 s)
    else if !locksFit s (lockRanges s x) then s
    else
      let locks := lockRanges s x
      let s := locks.foldl (fun s r => abandonMove r.1 s) s
      let s := updXf c x (fun y => { y with started := true, locks := locks }) s
      let y := { x with started := true, locks := locks }
      if x.op = 8 then (if redBad (redCmds s x.who.part ((redKey x.snap).headD 0)) then redMismatch (redCmds s x.who.part ((redKey x.snap).headD 0)) s else s)
      else if x.op ≠ 9 ∧ xfEmpty x.snap then endXf c y .done 0 s
      else s

/-- ENGINE_LINE_PERFORM (R445): one line of a started command. -/
def performXf (c tok id : Nat) (s : State) : State :=
  match xfFind s c tok true with
  | none => s
  | some x =>
    if x.cancel && !readIssued s c x then s
    else match x.op with
    | 3 => if xfWmode x.snap = 0 then plainLine c x (id / 2 ^ 20) (id % 2 ^ 20) s else weightLine c x id s
    | 4 => transLine c x (id / 2 ^ 20) (id % 2 ^ 20) s
    | 7 => sendLine c x (id / 2 ^ 20) (id % 2 ^ 20) s
    | 8 => redLine c x s
    | 9 => decompLine c x s
    | 11 => s
    | _ => plainLine c x (id / 2 ^ 20) (id % 2 ^ 20) s

/-- A completion of one of a command's open read requests (R60): its data joins what the request has, or the command ends FAULT with
DATA_UE, or with POISON_CONSUMED for a poisoned completion. -/
def peerData (c tok req : Nat) (st : PeerStatus) (data : List Byte) (s : State) : State :=
  match xfFind s c tok true with
  | none => s
  | some x =>
    match ((readsOf s c x).filter isOpenRead)[req]? with
    | none => s
    | some r =>
      match st with
      | .success => { s with mod := { s.mod with peerReads := s.mod.peerReads.map (fun y => if y = r then { y with data := y.data ++ data.take (y.n - y.data.length) } else y) } }
      | .error => endXf c x .fault codeDataUe s
      | .poisoned => endXf c x .fault codePoison s

/-- Whether some read of a command has had no completion for 50 ms (R60). -/
def peerLate (s : State) (c : Nat) (x : XfCmd) : Bool := (readsOf s c x).any (fun r => isOpenRead r && decide (r.us + 50000 ≤ s.us))

/-- Whether some request of a command to another module has had no response for 100 µs (R46). -/
def remoteLate (s : State) (x : XfCmd) : Bool := x.sent.any (fun i => x.sentUs.get 0 i != 0 && decide (x.sentUs.get 0 i + 99 ≤ s.us))

/-- A peer read with no completion, or a remote request with no response: FAULT with DATA_UE and a timeout mark (R60, R46). -/
def tokTimeout (c : Nat) (x : XfCmd) (s : State) : State :=
  let s := endXf c x .fault codeDataUe s
  if x.orphan then s else setTok s c x.tok (fun r => { r with tout := true })

end Sys2Proof.Machine
end

