-- ==== Sys2Proof/Machine/CopySlot.lean ====
section
/-!
DEFINITION. Sys2Proof/Machine/CopySlot.lean: the XF instructions (R443-R457): for each its operation in a
bundle, and its meaning as a bundle of one slot.
-/

namespace Sys2Proof.Machine

/-- XCOPY in a bundle (R446). -/
def opXcopy (o : BitVec 6) (x : BitVec 6) (y : BitVec 6) (z : BitVec 6) (s : BitVec 1) : Eff := effXf 1 o x y z s
/-- XCOPY alone in its bundle. -/
def execXcopy (o : BitVec 6) (x : BitVec 6) (y : BitVec 6) (z : BitVec 6) (s : BitVec 1) (st : State) : Host.Outcome State Fault Refusal := runSlot 7 (opXcopy o x y z s) st

/-- XSTORE in a bundle (R447). -/
def opXstore (o : BitVec 6) (x : BitVec 6) (y : BitVec 6) (z : BitVec 6) (s : BitVec 1) : Eff := effXf 2 o x y z s
/-- XSTORE alone in its bundle. -/
def execXstore (o : BitVec 6) (x : BitVec 6) (y : BitVec 6) (z : BitVec 6) (s : BitVec 1) (st : State) : Host.Outcome State Fault Refusal := runSlot 7 (opXstore o x y z s) st

/-- XWEIGHT in a bundle (R448). -/
def opXweight (o : BitVec 6) (x : BitVec 6) (y : BitVec 6) (z : BitVec 6) (s : BitVec 1) : Eff := effXf 3 o x y z s
/-- XWEIGHT alone in its bundle. -/
def execXweight (o : BitVec 6) (x : BitVec 6) (y : BitVec 6) (z : BitVec 6) (s : BitVec 1) (st : State) : Host.Outcome State Fault Refusal := runSlot 7 (opXweight o x y z s) st

/-- XTRANS in a bundle (R449). -/
def opXtrans (o : BitVec 6) (x : BitVec 6) (y : BitVec 6) (z : BitVec 6) (s : BitVec 1) : Eff := effXf 4 o x y z s
/-- XTRANS alone in its bundle. -/
def execXtrans (o : BitVec 6) (x : BitVec 6) (y : BitVec 6) (z : BitVec 6) (s : BitVec 1) (st : State) : Host.Outcome State Fault Refusal := runSlot 7 (opXtrans o x y z s) st

/-- XGATHER in a bundle (R450). -/
def opXgather (o : BitVec 6) (x : BitVec 6) (y : BitVec 6) (z : BitVec 6) (s : BitVec 1) : Eff := effXf 5 o x y z s
/-- XGATHER alone in its bundle. -/
def execXgather (o : BitVec 6) (x : BitVec 6) (y : BitVec 6) (z : BitVec 6) (s : BitVec 1) (st : State) : Host.Outcome State Fault Refusal := runSlot 7 (opXgather o x y z s) st

/-- XKV in a bundle (R451). -/
def opXkv (o : BitVec 6) (x : BitVec 6) (y : BitVec 6) (z : BitVec 6) (s : BitVec 1) : Eff := effXf 6 o x y z s
/-- XKV alone in its bundle. -/
def execXkv (o : BitVec 6) (x : BitVec 6) (y : BitVec 6) (z : BitVec 6) (s : BitVec 1) (st : State) : Host.Outcome State Fault Refusal := runSlot 7 (opXkv o x y z s) st

/-- XSEND in a bundle (R452). -/
def opXsend (o : BitVec 6) (x : BitVec 6) (y : BitVec 6) (z : BitVec 6) (s : BitVec 1) : Eff := effXf 7 o x y z s
/-- XSEND alone in its bundle. -/
def execXsend (o : BitVec 6) (x : BitVec 6) (y : BitVec 6) (z : BitVec 6) (s : BitVec 1) (st : State) : Host.Outcome State Fault Refusal := runSlot 7 (opXsend o x y z s) st

/-- XRED in a bundle (R453). -/
def opXred (o : BitVec 6) (x : BitVec 6) (y : BitVec 6) (z : BitVec 6) (s : BitVec 1) : Eff := effXf 8 o x y z s
/-- XRED alone in its bundle. -/
def execXred (o : BitVec 6) (x : BitVec 6) (y : BitVec 6) (z : BitVec 6) (s : BitVec 1) (st : State) : Host.Outcome State Fault Refusal := runSlot 7 (opXred o x y z s) st

/-- XDECOMP in a bundle (R454). -/
def opXdecomp (o : BitVec 6) (x : BitVec 6) (y : BitVec 6) (z : BitVec 6) (s : BitVec 1) : Eff := effXf 9 o x y z s
/-- XDECOMP alone in its bundle. -/
def execXdecomp (o : BitVec 6) (x : BitVec 6) (y : BitVec 6) (z : BitVec 6) (s : BitVec 1) (st : State) : Host.Outcome State Fault Refusal := runSlot 7 (opXdecomp o x y z s) st

/-- XFILL in a bundle (R446). -/
def opXfill (o : BitVec 6) (x : BitVec 6) (y : BitVec 6) (z : BitVec 6) (s : BitVec 1) : Eff := effXf 10 o x y z s
/-- XFILL alone in its bundle. -/
def execXfill (o : BitVec 6) (x : BitVec 6) (y : BitVec 6) (z : BitVec 6) (s : BitVec 1) (st : State) : Host.Outcome State Fault Refusal := runSlot 7 (opXfill o x y z s) st

/-- XCANCEL in a bundle (R455). -/
def opXcancel (o : BitVec 6) (x : BitVec 6) (y : BitVec 6) (z : BitVec 6) (s : BitVec 1) : Eff := effXf 11 o x y z s
/-- XCANCEL alone in its bundle. -/
def execXcancel (o : BitVec 6) (x : BitVec 6) (y : BitVec 6) (z : BitVec 6) (s : BitVec 1) (st : State) : Host.Outcome State Fault Refusal := runSlot 7 (opXcancel o x y z s) st

/-- XF_HINT in a bundle (R337). -/
def opXfHint (_h : BitVec 2) (_x : BitVec 26) : Eff := effHint
/-- XF_HINT alone in its bundle. -/
def execXfHint (h : BitVec 2) (x : BitVec 26) (st : State) : Host.Outcome State Fault Refusal := runSlot 7 (opXfHint h x) st

end Sys2Proof.Machine
end

