-- ==== Sys2Proof/Machine/CtlSlot.lean ====
section
/-!
DEFINITION. Sys2Proof/Machine/CtlSlot.lean: the CTL instructions (R350-R363): for each its operation in a
bundle, and its meaning as a bundle of one slot.
-/

namespace Sys2Proof.Machine

/-- BR in a bundle (R353). -/
def opBr (i : BitVec 26) : Eff := effBr i
/-- BR alone in its bundle. -/
def execBr (i : BitVec 26) (st : State) : Host.Outcome State Fault Refusal := runSlot 0 (opBr i) st

/-- BRZ in a bundle (R353). -/
def opBrz (a : BitVec 6) (i : BitVec 20) : Eff := effBrz false a i
/-- BRZ alone in its bundle. -/
def execBrz (a : BitVec 6) (i : BitVec 20) (st : State) : Host.Outcome State Fault Refusal := runSlot 0 (opBrz a i) st

/-- BRNZ in a bundle (R353). -/
def opBrnz (a : BitVec 6) (i : BitVec 20) : Eff := effBrz true a i
/-- BRNZ alone in its bundle. -/
def execBrnz (a : BitVec 6) (i : BitVec 20) (st : State) : Host.Outcome State Fault Refusal := runSlot 0 (opBrnz a i) st

/-- LOOP in a bundle (R354). -/
def opLoop (c : BitVec 1) (n : BitVec 12) (e : BitVec 12) : Eff := effLoop c n e
/-- LOOP alone in its bundle. -/
def execLoop (c : BitVec 1) (n : BitVec 12) (e : BitVec 12) (st : State) : Host.Outcome State Fault Refusal := runSlot 0 (opLoop c n e) st

/-- LOOP_REG in a bundle (R354). -/
def opLoopReg (c : BitVec 1) (a : BitVec 6) (e : BitVec 12) : Eff := effLoopReg c a e
/-- LOOP_REG alone in its bundle. -/
def execLoopReg (c : BitVec 1) (a : BitVec 6) (e : BitVec 12) (st : State) : Host.Outcome State Fault Refusal := runSlot 0 (opLoopReg c a e) st

/-- CALL in a bundle (R353). -/
def opCall (d : BitVec 6) (i : BitVec 20) : Eff := effCall d i
/-- CALL alone in its bundle. -/
def execCall (d : BitVec 6) (i : BitVec 20) (st : State) : Host.Outcome State Fault Refusal := runSlot 0 (opCall d i) st

/-- CALLR in a bundle (R353). -/
def opCallr (d : BitVec 6) (a : BitVec 6) : Eff := effCallr d a
/-- CALLR alone in its bundle. -/
def execCallr (d : BitVec 6) (a : BitVec 6) (st : State) : Host.Outcome State Fault Refusal := runSlot 0 (opCallr d a) st

/-- RET in a bundle (R353). -/
def opRet (a : BitVec 6) : Eff := effRet a
/-- RET alone in its bundle. -/
def execRet (a : BitVec 6) (st : State) : Host.Outcome State Fault Refusal := runSlot 0 (opRet a) st

/-- TEND in a bundle (R356). -/
def opTend : Eff := effTend
/-- TEND alone in its bundle. -/
def execTend (st : State) : Host.Outcome State Fault Refusal := runSlot 0 (opTend) st

/-- TRAP in a bundle (R357). -/
def opTrap (i : BitVec 20) : Eff := effTrap i
/-- TRAP alone in its bundle. -/
def execTrap (i : BitVec 20) (st : State) : Host.Outcome State Fault Refusal := runSlot 0 (opTrap i) st

/-- ERET in a bundle (R357). -/
def opEret : Eff := effEret false
/-- ERET alone in its bundle. -/
def execEret (st : State) : Host.Outcome State Fault Refusal := runSlot 0 (opEret) st

/-- ERET_SKIP in a bundle (R357). -/
def opEretSkip : Eff := effEret true
/-- ERET_SKIP alone in its bundle. -/
def execEretSkip (st : State) : Host.Outcome State Fault Refusal := runSlot 0 (opEretSkip) st

/-- WAITT in a bundle (R358). -/
def opWaitt (x : BitVec 6) (y : BitVec 6) (z : BitVec 6) : Eff := effWaitt x y z
/-- WAITT alone in its bundle. -/
def execWaitt (x : BitVec 6) (y : BitVec 6) (z : BitVec 6) (st : State) : Host.Outcome State Fault Refusal := runSlot 0 (opWaitt x y z) st

/-- WAITG in a bundle (R358). -/
def opWaitg (a : BitVec 6) (b : BitVec 6) : Eff := effWaitg a b
/-- WAITG alone in its bundle. -/
def execWaitg (a : BitVec 6) (b : BitVec 6) (st : State) : Host.Outcome State Fault Refusal := runSlot 0 (opWaitg a b) st

/-- DRAIN in a bundle (R235). -/
def opDrain (s : BitVec 3) : Eff := effDrain s
/-- DRAIN alone in its bundle. -/
def execDrain (s : BitVec 3) (st : State) : Host.Outcome State Fault Refusal := runSlot 0 (opDrain s) st

/-- FENCE_T in a bundle (R178). -/
def opFenceT (s : BitVec 3) : Eff := effFenceT s
/-- FENCE_T alone in its bundle. -/
def execFenceT (s : BitVec 3) (st : State) : Host.Outcome State Fault Refusal := runSlot 0 (opFenceT s) st

/-- FENCE_SV_DIE in a bundle (R238). -/
def opFenceSvDie : Eff := effFenceSv false
/-- FENCE_SV_DIE alone in its bundle. -/
def execFenceSvDie (st : State) : Host.Outcome State Fault Refusal := runSlot 0 (opFenceSvDie) st

/-- FENCE_SV_MODULE in a bundle (R238). -/
def opFenceSvModule : Eff := effFenceSv true
/-- FENCE_SV_MODULE alone in its bundle. -/
def execFenceSvModule (st : State) : Host.Outcome State Fault Refusal := runSlot 0 (opFenceSvModule) st

/-- SEGCHK in a bundle (R360). -/
def opSegchk (c : BitVec 12) : Eff := effSegchk c
/-- SEGCHK alone in its bundle. -/
def execSegchk (c : BitVec 12) (st : State) : Host.Outcome State Fault Refusal := runSlot 0 (opSegchk c) st

/-- SYSR in a bundle (R361). -/
def opSysr (d : BitVec 6) (i : BitVec 12) : Eff := effSysr d i
/-- SYSR alone in its bundle. -/
def execSysr (d : BitVec 6) (i : BitVec 12) (st : State) : Host.Outcome State Fault Refusal := runSlot 0 (opSysr d i) st

/-- SYSW in a bundle (R361). -/
def opSysw (a : BitVec 6) (i : BitVec 12) : Eff := effSysw a i
/-- SYSW alone in its bundle. -/
def execSysw (a : BitVec 6) (i : BitVec 12) (st : State) : Host.Outcome State Fault Refusal := runSlot 0 (opSysw a i) st

/-- YIELDP in a bundle (R362). -/
def opYieldp : Eff := effYieldp
/-- YIELDP alone in its bundle. -/
def execYieldp (st : State) : Host.Outcome State Fault Refusal := runSlot 0 (opYieldp) st

/-- SHAPEPUB in a bundle (R363). -/
def opShapepub (a : BitVec 6) (s : BitVec 10) : Eff := effShapepub a s
/-- SHAPEPUB alone in its bundle. -/
def execShapepub (a : BitVec 6) (s : BitVec 10) (st : State) : Host.Outcome State Fault Refusal := runSlot 0 (opShapepub a s) st

/-- SHAPEPUB_CLR in a bundle (R363). -/
def opShapepubClr (s : BitVec 10) : Eff := effShapepubClr s
/-- SHAPEPUB_CLR alone in its bundle. -/
def execShapepubClr (s : BitVec 10) (st : State) : Host.Outcome State Fault Refusal := runSlot 0 (opShapepubClr s) st

/-- CTL_HINT in a bundle (R329). -/
def opCtlHint (_h : BitVec 2) (_x : BitVec 26) : Eff := effHint
/-- CTL_HINT alone in its bundle. -/
def execCtlHint (h : BitVec 2) (x : BitVec 26) (st : State) : Host.Outcome State Fault Refusal := runSlot 0 (opCtlHint h x) st

end Sys2Proof.Machine
end

