-- ==== Sys2Proof/Machine/LoadStoreSlot.lean ====
section
/-!
DEFINITION. Sys2Proof/Machine/LoadStoreSlot.lean: the LS instructions (R374-R388): for each its operation in a
bundle, and its meaning as a bundle of one slot.
-/

namespace Sys2Proof.Machine

/-- LD in a bundle (R376). -/
def opLd (d : BitVec 6) (a : BitVec 6) (z : BitVec 2) (x : BitVec 1) (i : BitVec 11) : Eff := effLd d a z x i
/-- LD alone in its bundle. -/
def execLd (d : BitVec 6) (a : BitVec 6) (z : BitVec 2) (x : BitVec 1) (i : BitVec 11) (st : State) : Host.Outcome State Fault Refusal := runSlot 3 (opLd d a z x i) st

/-- ST in a bundle (R376). -/
def opSt (b : BitVec 6) (a : BitVec 6) (z : BitVec 2) (i : BitVec 11) : Eff := effSt b a z i
/-- ST alone in its bundle. -/
def execSt (b : BitVec 6) (a : BitVec 6) (z : BitVec 2) (i : BitVec 11) (st : State) : Host.Outcome State Fault Refusal := runSlot 3 (opSt b a z i) st

/-- VLD in a bundle (R377). -/
def opVld (d : BitVec 6) (a : BitVec 6) (i : BitVec 10) : Eff := effVld d a i
/-- VLD alone in its bundle. -/
def execVld (d : BitVec 6) (a : BitVec 6) (i : BitVec 10) (st : State) : Host.Outcome State Fault Refusal := runSlot 3 (opVld d a i) st

/-- VST in a bundle (R377). -/
def opVst (b : BitVec 6) (a : BitVec 6) (k : BitVec 4) (i : BitVec 10) : Eff := effVst b a k i
/-- VST alone in its bundle. -/
def execVst (b : BitVec 6) (a : BitVec 6) (k : BitVec 4) (i : BitVec 10) (st : State) : Host.Outcome State Fault Refusal := runSlot 3 (opVst b a k i) st

/-- VLDS in a bundle (R378). -/
def opVlds (d : BitVec 6) (a : BitVec 6) (s : BitVec 6) (k : BitVec 4) (e : Fmt) : Eff := gather d k e (strideAddr a s)
/-- VLDS alone in its bundle. -/
def execVlds (d : BitVec 6) (a : BitVec 6) (s : BitVec 6) (k : BitVec 4) (e : Fmt) (st : State) : Host.Outcome State Fault Refusal := runSlot 3 (opVlds d a s k e) st

/-- VSTS in a bundle (R378). -/
def opVsts (b : BitVec 6) (a : BitVec 6) (s : BitVec 6) (k : BitVec 4) (e : Fmt) : Eff := scatter b k e (strideAddr a s)
/-- VSTS alone in its bundle. -/
def execVsts (b : BitVec 6) (a : BitVec 6) (s : BitVec 6) (k : BitVec 4) (e : Fmt) (st : State) : Host.Outcome State Fault Refusal := runSlot 3 (opVsts b a s k e) st

/-- VLDX in a bundle (R378). -/
def opVldx (d : BitVec 6) (a : BitVec 6) (x : BitVec 6) (k : BitVec 4) (e : Fmt) : Eff := gather d k e (indexAddr a x e)
/-- VLDX alone in its bundle. -/
def execVldx (d : BitVec 6) (a : BitVec 6) (x : BitVec 6) (k : BitVec 4) (e : Fmt) (st : State) : Host.Outcome State Fault Refusal := runSlot 3 (opVldx d a x k e) st

/-- VSTX in a bundle (R378). -/
def opVstx (b : BitVec 6) (a : BitVec 6) (x : BitVec 6) (k : BitVec 4) (e : Fmt) : Eff := scatter b k e (indexAddr a x e)
/-- VSTX alone in its bundle. -/
def execVstx (b : BitVec 6) (a : BitVec 6) (x : BitVec 6) (k : BitVec 4) (e : Fmt) (st : State) : Host.Outcome State Fault Refusal := runSlot 3 (opVstx b a x k e) st

/-- LDL in a bundle (R379). -/
def opLdl (d : BitVec 6) (a : BitVec 6) (f : BitVec 2) (r : BitVec 12) : Eff := effLdl d a f r
/-- LDL alone in its bundle. -/
def execLdl (d : BitVec 6) (a : BitVec 6) (f : BitVec 2) (r : BitVec 12) (st : State) : Host.Outcome State Fault Refusal := runSlot 3 (opLdl d a f r) st

/-- AMO_ADD in a bundle (R382). -/
def opAmoAdd (d : BitVec 6) (a : BitVec 6) (w : BitVec 1) (q : BitVec 9) : Eff := effAmo 0 d a w q
/-- AMO_ADD alone in its bundle. -/
def execAmoAdd (d : BitVec 6) (a : BitVec 6) (w : BitVec 1) (q : BitVec 9) (st : State) : Host.Outcome State Fault Refusal := runSlot 3 (opAmoAdd d a w q) st

/-- AMO_AND in a bundle (R382). -/
def opAmoAnd (d : BitVec 6) (a : BitVec 6) (w : BitVec 1) (q : BitVec 9) : Eff := effAmo 1 d a w q
/-- AMO_AND alone in its bundle. -/
def execAmoAnd (d : BitVec 6) (a : BitVec 6) (w : BitVec 1) (q : BitVec 9) (st : State) : Host.Outcome State Fault Refusal := runSlot 3 (opAmoAnd d a w q) st

/-- AMO_OR in a bundle (R382). -/
def opAmoOr (d : BitVec 6) (a : BitVec 6) (w : BitVec 1) (q : BitVec 9) : Eff := effAmo 2 d a w q
/-- AMO_OR alone in its bundle. -/
def execAmoOr (d : BitVec 6) (a : BitVec 6) (w : BitVec 1) (q : BitVec 9) (st : State) : Host.Outcome State Fault Refusal := runSlot 3 (opAmoOr d a w q) st

/-- AMO_XOR in a bundle (R382). -/
def opAmoXor (d : BitVec 6) (a : BitVec 6) (w : BitVec 1) (q : BitVec 9) : Eff := effAmo 3 d a w q
/-- AMO_XOR alone in its bundle. -/
def execAmoXor (d : BitVec 6) (a : BitVec 6) (w : BitVec 1) (q : BitVec 9) (st : State) : Host.Outcome State Fault Refusal := runSlot 3 (opAmoXor d a w q) st

/-- AMO_MIN in a bundle (R382). -/
def opAmoMin (d : BitVec 6) (a : BitVec 6) (w : BitVec 1) (q : BitVec 9) : Eff := effAmo 4 d a w q
/-- AMO_MIN alone in its bundle. -/
def execAmoMin (d : BitVec 6) (a : BitVec 6) (w : BitVec 1) (q : BitVec 9) (st : State) : Host.Outcome State Fault Refusal := runSlot 3 (opAmoMin d a w q) st

/-- AMO_MAX in a bundle (R382). -/
def opAmoMax (d : BitVec 6) (a : BitVec 6) (w : BitVec 1) (q : BitVec 9) : Eff := effAmo 5 d a w q
/-- AMO_MAX alone in its bundle. -/
def execAmoMax (d : BitVec 6) (a : BitVec 6) (w : BitVec 1) (q : BitVec 9) (st : State) : Host.Outcome State Fault Refusal := runSlot 3 (opAmoMax d a w q) st

/-- AMO_MINU in a bundle (R382). -/
def opAmoMinu (d : BitVec 6) (a : BitVec 6) (w : BitVec 1) (q : BitVec 9) : Eff := effAmo 6 d a w q
/-- AMO_MINU alone in its bundle. -/
def execAmoMinu (d : BitVec 6) (a : BitVec 6) (w : BitVec 1) (q : BitVec 9) (st : State) : Host.Outcome State Fault Refusal := runSlot 3 (opAmoMinu d a w q) st

/-- AMO_MAXU in a bundle (R382). -/
def opAmoMaxu (d : BitVec 6) (a : BitVec 6) (w : BitVec 1) (q : BitVec 9) : Eff := effAmo 7 d a w q
/-- AMO_MAXU alone in its bundle. -/
def execAmoMaxu (d : BitVec 6) (a : BitVec 6) (w : BitVec 1) (q : BitVec 9) (st : State) : Host.Outcome State Fault Refusal := runSlot 3 (opAmoMaxu d a w q) st

/-- AMO_SWAP in a bundle (R382). -/
def opAmoSwap (d : BitVec 6) (a : BitVec 6) (w : BitVec 1) (q : BitVec 9) : Eff := effAmo 8 d a w q
/-- AMO_SWAP alone in its bundle. -/
def execAmoSwap (d : BitVec 6) (a : BitVec 6) (w : BitVec 1) (q : BitVec 9) (st : State) : Host.Outcome State Fault Refusal := runSlot 3 (opAmoSwap d a w q) st

/-- AMO_FADD in a bundle (R382). -/
def opAmoFadd (d : BitVec 6) (a : BitVec 6) (q : BitVec 9) : Eff := effAmo 9 d a 0 q
/-- AMO_FADD alone in its bundle. -/
def execAmoFadd (d : BitVec 6) (a : BitVec 6) (q : BitVec 9) (st : State) : Host.Outcome State Fault Refusal := runSlot 3 (opAmoFadd d a q) st

/-- CAS in a bundle (R382). -/
def opCas (d : BitVec 6) (a : BitVec 6) (w : BitVec 1) (r : BitVec 12) : Eff := effCas d a w r
/-- CAS alone in its bundle. -/
def execCas (d : BitVec 6) (a : BitVec 6) (w : BitVec 1) (r : BitVec 12) (st : State) : Host.Outcome State Fault Refusal := runSlot 3 (opCas d a w r) st

/-- RED_ADD in a bundle (R382). -/
def opRedAdd (a : BitVec 6) (b : BitVec 6) (w : BitVec 1) : Eff := effRed 0 a b w
/-- RED_ADD alone in its bundle. -/
def execRedAdd (a : BitVec 6) (b : BitVec 6) (w : BitVec 1) (st : State) : Host.Outcome State Fault Refusal := runSlot 3 (opRedAdd a b w) st

/-- RED_AND in a bundle (R382). -/
def opRedAnd (a : BitVec 6) (b : BitVec 6) (w : BitVec 1) : Eff := effRed 1 a b w
/-- RED_AND alone in its bundle. -/
def execRedAnd (a : BitVec 6) (b : BitVec 6) (w : BitVec 1) (st : State) : Host.Outcome State Fault Refusal := runSlot 3 (opRedAnd a b w) st

/-- RED_OR in a bundle (R382). -/
def opRedOr (a : BitVec 6) (b : BitVec 6) (w : BitVec 1) : Eff := effRed 2 a b w
/-- RED_OR alone in its bundle. -/
def execRedOr (a : BitVec 6) (b : BitVec 6) (w : BitVec 1) (st : State) : Host.Outcome State Fault Refusal := runSlot 3 (opRedOr a b w) st

/-- RED_XOR in a bundle (R382). -/
def opRedXor (a : BitVec 6) (b : BitVec 6) (w : BitVec 1) : Eff := effRed 3 a b w
/-- RED_XOR alone in its bundle. -/
def execRedXor (a : BitVec 6) (b : BitVec 6) (w : BitVec 1) (st : State) : Host.Outcome State Fault Refusal := runSlot 3 (opRedXor a b w) st

/-- RED_MIN in a bundle (R382). -/
def opRedMin (a : BitVec 6) (b : BitVec 6) (w : BitVec 1) : Eff := effRed 4 a b w
/-- RED_MIN alone in its bundle. -/
def execRedMin (a : BitVec 6) (b : BitVec 6) (w : BitVec 1) (st : State) : Host.Outcome State Fault Refusal := runSlot 3 (opRedMin a b w) st

/-- RED_MAX in a bundle (R382). -/
def opRedMax (a : BitVec 6) (b : BitVec 6) (w : BitVec 1) : Eff := effRed 5 a b w
/-- RED_MAX alone in its bundle. -/
def execRedMax (a : BitVec 6) (b : BitVec 6) (w : BitVec 1) (st : State) : Host.Outcome State Fault Refusal := runSlot 3 (opRedMax a b w) st

/-- RED_MINU in a bundle (R382). -/
def opRedMinu (a : BitVec 6) (b : BitVec 6) (w : BitVec 1) : Eff := effRed 6 a b w
/-- RED_MINU alone in its bundle. -/
def execRedMinu (a : BitVec 6) (b : BitVec 6) (w : BitVec 1) (st : State) : Host.Outcome State Fault Refusal := runSlot 3 (opRedMinu a b w) st

/-- RED_MAXU in a bundle (R382). -/
def opRedMaxu (a : BitVec 6) (b : BitVec 6) (w : BitVec 1) : Eff := effRed 7 a b w
/-- RED_MAXU alone in its bundle. -/
def execRedMaxu (a : BitVec 6) (b : BitVec 6) (w : BitVec 1) (st : State) : Host.Outcome State Fault Refusal := runSlot 3 (opRedMaxu a b w) st

/-- RED_FADD in a bundle (R382). -/
def opRedFadd (a : BitVec 6) (b : BitVec 6) : Eff := effRed 9 a b 0
/-- RED_FADD alone in its bundle. -/
def execRedFadd (a : BitVec 6) (b : BitVec 6) (st : State) : Host.Outcome State Fault Refusal := runSlot 3 (opRedFadd a b) st

/-- LD_ACQ in a bundle (R383). -/
def opLdAcq (d : BitVec 6) (a : BitVec 6) (z : BitVec 1) (s : BitVec 3) : Eff := effLdAcq d a z s
/-- LD_ACQ alone in its bundle. -/
def execLdAcq (d : BitVec 6) (a : BitVec 6) (z : BitVec 1) (s : BitVec 3) (st : State) : Host.Outcome State Fault Refusal := runSlot 3 (opLdAcq d a z s) st

/-- ST_REL in a bundle (R383). -/
def opStRel (b : BitVec 6) (a : BitVec 6) (z : BitVec 1) (s : BitVec 3) : Eff := effStRel b a z s
/-- ST_REL alone in its bundle. -/
def execStRel (b : BitVec 6) (a : BitVec 6) (z : BitVec 1) (s : BitVec 3) (st : State) : Host.Outcome State Fault Refusal := runSlot 3 (opStRel b a z s) st

/-- HINGE_REL in a bundle (R384). -/
def opHingeRel (c : BitVec 6) (a : BitVec 6) (b : BitVec 6) : Eff := effHingeRel c a b
/-- HINGE_REL alone in its bundle. -/
def execHingeRel (c : BitVec 6) (a : BitVec 6) (b : BitVec 6) (st : State) : Host.Outcome State Fault Refusal := runSlot 3 (opHingeRel c a b) st

/-- HINGE_ACQ in a bundle (R384). -/
def opHingeAcq (d : BitVec 6) (a : BitVec 6) (b : BitVec 6) : Eff := effHingeAcq d a b
/-- HINGE_ACQ alone in its bundle. -/
def execHingeAcq (d : BitVec 6) (a : BitVec 6) (b : BitVec 6) (st : State) : Host.Outcome State Fault Refusal := runSlot 3 (opHingeAcq d a b) st

/-- BGIVE in a bundle (R385). -/
def opBgive (h : BitVec 2) (i : BitVec 4) (n : BitVec 2) : Eff := effBgive h i n
/-- BGIVE alone in its bundle. -/
def execBgive (h : BitVec 2) (i : BitVec 4) (n : BitVec 2) (st : State) : Host.Outcome State Fault Refusal := runSlot 3 (opBgive h i n) st

/-- SYNCARM in a bundle (R386). -/
def opSyncarm (a : BitVec 6) (b : BitVec 6) : Eff := effSyncarm a b
/-- SYNCARM alone in its bundle. -/
def execSyncarm (a : BitVec 6) (b : BitVec 6) (st : State) : Host.Outcome State Fault Refusal := runSlot 3 (opSyncarm a b) st

/-- SPILL in a bundle (R387). -/
def opSpill (b : BitVec 6) (v : BitVec 1) (s : BitVec 10) : Eff := effSpill b v s
/-- SPILL alone in its bundle. -/
def execSpill (b : BitVec 6) (v : BitVec 1) (s : BitVec 10) (st : State) : Host.Outcome State Fault Refusal := runSlot 3 (opSpill b v s) st

/-- FILL in a bundle (R387). -/
def opFill (d : BitVec 6) (v : BitVec 1) (s : BitVec 10) : Eff := effFill d v s
/-- FILL alone in its bundle. -/
def execFill (d : BitVec 6) (v : BitVec 1) (s : BitVec 10) (st : State) : Host.Outcome State Fault Refusal := runSlot 3 (opFill d v s) st

/-- PREF in a bundle (R388). -/
def opPref (a : BitVec 6) (n : BitVec 4) : Eff := effPref a n
/-- PREF alone in its bundle. -/
def execPref (a : BitVec 6) (n : BitVec 4) (st : State) : Host.Outcome State Fault Refusal := runSlot 3 (opPref a n) st

/-- LS_HINT in a bundle (R329). -/
def opLsHint (_h : BitVec 2) (_x : BitVec 26) : Eff := effHint
/-- LS_HINT alone in its bundle. -/
def execLsHint (h : BitVec 2) (x : BitVec 26) (st : State) : Host.Outcome State Fault Refusal := runSlot 3 (opLsHint h x) st

end Sys2Proof.Machine
end

