-- ==== Sys2Proof/Machine/Matrix.lean ====
section
/-!
DEFINITION. Sys2Proof/Machine/Matrix.lean: the MX commands (R423-R442): their checks at issue, the microcode routines
and micro-operations, and the commands that move accumulator regions.
-/

namespace Sys2Proof.Machine

/-! ### Parameters (R423, R424) -/

/-- Shape register ms0-ms3 of a snapshot. -/
def msOf (snap : List Word) (i : Nat) : Word := nthD snap (8 + i) 0
/-- Parameter register mp0-mp7 of a snapshot. -/
def mpOf (snap : List Word) (i : Nat) : Word := nthD snap i 0

def mxM (q : List Word) : Nat := fieldW (msOf q 0) 0 16
def mxN (q : List Word) : Nat := fieldW (msOf q 0) 16 16
def mxK (q : List Word) : Nat := fieldW (msOf q 0) 32 24
def mxRow0 (q : List Word) : Nat := fieldW (msOf q 1) 0 8
def mxCol0 (q : List Word) : Nat := fieldW (msOf q 1) 8 8
def mxBank (q : List Word) : Nat := fieldW (msOf q 1) 16 1
def mxClr (q : List Word) : Bool := bitAt (msOf q 1).toNat 17
def mxRel (q : List Word) : Bool := bitAt (msOf q 1).toNat 18
def mxJoint (q : List Word) : Bool := bitAt (msOf q 1).toNat 19
def mxXset (q : List Word) : Nat := fieldW (msOf q 1) 32 16
def mxG (q : List Word) : Nat := if fieldW (msOf q 2) 0 4 = 0 then 1 else fieldW (msOf q 2) 0 4
def mxD (q : List Word) : Int := signed 8 (fieldW (msOf q 2) 8 8)
def mxRm (q : List Word) : Nat := fieldW (msOf q 2) 16 2
def mxBsrc (q : List Word) : Bool := bitAt (msOf q 2).toNat 18
def mxWb (q : List Word) : Nat := fieldW (msOf q 2) 19 1
def mxEntry (q : List Word) : Nat := fieldW (msOf q 3) 0 6
def mxUword (q : List Word) : Nat := fieldW (msOf q 3) 8 10
def mxUcount (q : List Word) : Nat := fieldW (msOf q 3) 18 10
def mxWent (q : List Word) : Bool := bitAt (msOf q 3).toNat 28

/-- The bits of the twelve registers that a command reads, mp0-mp7 and then ms0-ms3 (R425). -/
def mxUsed (op : Nat) : List Nat :=
  let all := 2 ^ 64 - 1
  let low := 2 ^ 32 - 1
  let place := 0x1FFFF
  let xset := 0xFFFF * 2 ^ 32
  match op with
  | 1 => [all, all, all, all, all, all, all, all, 2 ^ 56 - 1, 0xFFFFF + xset, 0xFFF0F, 0x1FFFFF3F]
  | 4 => [0, 0, 0, 0, 0, 0, 0, 0, low, place, 0xFF00, 0]
  | 5 => [0, 0, 0, 0, 0, 0, 0, 0, low, place + xset, 0, 0]
  | 6 => [all, 0, 0, 0, low, 0, 0, 0, low, place + 2 ^ 18, 0x30000, 0]
  | 7 => [all, 0, 0, 0, low, 0, 0, 0, low, place + xset, 0, 0]
  | 8 => [all, 0, all, 0, low, low, 0, 0, low, place, 0, 0]
  | 9 => [all, 0, 0, 0, 0, 0, 0, 0, 0, 0, 0, 0x1FFFFF3F]
  | _ => [0, 0, 0, 0, 0, 0, 0, 0, 0, 0, 0, 0]

/-- Whether every field a command does not read is zero (R422). -/
def usedOnly (used : List Nat) (snap : List Word) : Bool :=
  (List.range 12).all (fun i => Nat.land (nthD snap i 0).toNat (2 ^ 64 - 1 - nthD used i 0) == 0)

/-- The rows of the region (R442): those of its groups for the ragged routine, M otherwise. -/
def mxRows (op : Nat) (q : List Word) : Nat :=
  if op = 1 ∧ mxEntry q = 3 then ((List.range (mxG q)).map (fun g => fieldW (mpOf q 6) (8 * g) 8)).sum else mxM q

/-! ### The microprogram store (R436-R442) -/

/-- The Genrek routines 0-9 as this model loads them (R441; assumption 12): the inner loop over K-blocks, and for the
grouped and ragged ones an outer loop over groups. Routine 9 is run by its own rule. -/
def romRoutines : List (List Instr) :=
  let inner := fun (tr : BitVec 1 × BitVec 1 × BitVec 1) (mac : Instr) =>
    [Instr.mbcast, .mscale 2 3, .mloada 0 tr.1 tr.2.2, .mloadb 1 tr.2.1, mac, .mloop 0 0xFFFB]
  let grouped := [Instr.mskip 7] ++ inner (0, 0, 0) .mmac ++ [.mnext 1 7, .mloop 1 0xFFF8, .mend]
  [inner (0, 0, 0) .mmac ++ [.mend], inner (0, 1, 0) .mmac ++ [.mend], grouped, grouped, inner (0, 0, 0) .mmact ++ [.mend],
   inner (0, 0, 1) .mmac ++ [.mend], inner (0, 0, 0) .mmac ++ [.mend], inner (0, 1, 0) .mmac ++ [.mend], inner (1, 1, 0) .mmac ++ [.mend], [.mend]]

/-- The first word of a Genrek routine in the store. -/
def romStart (e : Nat) : Nat := ((romRoutines.take e).map List.length).sum

/-- The words of the Genrek routines. -/
def romWords : List Nat := romRoutines.flatten.map (fun i => (encodeMicro i).getD 0)

/-- An entry of the entry table (R436): 0-9 are the Genrek routines', 10-31 are not VALID. -/
def entryOf (b : Body) (e : Nat) : MicroEntry :=
  if e < 10 then { start := romStart e, len := (nthD romRoutines e []).length, valid := true }
  else if e < 32 then .zero else b.entries.get .zero e

/-- A micro-word of the store (R436). -/
def microWord (b : Body) (w : Nat) : Nat := if w < 512 then nthD romWords w 0 else (b.micro.get 0 w).toNat

/-- Whether a micro-word is well-formed (R440). -/
def microOk (w : Nat) : Bool := match decodeMicro w with | .ok _ => true | .error _ => false

/-- The words of a routine keep its jumps inside it and end with MEND (R440). -/
def routineOk (ws : List Nat) : Bool :=
  let n := ws.length
  ((List.range n).all (fun i =>
    let w := nthD ws i 0
    microOk w && (match num w 59 5 with
      | 7 => decide (0 ≤ (i : Int) + signed 16 (num w 32 16)) && decide ((i : Int) + signed 16 (num w 32 16) < n)
      | 9 => decide (0 ≤ (i : Int) + signed 16 (num w 32 16)) && decide ((i : Int) + signed 16 (num w 32 16) < n)
      | _ => true))) && num (nthD ws (n - 1) 0) 59 5 == 11

/-- Whether an entry is VALID once the queued MXUCW commands have acted (R426, R435, R457). -/
def entryWill (b : Body) (e : Nat) : Bool :=
  (b.mxQ.foldl (fun (x : MicroEntry) m =>
    if m.op ≠ 9 then x
    else
      let u := mxUword m.snap
      let n := mxUcount m.snap
      let x := if x.valid ∧ u < x.start + x.len ∧ x.start < u + n then { x with valid := false } else x
      if mxWent m.snap ∧ mxEntry m.snap = e then { start := u, len := n, valid := true } else x) (entryOf b e)).valid

/-! ### Checks at issue (R425, R426, R434, R435) -/

/-- The element types a routine accepts (R441). -/
def routineEt (e : Nat) (et : Fmt) : Bool :=
  let base := et == .i8 || et == .bq8 || et == .bq4 || et == .bf16
  match e with
  | 1 => et == .i8 || et == .bf16
  | 5 => et == .i8 || et == .bq8 || et == .bf16
  | 7 => et == .i8 || et == .bf16
  | 8 => et == .i8 || et == .bf16
  | 9 => et == .bf16 || et == .f32
  | _ => base

/-- What a routine refuses of its parameters (R441, R442). -/
def callRefused (b : Body) (et : Fmt) (q : List Word) : Bool :=
  let e := mxEntry q
  !entryWill b e || !routineEt e et || (e == 9 && mxJoint q) || ((e == 6 || e == 7) && !mxBsrc q) ||
  (mxBsrc q && (fieldW (mpOf q 1) 18 46 != 0 || fieldW (mpOf q 3) 18 46 != 0)) ||
  (e == 3 && (mpOf q 6).toNat / 2 ^ (8 * mxG q) != 0) ||
  (e == 5 && (fieldW (mpOf q 6) 0 16 % 32 != 0 || fieldW (mpOf q 6) 32 8 == 0 || fieldW (mpOf q 7) 32 16 == 0))

/-- Check 1 of R426: ILLEGAL_ENCODING. -/
def mxIllegal (b : Body) (op : Nat) (et : Fmt) (q : List Word) : Bool :=
  !usedOnly (mxUsed op) q ||
  (op == 1 && decide (8 < fieldW (msOf q 2) 0 4)) ||
  ((op == 1 || op == 4) && (decide (mxD q < -64) || decide (64 < mxD q))) ||
  ((op == 1 || op == 5 || op == 7) && mxXset q == 0x8000) ||
  (op == 1 && callRefused b et q) ||
  (op == 9 && (mxUcount q == 0 || decide (512 < mxUcount q)))

/-- Check 3 of R426: MX_BOUNDS. A region with no row or column passes. -/
def mxOut (op : Nat) (q : List Word) : Bool :=
  let rows := mxRows op q
  if rows = 0 ∨ mxN q = 0 then false
  else if op = 1 ∧ (mxEntry q = 2 ∨ 32 ≤ mxEntry q) ∧ mxM q % mxG q ≠ 0 then true
  else if op = 1 ∧ mxJoint q then decide (256 < rows) || decide (256 < mxN q) || mxRow0 q != 0 || mxCol0 q != 0
  else decide (128 < mxRow0 q + rows) || decide (128 < mxCol0 q + mxN q)

/-- Whether a command's region must be segment-aligned (R426). -/
def mxAligned (op : Nat) (q : List Word) : Bool := op == 4 || op == 5 || op == 7 || op == 8 || (op == 1 && mxClr q)

/-- Check 4 of R426: MX_BANK. -/
def mxBankBad (c : Nat) (o : State) (m : MxCmd) : Bool :=
  let q := m.snap
  if mxRows m.op q = 0 ∨ mxN q = 0 then false
  else (mxAligned m.op q && (mxCol0 q % 32 != 0 || mxN q % 32 != 0)) ||
    (m.op != 6 && (match regionOf c m with
      | some r => (List.range 1024).any (fun j => (coreAt o c).b.r.spill.getLsbD j && slotIn j r)
      | none => false))

/-- Whether a command writes a destination outside the core: MXRDA and MXWB through the cluster window to another core. -/
def mxExternal (c : Nat) (op : Nat) (q : List Word) : Bool :=
  (op == 6 || op == 8) && winOf (mpOf q 0) == 2 && fieldW (mpOf q 0) 22 2 != coreCic c

/-- An MX word at issue (R420, R421, R426, R434, R435). -/
def effMx (op : Nat) (et : Fmt) (tout t0 t1 : BitVec 6) (sw : BitVec 1) : Eff := fun c o s =>
  let b := (coreAt o c).b
  let q := snapM b.r (sw == 1)
  let f := cmdNow o c 6 op et tout.toNat q
  let ext := mxExternal c op q
  let region := op == 1 || op == 4 || op == 5 || op == 6 || op == 7 || op == 8
  if tokLive o c tout.toNat ∧ !binds s c ext f then flt codeTokenLive
  else if mxIllegal b op et q then flt codeIllegal
  else if op = 9 ∧ (mxUword q < 512 ∨ (mxWent q ∧ mxEntry q < 32)) then flt codePrivilege
  else if op = 9 ∧ 1024 < mxUword q + mxUcount q then flt codeMxBounds
  else if (op = 2 ∧ !isGroup o c) ∨ (op = 1 ∧ mxJoint q ∧ !b.r.joined) then flt codeMxJoin
  else if region ∧ mxOut op q then flt codeMxBounds
  else if region ∧ mxBankBad c o (newMx f [] [] none) then flt codeMxBank
  else if 16 ≤ b.mxQ.length ∧ !binds s c ext f then pauseFor 9
  else
    let s := enterCmd c o s ext ((op == 6 || op == 8) && !ext) (sw == 1) f (tokIns tout.toNat [t0.toNat, t1.toNat]) 1
      (fun ins fault b => { b with mxQ := b.mxQ ++ [newMx f ins ((ownPend o c).map (fun p => p.id)) fault] })
    .ok (if op = 2 then updRegs s c (fun r => { r with joined := true })
      else if op = 3 then updRegs s c (fun r => { r with joined := false }) else s)

/-! ### Accumulators (R314-R316) -/

/-- The key of an accumulator element, and of a segment's exponent word. -/
def accKey (bank row col : Nat) : Nat := bank * 16384 + row * 128 + col
def segKey (bank row col : Nat) : Nat := bank * 512 + row * 4 + col / 32

/-- Element and exponent reads. -/
def accGet (b : Body) (bank row col : Nat) : Int := signed 40 (b.acc.get 0 (accKey bank row col)).toNat
def segGet (b : Body) (bank row col : Nat) : Nat := (b.accX.get 0 (segKey bank row col)).toNat
/-- Element and exponent writes. -/
def accPut (bank row col : Nat) (a : Int) (b : Body) : Body := { b with acc := b.acc.set 0 (accKey bank row col) (BitVec.ofInt 40 a) }
def segPut (bank row col x : Nat) (b : Body) : Body := { b with accX := b.accX.set 0 (segKey bank row col) (BitVec.ofNat 16 x) }
/-- Set ACC_SAT (R303). -/
def satFlag (b : Body) : Body := { b with numstat := b.numstat ||| BitVec.ofNat 64 fSAT }
/-- Write an element, saturating to 40 bits (R315). -/
def accSat (bank row col : Nat) (a : Int) (b : Body) : Body :=
  if a > 2 ^ 39 - 1 then satFlag (accPut bank row col (2 ^ 39 - 1) b)
  else if a < -(2 ^ 39) then satFlag (accPut bank row col (-(2 ^ 39)) b)
  else accPut bank row col a b

/-- The exponent word of a NaN segment. -/
def nanX : Nat := 0x8000

/-- The bank rows and columns of a command's region that one core holds (R426, R293): rows, first row, columns, first
column. -/
def box (c op : Nat) (q : List Word) : Nat × Nat × Nat × Nat :=
  if op = 1 ∧ mxJoint q then
    (Nat.min 128 (mxRows op q - 128 * (coreCic c / 2)), 0, Nat.min 128 (mxN q - 128 * (coreCic c % 2)), 0)
  else (mxRows op q, mxRow0 q, mxN q, mxCol0 q)

/-- Apply a change to every element place of a region, row by row. -/
def onRegion (f : Nat → Nat → Body → Body) (x : Nat × Nat × Nat × Nat) (b : Body) : Body :=
  (List.range x.1).foldl (fun b r => (List.range x.2.2.1).foldl (fun b k => f (x.2.1 + r) (x.2.2.2 + k) b) b) b

/-- Apply a change to every segment of a region. -/
def onSegments (f : Nat → Nat → Body → Body) (x : Nat × Nat × Nat × Nat) (b : Body) : Body :=
  (List.range x.1).foldl (fun b r => (List.range 4).foldl (fun b k =>
    if 32 * k < x.2.2.2 + x.2.2.1 ∧ x.2.2.2 < 32 * k + 32 ∧ 0 < x.2.2.1 then f (x.2.1 + r) (32 * k) b else b) b) b

/-- Clear a region: every element 0, every segment's exponent word XSET (R429). -/
def clearRegion (bank xset : Nat) (x : Nat × Nat × Nat × Nat) (b : Body) : Body :=
  onSegments (fun r k b => segPut bank r k xset b) x (onRegion (fun r k b => accPut bank r k 0 b) x b)

/-- Renormalise one segment by d binades (R316). -/
def normSeg (bank : Nat) (d : Int) (row col : Nat) (b : Body) : Body :=
  let x := segGet b bank row col
  if x = nanX ∨ d = 0 then b
  else
    let b := (List.range 32).foldl (fun b i => accSat bank row (col + i) (nearestI (accGet b bank row (col + i)) (-d)) b) b
    let y := signed 16 x + d
    if y > 0x7FFF then satFlag (segPut bank row col 0x7FFF b)
    else if y < -0x7FFF then satFlag (segPut bank row col 0x8001 b)
    else segPut bank row col (wrap 16 y) b

/-- The exact value of an element: A × 2^X, or NaN. -/
def accVal (b : Body) (bank row col : Nat) : FV :=
  let x := segGet b bank row col
  if x = nanX then .nan false
  else
    let a := accGet b bank row col
    .fin (decide (a < 0)) a.natAbs (signed 16 x)

/-! ### Operand fetch (R439, R294) -/

/-- One operand to read: zero without a read, `n` bytes at a pointer, or `n` bytes of a weight buffer. -/
inductive Req where
  | zero
  | mem (p : Word) (n : Nat)
  | wb (off n : Nat)
  deriving DecidableEq, Repr

/-- The place a rotated fetch reads (R294): the offset field of the pointer on the source core, whose buffers the join may
reach. -/
def rotLoc (s : State) (src : Nat) (p : Word) (n : Nat) : Except EngStop Loc :=
  let w := winOf p
  if w ≠ 1 ∧ w ≠ 2 then .error (.fail codeSpace)
  else if (if w = 1 then fieldW p 22 29 else fieldW p 24 36) ≠ 0 ∨ 0x380000 < fieldW p 0 22 + n then .error (.fail codeBounds)
  else
    let l := Loc.flat (spadKey src (fieldW p 0 22))
    if bankReady s l n then .ok l else .error (.stall (unready s l n))

/-- Read one operand. -/
def readReq (c : Nat) (who : Issuer) (rot : Option Nat) (wb : Nat) (s : State) (r : Req) : Except EngStop (State × Nat) :=
  match r with
  | .zero => .ok (s, 0)
  | .wb off n =>
    if 262144 < off + n then .error (.fail codeBounds)
    else .ok (s, leNat (s.mem.bytes (wbufKey (rot.getD c) wb off) n))
  | .mem p n => do
    let l ← match rot with
      | some src => rotLoc s src p n
      | none => engLoc s c who p n 1 winNear false
    let r := engRead 2 true s c who.pc l n
    .ok (r.1, leNat r.2)

/-- Read a list of operands in order. -/
def readReqs (c : Nat) (who : Issuer) (rot : Option Nat) (wb : Nat) : State → List Req → Except EngStop (State × List Nat)
  | s, [] => .ok (s, [])
  | s, r :: t =>
    match readReq c who rot wb s r with
    | .error e => .error e
    | .ok (s, x) =>
      match readReqs c who rot wb s t with
      | .error e => .error e
      | .ok (s, l) => .ok (s, x :: l)

/-- Read a list of rows of operands. -/
def readRows (c : Nat) (who : Issuer) (rot : Option Nat) (wb : Nat) : State → List (List Req) → Except EngStop (State × List (List Nat))
  | s, [] => .ok (s, [])
  | s, r :: t =>
    match readReqs c who rot wb s r with
    | .error e => .error e
    | .ok (s, x) =>
      match readRows c who rot wb s t with
      | .error e => .error e
      | .ok (s, l) => .ok (s, x :: l)

/-- The routine state a matrix command starts with (R438). -/
def microStart (m : MxCmd) (e : MicroEntry) : MicroState :=
  let mw : Tab Word := (List.range 8).foldl (fun t i => t.set 0 i (mpOf m.snap i)) .empty
  let mc := [(mxK m.snap + 31) / 32, mxG m.snap, 1, 1]
  { upc := e.start, mw := mw, mc := mc, mc0 := mc, g := 0, rc := 0, pa := [], pb := [], sa := [], sb := [], rot := false, sync := false, bad := 0 }

/-- rows(g) (R439, R442). -/
def rowsOf (q : List Word) (g : Nat) : Nat :=
  if mxG q ≤ g then 0
  else if mxEntry q = 3 then fieldW (mpOf q 6) (8 * g) 8
  else if mxEntry q = 2 ∨ 32 ≤ mxEntry q then mxM q / mxG q else mxM q

/-- The rows of the tile that the current group covers and this core holds, and the tile's columns it holds. -/
def panelRows (c : Nat) (q : List Word) (st : MicroState) : List Nat :=
  let l := (List.range (rowsOf q st.g)).map (fun i => st.rc + i)
  if mxJoint q then l.filter (fun i => i / 128 == coreCic c / 2) else l
def panelCols (c : Nat) (q : List Word) : List Nat :=
  let l := List.range (mxN q)
  if mxJoint q then l.filter (fun j => j / 128 == coreCic c % 2) else l

/-- The bank row and column of a tile row and column. -/
def bankRow (q : List Word) (i : Nat) : Nat := if mxJoint q then i % 128 else mxRow0 q + i
def bankCol (q : List Word) (j : Nat) : Nat := if mxJoint q then j % 128 else mxCol0 q + j

/-- The K-block index and the k values of the block (R438). -/
def blockIdx (q : List Word) (st : MicroState) : Nat := (mxK q + 31) / 32 - nthD st.mc 0 0
def blockKs (q : List Word) (st : MicroState) : List Nat :=
  ((List.range 32).map (fun i => 32 * blockIdx q st + i)).filter (fun k => decide (k < mxK q))

/-- The source core of a rotated fetch (R294). -/
def rotSrc (c : Nat) (q : List Word) (st : MicroState) : Option Nat :=
  if mxJoint q ∧ st.rot then some (clusterCore (coreCluster c) (blockIdx q st % 4)) else none

/-- Bytes of an element, at least one. -/
def etBytes (et : Fmt) : Nat := if et = .bf16 ∨ et = .f16 then 2 else if et = .f32 ∨ et = .i32 then 4 else 1
/-- The byte offset of element k of a row (R439, R305). -/
def kOff (et : Fmt) (k : Nat) : Nat := if et = .bq4 then k / 2 else k * etBytes et
/-- The element within the bytes read: a BQ4 element is a nibble. -/
def pickElem (et : Fmt) (k x : Nat) : Nat := if et = .bq4 then (if k % 2 = 0 then x % 16 else x / 16 % 16) else x

/-- Whether a type is block-scaled. -/
def isBlk (et : Fmt) : Bool := et == .bq8 || et == .bq4

/-- A pointer moved by a number of bytes. -/
def moved (p : Word) (n : Int) : Word := p + BitVec.ofInt 64 n

/-- The request for an A element under implicit GEMM (R442). -/
def convReq (q : List Word) (et : Fmt) (i k : Nat) : Req :=
  let cin := fieldW (mpOf q 6) 0 16
  let kw := fieldW (mpOf q 6) 24 8
  let stride := fieldW (mpOf q 6) 32 8
  let pad : Int := fieldW (mpOf q 6) 40 8
  let win := fieldW (mpOf q 6) 48 16
  let wout := fieldW (mpOf q 7) 32 16
  let hin := fieldW (mpOf q 7) 48 16
  let ox := fieldW (mpOf q 7) 0 16 + i % wout
  let oy := fieldW (mpOf q 7) 16 16 + i / wout
  let x : Int := (ox * stride + k / cin % kw : Nat) - pad
  let y : Int := (oy * stride + k / (cin * kw) : Nat) - pad
  if x < 0 ∨ (win : Int) ≤ x ∨ y < 0 ∨ (hin : Int) ≤ y then .zero
  else .mem (moved (mpOf q 0) ((y * win + x) * fieldW (mpOf q 4) 0 32 + (k % cin * etBytes et : Nat))) (etBytes et)

/-- MLOADA's requests for one row (R439). -/
def reqA (q : List Word) (et : Fmt) (base : Word) (tr ic : Bool) (i k : Nat) : Req :=
  let astr := fieldW (mpOf q 4) 0 32
  if ic then convReq q et i k
  else if tr && !isBlk et then .mem (moved base (k * astr + i * etBytes et : Nat)) (etBytes et)
  else .mem (moved base (i * astr + kOff et k : Nat)) (etBytes et)

/-- MLOADB's requests for one column (R439). -/
def reqB (q : List Word) (et : Fmt) (base : Word) (tr : Bool) (j k : Nat) : Req :=
  let bstr := fieldW (mpOf q 4) 32 32
  let off := if tr && !isBlk et then k * bstr + j * etBytes et else j * bstr + kOff et k
  if mxBsrc q then .wb (fieldW base 0 18 + off) (etBytes et) else .mem (moved base (off : Nat)) (etBytes et)

/-! ### MMAC (R315) -/

/-- The value of an operand element under its format and codes. -/
def operandVal (et : Fmt) (codes : Nat × Nat) (x : Nat) : FV :=
  match et with
  | .bq8 => blockVal true codes.1 codes.2 x
  | .bq4 => blockVal false codes.1 codes.2 x
  | .i8 => .fin (decide (signed 8 x < 0)) (signed 8 x).natAbs 0
  | _ => fdec (ffOf et) x

/-- The exact sum of products of a block, as an integer and a power of two; none where an operand is NaN or infinite. -/
def dotExact : List (FV × FV) → Option (Int × Int)
  | [] => some (0, 0)
  | (.fin an am ae, .fin bn bm be) :: t =>
    match dotExact t with
    | none => none
    | some (v, e) =>
      let p := exactAdd (an != bn) (am * bm) (ae + be) (decide (v < 0)) v.natAbs e
      some (if v = 0 ∧ am * bm = 0 then (0, 0) else if v = 0 then ((if an != bn then -((am * bm : Nat) : Int) else (am * bm : Nat)), ae + be) else if am * bm = 0 then (v, e) else p)
  | _ :: _ => none

/-- The sum of products of a BF16 block, each rounded to the grid; none where an operand is NaN or infinite. -/
def dotEach (x : Int) : List (FV × FV) → Option Int
  | [] => some 0
  | (.fin an am ae, .fin bn bm be) :: t =>
    match dotEach x t with
    | none => none
    | some d =>
      let p : Int := (am * bm : Nat)
      some (d + nearestI (if an != bn then -p else p) (ae + be - x))
  | _ :: _ => none

/-- One block added into one element (R315). -/
def macElem (et : Fmt) (bank row col : Nat) (ps : List (FV × FV)) (b : Body) : Body :=
  let x := segGet b bank row col
  if x = nanX then b
  else
    let d : Option Int :=
      if et = .bf16 then dotEach (signed 16 x) ps
      else match dotExact ps with
        | some (v, e) => some (nearestI v (e - signed 16 x))
        | none => none
    match d with
    | none => segPut bank row col nanX b
    | some d => accSat bank row col (accGet b bank row col + d) b

/-- Operand values of the panels' rows or columns. -/
def panelVals (et : Fmt) (panel : List (List Nat)) (codes : List (Nat × Nat)) (n : Nat) : List FV :=
  (nthD panel n []).map (operandVal et (nthD codes n (1, 1)))

/-- MMAC and MMACT (R439): `mask` is MMACT's causal limit for a row and column of the tile. -/
def macPanels (c : Nat) (m : MxCmd) (st : MicroState) (mask : Nat → Nat → Bool) (b : Body) : Body :=
  let q := m.snap
  let bank := mxBank q
  let rows := panelRows c q st
  let cols := panelCols c q
  let bv := (List.range cols.length).map (fun j => panelVals m.et st.pb st.sb j)
  (List.range rows.length).foldl (fun b i =>
    let av := panelVals m.et st.pa st.sa i
    let ri := nthD rows i 0
    (List.range cols.length).foldl (fun b j =>
      let cj := nthD cols j 0
      if mask ri cj then accPut bank (bankRow q ri) (bankCol q cj) (-(2 ^ 39)) b
      else macElem m.et bank (bankRow q ri) (bankCol q cj) (av.zip (nthD bv j [])) b) b) b

/-- MMACT's mask (R439): the columns beyond a row's own position. In a joint operation the tile's row and column numbers
carry the quadrant's 128 (R442). -/
def causal (q : List Word) (i j : Nat) : Bool := decide (fieldW (mpOf q 6) 0 32 + i < fieldW (mpOf q 6) 32 32 + j)

/-! ### Running a command -/

/-- The command at the head of a core's matrix engine. -/
def mxHead (s : State) (c : Nat) : Option MxCmd := (coreAt s c).b.mxQ.head?
/-- Change it. -/
def updHead (c : Nat) (f : MxCmd → MxCmd) (s : State) : State :=
  updBody s c (fun b => { b with mxQ := match b.mxQ with | m :: t => f m :: t | [] => [] })
/-- It ends: it leaves the queue, and its token ends. -/
def endMx (c : Nat) (st : TokStatus) (code : BitVec 8) (prog : Nat) (s : State) : State :=
  match mxHead s c with
  | none => s
  | some m => endTok c m.tok m.orphan m.who st code prog (updBody s c (fun b => { b with mxQ := b.mxQ.drop 1 }))

/-- A command, with the commands of the other cores in a joint operation, ends FAULT (R293). -/
def failMx (c : Nat) (joint : Bool) (code : BitVec 8) (prog : Nat) (s : State) : State :=
  (jointCores c joint).foldl (fun s q => endMx q .fault code prog s) s

/-- Whether a command takes part in a joint step with the commands at the head of its cluster's other engines. -/
def jointReady (s : State) (c op : Nat) : Bool :=
  (clusterCores c).all (fun q => match mxHead s q with | some m => m.op == op && m.ins == [] && (op != 1 || mxJoint m.snap) | none => false)

/-- The state of the routine the core's matrix engine runs. -/
def microOf (s : State) (c : Nat) : Option (MxCmd × MicroState) :=
  match mxHead s c with
  | some m => m.micro.map (fun st => (m, st))
  | none => none

/-- Change the routine's state. -/
def setMicro (c : Nat) (st : MicroState) (s : State) : State := updHead c (fun m => { m with micro := some st }) s

/-- The end of an operand fetch: the panel is taken, a fault ends the command, and a waking bank is waited for. -/
def fetched {α : Type} (c : Nat) (m : MxCmd) (s : State) (r : Except EngStop (State × α)) (f : α → MicroState) : State :=
  match r with
  | .ok (s', x) => setMicro c (f x) s'
  | .error (.fail code) => failMx c (mxJoint m.snap) code 0 s
  | .error (.stall w) => wake w s

/-- The next micro-word. -/
def nextU (st : MicroState) : MicroState := { st with upc := st.upc + 1 }
/-- A jump by a signed displacement from the jumping word. -/
def jumpU (st : MicroState) (x : BitVec 16) : MicroState := { st with upc := ((st.upc : Int) + x.toInt).toNat }

/-- MLOADA (R439). -/
def runMloada (ra : BitVec 3) (tr ic : BitVec 1) (c : Nat) (s : State) : State :=
  match microOf s c with
  | none => s
  | some (m, st) =>
    let q := m.snap
    let ks := blockKs q st
    let reqs := (panelRows c q st).map (fun i => ks.map (fun k => reqA q m.et (st.mw.get 0 ra.toNat) (tr == 1) (ic == 1) i k))
    fetched c m s (readRows c m.who (rotSrc c q st) 0 s reqs) (fun p =>
      nextU { st with pa := p.map (fun row => (row.zip ks).map (fun x => pickElem m.et x.2 x.1)) })

/-- MLOADB (R439). -/
def runMloadb (ra : BitVec 3) (tr : BitVec 1) (c : Nat) (s : State) : State :=
  match microOf s c with
  | none => s
  | some (m, st) =>
    let q := m.snap
    let ks := blockKs q st
    let reqs := (panelCols c q).map (fun j => ks.map (fun k => reqB q m.et (st.mw.get 0 ra.toNat) (tr == 1) j k))
    fetched c m s (readRows c m.who (rotSrc c q st) (mxWb q) s reqs) (fun p =>
      nextU { st with pb := p.map (fun row => (row.zip ks).map (fun x => pickElem m.et x.2 x.1)) })

/-- MSCALE (R439). -/
def runMscale (ra rb : BitVec 3) (c : Nat) (s : State) : State :=
  match microOf s c with
  | none => s
  | some (m, st) =>
    if !isBlk m.et then setMicro c (nextU st) s
    else
      let q := m.snap
      let two := 2 * blockIdx q st
      let ra_ := (panelRows c q st).map (fun i => Req.mem (moved (st.mw.get 0 ra.toNat) (i * fieldW (mpOf q 5) 0 32 + two : Nat)) 2)
      let offB := fun j => j * fieldW (mpOf q 5) 32 32 + two
      let rb_ := (panelCols c q).map (fun j =>
        if mxBsrc q then Req.wb (fieldW (st.mw.get 0 rb.toNat) 0 18 + offB j) 2 else Req.mem (moved (st.mw.get 0 rb.toNat) (offB j : Nat)) 2)
      fetched c m s (readRows c m.who (rotSrc c q st) (mxWb q) s [ra_, rb_]) (fun p =>
        let pair := fun (x : Nat) => (x % 256, x / 256)
        nextU { st with sa := (nthD p 0 []).map pair, sb := (nthD p 1 []).map pair })

/-- MMAC and MMACT (R439): the loads that follow are no longer rotated. -/
def runMac (causalMask : Bool) (c : Nat) (s : State) : State :=
  match microOf s c with
  | none => s
  | some (m, st) =>
    setMicro c (nextU { st with rot := false }) (updBody s c (macPanels c m st (fun i j => causalMask && causal m.snap i j)))

/-- MBCAST (R439). -/
def runMbcast (c : Nat) (s : State) : State :=
  match microOf s c with
  | none => s
  | some (m, st) => setMicro c (nextU { st with rot := mxJoint m.snap }) s

/-- MSKIP (R439). -/
def runMskip (x : BitVec 16) (c : Nat) (s : State) : State :=
  match microOf s c with
  | none => s
  | some (m, st) => setMicro c (if rowsOf m.snap st.g = 0 then jumpU st x else nextU st) s

/-- MNEXT (R439). -/
def runMnext (ra rb : BitVec 3) (c : Nat) (s : State) : State :=
  match microOf s c with
  | none => s
  | some (m, st) =>
    let mw := st.mw.upd 0 ra.toNat (fun w => w + BitVec.ofNat 64 (fieldW (st.mw.get 0 rb.toNat) 0 32))
    setMicro c (nextU { st with rc := st.rc + rowsOf m.snap st.g, g := st.g + 1, mw := mw }) s

/-- MLOOP (R439). -/
def runMloop (ct : BitVec 2) (x : BitVec 16) (c : Nat) (s : State) : State :=
  match microOf s c with
  | none => s
  | some (_, st) =>
    let n := nthD st.mc ct.toNat 0
    setMicro c (if 2 ≤ n then jumpU { st with mc := setAt st.mc ct.toNat (n - 1) } x
      else nextU { st with mc := setAt st.mc ct.toNat (nthD st.mc0 ct.toNat 0) }) s

/-- MNORM (R439, R316). -/
def runMnorm (x : BitVec 8) (c : Nat) (s : State) : State :=
  match microOf s c with
  | none => s
  | some (m, st) =>
    setMicro c (nextU st) (updBody s c (onSegments (fun r k b => normSeg (mxBank m.snap) x.toInt r k b) (box c m.op m.snap)))

/-- MEND (R427). -/
def runMend (c : Nat) (s : State) : State :=
  match microOf s c with
  | none => s
  | some _ => endMx c .done 0 0 s

/-- MSYNC (R439): in a joint operation, until all four engines reach the same MSYNC. -/
def runMsync (c : Nat) (s : State) : State :=
  match microOf s c with
  | none => s
  | some (m, st) =>
    if !mxJoint m.snap then setMicro c (nextU st) s
    else
      let s := setMicro c { st with sync := true } s
      if (clusterCores c).all (fun q => match microOf s q with | some (_, t) => t.sync && t.upc == st.upc | none => false) then
        (clusterCores c).foldl (fun s q => match microOf s q with | some (_, t) => setMicro q (nextU { t with sync := false }) s | none => s) s
      else s

/-- The micro-word the core's engine runs next, as an instruction. -/
def microNow (s : State) (c : Nat) : Option Instr :=
  match microOf s c with
  | none => none
  | some (_, st) => match decodeMicro (microWord (coreAt s c).b st.upc) with | .ok i => some i | .error _ => none

/-! ### The other commands (R429-R435) -/

/-- Write bytes at a pointer from an engine. -/
def engWrite (s : State) (c : Nat) (who : Issuer) (p : Word) (bytes : List Byte) (win : Windows) : Except EngStop State := do
  let l ← engLoc s c who p bytes.length 1 win true
  .ok (writeLoc s l bytes)

/-- The writes of one row; those before one that cannot be made stay (R212). -/
def rowWrites (c : Nat) (who : Issuer) (win : Windows) : State → List (Word × List Byte) → State × Option EngStop
  | s, [] => (s, none)
  | s, x :: t =>
    match engWrite s c who x.1 x.2 win with
    | .ok s => rowWrites c who win s t
    | .error e => (s, some e)

/-- Write a list of byte runs in order; the count of those written comes back with what stopped the rest. -/
def engWrites (c : Nat) (who : Issuer) (win : Windows) : State → Nat → List (List (Word × List Byte)) → State × Nat × Option EngStop
  | s, n, [] => (s, n, none)
  | s, n, row :: t =>
    match rowWrites c who win s row with
    | (s, none) => engWrites c who win s (n + 1) t
    | (s, some e) => (s, n, some e)

/-- The end of a command whose rows have been written. -/
def afterRows (c : Nat) (r : State × Nat × Option EngStop) (f : State → State) : State :=
  match r with
  | (s, _, none) => endMx c .done 0 0 (f s)
  | (s, n, some (.fail code)) => endMx c .fault code n s
  | (s, _, some (.stall w)) => wake w s

/-- MXRDA (R431). -/
def runMxrda (c : Nat) (m : MxCmd) (s : State) : State :=
  let q := m.snap
  let b := (coreAt s c).b
  let w := etBytes m.et
  let conv := fun (v : FV) => if m.et = .i32 then (ftoInt true 32 (mxRm q) v).bits else (fto (ffOf m.et) (mxRm q) v).bits
  let rows := (List.range (mxM q)).map (fun r => (List.range (mxN q)).map (fun k =>
    (moved (mpOf q 0) (r * fieldW (mpOf q 4) 0 32 + k * w : Nat), leBytes (conv (accVal b (mxBank q) (mxRow0 q + r) (mxCol0 q + k))) w)))
  let rel := fun (r : Regs) =>
    let whole := fun (j : Nat) => decide (j / 512 = mxBank q) && decide (mxCol0 q ≤ j / 4 % 128) && decide (j / 4 % 128 < mxCol0 q + mxN q) &&
      decide (mxRow0 q ≤ 32 * (j % 4)) && decide (32 * (j % 4) + 32 ≤ mxRow0 q + mxM q)
    { r with spill := BitVec.ofNat 1024 (packElems 1 ((List.range 1024).map (fun j => if r.spill.getLsbD j && !whole j then 1 else 0))) }
  afterRows c (engWrites c m.who winNear s 0 rows) (fun s => if mxRel q then updRegs s c rel else s)

/-- The rows read before the first one that cannot be, and what stopped that one. -/
def rowsUntil (c : Nat) (who : Issuer) : State → List (List Req) → State × List (List Nat) × Option EngStop
  | s, [] => (s, [], none)
  | s, r :: t =>
    match readReqs c who none 0 s r with
    | .error e => (s, [], some e)
    | .ok (s, x) =>
      match rowsUntil c who s t with
      | (s, l, e) => (s, x :: l, e)

/-- MXWRA (R432): row by row; the rows before one that fails stay written and are its PROGRESS (R422). -/
def runMxwra (c : Nat) (m : MxCmd) (s : State) : State :=
  let q := m.snap
  let w := etBytes m.et
  let reqs := (List.range (mxM q)).map (fun r => (List.range (mxN q)).map (fun k =>
    Req.mem (moved (mpOf q 0) (r * fieldW (mpOf q 4) 0 32 + k * w : Nat)) w))
  match rowsUntil c m.who s reqs with
  | (s, _, some (.stall x)) => wake x s
  | (s, rows, stop) =>
    let val := fun (x : Nat) => if m.et = .i32 then FV.fin (decide (signed 32 x < 0)) (signed 32 x).natAbs 0 else fdec (ffOf m.et) x
    let bank := mxBank q
    let reg := (rows.length, (box c m.op q).2)
    let b := onSegments (fun r k b => segPut bank r k (mxXset q) b) reg (coreAt s c).b
    let b := onRegion (fun r k b =>
      match val (nthD (nthD rows (r - mxRow0 q) []) (k - mxCol0 q) 0) with
      | .fin n a e => accSat bank r k (nearestI (if n then -(a : Int) else a) (e - signed 16 (mxXset q))) b
      | _ => segPut bank r k nanX b) reg b
    let s := updBody s c (fun _ => b)
    match stop with
    | some (.fail code) => endMx c .fault code rows.length s
    | _ => endMx c .done 0 0 s

/-- MXWB (R433). -/
def runMxwb (c : Nat) (m : MxCmd) (s : State) : State :=
  let q := m.snap
  let b := (coreAt s c).b
  let bq8 := m.et == .bq8
  let size := if bq8 then 32 else 16
  let block := fun (r k : Nat) =>
    let vs := (List.range 32).map (fun i => accVal b (mxBank q) (mxRow0 q + r) (mxCol0 q + 32 * k + i))
    let amax := (List.range 32).foldl (fun a i => Nat.max a (accGet b (mxBank q) (mxRow0 q + r) (mxCol0 q + 32 * k + i)).natAbs) 0
    let x := segGet b (mxBank q) (mxRow0 q + r) (mxCol0 q + 32 * k)
    let sc := if x = nanX then (255, 255, false) else scaleVal bq8 (.fin false amax (signed 16 x))
    (packElems (if bq8 then 8 else 4) (vs.map (fun v => (packVal bq8 sc.1 sc.2.1 v).1)), sc.1 + 256 * sc.2.1)
  let rows := (List.range (mxM q)).map (fun r => (List.range (mxN q / 32)).flatMap (fun k =>
    let x := block r k
    [(moved (mpOf q 0) (r * fieldW (mpOf q 4) 0 32 + k * size : Nat), leBytes x.1 size),
     (moved (mpOf q 2) (r * fieldW (mpOf q 5) 0 32 + 2 * k : Nat), leBytes x.2 2)]))
  afterRows c (engWrites c m.who winNear s 0 rows) (fun s => s)

/-- The micro-words read before the first that cannot be, and what stopped that one. -/
def wordsUntil (c : Nat) (m : MxCmd) : State → List Nat → State × List Nat × Option EngStop
  | s, [] => (s, [], none)
  | s, i :: t =>
    match engLoc s c m.who (moved (mpOf m.snap 0) (8 * i : Nat)) 8 8 winLocal false with
    | .error e => (s, [], some e)
    | .ok l =>
      let r := engRead 2 true s c m.pc l 8
      match wordsUntil c m r.1 t with
      | (s, ws, e) => (s, leNat r.2 :: ws, e)

/-- MXUCW (R435): words are written while they can be read and are well-formed; an entry whose range is written loses VALID. -/
def runMxucw (c : Nat) (m : MxCmd) (s : State) : State :=
  let q := m.snap
  let n := mxUcount q
  let u := mxUword q
  match wordsUntil c m s (List.range n) with
  | (s, _, some (.stall w)) => wake w s
  | (s, ws, stop) =>
    let good := (ws.takeWhile microOk).length
    let put := fun (b : Body) =>
      let micro := (List.range good).foldl (fun t i => t.set 0 (u + i) (BitVec.ofNat 64 (nthD ws i 0))) b.micro
      let hit := fun (e : MicroEntry) => e.valid && decide (u < e.start + e.len) && decide (e.start < u + good) && decide (0 < good)
      let entries : Tab MicroEntry := (List.range 64).foldl (fun t i => if hit (t.get .zero i) then t.upd .zero i (fun e => { e with valid := false }) else t) b.entries
      { b with micro := micro, entries := entries }
    let s := updBody s c put
    if good < ws.length then endMx c .fault codeIllegal good s
    else match stop with
      | some (.fail code) => endMx c .fault code good s
      | _ =>
        if !mxWent q then endMx c .done 0 0 s
        else if routineOk ws then
          endMx c .done 0 0 (updBody s c (fun b => { b with entries := b.entries.set .zero (mxEntry q) { start := u, len := n, valid := true } }))
        else endMx c .fault codeIllegal n s

/-- Routine 9 (R441): the tile at APTR is added to the region, each element rounded once to the grid; the rows before one that fails stay
added and are its PROGRESS (R422). -/
def runUpdate (c : Nat) (m : MxCmd) (s : State) : State :=
  let q := m.snap
  let w := etBytes m.et
  let reqs := (List.range (mxM q)).map (fun r => (List.range (mxN q)).map (fun k =>
    Req.mem (moved (mpOf q 0) (r * fieldW (mpOf q 4) 0 32 + k * w : Nat)) w))
  match rowsUntil c m.who s reqs with
  | (s, _, some (.stall x)) => wake x s
  | (s, rows, stop) =>
    let bank := mxBank q
    let one : FV := .fin false 1 0
    let b := onRegion (fun r k b =>
      macElem .bf16 bank r k [(fdec (ffOf m.et) (nthD (nthD rows (r - mxRow0 q) []) (k - mxCol0 q) 0), one)] b) (rows.length, (box c m.op q).2) (coreAt s c).b
    let s := updBody s c (fun _ => b)
    match stop with
    | some (.fail code) => endMx c .fault code rows.length s
    | _ => endMx c .done 0 0 s

/-- The command at the head of the engine begins (R421, R428, R435, R293), once its consumed tokens have ended. -/
def startMx (c : Nat) (m : MxCmd) (s : State) : State :=
  let q := m.snap
  let b := (coreAt s c).b
  if m.op = 1 then
    if !(entryOf b (mxEntry q)).valid then endMx c .fault codeIllegal 0 s
    else if mxRows 1 q = 0 ∨ mxN q = 0 then endMx c .done 0 0 s
    else
      let s := if mxClr q then updBody s c (clearRegion (mxBank q) (mxXset q) (box c 1 q)) else s
      if mxEntry q = 9 then updHead c (fun m => { m with started := true }) s
      else if mxK q = 0 then endMx c .done 0 0 s
      else updHead c (fun m => { m with started := true, micro := some (microStart m (entryOf b (mxEntry q))) }) s
  else updHead c (fun m => { m with started := true }) s

/-- ENGINE_COMMAND_START for the matrix engine: a joint operation begins on all four cores at once. -/
def beginMx (c tok : Nat) (s : State) : State :=
  match mxHead s c with
  | none => s
  | some m =>
    let joint := m.op == 1 && mxJoint m.snap
    if m.tok ≠ tok ∨ m.started ∨ m.ins ≠ [] then s
    else if (jointCores c joint).any (fun q => match mxHead s q with | some m => m.after.any (notDone s) | none => false) then s
    else if joint && !jointReady s c 1 then s
    else
      match ((jointCores c joint).filterMap (fun q => (mxHead s q).bind (fun m => m.fault))).head? with
      | some code => failMx c joint code 0 s
      | none => (jointCores c joint).foldl (fun s q => match mxHead s q with | some m => startMx q m s | none => s) s

/-- MATRIX_COMMAND_END: a command that runs no routine performs and ends. MXJOIN waits for the four engines to have
finished every earlier command (R434). -/
def finishMx (c : Nat) (s : State) : State :=
  match mxHead s c with
  | none => s
  | some m =>
    if !m.started ∨ m.micro.isSome then s
    else
      let reg := box c m.op m.snap
      let bank := mxBank m.snap
      match m.op with
      | 1 => runUpdate c m s
      | 2 => if jointReady s c 2 then (clusterCores c).foldl (fun s q => endMx q .done 0 0 s) s else s
      | 3 => endMx c .done 0 0 s
      | 4 => endMx c .done 0 0 (updBody s c (onSegments (fun r k b => normSeg bank (mxD m.snap) r k b) reg))
      | 5 => endMx c .done 0 0 (updBody s c (clearRegion bank (mxXset m.snap) reg))
      | 6 => runMxrda c m s
      | 7 => runMxwra c m s
      | 8 => runMxwb c m s
      | _ => runMxucw c m s

end Sys2Proof.Machine
end

