-- ==== Sys2Proof/Machine/MatrixSlot.lean ====
section
/-!
DEFINITION. Sys2Proof/Machine/MatrixSlot.lean: the MX instructions (R420-R435): for each its operation in a
bundle, and its meaning as a bundle of one slot.
-/

namespace Sys2Proof.Machine

/-- MXCALL in a bundle (R427). -/
def opMxcall (o : BitVec 6) (x : BitVec 6) (y : BitVec 6) (e : Fmt) (s : BitVec 1) : Eff := behindTable (effMx 1 e o x y s)
/-- MXCALL alone in its bundle. -/
def execMxcall (o : BitVec 6) (x : BitVec 6) (y : BitVec 6) (e : Fmt) (s : BitVec 1) (st : State) : Host.Outcome State Fault Refusal := runSlot 6 (opMxcall o x y e s) st

/-- MXJOIN in a bundle (R434). -/
def opMxjoin (o : BitVec 6) (x : BitVec 6) (y : BitVec 6) (s : BitVec 1) : Eff := behindTable (effMx 2 .i8 o x y s)
/-- MXJOIN alone in its bundle. -/
def execMxjoin (o : BitVec 6) (x : BitVec 6) (y : BitVec 6) (s : BitVec 1) (st : State) : Host.Outcome State Fault Refusal := runSlot 6 (opMxjoin o x y s) st

/-- MXPART in a bundle (R434). -/
def opMxpart (o : BitVec 6) (x : BitVec 6) (y : BitVec 6) (s : BitVec 1) : Eff := behindTable (effMx 3 .i8 o x y s)
/-- MXPART alone in its bundle. -/
def execMxpart (o : BitVec 6) (x : BitVec 6) (y : BitVec 6) (s : BitVec 1) (st : State) : Host.Outcome State Fault Refusal := runSlot 6 (opMxpart o x y s) st

/-- MXNORM in a bundle (R430). -/
def opMxnorm (o : BitVec 6) (x : BitVec 6) (y : BitVec 6) (s : BitVec 1) : Eff := behindTable (effMx 4 .i8 o x y s)
/-- MXNORM alone in its bundle. -/
def execMxnorm (o : BitVec 6) (x : BitVec 6) (y : BitVec 6) (s : BitVec 1) (st : State) : Host.Outcome State Fault Refusal := runSlot 6 (opMxnorm o x y s) st

/-- MXZERO in a bundle (R429). -/
def opMxzero (o : BitVec 6) (x : BitVec 6) (y : BitVec 6) (s : BitVec 1) : Eff := behindTable (effMx 5 .i8 o x y s)
/-- MXZERO alone in its bundle. -/
def execMxzero (o : BitVec 6) (x : BitVec 6) (y : BitVec 6) (s : BitVec 1) (st : State) : Host.Outcome State Fault Refusal := runSlot 6 (opMxzero o x y s) st

/-- MXRDA in a bundle (R431). -/
def opMxrda (o : BitVec 6) (x : BitVec 6) (y : BitVec 6) (e : Fmt) (s : BitVec 1) : Eff := behindTable (effMx 6 e o x y s)
/-- MXRDA alone in its bundle. -/
def execMxrda (o : BitVec 6) (x : BitVec 6) (y : BitVec 6) (e : Fmt) (s : BitVec 1) (st : State) : Host.Outcome State Fault Refusal := runSlot 6 (opMxrda o x y e s) st

/-- MXWRA in a bundle (R432). -/
def opMxwra (o : BitVec 6) (x : BitVec 6) (y : BitVec 6) (e : Fmt) (s : BitVec 1) : Eff := behindTable (effMx 7 e o x y s)
/-- MXWRA alone in its bundle. -/
def execMxwra (o : BitVec 6) (x : BitVec 6) (y : BitVec 6) (e : Fmt) (s : BitVec 1) (st : State) : Host.Outcome State Fault Refusal := runSlot 6 (opMxwra o x y e s) st

/-- MXWB in a bundle (R433). -/
def opMxwb (o : BitVec 6) (x : BitVec 6) (y : BitVec 6) (e : Fmt) (s : BitVec 1) : Eff := behindTable (effMx 8 e o x y s)
/-- MXWB alone in its bundle. -/
def execMxwb (o : BitVec 6) (x : BitVec 6) (y : BitVec 6) (e : Fmt) (s : BitVec 1) (st : State) : Host.Outcome State Fault Refusal := runSlot 6 (opMxwb o x y e s) st

/-- MXUCW in a bundle (R435). -/
def opMxucw (o : BitVec 6) (x : BitVec 6) (y : BitVec 6) (s : BitVec 1) : Eff := behindTable (effMx 9 .i8 o x y s)
/-- MXUCW alone in its bundle. -/
def execMxucw (o : BitVec 6) (x : BitVec 6) (y : BitVec 6) (s : BitVec 1) (st : State) : Host.Outcome State Fault Refusal := runSlot 6 (opMxucw o x y s) st

/-- MX_HINT in a bundle (R336). -/
def opMxHint (_h : BitVec 2) (_x : BitVec 26) : Eff := effHint
/-- MX_HINT alone in its bundle. -/
def execMxHint (h : BitVec 2) (x : BitVec 26) (st : State) : Host.Outcome State Fault Refusal := runSlot 6 (opMxHint h x) st

end Sys2Proof.Machine
end

