-- ==== Sys2Proof/Machine/ScalarSlot.lean ====
section
/-!
DEFINITION. Sys2Proof/Machine/ScalarSlot.lean: the S0 and S1 instructions (R364-R373): for each its operation in a
bundle, and its meaning as a bundle of one slot.
-/

namespace Sys2Proof.Machine

/-- ADD in a bundle (R365). -/
def opAdd (d : BitVec 6) (a : BitVec 6) (b : BitVec 6) : Eff := effBin fnAdd 1 d a b
/-- ADD alone in its bundle. -/
def execAdd (d : BitVec 6) (a : BitVec 6) (b : BitVec 6) (st : State) : Host.Outcome State Fault Refusal := runSlot 1 (opAdd d a b) st

/-- SUB in a bundle (R365). -/
def opSub (d : BitVec 6) (a : BitVec 6) (b : BitVec 6) : Eff := effBin fnSub 1 d a b
/-- SUB alone in its bundle. -/
def execSub (d : BitVec 6) (a : BitVec 6) (b : BitVec 6) (st : State) : Host.Outcome State Fault Refusal := runSlot 1 (opSub d a b) st

/-- AND in a bundle (R365). -/
def opAnd (d : BitVec 6) (a : BitVec 6) (b : BitVec 6) : Eff := effBin fnAnd 1 d a b
/-- AND alone in its bundle. -/
def execAnd (d : BitVec 6) (a : BitVec 6) (b : BitVec 6) (st : State) : Host.Outcome State Fault Refusal := runSlot 1 (opAnd d a b) st

/-- OR in a bundle (R365). -/
def opOr (d : BitVec 6) (a : BitVec 6) (b : BitVec 6) : Eff := effBin fnOr 1 d a b
/-- OR alone in its bundle. -/
def execOr (d : BitVec 6) (a : BitVec 6) (b : BitVec 6) (st : State) : Host.Outcome State Fault Refusal := runSlot 1 (opOr d a b) st

/-- XOR in a bundle (R365). -/
def opXor (d : BitVec 6) (a : BitVec 6) (b : BitVec 6) : Eff := effBin fnXor 1 d a b
/-- XOR alone in its bundle. -/
def execXor (d : BitVec 6) (a : BitVec 6) (b : BitVec 6) (st : State) : Host.Outcome State Fault Refusal := runSlot 1 (opXor d a b) st

/-- SHL in a bundle (R365). -/
def opShl (d : BitVec 6) (a : BitVec 6) (b : BitVec 6) : Eff := effBin fnShl 1 d a b
/-- SHL alone in its bundle. -/
def execShl (d : BitVec 6) (a : BitVec 6) (b : BitVec 6) (st : State) : Host.Outcome State Fault Refusal := runSlot 1 (opShl d a b) st

/-- SHR in a bundle (R365). -/
def opShr (d : BitVec 6) (a : BitVec 6) (b : BitVec 6) : Eff := effBin fnShr 1 d a b
/-- SHR alone in its bundle. -/
def execShr (d : BitVec 6) (a : BitVec 6) (b : BitVec 6) (st : State) : Host.Outcome State Fault Refusal := runSlot 1 (opShr d a b) st

/-- SAR in a bundle (R365). -/
def opSar (d : BitVec 6) (a : BitVec 6) (b : BitVec 6) : Eff := effBin fnSar 1 d a b
/-- SAR alone in its bundle. -/
def execSar (d : BitVec 6) (a : BitVec 6) (b : BitVec 6) (st : State) : Host.Outcome State Fault Refusal := runSlot 1 (opSar d a b) st

/-- SLT in a bundle (R365). -/
def opSlt (d : BitVec 6) (a : BitVec 6) (b : BitVec 6) : Eff := effBin fnSlt 1 d a b
/-- SLT alone in its bundle. -/
def execSlt (d : BitVec 6) (a : BitVec 6) (b : BitVec 6) (st : State) : Host.Outcome State Fault Refusal := runSlot 1 (opSlt d a b) st

/-- SLTU in a bundle (R365). -/
def opSltu (d : BitVec 6) (a : BitVec 6) (b : BitVec 6) : Eff := effBin fnSltu 1 d a b
/-- SLTU alone in its bundle. -/
def execSltu (d : BitVec 6) (a : BitVec 6) (b : BitVec 6) (st : State) : Host.Outcome State Fault Refusal := runSlot 1 (opSltu d a b) st

/-- SEQ in a bundle (R365). -/
def opSeq (d : BitVec 6) (a : BitVec 6) (b : BitVec 6) : Eff := effBin fnSeq 1 d a b
/-- SEQ alone in its bundle. -/
def execSeq (d : BitVec 6) (a : BitVec 6) (b : BitVec 6) (st : State) : Host.Outcome State Fault Refusal := runSlot 1 (opSeq d a b) st

/-- MIN in a bundle (R365). -/
def opMin (d : BitVec 6) (a : BitVec 6) (b : BitVec 6) : Eff := effBin fnMin 1 d a b
/-- MIN alone in its bundle. -/
def execMin (d : BitVec 6) (a : BitVec 6) (b : BitVec 6) (st : State) : Host.Outcome State Fault Refusal := runSlot 1 (opMin d a b) st

/-- MAX in a bundle (R365). -/
def opMax (d : BitVec 6) (a : BitVec 6) (b : BitVec 6) : Eff := effBin fnMax 1 d a b
/-- MAX alone in its bundle. -/
def execMax (d : BitVec 6) (a : BitVec 6) (b : BitVec 6) (st : State) : Host.Outcome State Fault Refusal := runSlot 1 (opMax d a b) st

/-- MINU in a bundle (R365). -/
def opMinu (d : BitVec 6) (a : BitVec 6) (b : BitVec 6) : Eff := effBin fnMinu 1 d a b
/-- MINU alone in its bundle. -/
def execMinu (d : BitVec 6) (a : BitVec 6) (b : BitVec 6) (st : State) : Host.Outcome State Fault Refusal := runSlot 1 (opMinu d a b) st

/-- MAXU in a bundle (R365). -/
def opMaxu (d : BitVec 6) (a : BitVec 6) (b : BitVec 6) : Eff := effBin fnMaxu 1 d a b
/-- MAXU alone in its bundle. -/
def execMaxu (d : BitVec 6) (a : BitVec 6) (b : BitVec 6) (st : State) : Host.Outcome State Fault Refusal := runSlot 1 (opMaxu d a b) st

/-- MUL in a bundle (R367). -/
def opMul (d : BitVec 6) (a : BitVec 6) (b : BitVec 6) : Eff := effBin fnMul 3 d a b
/-- MUL alone in its bundle. -/
def execMul (d : BitVec 6) (a : BitVec 6) (b : BitVec 6) (st : State) : Host.Outcome State Fault Refusal := runSlot 1 (opMul d a b) st

/-- MULH in a bundle (R367). -/
def opMulh (d : BitVec 6) (a : BitVec 6) (b : BitVec 6) : Eff := effBin fnMulh 3 d a b
/-- MULH alone in its bundle. -/
def execMulh (d : BitVec 6) (a : BitVec 6) (b : BitVec 6) (st : State) : Host.Outcome State Fault Refusal := runSlot 1 (opMulh d a b) st

/-- MULHU in a bundle (R367). -/
def opMulhu (d : BitVec 6) (a : BitVec 6) (b : BitVec 6) : Eff := effBin fnMulhu 3 d a b
/-- MULHU alone in its bundle. -/
def execMulhu (d : BitVec 6) (a : BitVec 6) (b : BitVec 6) (st : State) : Host.Outcome State Fault Refusal := runSlot 1 (opMulhu d a b) st

/-- CLMUL in a bundle (R367). -/
def opClmul (d : BitVec 6) (a : BitVec 6) (b : BitVec 6) : Eff := effBin fnClmul 3 d a b
/-- CLMUL alone in its bundle. -/
def execClmul (d : BitVec 6) (a : BitVec 6) (b : BitVec 6) (st : State) : Host.Outcome State Fault Refusal := runSlot 1 (opClmul d a b) st

/-- CLMULH in a bundle (R367). -/
def opClmulh (d : BitVec 6) (a : BitVec 6) (b : BitVec 6) : Eff := effBin fnClmulh 3 d a b
/-- CLMULH alone in its bundle. -/
def execClmulh (d : BitVec 6) (a : BitVec 6) (b : BitVec 6) (st : State) : Host.Outcome State Fault Refusal := runSlot 1 (opClmulh d a b) st

/-- SEL in a bundle (R368). -/
def opSel (d : BitVec 6) (a : BitVec 6) (b : BitVec 6) (c : BitVec 6) : Eff := effSel d a b c
/-- SEL alone in its bundle. -/
def execSel (d : BitVec 6) (a : BitVec 6) (b : BitVec 6) (c : BitVec 6) (st : State) : Host.Outcome State Fault Refusal := runSlot 1 (opSel d a b c) st

/-- MOVI in a bundle (R368). -/
def opMovi (d : BitVec 6) (i : BitVec 20) : Eff := effMovi d i
/-- MOVI alone in its bundle. -/
def execMovi (d : BitVec 6) (i : BitVec 20) (st : State) : Host.Outcome State Fault Refusal := runSlot 1 (opMovi d i) st

/-- MOVHI in a bundle (R368). -/
def opMovhi (d : BitVec 6) (p : BitVec 2) (i : BitVec 16) : Eff := effMovhi d p i
/-- MOVHI alone in its bundle. -/
def execMovhi (d : BitVec 6) (p : BitVec 2) (i : BitVec 16) (st : State) : Host.Outcome State Fault Refusal := runSlot 1 (opMovhi d p i) st

/-- CLZ in a bundle (R368). -/
def opClz (d : BitVec 6) (a : BitVec 6) : Eff := effUn fnClz d a
/-- CLZ alone in its bundle. -/
def execClz (d : BitVec 6) (a : BitVec 6) (st : State) : Host.Outcome State Fault Refusal := runSlot 1 (opClz d a) st

/-- CTZ in a bundle (R368). -/
def opCtz (d : BitVec 6) (a : BitVec 6) : Eff := effUn fnCtz d a
/-- CTZ alone in its bundle. -/
def execCtz (d : BitVec 6) (a : BitVec 6) (st : State) : Host.Outcome State Fault Refusal := runSlot 1 (opCtz d a) st

/-- POPC in a bundle (R368). -/
def opPopc (d : BitVec 6) (a : BitVec 6) : Eff := effUn fnPopc d a
/-- POPC alone in its bundle. -/
def execPopc (d : BitVec 6) (a : BitVec 6) (st : State) : Host.Outcome State Fault Refusal := runSlot 1 (opPopc d a) st

/-- SPTEST in a bundle (R369). -/
def opSptest (d : BitVec 6) (a : BitVec 6) : Eff := effSptest d a
/-- SPTEST alone in its bundle. -/
def execSptest (d : BitVec 6) (a : BitVec 6) (st : State) : Host.Outcome State Fault Refusal := runSlot 1 (opSptest d a) st

/-- SPCAST_SP in a bundle (R370). -/
def opSpcastSp (d : BitVec 6) (a : BitVec 6) : Eff := effSpcast false d a
/-- SPCAST_SP alone in its bundle. -/
def execSpcastSp (d : BitVec 6) (a : BitVec 6) (st : State) : Host.Outcome State Fault Refusal := runSlot 1 (opSpcastSp d a) st

/-- SPCAST_CL in a bundle (R370). -/
def opSpcastCl (d : BitVec 6) (a : BitVec 6) : Eff := effSpcast true d a
/-- SPCAST_CL alone in its bundle. -/
def execSpcastCl (d : BitVec 6) (a : BitVec 6) (st : State) : Host.Outcome State Fault Refusal := runSlot 1 (opSpcastCl d a) st

/-- GPTR in a bundle (R371). -/
def opGptr (d : BitVec 6) (a : BitVec 6) (b : BitVec 6) : Eff := effGptr false d a b
/-- GPTR alone in its bundle. -/
def execGptr (d : BitVec 6) (a : BitVec 6) (b : BitVec 6) (st : State) : Host.Outcome State Fault Refusal := runSlot 1 (opGptr d a b) st

/-- GPTR_H in a bundle (R371). -/
def opGptrH (d : BitVec 6) (a : BitVec 6) (b : BitVec 6) : Eff := effGptr true d a b
/-- GPTR_H alone in its bundle. -/
def execGptrH (d : BitVec 6) (a : BitVec 6) (b : BitVec 6) (st : State) : Host.Outcome State Fault Refusal := runSlot 1 (opGptrH d a b) st

/-- PADD in a bundle (R372). -/
def opPadd (d : BitVec 6) (a : BitVec 6) (b : BitVec 6) : Eff := effPadd d a b
/-- PADD alone in its bundle. -/
def execPadd (d : BitVec 6) (a : BitVec 6) (b : BitVec 6) (st : State) : Host.Outcome State Fault Refusal := runSlot 1 (opPadd d a b) st

/-- STG in a bundle (R373). -/
def opStg (r : BitVec 3) (p : BitVec 3) (a : BitVec 6) : Eff := effStg r p a
/-- STG alone in its bundle. -/
def execStg (r : BitVec 3) (p : BitVec 3) (a : BitVec 6) (st : State) : Host.Outcome State Fault Refusal := runSlot 1 (opStg r p a) st

/-- SHF in a bundle (R373). -/
def opShf (r : BitVec 3) (p : BitVec 3) (a : BitVec 6) : Eff := effShf r p a
/-- SHF alone in its bundle. -/
def execShf (r : BitVec 3) (p : BitVec 3) (a : BitVec 6) (st : State) : Host.Outcome State Fault Refusal := runSlot 1 (opShf r p a) st

/-- MPW in a bundle (R373). -/
def opMpw (r : BitVec 3) (p : BitVec 3) (a : BitVec 6) : Eff := effMpw r p a
/-- MPW alone in its bundle. -/
def execMpw (r : BitVec 3) (p : BitVec 3) (a : BitVec 6) (st : State) : Host.Outcome State Fault Refusal := runSlot 1 (opMpw r p a) st

/-- ADDI in a bundle (R366). -/
def opAddi (d : BitVec 6) (a : BitVec 6) (i : BitVec 14) : Eff := effImm fnAdd d a i
/-- ADDI alone in its bundle. -/
def execAddi (d : BitVec 6) (a : BitVec 6) (i : BitVec 14) (st : State) : Host.Outcome State Fault Refusal := runSlot 1 (opAddi d a i) st

/-- ANDI in a bundle (R366). -/
def opAndi (d : BitVec 6) (a : BitVec 6) (i : BitVec 14) : Eff := effImm fnAnd d a i
/-- ANDI alone in its bundle. -/
def execAndi (d : BitVec 6) (a : BitVec 6) (i : BitVec 14) (st : State) : Host.Outcome State Fault Refusal := runSlot 1 (opAndi d a i) st

/-- ORI in a bundle (R366). -/
def opOri (d : BitVec 6) (a : BitVec 6) (i : BitVec 14) : Eff := effImm fnOr d a i
/-- ORI alone in its bundle. -/
def execOri (d : BitVec 6) (a : BitVec 6) (i : BitVec 14) (st : State) : Host.Outcome State Fault Refusal := runSlot 1 (opOri d a i) st

/-- XORI in a bundle (R366). -/
def opXori (d : BitVec 6) (a : BitVec 6) (i : BitVec 14) : Eff := effImm fnXor d a i
/-- XORI alone in its bundle. -/
def execXori (d : BitVec 6) (a : BitVec 6) (i : BitVec 14) (st : State) : Host.Outcome State Fault Refusal := runSlot 1 (opXori d a i) st

/-- SHLI in a bundle (R366). -/
def opShli (d : BitVec 6) (a : BitVec 6) (i : BitVec 6) : Eff := effShi fnShl d a i
/-- SHLI alone in its bundle. -/
def execShli (d : BitVec 6) (a : BitVec 6) (i : BitVec 6) (st : State) : Host.Outcome State Fault Refusal := runSlot 1 (opShli d a i) st

/-- SHRI in a bundle (R366). -/
def opShri (d : BitVec 6) (a : BitVec 6) (i : BitVec 6) : Eff := effShi fnShr d a i
/-- SHRI alone in its bundle. -/
def execShri (d : BitVec 6) (a : BitVec 6) (i : BitVec 6) (st : State) : Host.Outcome State Fault Refusal := runSlot 1 (opShri d a i) st

/-- SARI in a bundle (R366). -/
def opSari (d : BitVec 6) (a : BitVec 6) (i : BitVec 6) : Eff := effShi fnSar d a i
/-- SARI alone in its bundle. -/
def execSari (d : BitVec 6) (a : BitVec 6) (i : BitVec 6) (st : State) : Host.Outcome State Fault Refusal := runSlot 1 (opSari d a i) st

/-- SLTI in a bundle (R366). -/
def opSlti (d : BitVec 6) (a : BitVec 6) (i : BitVec 14) : Eff := effImm fnSlt d a i
/-- SLTI alone in its bundle. -/
def execSlti (d : BitVec 6) (a : BitVec 6) (i : BitVec 14) (st : State) : Host.Outcome State Fault Refusal := runSlot 1 (opSlti d a i) st

/-- SLTUI in a bundle (R366). -/
def opSltui (d : BitVec 6) (a : BitVec 6) (i : BitVec 14) : Eff := effImm fnSltu d a i
/-- SLTUI alone in its bundle. -/
def execSltui (d : BitVec 6) (a : BitVec 6) (i : BitVec 14) (st : State) : Host.Outcome State Fault Refusal := runSlot 1 (opSltui d a i) st

/-- SEQI in a bundle (R366). -/
def opSeqi (d : BitVec 6) (a : BitVec 6) (i : BitVec 14) : Eff := effImm fnSeq d a i
/-- SEQI alone in its bundle. -/
def execSeqi (d : BitVec 6) (a : BitVec 6) (i : BitVec 14) (st : State) : Host.Outcome State Fault Refusal := runSlot 1 (opSeqi d a i) st

/-- S_HINT in a bundle (R329). -/
def opSHint (_h : BitVec 2) (_x : BitVec 26) : Eff := effHint
/-- S_HINT alone in its bundle. -/
def execSHint (h : BitVec 2) (x : BitVec 26) (st : State) : Host.Outcome State Fault Refusal := runSlot 1 (opSHint h x) st

end Sys2Proof.Machine
end

