-- ==== Sys2Proof/Machine/SpecialSlot.lean ====
section
/-!
DEFINITION. Sys2Proof/Machine/SpecialSlot.lean: the SF instructions (R412-R418): for each its operation in a
bundle, and its meaning as a bundle of one slot.
-/

namespace Sys2Proof.Machine

/-- FEXP2 in a bundle (R413). -/
def opFexp2 (d : BitVec 6) (a : BitVec 6) (k : BitVec 4) (e : Fmt) : Eff := behindTable (effFn fnExp2 8 d a k e)
/-- FEXP2 alone in its bundle. -/
def execFexp2 (d : BitVec 6) (a : BitVec 6) (k : BitVec 4) (e : Fmt) (st : State) : Host.Outcome State Fault Refusal := runSlot 8 (opFexp2 d a k e) st

/-- FLOG2 in a bundle (R413). -/
def opFlog2 (d : BitVec 6) (a : BitVec 6) (k : BitVec 4) (e : Fmt) : Eff := behindTable (effFn fnLog2 8 d a k e)
/-- FLOG2 alone in its bundle. -/
def execFlog2 (d : BitVec 6) (a : BitVec 6) (k : BitVec 4) (e : Fmt) (st : State) : Host.Outcome State Fault Refusal := runSlot 8 (opFlog2 d a k e) st

/-- FRCP in a bundle (R413). -/
def opFrcp (d : BitVec 6) (a : BitVec 6) (k : BitVec 4) (e : Fmt) : Eff := behindTable (effFn fnRcp 8 d a k e)
/-- FRCP alone in its bundle. -/
def execFrcp (d : BitVec 6) (a : BitVec 6) (k : BitVec 4) (e : Fmt) (st : State) : Host.Outcome State Fault Refusal := runSlot 8 (opFrcp d a k e) st

/-- FRSQ in a bundle (R413). -/
def opFrsq (d : BitVec 6) (a : BitVec 6) (k : BitVec 4) (e : Fmt) : Eff := behindTable (effFn fnRsq 8 d a k e)
/-- FRSQ alone in its bundle. -/
def execFrsq (d : BitVec 6) (a : BitVec 6) (k : BitVec 4) (e : Fmt) (st : State) : Host.Outcome State Fault Refusal := runSlot 8 (opFrsq d a k e) st

/-- FSQRT in a bundle (R413). -/
def opFsqrt (d : BitVec 6) (a : BitVec 6) (k : BitVec 4) (e : Fmt) : Eff := behindTable (effFn fnSqrt 12 d a k e)
/-- FSQRT alone in its bundle. -/
def execFsqrt (d : BitVec 6) (a : BitVec 6) (k : BitVec 4) (e : Fmt) (st : State) : Host.Outcome State Fault Refusal := runSlot 8 (opFsqrt d a k e) st

/-- FRSQE in a bundle (R414). -/
def opFrsqe (d : BitVec 6) (a : BitVec 6) (b : BitVec 6) (x : BitVec 4) : Eff := behindTable (effFrsqe d a b x)
/-- FRSQE alone in its bundle. -/
def execFrsqe (d : BitVec 6) (a : BitVec 6) (b : BitVec 6) (x : BitVec 4) (st : State) : Host.Outcome State Fault Refusal := runSlot 8 (opFrsqe d a b x) st

/-- FTANH in a bundle (R413). -/
def opFtanh (d : BitVec 6) (a : BitVec 6) (k : BitVec 4) (e : Fmt) : Eff := behindTable (effFn fnTanh 12 d a k e)
/-- FTANH alone in its bundle. -/
def execFtanh (d : BitVec 6) (a : BitVec 6) (k : BitVec 4) (e : Fmt) (st : State) : Host.Outcome State Fault Refusal := runSlot 8 (opFtanh d a k e) st

/-- FSIG in a bundle (R413). -/
def opFsig (d : BitVec 6) (a : BitVec 6) (k : BitVec 4) (e : Fmt) : Eff := behindTable (effFn fnSig 12 d a k e)
/-- FSIG alone in its bundle. -/
def execFsig (d : BitVec 6) (a : BitVec 6) (k : BitVec 4) (e : Fmt) (st : State) : Host.Outcome State Fault Refusal := runSlot 8 (opFsig d a k e) st

/-- FERF in a bundle (R413). -/
def opFerf (d : BitVec 6) (a : BitVec 6) (k : BitVec 4) (e : Fmt) : Eff := behindTable (effFn fnErf 12 d a k e)
/-- FERF alone in its bundle. -/
def execFerf (d : BitVec 6) (a : BitVec 6) (k : BitVec 4) (e : Fmt) (st : State) : Host.Outcome State Fault Refusal := runSlot 8 (opFerf d a k e) st

/-- SCALEGEN in a bundle (R416). -/
def opScalegen (s : BitVec 3) (a : BitVec 6) (h : BitVec 1) (k : BitVec 4) (e : Fmt) : Eff := behindTable (effScalegen s a h k e)
/-- SCALEGEN alone in its bundle. -/
def execScalegen (s : BitVec 3) (a : BitVec 6) (h : BitVec 1) (k : BitVec 4) (e : Fmt) (st : State) : Host.Outcome State Fault Refusal := runSlot 8 (opScalegen s a h k e) st

/-- SCLD in a bundle (R415). -/
def opScld (s : BitVec 3) (a : BitVec 6) (d : BitVec 10) : Eff := behindTable (effScld s a d)
/-- SCLD alone in its bundle. -/
def execScld (s : BitVec 3) (a : BitVec 6) (d : BitVec 10) (st : State) : Host.Outcome State Fault Refusal := runSlot 8 (opScld s a d) st

/-- TBLD in a bundle (R417). -/
def opTbld (t : BitVec 1) (a : BitVec 6) : Eff := behindTable (effTbld t a)
/-- TBLD alone in its bundle. -/
def execTbld (t : BitVec 1) (a : BitVec 6) (st : State) : Host.Outcome State Fault Refusal := runSlot 8 (opTbld t a) st

/-- SF_HINT in a bundle (R329). -/
def opSfHint (_h : BitVec 2) (_x : BitVec 26) : Eff := effHint
/-- SF_HINT alone in its bundle. -/
def execSfHint (h : BitVec 2) (x : BitVec 26) (st : State) : Host.Outcome State Fault Refusal := runSlot 8 (opSfHint h x) st

end Sys2Proof.Machine
end

