-- ==== Sys2Proof/Machine/VectorSlot.lean ====
section
/-!
DEFINITION. Sys2Proof/Machine/VectorSlot.lean: the V0 and V1 instructions (R391-R411): for each its operation in a
bundle, and its meaning as a bundle of one slot.
-/

namespace Sys2Proof.Machine

/-- VADD in a bundle (R394). -/
def opVadd (d : BitVec 6) (a : BitVec 6) (b : BitVec 6) (k : BitVec 4) (e : Fmt) : Eff := effVInt vAdd d a b k e
/-- VADD alone in its bundle. -/
def execVadd (d : BitVec 6) (a : BitVec 6) (b : BitVec 6) (k : BitVec 4) (e : Fmt) (st : State) : Host.Outcome State Fault Refusal := runSlot 4 (opVadd d a b k e) st

/-- VSUB in a bundle (R394). -/
def opVsub (d : BitVec 6) (a : BitVec 6) (b : BitVec 6) (k : BitVec 4) (e : Fmt) : Eff := effVInt vSub d a b k e
/-- VSUB alone in its bundle. -/
def execVsub (d : BitVec 6) (a : BitVec 6) (b : BitVec 6) (k : BitVec 4) (e : Fmt) (st : State) : Host.Outcome State Fault Refusal := runSlot 4 (opVsub d a b k e) st

/-- VMUL in a bundle (R394). -/
def opVmul (d : BitVec 6) (a : BitVec 6) (b : BitVec 6) (k : BitVec 4) (e : Fmt) : Eff := effVInt vMul d a b k e
/-- VMUL alone in its bundle. -/
def execVmul (d : BitVec 6) (a : BitVec 6) (b : BitVec 6) (k : BitVec 4) (e : Fmt) (st : State) : Host.Outcome State Fault Refusal := runSlot 4 (opVmul d a b k e) st

/-- VMULH in a bundle (R394). -/
def opVmulh (d : BitVec 6) (a : BitVec 6) (b : BitVec 6) (k : BitVec 4) (e : Fmt) : Eff := effVInt vMulh d a b k e
/-- VMULH alone in its bundle. -/
def execVmulh (d : BitVec 6) (a : BitVec 6) (b : BitVec 6) (k : BitVec 4) (e : Fmt) (st : State) : Host.Outcome State Fault Refusal := runSlot 4 (opVmulh d a b k e) st

/-- VMIN in a bundle (R394). -/
def opVmin (d : BitVec 6) (a : BitVec 6) (b : BitVec 6) (k : BitVec 4) (e : Fmt) : Eff := effVInt vMin d a b k e
/-- VMIN alone in its bundle. -/
def execVmin (d : BitVec 6) (a : BitVec 6) (b : BitVec 6) (k : BitVec 4) (e : Fmt) (st : State) : Host.Outcome State Fault Refusal := runSlot 4 (opVmin d a b k e) st

/-- VMAX in a bundle (R394). -/
def opVmax (d : BitVec 6) (a : BitVec 6) (b : BitVec 6) (k : BitVec 4) (e : Fmt) : Eff := effVInt vMax d a b k e
/-- VMAX alone in its bundle. -/
def execVmax (d : BitVec 6) (a : BitVec 6) (b : BitVec 6) (k : BitVec 4) (e : Fmt) (st : State) : Host.Outcome State Fault Refusal := runSlot 4 (opVmax d a b k e) st

/-- VABS in a bundle (R394). -/
def opVabs (d : BitVec 6) (a : BitVec 6) (k : BitVec 4) (e : Fmt) : Eff := effVabs d a k e
/-- VABS alone in its bundle. -/
def execVabs (d : BitVec 6) (a : BitVec 6) (k : BitVec 4) (e : Fmt) (st : State) : Host.Outcome State Fault Refusal := runSlot 4 (opVabs d a k e) st

/-- VAND in a bundle (R394). -/
def opVand (d : BitVec 6) (a : BitVec 6) (b : BitVec 6) (k : BitVec 4) (e : Fmt) : Eff := effVInt vAnd d a b k e
/-- VAND alone in its bundle. -/
def execVand (d : BitVec 6) (a : BitVec 6) (b : BitVec 6) (k : BitVec 4) (e : Fmt) (st : State) : Host.Outcome State Fault Refusal := runSlot 4 (opVand d a b k e) st

/-- VOR in a bundle (R394). -/
def opVor (d : BitVec 6) (a : BitVec 6) (b : BitVec 6) (k : BitVec 4) (e : Fmt) : Eff := effVInt vOr d a b k e
/-- VOR alone in its bundle. -/
def execVor (d : BitVec 6) (a : BitVec 6) (b : BitVec 6) (k : BitVec 4) (e : Fmt) (st : State) : Host.Outcome State Fault Refusal := runSlot 4 (opVor d a b k e) st

/-- VXOR in a bundle (R394). -/
def opVxor (d : BitVec 6) (a : BitVec 6) (b : BitVec 6) (k : BitVec 4) (e : Fmt) : Eff := effVInt vXor d a b k e
/-- VXOR alone in its bundle. -/
def execVxor (d : BitVec 6) (a : BitVec 6) (b : BitVec 6) (k : BitVec 4) (e : Fmt) (st : State) : Host.Outcome State Fault Refusal := runSlot 4 (opVxor d a b k e) st

/-- VANDN in a bundle (R394). -/
def opVandn (d : BitVec 6) (a : BitVec 6) (b : BitVec 6) (k : BitVec 4) (e : Fmt) : Eff := effVInt vAndn d a b k e
/-- VANDN alone in its bundle. -/
def execVandn (d : BitVec 6) (a : BitVec 6) (b : BitVec 6) (k : BitVec 4) (e : Fmt) (st : State) : Host.Outcome State Fault Refusal := runSlot 4 (opVandn d a b k e) st

/-- VSHL in a bundle (R394). -/
def opVshl (d : BitVec 6) (a : BitVec 6) (b : BitVec 6) (k : BitVec 4) (e : Fmt) : Eff := effVInt vShl d a b k e
/-- VSHL alone in its bundle. -/
def execVshl (d : BitVec 6) (a : BitVec 6) (b : BitVec 6) (k : BitVec 4) (e : Fmt) (st : State) : Host.Outcome State Fault Refusal := runSlot 4 (opVshl d a b k e) st

/-- VSHR in a bundle (R394). -/
def opVshr (d : BitVec 6) (a : BitVec 6) (b : BitVec 6) (k : BitVec 4) (e : Fmt) : Eff := effVInt vShr d a b k e
/-- VSHR alone in its bundle. -/
def execVshr (d : BitVec 6) (a : BitVec 6) (b : BitVec 6) (k : BitVec 4) (e : Fmt) (st : State) : Host.Outcome State Fault Refusal := runSlot 4 (opVshr d a b k e) st

/-- VSAR in a bundle (R394). -/
def opVsar (d : BitVec 6) (a : BitVec 6) (b : BitVec 6) (k : BitVec 4) (e : Fmt) : Eff := effVInt vSar d a b k e
/-- VSAR alone in its bundle. -/
def execVsar (d : BitVec 6) (a : BitVec 6) (b : BitVec 6) (k : BitVec 4) (e : Fmt) (st : State) : Host.Outcome State Fault Refusal := runSlot 4 (opVsar d a b k e) st

/-- VADDS in a bundle (R394). -/
def opVadds (d : BitVec 6) (a : BitVec 6) (b : BitVec 6) (k : BitVec 4) (e : Fmt) : Eff := effVInt vAdds d a b k e
/-- VADDS alone in its bundle. -/
def execVadds (d : BitVec 6) (a : BitVec 6) (b : BitVec 6) (k : BitVec 4) (e : Fmt) (st : State) : Host.Outcome State Fault Refusal := runSlot 4 (opVadds d a b k e) st

/-- VSUBS in a bundle (R394). -/
def opVsubs (d : BitVec 6) (a : BitVec 6) (b : BitVec 6) (k : BitVec 4) (e : Fmt) : Eff := effVInt vSubs d a b k e
/-- VSUBS alone in its bundle. -/
def execVsubs (d : BitVec 6) (a : BitVec 6) (b : BitVec 6) (k : BitVec 4) (e : Fmt) (st : State) : Host.Outcome State Fault Refusal := runSlot 4 (opVsubs d a b k e) st

/-- VCMPEQ in a bundle (R395). -/
def opVcmpeq (d : BitVec 4) (a : BitVec 6) (b : BitVec 6) (k : BitVec 4) (e : Fmt) : Eff := effVcmp relEq false false d a b k e
/-- VCMPEQ alone in its bundle. -/
def execVcmpeq (d : BitVec 4) (a : BitVec 6) (b : BitVec 6) (k : BitVec 4) (e : Fmt) (st : State) : Host.Outcome State Fault Refusal := runSlot 4 (opVcmpeq d a b k e) st

/-- VCMPNE in a bundle (R395). -/
def opVcmpne (d : BitVec 4) (a : BitVec 6) (b : BitVec 6) (k : BitVec 4) (e : Fmt) : Eff := effVcmp relNe true false d a b k e
/-- VCMPNE alone in its bundle. -/
def execVcmpne (d : BitVec 4) (a : BitVec 6) (b : BitVec 6) (k : BitVec 4) (e : Fmt) (st : State) : Host.Outcome State Fault Refusal := runSlot 4 (opVcmpne d a b k e) st

/-- VCMPLT in a bundle (R395). -/
def opVcmplt (d : BitVec 4) (a : BitVec 6) (b : BitVec 6) (k : BitVec 4) (e : Fmt) : Eff := effVcmp relLt false true d a b k e
/-- VCMPLT alone in its bundle. -/
def execVcmplt (d : BitVec 4) (a : BitVec 6) (b : BitVec 6) (k : BitVec 4) (e : Fmt) (st : State) : Host.Outcome State Fault Refusal := runSlot 4 (opVcmplt d a b k e) st

/-- VCMPLE in a bundle (R395). -/
def opVcmple (d : BitVec 4) (a : BitVec 6) (b : BitVec 6) (k : BitVec 4) (e : Fmt) : Eff := effVcmp relLe false true d a b k e
/-- VCMPLE alone in its bundle. -/
def execVcmple (d : BitVec 4) (a : BitVec 6) (b : BitVec 6) (k : BitVec 4) (e : Fmt) (st : State) : Host.Outcome State Fault Refusal := runSlot 4 (opVcmple d a b k e) st

/-- VSEL in a bundle (R396). -/
def opVsel (d : BitVec 6) (a : BitVec 6) (b : BitVec 6) (k : BitVec 4) (e : Fmt) : Eff := effVsel d a b k e
/-- VSEL alone in its bundle. -/
def execVsel (d : BitVec 6) (a : BitVec 6) (b : BitVec 6) (k : BitVec 4) (e : Fmt) (st : State) : Host.Outcome State Fault Refusal := runSlot 4 (opVsel d a b k e) st

/-- VBCAST in a bundle (R396). -/
def opVbcast (d : BitVec 6) (a : BitVec 6) (k : BitVec 4) (e : Fmt) : Eff := effVbcast d a k e
/-- VBCAST alone in its bundle. -/
def execVbcast (d : BitVec 6) (a : BitVec 6) (k : BitVec 4) (e : Fmt) (st : State) : Host.Outcome State Fault Refusal := runSlot 4 (opVbcast d a k e) st

/-- VEXTR in a bundle (R396). -/
def opVextr (d : BitVec 6) (a : BitVec 6) (b : BitVec 6) (e : Fmt) : Eff := effVextr d a b e
/-- VEXTR alone in its bundle. -/
def execVextr (d : BitVec 6) (a : BitVec 6) (b : BitVec 6) (e : Fmt) (st : State) : Host.Outcome State Fault Refusal := runSlot 4 (opVextr d a b e) st

/-- VINSR in a bundle (R396). -/
def opVinsr (d : BitVec 6) (a : BitVec 6) (b : BitVec 6) (e : Fmt) : Eff := effVinsr d a b e
/-- VINSR alone in its bundle. -/
def execVinsr (d : BitVec 6) (a : BitVec 6) (b : BitVec 6) (e : Fmt) (st : State) : Host.Outcome State Fault Refusal := runSlot 4 (opVinsr d a b e) st

/-- VCLMUL_LO in a bundle (R399). -/
def opVclmulLo (d : BitVec 6) (a : BitVec 6) (b : BitVec 6) (k : BitVec 4) (e : Fmt) : Eff := effVclmul false d a b k e
/-- VCLMUL_LO alone in its bundle. -/
def execVclmulLo (d : BitVec 6) (a : BitVec 6) (b : BitVec 6) (k : BitVec 4) (e : Fmt) (st : State) : Host.Outcome State Fault Refusal := runSlot 4 (opVclmulLo d a b k e) st

/-- VCLMUL_HI in a bundle (R399). -/
def opVclmulHi (d : BitVec 6) (a : BitVec 6) (b : BitVec 6) (k : BitVec 4) (e : Fmt) : Eff := effVclmul true d a b k e
/-- VCLMUL_HI alone in its bundle. -/
def execVclmulHi (d : BitVec 6) (a : BitVec 6) (b : BitVec 6) (k : BitVec 4) (e : Fmt) (st : State) : Host.Outcome State Fault Refusal := runSlot 4 (opVclmulHi d a b k e) st

/-- VSCAN_ADD in a bundle (R400). -/
def opVscanAdd (d : BitVec 6) (a : BitVec 6) (k : BitVec 4) (e : Fmt) : Eff := effVscan .add d a k e
/-- VSCAN_ADD alone in its bundle. -/
def execVscanAdd (d : BitVec 6) (a : BitVec 6) (k : BitVec 4) (e : Fmt) (st : State) : Host.Outcome State Fault Refusal := runSlot 4 (opVscanAdd d a k e) st

/-- VSCAN_MIN in a bundle (R400). -/
def opVscanMin (d : BitVec 6) (a : BitVec 6) (k : BitVec 4) (e : Fmt) : Eff := effVscan .min d a k e
/-- VSCAN_MIN alone in its bundle. -/
def execVscanMin (d : BitVec 6) (a : BitVec 6) (k : BitVec 4) (e : Fmt) (st : State) : Host.Outcome State Fault Refusal := runSlot 4 (opVscanMin d a k e) st

/-- VSCAN_MAX in a bundle (R400). -/
def opVscanMax (d : BitVec 6) (a : BitVec 6) (k : BitVec 4) (e : Fmt) : Eff := effVscan .max d a k e
/-- VSCAN_MAX alone in its bundle. -/
def execVscanMax (d : BitVec 6) (a : BitVec 6) (k : BitVec 4) (e : Fmt) (st : State) : Host.Outcome State Fault Refusal := runSlot 4 (opVscanMax d a k e) st

/-- VSCAN_XOR in a bundle (R400). -/
def opVscanXor (d : BitVec 6) (a : BitVec 6) (k : BitVec 4) (e : Fmt) : Eff := effVscan .xor_ d a k e
/-- VSCAN_XOR alone in its bundle. -/
def execVscanXor (d : BitVec 6) (a : BitVec 6) (k : BitVec 4) (e : Fmt) (st : State) : Host.Outcome State Fault Refusal := runSlot 4 (opVscanXor d a k e) st

/-- VSCAN_AND in a bundle (R400). -/
def opVscanAnd (d : BitVec 6) (a : BitVec 6) (k : BitVec 4) (e : Fmt) : Eff := effVscan .and_ d a k e
/-- VSCAN_AND alone in its bundle. -/
def execVscanAnd (d : BitVec 6) (a : BitVec 6) (k : BitVec 4) (e : Fmt) (st : State) : Host.Outcome State Fault Refusal := runSlot 4 (opVscanAnd d a k e) st

/-- VSCAN_OR in a bundle (R400). -/
def opVscanOr (d : BitVec 6) (a : BitVec 6) (k : BitVec 4) (e : Fmt) : Eff := effVscan .or_ d a k e
/-- VSCAN_OR alone in its bundle. -/
def execVscanOr (d : BitVec 6) (a : BitVec 6) (k : BitVec 4) (e : Fmt) (st : State) : Host.Outcome State Fault Refusal := runSlot 4 (opVscanOr d a k e) st

/-- VREDUCE_ADD in a bundle (R400). -/
def opVreduceAdd (d : BitVec 6) (a : BitVec 6) (k : BitVec 4) (e : Fmt) : Eff := effVreduce .add d a k e
/-- VREDUCE_ADD alone in its bundle. -/
def execVreduceAdd (d : BitVec 6) (a : BitVec 6) (k : BitVec 4) (e : Fmt) (st : State) : Host.Outcome State Fault Refusal := runSlot 4 (opVreduceAdd d a k e) st

/-- VREDUCE_MIN in a bundle (R400). -/
def opVreduceMin (d : BitVec 6) (a : BitVec 6) (k : BitVec 4) (e : Fmt) : Eff := effVreduce .min d a k e
/-- VREDUCE_MIN alone in its bundle. -/
def execVreduceMin (d : BitVec 6) (a : BitVec 6) (k : BitVec 4) (e : Fmt) (st : State) : Host.Outcome State Fault Refusal := runSlot 4 (opVreduceMin d a k e) st

/-- VREDUCE_MAX in a bundle (R400). -/
def opVreduceMax (d : BitVec 6) (a : BitVec 6) (k : BitVec 4) (e : Fmt) : Eff := effVreduce .max d a k e
/-- VREDUCE_MAX alone in its bundle. -/
def execVreduceMax (d : BitVec 6) (a : BitVec 6) (k : BitVec 4) (e : Fmt) (st : State) : Host.Outcome State Fault Refusal := runSlot 4 (opVreduceMax d a k e) st

/-- VREDUCE_XOR in a bundle (R400). -/
def opVreduceXor (d : BitVec 6) (a : BitVec 6) (k : BitVec 4) (e : Fmt) : Eff := effVreduce .xor_ d a k e
/-- VREDUCE_XOR alone in its bundle. -/
def execVreduceXor (d : BitVec 6) (a : BitVec 6) (k : BitVec 4) (e : Fmt) (st : State) : Host.Outcome State Fault Refusal := runSlot 4 (opVreduceXor d a k e) st

/-- VREDUCE_AND in a bundle (R400). -/
def opVreduceAnd (d : BitVec 6) (a : BitVec 6) (k : BitVec 4) (e : Fmt) : Eff := effVreduce .and_ d a k e
/-- VREDUCE_AND alone in its bundle. -/
def execVreduceAnd (d : BitVec 6) (a : BitVec 6) (k : BitVec 4) (e : Fmt) (st : State) : Host.Outcome State Fault Refusal := runSlot 4 (opVreduceAnd d a k e) st

/-- VREDUCE_OR in a bundle (R400). -/
def opVreduceOr (d : BitVec 6) (a : BitVec 6) (k : BitVec 4) (e : Fmt) : Eff := effVreduce .or_ d a k e
/-- VREDUCE_OR alone in its bundle. -/
def execVreduceOr (d : BitVec 6) (a : BitVec 6) (k : BitVec 4) (e : Fmt) (st : State) : Host.Outcome State Fault Refusal := runSlot 4 (opVreduceOr d a k e) st

/-- VPERM in a bundle (R401). -/
def opVperm (d : BitVec 6) (a : BitVec 6) (b : BitVec 6) (k : BitVec 4) (e : Fmt) : Eff := effVperm d a b k e
/-- VPERM alone in its bundle. -/
def execVperm (d : BitVec 6) (a : BitVec 6) (b : BitVec 6) (k : BitVec 4) (e : Fmt) (st : State) : Host.Outcome State Fault Refusal := runSlot 4 (opVperm d a b k e) st

/-- VCOMPRESS in a bundle (R402). -/
def opVcompress (d : BitVec 6) (a : BitVec 6) (k : BitVec 4) (e : Fmt) : Eff := effVcompress d a k e
/-- VCOMPRESS alone in its bundle. -/
def execVcompress (d : BitVec 6) (a : BitVec 6) (k : BitVec 4) (e : Fmt) (st : State) : Host.Outcome State Fault Refusal := runSlot 4 (opVcompress d a k e) st

/-- VEXPAND in a bundle (R402). -/
def opVexpand (d : BitVec 6) (a : BitVec 6) (k : BitVec 4) (e : Fmt) : Eff := effVexpand d a k e
/-- VEXPAND alone in its bundle. -/
def execVexpand (d : BitVec 6) (a : BitVec 6) (k : BitVec 4) (e : Fmt) (st : State) : Host.Outcome State Fault Refusal := runSlot 4 (opVexpand d a k e) st

/-- VMERGE_LO in a bundle (R404). -/
def opVmergeLo (d : BitVec 6) (a : BitVec 6) (b : BitVec 6) (m : BitVec 2) (e : Fmt) : Eff := effVmerge false d a b m e
/-- VMERGE_LO alone in its bundle. -/
def execVmergeLo (d : BitVec 6) (a : BitVec 6) (b : BitVec 6) (m : BitVec 2) (e : Fmt) (st : State) : Host.Outcome State Fault Refusal := runSlot 4 (opVmergeLo d a b m e) st

/-- VMERGE_HI in a bundle (R404). -/
def opVmergeHi (d : BitVec 6) (a : BitVec 6) (b : BitVec 6) (m : BitVec 2) (e : Fmt) : Eff := effVmerge true d a b m e
/-- VMERGE_HI alone in its bundle. -/
def execVmergeHi (d : BitVec 6) (a : BitVec 6) (b : BitVec 6) (m : BitVec 2) (e : Fmt) (st : State) : Host.Outcome State Fault Refusal := runSlot 4 (opVmergeHi d a b m e) st

/-- VMERGEKV in a bundle (R405). -/
def opVmergekv (d : BitVec 6) (a : BitVec 6) (b : BitVec 6) (m : BitVec 2) (e : Fmt) : Eff := effVmergekv d a b m e
/-- VMERGEKV alone in its bundle. -/
def execVmergekv (d : BitVec 6) (a : BitVec 6) (b : BitVec 6) (m : BitVec 2) (e : Fmt) (st : State) : Host.Outcome State Fault Refusal := runSlot 4 (opVmergekv d a b m e) st

/-- VFADD in a bundle (R406). -/
def opVfadd (d : BitVec 6) (a : BitVec 6) (b : BitVec 6) (k : BitVec 4) (e : Fmt) : Eff := effVFlt vFadd d a b k e
/-- VFADD alone in its bundle. -/
def execVfadd (d : BitVec 6) (a : BitVec 6) (b : BitVec 6) (k : BitVec 4) (e : Fmt) (st : State) : Host.Outcome State Fault Refusal := runSlot 4 (opVfadd d a b k e) st

/-- VFSUB in a bundle (R406). -/
def opVfsub (d : BitVec 6) (a : BitVec 6) (b : BitVec 6) (k : BitVec 4) (e : Fmt) : Eff := effVFlt vFsub d a b k e
/-- VFSUB alone in its bundle. -/
def execVfsub (d : BitVec 6) (a : BitVec 6) (b : BitVec 6) (k : BitVec 4) (e : Fmt) (st : State) : Host.Outcome State Fault Refusal := runSlot 4 (opVfsub d a b k e) st

/-- VFMUL in a bundle (R406). -/
def opVfmul (d : BitVec 6) (a : BitVec 6) (b : BitVec 6) (k : BitVec 4) (e : Fmt) : Eff := effVFlt vFmul d a b k e
/-- VFMUL alone in its bundle. -/
def execVfmul (d : BitVec 6) (a : BitVec 6) (b : BitVec 6) (k : BitVec 4) (e : Fmt) (st : State) : Host.Outcome State Fault Refusal := runSlot 4 (opVfmul d a b k e) st

/-- VFMA in a bundle (R406). -/
def opVfma (d : BitVec 6) (a : BitVec 6) (b : BitVec 6) (k : BitVec 4) (e : Fmt) : Eff := effVfma d a b k e
/-- VFMA alone in its bundle. -/
def execVfma (d : BitVec 6) (a : BitVec 6) (b : BitVec 6) (k : BitVec 4) (e : Fmt) (st : State) : Host.Outcome State Fault Refusal := runSlot 4 (opVfma d a b k e) st

/-- VFMIN in a bundle (R407). -/
def opVfmin (d : BitVec 6) (a : BitVec 6) (b : BitVec 6) (k : BitVec 4) (e : Fmt) : Eff := effVfminmax false d a b k e
/-- VFMIN alone in its bundle. -/
def execVfmin (d : BitVec 6) (a : BitVec 6) (b : BitVec 6) (k : BitVec 4) (e : Fmt) (st : State) : Host.Outcome State Fault Refusal := runSlot 4 (opVfmin d a b k e) st

/-- VFMAX in a bundle (R407). -/
def opVfmax (d : BitVec 6) (a : BitVec 6) (b : BitVec 6) (k : BitVec 4) (e : Fmt) : Eff := effVfminmax true d a b k e
/-- VFMAX alone in its bundle. -/
def execVfmax (d : BitVec 6) (a : BitVec 6) (b : BitVec 6) (k : BitVec 4) (e : Fmt) (st : State) : Host.Outcome State Fault Refusal := runSlot 4 (opVfmax d a b k e) st

/-- VCVT in a bundle (R409). -/
def opVcvt (d : BitVec 6) (a : BitVec 6) (t : Fmt) (r : BitVec 2) (p : BitVec 3) (s : BitVec 1) (e : Fmt) : Eff := effVcvt d a t r p s e
/-- VCVT alone in its bundle. -/
def execVcvt (d : BitVec 6) (a : BitVec 6) (t : Fmt) (r : BitVec 2) (p : BitVec 3) (s : BitVec 1) (e : Fmt) (st : State) : Host.Outcome State Fault Refusal := runSlot 4 (opVcvt d a t r p s e) st

/-- VAMAX in a bundle (R410). -/
def opVamax (d : BitVec 6) (a : BitVec 6) (p : BitVec 6) (k : BitVec 4) (e : Fmt) : Eff := effVamax d a p k e
/-- VAMAX alone in its bundle. -/
def execVamax (d : BitVec 6) (a : BitVec 6) (p : BitVec 6) (k : BitVec 4) (e : Fmt) (st : State) : Host.Outcome State Fault Refusal := runSlot 4 (opVamax d a p k e) st

/-- VBQPACK in a bundle (R411). -/
def opVbqpack (d : BitVec 6) (a : BitVec 6) (s : BitVec 3) (b : BitVec 6) (e : Fmt) : Eff := effVbqpack d a s b e
/-- VBQPACK alone in its bundle. -/
def execVbqpack (d : BitVec 6) (a : BitVec 6) (s : BitVec 3) (b : BitVec 6) (e : Fmt) (st : State) : Host.Outcome State Fault Refusal := runSlot 4 (opVbqpack d a s b e) st

/-- VBQUNPK in a bundle (R411). -/
def opVbqunpk (d : BitVec 6) (a : BitVec 6) (s : BitVec 3) (b : BitVec 6) (e : Fmt) : Eff := effVbqunpk d a s b e
/-- VBQUNPK alone in its bundle. -/
def execVbqunpk (d : BitVec 6) (a : BitVec 6) (s : BitVec 3) (b : BitVec 6) (e : Fmt) (st : State) : Host.Outcome State Fault Refusal := runSlot 4 (opVbqunpk d a s b e) st

/-- KAND in a bundle (R397). -/
def opKand (d : BitVec 4) (a : BitVec 4) (b : BitVec 4) : Eff := effKbin (· &&& ·) d a b
/-- KAND alone in its bundle. -/
def execKand (d : BitVec 4) (a : BitVec 4) (b : BitVec 4) (st : State) : Host.Outcome State Fault Refusal := runSlot 4 (opKand d a b) st

/-- KOR in a bundle (R397). -/
def opKor (d : BitVec 4) (a : BitVec 4) (b : BitVec 4) : Eff := effKbin (· ||| ·) d a b
/-- KOR alone in its bundle. -/
def execKor (d : BitVec 4) (a : BitVec 4) (b : BitVec 4) (st : State) : Host.Outcome State Fault Refusal := runSlot 4 (opKor d a b) st

/-- KXOR in a bundle (R397). -/
def opKxor (d : BitVec 4) (a : BitVec 4) (b : BitVec 4) : Eff := effKbin (· ^^^ ·) d a b
/-- KXOR alone in its bundle. -/
def execKxor (d : BitVec 4) (a : BitVec 4) (b : BitVec 4) (st : State) : Host.Outcome State Fault Refusal := runSlot 4 (opKxor d a b) st

/-- KNOT in a bundle (R397). -/
def opKnot (d : BitVec 4) (a : BitVec 4) : Eff := effKnot d a
/-- KNOT alone in its bundle. -/
def execKnot (d : BitVec 4) (a : BitVec 4) (st : State) : Host.Outcome State Fault Refusal := runSlot 4 (opKnot d a) st

/-- KPOP in a bundle (R397). -/
def opKpop (d : BitVec 6) (a : BitVec 4) (e : Fmt) : Eff := effKpop d a e
/-- KPOP alone in its bundle. -/
def execKpop (d : BitVec 6) (a : BitVec 4) (e : Fmt) (st : State) : Host.Outcome State Fault Refusal := runSlot 4 (opKpop d a e) st

/-- KSET in a bundle (R397). -/
def opKset (d : BitVec 4) (a : BitVec 6) (b : BitVec 6) : Eff := effKset d a b
/-- KSET alone in its bundle. -/
def execKset (d : BitVec 4) (a : BitVec 6) (b : BitVec 6) (st : State) : Host.Outcome State Fault Refusal := runSlot 4 (opKset d a b) st

/-- VMOV in a bundle (R398). -/
def opVmov (d : BitVec 6) (a : BitVec 6) (k : BitVec 4) (e : Fmt) : Eff := effVmov d a k e
/-- VMOV alone in its bundle. -/
def execVmov (d : BitVec 6) (a : BitVec 6) (k : BitVec 4) (e : Fmt) (st : State) : Host.Outcome State Fault Refusal := runSlot 4 (opVmov d a k e) st

/-- VMOV_FROM_MG in a bundle (R398). -/
def opVmovFromMg (d : BitVec 6) (a : BitVec 2) : Eff := effVmovFromMg d a
/-- VMOV_FROM_MG alone in its bundle. -/
def execVmovFromMg (d : BitVec 6) (a : BitVec 2) (st : State) : Host.Outcome State Fault Refusal := runSlot 4 (opVmovFromMg d a) st

/-- VMOV_TO_MG in a bundle (R398). -/
def opVmovToMg (d : BitVec 2) (a : BitVec 6) : Eff := effVmovToMg d a
/-- VMOV_TO_MG alone in its bundle. -/
def execVmovToMg (d : BitVec 2) (a : BitVec 6) (st : State) : Host.Outcome State Fault Refusal := runSlot 4 (opVmovToMg d a) st

/-- VMOV_MASK_LO in a bundle (R398). -/
def opVmovMaskLo (d : BitVec 6) (a : BitVec 4) : Eff := effVmovMask false d a
/-- VMOV_MASK_LO alone in its bundle. -/
def execVmovMaskLo (d : BitVec 6) (a : BitVec 4) (st : State) : Host.Outcome State Fault Refusal := runSlot 4 (opVmovMaskLo d a) st

/-- VMOV_MASK_HI in a bundle (R398). -/
def opVmovMaskHi (d : BitVec 6) (a : BitVec 4) : Eff := effVmovMask true d a
/-- VMOV_MASK_HI alone in its bundle. -/
def execVmovMaskHi (d : BitVec 6) (a : BitVec 4) (st : State) : Host.Outcome State Fault Refusal := runSlot 4 (opVmovMaskHi d a) st

/-- V_HINT in a bundle (R329). -/
def opVHint (_h : BitVec 2) (_x : BitVec 26) : Eff := effHint
/-- V_HINT alone in its bundle. -/
def execVHint (h : BitVec 2) (x : BitVec 26) (st : State) : Host.Outcome State Fault Refusal := runSlot 4 (opVHint h x) st

end Sys2Proof.Machine
end

