-- ==== Sys2Proof/Machine/Bundle.lean ====
section
/-!
DEFINITION. Sys2Proof/Machine/Bundle.lean: the fetch of a bundle, its checks, and its issue (R320-R323, R338).
-/

namespace Sys2Proof.Machine

/-- What R338 counts as one destination: a register or the bits of a shadow register, a loop counter, a token. -/
inductive BDst where
  | reg (d : Dst)
  | lc (n : Nat)
  | tok (t : Nat)
  deriving DecidableEq, Repr

/-- Whether two destinations are one, or share a bit of a shadow register. -/
def bdstMeets : BDst → BDst → Bool
  | .reg a, .reg b => dstMeets a b
  | .lc a, .lc b => a == b
  | .tok a, .tok b => a == b
  | _, _ => false

/-- The destinations an instruction's word names. -/
def slotDsts : Instr → List BDst
  | .loop c _ _ => [.lc c.toNat]
  | .loopReg c _ _ => [.lc c.toNat]
  | .call d _ => [.reg (.s d.toNat)]
  | .callr d _ => [.reg (.s d.toNat)]
  | .sysr d _ => [.reg (.s d.toNat)]
  | .sysw _ i => if i = 0x48 then [.lc 0] else if i = 0x49 then [.lc 1] else []
  | .add d _ _ => [.reg (.s d.toNat)]
  | .sub d _ _ => [.reg (.s d.toNat)]
  | .and_ d _ _ => [.reg (.s d.toNat)]
  | .or_ d _ _ => [.reg (.s d.toNat)]
  | .xor_ d _ _ => [.reg (.s d.toNat)]
  | .shl d _ _ => [.reg (.s d.toNat)]
  | .shr d _ _ => [.reg (.s d.toNat)]
  | .sar d _ _ => [.reg (.s d.toNat)]
  | .slt d _ _ => [.reg (.s d.toNat)]
  | .sltu d _ _ => [.reg (.s d.toNat)]
  | .seq d _ _ => [.reg (.s d.toNat)]
  | .min d _ _ => [.reg (.s d.toNat)]
  | .max d _ _ => [.reg (.s d.toNat)]
  | .minu d _ _ => [.reg (.s d.toNat)]
  | .maxu d _ _ => [.reg (.s d.toNat)]
  | .mul d _ _ => [.reg (.s d.toNat)]
  | .mulh d _ _ => [.reg (.s d.toNat)]
  | .mulhu d _ _ => [.reg (.s d.toNat)]
  | .clmul d _ _ => [.reg (.s d.toNat)]
  | .clmulh d _ _ => [.reg (.s d.toNat)]
  | .sel d _ _ _ => [.reg (.s d.toNat)]
  | .movi d _ => [.reg (.s d.toNat)]
  | .movhi d _ _ => [.reg (.s d.toNat)]
  | .clz d _ => [.reg (.s d.toNat)]
  | .ctz d _ => [.reg (.s d.toNat)]
  | .popc d _ => [.reg (.s d.toNat)]
  | .sptest d _ => [.reg (.s d.toNat)]
  | .spcastSp d _ => [.reg (.s d.toNat)]
  | .spcastCl d _ => [.reg (.s d.toNat)]
  | .gptr d _ _ => [.reg (.s d.toNat)]
  | .gptrH d _ _ => [.reg (.s d.toNat)]
  | .padd d _ _ => [.reg (.s d.toNat)]
  | .stg r p _ => [.reg (.shX r.toNat p.toNat)]
  | .shf r p _ => [.reg (if r.toNat < 4 then .shX (8 + r.toNat) p.toNat else .shM (4 + r.toNat) p.toNat)]
  | .mpw r p _ => [.reg (.shM r.toNat p.toNat)]
  | .addi d _ _ => [.reg (.s d.toNat)]
  | .andi d _ _ => [.reg (.s d.toNat)]
  | .ori d _ _ => [.reg (.s d.toNat)]
  | .xori d _ _ => [.reg (.s d.toNat)]
  | .shli d _ _ => [.reg (.s d.toNat)]
  | .shri d _ _ => [.reg (.s d.toNat)]
  | .sari d _ _ => [.reg (.s d.toNat)]
  | .slti d _ _ => [.reg (.s d.toNat)]
  | .sltui d _ _ => [.reg (.s d.toNat)]
  | .seqi d _ _ => [.reg (.s d.toNat)]
  | .ld d _ _ _ _ => [.reg (.s d.toNat)]
  | .vld d _ _ => [.reg (.v d.toNat)]
  | .vlds d _ _ _ _ => [.reg (.v d.toNat)]
  | .vldx d _ _ _ _ => [.reg (.v d.toNat)]
  | .ldl d _ f _ => [.reg (if f = 2 then .v d.toNat else .s d.toNat)]
  | .amoAdd d _ _ _ => [.reg (.s d.toNat)]
  | .amoAnd d _ _ _ => [.reg (.s d.toNat)]
  | .amoOr d _ _ _ => [.reg (.s d.toNat)]
  | .amoXor d _ _ _ => [.reg (.s d.toNat)]
  | .amoMin d _ _ _ => [.reg (.s d.toNat)]
  | .amoMax d _ _ _ => [.reg (.s d.toNat)]
  | .amoMinu d _ _ _ => [.reg (.s d.toNat)]
  | .amoMaxu d _ _ _ => [.reg (.s d.toNat)]
  | .amoSwap d _ _ _ => [.reg (.s d.toNat)]
  | .amoFadd d _ _ => [.reg (.s d.toNat)]
  | .cas d _ _ _ => [.reg (.s d.toNat)]
  | .ldAcq d _ _ _ => [.reg (.s d.toNat)]
  | .hingeAcq d _ _ => [.reg (.s d.toNat)]
  | .fill d v _ => [.reg (if v = 1 then .v d.toNat else .s d.toNat)]
  | .vadd d _ _ _ _ => [.reg (.v d.toNat)]
  | .vsub d _ _ _ _ => [.reg (.v d.toNat)]
  | .vmul d _ _ _ _ => [.reg (.v d.toNat)]
  | .vmulh d _ _ _ _ => [.reg (.v d.toNat)]
  | .vmin d _ _ _ _ => [.reg (.v d.toNat)]
  | .vmax d _ _ _ _ => [.reg (.v d.toNat)]
  | .vabs d _ _ _ => [.reg (.v d.toNat)]
  | .vand d _ _ _ _ => [.reg (.v d.toNat)]
  | .vor d _ _ _ _ => [.reg (.v d.toNat)]
  | .vxor d _ _ _ _ => [.reg (.v d.toNat)]
  | .vandn d _ _ _ _ => [.reg (.v d.toNat)]
  | .vshl d _ _ _ _ => [.reg (.v d.toNat)]
  | .vshr d _ _ _ _ => [.reg (.v d.toNat)]
  | .vsar d _ _ _ _ => [.reg (.v d.toNat)]
  | .vadds d _ _ _ _ => [.reg (.v d.toNat)]
  | .vsubs d _ _ _ _ => [.reg (.v d.toNat)]
  | .vcmpeq d _ _ _ _ => [.reg (.k d.toNat)]
  | .vcmpne d _ _ _ _ => [.reg (.k d.toNat)]
  | .vcmplt d _ _ _ _ => [.reg (.k d.toNat)]
  | .vcmple d _ _ _ _ => [.reg (.k d.toNat)]
  | .vsel d _ _ _ _ => [.reg (.v d.toNat)]
  | .vbcast d _ _ _ => [.reg (.v d.toNat)]
  | .vextr d _ _ _ => [.reg (.s d.toNat)]
  | .vinsr d _ _ _ => [.reg (.v d.toNat)]
  | .vclmulLo d _ _ _ _ => [.reg (.v d.toNat)]
  | .vclmulHi d _ _ _ _ => [.reg (.v d.toNat)]
  | .vscanAdd d _ _ _ => [.reg (.v d.toNat)]
  | .vscanMin d _ _ _ => [.reg (.v d.toNat)]
  | .vscanMax d _ _ _ => [.reg (.v d.toNat)]
  | .vscanXor d _ _ _ => [.reg (.v d.toNat)]
  | .vscanAnd d _ _ _ => [.reg (.v d.toNat)]
  | .vscanOr d _ _ _ => [.reg (.v d.toNat)]
  | .vreduceAdd d _ _ _ => [.reg (.s d.toNat)]
  | .vreduceMin d _ _ _ => [.reg (.s d.toNat)]
  | .vreduceMax d _ _ _ => [.reg (.s d.toNat)]
  | .vreduceXor d _ _ _ => [.reg (.s d.toNat)]
  | .vreduceAnd d _ _ _ => [.reg (.s d.toNat)]
  | .vreduceOr d _ _ _ => [.reg (.s d.toNat)]
  | .vperm d _ _ _ _ => [.reg (.v d.toNat)]
  | .vcompress d _ _ _ => [.reg (.v d.toNat)]
  | .vexpand d _ _ _ => [.reg (.v d.toNat)]
  | .vmergeLo d _ _ m _ => [.reg (.v d.toNat), .reg (.mg m.toNat)]
  | .vmergeHi d _ _ m _ => [.reg (.v d.toNat), .reg (.mg m.toNat)]
  | .vmergekv d _ _ _ _ => [.reg (.v d.toNat)]
  | .vfadd d _ _ _ _ => [.reg (.v d.toNat)]
  | .vfsub d _ _ _ _ => [.reg (.v d.toNat)]
  | .vfmul d _ _ _ _ => [.reg (.v d.toNat)]
  | .vfma d _ _ _ _ => [.reg (.v d.toNat)]
  | .vfmin d _ _ _ _ => [.reg (.v d.toNat)]
  | .vfmax d _ _ _ _ => [.reg (.v d.toNat)]
  | .vcvt d _ _ _ _ _ _ => [.reg (.v d.toNat)]
  | .vamax d _ _ _ _ => [.reg (.v d.toNat)]
  | .vbqpack d _ _ _ _ => [.reg (.v d.toNat)]
  | .vbqunpk d _ _ _ _ => [.reg (.v d.toNat)]
  | .kand d _ _ => [.reg (.k d.toNat)]
  | .kor d _ _ => [.reg (.k d.toNat)]
  | .kxor d _ _ => [.reg (.k d.toNat)]
  | .knot d _ => [.reg (.k d.toNat)]
  | .kpop d _ _ => [.reg (.s d.toNat)]
  | .kset d _ _ => [.reg (.k d.toNat)]
  | .vmov d _ _ _ => [.reg (.v d.toNat)]
  | .vmovFromMg d _ => [.reg (.s d.toNat)]
  | .vmovToMg d _ => [.reg (.mg d.toNat)]
  | .vmovMaskLo d _ => [.reg (.s d.toNat)]
  | .vmovMaskHi d _ => [.reg (.s d.toNat)]
  | .fexp2 d _ _ _ => [.reg (.v d.toNat)]
  | .flog2 d _ _ _ => [.reg (.v d.toNat)]
  | .frcp d _ _ _ => [.reg (.v d.toNat)]
  | .frsq d _ _ _ => [.reg (.v d.toNat)]
  | .fsqrt d _ _ _ => [.reg (.v d.toNat)]
  | .frsqe d _ _ _ => [.reg (.v d.toNat)]
  | .ftanh d _ _ _ => [.reg (.v d.toNat)]
  | .fsig d _ _ _ => [.reg (.v d.toNat)]
  | .ferf d _ _ _ => [.reg (.v d.toNat)]
  | .scalegen s _ _ _ _ => [.reg (.sc s.toNat)]
  | .scld s _ _ => [.reg (.sc s.toNat)]
  | .mxcall o _ _ _ _ => [.tok o.toNat]
  | .mxjoin o _ _ _ => [.tok o.toNat]
  | .mxpart o _ _ _ => [.tok o.toNat]
  | .mxnorm o _ _ _ => [.tok o.toNat]
  | .mxzero o _ _ _ => [.tok o.toNat]
  | .mxrda o _ _ _ _ => [.tok o.toNat]
  | .mxwra o _ _ _ _ => [.tok o.toNat]
  | .mxwb o _ _ _ _ => [.tok o.toNat]
  | .mxucw o _ _ _ => [.tok o.toNat]
  | .xcopy o _ _ _ _ => [.tok o.toNat]
  | .xstore o _ _ _ _ => [.tok o.toNat]
  | .xweight o _ _ _ _ => [.tok o.toNat]
  | .xtrans o _ _ _ _ => [.tok o.toNat]
  | .xgather o _ _ _ _ => [.tok o.toNat]
  | .xkv o _ _ _ _ => [.tok o.toNat]
  | .xsend o _ _ _ _ => [.tok o.toNat]
  | .xred o _ _ _ _ => [.tok o.toNat]
  | .xdecomp o _ _ _ _ => [.tok o.toNat]
  | .xfill o _ _ _ _ => [.tok o.toNat]
  | .xcancel o _ _ _ _ => [.tok o.toNat]
  | _ => []

/-- The operation an instruction is in a bundle. -/
def slotEff : Instr → Eff
  | .br i => opBr i
  | .brz a i => opBrz a i
  | .brnz a i => opBrnz a i
  | .loop c n e => opLoop c n e
  | .loopReg c a e => opLoopReg c a e
  | .call d i => opCall d i
  | .callr d a => opCallr d a
  | .ret a => opRet a
  | .tend => opTend
  | .trap i => opTrap i
  | .eret => opEret
  | .eretSkip => opEretSkip
  | .waitt x y z => opWaitt x y z
  | .waitg a b => opWaitg a b
  | .drain s => opDrain s
  | .fenceT s => opFenceT s
  | .fenceSvDie => opFenceSvDie
  | .fenceSvModule => opFenceSvModule
  | .segchk c => opSegchk c
  | .sysr d i => opSysr d i
  | .sysw a i => opSysw a i
  | .yieldp => opYieldp
  | .shapepub a s => opShapepub a s
  | .shapepubClr s => opShapepubClr s
  | .ctlHint h x => opCtlHint h x
  | .add d a b => opAdd d a b
  | .sub d a b => opSub d a b
  | .and_ d a b => opAnd d a b
  | .or_ d a b => opOr d a b
  | .xor_ d a b => opXor d a b
  | .shl d a b => opShl d a b
  | .shr d a b => opShr d a b
  | .sar d a b => opSar d a b
  | .slt d a b => opSlt d a b
  | .sltu d a b => opSltu d a b
  | .seq d a b => opSeq d a b
  | .min d a b => opMin d a b
  | .max d a b => opMax d a b
  | .minu d a b => opMinu d a b
  | .maxu d a b => opMaxu d a b
  | .mul d a b => opMul d a b
  | .mulh d a b => opMulh d a b
  | .mulhu d a b => opMulhu d a b
  | .clmul d a b => opClmul d a b
  | .clmulh d a b => opClmulh d a b
  | .sel d a b c => opSel d a b c
  | .movi d i => opMovi d i
  | .movhi d p i => opMovhi d p i
  | .clz d a => opClz d a
  | .ctz d a => opCtz d a
  | .popc d a => opPopc d a
  | .sptest d a => opSptest d a
  | .spcastSp d a => opSpcastSp d a
  | .spcastCl d a => opSpcastCl d a
  | .gptr d a b => opGptr d a b
  | .gptrH d a b => opGptrH d a b
  | .padd d a b => opPadd d a b
  | .stg r p a => opStg r p a
  | .shf r p a => opShf r p a
  | .mpw r p a => opMpw r p a
  | .addi d a i => opAddi d a i
  | .andi d a i => opAndi d a i
  | .ori d a i => opOri d a i
  | .xori d a i => opXori d a i
  | .shli d a i => opShli d a i
  | .shri d a i => opShri d a i
  | .sari d a i => opSari d a i
  | .slti d a i => opSlti d a i
  | .sltui d a i => opSltui d a i
  | .seqi d a i => opSeqi d a i
  | .sHint h x => opSHint h x
  | .ld d a z x i => opLd d a z x i
  | .st b a z i => opSt b a z i
  | .vld d a i => opVld d a i
  | .vst b a k i => opVst b a k i
  | .vlds d a s k e => opVlds d a s k e
  | .vsts b a s k e => opVsts b a s k e
  | .vldx d a x k e => opVldx d a x k e
  | .vstx b a x k e => opVstx b a x k e
  | .ldl d a f r => opLdl d a f r
  | .amoAdd d a w q => opAmoAdd d a w q
  | .amoAnd d a w q => opAmoAnd d a w q
  | .amoOr d a w q => opAmoOr d a w q
  | .amoXor d a w q => opAmoXor d a w q
  | .amoMin d a w q => opAmoMin d a w q
  | .amoMax d a w q => opAmoMax d a w q
  | .amoMinu d a w q => opAmoMinu d a w q
  | .amoMaxu d a w q => opAmoMaxu d a w q
  | .amoSwap d a w q => opAmoSwap d a w q
  | .amoFadd d a q => opAmoFadd d a q
  | .cas d a w r => opCas d a w r
  | .redAdd a b w => opRedAdd a b w
  | .redAnd a b w => opRedAnd a b w
  | .redOr a b w => opRedOr a b w
  | .redXor a b w => opRedXor a b w
  | .redMin a b w => opRedMin a b w
  | .redMax a b w => opRedMax a b w
  | .redMinu a b w => opRedMinu a b w
  | .redMaxu a b w => opRedMaxu a b w
  | .redFadd a b => opRedFadd a b
  | .ldAcq d a z s => opLdAcq d a z s
  | .stRel b a z s => opStRel b a z s
  | .hingeRel c a b => opHingeRel c a b
  | .hingeAcq d a b => opHingeAcq d a b
  | .bgive h i n => opBgive h i n
  | .syncarm a b => opSyncarm a b
  | .spill b v s => opSpill b v s
  | .fill d v s => opFill d v s
  | .pref a n => opPref a n
  | .lsHint h x => opLsHint h x
  | .vadd d a b k e => opVadd d a b k e
  | .vsub d a b k e => opVsub d a b k e
  | .vmul d a b k e => opVmul d a b k e
  | .vmulh d a b k e => opVmulh d a b k e
  | .vmin d a b k e => opVmin d a b k e
  | .vmax d a b k e => opVmax d a b k e
  | .vabs d a k e => opVabs d a k e
  | .vand d a b k e => opVand d a b k e
  | .vor d a b k e => opVor d a b k e
  | .vxor d a b k e => opVxor d a b k e
  | .vandn d a b k e => opVandn d a b k e
  | .vshl d a b k e => opVshl d a b k e
  | .vshr d a b k e => opVshr d a b k e
  | .vsar d a b k e => opVsar d a b k e
  | .vadds d a b k e => opVadds d a b k e
  | .vsubs d a b k e => opVsubs d a b k e
  | .vcmpeq d a b k e => opVcmpeq d a b k e
  | .vcmpne d a b k e => opVcmpne d a b k e
  | .vcmplt d a b k e => opVcmplt d a b k e
  | .vcmple d a b k e => opVcmple d a b k e
  | .vsel d a b k e => opVsel d a b k e
  | .vbcast d a k e => opVbcast d a k e
  | .vextr d a b e => opVextr d a b e
  | .vinsr d a b e => opVinsr d a b e
  | .vclmulLo d a b k e => opVclmulLo d a b k e
  | .vclmulHi d a b k e => opVclmulHi d a b k e
  | .vscanAdd d a k e => opVscanAdd d a k e
  | .vscanMin d a k e => opVscanMin d a k e
  | .vscanMax d a k e => opVscanMax d a k e
  | .vscanXor d a k e => opVscanXor d a k e
  | .vscanAnd d a k e => opVscanAnd d a k e
  | .vscanOr d a k e => opVscanOr d a k e
  | .vreduceAdd d a k e => opVreduceAdd d a k e
  | .vreduceMin d a k e => opVreduceMin d a k e
  | .vreduceMax d a k e => opVreduceMax d a k e
  | .vreduceXor d a k e => opVreduceXor d a k e
  | .vreduceAnd d a k e => opVreduceAnd d a k e
  | .vreduceOr d a k e => opVreduceOr d a k e
  | .vperm d a b k e => opVperm d a b k e
  | .vcompress d a k e => opVcompress d a k e
  | .vexpand d a k e => opVexpand d a k e
  | .vmergeLo d a b m e => opVmergeLo d a b m e
  | .vmergeHi d a b m e => opVmergeHi d a b m e
  | .vmergekv d a b m e => opVmergekv d a b m e
  | .vfadd d a b k e => opVfadd d a b k e
  | .vfsub d a b k e => opVfsub d a b k e
  | .vfmul d a b k e => opVfmul d a b k e
  | .vfma d a b k e => opVfma d a b k e
  | .vfmin d a b k e => opVfmin d a b k e
  | .vfmax d a b k e => opVfmax d a b k e
  | .vcvt d a t r p s e => opVcvt d a t r p s e
  | .vamax d a p k e => opVamax d a p k e
  | .vbqpack d a s b e => opVbqpack d a s b e
  | .vbqunpk d a s b e => opVbqunpk d a s b e
  | .kand d a b => opKand d a b
  | .kor d a b => opKor d a b
  | .kxor d a b => opKxor d a b
  | .knot d a => opKnot d a
  | .kpop d a e => opKpop d a e
  | .kset d a b => opKset d a b
  | .vmov d a k e => opVmov d a k e
  | .vmovFromMg d a => opVmovFromMg d a
  | .vmovToMg d a => opVmovToMg d a
  | .vmovMaskLo d a => opVmovMaskLo d a
  | .vmovMaskHi d a => opVmovMaskHi d a
  | .vHint h x => opVHint h x
  | .fexp2 d a k e => opFexp2 d a k e
  | .flog2 d a k e => opFlog2 d a k e
  | .frcp d a k e => opFrcp d a k e
  | .frsq d a k e => opFrsq d a k e
  | .fsqrt d a k e => opFsqrt d a k e
  | .frsqe d a b x => opFrsqe d a b x
  | .ftanh d a k e => opFtanh d a k e
  | .fsig d a k e => opFsig d a k e
  | .ferf d a k e => opFerf d a k e
  | .scalegen s a h k e => opScalegen s a h k e
  | .scld s a d => opScld s a d
  | .tbld t a => opTbld t a
  | .sfHint h x => opSfHint h x
  | .mxcall o x y e s => opMxcall o x y e s
  | .mxjoin o x y s => opMxjoin o x y s
  | .mxpart o x y s => opMxpart o x y s
  | .mxnorm o x y s => opMxnorm o x y s
  | .mxzero o x y s => opMxzero o x y s
  | .mxrda o x y e s => opMxrda o x y e s
  | .mxwra o x y e s => opMxwra o x y e s
  | .mxwb o x y e s => opMxwb o x y e s
  | .mxucw o x y s => opMxucw o x y s
  | .mxHint h x => opMxHint h x
  | .xcopy o x y z s => opXcopy o x y z s
  | .xstore o x y z s => opXstore o x y z s
  | .xweight o x y z s => opXweight o x y z s
  | .xtrans o x y z s => opXtrans o x y z s
  | .xgather o x y z s => opXgather o x y z s
  | .xkv o x y z s => opXkv o x y z s
  | .xsend o x y z s => opXsend o x y z s
  | .xred o x y z s => opXred o x y z s
  | .xdecomp o x y z s => opXdecomp o x y z s
  | .xfill o x y z s => opXfill o x y z s
  | .xcancel o x y z s => opXcancel o x y z s
  | .xfHint h x => opXfHint h x
  | _ => fun _ _ _ => flt codeIllegal

/-- The instruction a word stands for at a slot position (R331-R337). -/
def decodeSlot (p w : Nat) : Except DecodeError Instr :=
  match p with
  | 0 => decodeCtl w
  | 1 => decodeS w
  | 2 => decodeS w
  | 3 => decodeLs w
  | 4 => decodeV w
  | 5 => decodeV w
  | 6 => decodeMx w
  | 7 => decodeXf w
  | 8 => decodeSf w
  | _ => .error .reservedOpcode

/-- Whether a word is a bundle header (R320). -/
def headerOk (w : Nat) : Bool := bitsOf w 26 6 == 0x2D && bitsOf w 10 6 == 0

/-- The slot positions a header's MASK names, ascending. -/
def slotsOf (w : Nat) : List Nat := (List.range 9).filter (bitAt w)

/-- The bundle at a core's PC, as it is fetched from the bundle store (R321, R323, R326): a fault of the header or of its
place, or the header and the words of its slots with their positions. -/
def fetchBundle (s : State) (c : Nat) : Except (BitVec 8) (Nat × List (Nat × Nat)) :=
  match imageOf s c with
  | none => .error codeBounds
  | some im =>
    let off := fieldW (coreAt s c).b.r.pc 0 40 - im.codeOff
    let word := fun (i : Nat) => leNat (s.mem.bytes (storeKey c (off + 4 * i)) 4)
    if im.codeLen < off + 4 then .error codeBounds
    else if !headerOk (word 0) then .error codeIllegal
    else if im.codeLen < off + bundleLen (word 0) then .error codeBounds
    else .ok (word 0, ((List.range 9).zip (slotsOf (word 0))).map (fun x => (x.2, word (x.1 + 1))))

/-- The bundle's own checks of its words, in slot order (R323 steps 3 and 4): the first slot that fails, with its code;
`seen` holds the destinations of the slots before. -/
def checkWords : List BDst → List (Nat × Nat) → Option (BitVec 8 × Nat)
  | _, [] => none
  | seen, (p, w) :: t =>
    match decodeSlot p w with
    | .error _ => some (codeIllegal, p)
    | .ok i =>
      if (slotDsts i).any (fun d => seen.any (bdstMeets d)) then some (codeConflict, p)
      else checkWords (seen ++ slotDsts i) t

/-- The operations of the words that decode. -/
def bundleEffs (l : List (Nat × Nat)) : List (Nat × Eff) :=
  l.filterMap (fun x => match decodeSlot x.1 x.2 with | .ok i => some (x.1, slotEff i) | .error _ => none)

/-- Describe the bundle at PC on every core of a group (R320). -/
def setHeader (g : List Nat) (hdr : Nat) (words : List Nat) (s : State) : State :=
  onCores (fun q s => updBody s q (fun b =>
    { b with hdrIdle := bitsOf hdr 16 10, hdrCkpt := bitAt hdr 9, hdrLen := bundleLen hdr, hdrWords := hdr :: words })) g s

/-- BUNDLE_ISSUE (R323): the next bundle of a core or lockstep group is fetched, checked and issued. -/
def issueBundle (c : Nat) (s : State) : State :=
  let g := groupOf s c
  let lead := g.headD c
  match fetchBundle s lead with
  | .error code => issueSlots c [] (some (code, 15)) s
  | .ok (hdr, l) => issueSlots c (bundleEffs l) (checkWords [] l) (setHeader g hdr (l.map (·.2)) s)

/-- Whether a group is paused with a cause. -/
def pausedFor (cause : Nat) (g : List Nat) (c : Nat) (s : State) : Bool := (coreAt s (g.headD c)).b.pause.map (fun p => p.cause) == some cause

/-- The group as if it did not pause. -/
def unpause (g : List Nat) (s : State) : State := onCores (fun q s => updBody s q (fun b => { b with pause := none })) g s

/-- CHECKPOINT (R249, R250, R253): the error checks of a CKPT bundle have completed. The phase that ends is judged; then the
state is copied, the commit queue released, and the bundle may issue. A bundle that meanwhile has come to fault takes no checkpoint. -/
def takeCheckpoint (c : Nat) (s : State) : State :=
  let g := groupOf s c
  if !pausedFor 12 g c s ∨ g.any (fun q => (coreAt s q).b.detected.isSome) then s
  else if !pausedFor 12 g c (issueBundle c (unpause g s)) then clearPause g s
  else
    let r := judgePhase g (clearPause g s)
    if r.2 then
      let s := g.foldl (fun s q => updBody s q copyCkpt) r.1
      let s := g.foldl (fun s q => releaseQueue q s) s
      onCores (fun q s => updBody s q (fun b => { b with ckptDone := true })) g s
    else r.1

/-- CHECKPOINT. -/
def execCheckpoint (c : Nat) (s : State) : Host.Outcome State Fault Refusal := .next (takeCheckpoint c s)

/-- PAUSE_END (R279): a pause whose condition no longer holds ends; TEND's wait for landings ends with the task's last
steps. The condition is that of the bundle that pauses, which pauses again while it holds. -/
def endPause (c : Nat) (s : State) : State :=
  let g := groupOf s c
  match (coreAt s (g.headD c)).b.pause with
  | none => s
  | some p =>
    if inTend s (g.headD c) then (if p.cause = 13 then tendLand g s else tendGo g s)
    else
      let tried := issueBundle c (unpause g s)
      if pausedFor p.cause g c tried then onCores (fun q s => updBody s q (fun b => { b with pause := some p })) g tried else clearPause g s

/-- BUNDLE_ISSUE. -/
def execBundleIssue (c : Nat) (s : State) : Host.Outcome State Fault Refusal := .next (issueBundle c s)

/-- PAUSE_END. -/
def execPauseEnd (c : Nat) (s : State) : Host.Outcome State Fault Refusal := .next (endPause c s)

end Sys2Proof.Machine
end

