-- ==== Sys2Proof/Machine/Tasks.lean ====
section
/-!
DEFINITION. Sys2Proof/Machine/Tasks.lean: the ways a task is ended from outside: KILL (R73), a squash (R165) and the
retirement of a cluster (R70, R148, R254); and the freeze that begins a hard pre-emption (R155).
-/

namespace Sys2Proof.Machine

/-- The leading cores of the running tasks a test accepts. -/
def leadsOf (p : Nat → Task → Bool) (s : State) : List Nat :=
  (s.cores.cells.filter (fun x => match x.2.b.task with | some t => p x.1 t && (!t.group || coreCic x.1 == 0) | none => false)).map (·.1)

/-- Drop the engine commands of a core's task; their tokens end FAULT with TRAP (R73). -/
def killCmds (c : Nat) (s : State) : State :=
  updBody s c (fun b =>
    let xs := b.xfQ.filter (fun x => x.orphan)
    { b with
      mxQ := b.mxQ.filter (fun m => m.orphan), xfQ := xs,
      wbQ := b.wbQ.filter (fun w => xs.any (fun x => x.tok == w.tok && x.vcc == w.vcc)),
      r := { b.r with toks := (List.range 64).foldl (fun t i =>
        let r := t.get .free i
        if r.used && r.status == .pending then t.set .free i { r with status := .fault, code := codeTrap, progress := 0 } else t) b.r.toks } })

/-- A running task ends as a KILL ends it (R73): at a bundle boundary, with its commit queue and held effects discarded. -/
def killTask (c : Nat) (s : State) : State :=
  let g := groupOf s c
  leaveTask g (g.foldl (fun s q => killCmds q s) s)

/-- Drop a core's saved frames that a test accepts. -/
def dropFrames (p : Task → Bool) (c : Nat) (s : State) : State :=
  let gone := (coreAt s c).frames.filterMap (fun f => f.body.task.bind (fun t => if p t then some t else none))
  let s := updCore s c (fun k => { k with
    frames := k.frames.filter (fun f => match f.body.task with | some t => !p t | none => true),
    slots := gone.foldl (fun m t => m &&& ~~~ (1#32 <<< t.slot)) k.slots })
  (gone.filter (fun t => !t.group || coreCic c == 0)).foldl (fun s t => updLaunch s t.launch (fun l => { l with live := l.live - 1 })) s

/-- Drop the saved frames of every core that a test accepts. -/
def dropSaved (p : Task → Bool) (s : State) : State := s.cores.keys.foldl (fun s c => dropFrames p c s) s

/-- End the running and saved tasks of a launch (R73). -/
def killLaunch (l : Nat) (s : State) : State :=
  dropSaved (fun t => t.launch == l) ((leadsOf (fun _ t => t.launch == l) s).foldl (fun s c => killTask c s) s)

/-- Drop the shares a test accepts, wherever they stand: at a dispatcher, at a sequencer, or on their way. -/
def dropShares (p : Share → Bool) (s : State) : State :=
  let disps := s.disps.cells.map (fun x => (x.1, { x.2 with
    shares := x.2.shares.filter (fun h => !p h),
    reserved := match x.2.reserved with | some l => (if x.2.shares.any (fun h => h.launch == l && p h) then none else some l) | none => none }))
  { s with
    disps := { cells := disps },
    waiting := { cells := s.waiting.cells.map (fun x => (x.1, x.2.filter (fun h => !p h))) },
    packets := s.packets.filter (fun k => match k.body with | .share h _ => !p h | _ => true) }

/-- Every share of the machine. -/
def allShares (s : State) : List Share :=
  s.disps.cells.flatMap (fun x => x.2.shares) ++ s.waiting.cells.flatMap (fun x => x.2) ++
    s.packets.filterMap (fun k => match k.body with | .share h _ => some h | _ => none)

/-- What a launch failure that no task raised gives as its core (R98, R148). -/
def noCore : Nat := 0x1FF

/-! ### Retirement (R70, R148, R254, R267) -/

/-- The bit of RETIRED that stands for a physical cluster (R267). -/
def retiredBit (cl : Nat) : Nat := if cl / 16 < 4 then 12 * (cl / 16) + cl % 16 else 48 + 8 * (cl / 16 - 4) + cl % 16

/-- Whether a cluster is retired. -/
def isRetired (s : State) (cl : Nat) : Bool := s.mod.db.retired.getLsbD (retiredBit cl)

/-- Clear VALID in every map entry that names a cluster (R70). -/
def unmapCluster (cl : Nat) (s : State) : State :=
  { s with maps := { cells := (s.maps.cells.map (fun x => (x.1, if x.2.toNat = 128 + cl then x.2 - 128 else x.2))).filter (fun x => x.2 != 0) } }

/-- The launches with tasks running or saved on a cluster, or shares for it. -/
def launchesOn (cl : Nat) (s : State) : List Nat :=
  ((allShares s).filter (fun h => h.cl == cl)).map (fun h => h.launch) ++
  (List.range 4).flatMap (fun q =>
    let k := coreAt s (clusterCore cl q)
    (match k.b.task with | some t => [t.launch] | none => []) ++ k.frames.filterMap (fun f => f.body.task.map (fun t => t.launch)))

/-- Retire a cluster (R254): its tasks end, running and saved, its launches fail with CLUSTER_RETIRED, its tasks not yet
started are never dispatched, and its map entry is cleared. -/
def retireCluster (cl : Nat) (s : State) : State :=
  let ls := (launchesOn cl s).eraseDups
  let s := (leadsOf (fun c _ => coreCluster c == cl) s).foldl (fun s c => killTask c s) s
  let s := (List.range 4).foldl (fun s q => dropFrames (fun _ => true) (clusterCore cl q) s) s
  let s := ls.foldl (fun s l => failLaunch l codeRetired noCore s) (dropShares (fun h => h.cl == cl) s)
  let s := unmapCluster cl s
  { s with mod := { s.mod with db := { s.mod.db with retired := s.mod.db.retired ||| (1#80 <<< retiredBit cl) } } }

/-! ### Freezing a task for a save (R153, R155) -/

/-- Whether a core's task may be hard-pre-empted: it has not passed step 3 of TEND, and every core of its group has a save
frame free (R153, R356). -/
def mayFreeze (s : State) (c : Nat) : Bool :=
  match taskOf s c with
  | none => false
  | some t => (match t.stage with | .tend n => decide (n < 4) | .saving _ => false | _ => true) &&
      (groupOf s c).all (fun q => decide ((coreAt s q).frames.length < 2))

/-- Freeze a task: it issues nothing more until it resumes. A pause for late data goes on until the data is there. -/
def freezeTask (c : Nat) (s : State) : State :=
  let g := groupOf s c
  let s := if (match (coreAt s c).b.pause with | some p => p.cause == 1 | none => true) then s else clearPause g s
  setStage g (.saving (inTend s c)) s

/-- Hard-pre-empt a core's task where it may be. -/
def preemptTask (c : Nat) (s : State) : State := if mayFreeze s c then freezeTask c s else s

end Sys2Proof.Machine
end

