-- ==== Sys2Proof/Machine/CoreEvents.lean ====
section
/-!
DEFINITION. Sys2Proof/Machine/CoreEvents.lean: the events of a core that are no bundle: its checkpoints (R249), landings
(R278), rollbacks and retirements (R251-R254), scrubbing (R257), banks (R26, R27), decode tables (R417), and the steps of
its engines (R421, R439, R445, R448).
-/

namespace Sys2Proof.Machine

/-! ### Landings (R277, R278) -/

/-- Change the landing with a number wherever a core keeps it: in force, in the checkpoint copy, in the shadow latches, with
the atomics of a checkpoint bundle. -/
def mapLands (id : Nat) (f : Landing → Landing) (b : Body) : Body :=
  let g := fun (l : List Landing) => l.map (fun x => if x.id = id then f x else x)
  { b with
    r := { b.r with lands := g b.r.lands }, ckpt := b.ckpt.map (fun k => { k with lands := g k.lands }),
    ckptH := (b.ckptH.1, b.ckptH.2.1, b.ckptH.2.2.1, g b.ckptH.2.2.2), latchedL := g b.latchedL, amoKeep := g b.amoKeep }

/-- Change it in the running task and in the saved ones (R295). -/
def updLanding (c id : Nat) (f : Landing → Landing) (s : State) : State :=
  updCore s c (fun k => { k with b := mapLands id f k.b, frames := k.frames.map (fun x => { x with body := mapLands id f x.body }) })

/-- LANDING_ARRIVAL (R278): data that has reached the core's port arrives in its landing entry. -/
def execLandingArrival (c id : Nat) (s : State) : Host.Outcome State Fault Refusal :=
  .next (updLanding c id (fun x => if x.data.isNone then { x with data := x.resp } else x) s)

/-! ### Checkpoints, rollback and retirement -/

/-- The first core of a group with a detected error, and the error. -/
def detectedIn (g : List Nat) (s : State) : Option (Nat × BitVec 8 × Word × Word) :=
  (g.filterMap (fun q => (coreAt s q).b.detected.map (fun d => (q, d.1, d.2.1, d.2.2)))).head?

/-- Whether a group's task may be rolled back now: it runs, or stands in TEND before its release. -/
def rollable (s : State) (c : Nat) : Bool :=
  match taskOf s c with
  | some t => (match t.stage with | .running => true | .tend n => decide (n < 4) | _ => false)
  | none => false

/-- ROLLBACK (R252): a detected error freezes the group and returns it to its checkpoint, in check mode. In a NOROLL phase
the task takes the code as a precise fault with no handler (R250). A consumption that repeats in a rerun is a precise
fault (R253); any other error of a rerun is left to the retirement. -/
def rollBack (c : Nat) (s : State) : State :=
  let g := groupOf s c
  match detectedIn g s, rollable s c with
  | some (q, code, pc, ptr), true =>
    let s := clearPause g s
    let b := (coreAt s (g.headD c)).b
    let entry := errEntry code 0 q (taskPart s c) false false false pc.toNat s.us
    if b.check.isSome then
      if g.any (fun q => repeatsPoison (coreAt s q).b) then
        takeFault g (faultHere s (g.headD c) codePoison 15 none ptr) (setStage g .running (dropCheck g s))
      else s
    else if g.any (fun q => (coreAt s q).b.noroll) then
      endFaulted g code (onCores (fun q s => updBody s q (fun b => recordFault b code 15 none 0 pc ptr b.r.vcc)) g (logErr entry s))
    else
      let m : CheckMode :=
        { rerun := 1, first := none, code := code, pc0 := pc, next := 0, crcB := 0, slot := s.mod.errnext.toNat, entry := entry }
      let s := logErr entry s
      setStage g .running (g.foldl (fun s q => countErr q 2 (updBody (dropBehind q s) q (beginRerun m))) s)
  | _, _ => s

/-- ROLLBACK. -/
def execRollback (c : Nat) (s : State) : Host.Outcome State Fault Refusal := .next (rollBack c s)

/-- CLUSTER_RETIREMENT (R253, R254): a rerun that raised a detected error, or whose signature disagrees, retires its
cluster. -/
def retireAfterRerun (cl : Nat) (s : State) : State :=
  match (List.range 4).find? (fun q =>
    let b := (coreAt s (clusterCore cl q)).b
    b.check.isSome && b.detected.isSome && !repeatsPoison b) with
  | none => s
  | some q =>
    let c := clusterCore cl q
    match (coreAt s c).b.detected with
    | some (code, pc, _) => logErr (errEntry code 0 c (taskPart s c) true false false pc.toNat s.us) (retireCluster cl s)
    | none => s

/-- CLUSTER_RETIREMENT. -/
def execClusterRetirement (cl : Nat) (s : State) : Host.Outcome State Fault Refusal := .next (retireAfterRerun cl s)

/-! ### The scratchpad -/

/-- SCRATCHPAD_SCRUB (R257): the scrubber reads a sector of a READY bank; a single-bit error is corrected and counted, an
uncorrectable sector is poisoned, counted and logged. -/
def scrubSector (c sector : Nat) (found : ScrubFind) (s : State) : State :=
  if 2 ^ 17 ≤ sector ∨ !(coreAt s c).ready.getLsbD (sector / 2 ^ 12) then s
  else match found with
  | .clean => s
  | .corrected => countErr c 0 s
  | .uncorrectable =>
    let s := poisonLoc s (.flat (spadKey c (32 * sector))) 32
    logErr (errEntry codeDataUe 0 c (taskPart s c) false false false (32 * sector / 2 ^ 16) s.us) (countErr c 1 s)

/-- SCRATCHPAD_SCRUB. -/
def execScratchpadScrub (c sector : Nat) (found : ScrubFind) (s : State) : Host.Outcome State Fault Refusal :=
  .next (scrubSector c sector found s)

/-- SPGATE_WRITE (R26, R27): the write of a core's SPGATE through the management window. -/
def execSpgateWrite (c : Nat) (v : BitVec 64) (s : State) : Host.Outcome State Fault Refusal :=
  .next (if coreExists c then writeSpgate s c v else s)

/-- BANK_WAKE_COMPLETE (R27): a bank whose GATE bit is clear and that is not READY has zero-filled and becomes READY. -/
def finishWake (c bank : Nat) (s : State) : State :=
  if bank < 32 ∧ !(coreAt s c).gate.getLsbD bank ∧ !(coreAt s c).ready.getLsbD bank then
    updCore s c (fun k => { k with ready := k.ready ||| (1#32 <<< bank) })
  else s

/-- BANK_WAKE_COMPLETE. -/
def execBankWakeComplete (c bank : Nat) (s : State) : Host.Outcome State Fault Refusal := .next (finishWake c bank s)

/-! ### The engines -/

/-- DECODE_TABLE_COMPLETE (R417): a local load completes six clocks after issue; a global one when its bytes have arrived.
A poisoned byte is consumed. -/
def finishTable (c ts : Nat) (s : State) : State :=
  let t := tabSlot (coreAt s c).b ts
  if !t.loading ∨ t.due = 0 ∨ s.clk < t.due then s
  else
    let s := updBody s c (setTab ts { t with loading := false, due := 0, stamp := 0, bad := false })
    if t.bad then detect c codePoison s else s

/-- DECODE_TABLE_COMPLETE. -/
def execDecodeTableComplete (c ts : Nat) (s : State) : Host.Outcome State Fault Refusal := .next (finishTable c ts s)

/-- ENGINE_COMMAND_START (R421): the command at the head of the matrix engine, or a queued copy command. -/
def startCommand (c tok : Nat) (s : State) : State :=
  match mxHead s c with
  | some m => if m.tok = tok ∧ !m.started then beginMx c tok s else (match xfFind s c tok false with | some x => beginXf c x s | none => s)
  | none => match xfFind s c tok false with | some x => beginXf c x s | none => s

/-- ENGINE_COMMAND_START. -/
def execEngineCommandStart (c tok : Nat) (s : State) : Host.Outcome State Fault Refusal := .next (startCommand c tok s)

/-- ENGINE_LINE_PERFORM (R445). -/
def execEngineLinePerform (c tok line : Nat) (s : State) : Host.Outcome State Fault Refusal := .next (performXf c tok line s)

/-- WEIGHT_BLOCK_EXPAND (R292, R448). -/
def execWeightBlockExpand (c : Nat) (s : State) : Host.Outcome State Fault Refusal := .next (expandWeight c s)

/-- MATRIX_COMMAND_END (R421). -/
def execMatrixCommandEnd (c : Nat) (s : State) : Host.Outcome State Fault Refusal := .next (finishMx c s)

/-- PEER_READ_COMPLETION (R60): a storage peer's completion for one of a command's open requests, numbered in the order they left. -/
def execPeerReadCompletion (c : Nat) (q : PeerReq) (st : PeerStatus) (data : List (BitVec 8)) (s : State) : Host.Outcome State Fault Refusal :=
  .next (peerData c q.tok q.req st data s)

/-- PEER_READ_TIMEOUT (R60): a peer read with no completion for 50 ms. -/
def execPeerReadTimeout (c tok : Nat) (s : State) : Host.Outcome State Fault Refusal :=
  .next (match xfFind s c tok true with | some x => if peerLate s c x then tokTimeout c x s else s | none => s)

/-- REMOTE_REQUEST_TIMEOUT (R46): a link request with no response for 100 µs. -/
def execRemoteRequestTimeout (c tok : Nat) (s : State) : Host.Outcome State Fault Refusal :=
  .next (match xfFind s c tok true with | some x => if (x.op = 7 ∨ x.op = 8) ∧ remoteLate s x = true then tokTimeout c x s else s | none => s)

/-! ### Micro-words (R439) -/

/-- MLOADA. -/
def execMloada (ra : BitVec 3) (tr ic : BitVec 1) (s : State) : Host.Outcome State Fault Refusal := .next (runMloada ra tr ic s.curCore s)
/-- MLOADB. -/
def execMloadb (ra : BitVec 3) (tr : BitVec 1) (s : State) : Host.Outcome State Fault Refusal := .next (runMloadb ra tr s.curCore s)
/-- MSCALE. -/
def execMscale (ra rb : BitVec 3) (s : State) : Host.Outcome State Fault Refusal := .next (runMscale ra rb s.curCore s)
/-- MSKIP. -/
def execMskip (x : BitVec 16) (s : State) : Host.Outcome State Fault Refusal := .next (runMskip x s.curCore s)
/-- MNEXT. -/
def execMnext (ra rb : BitVec 3) (s : State) : Host.Outcome State Fault Refusal := .next (runMnext ra rb s.curCore s)
/-- MLOOP. -/
def execMloop (ct : BitVec 2) (x : BitVec 16) (s : State) : Host.Outcome State Fault Refusal := .next (runMloop ct x s.curCore s)
/-- MNORM. -/
def execMnorm (x : BitVec 8) (s : State) : Host.Outcome State Fault Refusal := .next (runMnorm x s.curCore s)
/-- MMAC. -/
def execMmac (s : State) : Host.Outcome State Fault Refusal := .next (runMac false s.curCore s)
/-- MMACT. -/
def execMmact (s : State) : Host.Outcome State Fault Refusal := .next (runMac true s.curCore s)
/-- MBCAST. -/
def execMbcast (s : State) : Host.Outcome State Fault Refusal := .next (runMbcast s.curCore s)
/-- MEND. -/
def execMend (s : State) : Host.Outcome State Fault Refusal := .next (runMend s.curCore s)
/-- MSYNC. -/
def execMsync (s : State) : Host.Outcome State Fault Refusal := .next (runMsync s.curCore s)

end Sys2Proof.Machine
end

