-- ==== Sys2Proof/Machine/Contexts.lean ====
section
/-!
DEFINITION. Sys2Proof/Machine/Contexts.lean: what the sequencers do to a stream context beside its instructions: the vectors
of its partition (R76), and stream faults (R96, R98).
-/

namespace Sys2Proof.Machine

/-- The die of a context; contexts 64 to 95 are the pseudo-contexts in which recipe sub-streams run, four for each die
(R131, R168). -/
def ctxDie (c : Nat) : Nat := if c < 64 then c / 8 else (c - 64) / 4

/-- Whether a context number names a context. -/
def ctxExists (c : Nat) : Bool := decide (c < 64)

/-- Send vector `v` of a partition, if its range has one (R76). -/
def sendVec (part v : Nat) (s : State) : State :=
  let p := partOf s part
  if v < p.veccount.toNat then sendMsix (p.vecbase.toNat + v) s else s

/-- The chain registers after a RECIPE_DEPTH or RECIPE_INVALID that a recipe chain raised (R98, R131). -/
def setChain (c : Nat) (chain : List Nat) (s : State) : State :=
  if chain = [] then s
  else updCtx s c (fun x => { x with chain := chain.take 8, fdepth := BitVec.ofNat 4 (Nat.min 8 chain.length) })

/-- A context reaches FAULTED (R72): its vector is sent, and the error log gains an entry of its sequencer (R268), for
which the spec states no DETAIL. -/
def ctxFaulted (c : Nat) (code : BitVec 8) (s : State) : State :=
  let s := updCtx s c (fun x => { x with run := false, fault := code, state := .faulted, wait := none, bracket := none, ending := false })
  let x := ctx s c
  let detail := (Config.freeValue s.free).toNat
  let s := { s with free := s.free + 1 }
  logErr (errEntry code 2 (64 * ctxDie c) x.part.toNat false false false detail s.us) (sendVec x.part.toNat x.vec.toNat s)

/-- The re-issue whose sub-stream runs in a pseudo-context fails. -/
def failSub (h : Nat) (s : State) : State :=
  { s with reissues := s.reissues.map (fun r => if r.h = h then { r with failed := true } else r) }

/-- Take a stream fault at an instruction boundary (R96, R98). `len` is the length of the instruction that raised it, zero for
an asynchronous fault; `next` is where its FPC stands. A fault inside a recipe sub-stream ends the sub-stream. -/
def streamFault (c : Nat) (code : BitVec 8) (info : Word) (len : Nat) (chain : List Nat) (s : State) : State :=
  let x := ctx s c
  match x.sub with
  | some h => failSub h (updCtx s c (fun x => { x with state := .ended, wait := none }))
  | none =>
    let s := snapFault code (setChain c chain s)
    let s := updCtx s c (fun x => { x with fcode := code, finfo := info, fpc := x.pc, flen := len, bracket := none, wait := none, woken := false, mret := false, ending := false })
    match x.handler, x.inh with
    | some p, false => updCtx s c (fun x => { x with inh := true, pc := p, state := if x.state = .stopping then .stopping else .running })
    | _, _ => ctxFaulted c code s

/-- The handle a global pointer names. -/
def ptrH (p : Word) : Nat := fieldW p 40 23
/-- The byte offset of a global pointer. -/
def ptrO (p : Word) : Nat := fieldW p 0 40
/-- Whether a word is a global pointer. -/
def isGlobal (p : Word) : Bool := bitAt p.toNat 63
/-- The global pointer to a byte of a tensor. -/
def globalPtr (h o : Nat) : Word := BitVec.ofNat 64 (2 ^ 63 + h % 2 ^ 23 * 2 ^ 40 + o % 2 ^ 40)

/-- Whether a handle names a tensor of a partition that has not been freed (R103, R115, R122). -/
def declared (s : State) (part h : Nat) : Bool :=
  let r := trec s h
  r.state != .free && !r.freeing && r.part.toNat == part && !isPageTable h

end Sys2Proof.Machine
end

