-- ==== Sys2Proof/Machine/Residency.lean ====
section
/-!
DEFINITION. Sys2Proof/Machine/Residency.lean: what the Hasp does to tensors: pins (R181), use lists (R124, R172), the release
of a record (R122), drops, spills, compressions and restores (R184-R194), and materialisation (R131, R195-R200).
-/

namespace Sys2Proof.Machine

/-! ### Pins (R144, R181) -/

/-- Whether a tensor is pinned: by a launch or re-issue, a TPIN entry, or a page lock (R181). -/
def isPinned (s : State) (h : Nat) : Bool :=
  (trec s h).pincnt != 0 || (hasp s (handleDie h)).pins.any (fun p => ptrH p.ptr == h) || isLocked s h

/-- Take a pin: an eviction action in progress is abandoned (R181, R189). -/
def pin (h : Nat) (s : State) : State := updRec (abandonMove h s) h (fun r => { r with pincnt := r.pincnt + 1 })

/-! ### Recipes (R195, R198) -/

/-- The key of a recipe store entry of a die. -/
def recipeKey (d i : Nat) : Nat := d * 2 ^ 18 + i

/-- The stored recipe of a tensor. -/
def recipeOf (s : State) (h : Nat) : Option Recipe := (trec s h).recix.map (fun i => s.recipes.get .zero (recipeKey (handleDie h) i))

/-- The inputs of a tensor's recipe, the code tensor first. -/
def inputsOf (s : State) (h : Nat) : List (Nat × BitVec 32) := match recipeOf s h with | some r => r.inputs | none => []

/-- Whether a tensor's recipe is valid (R195). -/
def validRecipe (s : State) (h : Nat) : Bool :=
  let r := trec s h
  r.rvalid && !r.lost && r.recix.isSome &&
    (inputsOf s h).all (fun i => (trec s i.1).state != .free && !(trec s i.1).freeing && (trec s i.1).gen == i.2)

/-- The DROPPED tensors that the dependent tables list for an input: those whose recipes name it (R187, R188). -/
def dependents (s : State) (h : Nat) : List Nat :=
  (s.recs.cells.filter (fun x => x.2.state == .dropped && !x.2.lost && !x.2.freeing && (inputsOf s x.1).any (fun i => i.1 == h))).map (·.1)

/-- The entries of a die's dependent table (R188). -/
def dependentCount (s : State) (d : Nat) : Nat :=
  (s.recs.cells.map (fun x => if x.2.state = .dropped ∧ x.2.lost = false ∧ x.2.freeing = false then ((inputsOf s x.1).filter (fun i => handleDie i.1 == d)).length else 0)).sum

/-- A tensor leaves DROPPED, is freed or becomes LOST: its entries leave its inputs' dependent tables (R188, R197). Those of a tensor that
TFREE has freed left at once (R200). -/
def dropEntries (h : Nat) (s : State) : State :=
  if (trec s h).freeing then s else (inputsOf s h).foldl (fun s i => updRec s i.1 (fun r => { r with rhcnt := if r.rhcnt = 0 then 0 else r.rhcnt - 1 })) s

/-- A tensor that cannot be recomputed (R196). -/
def markLost (h : Nat) (s : State) : State := updRec (dropEntries h s) h (fun r => { r with lost := true })

/-- Free the recipe store entry of a tensor (R198). -/
def freeRecipe (h : Nat) (s : State) : State :=
  match (trec s h).recix with
  | some i => updRec { s with recipes := s.recipes.set .zero (recipeKey (handleDie h) i) .zero } h (fun r => { r with recix := none, rvalid := false })
  | none => s

/-! ### Bytes and parity (R187, R261, R262) -/

/-- Make every byte of a tensor read zero, unpoisoned. -/
def zeroTensor (h : Nat) (s : State) : State :=
  (List.range (pagesOf (trec s h).bytes)).foldl (fun s i =>
    let k := byteKey s h (65536 * i)
    { s with mem := s.mem.zeroRange k 65536, poison := s.poison.keep (fun q _ => !(decide (k / 32 ≤ q) && decide (q < k / 32 + 2048))) }) s

/-- The bytes of a page of a tensor. -/
def pageBytes (s : State) (h page : Nat) : List Byte := s.mem.bytes (byteKey s h (65536 * page)) 65536

/-- Send a page's contents as deltas, where it is protected: when a slot is assigned, and when it is taken back (R262). -/
def pageContents (h page : Nat) (s : State) : State :=
  let b := pageBytes s h page
  if b.all (fun x => x == 0) then s else pageDelta s h page 0 b

/-- The next slot of a die that holds no page and whose stripe's parity lies elsewhere: `own` of `m` (R261, R265). -/
def freeSlot (t : Tab (Nat × Nat)) (d total m own : Nat) : Option Nat :=
  let used := (t.cells.filter (fun x => decide (x.1 / 2 ^ 24 = d))).map (fun x => x.1 % 2 ^ 24)
  let top := match used.getLast? with | some k => k + 1 | none => 0
  let top := if top % m = own then top + 1 else top
  if top < total then some top else (List.range total).find? (fun k => k % m != own && !used.contains k)

/-- Assign data slots to a page of a survivable tensor, as far as slots are free (R261, R265); a slot newly assigned gets the page's contents
as a delta (R262). -/
def assignPage (h i : Nat) (s : State) : State :=
  let r := trec s h
  if !r.surv then s
  else
    let d := handleDie h
    let b := pageBytes s h i
    let send := fun (f : State → State) (s : State) => if b.all (fun x => x == 0) then s else f s
    let s := match slotOf s.mod.db.slots h i, freeSlot s.mod.db.slots d s.mod.db.dbslots.toNat 8 d with
      | none, some k => send (dieDelta h i 0 b) { s with mod := { s.mod with db := { s.mod.db with slots := s.mod.db.slots.set (0, 0) (d * 2 ^ 24 + k) (h, i) } } }
      | _, _ => s
    if !r.survm then s
    else match slotOf s.mod.db.mslots h i, freeSlot s.mod.db.mslots d s.mod.db.dbmslots.toNat 4 (fieldW s.mod.db.group 48 2) with
      | none, some k => send (modDelta h i 0 b) { s with mod := { s.mod with db := { s.mod.db with mslots := s.mod.db.mslots.set (0, 0) (d * 2 ^ 24 + k) (h, i) } } }
      | _, _ => s

/-- Assign data slots to the pages of a survivable tensor. -/
def assignParity (h : Nat) (s : State) : State := (List.range (pagesOf (trec s h).bytes)).foldl (fun s i => assignPage h i s) s

/-- Whether a delta of a tensor's pages has not applied yet. -/
def deltaUnder (s : State) (h : Nat) : Bool :=
  let mine := fun (t : Tab (Nat × Nat)) (src : Node) (k : Nat) => src == .die (handleDie h) && (t.get (0, 0) (handleDie h * 2 ^ 24 + k)).1 == h
  s.packets.any (fun p => match p.body with
    | .delta k _ _ => (p.lane == 3 && mine s.mod.db.slots p.src k) || (p.lane == 4 && mine s.mod.db.mslots p.src k)
    | _ => false)

/-- Take a tensor's data slots back (R187, R261). -/
def releaseParity (h : Nat) (s : State) : State :=
  if !(trec s h).surv then s
  else
    let s := (List.range (pagesOf (trec s h).bytes)).foldl (fun s i => pageContents h i s) s
    { s with mod := { s.mod with db := { s.mod.db with slots := s.mod.db.slots.keep (fun _ x => x.1 != h), mslots := s.mod.db.mslots.keep (fun _ x => x.1 != h) } } }

/-- The lines of a tensor leave every L2. -/
def dropLines (h : Nat) (s : State) : State :=
  let other := fun (k : Nat) => !(decide (globKey h 0 / 128 ≤ k % 2 ^ 64) && decide (k % 2 ^ 64 < globKey h 0 / 128 + 2 ^ 33))
  { s with l2 := s.l2.keep (fun k _ => other k), l2Dirty := s.l2Dirty.keep (fun k _ => other k) }

/-- The answer of a line of XSEND to its sender (R182): none where it has been written, else the fault that its token takes. A tag at or
above 2^60 names another module. -/
def answerLine (tag line : Nat) (code : Option (BitVec 8)) (s : State) : State :=
  if tag < 2 ^ 60 then
    match (coreAt s (tag / 64)).b.xfQ.find? (fun x => x.tok == tag % 64 && x.started && x.op == 7 && x.sent.contains line) with
    | some x => (match code with | some k => endXf (tag / 64) x .fault k s | none => lineDone (tag / 64) x line s)
    | none => s
  else
    let m := (tag - 2 ^ 60) / 2 ^ 40
    (netSend { dest := m, vl := 1, bytes := netHead s (if code.isSome then 2 else 1) (code.getD 0).toNat m (tag % 2 ^ 32) line } s).1

/-- Bounced data that can never be applied is discarded, and its senders are told (R182). -/
def discardBounced (h : Nat) (code : BitVec 8) (s : State) : State :=
  ((hasp s (handleDie h)).bounce.filter (fun b => b.h == h)).foldl (fun s b => answerLine b.tag b.line (some code) s)
    (updHasp s (handleDie h) (fun x => { x with bounce := x.bounce.filter (fun b => b.h != h) }))

/-! ### The release of a record (R122) -/

/-- Release a freed tensor's record and its memory. -/
def releaseRecord (h : Nat) (s : State) : State :=
  let d := handleDie h
  let s := dropMove h (freeRecipe h (dropLines h (freeTensorPages (zeroTensor h (releaseParity h s)) h)))
  let s := updHasp (discardBounced h codeUndeclared s) d (fun x => { x with pins := x.pins.filter (fun p => ptrH p.ptr != h), freed := x.freed ++ [h % 2 ^ 20] })
  { s with recs := s.recs.set .zero h .zero }

/-- A pin has been dropped on a tensor: the launches that wait for a restore on its die without a victim wait anew (R145). -/
def pinDropped (h : Nat) (s : State) : State :=
  let again : Nat × Nat × Nat → Nat × Nat × Nat := fun e => if handleDie e.1 = handleDie h then (e.1, s.us, e.2.2) else e
  { s with launches := { cells := s.launches.cells.map (fun x => (x.1, { x.2 with roomUs := x.2.roomUs.map again })) } }

/-- Drop a pin; a freed tensor whose last pin goes is released. -/
def unpin (h : Nat) (s : State) : State :=
  let s := pinDropped h (updRec s h (fun r => { r with pincnt := if r.pincnt = 0 then 0 else r.pincnt - 1 }))
  if (trec s h).freeing ∧ (trec s h).pincnt = 0 then releaseRecord h s else s

/-- Whether a free must wait: the tensor is recipe-held, or under re-issue (R122, R200). -/
def freeWaits (s : State) (h : Nat) : Bool := (trec s h).rhcnt != 0 || s.reissues.any (fun r => r.h == h)

/-- Free a tensor that need not wait (R122): recipes that name it become invalid. -/
def freeTensor (h : Nat) (s : State) : State :=
  let s := abandonMove h s
  let s := if (trec s h).state = .dropped ∧ (trec s h).lost = false then dropEntries h s else s
  let s := (s.recs.keys.filter (fun t => t != h && (inputsOf s t).any (fun i => i.1 == h))).foldl (fun s t => spoilRecipe t s) s
  let s := updRec s h (fun r => { r with freeing := true })
  if (trec s h).pincnt = 0 then releaseRecord h s else s

/-! ### Use lists (R124, R172) -/

/-- Set a bit of HSTAT (R204): one that was clear sends PF vector 3. -/
def setHstat (d bit : Nat) (s : State) : State :=
  if bitAt (hasp s d).hstat.toNat bit then s
  else sendMsix 3 (updHasp s d (fun x => { x with hstat := x.hstat ||| BitVec.ofNat 64 (2 ^ bit) }))

/-- Entry `i` of a use list; none where it faults when read. -/
def useEntry (s : State) (part : Nat) (list : Word) (i : Nat) : Option Nat :=
  let p := list + BitVec.ofNat 64 (4 * i)
  let h := ptrH p
  if isGlobal list ∧ isGlobal p ∧ ptrH list = h ∧ ptrO p % 4 = 0 ∧ declared s part h ∧ isResident (trec s h) ∧ ptrO p + 4 ≤ (trec s h).bytes ∧
      !poisoned s (.glob h (ptrO p)) 4 then some (readNat s (.glob h (ptrO p)) 4)
  else none

/-- What a scan of a use list finds: the next use, the list's end, or a faulting read. -/
inductive UseRes where
  | use (pos nuse : Nat)
  | over
  | fault
  deriving DecidableEq, Repr

/-- Scan a use list from an entry on for the first use after a STEP. -/
def useScan (s : State) (part : Nat) (list base : Word) (step : Nat) : Nat → Nat → Option Nat → UseRes
  | 0, _, _ => .over
  | f + 1, i, prev =>
    match useEntry s part list i with
    | none => .fault
    | some e =>
      if e == 0xFFFFFFFF || (match prev with | some p => decide (e ≤ p) | none => false) then .over
      else if step < e + base.toNat then .use i (e + base.toNat)
      else useScan s part list base step f (i + 1) (some e)

/-- NUSE of a tensor without a further use. -/
def noUse : Word := 0xFFFFFFFFFFFFFFFF

/-- The STEP of the context that owns a tensor. -/
def ownerStep (s : State) (h : Nat) : Nat := (ctx s (trec s h).owner.toNat).step.toNat

/-- Advance UPOS and NUSE where the distance would be zero or negative (R172). -/
def refreshUse (h : Nat) (s : State) : State :=
  let r := trec s h
  if r.nuse = noUse ∨ ownerStep s h < r.nuse.toNat then s
  else match (if r.uselist = 0 then UseRes.over else useScan s r.part.toNat r.uselist r.ubase (ownerStep s h) 4096 0 none) with
  | .use i n => updRec s h (fun r => { r with upos := BitVec.ofNat 12 i, nuse := BitVec.ofNat 64 n })
  | .over => updRec s h (fun r => { r with nuse := noUse })
  | .fault =>
    let s := setHstat (handleDie h) 0 (updRec s h (fun r => { r with nuse := noUse }))
    updHasp s (handleDie h) (fun x => { x with hstat := BitVec.ofNat 64 (withBits x.hstat.toNat 32 23 h) })

/-- The distance to a tensor's next use; none when it has no further use. -/
def distance (s : State) (h : Nat) : Option Nat := if (trec s h).nuse = noUse then none else some ((trec s h).nuse.toNat - ownerStep s h)

/-- A tensor's use list begins anew (R121, R124): its first use is found when it is needed, as a NUSE of zero asks. -/
def setUses (h : Nat) (list base : Word) (s : State) : State :=
  updRec s h (fun r => { r with uselist := list, ubase := base, upos := 0, nuse := if list = 0 then noUse else 0 })

/-! ### Eviction (R184-R189) -/

/-- The three actions. -/
inductive Act where
  | drop | compress | spill
  deriving DecidableEq, Repr

/-- The estimated cycles of a recipe chain (R185). -/
def chainCycles (s : State) : Nat → Nat → Nat
  | 0, _ => 0
  | f + 1, h =>
    Nat.min (2 ^ 48 - 1) ((match recipeOf s h with | some r => r.cycles | none => 0) +
      ((inputsOf s h).map (fun i => if (trec s i.1).state = .dropped then chainCycles s f i.1 else 0)).sum)

/-- The cost of an action (R185). -/
def actCost (s : State) (h : Nat) (a : Act) : Nat :=
  let x := hasp s (handleDie h)
  let r := trec s h
  let kib := (r.bytes + 1023) / 1024
  match a with
  | .spill => kib * x.spill.toNat
  | .compress => kib * x.compk.toNat + kib * x.compr.toNat * (if r.ratio = 0 then x.rdef.toNat else r.ratio.toNat) / 256
  | .drop => (chainCycles s (s.recs.cells.length + 1) h + 1023) / 1024 * (x.recomp.toNat + (match distance s h with | some d => x.dist.toNat / d | none => 0))

/-- The depth a drop would record (R186). -/
def dropDepth (s : State) (h : Nat) : Nat :=
  1 + ((inputsOf s h).map (fun i => if (trec s i.1).state = .dropped then (trec s i.1).cdepth.toNat else 0)).foldl Nat.max 0

/-- Whether a tensor may take an action, beside being unpinned, HBM and not BUSY (R186). -/
def actOk (s : State) (h : Nat) (a : Act) : Bool :=
  let r := trec s h
  match a with
  | .drop => validRecipe s h && !r.prot.getLsbD 2 && decide (dropDepth s h ≤ (hasp s (handleDie h)).hdepth.toNat) &&
      (inputsOf s h).all (fun i => decide (dependentCount s (handleDie i.1) < 65536))
  | .compress => !r.surv && !r.prot.getLsbD 3
  | .spill => decide ((r.bytes + 1023) / 1024 ≤ freeSpill s (handleDie h) * 64)

/-- The eligible actions in the order in which they would be chosen: by cost; ties: drop, then compress, then spill. -/
def actOrder (s : State) (h : Nat) : List Act :=
  let l := [Act.drop, Act.compress, Act.spill].filter (actOk s h)
  let ins := fun (acc : List Act) (a : Act) => (acc.filter (fun b => decide (actCost s h b ≤ actCost s h a))) ++ a :: acc.filter (fun b => decide (actCost s h a < actCost s h b))
  l.foldl ins []

/-- A drop, in one step (R187). -/
def dropTensor (h : Nat) (s : State) : State :=
  let depth := dropDepth s h
  let s := (inputsOf s h).foldl (fun s i => updRec s i.1 (fun r => { r with rhcnt := r.rhcnt + 1 })) s
  let s := dropLines h (freeTensorPages (zeroTensor h (releaseParity h s)) h)
  updRec s h (fun r => { r with state := .dropped, cdepth := BitVec.ofNat 4 depth })

/-- Begin moving a tensor's pages. -/
def beginMove (h : Nat) (restore comp forced : Bool) (s : State) : State :=
  let s := updHasp s (handleDie h) (fun x => { x with moves := x.moves ++ [{ h := h, restore := restore, comp := comp, page := 0, marked := [], pass := 0, lines := 0, staged := false, forced := forced }] })
  updRec s h (fun r => { r with busy := true })

/-- Perform an action (R187). -/
def perform (h : Nat) (forced : Bool) (a : Act) (s : State) : State :=
  match a with
  | .drop => let s := dropTensor h s; if forced then hforceEnd (handleDie h) 0 s else s
  | .compress => beginMove h false true forced s
  | .spill => beginMove h false false forced s

/-- MiB in 64 KiB pages. -/
def mibPages (n : BitVec 16) : Nat := n.toNat * 16
/-- LOW and HIGH of a die, in pages; a HIGH below LOW acts as LOW (R204). -/
def lowPages (s : State) (d : Nat) : Nat := mibPages (hasp s d).low
def highPages (s : State) (d : Nat) : Nat := Nat.max (mibPages (hasp s d).low) (mibPages (hasp s d).high)

/-- The pages that the restores under way on a die, and the re-issues that wait to start there, still need (R184). -/
def roomNeeded (s : State) (d : Nat) : Nat :=
  (((hasp s d).moves.filter (fun m => m.restore)).map (fun m => pagesOf (trec s m.h).bytes - m.page)).sum +
  ((s.reissues.filter (fun r => r.sub.isNone && handleDie r.h == d)).map (fun r => pagesOf (trec s r.h).bytes)).sum

/-- The target of an eviction run: HIGH, with what restores and re-issues need (R184). -/
def evictTarget (s : State) (d : Nat) : Nat := highPages s d + roomNeeded s d

/-- Whether a run goes on or begins: free HBM4E has fallen below LOW, or a restore or re-issue lacks room. -/
def mustEvict (s : State) (d : Nat) : Bool :=
  decide (freePages s d < evictTarget s d) && ((hasp s d).tried != [] || decide (freePages s d < lowPages s d) || decide (freePages s d < roomNeeded s d))

/-- The victims a run may choose among (R186). -/
def candidates (s : State) (d : Nat) : List Nat :=
  (s.recs.cells.filter (fun x => handleDie x.1 == d && x.2.state == .hbm && !x.2.busy && !(hasp s d).tried.contains x.1 && !isPinned s x.1)).map (·.1)

/-- The candidate with the greatest distance, ties going to the lowest handle. -/
def victim (s : State) : List Nat → Option Nat
  | [] => none
  | h :: t =>
    match victim s t with
    | none => some h
    | some g =>
      match distance s h, distance s g with
      | none, _ => some h
      | some _, none => some g
      | some a, some b => if b ≤ a then some h else some g

/-- EVICT (R184, R186): one victim decision of a die's slice. It is made while no outgoing page moves there. -/
def evictOne (d : Nat) (s : State) : State :=
  if (hasp s d).moves.any (fun m => !m.restore) then s
  else if !mustEvict s d then updHasp s d (fun x => { x with tried := [] })
  else
    let cand := candidates s d
    let s := cand.foldl (fun s h => refreshUse h s) s
    match victim s cand with
    | none =>
      let s := if freePages s d < lowPages s d then setHstat d 2 s else s
      updHasp s d (fun x => { x with tried := [] })
    | some h =>
      let s := updHasp s d (fun x => { x with tried := x.tried ++ [h] })
      match actOrder s h with
      | [] => s
      | a :: _ => perform h false a s

/-! ### Page moves (R191-R194) -/

/-- The migration mode of a page: true for swap pairs (R192). -/
def swapMode (s : State) (h page : Nat) : Bool :=
  let x := hasp s (handleDie h)
  let ia := (trec s h).iapage + page
  match (List.range 8).find? (fun i =>
    let r := (x.rgns.get 0 i).toNat
    bitAt r 37 && decide (bitsOf r 0 36 ≤ ia) && decide (ia ≤ bitsOf r 64 36)) with
  | some i => bitAt (x.rgns.get 0 i).toNat 36
  | none => x.defmode

/-- The size of a tensor's ZX tiles (R187, R310). -/
def tileBytes (s : State) (h : Nat) : Nat :=
  let n := (trec s h).bytes
  ((List.range ((n + 4095) / 4096)).map (fun i =>
    (zxResidency (trec s h).format.toNat (readLoc s (.glob h (4096 * i)) (Nat.min 4096 (n - 4096 * i)))).length)).sum

/-- Where the Hasp has put a tensor's bytes: LOC names a place of its own choosing (R170). -/
def placedAt (h : Nat) (s : State) : State :=
  let a := freeNat s
  updRec a.1 h (fun r => { r with loc := BitVec.ofNat 48 a.2 })

/-- The end of a spill: the tensor is SPILLED and its HBM4E pages are free. -/
def endSpill (h : Nat) (forced : Bool) (s : State) : State :=
  let s := dropMove h (freeTensorPages (dropLines h (releaseParity h s)) h)
  let s := placedAt h (updRec s h (fun r => { r with state := .spilled, busy := false }))
  if forced then hforceEnd (handleDie h) 0 s else s

/-- The end of a compression: the tensor is COMPRESSED, or the tiles are freed and the next eligible action follows (R187). -/
def endCompress (h : Nat) (forced : Bool) (s : State) : State :=
  let n := tileBytes s h
  let ratio := Nat.min 255 (256 * n / (trec s h).bytes)
  let s := refreshUse h s
  let order := actOrder s h
  let s := updRec (dropMove h s) h (fun r => { r with ratio := BitVec.ofNat 8 ratio, busy := false })
  if ratio ≤ 224 then
    let s := placedAt h (updRec (freeTensorPages (dropLines h s) h) h (fun r => { r with state := .compressed, ckib := BitVec.ofNat 32 ((n + 1023) / 1024) }))
    if forced then hforceEnd (handleDie h) 0 s else s
  else if forced then hforceEnd (handleDie h) 6 s
  else match (order.dropWhile (fun a => a != .compress)).drop 1 with
    | a :: _ => perform h false a s
    | [] => s

/-- The page of a move is at its destination: the next one follows, or the action ends. A restore ends with RESTORE_COMPLETE. -/
def pageMoved (m : Move) (s : State) : State :=
  if m.restore ∨ m.page + 1 < pagesOf (trec s m.h).bytes then nextPage m.h s
  else if m.comp then endCompress m.h m.forced s
  else endSpill m.h m.forced s

/-- Allocate every page of a tensor. -/
def allocTensor (h : Nat) (s : State) : State :=
  (List.range (pagesOf (trec s h).bytes)).foldl (fun s i => { s with pages := s.pages.set false (pageKey s h i) true }) s

/-- Whether a move has a page left to move. -/
def moveLeft (s : State) (m : Move) : Bool := decide (m.page < pagesOf (trec s m.h).bytes)

/-- The spill that a restore's page pairs with, or the restore that a spill's page pairs with, in swap pairs mode (R194). -/
def swapPartner (s : State) (m : Move) : Option Move :=
  if m.comp ∨ !swapMode s m.h m.page then none
  else (hasp s (handleDie m.h)).moves.find? (fun x => x.restore != m.restore && !x.comp && moveLeft s x && swapMode s x.h x.page)

/-- Whether the pages a restore still needs are free (R184, R191). -/
def restoreRoom (s : State) (m : Move) : Bool := decide (pagesOf (trec s m.h).bytes - m.page ≤ freePages s (handleDie m.h))

/-- Whether a move has a page to move: a restored page needs room, or a spilled page to take the place of. -/
def moveOpen (s : State) (m : Move) : Bool := moveLeft s m && (!m.restore || restoreRoom s m || (swapPartner s m).isSome)

/-- The sectors of the ZX tiles of a page whose expansion fails: those of a tile that holds a sector which cannot be read (R191). -/
def badTiles (s : State) (h page : Nat) : List Nat :=
  let q := globKey h (65536 * page) / 32
  (List.range 16).flatMap (fun t =>
    let l := (List.range 128).map (fun i => q + 128 * t + i)
    if l.any (fun i => poisonAt s (32 * i) || decide (2 ≤ s.wrong.get 0 i)) then l else [])

/-- The bytes of a page go over (R187, R191): the pager reads them from where they are, and they stand in frames of the Hasp's own. A
restored page is allocated, and one of a survivable tensor gets its parity. -/
def carryPage (m : Move) (s : State) : State :=
  let s := settlePage m.h m.page s
  let s := pagerRead (globKey m.h (65536 * m.page)) 65536 (if m.restore && m.comp then spoil (badTiles s m.h m.page) s else s)
  if m.restore then assignPage m.h m.page { s with pages := s.pages.set false (pageKey s m.h m.page) true } else s

/-- A page of a move goes over. -/
def movePage (m : Move) (s : State) : State := pageMoved m (carryPage m s)

/-- OPTIMISTIC_COPY_PASS (R193): a pass of the copy of a page ends. Marked lines are copied again, as often as RETRY allows. -/
def copyPass (h : Nat) (s : State) : State :=
  match moveOf s h with
  | none => s
  | some m =>
    if !moveOpen s m ∨ (swapPartner s m).isSome then s
    else if m.marked ≠ [] then
      if Nat.max 1 (hasp s (handleDie h)).retry.toNat ≤ m.pass + 1 then abandonMove h s
      else updMove h (fun x => { x with marked := [], pass := x.pass + 1 }) s
    else movePage m s

/-- SWAP_PAIR_EXCHANGE (R194): the next line of a pair enters the staging buffer, or the one there lands at its new place. With the last of
the 512 the pages have exchanged places: the restored one takes the spilled one's. -/
def swapPass (h : Nat) (s : State) : State :=
  match moveOf s h with
  | none => s
  | some m =>
    match swapPartner s m with
    | none => s
    | some x =>
      let both := fun (f : Move → Move) (s : State) => updMove x.h f (updMove m.h f s)
      if !moveLeft s m then s
      else if !m.staged then both (fun y => { y with staged := true }) s
      else if m.lines + 1 < 512 then both (fun y => { y with staged := false, lines := y.lines + 1 }) s
      else if m.restore then movePage m (movePage x s) else movePage x (movePage m s)

/-- Write the oldest bounced data of a tensor, where it can be written now, and answer its sender (R182, R195, R196). -/
def applyOne (h : Nat) (s : State) : State :=
  match (hasp s (handleDie h)).bounce.find? (fun b => b.h == h) with
  | none => s
  | some b =>
    if !isResident (trec s h) ∨ !linkFits s h b.o b.bytes.length then s
    else
      let s := updHasp s (handleDie h) (fun x => { x with bounce := x.bounce.erase b })
      let s := markPoison (storeGlob s h b.o b.bytes (allMask b.bytes.length)) (.glob h b.o) b.bad
      answerLine b.tag b.line none (linkWritten h s)

/-- Apply the bounced data of a tensor that is resident again, in arrival order, before any later access (R182). -/
def applyBounced (h : Nat) (s : State) : State :=
  ((hasp s (handleDie h)).bounce.filter (fun b => b.h == h)).foldl (fun s _ => applyOne h s) s

/-- RESTORE_COMPLETE (R191): every page of a restore has arrived, and the parity of a survivable tensor is written. -/
def endRestore (h : Nat) (s : State) : State :=
  match moveOf s h with
  | none => s
  | some m =>
    if !m.restore ∨ moveLeft s m ∨ deltaUnder s h then s
    else applyBounced h (updRec (dropMove h s) h (fun r => { r with state := .hbm, busy := false, ckib := 0, loc := 0 }))

/-- Ask for the restore of a SPILLED or COMPRESSED tensor; requests share one restore (R190). -/
def requestRestore (h : Nat) (s : State) : State :=
  let r := trec s h
  if (r.state = .spilled ∨ r.state = .compressed) ∧ r.busy = false then beginMove h true (r.state == .compressed) false s else s

/-! ### Materialisation (R131, R197, R200) -/

/-- The re-issue of a tensor in progress. -/
def reissueOf (s : State) (h : Nat) : Option Reissue := s.reissues.find? (fun r => r.h == h)
/-- Change it. -/
def updReissue (h : Nat) (f : Reissue → Reissue) (s : State) : State := { s with reissues := s.reissues.map (fun r => if r.h = h then f r else r) }

/-- A step of materialisation. -/
inductive MatOp where
  | request (h : Nat) (ask : Ask) (above : List Nat) (part cls : Nat)
  | advance (h : Nat)
  | fail (h : Nat) (code : BitVec 8) (chain : List Nat)
  | refuse (ask : Ask) (h : Nat) (code : BitVec 8) (chain : List Nat)
  deriving DecidableEq, Repr

/-- A launch fails before READY with a chain (R145). -/
def failRes (l : Nat) (code : BitVec 8) (chain : List Nat) (s : State) : State :=
  updLaunch (failLaunch l code noCore s) l (fun x => if x.state = .done then x else { x with chain := if x.chain = [] then chain.take 8 else x.chain })

/-- Whether a context waits for a tensor. -/
def ctxWaitsOn (s : State) (c h : Nat) : Bool :=
  match (ctx s c).wait with
  | some (.mailbox _ k _ _) => k == h
  | some (.fetch k) => k == h
  | some (.tensor k _) => k == h
  | some (.pin k) => k == h
  | _ => false

/-- The fault of a context whose request for a dropped tensor cannot be met (R98, R131): synchronous at the instruction that waits for it, or,
where an STQ is already on its way to the tensor, instead of that STQ. -/
def refuseCtx (c h : Nat) (code : BitVec 8) (chain : List Nat) (s : State) : State :=
  let first : Word := BitVec.ofNat 64 h
  match (ctx s c).wait with
  | some (.mailbox _ k o _) => if k = h then streamFault c code (globalPtr k o) 8 chain s else s
  | some (.tensor k info) => if k = h then streamFault c code info (ctx s c).wlen chain s else s
  | some (.fetch k) => if k = h then streamFault c code first 8 chain s else s
  | some (.pin k) => if k = h then streamFault c code first 8 chain s else s
  | _ =>
    let mine := fun (p : Packet) => p.core == 512 + c && (match p.body with | .access _ (.glob k _) _ _ _ => k == h | _ => false)
    match s.packets.find? mine with
    | some p => streamFault c code first 0 chain (updCtx { s with packets := s.packets.filter (fun q => q.id != p.id) } c (fun x => { x with stores := x.stores.filter (fun i => i != p.id) }))
    | none => s

/-- The chain an asker reports: its own down to the tensor, then what the failed re-issue found below it (R131). -/
def askChain (own chain : List Nat) (h : Nat) : List Nat := (own ++ (chain.dropWhile (fun x => x != h)).drop 1).take 8

/-- Run a step of materialisation (R197). The first number bounds the steps that follow from it. -/
def materialise : Nat → MatOp → State → State
  | 0, _, s => s
  | f + 1, op, s =>
    match op with
    | .request h ask above part cls =>
      let chain := above ++ [h]
      if (trec s h).lost ∨ !validRecipe s h then materialise f (.refuse ask h codeRecipeInvalid chain) s
      else if (hasp s (handleDie h)).hdepth.toNat < chain.length then materialise f (.refuse ask h codeRecipeDepth chain) s
      else match reissueOf s h with
      | some r => if r.asks.any (fun a => a.1 == ask) then s else updReissue h (fun r => { r with asks := r.asks ++ [(ask, chain)] }) s
      | none =>
        let r : Reissue := { h := h, chain := chain, pinned := [], asks := [(ask, chain)], part := part, cls := cls, sub := none, failed := false }
        materialise f (.advance h) (updRec { s with reissues := s.reissues ++ [r] } h (fun r => { r with busy := true }))
    | .advance h =>
      match reissueOf s h with
      | none => s
      | some r =>
        match (inputsOf s h)[r.pinned.length]? with
        | none => s
        | some i =>
          if (trec s i.1).state = .dropped then materialise f (.request i.1 (.parent h) r.chain r.part r.cls) s
          else materialise f (.advance h) (requestRestore i.1 (updReissue h (fun r => { r with pinned := r.pinned ++ [i.1] }) (pin i.1 s)))
    | .fail h code chain =>
      match reissueOf s h with
      | none => s
      | some r =>
        let s := r.pinned.foldl (fun s i => unpin i s) { s with reissues := s.reissues.filter (fun x => x.h != h) }
        let s := updRec s h (fun x => { x with busy := false })
        r.asks.foldl (fun s a => materialise f (.refuse a.1 h code (askChain a.2 chain h)) s) s
    | .refuse ask h code chain =>
      match ask with
      | .launch l => failRes l code chain s
      | .ctx c => refuseCtx c (chain.headD h) code chain s
      | .parent p => materialise f (.fail p code chain) s
      | .dep => setHstat (handleDie h) 1 (markLost h s)
      | .bounce => discardBounced h codeRecipeInvalid (markLost h s)

/-- How many steps a materialisation may take: eight levels of sixteen inputs, with the requests that share a re-issue. -/
def matFuel : Nat := 4096

/-- Ask that a tensor be brought to HBM4E (R144, R190, R197). -/
def requestResident (h : Nat) (ask : Ask) (part cls : Nat) (s : State) : State :=
  if (trec s h).state = .dropped then materialise matFuel (.request h ask [] part cls) s else requestRestore h s

/-- The number of the STQ of a context that is on its way to a tensor. -/
def storeTo_ (s : State) (c h : Nat) : Option Nat :=
  (s.packets.find? (fun p => p.core == 512 + c && (match p.body with | .access _ (.glob k _) _ _ _ => k == h | _ => false))).map (fun p => p.id)

/-- Whether a context's LDQ, STQ, TPIN or fetch asks for a tensor, so that it takes the final pin of its re-issue (R197). -/
def ctxAsks (s : State) (c h : Nat) : Bool := ctxWaitsOn s c h || (storeTo_ s c h).isSome

/-- A re-issue has succeeded (R197): its inputs are unpinned and lose their dependent entries, and those who asked go on. A
dependent is spilled where free HBM4E is below LOW (R196). -/
def reissueDone (h : Nat) (s : State) : State :=
  match reissueOf s h with
  | none => s
  | some r =>
    let s := { s with reissues := s.reissues.filter (fun x => x.h != h) }
    let s := dropEntries h (r.pinned.foldl (fun s i => unpin i s) s)
    let s := applyBounced h (assignParity h (updRec s h (fun x => { x with state := .hbm, busy := false })))
    let s := r.asks.foldl (fun s a =>
      match a.1 with
      | .parent p => materialise matFuel (.advance p) (updReissue p (fun x => { x with pinned := x.pinned ++ [h] }) (pin h s))
      | .ctx c => if ctxAsks s c h then updCtx (pin h s) c (fun x => { x with holds := x.holds ++ [(storeTo_ s c h, h)] }) else s
      | _ => s) s
    if r.asks.all (fun a => a.1 == .dep) ∧ freePages s (handleDie h) < lowPages s (handleDie h) ∧ actOk s h .spill ∧ !isPinned s h
    then beginMove h false false false s else s

/-- A re-run that failed (R197): the bytes it wrote are discarded. -/
def reissueFailed (h : Nat) (s : State) : State :=
  match reissueOf s h with
  | none => s
  | some r => materialise matFuel (.fail h codeRecipeInvalid r.chain) (freeTensorPages (zeroTensor h s) h)

end Sys2Proof.Machine
end

