-- ==== Sys2Proof/Machine/HaspEvents.lean ====
section
/-!
DEFINITION. Sys2Proof/Machine/HaspEvents.lean: declaring tensors (R119-R121, R173), the record image (R170), recipe sub-streams
(R131, R168), bounced data (R182), HFORCE (R463), page walks (R176-R179), and the events of the Hasp.
-/

namespace Sys2Proof.Machine

/-! ### Declaring a tensor -/

/-- A number of a descriptor or record image: `n` bytes from an offset. -/
def fieldB (b : List Byte) (off n : Nat) : Nat := leNat ((b.drop off).take n)

/-- The first of a list of checks that fails: its offset. -/
def firstBad : List (Bool × Nat) → Option Nat
  | [] => none
  | (true, _) :: t => firstBad t
  | (false, off) :: _ => some off

/-- The record a descriptor describes (R120), before the Hasp adds its own choices. -/
def descRec (b : List Byte) : TRec :=
  { TRec.zero with
    state := .hbm, dims := (List.range 5).map (fun i => fieldB b (4 * i) 4), rank := BitVec.ofNat 3 (fieldB b 20 1), format := BitVec.ofNat 8 (fieldB b 21 1),
    surv := bitAt (fieldB b 22 1) 4, survm := bitAt (fieldB b 22 1) 5, grow := BitVec.ofNat 3 (fieldB b 23 1), growv := bitAt (fieldB b 23 1) 3,
    bytes := fieldB b 24 8 }

/-- The format codes of R120. -/
def formatOk (f : Nat) : Bool := decide (f ≤ 0x0B) || (decide (0x10 ≤ f) && decide (f ≤ 0x14))

/-- What a descriptor breaks of R121: the offset of the field. -/
def descBad (b : List Byte) : Option Nat :=
  let t := descRec b
  let rank := bitsOf (fieldB b 20 1) 0 3
  let rankOk := decide (1 ≤ rank) && decide (rank ≤ 5)
  firstBad ((List.range 5).map (fun i => (!rankOk || decide (i < rank) || fieldB b (4 * i) 4 == 0, 4 * i)) ++
    [(rankOk && decide (fieldB b 20 1 < 8), 20), (formatOk (fieldB b 21 1), 21),
     (decide (fieldB b 22 1 < 64) && (!t.survm || t.surv) && (!bitAt (fieldB b 22 1) 3 || bitsOf (fieldB b 22 1) 0 3 == 0), 22),
     (decide (fieldB b 23 1 < 16) && decide (t.grow.toNat < rank), 23),
     (decide (1 ≤ t.bytes) && decide (t.bytes ≤ 2 ^ 40) && decide (layoutSize t.format.toNat (elemCount t) ≤ t.bytes), 24)] ++
    (List.range 3).map (fun i => (fieldB b (40 + 8 * i) 8 == 0, 40 + 8 * i)))

/-- The records of a die's slice. -/
def recordCount (s : State) (d : Nat) : Nat := (s.recs.cells.filter (fun x => handleDie x.1 == d)).length

/-- The home of a declaration: the die named, or with AUTO the one with the fewest records (R121). -/
def homeOf (s : State) (b : List Byte) : Nat :=
  if bitAt (fieldB b 22 1) 3 then (List.range 8).foldl (fun best d => if recordCount s d < recordCount s best then d else best) 0
  else bitsOf (fieldB b 22 1) 0 3

/-- The index a slice issues next: one never issued, else the one freed longest ago (R119). -/
def nextIndex (x : Hasp) : Option Nat := if x.nextIdx < 0xFFFFF then some x.nextIdx else x.freed.head?

/-- The lowest range of pages of a die's intermediate addresses that no record occupies (R173). -/
def freeIa (s : State) (d pages : Nat) : Option Nat :=
  let live := (s.recs.cells.filter (fun x => handleDie x.1 == d && x.2.state != .free)).map (fun x => (x.2.iapage, x.2.iapage + pagesOf x.2.bytes))
  ((d * 2 ^ 33) :: live.map (·.2)).find? (fun a => decide (a + pages ≤ (d + 1) * 2 ^ 33) && live.all (fun r => decide (a + pages ≤ r.1) || decide (r.2 ≤ a)))

/-- Before a handle is issued again, nothing in the package may remember it (R175). -/
def forgetHandle (h : Nat) (s : State) : State :=
  { s with cores := { cells := s.cores.cells.map (fun x => (x.1, { x.2 with
      artab := x.2.artab.filter (fun e => e.h != h), image := match x.2.image with | some im => if im.handle = h then none else some im | none => none })) } }

/-- Declare a tensor (R121): the fault and the offset it names, or the new handle. -/
def declareTensor (b : List Byte) (part owner : Nat) (base : Word) (s : State) : Except (BitVec 8 × Nat) (State × Nat) :=
  match descBad b with
  | some off => .error (codeIllegal, off)
  | none =>
    let d := homeOf s b
    let t := descRec b
    if t.survm ∧ !bitAt s.mod.db.group.toNat 50 then .error (codeTranslation, 0)
    else match nextIndex (hasp s d), freeIa s d (pagesOf t.bytes) with
    | some i, some ia =>
      let h := d * 2 ^ 20 + i
      let s := updHasp (forgetHandle h s) d (fun x => if x.nextIdx < 0xFFFFF then { x with nextIdx := x.nextIdx + 1 } else { x with freed := x.freed.drop 1 })
      let s := { s with tlb := s.tlb.keep (fun k _ => !(decide (tlbKey d (ia * 2 ^ 16) ≤ k % 2 ^ 36) && decide (k % 2 ^ 36 < tlbKey d (ia * 2 ^ 16) + pagesOf t.bytes))) }
      let s := updRec s h (fun _ => { t with part := BitVec.ofNat 3 part, owner := BitVec.ofNat 6 owner, iapage := ia })
      .ok (assignParity h (setUses h (BitVec.ofNat 64 (fieldB b 32 8)) base s), h)
    | _, _ => .error (codeBounds, 0)

/-! ### The record image (R170) -/

/-- A number at a bit of an image. -/
def at_ (lo v : Nat) : Nat := v * 2 ^ lo
/-- A flag at a bit of an image. -/
def flag (lo : Nat) (b : Bool) : Nat := if b then 2 ^ lo else 0

/-- The code of a residency state (R170). -/
def stateCode : TState → Nat
  | .free => 0 | .hbm => 1 | .llcpin => 2 | .spilled => 3 | .compressed => 4 | .dropped => 5

/-- The image of a record. -/
def recImage (t : TRec) : BitVec 1024 :=
  BitVec.ofNat 1024 (stateCode t.state + flag 3 t.busy + at_ 4 t.format.toNat + at_ 12 t.rank.toNat + flag 15 t.surv + flag 16 t.survm +
    flag 17 t.growv + at_ 18 t.grow.toNat + at_ 21 t.prot.toNat + at_ 25 t.owner.toNat + at_ 31 t.part.toNat + flag 34 t.rvalid + flag 35 t.lost +
    at_ 36 t.cdepth.toNat + at_ 40 t.ratio.toNat + at_ 48 t.pincnt.toNat + at_ 64 (t.bytes % 2 ^ 40) + at_ 128 t.gen.toNat + at_ 160 t.cext.toNat +
    at_ 192 (packElems 32 (t.dims.take 5)) + at_ 352 t.uselist.toNat + at_ 416 t.ubase.toNat + at_ 480 t.upos.toNat + at_ 496 t.nuse.toNat +
    at_ 560 (t.iapage % 2 ^ 36) + at_ 608 t.rhcnt.toNat + at_ 640 (match t.recix with | some i => i | none => 0xFFFFFFFF) + at_ 672 t.loc.toNat +
    at_ 720 t.ckib.toNat)

/-- HRQSEL_WRITE (R204): the record image of a handle is latched at one moment. -/
def latchRecord (d : Nat) (v : BitVec 64) (s : State) : State :=
  let h := fieldW v 0 23
  let s := if handleDie h = d ∧ (trec s h).state ≠ .free then refreshUse h s else s
  let img := if handleDie h ≠ d ∨ isPageTable h ∨ (trec s h).state = .free then 0 else recImage (trec s h)
  updHasp s d (fun x => { x with hrqsel := BitVec.ofNat 23 h, hrqdata := img })

/-- HRQSEL_WRITE. -/
def execHrqselWrite (die : Nat) (v : BitVec 64) (s : State) : Host.Outcome State Fault Refusal :=
  .next (if die < 8 then latchRecord die v s else s)

/-! ### Eviction, moves and restores -/

/-- EVICT. -/
def execEvict (die : Nat) (s : State) : Host.Outcome State Fault Refusal := .next (if die < 8 then evictOne die s else s)
/-- OPTIMISTIC_COPY_PASS. -/
def execOptimisticCopyPass (h : Nat) (s : State) : Host.Outcome State Fault Refusal := .next (copyPass h s)
/-- SWAP_PAIR_EXCHANGE. -/
def execSwapPairExchange (h : Nat) (s : State) : Host.Outcome State Fault Refusal := .next (swapPass h s)
/-- RESTORE_COMPLETE. -/
def execRestoreComplete (h : Nat) (s : State) : Host.Outcome State Fault Refusal := .next (endRestore h s)

/-! ### HFORCE (R463) -/

/-- A request of HFORCE on a tensor: the reason of its refusal, or the action performed. -/
def forceOn (d h : Nat) (a : Act) (s : State) : State :=
  let r := trec s h
  if r.state = .free ∨ handleDie h ≠ d ∨ isPageTable h then hforceEnd d 1 s
  else if isPinned s h ∨ r.busy then hforceEnd d 2 s
  else if r.state ≠ .hbm then hforceEnd d 3 s
  else if !actOk s h a then hforceEnd d 4 s
  else perform h true a (updHasp s d (fun x => { x with hfBusy := true }))

/-- A write of HFORCE: `act` is what ACTION names. -/
def writeHforce (d : Nat) (act : Option Act) (v : BitVec 64) (s : State) : State :=
  let x := v.toNat
  let s := updHasp s d (fun f => { f with hfDone := f.hfDone && !bitAt x 28, hfRef := f.hfRef && !bitAt x 29 })
  if bitAt x 26 ∧ (hasp s d).hfBusy then hforceEndBusy s
  else
    let s := updHasp s d (fun f => { f with hfH := BitVec.ofNat 23 x, hfAct := BitVec.ofNat 2 (bitsOf x 24 2) })
    match act with
    | some a => if bitAt x 26 then forceOn d (bitsOf x 0 23) a s else s
    | none => s
where
  /-- A request while one is ACTIVE is refused; the one ACTIVE goes on. -/
  hforceEndBusy (s : State) : State := sendMsix 3 (updHasp s d (fun f => { f with hfRef := true, hfWhy := 5 }))

/-- The action an ACTION field names. -/
def actOf : Nat → Option Act
  | 1 => some .spill
  | 2 => some .compress
  | 3 => some .drop
  | _ => none

/-- HFORCE_SPILL: a write of HFORCE whose ACTION is read as spill. -/
def execHforceSpill (die : Nat) (v : BitVec 64) (s : State) : Host.Outcome State Fault Refusal :=
  .next (if die < 8 then writeHforce die (some .spill) (BitVec.ofNat 64 (withBits v.toNat 24 2 1)) s else s)
/-- HFORCE_COMPRESS: with ACTION compress. -/
def execHforceCompress (die : Nat) (v : BitVec 64) (s : State) : Host.Outcome State Fault Refusal :=
  .next (if die < 8 then writeHforce die (some .compress) (BitVec.ofNat 64 (withBits v.toNat 24 2 2)) s else s)
/-- HFORCE_DROP: with ACTION drop. -/
def execHforceDrop (die : Nat) (v : BitVec 64) (s : State) : Host.Outcome State Fault Refusal :=
  .next (if die < 8 then writeHforce die (some .drop) (BitVec.ofNat 64 (withBits v.toNat 24 2 3)) s else s)

/-! ### Recipe sub-streams (R131, R168) -/

/-- The pseudo-contexts of a die. -/
def subCtxs (d : Nat) : List Nat := (List.range 4).map (fun k => 64 + 4 * d + k)

/-- Whether a re-issue may start: it has none yet, each of its inputs is pinned and resident (R197), and the pages it needs are free or no
victim is left (R184). -/
def mayStart (s : State) (r : Reissue) : Bool :=
  r.sub.isNone && r.pinned.length == (inputsOf s r.h).length && r.pinned.all (fun i => isResident (trec s i)) &&
    (decide (pagesOf (trec s r.h).bytes ≤ freePages s (handleDie r.h)) || candidates s (handleDie r.h) == [])

/-- SUBSTREAM_START (R168): the first waiting re-issue of a die takes a free place. Its registers are those saved, the rest
zero, the margin among them: the spec does not say which margin a re-run has (DESIGN CHOICE, assumption 100). -/
def startSub (d : Nat) (s : State) : State :=
  match s.reissues.find? (fun r => hostDie s (handleDie r.h) == d && !dieGone s (handleDie r.h) && mayStart s r), (subCtxs d).find? (fun c => (ctx s c).sub.isNone) with
  | some r, some c =>
    match recipeOf s r.h with
    | none => s
    | some p =>
      let s := updCtx s c (fun _ => { Ctx.zero with
        q := p.saved.foldl (fun q x => q.set 0 x.1 x.2) .empty, pc := BitVec.ofNat 48 p.lo, code := globalPtr p.code 0, cls := BitVec.ofNat 2 r.cls,
        part := BitVec.ofNat 3 r.part, state := .running, sub := some r.h })
      updReissue r.h (fun r => { r with sub := some c }) s
  | _, _ => s

/-- SUBSTREAM_START. -/
def execSubstreamStart (die : Nat) (s : State) : Host.Outcome State Fault Refusal := .next (if die < 8 then startSub die s else s)

/-- SUBSTREAM_COMPLETE (R131, R197): the sub-stream has run its range, or failed, and its launches have completed. -/
def endSub (h : Nat) (s : State) : State :=
  match reissueOf s h with
  | none => s
  | some r =>
    match r.sub with
    | none => s
    | some c =>
      if (ctx s c).state ≠ .ended ∨ s.launches.cells.any (fun l => l.2.sub == some h) then s
      else
        let s := { s with ctxs := s.ctxs.set .zero c .zero }
        if r.failed then reissueFailed h s else reissueDone h s

/-- SUBSTREAM_COMPLETE. -/
def execSubstreamComplete (h : Nat) (s : State) : Host.Outcome State Fault Refusal := .next (endSub h s)

/-! ### Dependents (R196) -/

/-- Whether a launch is one of the sub-stream that writes a tensor (R196). -/
def ownSub (l : Launch) (h : Nat) : Bool := l.sub == some h

/-- Whether something waits to write or free a tensor. -/
def writerWaits (s : State) (h : Nat) : Bool :=
  s.ctxs.cells.any (fun x => x.2.wait == some (.store h) || x.2.wait == some (.free h)) ||
  s.launches.cells.any (fun x => x.2.state == .waitRes && !ownSub x.2 h && x.2.ops.any (fun o => o.wr && opHandle o == h)) ||
  s.mod.parts.cells.any (fun x => x.2.heldW.any (fun w => w.1 == h) || (match x.2.hdreq with | some q => q.free && ptrH q.ptr == h | none => false)) ||
  bounceHeld s h ||
  s.packets.any (fun p => match p.body with | .net _ b => fieldB b 2 1 == 0 && ptrH (BitVec.ofNat 64 (fieldB b 16 8)) == h | _ => false) ||
  s.cores.cells.any (fun k => k.2.b.xfQ.any (fun x => x.op == 7 && x.started && ptrH (xfDst x.snap) == h && fieldW (xfG x.snap 4) 0 12 == s.mod.ngself.toNat))

/-- DEPENDENT_MATERIALISATION (R196): the first dependent of a recipe-held tensor with a held writer is materialised, in its own
partition at class high. -/
def materialiseDependent (h : Nat) (s : State) : State :=
  if (trec s h).rhcnt = 0 ∨ !writerWaits s h then s
  else match (dependents s h).head? with
  | none => s
  | some d => if (reissueOf s d).isSome then s else requestResident d .dep (trec s d).part.toNat 1 s

/-- DEPENDENT_MATERIALISATION. -/
def execDependentMaterialisation (h : Nat) (s : State) : Host.Outcome State Fault Refusal := .next (materialiseDependent h s)

/-! ### Page walks and the address-range tables -/

/-- PAGE_WALK (R176-R179): a walk's leaf entry enters the translation cache of the controller that missed it. How many walks a die has
in progress is timing (assumption 6). -/
def walkPage (d ia : Nat) (s : State) : State :=
  let e := walk s d ia
  if bitAt e 0 then { s with tlb := s.tlb.set 0 (cacheKey d ia) (BitVec.ofNat 64 e) } else s

/-- PAGE_WALK. -/
def execPageWalk (die ia : Nat) (s : State) : Host.Outcome State Fault Refusal := .next (if die < 8 then walkPage die ia s else s)

/-- RANGE_TABLE_FILL (R175): what a miss of a core's task fetches from the home slice enters its address-range table, which holds 256
entries. That the fetch makes an access late is timing (assumption 6). -/
def fillRange (c h : Nat) (s : State) : State :=
  match (taskOf s c).bind (fun t => homeEntry s t.launch h) with
  | some e => updCore s c (fun k => { k with artab := (e :: k.artab.filter (fun x => !(x.h == h && x.launch == e.launch))).take 256 })
  | none => s

/-- RANGE_TABLE_FILL. -/
def execRangeTableFill (c h : Nat) (s : State) : Host.Outcome State Fault Refusal := .next (if coreExists c then fillRange c h s else s)

/-! ### Bounced data (R182) -/

/-- What the pager does for a tensor with bounced data: one that is gone or lost discards it; one that is not resident is asked for, by re-issue
in its own partition at class high; else the data is applied in arrival order as far as it can be. -/
def serveBounced (h : Nat) (s : State) : State :=
  let r := trec s h
  if r.state = .free ∨ r.freeing then discardBounced h codeUndeclared s
  else if r.lost then discardBounced h codeRecipeInvalid s
  else if !isResident r then requestResident h .bounce r.part.toNat 1 s
  else applyBounced h s

/-- BOUNCE_APPLY: the pager serves the tensors that a die's bounce buffer holds data for. -/
def applyBounce (d : Nat) (s : State) : State := (((hasp s d).bounce.map (fun b => b.h)).eraseDups).foldl (fun s h => serveBounced h s) s

/-- BOUNCE_APPLY. -/
def execBounceApply (die : Nat) (s : State) : Host.Outcome State Fault Refusal := .next (if die < 8 then applyBounce die s else s)

end Sys2Proof.Machine
end

