-- ==== Sys2Proof/Machine/Stream.lean ====
section
/-!
DEFINITION. Sys2Proof/Machine/Stream.lean: how a stream context executes (R88-R98): fetch, expansions (R134-R137), brackets
(R128), waits, and the instructions of control flow, arithmetic, memory, events and registers (R99-R110, R117, R138, R139).
-/

namespace Sys2Proof.Machine

/-! ### Registers -/

/-- A q register; q0 reads zero (R89). -/
def qReg (s : State) (c n : Nat) : Word := if n = 0 then 0 else (ctx s c).q.get 0 n
/-- Write a q register; a write to q0 is discarded (R89). -/
def setQ (c n : Nat) (v : Word) (s : State) : State := if n = 0 then s else updCtx s c (fun x => { x with q := x.q.set 0 n v })
/-- An event count. -/
def evCount (s : State) (c e : Nat) : BitVec 32 := (ctx s c).e.get 0 e
/-- Add to an event count, modulo 2^32 (R108). -/
def addEvent (c e n : Nat) (s : State) : State := updCtx s c (fun x => { x with e := x.e.upd 0 e (fun k => k + BitVec.ofNat 32 n) })
/-- Whether an event count satisfies a threshold (R108). -/
def evMet (s : State) (c e : Nat) (thr : BitVec 32) : Bool := !(evCount s c e - thr).msb

/-! ### Expansions (R134-R136) -/

/-- The directory entry of an expansion. -/
def mdir (s : State) (d i : Nat) : MDir := s.mdirs.get .zero (d * 256 + i)

/-- Whether a context is executing an expansion, rather than holding one (R96, R137). -/
def expanding (x : Ctx) : Bool := x.inmac && x.mret

/-- Word `i` of a body as it executes: the primary word's immediate or a whole extension word is moved by the parameter its tag
names (R136); none where the tag is 9 or more. -/
def bodyWord (s : State) (c : Nat) (primary : Bool) (i : Nat) : Option Nat :=
  let x := ctx s c
  let d := ctxDie c
  let k := d * 4096 + (mdir s d x.mindex.toNat).start + i
  let w := (s.mwords.get 0 k).toNat
  let t := (s.mtags.get 0 k).toNat
  if t = 0 then some w
  else if 8 < t then none
  else
    let p := (nthD x.mparams (t - 1) 0).toNat
    some (if primary then withBits w 0 32 (bitsOf w 0 32 + bitsOf p 0 32) else (w + p) % 2 ^ 64)

/-! ### Fetch (R92) -/

/-- What a fetch gives: an instruction, a fault with its FINFO, or a wait for the code tensor. -/
inductive Fetched where
  | instr (i : Instr)
  | fault (code : BitVec 8) (info : Word) (len : Nat)
  | wait (h : Nat)
  deriving DecidableEq, Repr

/-- The instruction of a primary word and the words that follow it. -/
noncomputable def fetchedOf (w : Nat) (xs : List Nat) : Fetched :=
  match decodeStream w xs with
  | .ok i => .instr i
  | .error _ => .fault codeIllegal 0 (8 * (1 + xs.length))

/-- Fetch within an expansion. A word that cannot be used faults with the length of the instruction that its primary word names. -/
noncomputable def fetchBody (s : State) (c : Nat) : Fetched :=
  let x := ctx s c
  let m := mdir s (ctxDie c) x.mindex.toNat
  let n := bitsOf (s.mwords.get 0 (ctxDie c * 4096 + m.start + x.mpos.toNat)).toNat 56 2
  let len := 8 * (1 + n)
  match bodyWord s c true x.mpos.toNat with
  | none => .fault codeIllegal 0 len
  | some w =>
    if m.len < x.mpos.toNat + 1 + n then .fault codeIllegal 0 len
    else
      let xs := (List.range n).map (fun i => bodyWord s c false (x.mpos.toNat + 1 + i))
      if xs.all (fun y => y.isSome) then fetchedOf w (xs.map (fun y => y.getD 0)) else .fault codeIllegal 0 len

/-- Fetch from the code tensor through the range map, as LDQ reads (R92, R103). -/
noncomputable def fetchCode (s : State) (c : Nat) : Fetched :=
  let x := ctx s c
  let h := ptrH x.code
  let o := x.pc.toNat
  let p := globalPtr h o
  let r := trec s h
  if !declared s x.part.toNat h then .fault codeUndeclared p 8
  else if r.bytes < o + 8 then .fault codeBounds p 8
  else if dieGone s (handleDie h) then .fault codeDieLost p 8
  else if !isReady s h then .wait h
  else
    let w := readNat s (.glob h o) 8
    let n := bitsOf w 56 2
    if poisoned s (.glob h o) 8 then .fault codePoison p 8
    else if r.bytes < o + 8 * (1 + n) then .fault codeBounds p (8 * (1 + n))
    else if poisoned s (.glob h o) (8 * (1 + n)) then .fault codePoison p (8 * (1 + n))
    else fetchedOf w ((List.range n).map (fun i => readNat s (.glob h (o + 8 + 8 * i)) 8))

/-- The next instruction of a context. -/
noncomputable def fetchStream (s : State) (c : Nat) : Fetched := if expanding (ctx s c) then fetchBody s c else fetchCode s c

/-! ### Execution -/

/-- What an instruction does to its context; `pass` is a branch by a number of words that is not taken. -/
inductive SRes where
  | next (s : State)
  | jump (s : State) (words : Int)
  | pass (s : State) (words : Int)
  | goto_ (s : State) (pc : BitVec 48)
  | stay (s : State)
  | wait (s : State) (k : WaitKind)
  | fault (s : State) (code : BitVec 8) (info : Word)

/-- Which instructions run in a bracket (R128) and in an expansion (R136). -/
structure Where where
  bracket : Bool
  body    : Bool

/-- Control passes to a word of an expansion's body, or past its end (R136). -/
def toBody (c pos : Nat) (s : State) : State :=
  let m := mdir s (ctxDie c) (ctx s c).mindex.toNat
  if pos < m.len then updCtx s c (fun x => { x with mpos := BitVec.ofNat 12 pos, woken := false })
  else updCtx s c (fun x => { x with inmac := false, mret := false, mpos := 0, mparams := [], pc := x.pc + 8, woken := false })

/-- The instruction at PC, of a number of words, has executed. -/
def advancePc (c words : Nat) (s : State) : State :=
  let x := ctx s c
  if expanding x then toBody c (x.mpos.toNat + words) s
  else updCtx s c (fun x => { x with pc := x.pc + BitVec.ofNat 48 (8 * words), woken := false })

/-- What a bracket says of a branch target: one at or before TREC.OPEN faults; the greatest is kept for TREC.CLOSE (R128). None where it
faults. -/
def bracketTarget (b : Bracket) (t : Int) : Option Bracket :=
  if t < (b.start : Int) then none else some { b with maxT := Nat.max b.maxT t.toNat }

/-- A branch by a number of words (R99): within a bracket its target is checked, taken or not (R128), within an expansion it stays in the
body (R136). -/
def branch (c words : Nat) (taken : Bool) (d : Int) (s : State) : State :=
  let x := ctx s c
  if expanding x then
    let t := (x.mpos.toNat : Int) + d
    if !taken then advancePc c words s
    else if t < 0 ∨ ((mdir s (ctxDie c) x.mindex.toNat).len : Int) ≤ t then streamFault c codeIllegal 0 (8 * words) [] s
    else toBody c t.toNat s
  else
    let go := fun (s : State) => if taken then updCtx s c (fun x => { x with pc := x.pc + BitVec.ofInt 48 (8 * d), woken := false }) else advancePc c words s
    match x.bracket with
    | none => go s
    | some b =>
      match bracketTarget b ((x.pc.toNat : Int) + 8 * d) with
      | none => streamFault c codeRecipeInvalid 0 (8 * words) [] s
      | some b => go (updCtx s c (fun x => { x with bracket := some b }))

/-- Begin a wait (R90): the instruction has issued and has not completed. -/
def beginWait (c : Nat) (k : WaitKind) (s : State) : State :=
  updCtx s c (fun x => { x with wait := some k, waitUs := if x.woken then x.waitUs else s.us, state := if x.state = .stopping then .stopping else .waiting })

/-- What a wait asks of the Hasp: a tensor in HBM4E (R190, R197). -/
def askWait (c : Nat) (k : WaitKind) (s : State) : State :=
  let x := ctx s c
  let go := fun (h : Nat) => requestResident h (.ctx c) x.part.toNat x.cls.toNat s
  match k with
  | .fetch h => go h
  | .tensor h _ => go h
  | .pin h => go h
  | _ => s

/-- Whether a context executes: it runs, or it stops and finishes the instruction it is in (R72). -/
def executes (x : Ctx) : Bool := (x.state == .running || (x.state == .stopping && x.woken && !x.killing)) && x.wait.isNone && !x.ending

/-- Execute an instruction of a number of words on a context. -/
def runStream (words : Nat) (w : Where) (c : Nat) (f : State → SRes) (s : State) : State :=
  let x := ctx s c
  if !executes x then s
  else if expanding x ∧ !w.body then streamFault c codeIllegal 0 (8 * words) [] s
  else if (x.bracket.isSome ∨ x.sub.isSome) ∧ !w.bracket then streamFault c codeRecipeInvalid 0 (8 * words) [] s
  else match f s with
  | .next s => advancePc c words s
  | .jump s d => branch c words true d s
  | .pass s d => branch c words false d s
  | .goto_ s pc => updCtx s c (fun x => { x with pc := pc, woken := false })
  | .stay s => s
  | .wait s k => askWait c k (updCtx (beginWait c k s) c (fun x => { x with wlen := 8 * words }))
  | .fault s code info => streamFault c code info (8 * words) [] s

/-- Where an instruction may run. -/
def anywhere : Where := { bracket := true, body := true }
def inBracket : Where := { bracket := true, body := false }
def inBody : Where := { bracket := false, body := true }
def plainOnly : Where := { bracket := false, body := false }

/-- The outcome of a stream instruction on the context the step names. -/
def streamDo (words : Nat) (w : Where) (f : Nat → State → SRes) (s : State) : Host.Outcome State Fault Refusal :=
  .next (runStream words w s.curCtx (f s.curCtx) s)

/-! ### Control flow (R96, R99, R100) -/

/-- STREAM_BR. -/
def execStreamBr (imm : BitVec 32) (s : State) : Host.Outcome State Fault Refusal := streamDo 1 anywhere (fun _ s => .jump s imm.toInt) s

/-- The conditions of BRC. -/
def brHolds (cc : BrCond) (a b : Word) : Bool :=
  match cc with
  | .eq => a == b
  | .ne => a != b
  | .lt => decide (a.toInt < b.toInt)
  | .ge => decide (b.toInt ≤ a.toInt)
  | .ltu => decide (a.toNat < b.toNat)
  | .geu => decide (b.toNat ≤ a.toNat)

/-- BRC. -/
def execBrc (cc : BrCond) (a b : BitVec 5) (imm : BitVec 32) (s : State) : Host.Outcome State Fault Refusal :=
  streamDo 1 anywhere (fun c s => if brHolds cc (qReg s c a.toNat) (qReg s c b.toNat) then .jump s imm.toInt else .pass s imm.toInt) s

/-- STREAM_CALL. -/
def execStreamCall (d : BitVec 5) (imm : BitVec 32) (s : State) : Host.Outcome State Fault Refusal :=
  streamDo 1 plainOnly (fun c s => .jump (setQ c d.toNat (((ctx s c).pc + 8).setWidth 64) s) imm.toInt) s

/-- STREAM_RET. -/
def execStreamRet (a : BitVec 5) (s : State) : Host.Outcome State Fault Refusal :=
  streamDo 1 plainOnly (fun c s =>
    let t := qReg s c a.toNat
    if t.toNat % 8 ≠ 0 then .fault s codeAlign 0 else .goto_ s (t.setWidth 48)) s

/-- END (R100): issue stops; PC keeps naming END until the context has ended. -/
def execStreamEnd (s : State) : Host.Outcome State Fault Refusal :=
  streamDo 1 plainOnly (fun c s => .stay (updCtx s c (fun x => { x with ending := true, woken := false }))) s

/-- SETH. -/
def execSeth (imm : BitVec 32) (s : State) : Host.Outcome State Fault Refusal :=
  streamDo 1 plainOnly (fun c s => .next (updCtx s c (fun x => { x with handler := some (x.pc + BitVec.ofInt 48 (8 * imm.toInt)) }))) s

/-- SETH_REMOVE. -/
def execSethRemove (s : State) : Host.Outcome State Fault Refusal :=
  streamDo 1 plainOnly (fun c s => .next (updCtx s c (fun x => { x with handler := none }))) s

/-- ERET (R96): resume at FPC, or past the faulting instruction; an expansion held goes on at POS, with skip past the instruction there
(DEDUCED, assumption 100). -/
def streamEret (skip : Bool) (c : Nat) (s : State) : SRes :=
  let x := ctx s c
  if !x.inh then .fault s codeIllegal 0
  else
    let n := if skip then x.flen else 0
    let s := updCtx s c (fun x => { x with inh := false })
    if x.inmac then
      .stay (toBody c (x.mpos.toNat + n / 8) (updCtx s c (fun x => { x with mret := true, pc := x.fpc })))
    else .goto_ s (x.fpc + BitVec.ofNat 48 n)

/-- STREAM_ERET. -/
def execStreamEret (s : State) : Host.Outcome State Fault Refusal := streamDo 1 plainOnly (streamEret false) s
/-- STREAM_ERET_SKIP. -/
def execStreamEretSkip (s : State) : Host.Outcome State Fault Refusal := streamDo 1 plainOnly (streamEret true) s

/-! ### Arithmetic (R101, R102) -/

/-- A register operation: q[QD] := f(q[QA], q[QB]). -/
def aluR (f : Word → Word → Word) (d a b : BitVec 5) (s : State) : Host.Outcome State Fault Refusal :=
  streamDo 1 anywhere (fun c s => .next (setQ c d.toNat (f (qReg s c a.toNat) (qReg s c b.toNat)) s)) s
/-- An immediate operation: q[QD] := f(q[QA], simm). -/
def aluI (f : Word → Word → Word) (d a : BitVec 5) (imm : BitVec 32) (s : State) : Host.Outcome State Fault Refusal :=
  streamDo 1 anywhere (fun c s => .next (setQ c d.toNat (f (qReg s c a.toNat) (sx imm)) s)) s

def fMulhu (a b : Word) : Word := BitVec.ofNat 64 (a.toNat * b.toNat / 2 ^ 64)
def fShl (a b : Word) : Word := a <<< (b.toNat % 64)
def fShr (a b : Word) : Word := a >>> (b.toNat % 64)
def fSar (a b : Word) : Word := a.sshiftRight (b.toNat % 64)
def fSlt (a b : Word) : Word := if a.toInt < b.toInt then 1 else 0
def fSltu (a b : Word) : Word := if a.toNat < b.toNat then 1 else 0
def fSeq (a b : Word) : Word := if a = b then 1 else 0
def fMin (a b : Word) : Word := if a.toInt ≤ b.toInt then a else b
def fMax (a b : Word) : Word := if a.toInt ≤ b.toInt then b else a
def fMinu (a b : Word) : Word := if a.toNat ≤ b.toNat then a else b
def fMaxu (a b : Word) : Word := if a.toNat ≤ b.toNat then b else a

/-- STREAM_ADD. -/
def execStreamAdd (d a b : BitVec 5) (s : State) : Host.Outcome State Fault Refusal := aluR (· + ·) d a b s
/-- STREAM_SUB. -/
def execStreamSub (d a b : BitVec 5) (s : State) : Host.Outcome State Fault Refusal := aluR (· - ·) d a b s
/-- STREAM_MUL. -/
def execStreamMul (d a b : BitVec 5) (s : State) : Host.Outcome State Fault Refusal := aluR (· * ·) d a b s
/-- STREAM_MULHU. -/
def execStreamMulhu (d a b : BitVec 5) (s : State) : Host.Outcome State Fault Refusal := aluR fMulhu d a b s
/-- STREAM_AND. -/
def execStreamAnd (d a b : BitVec 5) (s : State) : Host.Outcome State Fault Refusal := aluR (· &&& ·) d a b s
/-- STREAM_OR. -/
def execStreamOr (d a b : BitVec 5) (s : State) : Host.Outcome State Fault Refusal := aluR (· ||| ·) d a b s
/-- STREAM_XOR. -/
def execStreamXor (d a b : BitVec 5) (s : State) : Host.Outcome State Fault Refusal := aluR (· ^^^ ·) d a b s
/-- STREAM_SHL. -/
def execStreamShl (d a b : BitVec 5) (s : State) : Host.Outcome State Fault Refusal := aluR fShl d a b s
/-- STREAM_SHR. -/
def execStreamShr (d a b : BitVec 5) (s : State) : Host.Outcome State Fault Refusal := aluR fShr d a b s
/-- STREAM_SAR. -/
def execStreamSar (d a b : BitVec 5) (s : State) : Host.Outcome State Fault Refusal := aluR fSar d a b s
/-- STREAM_SLT. -/
def execStreamSlt (d a b : BitVec 5) (s : State) : Host.Outcome State Fault Refusal := aluR fSlt d a b s
/-- STREAM_SLTU. -/
def execStreamSltu (d a b : BitVec 5) (s : State) : Host.Outcome State Fault Refusal := aluR fSltu d a b s
/-- STREAM_SEQ. -/
def execStreamSeq (d a b : BitVec 5) (s : State) : Host.Outcome State Fault Refusal := aluR fSeq d a b s
/-- STREAM_MIN. -/
def execStreamMin (d a b : BitVec 5) (s : State) : Host.Outcome State Fault Refusal := aluR fMin d a b s
/-- STREAM_MAX. -/
def execStreamMax (d a b : BitVec 5) (s : State) : Host.Outcome State Fault Refusal := aluR fMax d a b s
/-- STREAM_MINU. -/
def execStreamMinu (d a b : BitVec 5) (s : State) : Host.Outcome State Fault Refusal := aluR fMinu d a b s
/-- STREAM_MAXU. -/
def execStreamMaxu (d a b : BitVec 5) (s : State) : Host.Outcome State Fault Refusal := aluR fMaxu d a b s
/-- STREAM_ADDI. -/
def execStreamAddi (d a : BitVec 5) (imm : BitVec 32) (s : State) : Host.Outcome State Fault Refusal := aluI (· + ·) d a imm s
/-- STREAM_SUBI. -/
def execStreamSubi (d a : BitVec 5) (imm : BitVec 32) (s : State) : Host.Outcome State Fault Refusal := aluI (· - ·) d a imm s
/-- STREAM_MULI. -/
def execStreamMuli (d a : BitVec 5) (imm : BitVec 32) (s : State) : Host.Outcome State Fault Refusal := aluI (· * ·) d a imm s
/-- STREAM_MULHUI. -/
def execStreamMulhui (d a : BitVec 5) (imm : BitVec 32) (s : State) : Host.Outcome State Fault Refusal := aluI fMulhu d a imm s
/-- STREAM_ANDI. -/
def execStreamAndi (d a : BitVec 5) (imm : BitVec 32) (s : State) : Host.Outcome State Fault Refusal := aluI (· &&& ·) d a imm s
/-- STREAM_ORI. -/
def execStreamOri (d a : BitVec 5) (imm : BitVec 32) (s : State) : Host.Outcome State Fault Refusal := aluI (· ||| ·) d a imm s
/-- STREAM_XORI. -/
def execStreamXori (d a : BitVec 5) (imm : BitVec 32) (s : State) : Host.Outcome State Fault Refusal := aluI (· ^^^ ·) d a imm s
/-- STREAM_SHLI. -/
def execStreamShli (d a : BitVec 5) (sh : BitVec 6) (s : State) : Host.Outcome State Fault Refusal := aluI fShl d a (sh.setWidth 32) s
/-- STREAM_SHRI. -/
def execStreamShri (d a : BitVec 5) (sh : BitVec 6) (s : State) : Host.Outcome State Fault Refusal := aluI fShr d a (sh.setWidth 32) s
/-- STREAM_SARI. -/
def execStreamSari (d a : BitVec 5) (sh : BitVec 6) (s : State) : Host.Outcome State Fault Refusal := aluI fSar d a (sh.setWidth 32) s
/-- STREAM_SLTI. -/
def execStreamSlti (d a : BitVec 5) (imm : BitVec 32) (s : State) : Host.Outcome State Fault Refusal := aluI fSlt d a imm s
/-- STREAM_SLTUI. -/
def execStreamSltui (d a : BitVec 5) (imm : BitVec 32) (s : State) : Host.Outcome State Fault Refusal := aluI fSltu d a imm s
/-- STREAM_SEQI. -/
def execStreamSeqi (d a : BitVec 5) (imm : BitVec 32) (s : State) : Host.Outcome State Fault Refusal := aluI fSeq d a imm s
/-- STREAM_MINI. -/
def execStreamMini (d a : BitVec 5) (imm : BitVec 32) (s : State) : Host.Outcome State Fault Refusal := aluI fMin d a imm s
/-- STREAM_MAXI. -/
def execStreamMaxi (d a : BitVec 5) (imm : BitVec 32) (s : State) : Host.Outcome State Fault Refusal := aluI fMax d a imm s
/-- STREAM_MINUI. -/
def execStreamMinui (d a : BitVec 5) (imm : BitVec 32) (s : State) : Host.Outcome State Fault Refusal := aluI fMinu d a imm s
/-- STREAM_MAXUI. -/
def execStreamMaxui (d a : BitVec 5) (imm : BitVec 32) (s : State) : Host.Outcome State Fault Refusal := aluI fMaxu d a imm s
/-- STREAM_MOVI. -/
def execStreamMovi (d : BitVec 5) (imm : BitVec 32) (s : State) : Host.Outcome State Fault Refusal :=
  streamDo 1 anywhere (fun c s => .next (setQ c d.toNat (sx imm) s)) s
/-- STREAM_MOVHI. -/
def execStreamMovhi (d : BitVec 5) (imm : BitVec 32) (s : State) : Host.Outcome State Fault Refusal :=
  streamDo 1 anywhere (fun c s => .next (setQ c d.toNat (BitVec.ofNat 64 (withBits (qReg s c d.toNat).toNat 32 32 imm.toNat)) s)) s

/-- The special registers of SRD (R95). -/
def srdValue (s : State) (c i : Nat) : Word :=
  let x := ctx s c
  match i with
  | 0 => x.code
  | 1 => BitVec.ofNat 64 c
  | 2 => x.part.setWidth 64
  | 3 => x.step
  | 4 => BitVec.ofNat 64 s.us
  | 5 => x.fpc.setWidth 64
  | 6 => x.fcode.setWidth 64
  | 7 => x.finfo
  | 8 => x.fdepth.setWidth 64
  | n => BitVec.ofNat 64 (nthD x.chain (n - 9) 0)

/-- SRD: in a bracket, only of CODE (R128). -/
def execSrd (d : BitVec 5) (idx : BitVec 6) (s : State) : Host.Outcome State Fault Refusal :=
  streamDo 1 { bracket := idx == 0, body := true } (fun c s =>
    if 16 < idx.toNat then .fault s codeIllegal 0 else .next (setQ c d.toNat (srdValue s c idx.toNat) s)) s

/-- NOP. -/
def execNop (s : State) : Host.Outcome State Fault Refusal := streamDo 1 anywhere (fun _ s => .next s) s
/-- STREAM_HINT (R94). -/
def execStreamHint (_k : BitVec 3) (xn : BitVec 2) (_rest : BitVec 56) (s : State) : Host.Outcome State Fault Refusal :=
  streamDo (1 + xn.toNat) anywhere (fun _ s => .next s) s

/-! ### Memory (R103-R106) -/

/-- What the checks of a stream access give (R103). -/
inductive SAcc where
  | tensor (h o : Nat)
  | host (addr : Nat) (port : Bool)
  | wait (k : WaitKind)
  | fault (code : BitVec 8)
  deriving DecidableEq, Repr

/-- The checks of an access of `n` bytes by a context (R103); `wr` for STQ. -/
def streamAccess (s : State) (c : Nat) (p : Word) (n : Nat) (wr : Bool) : SAcc :=
  let x := ctx s c
  if p.toNat % n ≠ 0 then .fault codeAlign
  else if isGlobal p then
    let h := ptrH p
    let r := trec s h
    if !declared s x.part.toNat h then .fault codeUndeclared
    else if r.bytes < ptrO p + n then .fault codeBounds
    else if wr ∧ (r.prot.getLsbD 0 ∨ r.owner.toNat ≠ c) then .fault codePrivilege
    else if dieGone s (handleDie h) then .fault codeDieLost
    else if !isReady s h then .wait (.tensor h (BitVec.ofNat 64 h))
    else if wr ∧ r.rhcnt ≠ 0 then .wait (.store h)
    else .tensor h (ptrO p)
  else if winOf p = 4 then
    match routeFor s x.part.toNat (fieldW p 0 60) n with
    | none => .fault codeTranslation
    | some r => if wr ∧ (!r.write ∨ r.port) then .fault codeTranslation else .host (fieldW p 0 60) r.port
  else .fault codeSpace

/-- The wait for a context's own STQs, which perform in program order with its other accesses (R104). -/
def ownStores : WaitKind := .fence 4 false false

/-- A read of `n` bytes of a context, as LDQ makes it: its bytes, or what stands in the way. -/
def streamRead (s : State) (c : Nat) (p : Word) (n : Nat) : Except SRes (State × List Byte) :=
  match streamAccess s c p n false with
  | .fault code => .error (.fault s code p)
  | .wait k => .error (.wait s k)
  | .host _ _ =>
    if (ctx s c).stores ≠ [] then .error (.wait s ownStores) else .ok (freeBytes s n)
  | .tensor h o =>
    if (ctx s c).stores ≠ [] then .error (.wait s ownStores)
    else if poisoned s (.glob h o) n then .error (.fault s codePoison p)
    else .ok (s, readLoc s (.glob h o) n)

/-- The bytes of a size code. -/
def sizeBytes (sz : BitVec 2) : Nat := 2 ^ sz.toNat

/-- A loaded value, sign- or zero-extended. -/
def extended (sx : BitVec 1) (n : Nat) (b : List Byte) : Word :=
  if sx = 1 then BitVec.ofInt 64 (signed (8 * n) (leNat b)) else BitVec.ofNat 64 (leNat b)

/-- LDQ. -/
def execLdq (d a : BitVec 5) (sz : BitVec 2) (sgn : BitVec 1) (imm : BitVec 32) (s : State) : Host.Outcome State Fault Refusal :=
  streamDo 1 inBody (fun c s =>
    match streamRead s c (qReg s c a.toNat + sx imm) (sizeBytes sz) with
    | .error r => r
    | .ok (s, b) => .next (setQ c d.toNat (extended sgn (sizeBytes sz) b) s)) s

/-- Send an STQ on its way behind those before it (R104): the number 512 and the context stand where a core's number does. The pin that a
re-issue of its tensor left to it goes with it (R197). -/
def sendStq (c : Nat) (p : Word) (l : Loc) (bytes : List Byte) (s : State) : State :=
  let op : AccessOp := .store bytes (allMask bytes.length)
  let e : CEntry := { body := .access p l op, pc := (ctx s c).pc.setWidth 64, vcc := 0 }
  let (id, s) := fresh s
  let s := { s with packets := s.packets ++ [{ id := id, lane := 0, src := .die (ctxDie c), dst := nodeOf l, core := 512 + c, after := (ctx s c).stores, lackUs := none, body := .access p l op none e }] }
  let h := match l with | .glob h _ => some h | _ => none
  updCtx s c (fun x => { x with stores := x.stores ++ [id], holds := x.holds.map (fun y => if y.1.isNone ∧ some y.2 = h then (some id, y.2) else y) })

/-- STQ. -/
def execStq (a b : BitVec 5) (sz : BitVec 2) (imm : BitVec 32) (s : State) : Host.Outcome State Fault Refusal :=
  streamDo 1 inBody (fun c s =>
    let p := qReg s c a.toNat + sx imm
    let bytes := leBytes (qReg s c b.toNat).toNat (sizeBytes sz)
    match streamAccess s c p (sizeBytes sz) true with
    | .fault code => .fault s code p
    | .wait k => .wait s k
    | .host addr port => .next (sendStq c p (.host addr port) bytes s)
    | .tensor h o => .next (sendStq c p (.glob h o) bytes s)) s

/-- Whether FENCE's conditions hold (R105). -/
def fenceOver (s : State) (c : Nat) (sv md : Bool) : Bool :=
  let under := fun (lane : Nat) => s.packets.any (fun p => match p.body with | .delta _ _ _ => p.core == 512 + c && p.lane == lane | _ => false)
  (ctx s c).stores == [] && (!sv || (s.degraded && s.mod.db.pendLoss == []) || !under 3) && (!md || !under 4)

/-- FENCE. -/
def execFence (scope : BitVec 3) (sv md : BitVec 1) (s : State) : Host.Outcome State Fault Refusal :=
  streamDo 1 anywhere (fun c s =>
    if fenceOver s c (sv == 1) (md == 1) then .next s else .wait s (.fence scope.toNat (sv == 1) (md == 1))) s

/-- WAITMB (R106). -/
def execWaitmb (d a b : BitVec 5) (s : State) : Host.Outcome State Fault Refusal :=
  streamDo 1 inBody (fun c s =>
    let p := qReg s c a.toNat
    if !isGlobal p then .fault s codeSpace p
    else match streamRead s c p 8 with
    | .error (.wait s (.tensor h _)) => .wait s (.tensor h p)
    | .error r => r
    | .ok (s, v) =>
      if BitVec.ofNat 64 (leNat v) = qReg s c b.toNat then .wait s (.mailbox d.toNat (ptrH p) (ptrO p) (qReg s c b.toNat))
      else .next (setQ c d.toNat (BitVec.ofNat 64 (leNat v)) s)) s

/-- IRQ (R76, R107). The sum is taken modulo 2^64, as all arithmetic of the stream (R101; DEDUCED, assumption 100). -/
def execIrq (a : BitVec 5) (imm : BitVec 32) (s : State) : Host.Outcome State Fault Refusal :=
  streamDo 1 inBody (fun c s =>
    let v := (qReg s c a.toNat + imm.setWidth 64).toNat
    if (partOf s (ctx s c).part.toNat).veccount.toNat ≤ v then .fault s codeBounds 0 else .next (sendVec (ctx s c).part.toNat v s)) s

/-! ### Events (R108-R110, R117) -/

/-- WAITE. -/
def execWaite (a : BitVec 5) (ev : BitVec 6) (imm : BitVec 32) (s : State) : Host.Outcome State Fault Refusal :=
  streamDo 1 inBody (fun c s =>
    let thr := (qReg s c a.toNat + sx imm).setWidth 32
    if evMet s c ev.toNat thr then .next s else .wait s (.event ev.toNat thr)) s

/-- SIGE, local. -/
def execSige (d _a : BitVec 5) (ev : BitVec 6) (n : BitVec 16) (s : State) : Host.Outcome State Fault Refusal :=
  streamDo 1 inBody (fun c s =>
    let s := addEvent c ev.toNat n.toNat s
    .next (setQ c d.toNat ((evCount s c ev.toNat).setWidth 64) s)) s

/-- SIGE, remote (R110): the signal goes once every earlier STQ of the context has performed. -/
def execSigeRemote (a : BitVec 5) (ev : BitVec 6) (n : BitVec 16) (s : State) : Host.Outcome State Fault Refusal :=
  streamDo 1 inBody (fun c s =>
    let t := (qReg s c a.toNat).toNat
    if 64 ≤ t then .fault s codeBounds 0
    else if (ctx s t).part ≠ (ctx s c).part then .fault s codePrivilege 0
    else
      let (id, s) := fresh s
      .next { s with packets := s.packets ++ [{ id := id, lane := 2, src := .die (ctxDie c), dst := .die (ctxDie t), core := 512 + c, after := (ctx s c).stores, lackUs := none, body := .signal t ev.toNat n.toNat }] }) s

/-- SHPUB (R117). -/
def execShpub (a : BitVec 5) (slot : BitVec 10) (s : State) : Host.Outcome State Fault Refusal :=
  streamDo 1 inBody (fun c s =>
    let v := fieldW (qReg s c a.toNat) 0 32
    if 65535 < v then .fault s codeBounds 0 else .next (publish s (ctx s c).part.toNat slot.toNat v)) s
/-- SHPUB.CLR. -/
def execShpubClr (slot : BitVec 10) (s : State) : Host.Outcome State Fault Refusal :=
  streamDo 1 inBody (fun c s => .next (unpublish s (ctx s c).part.toNat slot.toNat)) s

/-! ### Deadlines and classes (R138, R139) -/

/-- DEADLINE. -/
def execDeadline (a : BitVec 5) (pct : BitVec 8) (s : State) : Host.Outcome State Fault Refusal :=
  streamDo 1 anywhere (fun c s => .next (updCtx s c (fun x => { x with margin := pct, limit := (qReg s c a.toNat).setWidth 32 }))) s
/-- PRIO. -/
def execPrio (cl : BitVec 2) (s : State) : Host.Outcome State Fault Refusal :=
  streamDo 1 anywhere (fun c s => .next (updCtx s c (fun x => { x with cls := cl }))) s

end Sys2Proof.Machine
end

