-- ==== Sys2Proof/Machine/StreamLaunch.lean ====
section
/-!
DEFINITION. Sys2Proof/Machine/StreamLaunch.lean: the stream instructions that issue launches (R111-R118, R132, R140, R144),
declare and govern tensors (R121-R125), bracket recipes (R127-R129) and load and begin expansions (R134-R136).
-/

namespace Sys2Proof.Machine

/-! ### Checks shared by records and descriptors -/

/-- A check of a record: whether it holds, the fault, and the offset of the field it names (R98). -/
abbrev RecCheck := Bool × BitVec 8 × Nat

/-- The first check that fails. -/
def failing : List RecCheck → Option (BitVec 8 × Nat)
  | [] => none
  | (true, _, _) :: t => failing t
  | (false, code, off) :: _ => some (code, off)

/-- Whether a handle may stand in a record of a partition: a tensor of it, or in partition 0 a page table (R115, R178). -/
def mayName (s : State) (part h : Nat) : Bool := declared s part h || (part == 0 && isPageTable h)

/-- The size of what a handle names. -/
def sizeOf_ (s : State) (h : Nat) : Nat := tensorBytes s h

/-- Whether `n` bytes from a pointer lie within its tensor. -/
def withinTensor (s : State) (p : Word) (n : Nat) : Bool := decide (ptrO p + n ≤ sizeOf_ s (ptrH p))

/-- A read of `n` bytes for a context from a global pointer of a given alignment, as R114 and R121 read records: a fault with
its FINFO, a wait, or the bytes. -/
def recordRead (s : State) (c : Nat) (p : Word) (n align : Nat) (info : Nat → Word) : Except SRes (List Byte) :=
  let x := ctx s c
  let h := ptrH p
  let bad := fun (code : BitVec 8) => (Except.error (.fault s code (info 0)) : Except SRes (List Byte))
  if !isGlobal p then bad codeSpace
  else if ptrO p % align ≠ 0 then bad codeAlign
  else if !declared s x.part.toNat h then bad codeUndeclared
  else if (trec s h).bytes < ptrO p + n then bad codeBounds
  else if dieGone s (handleDie h) then bad codeDieLost
  else if !isReady s h then .error (.wait s (.tensor h (info 0)))
  else if x.stores ≠ [] then .error (.wait s ownStores)
  else if poisoned s (.glob h (ptrO p)) n then bad codePoison
  else .ok (readLoc s (.glob h (ptrO p)) n)

/-! ### Launch records (R111-R115) -/

/-- Operand entry `i` of a record. -/
def recOperand (b : List Byte) (i : Nat) : Operand :=
  let w := fieldB b (64 + 16 * i + 8) 8
  { ptr := BitVec.ofNat 64 (fieldB b (64 + 16 * i) 8), len := bitsOf w 0 40, rd := bitAt w 40, wr := bitAt w 41, retr := bitAt w 42 }

/-- The operand count of a record. -/
def recNoper (b : List Byte) : Nat := bitsOf (fieldB b 14 1) 0 5
/-- The operands of a record. -/
def recOps (b : List Byte) : List Operand := (List.range (recNoper b)).map (recOperand b)
/-- The tasks of a record. -/
def recTasks (b : List Byte) : Nat := fieldB b 8 2 * fieldB b 10 2 * fieldB b 12 2
/-- A record's pointers. -/
def recEntry (b : List Byte) : Word := BitVec.ofNat 64 (fieldB b 0 8)
def recArgs (b : List Byte) : Word := BitVec.ofNat 64 (fieldB b 16 8)
def recTable (b : List Byte) : Word := BitVec.ofNat 64 (fieldB b 32 8)

/-- The encoding checks of a record's header (R115). -/
def headerChecks (b : List Byte) : List RecCheck :=
  [(decide (fieldB b 14 1 < 32) && decide (recNoper b ≤ 16), codeIllegal, 14), (decide (fieldB b 15 1 < 4), codeIllegal, 15),
   (decide (fieldB b 24 2 ≤ 1024) && fieldB b 24 2 % 8 == 0, codeIllegal, 24), (decide (fieldB b 26 1 < 2), codeIllegal, 26),
   (fieldB b 27 1 == 0, codeIllegal, 27), (fieldB b 30 2 != 0 && decide (fieldB b 28 2 + fieldB b 30 2 ≤ 80), codeIllegal, 30),
   (fieldB b 46 18 == 0, codeIllegal, 46)]

/-- The other checks of a record, once its operands are read (R115). -/
def recordChecks (s : State) (part : Nat) (b : List Byte) : List RecCheck :=
  let ops := (List.range (recNoper b)).zip (recOps b)
  let tab := fieldB b 26 1 == 1
  let args := fieldB b 24 2 != 0
  ops.map (fun x => (x.2.len != 0 && fieldB b (64 + 16 * x.1 + 8) 8 / 2 ^ 43 == 0, codeIllegal, 64 + 16 * x.1 + 8)) ++
  [(fieldW (recEntry b) 0 2 == 0, codeAlign, 0), (isGlobal (recEntry b), codeSpace, 0), (!args || isGlobal (recArgs b), codeSpace, 16),
   (!tab || isGlobal (recTable b), codeSpace, 32)] ++
  ops.map (fun x => (isGlobal x.2.ptr, codeSpace, 64 + 16 * x.1)) ++
  [(declared s part (ptrH (recEntry b)), codeUndeclared, 0), (!args || declared s part (ptrH (recArgs b)), codeUndeclared, 16),
   (!tab || declared s part (ptrH (recTable b)), codeUndeclared, 32)] ++
  ops.map (fun x => (mayName s part (ptrH x.2.ptr), codeUndeclared, 64 + 16 * x.1)) ++
  [(!args || withinTensor s (recArgs b) (fieldB b 24 2), codeBounds, 16), (!tab || withinTensor s (recTable b) (recTasks b), codeBounds, 32)] ++
  ops.map (fun x => (withinTensor s x.2.ptr x.2.len, codeBounds, 64 + 16 * x.1)) ++
  ops.map (fun x => (!(x.2.wr && !isPageTable (ptrH x.2.ptr) && (trec s (ptrH x.2.ptr)).prot.getLsbD 0), codePrivilege, 64 + 16 * x.1))

/-! ### The launch queue (R140) -/

/-- The entries a context holds of its die's queue; `res` counts those of its reserved eight. -/
def queueHeld (s : State) (c : Nat) : Nat := (s.launches.cells.filter (fun x => x.2.sub.isNone && x.2.reserved && x.2.ctx == c)).length
/-- The shared entries taken on a die. -/
def queueShared (s : State) (d : Nat) : Nat := (s.launches.cells.filter (fun x => x.2.sub.isNone && !x.2.reserved && x.2.die == d)).length
/-- The entries of a die's pool for sub-streams that are taken. -/
def poolTaken (s : State) (d : Nat) : Nat := (s.launches.cells.filter (fun x => x.2.sub.isSome && x.2.die == d)).length

/-- Whether an entry is free for a context: one of its own eight, else a shared one; for a sub-stream, one of the pool. -/
def queueFree (s : State) (c : Nat) : Bool :=
  if (ctx s c).sub.isSome then decide (poolTaken s (ctxDie c) < 16)
  else decide (queueHeld s c < 8) || decide (queueShared s (ctxDie c) < 64)

/-- The context a launch acts for: its issuer, or for a sub-stream the context that owns the output when the re-run starts
(R131). -/
def actsFor (s : State) (c : Nat) : Nat := match (ctx s c).sub with | some h => (trec s h).owner.toNat | none => c

/-- The class a launch is queued with: a real-time request of a partition other than 0 is high (R115). -/
def queueClass (s : State) (c : Nat) : Nat := let x := ctx s c; if x.cls = 0 ∧ x.part ≠ 0 then 1 else x.cls.toNat

/-- Enter a launch into the queue: STEP rises, its operands, table and image are pinned, and a bracket counts it (R114,
R128, R144, R325). -/
def enqueue (c : Nat) (l : Launch) (s : State) : State :=
  let s := updCtx s c (fun x => { x with step := x.step + 1 })
  let (id, s) := fresh s
  let x := ctx s c
  let pins := (l.ops.map opHandle ++ (if l.plMode = 1 then [ptrH l.plTable] else []) ++ (if l.what = .tasks then [ptrH l.entry] else [])).filter (fun h => !isPageTable h)
  let l := { l with
    die := ctxDie c, ctx := actsFor s c, part := x.part.toNat, cls := queueClass s c, step := x.step, state := .waitEv, margin := x.margin.toNat,
    reserved := x.sub.isNone && decide (queueHeld s c < 8), bracket := x.bracket.map (fun b => b.num), sub := x.sub, pins := pins }
  let s := pins.foldl (fun s h => pin h s) { s with launches := s.launches.set .zero id l }
  updCtx s c (fun x => { x with bracket := x.bracket.map (fun b => { b with
    ids := b.ids ++ [id], cycles := Nat.min (2 ^ 48 - 1) (b.cycles + l.dlcyc * (l.gx * l.gy * l.gz)) }) })

/-- The launch a record describes. -/
def recLaunch (b : List Byte) (args : List Byte) (waits : List (Nat × BitVec 32)) (sig : Option Nat) : Launch :=
  { Launch.zero with
    entry := recEntry b, gx := fieldB b 8 2, gy := fieldB b 10 2, gz := fieldB b 12 2, group := bitAt (fieldB b 15 1) 0, persist := bitAt (fieldB b 15 1) 1,
    args := args, plMode := fieldB b 26 1, plBase := fieldB b 28 2, plCount := fieldB b 30 2, plTable := recTable b, dlcyc := fieldB b 40 6,
    ops := recOps b, waits := waits, sig := sig }

/-- The input entries in use, with their thresholds as read at issue (R114). -/
def thresholds (s : State) (c : Nat) (ins : LaunchIns) : List (Nat × BitVec 32) :=
  ([ins.i0, ins.i1, ins.i2, ins.i3].filter (fun i => i.valid == 1)).map (fun i => (i.evt.toNat, (qReg s c i.qt.toNat).setWidth 32))

/-- What a bracket asks of a launch (R128): its record in the code tensor, no input, and no other tensor written. -/
def bracketOk (s : State) (c : Nat) (p : Word) (b : List Byte) (waits : List (Nat × BitVec 32)) : Bool :=
  let x := ctx s c
  match x.bracket.map (fun r => r.out), x.sub with
  | none, none => true
  | some out, _ => ptrH p == ptrH x.code && waits == [] && (recOps b).all (fun o => !o.wr || opHandle o == out)
  | none, some out => ptrH p == ptrH x.code && waits == [] && (recOps b).all (fun o => !o.wr || opHandle o == out)

/-- The FINFO of a record's fault. -/
def fieldInfo (off : Nat) : Word := BitVec.ofNat 64 off

/-- Issue a launch from the record at a pointer (R114, R115); `more` makes the checks and the changes of LAUNCHP. -/
def issueLaunch (c : Nat) (p : Word) (ins : LaunchIns) (sig : Option Nat)
    (more : List Byte → Launch → State → Except (BitVec 8 × Nat) (Launch × State)) (s : State) : SRes :=
  match recordRead s c p 64 64 fieldInfo with
  | .error r => r
  | .ok hdr =>
    match failing (headerChecks hdr) with
    | some (code, off) => .fault s code (fieldInfo off)
    | none =>
    match recordRead s c p (64 + 16 * recNoper hdr) 64 fieldInfo with
    | .error r => r
    | .ok b =>
    match failing (recordChecks s (ctx s c).part.toNat b) with
    | some (code, off) => .fault s code (fieldInfo off)
    | none =>
    let waits := thresholds s c ins
    if !bracketOk s c p b waits then .fault s codeRecipeInvalid 0
    else
    match (if fieldB b 24 2 = 0 then .ok [] else recordRead s c (recArgs b) (fieldB b 24 2) 1 (fun _ => fieldInfo 16)) with
    | .error r => r
    | .ok args =>
    match more b (recLaunch b args waits sig) s with
    | .error (code, off) => .fault s code (fieldInfo off)
    | .ok (l, s2) => if queueFree s c then .next (enqueue c l s2) else .wait s .queue

/-- LAUNCH. -/
def execLaunch (a : BitVec 5) (ev : BitVec 6) (sig : BitVec 1) (ins : LaunchIns) (s : State) : Host.Outcome State Fault Refusal :=
  streamDo 2 inBracket2 (fun c s => issueLaunch c (qReg s c a.toNat) ins (if sig = 1 then some ev.toNat else none) (fun _ l s => .ok (l, s)) s) s
where
  inBracket2 : Where := { bracket := true, body := true }

/-- The prediction of a site (R162), with the entry as the prediction leaves it. Where the entry passes to another partition, the learning of
the launches that predicted from it is discarded. -/
def predict (s : State) (d part : Nat) (p : PredFields) : Nat × State :=
  let k := d * 256 + p.site.toNat
  let e0 := (s.tumblers.get 0 k).toNat
  let e := if bitsOf e0 67 3 = part then e0 else withBits (withBits e0 64 3 0) 67 3 part
  let s := { s with tumblers := s.tumblers.set 0 k (BitVec.ofNat 128 e), launches := if bitsOf e0 67 3 = part then s.launches else { cells := s.launches.cells.map (forget d p.site.toNat) } }
  let cnt := bitsOf e 64 3
  let h0 := bitsOf e 0 16
  if p.mode = 0 ∨ cnt = 0 then (p.fixv.toNat, s)
  else if p.mode = 1 then (h0, s)
  else if p.mode = 2 then (((List.range cnt).map (fun i => bitsOf e (16 * i) 16)).foldl Nat.max 0, s)
  else (h0 + (h0 * p.pct.toNat + 99) / 100, s)
where
  /-- A launch of a site whose entry passes to another partition learns no more. -/
  forget (d site : Nat) (x : Nat × Launch) : Nat × Launch :=
    match x.2.pred with
    | some p => if x.2.die = d ∧ p.site = site then (x.1, { x.2 with pred := some { p with learn := false } }) else x
    | none => x

/-- The extent of a record on a dimension. -/
def extentOn (l : Launch) (dim : Nat) : Nat := if dim = 0 then l.gx else if dim = 1 then l.gy else l.gz
/-- A launch with its extent on a dimension replaced. -/
def withExtent (l : Launch) (dim n : Nat) : Launch :=
  if dim = 0 then { l with gx := n } else if dim = 1 then { l with gy := n } else { l with gz := n }

/-- What LAUNCHP adds (R116): the predicted or known extent, and the prediction that the launch carries. -/
def addPrediction (c : Nat) (min : Nat) (p : PredFields) (l : Launch) (s : State) : Except (BitVec 8 × Nat) (Launch × State) :=
  let part := (ctx s c).part.toNat
  let dim := p.dim.toNat
  let maxe := extentOn l dim
  let slot := (s.shapes.get 0 (part * 1024 + p.slot.toNat)).toNat
  let known := bitAt slot 16
  if maxe < min then .error (codeBounds, 8 + 2 * dim)
  else
    let r := if known then (Nat.min (bitsOf slot 0 16) maxe, s) else let q := predict s (ctxDie c) part p; (Nat.min maxe (Nat.max min q.1), q.2)
    let known? : Option Nat := if known then some (bitsOf slot 0 16) else none
    let pr : Pred := Pred.mk p.site.toNat dim p.slot.toNat min maxe r.1 (!known) known? none false
    .ok ({ withExtent l dim r.1 with pred := some pr }, r.2)

/-- LAUNCHP. -/
def execLaunchp (a b : BitVec 5) (ev : BitVec 6) (sig : BitVec 1) (ins : LaunchIns) (pred : PredFields) (s : State) : Host.Outcome State Fault Refusal :=
  streamDo 3 inBody (fun c s =>
    if pred.dim = 3 then .fault s codeIllegal 0
    else issueLaunch c (qReg s c a.toNat) ins (if sig = 1 then some ev.toNat else none)
      (fun _ l s => addPrediction c (fieldW (qReg s c b.toNat) 0 16) pred l s) s) s

/-! ### Collectives (R132) -/

/-- The fields of a collective's descriptor. -/
def collOp (b : List Byte) : Nat := fieldB b 0 1
def collFmt (b : List Byte) : Nat := fieldB b 1 1
def collScope (b : List Byte) : Nat := fieldB b 2 1
def collRanks (b : List Byte) : Nat := fieldB b 4 2
def collRank (b : List Byte) : Nat := fieldB b 6 2
def collCount (b : List Byte) : Nat := fieldB b 24 5
def collIn (b : List Byte) : Word := BitVec.ofNat 64 (fieldB b 8 8)
def collOut (b : List Byte) : Word := BitVec.ofNat 64 (fieldB b 16 8)
def collMods (b : List Byte) : Word := BitVec.ofNat 64 (fieldB b 40 8)

/-- Elements rounded up to whole blocks of a format. -/
def wholeBlocks (fmt n : Nat) : Nat := (n + blockLen fmt - 1) / blockLen fmt * blockLen fmt
/-- The bytes that `n` elements of a format take (R296). -/
def collBytes (fmt n : Nat) : Nat := layoutSize fmt (wholeBlocks fmt n)

/-- The elements a participant writes: its share of a reduce-scatter, every rank's of an all-gather, each from a block of its own on
(assumption 100), else COUNT. -/
def collOutCount (b : List Byte) : Nat :=
  if collOp b = 1 then collCount b / collRanks b else if collOp b = 2 then wholeBlocks (collFmt b) (collCount b) * collRanks b else collCount b

/-- The checks of a descriptor (R132, R133). -/
def collChecks (s : State) (part : Nat) (b : List Byte) : List RecCheck :=
  let sum := decide (collOp b < 2)
  let f := collFmt b
  let inN := collBytes f (collCount b)
  let outN := collBytes f (collOutCount b)
  let mods := collScope b == 1
  [(decide (collOp b < 5), codeIllegal, 0), (formatOk f && (!sum || f == 0 || f == 2 || f == 0x10 || f == 5 || f == 6), codeIllegal, 1),
   (decide (collScope b < 2), codeIllegal, 2), (fieldB b 3 1 == 0, codeIllegal, 3),
   (decide (2 ≤ collRanks b) && decide (collRanks b ≤ (if collScope b = 0 then 8 else 4096)), codeIllegal, 4),
   (decide (collRank b < collRanks b), codeIllegal, 6), (fieldB b 29 3 == 0, codeIllegal, 24),
   (if collOp b = 3 then decide (fieldB b 34 2 < collRanks b) else fieldB b 34 2 == 0, codeIllegal, 34),
   (mods || popN (fieldB b 36 1) 8 == collRanks b, codeIllegal, 36), (fieldB b 37 3 == 0, codeIllegal, 37), (fieldB b 48 16 == 0, codeIllegal, 48),
   (isGlobal (collIn b), codeSpace, 8), (isGlobal (collOut b), codeSpace, 16), (!mods || isGlobal (collMods b), codeSpace, 40),
   (declared s part (ptrH (collIn b)), codeUndeclared, 8), (declared s part (ptrH (collOut b)), codeUndeclared, 16),
   (!mods || declared s part (ptrH (collMods b)), codeUndeclared, 40),
   (withinTensor s (collIn b) inN, codeBounds, 8), (withinTensor s (collOut b) outN, codeBounds, 16),
   (!mods || withinTensor s (collMods b) (2 * collRanks b), codeBounds, 40),
   (!(trec s (ptrH (collOut b))).prot.getLsbD 0, codePrivilege, 16)]

/-- The operands a collective pins and reads and writes. -/
def collOps (b : List Byte) : List Operand :=
  [{ ptr := collIn b, len := collBytes (collFmt b) (collCount b), rd := true, wr := false, retr := false },
   { ptr := collOut b, len := collBytes (collFmt b) (collOutCount b), rd := false, wr := true, retr := false }] ++
  (if collScope b = 1 then [{ ptr := collMods b, len := 2 * collRanks b, rd := true, wr := false, retr := false }] else [])

/-- COLL. -/
def execColl (a : BitVec 5) (ev : BitVec 6) (sig : BitVec 1) (s : State) : Host.Outcome State Fault Refusal :=
  streamDo 1 inBody (fun c s =>
    match recordRead s c (qReg s c a.toNat) 64 1 fieldInfo with
    | .error r => r
    | .ok b =>
      match failing (collChecks s (ctx s c).part.toNat b) with
      | some (code, off) => .fault s code (fieldInfo off)
      | none =>
        if queueFree s c then
          .next (enqueue c { Launch.zero with what := .coll b, ops := collOps b, sig := if sig = 1 then some ev.toNat else none } s)
        else .wait s .queue) s

/-! ### Tensors (R121-R125) -/

/-- A handle a context names: a tensor of its partition, or the fault. -/
def namedTensor (s : State) (c : Nat) (p : Word) : Option Nat :=
  if isGlobal p ∧ declared s (ctx s c).part.toNat (ptrH p) then some (ptrH p) else none

/-- TDECL. -/
def execTdecl (d a : BitVec 5) (s : State) : Host.Outcome State Fault Refusal :=
  streamDo 1 inBody (fun c s =>
    match recordRead s c (qReg s c a.toNat) 64 64 (fun _ => 0) with
    | .error r => r
    | .ok b =>
      match declareTensor b (ctx s c).part.toNat c (ctx s c).step s with
      | .error (code, off) => .fault s code (fieldInfo off)
      | .ok (s, h) => .next (setQ c d.toNat (globalPtr h 0) s)) s

/-- TFREE (R122). -/
def execTfree (a : BitVec 5) (s : State) : Host.Outcome State Fault Refusal :=
  streamDo 1 inBody (fun c s =>
    match namedTensor s c (qReg s c a.toNat) with
    | none => .fault s codeUndeclared 0
    | some h => if freeWaits s h then .wait s (.free h) else .next (freeTensor h s)) s

/-- The LLC bytes pinned on a die (R123): each entry's length counts, also where entries overlap (DESIGN CHOICE, assumption 100). -/
def llcPinned (s : State) (d : Nat) : Nat := (((hasp s d).pins.filter (fun p => p.llc)).map (fun p => p.len)).sum

/-- TPIN (R123). -/
def execTpin (a b : BitVec 5) (llc : BitVec 1) (s : State) : Host.Outcome State Fault Refusal :=
  streamDo 1 inBody (fun c s =>
    let p := qReg s c a.toNat
    let n := (qReg s c b.toNat).toNat
    match namedTensor s c p with
    | none => .fault s codeUndeclared 0
    | some h =>
      let d := handleDie h
      if n = 0 ∨ (trec s h).bytes < ptrO p + n then .fault s codeBounds 0
      else if 4096 ≤ (hasp s d).pins.length ∨ (llc = 1 ∧ 64 * 2 ^ 20 < llcPinned s d + n) then .fault s codeBounds p
      else if !isReady s h then .wait s (.pin h)
      else
        let s := updHasp (abandonMove h s) d (fun x => { x with pins := x.pins ++ [{ ptr := p, len := n, llc := llc == 1 }] })
        .next (if llc = 1 then updRec s h (fun r => { r with state := .llcpin }) else s)) s

/-- TUNPIN (R123): the first entry of a tensor of the partition with this start and length goes; with no such entry it faults with BOUNDS. A
tensor that TFREE has freed faults as a new reference to it (R122). -/
def execTunpin (a b : BitVec 5) (s : State) : Host.Outcome State Fault Refusal :=
  streamDo 1 inBody (fun c s =>
    let p := qReg s c a.toNat
    let n := (qReg s c b.toNat).toNat
    let h := ptrH p
    if isGlobal p ∧ (trec s h).freeing ∧ (trec s h).part = (ctx s c).part then .fault s codeUndeclared 0
    else match (namedTensor s c p).bind (fun h => (hasp s (handleDie h)).pins.find? (fun e => e.ptr == p && e.len == n)) with
    | none => .fault s codeBounds 0
    | some e =>
      let s := pinDropped h (updHasp s (handleDie h) (fun x => { x with pins := x.pins.erase e }))
      .next (if (trec s h).state = .llcpin ∧ !(hasp s (handleDie h)).pins.any (fun q => q.llc && ptrH q.ptr == h)
        then updRec s h (fun r => { r with state := .hbm }) else s)) s

/-- TUSE (R124). -/
def execTuse (a b : BitVec 5) (s : State) : Host.Outcome State Fault Refusal :=
  streamDo 1 inBody (fun c s =>
    match namedTensor s c (qReg s c a.toNat) with
    | none => .fault s codeUndeclared 0
    | some h => .next (setUses h (qReg s c b.toNat) (ctx s c).step s)) s

/-- TPROT (R125). -/
def execTprot (a : BitVec 5) (flags : BitVec 4) (s : State) : Host.Outcome State Fault Refusal :=
  streamDo 1 inBody (fun c s =>
    match namedTensor s c (qReg s c a.toNat) with
    | none => .fault s codeUndeclared 0
    | some h => .next (updRec s h (fun r => { r with prot := flags }))) s

/-! ### Recipe brackets (R127-R129) -/

/-- TREC.OPEN: bit i of the mask field stands for q(i+1). That the output is not recipe-held is the program's to see to (R127, R9). -/
def execTrecOpen (a : BitVec 5) (mask : BitVec 31) (s : State) : Host.Outcome State Fault Refusal :=
  streamDo 1 plainOnly (fun c s =>
    match namedTensor s c (qReg s c a.toNat) with
    | none => .fault s codeUndeclared 0
    | some h =>
      let saved := ((List.range 31).filter (fun i => mask.getLsbD i)).map (fun i => (i + 1, qReg s c (i + 1)))
      let (n, s) := fresh s
      let b : Bracket := Bracket.mk n h saved ((ctx s c).pc + 8).toNat 0 [] [] 0 false
      .next (updCtx s c (fun x => { x with bracket := some b }))) s

/-- A free entry of a die's recipe store (R198). -/
def freeRecipeIx (s : State) (d : Nat) : Option Nat :=
  let used := s.recs.cells.filterMap (fun x => if handleDie x.1 = d then x.2.recix else none)
  if used.length < 262144 then (List.range (used.length + 1)).find? (fun i => !used.contains i) else none

/-- The recipe a bracket records (R129, R198): the code tensor is its first input, with its generation at the first dispatch of a launch, or
now where the bracket had none. -/
def bracketRecipe (s : State) (c : Nat) (b : Bracket) : Recipe :=
  let code := ptrH (ctx s c).code
  { ctx := c, code := code, lo := b.start, hi := (ctx s c).pc.toNat, saved := b.saved, cycles := b.cycles,
    inputs := (match b.inputs.find? (fun i => i.1 == code) with | some i => i | none => (code, (trec s code).gen)) :: b.inputs.filter (fun i => i.1 != code) }

/-- TREC.CLOSE (R129): the bracket closes once its launches have completed. -/
def closeBracket (c : Nat) (b : Bracket) (s : State) : SRes :=
  let shut := fun (s : State) => updCtx s c (fun x => { x with bracket := none })
  let h := b.out
  if b.ids ≠ [] then .wait s .close
  else if !declared s (ctx s c).part.toNat h then .fault (shut s) codeUndeclared 0
  else if (ctx s c).pc.toNat < b.maxT then .fault (shut s) codeRecipeInvalid 0
  else if b.failed then .next (shut (spoilRecipe h s))
  else
    let r := bracketRecipe s c b
    if 16 < r.inputs.length then .fault (shut s) codeRecipeInvalid 0
    else
      match (match (trec s h).recix with | some i => some i | none => freeRecipeIx s (handleDie h)) with
      | none => .fault (shut s) codeBounds 0
      | some i =>
        let s := shut { s with recipes := s.recipes.set .zero (recipeKey (handleDie h) i) r }
        .next (updRec s h (fun t => { t with recix := some i, rvalid := true }))

/-- TREC.CLOSE. -/
def execTrecClose (s : State) : Host.Outcome State Fault Refusal :=
  streamDo 1 { bracket := !(ctx s s.curCtx).sub.isSome, body := false } (fun c s =>
    match (ctx s c).bracket with
    | none => .fault s codeRecipeInvalid 0
    | some b => closeBracket c b s) s

/-! ### Expansions (R134-R136) -/

/-- A body length: zero stands for 4,096 (R134). -/
def bodyLen (n : Nat) : Nat := if n = 0 then 4096 else n

/-- MACRO (R136): the parameters are read; those not given are open. -/
def execStreamMacro (m : BitVec 8) (n : BitVec 4) (a : BitVec 5) (s : State) : Host.Outcome State Fault Refusal :=
  streamDo 1 plainOnly (fun c s =>
    let e := mdir s (ctxDie c) m.toNat
    if 8 < n.toNat ∨ 32 < a.toNat + n.toNat ∨ !e.valid then .fault s codeIllegal 0
    else if e.part ≠ (ctx s c).part then .fault s codePrivilege 0
    else
      let params := (List.range n.toNat).map (fun i => qReg s c (a.toNat + i)) ++ (List.range (8 - n.toNat)).map (fun i => Config.freeValue (s.free + i))
      .stay (updCtx { s with free := s.free + 8 } c (fun x => { x with inmac := true, mret := true, mindex := m, mpos := 0, mparams := params, woken := false }))) s

/-- Whether two ranges of words meet. -/
def rangesMeet (a n b m : Nat) : Bool := decide (a < b + m) && decide (b < a + n)

/-- Whether a context of a die, other than the one that loads, runs or holds an expansion of an entry. -/
def expands (s : State) (c i : Nat) (live : Bool) : Bool :=
  (List.range 8).any (fun k =>
    let q := 8 * (c / 8) + k
    let x := ctx s q
    q != c && x.inmac && x.mindex.toNat == i && (x.state == .running || x.state == .waiting || x.state == .stopping) == live)

/-- MLOAD (R135). -/
def execMload (a : BitVec 5) (s : State) : Host.Outcome State Fault Refusal :=
  streamDo 1 plainOnly (fun c s =>
    let p := qReg s c a.toNat
    let d := ctxDie c
    match recordRead s c p 8 8 (fun _ => 0) with
    | .error r => r
    | .ok h =>
      let w := leNat h
      let start := bitsOf w 0 12
      let len := bodyLen (bitsOf w 12 12)
      let i := bitsOf w 24 8
      if w / 2 ^ 32 ≠ 0 then .fault s codeIllegal 0
      else if 4096 < start + len then .fault s codeBounds 0
      else if (List.range 256).any (fun k => k != i && (mdir s d k).valid && rangesMeet start len (mdir s d k).start (mdir s d k).len) then .fault s codeBounds 0
      else if (mdir s d i).valid ∧ (mdir s d i).part ≠ (ctx s c).part then .fault s codePrivilege 0
      else if expands s c i false ∨ ((ctx s c).inmac ∧ (ctx s c).mindex.toNat = i) then .fault s codeBounds 0
      else if expands s c i true then .wait s (.expansion i)
      else match recordRead s c p (8 * (1 + len + (len + 15) / 16)) 8 (fun _ => 0) with
      | .error r => r
      | .ok b =>
        let word := fun (k : Nat) => BitVec.ofNat 64 (fieldB b (8 * k) 8)
        let s := (List.range len).foldl (fun s k => { s with
          mwords := s.mwords.set 0 (d * 4096 + start + k) (word (1 + k)),
          mtags := s.mtags.set 0 (d * 4096 + start + k) (BitVec.ofNat 4 (fieldW (word (1 + len + k / 16)) (4 * (k % 16)) 4)) }) s
        .next { s with mdirs := s.mdirs.set .zero (d * 256 + i) { start := start, len := len, part := (ctx s c).part, valid := true } }) s

end Sys2Proof.Machine
end

