-- ==== Sys2Proof/Machine/Launches.lean ====
section
/-!
DEFINITION. Sys2Proof/Machine/Launches.lean: a launch from its queue to its end (R141-R146, R97, R104): thresholds, residency,
shares, the truth of a prediction and its trim (R165, R166, R202, R466), collectives (R133, R317-R319), and completion; and the
waits of stream contexts that end (R90, R106, R109).
-/

namespace Sys2Proof.Machine

/-! ### Waits of stream contexts -/

/-- A wait is over: the context runs, and its instruction, which has issued, goes on. -/
def wakeCtx (c : Nat) (s : State) : State :=
  updCtx s c (fun x => { x with wait := none, woken := true, state := if x.state = .waiting then .running else x.state })

/-- WAITMB_WAKE (R75, R106): the word differs; the new value is written and the context goes on. -/
def wakeMailbox (c : Nat) (s : State) : State :=
  let x := ctx s c
  match x.wait with
  | some (.mailbox d h o old) =>
    if !declared s x.part.toNat h then streamFault c codeUndeclared (globalPtr h o) 8 [] s
    else if dieGone s (handleDie h) then streamFault c codeDieLost (globalPtr h o) 8 [] s
    else if !isReady s h then requestResident h (.ctx c) x.part.toNat x.cls.toNat s
    else
      let v : Word := BitVec.ofNat 64 (readNat s (.glob h o) 8)
      if v = old then s
      else if poisoned s (.glob h o) 8 then streamFault c codePoison (globalPtr h o) 8 [] s
      else advancePc c 1 (setQ c d v (wakeCtx c s))
  | _ => s

/-- WAITMB_WAKE. -/
def execWaitmbWake (c : Nat) (s : State) : Host.Outcome State Fault Refusal := .next (wakeMailbox c s)

/-- Whether what a context waits for has come about. -/
def waitOver (s : State) (c : Nat) : WaitKind → Bool
  | .mailbox _ _ _ _ => false
  | .event e thr => evMet s c e thr
  | .queue => false
  | .fence _ sv md => fenceOver s c sv md
  | .fetch h => isReady s h || !declared s (ctx s c).part.toNat h
  | .tensor h _ => isReady s h || !declared s (ctx s c).part.toNat h
  | .pin h => isReady s h || !declared s (ctx s c).part.toNat h
  | .free h => !freeWaits s h || !declared s (ctx s c).part.toNat h
  | .close => match (ctx s c).bracket with | some b => b.ids == [] | none => true
  | .store h => (trec s h).rhcnt == 0 || !declared s (ctx s c).part.toNat h
  | .expansion i => !expands s c i true

/-- STREAM_WAIT_WAKE: a WAITE completes (R109); any other instruction goes on where it waited. -/
def wakeWait (c : Nat) (s : State) : State :=
  match (ctx s c).wait with
  | none => s
  | some k =>
    if !waitOver s c k then s
    else match k with
    | .event _ _ => advancePc c 1 (wakeCtx c s)
    | .fetch _ => updCtx (wakeCtx c s) c (fun x => { x with woken := false })
    | _ => wakeCtx c s

/-- STREAM_WAIT_WAKE. -/
def execStreamWaitWake (c : Nat) (s : State) : Host.Outcome State Fault Refusal := .next (wakeWait c s)

/-- Whether a context stands at a WAITMB, whose opcode is 0b010011 (R93). -/
def atMailbox (s : State) (c : Nat) : Bool :=
  let x := ctx s c
  let w := if expanding x then (s.mwords.get 0 (ctxDie c * 4096 + (mdir s (ctxDie c) x.mindex.toNat).start + x.mpos.toNat)).toNat
    else readNat s (.glob (ptrH x.code) x.pc.toNat) 8
  bitsOf w 58 6 == 0b010011

/-- Whether the wait limit applies to a context's wait: to WAITE, WAITMB, whatever it waits for, TFREE, TPIN and TREC.CLOSE (R138). -/
def limited (s : State) (c : Nat) : WaitKind → Bool
  | .mailbox _ _ _ _ => true
  | .event _ _ => true
  | .pin _ => true
  | .free _ => true
  | .close => true
  | .tensor _ _ => atMailbox s c
  | .fence _ _ _ => atMailbox s c
  | _ => false

/-- STREAM_WAIT_LIMIT (R109, R138). -/
def waitLimit (c : Nat) (s : State) : State :=
  let x := ctx s c
  match x.wait with
  | some k => if limited s c k ∧ x.limit ≠ 0 ∧ x.limit.toNat < s.us - x.waitUs ∧ !waitOver s c k then streamFault c codeDeadline 1 8 [] s else s
  | none => s

/-- STREAM_WAIT_LIMIT. -/
def execStreamWaitLimit (c : Nat) (s : State) : Host.Outcome State Fault Refusal := .next (waitLimit c s)

/-- REMOTE_SIGNAL_ARRIVAL (R108, R110): the signals that have reached a context count, in any of its states. -/
def takeSignals (c : Nat) (s : State) : State :=
  (ctx s c).inbox.foldl (fun s m => addEvent c m.1 m.2 s) (updCtx s c (fun x => { x with inbox := [] }))

/-- REMOTE_SIGNAL_ARRIVAL. -/
def execRemoteSignalArrival (c : Nat) (s : State) : Host.Outcome State Fault Refusal := .next (takeSignals c s)

/-- The failure of lowest STEP. -/
def lowestFailure : List Failure → Option Failure
  | [] => none
  | f :: t => match lowestFailure t with | some g => if g.step.toNat < f.step.toNat then some g else some f | none => some f

/-- LAUNCH_FAILURE_DELIVERY (R97, R98): before the next instruction issues, or while the context ends. -/
def deliverFailure (c : Nat) (s : State) : State :=
  let x := ctx s c
  match lowestFailure x.fails with
  | none => s
  | some f =>
    if (x.state ≠ .running ∧ x.state ≠ .stopping) ∨ x.wait.isSome ∨ x.woken then s
    else
      let info := BitVec.ofNat 64 (fieldW f.step 0 32 + f.code.toNat * 2 ^ 32 + f.core % 512 * 2 ^ 40 + Nat.min 32767 (x.fails.length - 1) * 2 ^ 49)
      streamFault c f.code info 0 f.chain (updCtx s c (fun x => { x with fails := [] }))

/-- LAUNCH_FAILURE_DELIVERY. -/
def execLaunchFailureDelivery (c : Nat) (s : State) : Host.Outcome State Fault Refusal := .next (deliverFailure c s)

/-- LAUNCH_QUEUE_WAIT_END (R114, R140). -/
def queueWaitEnd (c : Nat) (s : State) : State :=
  if (ctx s c).wait = some .queue ∧ queueFree s c then wakeCtx c s else s

/-- LAUNCH_QUEUE_WAIT_END. -/
def execLaunchQueueWaitEnd (c : Nat) (s : State) : Host.Outcome State Fault Refusal := .next (queueWaitEnd c s)

/-! ### Thresholds and residency (R141-R145) -/

/-- Whether a launch exists in a state. -/
def launchIn (s : State) (l : Nat) (st : LaunchState) : Bool := (launchOf s l).state == st

/-- Whether the launches of a bracket or sub-stream before this one have completed (R128). -/
def bracketFirst (s : State) (l : Nat) : Bool :=
  let x := launchOf s l
  if x.bracket.isNone && x.sub.isNone then true
  else !s.launches.cells.any (fun y => y.1 != l && y.2.sub == x.sub && y.2.ctx == x.ctx && (y.2.bracket == x.bracket) && decide (y.2.step.toNat < x.step.toNat))

/-- The tensors that must be resident before a launch is READY: its operands, and the tensor of its placement table. -/
def neededTensors (l : Launch) : List Nat :=
  ((l.ops.map opHandle ++ (if l.plMode = 1 then [ptrH l.plTable] else [])).filter (fun h => !isPageTable h && !ownSub l h)).eraseDups

/-- Whether a launch runs no task, whatever its truth, or with the truth it knows (R115, R169). -/
def runsNothing (x : Launch) : Bool :=
  x.gx * x.gy * x.gz == 0 && (match x.pred with
    | none => true
    | some p =>
      let g := withExtent x p.dim (match p.truth with | some t => Nat.min t p.maxe | none => p.maxe)
      g.gx * g.gy * g.gz == 0)

/-- Whether a truth makes its launch fail with BOUNDS (R118, R166). -/
def badTruth (p : Pred) (t : Nat) : Bool := decide (t < p.min) || decide (p.maxe < t)

/-- A launch that runs no task: it fails where its truth is out of bounds, and completes. -/
def passBy (l : Nat) (s : State) : State :=
  let x := launchOf s l
  let bad := match x.pred with | some p => (match p.truth with | some t => badTruth p t | none => false) | none => false
  updLaunch (if bad then failLaunch l codeBounds noCore s else s) l (fun x => { x with state := .drain, pred := x.pred.map (fun p => { p with trimmed := true }) })

/-- LAUNCH_THRESHOLDS_MET (R141, R142, R144): the launch enters WAIT_RES and asks for its operands. A grid with an extent of zero
asks for nothing. -/
def thresholdsMet (l : Nat) (s : State) : State :=
  let x := launchOf s l
  if x.state ≠ .waitEv ∨ !x.waits.all (fun w => evMet s x.ctx w.1 w.2) ∨ !bracketFirst s l then s
  else if x.what = .tasks ∧ runsNothing x then passBy l s
  else
    let s := updLaunch s l (fun x => { x with state := .waitRes })
    (neededTensors x).foldl (fun s h => if isResident (trec s h) ∨ dieGone s (handleDie h) then s else requestResident h (.launch l) x.part x.cls s) s

/-- LAUNCH_THRESHOLDS_MET. -/
def execLaunchThresholdsMet (l : Nat) (s : State) : Host.Outcome State Fault Refusal := .next (thresholdsMet l s)

/-- Whether a launch may leave WAIT_RES: every tensor it needs is resident, and none it writes is recipe-held (R144, R196). -/
def allResident (s : State) (x : Launch) : Bool :=
  (neededTensors x).all (fun h => isResident (trec s h) && (x.sub.isSome || !bounceHeld s h) && !dieGone s (handleDie h)) &&
  x.ops.all (fun o => !o.wr || isPageTable (opHandle o) || ownSub x (opHandle o) || (trec s (opHandle o)).rhcnt == 0)

/-- RESTORE_WAIT_TIMEOUT (R145): a restore that a launch waits for has found no victim for 10 ms, with no pin dropped on its die. -/
def restoreTimeout (l : Nat) (s : State) : State :=
  let x := launchOf s l
  if x.state = .waitRes ∧ x.fail.isNone ∧ x.roomUs.any (fun e => decide (e.2.1 + 10000 ≤ s.us))
  then failLaunch l codeBounds noCore s else s

/-- RESTORE_WAIT_TIMEOUT. -/
def execRestoreWaitTimeout (l : Nat) (s : State) : Host.Outcome State Fault Refusal := .next (restoreTimeout l s)

/-! ### Placement and shares (R113, R146) -/

/-- A task of a launch: its linear index and coordinates, and whether it is a tail task. -/
abbrev TaskItem := Nat × Nat × Nat × Nat × Bool

/-- The coordinate of a task item. -/
def itemCoord (dim : Nat) (t : TaskItem) : Nat := if dim = 0 then t.2.1 else if dim = 1 then t.2.2.1 else t.2.2.2.1

/-- The tasks of a grid in ascending linear index. -/
def gridTasks (gx gy gz : Nat) (tail : Bool) : List TaskItem :=
  (List.range (gx * gy * gz)).map (fun l => (l, l % gx, l / gx % gy, l / (gx * gy), tail))

/-- The logical cluster of a task, from the first (R113). -/
def placeOf (x : Launch) (t : TaskItem) : Nat := if x.plMode = 1 then (nthD x.table t.1 0).toNat else t.1 % x.plCount

/-- The map entry of a partition's logical cluster (R69). -/
def mapEntry (s : State) (part i : Nat) : BitVec 8 := s.maps.get 0 (part * 80 + i)

/-- Send the shares of a list of tasks of a launch: one for each logical cluster used, on lane 2 (R146). -/
def sendShares (l : Nat) (tasks : List TaskItem) (s : State) : State :=
  let x := launchOf s l
  (List.range x.plCount).foldl (fun s k =>
    let mine := tasks.filter (fun t => placeOf x t == k)
    if mine = [] then s
    else
      let cl := (mapEntry s x.part (x.plBase + k)).toNat % 128
      let sh : Share := { launch := l, cl := cl, todo := mine, age := 0, agedAt := 0, cls := x.cls, step := x.step, group := x.group, sub := x.sub.isSome, since := s.us, seq := 0 }
      let (id, s) := fresh s
      { s with packets := s.packets ++ [{ id := id, lane := 2, src := .die x.die, dst := .die (cl / 16), core := 512, after := [], lackUs := none, body := .share sh cl }] }) s

/-! ### Truth (R118, R165, R166, R202, R466) -/

/-- The retraction of a tensor to an extent (R202). -/
def retract (h t : Nat) (s : State) : State :=
  let r := trec s h
  let m := Nat.max t r.cext.toNat
  let s := (List.range (pagesOf r.bytes)).foldl (fun s i =>
    if !s.pages.get false (pageKey s h i) then s
    else
      let n := Nat.min 65536 (r.bytes - 65536 * i)
      let mask := (List.range n).map (fun b => retractable r m (65536 * i + b))
      if mask.all (fun b => !b) then s
      else
        let s := storeGlob s h (65536 * i) (List.replicate n 0) mask
        if mask.all (fun b => b) then { s with pages := s.pages.set false (pageKey s h i) false } else s) s
  updRec s h (fun r => { r with cext := BitVec.ofNat 32 m })

/-- The operands with RETR of a launch are retracted. -/
def retractAll (x : Launch) (t : Nat) (s : State) : State :=
  ((x.ops.filter (fun o => o.retr && (trec s (opHandle o)).growv)).map opHandle).eraseDups.foldl (fun s h => retract h t s) s

/-- The tail tasks of a truth (R166), indexed with the extent taken as T′. -/
def tailTasks (x : Launch) (p : Pred) (t : Nat) : List TaskItem :=
  let t2 := Nat.min t p.maxe
  if t ≤ p.ext then []
  else
    let g := withExtent x p.dim t2
    (gridTasks g.gx g.gy g.gz true).filter (fun i => decide (p.ext ≤ itemCoord p.dim i))

/-- Mark the trim applied; a bad truth fails the launch. -/
def trimDone (l : Nat) (p : Pred) (t : Nat) (s : State) : State :=
  let s := if badTruth p t then failLaunch l codeBounds noCore s else s
  updLaunch s l (fun x => { x with pred := some { p with trimmed := true } })

/-- Send an entry that an ended task of a launch held, now confirmed (R165). -/
def releaseFor (l : Nat) (s : State) (h : Nat × Nat × CEntry) : State :=
  let x := launchOf s l
  match h.2.2.body with
  | .access p loc op =>
    let (id, s) := fresh s
    let s := { s with packets := s.packets ++ [{ id := id, lane := 0, src := .core h.1, dst := nodeOf loc, core := h.1, after := [], lackUs := none, body := .access p loc op (some x.ctx) h.2.2 }] }
    updLaunch s l (fun x => { x with outs := x.outs ++ [id] })
  | _ => s

/-- Release the entries that a running core's confirmed task holds. -/
def confirmCore (s : State) (c : Nat) : State :=
  let held := (coreAt s c).b.holdQ
  releaseHeld c held (updBody s c (fun b => { b with holdQ := [], task := b.task.map (fun t => { t with prov := false }) }))

/-- Whether a coordinate of a provisional task lies past a truth. -/
def isPast (p : Pred) (t v : Nat) : Bool := decide (p.min ≤ v) && decide (t ≤ v)

/-- Whether a task is being saved. -/
def isSaving (t : Task) : Bool := match t.stage with | .saving _ => true | _ => false

/-- The running provisional tasks of a launch that a truth squashes, by their leading cores; one that is being saved waits for the end of its
save (R165). -/
def squashed (l : Nat) (p : Pred) (t : Nat) (s : State) : List Nat := leadsOf (fun _ k => k.launch == l && k.prov && !isSaving k && isPast p t (taskCoord k p.dim)) s

/-- The trim reaches the shares (R165): tasks past the truth that have not started are cancelled, and running ones are squashed. -/
def cutShares (l : Nat) (p : Pred) (t : Nat) (s : State) : State :=
  let f := fun (h : Share) => if h.launch = l then { h with todo := h.todo.filter (fun i => i.2.2.2.2 || !isPast p t (itemCoord p.dim i)) } else h
  let g := fun (x : List Share) => (x.map f).filter (fun h => h.launch != l || h.todo != [])
  let s := { s with
    disps := { cells := s.disps.cells.map (fun d => (d.1, { d.2 with shares := g d.2.shares })) },
    waiting := { cells := s.waiting.cells.map (fun w => (w.1, g w.2)) },
    packets := (s.packets.map (fun k => match k.body with | .share h cl => { k with body := .share (f h) cl } | _ => k)).filter (fun k =>
      match k.body with | .share h _ => h.launch != l || h.todo != [] | _ => true) }
  let lead := squashed l p t s
  let out := lead.flatMap (fun c => (groupOf s c).flatMap (fun q => (coreAt s q).out))
  updLaunch (lead.foldl (fun s c => killTask c s) s) l (fun x => { x with pred := some { p with cut := some ((p.cut.getD []) ++ out) } })

/-- What is left of the trim once no access of a squashed task is under way: saved tasks past the truth end, the operands are retracted, and
then the other provisional tasks are confirmed, running, ended or saved, and the tail tasks sent (R165, R166, R202). -/
def settleTrim (l : Nat) (p : Pred) (t : Nat) (s : State) : State :=
  let x := launchOf s l
  let s := retractAll x t (dropSaved (fun k => k.launch == l && k.prov && isPast p t (taskCoord k p.dim)) s)
  let s := (leadsOf (fun _ k => k.launch == l && k.prov && !isSaving k) s).foldl (fun s c => (groupOf s c).foldl confirmCore s) s
  let s := { s with cores := { cells := s.cores.cells.map (fun k => (k.1, { k.2 with frames := k.2.frames.map (fun f =>
    { f with body := { f.body with task := f.body.task.map (fun k => if k.launch = l then { k with prov := false } else k) } }) })) } }
  let s := ((launchOf s l).held.filter (fun h => !isPast p t h.2.1)).foldl (releaseFor l) (updLaunch s l (fun x => { x with held := [] }))
  trimDone l p t (sendShares l (tailTasks x p t) s)

/-- TRIM (R165): the shares of a launch apply its truth. The retraction waits until every access that a squashed task has released has performed
(R202), and for a task past the truth that is being saved. -/
def trim (l : Nat) (s : State) : State :=
  let x := launchOf s l
  match x.pred with
  | none => s
  | some p =>
    match p.truth with
    | none => s
    | some t =>
      if p.trimmed ∨ x.state ≠ .running then s
      else
        let s := cutShares l p t s
        let wait := match (launchOf s l).pred with | some q => (q.cut.getD []).any (notDone s) | none => false
        if wait = true ∨ s.cores.cells.any (fun k => match k.2.b.task with | some k => k.launch == l && k.prov && isSaving k && isPast p t (taskCoord k p.dim) | none => false) then s
        else settleTrim l p t s

/-- TRIM. -/
def execTrim (l : Nat) (s : State) : Host.Outcome State Fault Refusal := .next (trim l s)

/-- The tasks a launch has when its shares are created; a truth that is known by then is applied (R466). -/
def firstShares (l : Nat) (s : State) : State :=
  let x := launchOf s l
  let grid := gridTasks x.gx x.gy x.gz false
  match x.pred with
  | none => sendShares l grid s
  | some p =>
    match p.truth with
    | none => sendShares l grid s
    | some t => trimDone l p t (sendShares l (grid.filter (fun i => !(decide (p.min ≤ itemCoord p.dim i) && decide (t ≤ itemCoord p.dim i))) ++ tailTasks x p t) (retractAll x t s))

/-- The placement table as it stands (R113), or the fault it gives. -/
def readTable (s : State) (x : Launch) : Except (BitVec 8) (List Byte) :=
  if x.plMode ≠ 1 then .ok []
  else
    let g := match x.pred with | some p => withExtent x p.dim p.maxe | none => x
    let n := g.gx * g.gy * g.gz
    let l := Loc.glob (ptrH x.plTable) (ptrO x.plTable)
    if poisoned s l n then .error codePoison
    else
      let b := readLoc s l n
      if b.all (fun k => decide (k.toNat < x.plCount)) then .ok b else .error codeBounds

/-- The inputs a bracket meets: the code tensor and RD operands, with their generations as the first launch that has them is dispatched
(R129). -/
def noteInputs (x : Launch) (s : State) : State :=
  if x.bracket.isNone then s
  else
    let new := (ptrH (ctx s x.ctx).code :: (x.ops.filter (fun o => o.rd && !isPageTable (opHandle o))).map opHandle).map (fun h => (h, (trec s h).gen))
    updCtx s x.ctx (fun k => { k with bracket := k.bracket.map (fun b => if some b.num ≠ x.bracket then b else
      { b with inputs := new.foldl (fun l i => if l.any (fun j => j.1 == i.1) then l else l ++ [i]) b.inputs }) })

/-- A launch fails before READY: it passes directly to DONE (R141). -/
def failEarly (l : Nat) (code : BitVec 8) (s : State) : State := failLaunch l code noCore s

/-- The contribution planes of a collective's elements (R296). -/
def plane1Len (f g : Nat) : Nat :=
  if f = 0x10 ∨ f = 0x13 then g else if f = 0x11 then g / 2 else if f = 0x12 then 3 * g / 8 else g * elemBytes f
def plane2Len (f g : Nat) : Nat :=
  if f = 0x10 ∨ f = 0x11 then g / 16 else if f = 0x12 then g / 8 else if f = 0x13 then (g + 7) / 8 else 0

/-- What a participant contributes. -/
def collRead (s : State) (b : List Byte) : Contrib :=
  let f := collFmt b
  let g := wholeBlocks f (collCount b)
  let h := ptrH (collIn b)
  { data := readLoc s (.glob h (ptrO (collIn b))) (plane1Len f g), codes := readLoc s (.glob h (ptrO (collIn b) + plane0 f g)) (plane2Len f g) }

/-- The fields of a descriptor that every participant of a TAG has alike (R133), the TAG first. -/
def collKey (b : List Byte) : List Nat := [fieldB b 32 2, collOp b, collFmt b, collScope b, collRanks b, collCount b, fieldB b 34 2, fieldB b 36 1]

/-- A running collective fails. -/
def failColl (l : Nat) (code : BitVec 8) (s : State) : State :=
  updLaunch (failLaunch l code noCore s) l (fun x => { x with state := .drain, locks := [] })

/-- Send this module's contribution to the other modules of a collective (R133); one without a route fails it (R46). -/
def sendColl (l : Nat) (x : Launch) (b : List Byte) (s : State) : State :=
  if collScope b ≠ 1 then s
  else
    let k := collRead s b
    let r := (List.range (collRanks b)).foldl (fun (a : State × Bool) i =>
      let m := readNat s (.glob (ptrH (collMods b)) (ptrO (collMods b) + 2 * i)) 2
      if i = collRank b then ({ a.1 with mod := { a.1.mod with redIn := a.1.mod.redIn ++ [{ coll := true, part := x.part, key := collKey b, rank := i, data := k.data, codes := k.codes }] } }, a.2)
      else
        let r := netSend { dest := m, vl := 3, bytes := netContrib a.1 m (2 ^ 31 + l % 2 ^ 31) true x.part (collKey b) (collRank b) k } a.1
        (r.1, a.2 && r.2)) (s, true)
    if r.2 then r.1 else failColl l codeTranslation r.1

/-- The pages a collective locks: those of its input, its output and its list of modules (R180). -/
def collLocks (b : List Byte) : List (Nat × Nat × Nat) :=
  walkPages (collIn b) (collBytes (collFmt b) (collCount b)) 1 0 1 0 ++ walkPages (collOut b) (collBytes (collFmt b) (collOutCount b)) 1 0 1 0 ++
    (if collScope b = 1 then walkPages (collMods b) (2 * collRanks b) 1 0 1 0 else [])

/-- LAUNCH_RESIDENT (R144, R146): a launch whose operands are resident enters READY, and its shares are created. -/
def becomeReady (l : Nat) (s : State) : State :=
  let x := launchOf s l
  if x.state ≠ .waitRes ∨ x.fail.isSome ∨ !allResident s x then s
  else
    let s := noteInputs x s
    match x.what with
    | .coll b =>
      let locks := collLocks b
      if !locksFit s locks then s
      else sendColl l x b (updLaunch (locks.foldl (fun s r => abandonMove r.1 s) s) l (fun x => { x with state := .running, locks := locks }))
    | .tasks =>
      if !(List.range x.plCount).all (fun k => (mapEntry s x.part (x.plBase + k)).getLsbD 7) then failEarly l codeRetired s
      else match readTable s x with
      | .error code => failEarly l code s
      | .ok t => firstShares l (updLaunch s l (fun x => { x with table := t, state := .running }))

/-- LAUNCH_RESIDENT. -/
def execLaunchResident (l : Nat) (s : State) : Host.Outcome State Fault Refusal := .next (becomeReady l s)

/-- Whether a waiting share can go to its dispatcher: that has room, or holds a share of the same launch. -/
def shareFits (s : State) (h : Share) : Bool :=
  isRetired s h.cl || decide ((disp s h.cl).shares.length < 16) || (disp s h.cl).shares.any (fun x => x.launch == h.launch)

/-- A share reaches its dispatcher; the tail tasks of a launch join the share that it has there. One for a cluster that has been
retired since is never dispatched, and its launch fails (R148). -/
def giveShare (h : Share) (s : State) : State :=
  if isRetired s h.cl then failLaunch h.launch codeRetired noCore s
  else if (disp s h.cl).shares.any (fun x => x.launch == h.launch) then
    updDisp s h.cl (fun x => { x with shares := x.shares.map (fun y => if y.launch = h.launch then { y with todo := y.todo ++ h.todo, since := s.us } else y) })
  else
    let (n, s) := fresh s
    updDisp s h.cl (fun x => { x with shares := x.shares ++ [{ h with since := s.us, seq := n }] })

/-- SHARE_ARRIVAL (R146): the first share waiting at a die whose dispatcher has room is given to it. -/
def shareArrival (d : Nat) (s : State) : State :=
  match (s.waiting.get [] d).find? (shareFits s) with
  | none => s
  | some h => giveShare h { s with waiting := s.waiting.upd [] d (fun l => l.erase h) }

/-- SHARE_ARRIVAL. -/
def execShareArrival (d : Nat) (s : State) : Host.Outcome State Fault Refusal := .next (shareArrival d s)

/-! ### Collectives (R133) -/

/-- The running participants of a tag. -/
def collPeers (s : State) (part tag : Nat) : List (Nat × List Byte) :=
  s.launches.cells.filterMap (fun x => match x.2.what with
    | .coll b => if x.2.state = .running ∧ x.2.part = part ∧ fieldB b 32 2 = tag then some (x.1, b) else none
    | .tasks => none)

/-- A slice of a contribution: `n` elements from element `a` on. -/
def slice (f : Nat) (k : Contrib) (a n : Nat) : Contrib :=
  { data := (k.data.drop (plane1Len f a)).take (plane1Len f n), codes := (k.codes.drop (plane2Len f a)).take (plane2Len f n) }

/-- Contributions one after another. -/
def joined (l : List Contrib) : Contrib := { data := l.flatMap (fun k => k.data), codes := l.flatMap (fun k => k.codes) }

/-- The element type of a sum's format. -/
def sumFmt (f : Nat) : Fmt := if f = 0 then .bf16 else if f = 2 then .f32 else if f = 0x10 then .bq8 else if f = 5 then .i32 else .i64

/-- A participant's output, from the contributions in rank order; and whether a sum took the tree. -/
def collResult (b : List Byte) (cs : List Contrib) : Contrib × Bool :=
  let f := collFmt b
  let n := collCount b / collRanks b
  match collOp b with
  | 0 => reduceAll (sumFmt f) cs
  | 1 => let r := reduceAll (sumFmt f) cs; (slice f r.1 (n * collRank b) n, r.2)
  | 2 => (joined cs, false)
  | 3 => (nthD cs (fieldB b 34 2) { data := [], codes := [] }, false)
  | _ => (joined (cs.map (fun k => slice f k (n * collRank b) n)), false)

/-- Write a participant's output; OVERSPAN is reported in CTXNUM (R319). A context that does not own the output writes nothing, and its launch
fails with PRIVILEGE (R240; assumption 100). -/
def collWrite (l : Nat) (b : List Byte) (r : Contrib × Bool) (s : State) : State :=
  if (trec s (ptrH (collOut b))).owner.toNat ≠ (launchOf s l).ctx then failColl l codePrivilege s else
  let f := collFmt b
  let h := ptrH (collOut b)
  let o := ptrO (collOut b)
  let s := if r.1.data = [] then s else storeGlob s h o r.1.data (allMask r.1.data.length)
  let s := if r.1.codes = [] then s else storeGlob s h (o + plane0 f (wholeBlocks f (collOutCount b))) r.1.codes (allMask r.1.codes.length)
  let x := launchOf s l
  let s := if r.2 then updCtx s x.ctx (fun k => { k with num := BitVec.ofNat 64 (1 + fieldW x.step 0 32 * 2 ^ 32) }) else s
  updLaunch s l (fun x => { x with state := .drain, locks := [] })

/-- Whether a participant's input holds poison. -/
def collBad (s : State) (b : List Byte) : Bool := poisoned s (.glob (ptrH (collIn b)) (ptrO (collIn b))) (collBytes (collFmt b) (collCount b))

/-- A collective is performed for every participant at once when all are there; descriptors that differ, in this module or in a contribution
from another, or two participants of one rank, fail every participant of the tag (R133). -/
def runColl (l : Nat) (s : State) : State :=
  let x := launchOf s l
  match x.what with
  | .tasks => s
  | .coll b =>
    let all := collPeers s x.part (fieldB b 32 2)
    let n := collRanks b
    let failAll := fun (code : BitVec 8) => all.foldl (fun s p => failColl p.1 code s) s
    if all.any (fun p => collKey p.2 != collKey b) ∨ (all.map (fun p => collRank p.2)).eraseDups.length ≠ all.length then failAll codeBounds
    else if collScope b = 0 then
      if all.length < n then s
      else if all.any (fun p => collBad s p.2) then failAll codePoison
      else
        let cs := (List.range n).filterMap (fun i => (all.find? (fun p => collRank p.2 == i)).map (fun p => collRead s p.2))
        all.foldl (fun s p => collWrite p.1 p.2 (collResult p.2 cs) s) s
    else
      let tagged := s.mod.redIn.filter (fun r => r.coll && r.part == x.part && r.key.headD 0 == fieldB b 32 2)
      let got := (List.range n).filterMap (fun i => tagged.find? (fun r => r.key == collKey b && r.rank == i))
      let without := fun (l : List RedIn) (s : State) => { s with mod := { s.mod with redIn := l.foldl (fun t r => t.erase r) s.mod.redIn } }
      if collBad s b then failAll codePoison
      else if got.length = n then
        collWrite l b (collResult b (got.map (fun r => ({ data := r.data, codes := r.codes } : Contrib)))) (without got s)
      else if tagged.any (fun r => r.key != collKey b) then without tagged (failAll codeBounds)
      else s

/-! ### Completion (R97, R104, R141) -/

/-- Whether every task of a launch has ended, been cancelled or been squashed, and its truth, if it waits for one, has been
applied. -/
def tasksOver (s : State) (l : Nat) : Bool :=
  let x := launchOf s l
  x.live == 0 && !(allShares s).any (fun h => h.launch == l && h.todo != []) && (match x.pred with | some p => p.trimmed | none => true)

/-- Whether the conditions of R104 hold: every store and XSTORE of the tasks has performed, and every engine token has ended. -/
def drained (s : State) (l : Nat) : Bool :=
  let x := launchOf s l
  !x.outs.any (notDone s) && x.held == [] &&
  !s.cores.cells.any (fun k => k.2.b.xfQ.any (fun y => y.orphan && y.who.launch == l) || k.2.b.mxQ.any (fun y => y.orphan && y.who.launch == l))

/-- Whether the partition halt holds a launch's failure back (R159). -/
def frozenIn (s : State) (l : Nat) : Bool := (partOf s (launchOf s l).part).frozen.contains l

/-- A launch's entry is freed: its pins are dropped. -/
def freeLaunch (l : Nat) (s : State) : State :=
  let x := launchOf s l
  let s := { s with launches := s.launches.set .zero l .zero }
  x.pins.foldl (fun s h => unpin h s) s

/-- The tensors a completed launch has written (R126, R195): each gains a generation and loses its recipe, but for the output of
the sub-stream that runs it. -/
def noteWrites (x : Launch) (s : State) : State :=
  (((x.ops.filter (fun o => o.wr)).map opHandle).eraseDups.filter (fun h => !isPageTable h && !ownSub x h)).foldl (fun s h =>
    updRec s h (fun r => { r with gen := r.gen + 1, rvalid := false })) s

/-- A launch reaches DONE (R97, R104, R141): its event is signalled, its failure queued, its bracket or sub-stream told. -/
def finishLaunch (l : Nat) (s : State) : State :=
  let x := launchOf s l
  let s := freeLaunch l (noteWrites x s)
  match x.sub with
  | some h =>
    if x.fail.isSome then
      let s := failSub h s
      match reissueOf s h with
      | some r => (match r.sub with | some c => updCtx s c (fun k => { k with state := .ended, wait := none }) | none => s)
      | none => s
    else s
  | none =>
    let s := match x.sig with | some e => addEvent x.ctx e 1 s | none => s
    let s := if x.bracket.isSome then updCtx s x.ctx (fun k => { k with bracket := k.bracket.map (fun b =>
      { b with ids := b.ids.filter (fun i => i != l), failed := b.failed || (x.fail.isSome && b.ids.contains l) }) }) else s
    match x.fail with
    | some (code, who) => updCtx s x.ctx (fun k => { k with fails := k.fails ++ [{ step := x.step, code := code, core := who, chain := x.chain }] })
    | none => s

/-- LAUNCH_COMPLETE (R141): a launch whose tasks are over drains, and one that has drained, or failed before READY, is DONE. -/
def completeLaunch (l : Nat) (s : State) : State :=
  if launchIn s l .waitRes then (if (launchOf s l).fail.isSome then finishLaunch l s else s)
  else
    let s := if launchIn s l .running then
        (match (launchOf s l).what with
        | .coll _ => runColl l s
        | .tasks => if tasksOver s l ∧ !frozenIn s l then updLaunch s l (fun x => { x with state := .drain }) else s)
      else s
    if launchIn s l .drain ∧ drained s l then finishLaunch l s else s

/-- LAUNCH_COMPLETE. -/
def execLaunchComplete (l : Nat) (s : State) : Host.Outcome State Fault Refusal := .next (completeLaunch l s)

/-- SHAPE_SLOT_WRITE (R163): a host write of a shape slot publishes or clears. -/
def writeShape (part slot : Nat) (v : BitVec 32) (s : State) : State :=
  if 8 ≤ part ∨ 1024 ≤ slot then s
  else if v.getLsbD 16 then publish s part slot (v.toNat % 2 ^ 16)
  else unpublish s part slot

/-- SHAPE_SLOT_WRITE. -/
def execShapeSlotWrite (part slot : Nat) (v : BitVec 32) (s : State) : Host.Outcome State Fault Refusal := .next (writeShape part slot v s)

end Sys2Proof.Machine
end

