-- ==== Sys2Proof/Machine/Dispatcher.lean ====
section
/-!
DEFINITION. Sys2Proof/Machine/Dispatcher.lean: the cluster dispatchers (R147-R153, R167, R168), task start and the load of its
image (R149, R150, R324, R325), saves and resumes (R155-R157), and the halt of a partition by a deadline (R158-R160).
-/

namespace Sys2Proof.Machine

/-! ### Who may start -/

/-- Whether a partition exists (R61). -/
def partExists (s : State) (p : Nat) : Bool := p == 0 || (p < 8 && s.mod.vfen && decide (p ≤ s.mod.numvfs.toNat))

/-- Whether a partition's dispatchers start and resume no task (R154, R159, R70). -/
def partStopped (s : State) (p : Nat) : Bool := s.softs.getLsbD p || (partOf s p).halted || !partExists s p

/-- Whether a partition's cluster map names a physical cluster (R147). -/
def serves (s : State) (part cl : Nat) : Bool := (List.range 80).any (fun i => (mapEntry s part i).toNat == 128 + cl)

/-- Whether a published truth cancels a task that has not started, also where the trim has not yet reached its share (R165). -/
def isCancelled (x : Launch) (it : TaskItem) : Bool :=
  match x.pred with
  | some p => (match p.truth with | some t => !it.2.2.2.2 && decide (p.min ≤ itemCoord p.dim it) && decide (t ≤ itemCoord p.dim it) | none => false)
  | none => false

/-- The tasks of a share that have not started and are not cancelled. -/
def todoOf (s : State) (h : Share) : List TaskItem := h.todo.filter (fun it => !isCancelled (launchOf s h.launch) it)

/-- Whether a share is dispatchable on its cluster (R151). -/
def dispatchable (s : State) (h : Share) : Bool :=
  let x := launchOf s h.launch
  todoOf s h != [] && serves s x.part h.cl && !partStopped s x.part && !isRetired s h.cl

/-- The free cores of a cluster. -/
def freeCores (s : State) (cl : Nat) : List Nat := ((List.range 4).map (clusterCore cl)).filter (fun c => (taskOf s c).isNone)

/-- Whether a share comes before every other class: real-time, or a sub-stream's that has waited 100 µs (R153, R168). -/
def isUrgent (s : State) (h : Share) : Bool := h.cls == 0 || (h.sub && decide (h.since + 100 ≤ s.us))

/-- The class a share has against saved tasks. -/
def classOf (s : State) (h : Share) : Nat := if isUrgent s h then 0 else h.cls

/-- The class number of a saved task. -/
def frameClass (f : Frame) : Nat := match f.body.task with | some t => t.cls | none => 4

/-- Whether a free core may take a new task of a share: each of its saved tasks is of a higher class number (R155). -/
def openFor (s : State) (h : Share) (c : Nat) : Bool := (coreAt s c).frames.all (fun f => decide (classOf s h < frameClass f))

/-- The free cores a share may use. -/
def coresFor (s : State) (h : Share) : List Nat := (freeCores s h.cl).filter (openFor s h)

/-! ### Task start (R149, R150) -/

/-- The lowest free task slot of a core. -/
def freeSlotOf (s : State) (c : Nat) : Nat := ((List.range 32).find? (fun i => !(coreAt s c).slots.getLsbD i)).getD 31

/-- The task cycles a launch allows (R138): zero sets no limit. -/
def taskLimit (x : Launch) : Nat := (x.dlcyc * (100 + x.margin) + 99) / 100

/-- Whether a task starts provisional (R164). -/
def startsProv (x : Launch) (it : TaskItem) : Bool :=
  match x.pred with
  | some p => p.truth.isNone && !it.2.2.2.2 && decide (p.min ≤ itemCoord p.dim it)
  | none => false

/-- s0 at task start. -/
def coordWord (it : TaskItem) (prov : Bool) : Word :=
  BitVec.ofNat 64 (it.2.1 % 65536 + it.2.2.1 % 65536 * 2 ^ 16 + it.2.2.2.1 % 65536 * 2 ^ 32 + (if it.2.2.2.2 then 2 ^ 62 else 0) + (if prov then 2 ^ 63 else 0))

/-- The registers of a task at its start: s0, the private pointer of its slot, the operand pointers, and the rest zero; the
buffer table stays with the core. -/
def startRegs (x : Launch) (it : TaskItem) (prov : Bool) (c slot : Nat) (bufs : Tab Word) : Regs :=
  let s0 := (Tab.empty : Tab Word).set 0 0 (coordWord it prov)
  let s1 := s0.set 0 1 (BitVec.ofNat 64 (c * 2 ^ 51 + slot * 2 ^ 46))
  let sN := (List.range x.ops.length).foldl (fun (t : Tab Word) i => match x.ops[i]? with | some o => t.set 0 (2 + i) (globalPtr (opHandle o) 0) | none => t) s1
  { Regs.zero with pc := x.entry, s := sN, bufs := bufs }

/-- What a core keeps from task to task: accumulators, decode tables, program routines, the fault registers, and the engine
commands of ended tasks that still run. -/
def coreKeep (b : Body) : Body :=
  { Body.zero with
    r := { Regs.zero with bufs := b.r.bufs }, acc := b.acc, accX := b.accX, tab0 := b.tab0, tab1 := b.tab1, micro := b.micro,
    entries := b.entries, fltstat := b.fltstat, fltpc := b.fltpc, fltvcc := b.fltvcc, fltaddr := b.fltaddr, tksel := b.tksel,
    mxQ := b.mxQ.filter (fun m => m.orphan), xfQ := b.xfQ.filter (fun x => x.orphan),
    wbQ := b.wbQ.filter (fun w => b.xfQ.any (fun x => x.orphan && x.tok == w.tok && x.vcc == w.vcc)) }

/-- The task that starts. -/
def newTask (s : State) (h : Share) (it : TaskItem) (slot : Nat) : Task :=
  let x := launchOf s h.launch
  { launch := h.launch, part := x.part, ctx := x.ctx, cls := x.cls, step := x.step.toNat, lin := it.1, x := it.2.1, y := it.2.2.1, z := it.2.2.2.1,
    slot := slot, group := h.group, prov := startsProv x it, tail := it.2.2.2.2, persist := x.persist, limit := taskLimit x, start := s.clk,
    excl := 0, savedAt := 0, stage := .loading, image := none }

/-- Put the starting task on one core. Its start is its first checkpoint (R249). -/
def startCore (h : Share) (it : TaskItem) (s : State) (c : Nat) : State :=
  let x := launchOf s h.launch
  let slot := freeSlotOf s c
  let s := updCore s c (fun k => { k with slots := k.slots ||| (1#32 <<< slot) })
  updBody s c (fun b =>
    let r := startRegs x it (startsProv x it) c slot b.r.bufs
    { coreKeep b with r := r, ckpt := some r, accSave := b.acc, accXSave := b.accX, task := some (newTask s h it slot) })

/-- The next task of a share starts on a core, or on the whole cluster. -/
def startTask (g : List Nat) (h : Share) (s : State) : State :=
  match todoOf s h with
  | [] => s
  | it :: _ =>
    let rest := h.todo.erase it
    let s := g.foldl (startCore h it) (updLaunch s h.launch (fun l => { l with live := l.live + 1 }))
    updDisp s h.cl (fun d => { d with shares := (d.shares.map (fun y => if y.launch = h.launch then { y with todo := rest, since := s.us } else y)).filter (fun y => y.todo != []) })

/-! ### Resumes (R155, R156) -/

/-- The number of the frame that resumes first on a core: the lowest class number, then the one saved first. -/
def bestFrame : List Frame → Option (Nat × Frame)
  | [] => none
  | f :: t =>
    match bestFrame t with
    | none => some (0, f)
    | some (i, g) => if frameClass g < frameClass f then some (i + 1, g) else some (0, f)

/-- Put a saved task back on its core: SPGATE first, then the banks, the weight buffers and the rest (R28, R155). It then
reloads its image where the store no longer holds it. -/
def restoreFrame (f : Frame) (i : Nat) (s : State) (c : Nat) : State :=
  let base := spadKey c 0
  let s := { s with mem := (s.mem.restore base (2 ^ 22) f.spad).restore (wbufKey c 0 0) (2 ^ 19) f.wbuf,
                    poison := f.bad.foldl (fun (t : Tab Bool) k => t.set false (base / 32 + k) true) (s.poison.keep (fun k _ => !(decide (base ≤ k * 32) && decide (k * 32 < base + 2 ^ 22)))) }
  updCore s c (fun k =>
    let o := coreKeep k.b
    let b := f.body
    { k with
      gate := f.gate, ready := f.ready, frames := k.frames.eraseIdx i,
      b := { b with mxQ := o.mxQ ++ b.mxQ, xfQ := o.xfQ ++ b.xfQ, wbQ := o.wbQ ++ b.wbQ, task := b.task.map (fun t => { t with stage := .loading }) } })

/-- Whether two tasks are one lockstep task. -/
def sameTask (a b : Task) : Bool := a.launch == b.launch && a.x == b.x && a.y == b.y && a.z == b.z && a.tail == b.tail

/-- Resume a task on each core of a list, from the frame that holds it. -/
def resumeOn (t : Task) (g : List Nat) (s : State) : State :=
  g.foldl (fun s c =>
    match (List.range (coreAt s c).frames.length).find? (fun i => match (coreAt s c).frames[i]? with | some f => (match f.body.task with | some u => sameTask t u | none => false) | none => false) with
    | some i => (match (coreAt s c).frames[i]? with | some f => restoreFrame f i s c | none => s)
    | none => s) s

/-- The cores that dispatchable real-time shares, and sub-stream shares that have waited too long, need (R151, R168). -/
def neededCores (s : State) (cl : Nat) : List Nat :=
  let l := (disp s cl).shares.filter (fun h => isUrgent s h && dispatchable s h)
  if l.any (fun h => h.group) then freeCores s cl else (freeCores s cl).take ((l.map (fun h => (todoOf s h).length)).sum)

/-- Whether a saved task is the one that resumes first on a core (R156). -/
def firstFrame (s : State) (t : Task) (c : Nat) : Bool :=
  match bestFrame (coreAt s c).frames with
  | some (_, f) => (match f.body.task with | some u => sameTask t u | none => false)
  | none => false

/-- Resume the saved tasks that may resume on a free core: one of all four cores only where it comes first on each. -/
def resumeCore (cl : Nat) (s : State) (c : Nat) : State :=
  if (taskOf s c).isSome then s
  else match bestFrame (coreAt s c).frames with
  | none => s
  | some (_, f) =>
    match f.body.task with
    | none => s
    | some t =>
      if partStopped s t.part ∨ (t.cls ≠ 0 ∧ (neededCores s cl).contains c) then s
      else if t.group then (if (freeCores s cl).length = 4 ∧ (t.cls = 0 ∨ neededCores s cl = []) ∧ (clusterCores c).all (firstFrame s t) then resumeOn t (clusterCores c) s else s)
      else resumeOn t [c] s

/-- Resume what may resume on a cluster. -/
def resumeSaved (cl : Nat) (s : State) : State := ((List.range 4).map (clusterCore cl)).foldl (resumeCore cl) s

/-! ### The choice rule (R151) -/

/-- The share of lowest STEP, the first of equals. -/
def lowestStep : List Share → Option Share
  | [] => none
  | h :: t => match lowestStep t with | some g => if g.step.toNat < h.step.toNat then some g else some h | none => some h

/-- The share that reached age 4 first; ties go to the lowest STEP. -/
def earliestAged : List Share → Option Share
  | [] => none
  | h :: t =>
    match earliestAged t with
    | some g => if g.agedAt < h.agedAt ∨ (g.agedAt = h.agedAt ∧ g.step.toNat < h.step.toNat) then some g else some h
    | none => some h

/-- The first share, in arrival order, after the one that a class's pointer last named. -/
def nextRoundRobin (d : Dispatcher) (l : List Share) (c : Nat) : Option Share :=
  match l.find? (fun h => decide (nthD d.rr c 0 ≤ h.seq)) with
  | some h => some h
  | none => l.head?

/-- The share a round picks, and whether the round-robin pointer of its class chose it. -/
def pickShare (d : Dispatcher) (cand : List Share) : Option (Share × Bool) :=
  let rt := cand.filter (fun h => h.cls == 0)
  let aged := cand.filter (fun h => h.cls != 0 && decide (4 ≤ h.age))
  if rt ≠ [] then (lowestStep rt).map (fun h => (h, false))
  else if aged ≠ [] then (earliestAged aged).map (fun h => (h, false))
  else
    let c := (cand.map (fun h => h.cls)).foldl Nat.min 3
    let same := cand.filter (fun h => h.cls == c)
    let sub := same.filter (fun h => h.sub)
    if sub ≠ [] then (lowestStep sub).map (fun h => (h, false)) else (nextRoundRobin d same c).map (fun h => (h, true))

/-- The ages after a round that picked a share among candidates, and the pointer of its class. -/
def ageShares (cand : List Share) (pick : Share) (rr : Bool) (d : Dispatcher) : Dispatcher :=
  { d with
    rounds := d.rounds + 1,
    rr := if rr then (List.range 4).map (fun c => if c = pick.cls then pick.seq + 1 else nthD d.rr c 0) else d.rr,
    shares := d.shares.map (fun h =>
      if h.launch = pick.launch then { h with age := 0 }
      else if cand.any (fun x => x.launch == h.launch) then { h with age := h.age + 1, agedAt := if h.age + 1 = 4 then d.rounds else h.agedAt }
      else h) }

/-! ### Pre-emption by the dispatcher (R153, R167, R168) -/

/-- Whether a core of a cluster is being saved. -/
def clusterSaving (s : State) (cl : Nat) : Bool :=
  ((List.range 4).map (clusterCore cl)).any (fun c => match taskOf s c with | some t => (match t.stage with | .saving _ => true | _ => false) | none => false)

/-- The cores of a cluster whose task a dispatcher may pre-empt: no real-time task is (R153). -/
def victims (s : State) (cl : Nat) : List Nat :=
  ((List.range 4).map (clusterCore cl)).filter (fun c => mayFreeze s c && (match taskOf s c with | some t => t.cls != 0 | none => false))

/-- Whether a core's task is pre-empted before another's: the highest class number, then the highest STEP, then the highest
core-in-cluster number. -/
def victimBefore (s : State) (a b : Nat) : Bool :=
  match taskOf s a, taskOf s b with
  | some t, some u => if t.cls ≠ u.cls then decide (u.cls < t.cls) else if t.step ≠ u.step then decide (u.step < t.step) else decide (b < a)
  | _, _ => false

/-- The core that is pre-empted. -/
def bestVictim (s : State) : List Nat → Option Nat
  | [] => none
  | c :: t => match bestVictim s t with | some d => if victimBefore s d c then some d else some c | none => some c

/-- Pre-empt for an urgent share that finds too few free cores (R153). -/
def preemptFor (group : Bool) (cl : Nat) (s : State) : State :=
  if clusterSaving s cl then s
  else if group then (victims s cl).foldl (fun s c => preemptTask c s) s
  else match bestVictim s (victims s cl) with
  | some c => preemptTask c s
  | none => s

/-- A dispatchable real-time share with too few free cores pre-empts. -/
def realtimePreempt (cl : Nat) (s : State) : State :=
  match (disp s cl).shares.find? (fun h => h.cls == 0 && dispatchable s h && (if h.group then decide ((coresFor s h).length < 4) else coresFor s h == [])) with
  | some h => preemptFor h.group cl s
  | none => s

/-- The share for which a cluster is reserved, while it has tasks to start. -/
def reservedShare (s : State) (cl : Nat) : Option Share := (disp s cl).reserved.bind (fun l => (disp s cl).shares.find? (fun h => h.launch == l))

/-- One evaluation of the rule of R151 by a dispatcher. -/
def chooseShare (cl : Nat) (s : State) : State :=
  match reservedShare s cl with
  | some h =>
    if dispatchable s h ∧ (coresFor s h).length = 4 then startTask (coresFor s h) h (updDisp s cl (fun d => { d with reserved := none })) else s
  | none =>
    let s := updDisp s cl (fun d => { d with reserved := none })
    let all := (disp s cl).shares.filter (dispatchable s)
    let cand := all.filter (fun h => h.group || coresFor s h != [])
    if cand = [] ∨ freeCores s cl = [] then s
    else match pickShare (disp s cl) cand with
    | none => s
    | some (h, rr) =>
      let s := updDisp s cl (ageShares all h rr)
      if h.group then
        (if (coresFor s h).length = 4 then startTask (coresFor s h) h s else updDisp s cl (fun d => { d with reserved := some h.launch }))
      else startTask ((coresFor s h).take 1) h s

/-- DISPATCH_ROUND (R151-R153): saved tasks resume first; then a share is picked; a real-time share that finds too few cores
pre-empts. -/
def dispatchRound (cl : Nat) (s : State) : State := realtimePreempt cl (chooseShare cl (resumeSaved cl s))

/-- DISPATCH_ROUND. -/
def execDispatchRound (cl : Nat) (s : State) : Host.Outcome State Fault Refusal := .next (if clusterExists cl then dispatchRound cl s else s)

/-- Whether a provisional task pauses for its confirmation: on a full hold queue, or for an atomic that is held (R164, R380). -/
def awaitsTruth (s : State) (c : Nat) : Bool :=
  isProv s c && (match (coreAt s c).b.pause with
    | some p => p.cause == 7 || (p.cause == 1 && (coreAt s c).b.r.lands.any (fun l => l.held && decide (l.due ≤ (coreAt s c).b.r.vcc)))
    | none => false)

/-- Whether a cluster has a dispatchable share and no free core. -/
def isFull (s : State) (cl : Nat) : Bool := freeCores s cl == [] && (disp s cl).shares.any (dispatchable s)

/-- HOLD_QUEUE_PAUSE_TIMEOUT (R167): after 65,536 task cycles in which a provisional task of a cluster has paused for its confirmation while a
share had no core, the provisional task of the highest coordinate there is pre-empted. -/
def holdTimeout (cl : Nat) (s : State) : State :=
  let cores := (List.range 4).map (clusterCore cl)
  let prov := cores.filter (fun c => isProv s c && mayFreeze s c)
  let late := cores.any (fun c => awaitsTruth s c && (match (coreAt s c).b.stuck with | some t => decide (t + 65536 ≤ s.clk) | none => false))
  let coord : Nat → Nat := fun c => match taskOf s c with | some t => taskCoord t (match (launchOf s t.launch).pred with | some p => p.dim | none => 0) | none => 0
  if !late ∨ !isFull s cl then s
  else match prov.find? (fun c => prov.all (fun d => decide (coord d ≤ coord c))) with
  | some c => preemptTask c s
  | none => s

/-- HOLD_QUEUE_PAUSE_TIMEOUT. -/
def execHoldQueuePauseTimeout (cl : Nat) (s : State) : Host.Outcome State Fault Refusal := .next (if clusterExists cl then holdTimeout cl s else s)

/-- Whether a share finds no core on any cluster of its launch. -/
def noCoreAnywhere (s : State) (l : Nat) : Bool :=
  s.disps.cells.all (fun d => d.2.shares.all (fun h => h.launch != l || (if h.group then decide ((coresFor s h).length < 4) else coresFor s h == [])))

/-- SUBSTREAM_PREEMPT_TIMEOUT (R168): a sub-stream's share that has found no core for 100 µs pre-empts as a real-time share
does. -/
def subTimeout (cl : Nat) (s : State) : State :=
  match (disp s cl).shares.find? (fun h => h.sub && dispatchable s h && decide (h.since + 100 ≤ s.us) && noCoreAnywhere s h.launch) with
  | some h => preemptFor h.group cl s
  | none => s

/-- SUBSTREAM_PREEMPT_TIMEOUT. -/
def execSubstreamPreemptTimeout (cl : Nat) (s : State) : Host.Outcome State Fault Refusal := .next (if clusterExists cl then subTimeout cl s else s)

/-! ### The image of a task (R324, R325) -/

/-- The size of an image header. -/
def imageHeader : Nat := 64

/-- What a header and the entry say, or why the load fails: the checks of R325 in their order. -/
def readImage (s : State) (h entry : Nat) : Except (BitVec 8) ImageInfo :=
  let r := trec s h
  if r.bytes < imageHeader then .error codeIllegal
  else if poisoned s (.glob h 0) imageHeader then .error codePoison
  else
    let b := readLoc s (.glob h 0) imageHeader
    let co := fieldB b 8 4
    let cl := fieldB b 12 4
    let ko := fieldB b 16 4
    let kl := fieldB b 20 4
    let ok := fieldB b 0 4 == 0x4954574C && fieldB b 4 2 == 1 && fieldB b 6 2 == 0 && (b.drop 28).all (fun x => x == 0) &&
      co % 4 == 0 && decide (64 ≤ co) && cl % 4 == 0 && decide (4 ≤ cl) && decide (cl ≤ 196608) && ko % 16 == 0 && kl % 16 == 0 && decide (kl ≤ 65536) &&
      decide (co + cl ≤ r.bytes) && decide (ko + kl ≤ r.bytes) && (kl == 0 || (decide (64 ≤ ko) && (decide (ko + kl ≤ co) || decide (co + cl ≤ ko)))) &&
      decide (co ≤ entry) && decide (entry < co + cl) && entry % 4 == 0
    if !ok then .error codeIllegal
    else if poisoned s (.glob h co) cl || poisoned s (.glob h ko) kl then .error codePoison
    else if (crc32c (readLoc s (.glob h co) cl ++ readLoc s (.glob h ko) kl)).toNat ≠ fieldB b 24 4 then .error codeDataUe
    else .ok { handle := h, gen := r.gen, codeOff := co, codeLen := cl, constOff := ko, constLen := kl }

/-- Whether a core's bundle store holds an image of a handle at a GEN. -/
def storeHolds (s : State) (h : Nat) (gen : BitVec 32) (c : Nat) : Bool :=
  match (coreAt s c).image with | some im => im.handle == h && im.gen == gen | none => false

/-- Copy an image into a core's bundle store: the code section, and the constants behind it. -/
def fillStore (im : ImageInfo) (s : State) (c : Nat) : State :=
  if storeHolds s im.handle im.gen c then s
  else
    let mem := s.mem.zeroRange (storeKey c 0) 0x40000
    let mem := mem.setBytes (storeKey c 0) (readLoc s (.glob im.handle im.codeOff) im.codeLen)
    let mem := mem.setBytes (storeKey c 0x30000) (readLoc s (.glob im.handle im.constOff) im.constLen)
    updCore { s with mem := mem } c (fun k => { k with image := some im })

/-- The image is there: a new task copies its argument block into its private area and runs from now on; a resumed one goes on
where it was saved, its confirmed effects released first (R165), in TEND where it stood there (R356). -/
def beginRun (g : List Nat) (im : ImageInfo) (s : State) : State :=
  g.foldl (fun s c =>
    match taskOf s c with
    | none => s
    | some t =>
      if t.image.isSome then
        let held := if t.prov then [] else (coreAt s c).b.holdQ
        let s := updBody s c (fun b => { b with holdQ := if t.prov then b.holdQ else [], task := some { t with excl := t.excl + (s.clk - t.savedAt), stage := .running } })
        releaseHeld c held s
      else
        let s := writeLoc s (.flat (spadKey c (privOff t.slot))) (launchOf s t.launch).args
        updBody s c (fun b => { b with task := some { t with image := some im, start := s.clk, stage := .running } })) s

/-- Go on with TEND where the task was saved in it. -/
def resumeTend (g : List Nat) (s : State) : State :=
  if g.any (fun q => (coreAt s q).b.tendRegs.isSome) then tendGo g (setStage g (.tend 1) s) else s

/-- The end of a load. -/
def loaded (g : List Nat) (im : ImageInfo) (s : State) : State := resumeTend g (beginRun g im (g.foldl (fillStore im) s))

/-- A load that waits for its image tensor: a restore is asked for, or its recipe run; where that cannot be, the task ends. -/
def awaitImage (g : List Nat) (t : Task) (h : Nat) (s : State) : State :=
  let x := launchOf s t.launch
  if (trec s h).state ≠ .dropped then requestRestore h s
  else if (trec s h).lost ∨ !validRecipe s h then endFaulted g codeRecipeInvalid s
  else match x.fail with
  | some (code, _) => if code = codeRecipeDepth ∨ code = codeRecipeInvalid then endFaulted g code s else requestResident h (.launch t.launch) x.part x.cls s
  | none => requestResident h (.launch t.launch) x.part x.cls s

/-- The private area of a starting task lies in a bank that is gated or waking (R27). -/
def privAsleep (s : State) (g : List Nat) : Option Loc :=
  (g.filterMap (fun c => match taskOf s c with
    | some t =>
      let l := Loc.flat (spadKey c (privOff t.slot))
      if bankReady s l 1 then none else some l
    | none => none)).head?

/-- TASK_IMAGE_LOAD (R325): the load of a task's image, before its VCC 0 or when it resumes. -/
def loadImage (c : Nat) (s : State) : State :=
  match taskOf s c with
  | none => s
  | some t =>
    if t.stage ≠ .loading then s
    else
      let g := groupOf s c
      let entry := (launchOf s t.launch).entry
      let h := ptrH entry
      match t.image, privAsleep s g with
      | some im, _ =>
        if g.all (storeHolds s im.handle im.gen) then loaded g im s
        else if dieGone s (handleDie h) then endFaulted g codeDieLost s
        else if (trec s h).gen ≠ im.gen then failLaunch t.launch codeIllegal c (killTask c s)
        else if !isResident (trec s h) then awaitImage g t h s
        else
          match readImage s h im.codeOff with
          | .ok im => loaded g im s
          | .error code => endFaulted g code s
      | none, some l => wakeBank s l 1
      | none, none =>
        let have_ := (coreAt s (g.headD c)).image
        match have_ with
        | some im =>
          if g.all (storeHolds s h (trec s h).gen) then
            (if ptrO entry % 4 = 0 ∧ im.codeOff ≤ ptrO entry ∧ ptrO entry < im.codeOff + im.codeLen then loaded g im s else endFaulted g codeIllegal s)
          else load g t h (ptrO entry) s
        | none => load g t h (ptrO entry) s
where
  /-- The load itself. -/
  load (g : List Nat) (t : Task) (h entry : Nat) (s : State) : State :=
    if dieGone s (handleDie h) then endFaulted g codeDieLost s
    else if !isResident (trec s h) then awaitImage g t h s
    else match readImage s h entry with
    | .ok im => loaded g im s
    | .error code => endFaulted g code s

/-- TASK_IMAGE_LOAD. -/
def execTaskImageLoad (c : Nat) (s : State) : Host.Outcome State Fault Refusal := .next (loadImage c s)

/-! ### Saves (R155) -/

/-- The tokens that cannot end before a held XSTORE is released: those of held XSTOREs, and of commands that wait for one of
them. -/
def blockedToks (b : Body) : List Nat :=
  let held := (b.xfQ.filter (fun x => x.held)).map (fun x => x.tok)
  (List.range 64).foldl (fun l _ =>
    let l := (l ++ (b.xfQ.filter (fun x => !x.orphan && x.ins.any (fun t => l.contains t))).map (fun x => x.tok)).eraseDups
    let mx := (b.mxQ.filter (fun m => !m.orphan)).dropWhile (fun m => !m.ins.any (fun t => l.contains t))
    (l ++ mx.map (fun m => m.tok)).eraseDups) held

/-- Whether a landing request needs nothing more from outside: its data is there, or its atomic is still held. -/
def landSettled (l : Landing) : Bool := l.held || l.data.isSome

/-- Whether every outstanding request and engine command of a core's task has completed (R155 step 2). -/
def saveReady (s : State) (c : Nat) : Bool :=
  let k := coreAt s c
  let stuck := blockedToks k.b
  k.out == [] && k.b.r.lands.all landSettled && k.b.latchedL.all landSettled && !k.b.tab0.loading && !k.b.tab1.loading &&
    k.b.xfQ.all (fun x => x.orphan || x.held || stuck.contains x.tok) && k.b.mxQ.all (fun m => m.orphan || stuck.contains m.tok)

/-- The save frame of a core. -/
def frameOf (s : State) (c : Nat) : Frame :=
  let k := coreAt s c
  let base := spadKey c 0
  let b := k.b
  { body := { b with
      mxQ := b.mxQ.filter (fun m => !m.orphan), xfQ := b.xfQ.filter (fun x => !x.orphan),
      wbQ := b.wbQ.filter (fun w => b.xfQ.any (fun x => !x.orphan && x.tok == w.tok && x.vcc == w.vcc)), task := b.task.map (fun t => { t with savedAt := s.clk }) },
    spad := (s.mem.extract base (2 ^ 22)).filter (fun x => k.ready.getLsbD (x.1 / 2 ^ 17)),
    bad := (s.poison.keys.filter (fun q => decide (base ≤ q * 32) && decide (q * 32 < base + 2 ^ 22))).map (fun q => q - base / 32),
    wbuf := s.mem.extract (wbufKey c 0 0) (2 ^ 19), gate := k.gate, ready := k.ready }

/-- The frame of a provisional task whose launch's trim went by while it was saved: the task is confirmed (R165). -/
def settled_ (s : State) (f : Frame) : Frame :=
  { f with body := { f.body with task := f.body.task.map (fun t => match (launchOf s t.launch).pred with | some p => { t with prov := t.prov && !p.trimmed } | none => t) } }

/-- TASK_SAVE_COMPLETE (R155): the full state of a frozen task is in its frame, and its cores are free; its slot stays
occupied. -/
def completeSave (c : Nat) (s : State) : State :=
  match taskOf s c with
  | none => s
  | some t =>
    match t.stage with
    | .saving _ =>
      let g := groupOf s c
      if !g.all (saveReady s) then s
      else
        let s := clearPause g s
        g.foldl (fun s q =>
          let f := settled_ s (frameOf s q)
          updCore s q (fun k => { k with frames := k.frames ++ [f], b := coreKeep k.b })) s
    | _ => s

/-- TASK_SAVE_COMPLETE. -/
def execTaskSaveComplete (c : Nat) (s : State) : Host.Outcome State Fault Refusal := .next (completeSave c s)

/-! ### PREEMPT (R154) -/

/-- A write of PREEMPT. -/
def writePreempt (p : Nat) (v : Word) (s : State) : State :=
  if 8 ≤ p then s
  else
    let s := { s with softs := BitVec.ofNat 8 (withBits s.softs.toNat p 1 (fieldW v 0 1)) }
    if bitAt v.toNat 1 then (leadsOf (fun _ t => t.part == p) s).foldl (fun s c => preemptTask c s) s else s

/-- PREEMPT_SOFT. -/
def execPreemptSoft (part : Nat) (v : BitVec 64) (s : State) : Host.Outcome State Fault Refusal := .next (writePreempt part v s)
/-- PREEMPT_HARD. -/
def execPreemptHard (part : Nat) (v : BitVec 64) (s : State) : Host.Outcome State Fault Refusal := .next (writePreempt part v s)

/-! ### Deadlines (R158-R160) -/

/-- The task cycles of a task (R158). -/
def taskCycles (s : State) (t : Task) : Nat := s.clk - t.start - t.excl

/-- Whether a task has overrun its limit: also while it is being saved, since it still occupies its core. -/
def overran (s : State) (t : Task) : Bool :=
  t.limit != 0 && decide (t.limit < taskCycles s t) && t.stage != .loading

/-- A task of a halted partition freezes; where its frames are full it ends, and its launch fails after RELEASE (R159). -/
def freezeOrEnd (part : Nat) (code : BitVec 8) (s : State) (c : Nat) : State :=
  match taskOf s c with
  | none => s
  | some t =>
    if mayFreeze s c then freezeTask c s
    else match t.stage with
    | .saving _ => s
    | .tend n => if n < 4 then freezeEnd t s else s
    | _ => freezeEnd t s
where
  /-- Freeze without a save. -/
  freezeEnd (t : Task) (s : State) : State :=
    updPart (failLaunch t.launch code c (killTask c s)) part (fun p => { p with frozen := p.frozen ++ [t.launch] })

/-- Whether a list of cores and slots names a task. -/
def hasOverrun : List Nat → Nat → Nat → Bool
  | c :: k :: t, lead, slot => (c == lead && k == slot) || hasOverrun t lead slot
  | _, _, _ => false

/-- DEADLINE_OVERRUN (R159, R160): in a partition already halted it only counts as a lost trigger, once for each task. -/
def haltPartition (c : Nat) (s : State) : State :=
  match taskOf s c with
  | none => s
  | some t =>
    let lead := (groupOf s c).headD c
    if !overran s t then s
    else if (partOf s t.part).halted then
      if hasOverrun (partOf s t.part).overran lead t.slot then s else
      let s := updPart s t.part (fun p => { p with overran := p.overran ++ [lead, t.slot] })
      { s with mod := { s.mod with snap := { s.mod.snap with lost := if s.mod.snap.lost = 0xFFFF then 0xFFFF else s.mod.snap.lost + 1 } } }
    else
      let code := if t.persist then codeSegDeadline else codeDeadline
      let pc := (coreAt s lead).b.r.pc.toNat
      let s := fireTrig 3 0 s
      let s := (leadsOf (fun _ u => u.part == t.part) s).foldl (freezeOrEnd t.part code) s
      let s := updPart s t.part (fun p => { p with
        halted := true, hcode := code, hcore := BitVec.ofNat 9 lead, hstep := BitVec.ofNat 32 t.step, overran := [lead, t.slot] })
      logErr (errEntry code 0 lead t.part false false false pc s.us) (sendMsix 2 s)

/-- DEADLINE_OVERRUN. -/
def execDeadlineOverrun (c : Nat) (s : State) : Host.Outcome State Fault Refusal := .next (haltPartition c s)

/-- The overrunning task of a halted partition, wherever it stands now. -/
def overranTask (s : State) (p : Part) : Option Task :=
  match p.overran with
  | c :: slot :: _ =>
    let mine := fun (t : Task) => t.slot == slot
    match taskOf s c with
    | some t => if mine t then some t else ((coreAt s c).frames.filterMap (fun f => f.body.task)).find? mine
    | none => ((coreAt s c).frames.filterMap (fun f => f.body.task)).find? mine
  | _ => none

/-- RELEASE (R160): the overrunning task ends as a KILL ends it, and the halt is over. -/
def releasePart (p : Nat) (s : State) : State :=
  let x := partOf s p
  if !x.halted then s
  else
    let s := match overranTask s x with
      | some t =>
        let s := (leadsOf (fun _ u => sameTask t u) s).foldl (fun s c => killTask c s) s
        failLaunch t.launch x.hcode x.hcore.toNat (dropSaved (sameTask t) s)
      | none => s
    updPart s p (fun y => { y with halted := false, overran := [], frozen := [] })

/-- PARTSCHED_RELEASE: a write of PARTSCHED. -/
def execPartschedRelease (part : Nat) (v : BitVec 64) (s : State) : Host.Outcome State Fault Refusal :=
  .next (if part < 8 ∧ bitAt v.toNat 1 then releasePart part s else s)

end Sys2Proof.Machine
end

