-- ==== Sys2Proof/Machine/Fabric.lean ====
section
/-!
DEFINITION. Sys2Proof/Machine/Fabric.lean: the delivery of the die fabric's packets (R35-R37), the faults of accesses that have
left the commit queue (R237, R240, R259), the Hinge (R241), parity deltas (R262, R265), and the link packets that this module
takes (R182, R183, R265).
-/

namespace Sys2Proof.Machine

/-! ### Order (R35, R104, R232) -/

/-- The bytes an access or a flag store touches. -/
def packetSpan (p : Packet) : Option (Loc × Nat) :=
  match p.body with
  | .access _ l op _ _ => some (l, opSpan op)
  | .hinge h _ _ _ => some (.glob h.flagH h.flagO, 8)
  | _ => none

/-- Whether two runs of bytes meet. -/
def runsMeet (a : Loc) (m : Nat) (b : Loc) (n : Nat) : Bool :=
  match a, b with
  | .flat x, .flat y => decide (x < y + n) && decide (y < x + m)
  | .glob h x, .glob k y => h == k && decide (x < y + n) && decide (y < x + m)
  | .host x _, .host y _ => decide (x < y + n) && decide (y < x + m)
  | _, _ => false

/-- The source module of a link packet. -/
def netFrom (b : List Byte) : Nat := leNat (b.take 2)

/-- Whether a packet under way keeps a later one on its lane and between its blocks from performing: accesses of one core to
common bytes, every access of one context (R104), link packets of one lane and one source module (R44), and the signals of one context (R110); other packets arrive
in order. -/
def blocksPacket (q p : Packet) : Bool :=
  match packetSpan q, packetSpan p with
  | some (a, m), some (b, n) => q.core == p.core && (decide (512 ≤ q.core) || runsMeet a m b n)
  | none, none =>
    (match q.body, p.body with
    | .net v b, .net w d => v == w && netFrom b == netFrom d
    | .net _ _, _ => false
    | _, .net _ _ => false
    | .signal _ _ _, .signal _ _ _ => q.core == p.core
    | .signal _ _ _, _ => false
    | _, .signal _ _ _ => false
    | _, _ => true)
  | _, _ => false

/-- Whether a packet may perform: what it waits for has performed, and nothing before it keeps it back. -/
def packetReady (s : State) (before : List Packet) (p : Packet) : Bool :=
  !p.after.any (notDone s) && !before.any (fun q => blocksPacket q p)

/-- Take a packet away. -/
def dropPacket (id : Nat) (s : State) : State := { s with packets := s.packets.filter (fun p => p.id != id) }

/-- An access of a core or context has performed. -/
def accessOver (p : Packet) (s : State) : State :=
  let s := dropPacket p.id s
  if p.core < 512 then updCore s p.core (fun k => { k with out := k.out.filter (fun i => i != p.id) })
  else updCtx s (p.core - 512) (fun x => { x with stores := x.stores.filter (fun i => i != p.id) })

/-! ### Faults behind a release (R237, R259) -/

/-- The numbers of the accesses and XSTOREs of a core that are ordered after some of a list. -/
def heldBehind (s : State) (c : Nat) : Nat → List Nat → List Nat
  | 0, l => l
  | f + 1, l =>
    let more := ((s.packets.filter (fun p => p.after.any (fun i => l.contains i))).map (fun p => p.id)) ++
      (((coreAt s c).b.xfQ.filter (fun x => x.after.any (fun i => l.contains i))).map (fun x => tokId c x.tok))
    let l2 := (l ++ more).eraseDups
    if l2.length = l.length then l else heldBehind s c f l2

/-- The launch that an access belongs to whose task has ended. -/
def launchOfOut (s : State) (id : Nat) : Option Nat := (s.launches.cells.find? (fun x => x.2.outs.contains id)).map (·.1)

/-- The launch of an access under way: that of its core's task, or the one it was left to. -/
def packetLaunch (s : State) (p : Packet) : Option Nat :=
  if (coreAt s p.core).out.contains p.id then (taskOf s p.core).map (fun t => t.launch) else launchOfOut s p.id

/-- An access that has left the commit queue fails (R237): it and everything ordered after it never perform; the task takes
DEFERRED_STORE at its next boundary, or its launch fails where it has ended; the error log names the cause. -/
def storeFails (p : Packet) (e : CEntry) (cause : BitVec 8) (s : State) : State :=
  let c := p.core
  let l := packetLaunch s p
  let running := (coreAt s c).out.contains p.id
  let gone := heldBehind s c (s.packets.length + 65) [p.id]
  let cmds := (coreAt s c).b.xfQ.filter (fun x => x.after.any (fun i => gone.contains i))
  let part := match l with | some l => (launchOf s l).part | none => 0
  let s := { s with packets := s.packets.filter (fun q => !gone.contains q.id) }
  let s := updCore s c (fun k => { k with out := k.out.filter (fun i => !gone.contains i) })
  let s := { s with launches := { cells := s.launches.cells.map (fun x => (x.1, { x.2 with outs := x.2.outs.filter (fun i => !gone.contains i) })) } }
  let s := cmds.foldl (fun s x => endXf c x .fault codeDeferred s) s
  let s := if running then updBody s c (fun b => { b with deferred := b.deferred ++ [(e, cause)] })
    else match l with | some l => failLaunch l codeDeferred c s | none => s
  logErr (errEntry cause 0 c part false false false e.pc.toNat s.us) s

/-- Forget a landing request that will never be answered. -/
def dropLanding (c id : Nat) (s : State) : State :=
  let g := fun (l : List Landing) => l.filter (fun x => x.id != id)
  updBody s c (fun b => { b with r := { b.r with lands := g b.r.lands }, latchedL := g b.latchedL, amoKeep := g b.amoKeep })

/-- A load in flight fails: a precise fault at the bundle that made it, with no handler for DIE_LOST (R259, R246). -/
def loadFails (p : Packet) (ptr : Word) (e : CEntry) (code : BitVec 8) (s : State) : State :=
  let running := (coreAt s p.core).out.contains p.id
  let s := accessOver p s
  if running then
    takeFault (groupOf s p.core) { code := code, slot := 15, tok := none, cause := 0, pc := e.pc, addr := ptr, vcc := e.vcc, resume := e.pc } s
  else s

/-! ### Accesses at their homes -/

/-- A packet under way in answer to one, on lane 1 (R35). -/
def answer (p : Packet) (body : PBody) (s : State) : State :=
  let (id, s) := fresh s
  { s with packets := s.packets ++ [{ id := id, lane := 1, src := p.dst, dst := p.src, core := p.core, after := [], lackUs := none, body := body }] }

/-- The answer an access gives its core. -/
def giveAnswer (p : Packet) (op : AccessOp) (r : Option (BitVec 1024 × Bool)) (s : State) : State :=
  match op, r with
  | .amo _ _ _ land, some (v, bad) => answer p (.resp land v bad) s
  | .cas _ _ _ land, some (v, bad) => answer p (.resp land v bad) s
  | .load _ land _, some (v, bad) => answer p (.resp land v bad) s
  | .table ts stamp _, some (v, bad) => answer p (.tableResp ts stamp (v.setWidth 128) bad) s
  | _, _ => s

/-- The landing an atomic is to answer. -/
def landOf : AccessOp → Option Nat
  | .amo _ _ _ l => some l
  | .cas _ _ _ l => some l
  | _ => none

/-- A core's access at its home; none while it waits. -/
def coreAccess (p : Packet) (ptr : Word) (l : Loc) (op : AccessOp) (own : Option Nat) (e : CEntry) (s : State) : Option State :=
  match homeAccess s (coreDie p.core) l op own with
  | .wait => none
  | .done s2 r => some (giveAnswer p op r (accessOver p (tagDeltas s.nextId p.core s2)))
  | .fault code =>
    match op with
    | .load _ _ _ => some (loadFails p ptr e code s)
    | .table _ _ _ => some (loadFails p ptr e code s)
    | _ => some (storeFails p e code (match landOf op with | some i => dropLanding p.core i s | none => s))

/-- An STQ has performed, or never will: the pin a re-issue left to it ends (R197). -/
def storeOver (p : Packet) (s : State) : State :=
  let c := p.core - 512
  let mine := fun (x : Option Nat × Nat) => x.1 == some p.id
  let l := (ctx s c).holds.filter mine
  l.foldl (fun s x => unpin x.2 s) (updCtx (accessOver p s) c (fun x => { x with holds := x.holds.filter (fun y => !mine y) }))

/-- Whether the tensor of an STQ under way has gone to LPDDR6, to ZX tiles or to nowhere and nobody has asked for it yet: the Hasp is asked
(R103, R190, R197). -/
def stqAsks (c h : Nat) (s : State) : Bool :=
  let r := trec s h
  if r.state = .dropped then !(match reissueOf s h with | some r => r.asks.any (fun a => a.1 == .ctx c) | none => false)
  else (r.state == .spilled || r.state == .compressed) && !r.busy

/-- A context's STQ at its home (R104, R240): it waits for its tensor, for data that comes before it and for a recipe-held tensor's dependents;
one of a context that no longer owns the tensor faults with PRIVILEGE, and one whose tensor has been released meanwhile has nothing to write; then the tensor gains a generation and loses its recipe. -/
def ctxAccess (p : Packet) (ptr : Word) (l : Loc) (op : AccessOp) (s : State) : Option State :=
  let c := p.core - 512
  let go := fun (own : Option Nat) =>
    match homeAccess s (ctxDie c) l op own with
    | .wait => none
    | .fault code => some (streamFault c code ptr 0 [] (storeOver p s))
    | .done s2 _ =>
      let s := storeOver p (tagDeltas s.nextId p.core s2)
      some (match l with | .glob h _ => updRec s h (fun r => { r with gen := r.gen + 1, rvalid := false }) | _ => s)
  match l with
  | .glob h _ =>
    if dieGone s (handleDie h) then go none
    else if (trec s h).state = .free then some (storeOver p s)
    else if stqAsks c h s then some (requestResident h (.ctx c) (ctx s c).part.toNat (ctx s c).cls.toNat s)
    else if !isReady s h ∨ (trec s h).rhcnt ≠ 0 then none
    else go (some c)
  | _ => go none

/-! ### Link packets that this module takes -/

/-- The fields of a link packet's header (assumption 13). -/
def netKind (b : List Byte) : Nat := fieldB b 2 1
def netArg (b : List Byte) : Nat := fieldB b 3 1
def netTo (b : List Byte) : Nat := fieldB b 4 2
def netMark (b : List Byte) : Nat := fieldB b 6 4
def netLine (b : List Byte) : Nat := fieldB b 10 6

/-- Send an answer to a link packet; where none can be routed, its source finds out by itself (R46). -/
def netAnswer (b : List Byte) (vl kind arg line : Nat) (s : State) : State :=
  (netSend { dest := netFrom b, vl := vl, bytes := netHead s kind arg (netFrom b) (netMark b) line } s).1

/-- A link packet that cannot be routed is dropped (R46): its source is told, with the destination module. -/
def refusePacket (b : List Byte) (s : State) : State :=
  if netKind b = 0 ∨ netKind b = 4 then netAnswer b 1 2 codeTranslation.toNat (netTo b) s
  else if netKind b = 5 then netAnswer b 4 6 codeTranslation.toNat (netTo b) s
  else s

/-- A request of another module's XSEND (R183, R182). Data that lands in the bounce buffer is acknowledged from there; its line is answered
once it is applied, or with the fault of a re-issue that failed. -/
def netWrite (b : List Byte) (s : State) : Option State :=
  let ptr : Word := BitVec.ofNat 64 (fieldB b 16 8)
  match linkWrite s (netArg b) { h := ptrH ptr, o := ptrO ptr, bytes := b.drop 24, bad := [], tag := 2 ^ 60 + netFrom b * 2 ^ 40 + netMark b, line := netLine b } with
  | .wait => none
  | .done s => some (netAnswer b 1 1 0 (netLine b) s)
  | .bounced s => some (netAnswer b 1 3 0 (netLine b) s)
  | .fault code => some (netAnswer b 1 2 code.toNat 0 s)

/-- The answer to a line of XSEND. -/
def netDone (b : List Byte) (s : State) : State :=
  match xfFind s (netMark b / 64) (netMark b % 64) true with
  | some x => if x.op = 7 ∧ x.sent.contains (netLine b) then lineDone (netMark b / 64) x (netLine b) s else s
  | none => s

/-- The acknowledgement of a line that lies in a bounce buffer: its response is no longer late (R46, R182). -/
def netLanded (b : List Byte) (s : State) : State :=
  match xfFind s (netMark b / 64) (netMark b % 64) true with
  | some x => if x.op = 7 ∧ x.sent.contains (netLine b) then updXf (netMark b / 64) x (fun y => { y with sentUs := y.sentUs.set 0 (netLine b) 0 }) s else s
  | none => s

/-- An answer that carries a fault: to a collective of this module, or to an engine's command. -/
def netFault (b : List Byte) (s : State) : State :=
  let code : BitVec 8 := BitVec.ofNat 8 (netArg b)
  if 2 ^ 31 ≤ netMark b then
    (match s.launches.cells.find? (fun x => x.1 % 2 ^ 31 == netMark b - 2 ^ 31 && x.2.state == .running && (match x.2.what with | .coll _ => true | .tasks => false)) with
    | some x => failColl x.1 code s
    | none => s)
  else (match xfFind s (netMark b / 64) (netMark b % 64) true with
    | some x => endXf (netMark b / 64) x .fault code s
    | none => s)

/-- A contribution to a reduction across modules (R133, R453). -/
def netRed (b : List Byte) (s : State) : State :=
  let k := fieldB b 17 1
  let key := (List.range k).map (fun i => fieldB b (18 + 8 * i) 8)
  let o := 18 + 8 * k
  let n := fieldB b (o + 4) 8
  let r : RedIn := { coll := fieldB b 16 1 == 1, part := netArg b, key := key, rank := fieldB b o 4, data := (b.drop (o + 12)).take n, codes := b.drop (o + 12 + n) }
  { s with mod := { s.mod with redIn := s.mod.redIn ++ [r] } }

/-- XOR bytes into a storage. -/
def xorInto (k : Nat) (bytes : List Byte) (s : State) : State :=
  { s with mem := s.mem.setBytes k (xorBytes bytes (s.mem.bytes k bytes.length)) }

/-- A module-level delta at its holder (R265): it is applied and acknowledged; where the member lists differ it is refused and a
configuration alarm raised (R49). -/
def netDelta (b : List Byte) (s : State) : Option State :=
  let g := s.mod.db.group
  let d := netArg b
  let j := fieldB b 22 4
  let members := (List.range 4).map (dbMember s)
  if !bitAt g.toNat 50 ∨ fieldB b 16 6 ≠ fieldW g 0 48 ∨ !members.contains (netFrom b) ∨ dbMember s (j % 4) ≠ s.mod.ngself.toNat then
    some (netAnswer b 4 6 codeTranslation.toNat 0 (logErr (errEntry codeTranslation 7 0 0 false false false 0 s.us) s))
  else if dieGone s d then none
  else some (netAnswer b 4 6 0 0 (xorInto (mparityKey d (j / 4) (fieldB b 26 4)) (b.drop 30) s))

/-- The holder's answer to a delta of this module. -/
def netDeltaDone (b : List Byte) (s : State) : State :=
  { s with packets := s.packets.filter (fun p => !(p.lane == 4 && p.id % 2 ^ 32 == netMark b)) }

/-- A link packet for this module; none while it waits. -/
def netDeliver (b : List Byte) (s : State) : Option State :=
  match netKind b with
  | 0 => netWrite b s
  | 1 => some (netDone b s)
  | 2 => some (netFault b s)
  | 3 => some (netLanded b s)
  | 4 => some (netRed b s)
  | 5 => netDelta b s
  | 6 => some (netDeltaDone b s)
  | _ => some s

/-! ### FABRIC_PACKET_DELIVERY -/

/-- How many shares wait at a die's sequencer at most (R146). -/
def waitingLimit : Nat := 256

/-- A packet's effect at its destination; none while it waits. A signal to a context of a lost die is answered with DIE_LOST, which its
sender takes (R37). -/
def performPacket (p : Packet) (s : State) : Option State :=
  match p.body with
  | .access ptr l op own e => if p.core < 512 then coreAccess p ptr l op own e s else ctxAccess p ptr l op s
  | .resp land v bad => some (updLanding p.core land (fun x => { x with resp := some (v, bad) }) (dropPacket p.id s))
  | .tableResp ts stamp v bad =>
    some (updBody (dropPacket p.id s) p.core (fun b =>
      let t := tabSlot b ts
      if t.loading ∧ t.stamp = stamp then setTab ts { t with data := v, bad := bad, due := Nat.max s.clk 1 } b else b))
  | .bgive q i n => some (giveBuf (accessOver p s) q i n)
  | .signal c ev n =>
    let s1 := dropPacket p.id s
    some (if dieGone s (ctxDie c) then streamFault (p.core - 512) codeDieLost 0 0 [] s1 else updCtx s1 c (fun x => { x with inbox := x.inbox ++ [(ev, n)] }))
  | .share h cl =>
    if dieGone s (cl / 16) then some (failLaunch h.launch codeDieLost noCore (dropPacket p.id s))
    else if waitingLimit ≤ (s.waiting.get [] (cl / 16)).length then none
    else
      let s := dropPacket p.id s
      some { s with waiting := s.waiting.upd [] (cl / 16) (fun l => l ++ [h]) }
  | .net _ b => (netDeliver b (dropPacket p.id s))
  | .hinge _ _ _ _ => none
  | .delta _ _ _ => none

/-- Whether a released access, or a flag with its page, waits for a page that its home has no room for (R179, R237). -/
def lacksPage (s : State) (p : Packet) : Bool :=
  !p.after.any (notDone s) &&
  (match p.body with
  | .access _ (.glob h o) op _ _ => opWrites op && decide (freePages s (handleDie h) < (newPages s h o (opSpan op)).length)
  | .hinge h _ _ _ => decide (freePages s (handleDie h.flagH) < (newPages s h.flagH h.flagO 8).length)
  | _ => false)

/-- The time from which the pager has been looking for room for the page of an access (R237). -/
def markLack (p : Packet) (s : State) : State :=
  { s with packets := s.packets.map (fun q => if q.id = p.id then { q with lackUs := some s.us } else q) }

/-- Perform the first packet of a list that can perform. `before` are those that stand in front of it. One that comes to wait for a
page is marked with the time. -/
def performFirst (before : List Packet) (s : State) : List Packet → State
  | [] => s
  | p :: t =>
    match (if packetReady s before p then performPacket p s else none) with
    | some s => s
    | none =>
      if p.lackUs.isNone && packetReady s before p && lacksPage s p then markLack p s
      else performFirst (before ++ [p]) s t

/-- FABRIC_PACKET_DELIVERY (R35): of the packets of one lane from one block to another, from the one that is named on, the first that
can perform does: posted accesses to different bytes perform in any order (R232). -/
def deliverPacket (lane : Nat) (src dst : Node) (pick : Nat) (s : State) : State :=
  let l := s.packets.filter (fun p => p.lane == lane && p.src == src && p.dst == dst)
  performFirst (l.take pick) s (l.drop pick)

/-- FABRIC_PACKET_DELIVERY. -/
def execFabricPacketDelivery (a : LanePick) (src dst : Node) (s : State) : Host.Outcome State Fault Refusal :=
  .next (deliverPacket a.lane src dst a.pick s)

/-! ### STORE_FAULT_UNRESOLVED (R237) -/

/-- The pager has found no room for the page of an access for 1 ms, and eviction can free none: the access fails with TRANSLATION (R179, R237). The numbers from 512
on name the stream contexts. -/
def storeUnresolved (c : Nat) (s : State) : State :=
  match s.packets.find? (fun p => p.core == c && lacksPage s p && (match p.lackUs with | some t => decide (t + 1000 ≤ s.us) | none => false) && (match packetSpan p with | some (.glob h _, _) => noRoomLeft s (handleDie h) | _ => false)) with
  | none => s
  | some p =>
    match p.body with
    | .access ptr _ op _ e =>
      if c < 512 then storeFails p e codeTranslation (match landOf op with | some i => dropLanding c i s | none => s)
      else streamFault (c - 512) codeTranslation ptr 0 [] (storeOver p s)
    | .hinge _ _ _ e => storeFails p e codeTranslation s
    | _ => s

/-- STORE_FAULT_UNRESOLVED. -/
def execStoreFaultUnresolved (c : Nat) (s : State) : Host.Outcome State Fault Refusal := .next (storeUnresolved c s)

/-! ### The Hinge (R241) -/

/-- What the walk of a page chain finds: the pages, a page that must be brought to HBM4E first, or the cause of a deferred
fault. -/
inductive ChainRes where
  | pages (l : List Nat)
  | bring (h : Nat)
  | fail (code : BitVec 8)
  deriving DecidableEq, Repr

/-- Walk a number of pages of a chain. -/
def walkChain (s : State) (home own part : Nat) : Nat → Nat → List Nat → ChainRes
  | 0, _, l => .pages l
  | n + 1, p, l =>
    let r := trec s p
    if p = 0 ∨ handleDie p ≠ home ∨ isPageTable p ∨ r.state = .free ∨ r.part.toNat ≠ part then .fail codeBounds
    else if r.owner.toNat ≠ own then .fail codePrivilege
    else if !isResident r then .bring p
    else walkChain s home own part n (ptrH (BitVec.ofNat 64 (readNat s (.glob p 0) 8))) (l ++ [p])

/-- Bring a page of a chain to HBM4E, or fail where it cannot be brought. -/
def bringPage (p : Packet) (e : CEntry) (h : Nat) (s : State) : State :=
  let l := (packetLaunch s p).getD 0
  let x := launchOf s l
  if (trec s h).state ≠ .dropped then requestRestore h s
  else if (trec s h).lost ∨ !validRecipe s h then storeFails p e codeRecipeInvalid s
  else match x.fail with
  | some (code, _) => if code = codeRecipeDepth ∨ code = codeRecipeInvalid then storeFails p e code s else requestResident h (.launch l) x.part x.cls s
  | none => requestResident h (.launch l) x.part x.cls s

/-- HINGE_RELEASE_PERFORM: a released HINGE.REL at the home of its flag. -/
def performHinge (p : Packet) (h : HingeRel) (own part : Nat) (e : CEntry) (s : State) : State :=
  let home := handleDie h.flagH
  if dieGone s home then storeFails p e codeDieLost s
  else if (trec s h.flagH).owner.toNat ≠ own then storeFails p e codePrivilege s
  else match walkChain s home own part h.count h.head [] with
  | .fail code => storeFails p e code s
  | .bring q => bringPage p e q s
  | .pages l =>
    if freePages s home < (newPages s h.flagH h.flagO 8).length then (if p.lackUs.isNone then markLack p s else s)
    else
      let old := s.nextId
      let s := l.foldl (fun s q => updRec s q (fun r => { r with owner := BitVec.ofNat 6 h.newown })) s
      accessOver p (tagDeltas old p.core (storeGlob s h.flagH h.flagO (leBytes h.value.toNat 8) (allMask 8)))

/-- The first HINGE.REL of a core that may perform. -/
def firstHinge (s : State) (c : Nat) : Option Packet :=
  s.packets.find? (fun p => p.core == c && (match p.body with | .hinge _ _ _ _ => true | _ => false) &&
    packetReady s (s.packets.takeWhile (fun q => q.id != p.id) |>.filter (fun q => q.lane == p.lane && q.src == p.src && q.dst == p.dst)) p)

/-- HINGE_RELEASE_PERFORM. -/
def hingeRelease (c : Nat) (s : State) : State :=
  match firstHinge s c with
  | none => s
  | some p => match p.body with | .hinge h own part e => performHinge p h own part e s | _ => s

/-- HINGE_RELEASE_PERFORM. -/
def execHingeReleasePerform (c : Nat) (s : State) : Host.Outcome State Fault Refusal := .next (if c < 512 then hingeRelease c s else s)

/-! ### DELTA_APPLY (R262) -/

/-- The first delta on its way to a parity holder is applied. One for a lost die waits for the end of the rebuild (R269). -/
def applyDelta (d : Nat) (s : State) : State :=
  if isLost s d then s
  else match s.packets.find? (fun p => p.lane == 3 && p.dst == .die d) with
  | none => s
  | some p =>
    match p.body with
    | .delta k off bytes => xorInto (parityKey d (k / 8) off) bytes (dropPacket p.id s)
    | _ => s

/-- DELTA_APPLY. -/
def execDeltaApply (d : Nat) (s : State) : Host.Outcome State Fault Refusal := .next (if d < 8 then applyDelta d s else s)

end Sys2Proof.Machine
end

