-- ==== Sys2Proof/Machine/Links.lean ====
section
/-!
DEFINITION. Sys2Proof/Machine/Links.lean: the Ngusin ports (R38-R48): flits, credit, acknowledgement and replay, the ZX tiles of
link payload, retraining, and the routing of packets.

A packet travels as a header flit that names its destination and length, and data flits that carry its bytes in tiles of 4 KiB,
each tile beginning a flit (assumption 13).
-/

namespace Sys2Proof.Machine

/-- A port. -/
def port (s : State) (q : Nat) : Port := s.mod.ports.get .zero q
/-- Whether a port exists (R38). -/
def portExists (q : Nat) : Bool := decide (q < 32)

/-! ### Packets into flits (R39, R47, R48) -/

/-- The most source bytes of a tile. -/
def tileMax : Nat := 4096

/-- The flits of one tile. -/
def tileFlits (dest vl : Nat) (zxf : Bool) (last : Bool) (b : List Byte) : List LinkFlit :=
  let n := (b.length + flitBytes - 1) / flitBytes
  (List.range n).map (fun i =>
    let d := (b.drop (flitBytes * i)).take flitBytes
    { dest := dest, vl := vl, kind := if last && i + 1 == n then 3 else 2, zxf := zxf, data := d ++ List.replicate (flitBytes - d.length) 0, cvl := 0, ccnt := 0 })

/-- Whether ZX may compress a packet (R42, R48): it travels on one of the lanes 0 to 3, and is no line for a survivable tensor of
another module (assumption 54). -/
def zxAllowed (p : NetPacket) : Bool :=
  decide (p.vl < 4) && !(leNat ((p.bytes.drop 2).take 1) == 0 && p.vl == 2 && Config.remoteSurvivable p.dest (leNat ((p.bytes.drop 16).take 8) / 2 ^ 40 % 2 ^ 23))

/-- A tile as it is sent: compressed where that is allowed and makes it shorter (R47). -/
def sentTile (zx : Bool) (src : List Byte) : Bool × List Byte :=
  let t := zxLink src
  if zx && decide (t.length < src.length) then (true, t) else (false, src)

/-- The header flit of a packet. -/
def headFlit (p : NetPacket) : LinkFlit :=
  let head := leBytes p.dest 2 ++ leBytes p.bytes.length 4
  { dest := p.dest, vl := p.vl, kind := 1, zxf := false, data := head ++ List.replicate (flitBytes - head.length) 0, cvl := 0, ccnt := 0 }

/-- Cut the next tile of a lane's packet into flits. Whether it is compressed is settled here, tile by tile, by the fill of the
smoothing queue. -/
def nextTile (vl : Nat) (x : Port) : Port :=
  match x.tx.get none vl with
  | none => x
  | some (q, p) =>
    let x := zxGate x
    let rest := p.bytes.drop tileMax
    let t := sentTile (x.zxen && !x.zxHold && zxAllowed p) (p.bytes.take tileMax)
    { x with tx := x.tx.set none vl (if rest = [] then none else some (q, { p with bytes := rest })), flits := x.flits ++ tileFlits p.dest p.vl t.1 (rest == []) t.2 }

/-- Give a lane its next flits, where it has none: the next tile of the packet it has begun, or the header of the first packet that
waits. -/
def loadLane (vl : Nat) (x : Port) : Port :=
  if x.flits.any (fun f => f.vl == vl) then x
  else if (x.tx.get none vl).isSome then nextTile vl x
  else match x.queue.find? (fun p => p.2.vl == vl) with
  | none => x
  | some p => { x with queue := x.queue.erase p, flits := x.flits ++ [headFlit p.2], tx := x.tx.set none vl (if p.2.bytes = [] then none else some p) }

/-! ### The bytes of a flit (R39) -/

/-- A flit's 64 bytes. -/
def flitImage (f : LinkFlit) (seq : BitVec 16) (ack : BitVec 15) (nak : Bool) : List Byte :=
  let b := f.data ++ [BitVec.ofNat 8 (f.vl % 8 + f.kind % 4 * 8 + (if f.zxf then 32 else 0)), BitVec.ofNat 8 (f.cvl % 8 + f.ccnt % 32 * 8)] ++
    leBytes seq.toNat 2 ++ leBytes (ack.toNat + (if nak then 2 ^ 15 else 0)) 2 ++ [0, 0]
  b ++ leBytes (crc32c b).toNat 4

/-- A flit that carries nothing. -/
def idleFlit : LinkFlit := { dest := 0, vl := 0, kind := 0, zxf := false, data := List.replicate flitBytes 0, cvl := 0, ccnt := 0 }

/-- The distance from one sequence number to another. -/
def seqGap (a b : BitVec 16) : Nat := (b - a).toNat

/-- The number of the flit at the front of the first ZX tile that has not yet been expanded. -/
def openTile (x : Port) : Option (BitVec 16) :=
  ((x.rx.cells.filterMap (fun r => r.2.bind (fun k => k.seqs.head?))).foldl (fun (m : Option (BitVec 16)) q =>
    match m with
    | some n => if seqGap n x.expect < seqGap q x.expect then some q else some n
    | none => some q) none)

/-- The highest number received in order. A tile that is not yet expanded is not acknowledged: it may be asked for again (R311). -/
def ackOf (x : Port) : BitVec 15 :=
  match openTile x with
  | some q => ((q - 1).setWidth 15)
  | none => ((x.expect - 1).setWidth 15)

/-- Whether a die's bounce buffer is full (R182). -/
def bounceFull (s : State) : Bool := (List.range 8).any (fun d => decide (2 ^ 28 < bounceBytes s d + 128))

/-- The lanes on which a port returns no credit now: all of them in M2 (R24), and lanes 0, 2 and 3 while a bounce buffer is full
(R182). -/
def creditHeld (s : State) (vl : Nat) : Bool := s.mod.power.state == .m2 || (bounceFull s && (vl == 0 || vl == 2 || vl == 3))

/-- The credit a flit returns (R43): how much of what one lane is owed; of several lanes owed some, the lowest goes first (DESIGN CHOICE,
assumption 22). -/
def creditOf (s : State) (x : Port) : Nat × Nat :=
  match (List.range 8).find? (fun v => decide (0 < x.owed.get 0 v) && !creditHeld s v) with
  | some v => (v, Nat.min 31 (x.owed.get 0 v))
  | none => (0, 0)

/-! ### FLIT_SEND (R40, R42, R43) -/

/-- Whether a lane has something to send. -/
def laneWaits (x : Port) (vl : Nat) : Bool := x.flits.any (fun f => f.vl == vl) || (x.tx.get none vl).isSome || x.queue.any (fun p => p.2.vl == vl)
/-- Whether a lane may send: it has something, and credit for it. -/
def laneReady (x : Port) (vl : Nat) : Bool := laneWaits x vl && decide (x.spent.get 0 vl < 128)

/-- The lane that sends: lanes 1 and 4 go ahead of lane 0. -/
def chosenLane (x : Port) (vl : Nat) : Nat := if vl = 0 ∧ laneReady x 1 then 1 else if vl = 0 ∧ laneReady x 4 then 4 else vl

/-- A flit leaves a port with its number; a NAK owed goes with it. -/
def emitFlit (q : Nat) (f : LinkFlit) (seq : BitVec 16) (s : State) : State :=
  updPort s q (fun x =>
    let x := { x with lastTx := flitImage f seq (ackOf x) x.nakOwed }
    if !x.nakOwed then x
    else
      let same := x.nakOut == x.expect && x.naksOut != 0
      { x with
        nakOwed := false, nakOut := x.expect, naksOut := if same then x.naksOut + 1 else 1,
        nakcnt := if x.nakcnt = 0xFFFF then x.nakcnt else x.nakcnt + 1 })

/-- Put the credit a flit returns into it. -/
def withCredit (s : State) (x : Port) (f : LinkFlit) : LinkFlit := { f with cvl := (creditOf s x).1, ccnt := (creditOf s x).2 }

/-- The credit in a flit is no longer owed. -/
def payCredit (q : Nat) (f : LinkFlit) (s : State) : State := updPort s q (fun x => { x with owed := x.owed.upd 0 f.cvl (fun n => n - f.ccnt) })

/-- Send an idle flit; it carries the next number. -/
def sendIdle (q : Nat) (s : State) : State :=
  let f := withCredit s (port s q) idleFlit
  emitFlit q f (port s q).seq (payCredit q f s)

/-- Send the next flit of a lane. -/
def sendNew (q vl : Nat) (s : State) : State :=
  let s := updPort s q (loadLane vl)
  let x := port s q
  match x.flits.find? (fun f => f.vl == vl) with
  | none => sendIdle q s
  | some f0 =>
    let f := withCredit s x f0
    let s := payCredit q f s
    let s := updPort s q (fun x => zxGate { x with
      flits := x.flits.erase f0, spent := x.spent.upd 0 vl (fun n => n + 1), replay := x.replay ++ [(x.seq, f)],
      ackUs := if x.replay = [] then s.us else x.ackUs, seq := x.seq + 1 })
    emitFlit q f x.seq s

/-- FLIT_SEND: flits asked for again go first, in their order; a full replay buffer or a lane without credit gives an idle flit. -/
def sendFlit (q vl : Nat) (s : State) : State :=
  let x := port s q
  if !portExists q ∨ x.state ≠ .up ∨ 8 ≤ vl then s
  else if 0 < x.again then
    match x.replay[x.replay.length - x.again]? with
    | some (n, f) => emitFlit q f n (updPort s q (fun x => { x with again := x.again - 1 }))
    | none => updPort s q (fun x => { x with again := 0 })
  else
    let v := chosenLane x vl
    if x.replay.length < 1024 ∧ laneReady x v then sendNew q v s else sendIdle q s

/-- FLIT_SEND. -/
def execFlitSend (q vl : Nat) (s : State) : Host.Outcome State Fault Refusal := .next (sendFlit q vl s)

/-! ### Arriving packets (R24, R45, R46) -/

/-- A packet that came in on a port is looked up in that port's table; one that has no route is dropped, and its source told. -/
def routeIn (q : Nat) (p : NetPacket) (s : State) : State :=
  let r := netRoute q p s
  if r.2 then r.1 else refusePacket p.bytes r.1

/-- A packet has arrived whole. In M2 it waits for the exit. -/
def packetIn (q : Nat) (p : NetPacket) (s : State) : State :=
  if s.mod.power.state = .m2 then updPort s q (fun x => { x with inbox := x.inbox ++ [p] }) else routeIn q p s

/-- A flit of a packet that reaches a module in M2 begins the exit (R24). -/
def stirs (b : List Byte) (s : State) : State :=
  if s.mod.power.state = .m2 ∧ bitsOf (nthD b 52 0).toNat 3 2 ≠ 0 then { s with mod := { s.mod with power := { s.mod.power with exiting := true } } } else s

/-! ### FLIT_RECEIVE (R39, R40) -/

/-- Apply an acknowledgement: the flits it covers leave the replay buffer. -/
def applyAck (us : Nat) (ack : BitVec 15) (x : Port) : Port :=
  match (List.range x.replay.length).find? (fun i => match x.replay[i]? with | some (n, _) => n.setWidth 15 == ack | none => false) with
  | some i =>
    let left := x.replay.drop (i + 1)
    { x with replay := left, again := Nat.min x.again left.length, ackUs := us, naksIn := 0 }
  | none => x

/-- Apply a NAK: everything from ACK + 1 on is sent again. -/
def applyNak (nak : Bool) (ack : BitVec 15) (x : Port) : Port :=
  if !nak then x
  else
    let n := ack.setWidth 16
    { x with again := x.replay.length, naksIn := if x.nakIn = n ∧ x.naksIn ≠ 0 then x.naksIn + 1 else 1, nakIn := n }

/-- The bytes a tile still lacks in a packet being received. -/
def tileNeeds (r : RxPacket) : Nat := Nat.min tileMax (r.len - r.bytes.length)

/-- A data flit's payload joins its packet: the new packet, or none where it ends a malformed ZX tile. -/
def takeData (zxf : Bool) (seq : BitVec 16) (data : List Byte) (r : RxPacket) : Option RxPacket :=
  let run := r.run ++ data
  if zxf then
    let n := leNat ((run.drop 2).take 2) % 2 ^ 13
    if run.length < Nat.max 16 n then
      (if r.seqs.length < 80 then some { r with run := run, seqs := r.seqs ++ [seq] } else none)
    else match zxExpand (run.take n) with
    | some b => if b.length = tileNeeds r then some { r with bytes := r.bytes ++ b, run := [], seqs := [] } else none
    | none => none
  else if run.length < tileNeeds r then some { r with run := run }
  else some { r with bytes := r.bytes ++ run.take (tileNeeds r), run := [] }

/-- The numbers from the front of a malformed tile up to the next expected that are not the tile's own: those flits have been
delivered and are passed over when they come again. -/
def aheadOf (x : Port) (r : RxPacket) (seq : BitVec 16) : List (BitVec 16) :=
  let q := r.seqs.headD seq
  (((List.range (seqGap q seq)).map (fun i => q + BitVec.ofNat 16 i)).filter (fun n => !r.seqs.contains n)) ++ x.ahead

/-- Refuse a flit: a NAK is owed. -/
def refuseFlit (q : Nat) (s : State) : State := updPort s q (fun x => { x with nakOwed := true })

/-- The next expected number, past those accepted before. -/
def nextExpect : Nat → List (BitVec 16) → BitVec 16 → BitVec 16 × List (BitVec 16)
  | 0, l, n => (n, l)
  | f + 1, l, n => if l.contains n then nextExpect f (l.filter (fun k => k != n)) (n + 1) else (n, l)

/-- The flit with the next expected number is accepted: its lane's buffer is freed again at once, and the credit it returns is
applied. -/
def acceptFlit (q vl cvl ccnt : Nat) (s : State) : State :=
  updPort s q (fun x =>
    let e := nextExpect (x.ahead.length + 1) x.ahead (x.expect + 1)
    { x with
      expect := e.1, ahead := e.2, owed := x.owed.upd 0 vl (fun n => n + 1), spent := x.spent.upd 0 cvl (fun n => n - ccnt),
      naksOut := 0 })

/-- A header flit begins a packet on its lane. -/
def beginPacket (vl : Nat) (data : List Byte) (x : Port) : Port :=
  { x with rx := x.rx.set none vl (some { dest := leNat (data.take 2), len := leNat ((data.drop 2).take 4), bytes := [], run := [], seqs := [] }) }

/-- A flit with a right CRC and the next expected number. -/
def takeFlit (q : Nat) (b : List Byte) (s : State) : State :=
  let c := (nthD b 52 0).toNat
  let vl := bitsOf c 0 3
  let kind := bitsOf c 3 2
  let cr := (nthD b 53 0).toNat
  let x := port s q
  if kind = 0 then updPort s q (fun x => { x with spent := x.spent.upd 0 (bitsOf cr 0 3) (fun n => n - bitsOf cr 3 5) })
  else if kind = 1 then updPort (acceptFlit q vl (bitsOf cr 0 3) (bitsOf cr 3 5) s) q (beginPacket vl (b.take flitBytes))
  else match x.rx.get none vl with
  | none => acceptFlit q vl (bitsOf cr 0 3) (bitsOf cr 3 5) s
  | some r =>
    match takeData (bitAt c 5) x.expect (b.take flitBytes) r with
    | none =>
      refuseFlit q (updPort s q (fun y => { y with
        expect := r.seqs.headD x.expect, ahead := aheadOf x r x.expect, rx := y.rx.set none vl (some { r with run := [], seqs := [] }) }))
    | some r2 =>
      let s := acceptFlit q vl (bitsOf cr 0 3) (bitsOf cr 3 5) s
      if kind = 3 ∧ r2.run = [] then
        packetIn q { dest := r2.dest, vl := vl, bytes := r2.bytes } (updPort s q (fun y => { y with rx := y.rx.set none vl none }))
      else updPort s q (fun y => { y with rx := y.rx.set none vl (some r2) })

/-- FLIT_RECEIVE: a flit whose CRC is wrong, or whose reserved bits are set, counts for nothing; the ACK and NAK of any other are
applied; one that is not the next expected is dropped. A NAK is owed for each one dropped. -/
def receiveFlit (q : Nat) (b : List Byte) (s : State) : State :=
  if !portExists q ∨ (port s q).state ≠ .up then s
  else if b.length ≠ 64 ∨ (crc32c (b.take 60)).toNat ≠ leNat (b.drop 60) ∨ bitsOf (nthD b 52 0).toNat 6 2 ≠ 0 then refuseFlit q s
  else
    let a := leNat ((b.drop 56).take 2)
    let ack : BitVec 15 := BitVec.ofNat 15 a
    let s := updPort s q (fun x => applyNak (bitAt a 15) ack (applyAck s.us ack x))
    if leNat ((b.drop 54).take 2) ≠ (port s q).expect.toNat then refuseFlit q s else takeFlit q b (stirs b s)

/-- FLIT_RECEIVE. -/
def execFlitReceive (q : Nat) (b : List (BitVec 8)) (s : State) : Host.Outcome State Fault Refusal := .next (receiveFlit q b s)

/-! ### Retraining (R41) -/

/-- Whether a port must retrain: eight NAKs in succession for one number, or 20 µs without progress of the ACK. -/
def mustRetrain (s : State) (x : Port) : Bool :=
  decide (8 ≤ x.naksIn) || decide (8 ≤ x.naksOut) || (x.replay != [] && decide (x.ackUs + 20 ≤ s.us))

/-- A port enters FAILED: what it had sent and not seen acknowledged is lost, an alarm is raised, and what still waits is routed
anew (R46). -/
def failPort (q : Nat) (s : State) : State :=
  let x := port s q
  let s := updPort s q (fun x => { x with state := .failed, replay := [], again := 0, flits := [], tx := .empty, queue := [], fails := 3 })
  let s := sendMsix (Config.alarmVector 0 % 64) { s with mod := { s.mod with power := { s.mod.power with alert := true } } }
  x.queue.foldl (fun s p => routeIn p.1 p.2 s) s

/-- PORT_RETRAIN: a retrain that succeeds resumes from ACK + 1; the third in succession that fails makes the port FAILED. A retrain
is one moment of the model, and NGPORT.STATE reads up before and after it, and between retrains that fail (DESIGN CHOICE, assumption 22). A port that trains and cannot bring up four lanes counts the same way (R48). -/
def retrainPort (q : Nat) (ok : Bool) (s : State) : State :=
  let x := port s q
  if !portExists q then s
  else if x.state = .training then
    (if ok then s else if 3 ≤ x.fails + 1 then failPort q s else updPort s q (fun x => { x with fails := x.fails + 1 }))
  else if x.state ≠ .up ∨ !mustRetrain s x then s
  else if ok then updPort s q (fun x => { x with again := x.replay.length, fails := 0, naksIn := 0, naksOut := 0, ackUs := s.us, nakOwed := false })
  else if 3 ≤ x.fails + 1 then failPort q s
  else updPort s q (fun x => { x with fails := x.fails + 1 })

/-- PORT_RETRAIN. -/
def execPortRetrain (q : Nat) (ok : Bool) (s : State) : Host.Outcome State Fault Refusal := .next (retrainPort q ok s)

/-! ### NGPORT (R48) -/

/-- The register of a port. -/
def ngportImage (x : Port) : Word :=
  let st := match x.state with | .down => 0 | .training => 1 | .up => 2 | .failed => 3
  BitVec.ofNat 64 ((if x.enable then 1 else 0) + (if x.zxen then 2 else 0) + st * 4 + x.laneok.toNat * 16 + x.nakcnt.toNat * 2 ^ 32 +
    Nat.min 65535 (queueBytes x / 2 ^ 15) * 2 ^ 48)

/-- A write of NGPORT: ENABLE, set where it was clear, starts the training of the port; cleared, it takes the port down, and what
waits there is routed anew. -/
def writeNgport (q : Nat) (v : Word) (s : State) : State :=
  if !portExists q then s
  else
    let x := port s q
    let s := updPort s q (fun x => { x with zxen := bitAt v.toNat 1, enable := bitAt v.toNat 0 })
    if bitAt v.toNat 0 then
      (if x.enable then s else updPort s q (fun y => { Port.zero with enable := true, zxen := y.zxen, state := .training, nakcnt := y.nakcnt }))
    else
      let s := updPort s q (fun y => { Port.zero with enable := false, zxen := y.zxen, nakcnt := y.nakcnt })
      x.queue.foldl (fun s p => routeIn p.1 p.2 s) s

/-- NGPORT_WRITE. -/
def execNgportWrite (q : Nat) (v : BitVec 64) (s : State) : Host.Outcome State Fault Refusal := .next (writeNgport q v s)

/-- PORT_TRAINING_COMPLETE (R48): lanes have trained; with all four the port comes up. -/
def portTrained (q : Nat) (lanes : BitVec 4) (s : State) : State :=
  let x := port s q
  if !portExists q ∨ x.state ≠ .training then s
  else
    let ok := x.laneok ||| lanes
    updPort s q (fun x => { x with laneok := ok, state := if ok = 15 then .up else .training, fails := if ok = 15 then 0 else x.fails, ackUs := s.us })

/-- PORT_TRAINING_COMPLETE. -/
def execPortTrainingComplete (q : Nat) (lanes : BitVec 4) (s : State) : Host.Outcome State Fault Refusal := .next (portTrained q lanes s)

/-! ### ROUTE_SWITCH_RELEASE (R46) -/

/-- The packets that a table holds for a destination go on their new route, once what went before them on the old one has been
acknowledged. -/
def releaseRoute (q dest : Nat) (s : State) : State :=
  let old := s.mod.lastRoute.get 0 (q * 4096 + dest)
  if old ≠ 0 ∧ routeBusy s q dest (old - 1) then s
  else
    let mine := s.mod.routeHold.filter (fun p => p.1 == q && p.2.dest == dest)
    let s := { s with mod := { s.mod with routeHold := s.mod.routeHold.filter (fun p => !(p.1 == q && p.2.dest == dest)), lastRoute := s.mod.lastRoute.set 0 (q * 4096 + dest) 0 } }
    mine.foldl (fun s p => routeIn q p.2 s) s

/-- ROUTE_SWITCH_RELEASE. -/
def execRouteSwitchRelease (q dest : Nat) (s : State) : Host.Outcome State Fault Refusal := .next (releaseRoute q dest s)

end Sys2Proof.Machine
end

