-- ==== Sys2Proof/Machine/MemChannels.lean ====
section
/-!
DEFINITION. Sys2Proof/Machine/MemChannels.lean: the HBM4E and LPDDR6 channels (R51-R58): retrains at a lower rate, disabled
channels, patrol scrubbing, and the logs of both memories.
-/

namespace Sys2Proof.Machine

/-- A channel's retrain after the fourth failed transfer (R53): three retries have gone before; it goes on at half rate, or is
disabled. -/
def retrainHbm (st ch : Nat) (ok : Bool) (s : State) : State :=
  if 16 ≤ st ∨ 32 ≤ ch ∨ (memBank s st).dead.contains ch then s
  else
    let s := updBank st (fun b => { b with retry := satAdd b.retry 3 }) s
    if ok then logOpen st 6 (updBank st (fun b => { b with half := (b.half ++ [ch]).eraseDups }) s)
    else logOpen st 7 (updBank st (fun b => { b with half := b.half.filter (fun c => c != ch), dead := b.dead ++ [ch] }) s)

/-- HBM_CHANNEL_RETRAIN. -/
def execHbmChannelRetrain (st ch : Nat) (ok : Bool) (s : State) : Host.Outcome State Fault Refusal := .next (retrainHbm st ch ok s)

/-- A spill channel's retrain at its next lower speed grade (R57). -/
def retrainLp (io ch : Nat) (s : State) : State :=
  if 2 ≤ io ∨ 16 ≤ ch then s
  else logOpen (16 + io) 6 (updBank (16 + io) (fun b => { b with
    retry := satAdd b.retry 3, half := (b.half ++ [ch]).eraseDups, grade := b.grade.upd 0 ch (fun n => n + 1) }) s)

/-- A transfer of a channel that goes through at one of its three retries (R53, R57): the retries are counted. -/
def retried (m n : Nat) (s : State) : State :=
  if m < 18 ∧ 1 ≤ n ∧ n ≤ 3 then updBank m (fun b => { b with retry := satAdd b.retry n }) s else s

/-- Byte symbols of a stored sector go wrong (R52, R58): one, or two. -/
def upset (q : Nat) (two : Bool) (s : State) : State :=
  if (memOf s (32 * q)).isSome then { s with wrong := s.wrong.upd 0 q (fun n => Nat.min 2 (n + if two then 2 else 1)) } else s

/-- LPDDR_CHANNEL_RETRAIN. -/
def execLpddrChannelRetrain (io ch : Nat) (s : State) : Host.Outcome State Fault Refusal := .next (retrainLp io ch s)

/-- PATROL_SCRUB (R55, R54): a corrected sector is written back, unless NOWB is set, and counted; an uncorrectable one is
poisoned. The sector is named by its key / 32. -/
def patrol (m q : Nat) (found : ScrubFind) (s : State) : State :=
  let b := memBank s m
  if b.period = 0 ∨ !bankHolds s m (32 * q) then s
  else match found with
  | .clean => s
  | .corrected =>
    let a := sectorAddr s (32 * q)
    let y := freeNat a.1
    logMem m a.2 4 y.2 (updBank m (fun b => { b with ce := satAdd b.ce 1 }) (if b.nowb then y.1 else mend [q] y.1))
  | .uncorrectable =>
    let a := sectorAddr s (32 * q)
    logMem m a.2 5 0 (updBank m (fun b => { b with ue := satAdd b.ue 1 }) (spoil (unitOf m q) a.1))

/-- PATROL_SCRUB. -/
def execPatrolScrub (m addr : Nat) (found : ScrubFind) (s : State) : Host.Outcome State Fault Refusal := .next (patrol m addr found s)

end Sys2Proof.Machine
end

