-- ==== Sys2Proof/Machine/HostPort.lean ====
section
/-!
DEFINITION. Sys2Proof/Machine/HostPort.lean: what the host does to the module beside plain register writes (R61-R76): the tensor
aperture, cluster maps and vector ranges, stream contexts, host declarations, interrupt masks, function resets.
-/

namespace Sys2Proof.Machine

/-- The answer to the last host access. -/
def answerHost (a : HostAnswer) (s : State) : State := { s with mod := { s.mod with answer := a } }

/-! ### The tensor aperture (R66-R68) -/

/-- The slot an access of a function uses. -/
def apSlot (fn x : Nat) : Nat := if fn = 0 then x / 2 ^ 30 % 64 else 8 * fn + x / 2 ^ 30 % 8
/-- A slot register. -/
def slotReg (s : State) (k : Nat) : Word := s.mod.apslots.get 0 k
/-- The handle and byte offset a slot and an offset name. -/
def apHandle (s : State) (fn x : Nat) : Nat := fieldW (slotReg s (apSlot fn x)) 0 23
def apOff (s : State) (fn x : Nat) : Nat := fieldW (slotReg s (apSlot fn x)) 32 10 * 2 ^ 30 + x % 2 ^ 30

/-- Whether an access of `n` bytes meets a valid slot of a partition that exists, and a tensor of it that holds the bytes
(R67) and that no NOHOST flag hides (R125). -/
def apValid (s : State) (fn x n : Nat) : Bool :=
  let k := apSlot fn x
  let h := apHandle s fn x
  partExists s fn && partExists s (k / 8) && bitAt (slotReg s k).toNat 23 && declared s (k / 8) h && decide (apOff s fn x + n ≤ (trec s h).bytes) &&
    !(trec s h).prot.getLsbD 1 && !dieGone s (handleDie h)

/-- An access failed: APERR of the slot's partition. -/
def apErr (part : Nat) (s : State) : State := updPart s part (fun p => { p with aperr := true })

/-- A host write performs (R67, R195): the tensor gains a generation, and its recipe is no longer valid. -/
def apPut (h o : Nat) (b : List Byte) (s : State) : State :=
  updRec (storeGlob s h o b (allMask b.length)) h (fun r => { r with gen := r.gen + 1, rvalid := false })

/-- Whether a write to a tensor may perform now. -/
def apReady (s : State) (h o n : Nat) : Bool :=
  isReady s h && linkFits s h o n

/-- Serve a read of a function (R67). -/
def apServe (fn x n : Nat) (s : State) : State :=
  let h := apHandle s fn x
  let l := Loc.glob h (apOff s fn x)
  if !apValid s fn x n ∨ (trec s h).state = .dropped then answerHost .ur s
  else if poisoned s l n then answerHost .poisoned s
  else answerHost (.data (readLoc s l n)) s

/-- Whether a read of a function waits for its tensor to be restored (R67), or for what the bounce buffer holds for it (R182). -/
def readBlocked (s : State) (fn x n : Nat) : Bool :=
  let h := apHandle s fn x
  apValid s fn x n && (trec s h).state != .dropped && (!isResident (trec s h) || bounceHeld s h)

/-- Ask for what a blocked read waits for. -/
def askRead (fn x n : Nat) (s : State) : State :=
  if readBlocked s fn x n ∧ !isResident (trec s (apHandle s fn x)) then requestRestore (apHandle s fn x) s else s

/-- APERTURE_READ (R67, R68): a read waits for the earlier writes of its function, and for a restore; the port holds it until then. -/
def apRead (fn x n : Nat) (s : State) : State :=
  let k := (partOf s fn).heldW.length
  if k ≠ 0 ∨ readBlocked s fn x n then answerHost .held (askRead fn x n (updPart s fn (fun p => { p with heldR := p.heldR ++ [(x, n, k)] })))
  else apServe fn x n s

/-- A held read of a function is served once nothing keeps it back (R67, R68). -/
def apServeHeld (fn i : Nat) (s : State) : State :=
  match (partOf s fn).heldR[i]? with
  | none => s
  | some (x, n, k) =>
    if k ≠ 0 ∨ readBlocked s fn x n then askRead fn x n s
    else apServe fn x n (updPart s fn (fun p => { p with heldR := p.heldR.eraseIdx i }))

/-- APERTURE_READ. -/
def execApertureRead (fn x n : Nat) (s : State) : Host.Outcome State Fault Refusal := .next (apRead fn x n s)

/-- Hold a write of a function behind those it already holds. -/
def holdWrite (fn h o : Nat) (b : List Byte) (s : State) : State := updPart s fn (fun p => { p with heldW := p.heldW ++ [(h, o, b)] })

/-- APERTURE_WRITE (R67, R68). -/
def apWrite (fn x : Nat) (b : List Byte) (s : State) : State :=
  let k := apSlot fn x
  let h := apHandle s fn x
  let o := apOff s fn x
  if !apValid s fn x b.length ∨ !bitAt (slotReg s k).toNat 24 ∨ (trec s h).state = .dropped then apErr (k / 8) s
  else if (partOf s fn).heldW = [] ∧ apReady s h o b.length then apPut h o b s
  else holdWrite fn h o b (if isResident (trec s h) then s else requestRestore h s)

/-- APERTURE_WRITE. -/
def execApertureWrite (fn x : Nat) (b : List (BitVec 8)) (s : State) : Host.Outcome State Fault Refusal := .next (apWrite fn x b s)

/-! ### Host declarations (R74) -/

/-- The end of a request. -/
def hdDone (p : Nat) (s : State) : State := updPart s p (fun x => { x with hdreq := none, hddone := true })
def hdRefuse (p : Nat) (code : BitVec 8) (s : State) : State := updPart s p (fun x => { x with hdreq := none, hdrefused := true, hdcode := code })

/-- The request under way goes on: it is performed after every earlier BAR2 write of the same function, and a free waits while the tensor is
recipe-held; it stays BUSY until then, and while the clocks of the dies are stopped. -/
def hdRun (p : Nat) (s : State) : State :=
  let x := partOf s p
  match x.hdreq with
  | none => s
  | some q =>
    if x.heldW ≠ [] ∨ s.mod.power.state = .m2 then s
    else if q.free then
      let h := ptrH q.ptr
      if !isGlobal q.ptr ∨ !declared s p h then hdRefuse p codeUndeclared s
      else if freeWaits s h then s
      else hdDone p (freeTensor h s)
    else if (ctx s q.owner.toNat).part.toNat ≠ p then hdRefuse p codePrivilege s
    else match declareTensor q.desc p q.owner.toNat (ctx s q.owner.toNat).step s with
    | .error (code, _) => hdRefuse p code s
    | .ok (s, h) => hdDone p (updPart s p (fun x => { x with hdres := globalPtr h 0 }))

/-- A write of HDCTL, of the bits of a mask. A GO while BUSY is ignored: the request under way keeps what it was given at its GO. A new
request leaves DONE, REFUSED and CODE as they are until it ends (DESIGN CHOICE, assumption 100). -/
def writeHdctl (p : Nat) (m v : Nat) (s : State) : State :=
  let go := bitAt v 0 && bitAt m 0
  let w1c := fun (i : Nat) => bitAt v i && bitAt m i
  let s := updPart s p (fun x => { x with
    hdop := if bitAt m 1 then bitAt v 1 else x.hdop,
    hdowner := if bitAt m 2 then BitVec.ofNat 6 (bitsOf v 2 6) else x.hdowner,
    hddone := x.hddone && !w1c 9, hdrefused := x.hdrefused && !w1c 10 })
  let x := partOf s p
  hdRun p (if go ∧ x.hdreq.isNone then updPart s p (fun x => { x with hdreq := some { free := x.hdop, owner := x.hdowner, ptr := x.hdres, desc := x.hddesc } }) else s)

/-- All bits of a register. -/
def fullMask : Nat := 2 ^ 64 - 1

/-- HOST_DECLARE: a write of HDCTL whose OP is read as declare; while a request is BUSY, its next attempt. -/
def execHostDeclare (p : Nat) (v : BitVec 64) (s : State) : Host.Outcome State Fault Refusal :=
  .next (if p < 8 then writeHdctl p fullMask (withBits v.toNat 1 1 0) s else s)
/-- HOST_FREE: with OP free. -/
def execHostFree (p : Nat) (v : BitVec 64) (s : State) : Host.Outcome State Fault Refusal :=
  .next (if p < 8 then writeHdctl p fullMask (withBits v.toNat 1 1 1) s else s)

/-- APERTURE_HELD_WRITE_PERFORM (R67, R68): the oldest held write of a function performs once its tensor is restored and not
recipe-held; a tensor that has gone or been dropped meanwhile drops it. -/
def apHeld (p : Nat) (s : State) : State :=
  match (partOf s p).heldW with
  | [] => s
  | (h, o, b) :: _ =>
    let pop := fun (s : State) => updPart s p (fun x => { x with heldW := x.heldW.drop 1, heldR := x.heldR.map (fun r => (r.1, r.2.1, r.2.2 - 1)) })
    let after := hdRun p
    let r := trec s h
    if r.state = .free ∨ r.freeing ∨ r.state = .dropped ∨ dieGone s (handleDie h) then after (apErr (if r.state = .free then p else r.part.toNat) (pop s))
    else if !isResident r then requestRestore h s
    else if apReady s h o b.length then after (apPut h o b (pop s)) else s

/-- APERTURE_HELD_WRITE_PERFORM. -/
def execApertureHeldWritePerform (p : Nat) (s : State) : Host.Outcome State Fault Refusal := .next (if p < 8 then apHeld p s else s)

/-! ### Cluster maps and vector ranges (R69, R70) -/

/-- A refused write of PARTCTL or of the cluster map. -/
def refusePart (p why : Nat) (s : State) : State := updPart s p (fun x => { x with refused := true, reason := BitVec.ofNat 3 why })

/-- Whether a partition has a live task, running or saved, or an active context. -/
def partBusy (s : State) (p : Nat) : Bool :=
  s.cores.cells.any (fun k => (match k.2.b.task with | some t => t.part == p | none => false) ||
    k.2.frames.any (fun f => match f.body.task with | some t => t.part == p | none => false)) ||
  (List.range 64).any (fun c => (ctx s c).part.toNat == p && ((ctx s c).state == .running || (ctx s c).state == .waiting || (ctx s c).state == .stopping))

/-- Zero the scratchpad, accumulators, weight buffers, decode tables, program routines (R150) and buffer table (R208) of a core. -/
def zeroCore (c : Nat) (s : State) : State :=
  let base := spadKey c 0
  let s := { s with
    mem := (s.mem.zeroRange base (2 ^ 22)).zeroRange (wbufKey c 0 0) (2 ^ 19),
    poison := s.poison.keep (fun k _ => !(decide (base / 32 ≤ k) && decide (k < base / 32 + 2 ^ 17))) }
  updBody s c (fun b => { b with acc := .empty, accX := .empty, tab0 := .zero, tab1 := .zero, micro := .empty, entries := .empty, r := { b.r with bufs := .empty } })

/-- Zero the cores of a cluster. -/
def zeroCluster (cl : Nat) (s : State) : State := (List.range 4).foldl (fun s q => zeroCore (clusterCore cl q) s) s

/-- Why a map entry is refused, if it is (R70). Bits [6:0] name a cluster whether or not VALID is set: only the first case asks for VALID
(assumption 24). -/
def mapRefused (s : State) (p : Nat) (v : BitVec 8) : Option Nat :=
  let cl := v.toNat % 128
  if v.msb ∧ !clusterExists cl then some 1
  else if (List.range 8).any (fun q => q != p && serves s q cl) then some 2
  else if isRetired s cl then some 3
  else if partBusy s p then some 4 else none

/-- A write of a cluster map entry: one newly made VALID zeroes its cluster. -/
def writeMap (p i : Nat) (v : BitVec 8) (s : State) : State :=
  if 8 ≤ p ∨ 80 ≤ i then s
  else match mapRefused s p v with
  | some why => refusePart p why s
  | none =>
    let old := mapEntry s p i
    let s := { s with maps := s.maps.set 0 (p * 80 + i) v }
    if v.msb ∧ v ≠ old then zeroCluster (v.toNat % 128) s else s

/-- CLUSTER_MAP_WRITE. -/
def execClusterMapWrite (p i : Nat) (v : BitVec 8) (s : State) : Host.Outcome State Fault Refusal := .next (writeMap p i v s)

/-- Why a vector range is refused, if it is (R70). A write that meets a case of REASON 5 and that of REASON 6 gets 5: the spec gives the
second list no order (DESIGN CHOICE, assumption 100). -/
def rangeRefused (s : State) (p base count : Nat) : Option Nat :=
  if 2048 < base + count then some 5
  else if count ≠ 0 ∧ (List.range 8).any (fun q =>
      let x := partOf s q
      q != p && x.veccount != 0 && decide (base < x.vecbase.toNat + x.veccount.toNat) && decide (x.vecbase.toNat < base + count)) then some 5
  else if count ≠ 0 ∧ base < 64 then some 5
  else if p ≠ 0 ∧ s.mod.vfen then some 6 else none

/-- A write of PARTCTL, of the bits of a mask. -/
def writePartctl (p m v : Nat) (s : State) : State :=
  if 8 ≤ p then s
  else
    let x := partOf s p
    let old := x.vecbase.toNat * 2 + x.veccount.toNat * 2 ^ 12
    let new := Nat.lor (Nat.land old (fullMask - Nat.land m fullMask)) (Nat.land v m)
    let base := bitsOf new 1 11
    let count := bitsOf new 12 12
    match rangeRefused s p base count with
    | some why => refusePart p why s
    | none => updPart s p (fun x => { x with vecbase := BitVec.ofNat 11 base, veccount := BitVec.ofNat 12 count })

/-- PARTCTL_WRITE. -/
def execPartctlWrite (p : Nat) (v : BitVec 64) (s : State) : Host.Outcome State Fault Refusal := .next (writePartctl p fullMask v.toNat s)

/-! ### Stream contexts (R71-R73, R137) -/

/-- Whether a context may be started. -/
def canStart (x : Ctx) : Bool := x.state == .idle || x.state == .ended || x.state == .faulted

/-- A start (R72, R89): a held expansion goes on where it stood (R137). -/
def startCtx (c : Nat) (s : State) : State :=
  let x := ctx s c
  if !isGlobal x.entry ∨ x.entry.toNat % 8 ≠ 0 ∨ !partExists s x.part.toNat then updCtx s c (fun x => { x with refused := true, run := false })
  else
    updCtx s c (fun x => { x with
      run := true, state := .running, pc := BitVec.ofNat 48 (ptrO x.entry), code := globalPtr (ptrH x.entry) 0, cls := x.prio, handler := none, inh := false,
      bracket := none, wait := none, woken := false, ending := false, killing := false, mret := x.inmac })

/-- Whether a stop lets the instruction that a context waits in, or has waited in, finish (R72): FENCE and MLOAD, which are not among those
that abandon their wait. -/
def finishesAtPc (s : State) (c : Nat) : Bool :=
  let x := ctx s c
  let w := if expanding x then (bodyWord s c true x.mpos.toNat).getD 0 else readNat s (.glob (ptrH x.code) x.pc.toNat) 8
  (x.woken || (match x.wait with | some (.fence _ _ _) => true | some (.expansion _) => true | _ => false)) && (bitsOf w 58 6 == 0x12 || bitsOf w 58 6 == 41)

/-- A stop (R72): a wait is abandoned, with the bracket of a TREC.CLOSE that waits (R130). An END that has executed stands. -/
def stopCtx (c : Nat) (s : State) : State :=
  let x := ctx s c
  if x.state ≠ .running ∧ x.state ≠ .waiting then s
  else if finishesAtPc s c then updCtx s c (fun x => { x with run := false, state := .stopping })
  else updCtx s c (fun x => { x with
    run := false, state := .stopping, wait := none, woken := false, bracket := if x.wait = some .close then none else x.bracket })

/-- Drop the requests for tensors that launches and contexts accepted by a test have made. -/
def dropAsks (p : Ask → Bool) (s : State) : State :=
  { s with reissues := s.reissues.map (fun r => { r with asks := r.asks.filter (fun a => !p a.1) }) }

/-- End launches as a KILL does (R73): those not yet dispatched are cancelled, running tasks end, their tokens end FAULT, and pins are
released. -/
def endLaunches (ls : List Nat) (s : State) : State :=
  let s := dropShares (fun h => ls.contains h.launch) s
  let s := ls.foldl (fun s l => freeLaunch l (killLaunch l s)) s
  dropAsks (fun a => match a with | .launch l => ls.contains l | _ => false) s

/-- The launches of a context, those of sub-streams left out. -/
def ctxLaunches (s : State) (c : Nat) : List Nat := (s.launches.cells.filter (fun l => l.2.ctx == c && l.2.sub.isNone)).map (·.1)

/-- End a context's launches and forget what it asked for. -/
def clearCtx (c : Nat) (s : State) : State :=
  dropAsks (fun a => match a with | .ctx d => d == c | _ => false) (endLaunches (ctxLaunches s c) s)

/-- A KILL (R73). -/
def killCtx (c : Nat) (s : State) : State :=
  if canStart (ctx s c) then s
  else
    let s := clearCtx c s
    updCtx s c (fun x => { x with run := false, state := .stopping, killing := true, wait := none, woken := false, ending := false, bracket := none, fails := [] })

/-- A write of CTXCTL, of the bits of a mask. A KILL that comes with RUN acts, and RUN is passed over (DESIGN CHOICE, assumption 100). The registers
of a fenced die take no write (R37). -/
def writeCtxctl (c m v : Nat) (s : State) : State :=
  if 64 ≤ c ∨ isLost s (c / 8) then s
  else
    let s := updCtx s c (fun x => { x with
      part := if bitAt m 2 ∧ x.state = .idle then BitVec.ofNat 3 (bitsOf v 2 3) else x.part,
      prio := if bitAt m 5 then BitVec.ofNat 2 (bitsOf v 5 2) else x.prio,
      irqend := if bitAt m 7 then bitAt v 7 else x.irqend,
      vec := BitVec.ofNat 11 (if bitAt m 8 then withBits x.vec.toNat 0 8 (bitsOf v 8 8) else x.vec.toNat) })
    let s := updCtx s c (fun x => { x with vec := BitVec.ofNat 11 (if bitAt m 16 then withBits x.vec.toNat 8 3 (bitsOf v 16 3) else x.vec.toNat) })
    let x := ctx s c
    if bitAt m 1 && bitAt v 1 && !canStart x then killCtx c s
    else if !bitAt m 0 then s
    else if bitAt v 0 then (if canStart x then startCtx c s else s)
    else stopCtx c s

/-- CTXCTL_RUN: a write of CTXCTL whose RUN is read as 1 and KILL as 0. -/
def execCtxctlRun (c : Nat) (v : BitVec 64) (s : State) : Host.Outcome State Fault Refusal :=
  .next (writeCtxctl c fullMask (withBits v.toNat 0 2 1) s)
/-- CTXCTL_STOP: with RUN 0 and KILL 0. -/
def execCtxctlStop (c : Nat) (v : BitVec 64) (s : State) : Host.Outcome State Fault Refusal :=
  .next (writeCtxctl c fullMask (withBits v.toNat 0 2 0) s)
/-- CTXCTL_KILL: with KILL 1. -/
def execCtxctlKill (c : Nat) (v : BitVec 64) (s : State) : Host.Outcome State Fault Refusal :=
  .next (writeCtxctl c fullMask (withBits v.toNat 1 1 1) s)

/-- Whether a context has launches that have not completed. -/
def hasLaunches (s : State) (c : Nat) : Bool := s.launches.cells.any (fun l => l.2.ctx == c && l.2.sub.isNone)

/-- CONTEXT_STOP_COMPLETE (R72): a stopping context whose launches have completed, and which is in no instruction any more, is IDLE. After
an END it becomes ENDED instead. -/
def stopDone (c : Nat) (s : State) : State :=
  let x := ctx s c
  if x.state ≠ .stopping ∨ x.killing ∨ x.ending ∨ x.wait.isSome ∨ x.woken ∨ hasLaunches s c ∨ x.stores ≠ [] then s
  else updCtx s c (fun x => { x with state := .idle, mret := false })

/-- CONTEXT_STOP_COMPLETE. -/
def execContextStopComplete (c : Nat) (s : State) : Host.Outcome State Fault Refusal := .next (if ctxExists c then stopDone c s else s)

/-- CONTEXT_KILL_COMPLETE. -/
def execContextKillComplete (c : Nat) (s : State) : Host.Outcome State Fault Refusal :=
  .next (if ctxExists c ∧ (ctx s c).killing then updCtx s c (fun x => { x with state := .idle, killing := false, mret := false }) else s)

/-- CONTEXT_END_COMPLETE (R100, R72): after END, every launch has completed and every failure has been delivered. -/
def endDone (c : Nat) (s : State) : State :=
  let x := ctx s c
  if !x.ending ∨ hasLaunches s c ∨ x.fails ≠ [] then s
  else
    let s := updCtx s c (fun x => { x with ending := false, run := false, state := .ended })
    if x.irqend then sendVec x.part.toNat x.vec.toNat s else s

/-- CONTEXT_END_COMPLETE. -/
def execContextEndComplete (c : Nat) (s : State) : Host.Outcome State Fault Refusal := .next (if ctxExists c then endDone c s else s)

/-- A write of MACSTAT (R137): a 0 written to INMAC of a context that is not active abandons its expansion. -/
def writeMacstat (c m v : Nat) (s : State) : State :=
  if 64 ≤ c ∨ isLost s (c / 8) ∨ !bitAt m 0 ∨ bitAt v 0 ∨ !canStart (ctx s c) then s
  else updCtx s c (fun x => { x with inmac := false, mret := false, mpos := 0, mparams := [] })

/-- MACSTAT_CLEAR. -/
def execMacstatClear (c : Nat) (v : BitVec 64) (s : State) : Host.Outcome State Fault Refusal := .next (writeMacstat c fullMask v.toNat s)

/-! ### Interrupt masks (R76) -/

/-- An entry is unmasked; a pending message is sent. -/
def unmask (e : Nat) (s : State) : State :=
  let s := { s with mod := { s.mod with msix := s.mod.msix.upd msixReset e (fun x => BitVec.ofNat 128 (withBits x.toNat 96 1 0)) } }
  if s.mod.pending.get false e then sendMsix e { s with mod := { s.mod with pending := s.mod.pending.set false e false } } else s

/-- MSIX_UNMASK. -/
def execMsixUnmask (e : Nat) (s : State) : Host.Outcome State Fault Refusal := .next (if e < 2048 then unmask e s else s)

/-! ### Functions (R25, R61, R73) -/

/-- PCIE_CONFIG_REQUEST (R25, R79): answered once boot step 7 has ended, and not at all in M3, in recovery or without power. One
that writes the SR-IOV capability sets VF Enable and NumVFs. -/
def configRequest (w : Option (Bool × BitVec 3)) (s : State) : State :=
  let p := s.mod.power
  if p.state = .m3 ∨ p.boot = .off ∨ p.boot = .recovery then answerHost .silent s
  else if p.boot = .training ∨ p.boot = .failed then answerHost .retry s
  else if p.boot = .held then answerHost (if p.pwrgd then .retry else .silent) s
  else
    let s := match w with | some (en, n) => { s with mod := { s.mod with vfen := en, numvfs := n } } | none => s
    answerHost .ok s

/-- PCIE_CONFIG_REQUEST. -/
def execPcieConfigRequest (w : Option (Bool × BitVec 3)) (s : State) : Host.Outcome State Fault Refusal := .next (configRequest w s)

/-- A function level reset of one partition (R73). -/
def resetPart (p : Nat) (s : State) : State :=
  let s := ((List.range 64).filter (fun c => (ctx s c).part.toNat == p)).foldl (fun s c => killCtx c s) s
  { s with mod := { s.mod with apslots := s.mod.apslots.keep (fun k _ => k / 8 != p) } }

/-- FUNCTION_LEVEL_RESET: of a VF, its partition; of the PF, every partition. -/
def execFunctionLevelReset (fn : Nat) (s : State) : Host.Outcome State Fault Refusal :=
  .next (if fn = 0 then (List.range 8).foldl (fun s p => resetPart p s) s else if fn < 8 then resetPart fn s else s)

end Sys2Proof.Machine
end

