-- ==== Sys2Proof/Machine/Sha.lean ====
section
/-!
DEFINITION. Sys2Proof/Machine/Sha.lean: SHA-384, with which images are checked (R78) and the measurement registers extended (R80), as FIPS
180-4 defines it. A word of the hash is a number below 2^64 of a list; tables stand as one long numeral each, the first word at the top.
-/

namespace Sys2Proof.Machine

/-- Round constants 0 to 19. -/
def shaKeys0 : Nat :=
  0x428a2f98d728ae227137449123ef65cdb5c0fbcfec4d3b2fe9b5dba58189dbbc3956c25bf348b53859f111f1b605d019923f82a4af194f9bab1c5ed5da6d8118d807aa98a303024212835b0145706fbe243185be4ee4b28c550c7dc3d5ffb4e272be5d74f27b896f80deb1fe3b1696b19bdc06a725c71235c19bf174cf692694e49b69c19ef14ad2efbe4786384f25e30fc19dc68b8cd5b5240ca1cc77ac9c65
/-- Round constants 20 to 39. -/
def shaKeys1 : Nat :=
  0x2de92c6f592b02754a7484aa6ea6e4835cb0a9dcbd41fbd476f988da831153b5983e5152ee66dfaba831c66d2db43210b00327c898fb213fbf597fc7beef0ee4c6e00bf33da88fc2d5a79147930aa72506ca6351e003826f142929670a0e6e7027b70a8546d22ffc2e1b21385c26c9264d2c6dfc5ac42aed53380d139d95b3df650a73548baf63de766a0abb3c77b2a881c2c92e47edaee692722c851482353b
/-- Round constants 40 to 59. -/
def shaKeys2 : Nat :=
  0xa2bfe8a14cf10364a81a664bbc423001c24b8b70d0f89791c76c51a30654be30d192e819d6ef5218d69906245565a910f40e35855771202a106aa07032bbd1b819a4c116b8d2d0c81e376c085141ab532748774cdf8eeb9934b0bcb5e19b48a8391c0cb3c5c95a634ed8aa4ae3418acb5b9cca4f7763e373682e6ff3d6b2b8a3748f82ee5defb2fc78a5636f43172f6084c87814a1f0ab728cc702081a6439ec
/-- Round constants 60 to 79. -/
def shaKeys3 : Nat :=
  0x90befffa23631e28a4506cebde82bde9bef9a3f7b2c67915c67178f2e372532bca273eceea26619cd186b8c721c0c207eada7dd6cde0eb1ef57d4f7fee6ed17806f067aa72176fba0a637dc5a2c898a6113f9804bef90dae1b710b35131c471b28db77f523047d8432caab7b40c724933c9ebe0a15c9bebc431d67c49c100d4c4cc5d4becb3e42b6597f299cfc657e2a5fcb6fab3ad6faec6c44198c4a475817
/-- The words of a numeral of `n` words. -/
def shaWords (n bits : Nat) : List Word := (List.range n).map (fun i => BitVec.ofNat 64 (bits >>> (64 * (n - 1 - i))))

/-- The round constants: the first 64 bits of the fractional parts of the cube roots of the first eighty primes. -/
def shaKeys : List Word := [shaKeys0, shaKeys1, shaKeys2, shaKeys3].flatMap (shaWords 20)

/-- The initial values: of the square roots of the ninth to the sixteenth primes. -/
def shaStart : List Word :=
  shaWords 8 0xcbbb9d5dc1059ed8629a292a367cd5079159015a3070dd17152fecd8f70e593967332667ffc00b318eb44a8768581511db0c2e0d64f98fa747b5481dbefa4fa4

/-- The exclusive or of a word's rotations to the right, and of its shift where the function has one. -/
def shaMix (turns : List Nat) (shift : Option Nat) (x : Word) : Word :=
  turns.foldl (fun y n => y ^^^ x.rotateRight n) (match shift with | some n => x >>> n | none => 0)

/-- One round over the eight working variables, with the constant and the schedule word. -/
def shaRound : List Word → Word × Word → List Word
  | [a, b, c, d, e, f, g, h], k =>
    let pick := g ^^^ (e &&& (f ^^^ g))
    let most := (a &&& (b ||| c)) ||| (b &&& c)
    let t := shaMix [14, 18, 41] none e + pick + (h + k.1 + k.2)
    [t + most + shaMix [28, 34, 39] none a, a, b, c, t + d, e, f, g]
  | l, _ => l

/-- Lengthen the message schedule, the latest word first. -/
def shaExtend : Nat → List Word → List Word
  | 0, l => l
  | n + 1, l =>
    let at_ := fun i => nthD l (i - 1) 0
    shaExtend n ((at_ 16 + at_ 7 + shaMix [1, 8] (some 7) (at_ 15) + shaMix [19, 61] (some 6) (at_ 2)) :: l)

/-- One block of 128 bytes, its words with the most significant byte first. -/
def shaBlock (r : List Word) (b : List Byte) : List Word :=
  let words := (List.range 16).map (fun i => BitVec.ofNat 64 (leNat ((b.drop (8 * i)).take 8).reverse))
  let out := (shaKeys.zip (shaExtend 64 words.reverse).reverse).foldl shaRound r
  (r.zip out).map (fun p => p.1 + p.2)

/-- A message with its padding and length. -/
def shaPad (m : List Byte) : List Byte :=
  m ++ [0x80] ++ List.replicate ((239 - m.length % 128) % 128) 0 ++ (leBytes (8 * m.length) 16).reverse

/-- SHA-384 of a message, as 48 bytes. -/
def sha384 (m : List Byte) : List Byte :=
  let p := shaPad m
  let r := (List.range (p.length / 128)).foldl (fun r i => shaBlock r ((p.drop (128 * i)).take 128)) shaStart
  (r.take 6).flatMap (fun w => (leBytes w.toNat 8).reverse)

/-- An extend of a measurement register with a value (R80): byte j of each is byte j of its 48 bytes. -/
def measExtendWith (old m : BitVec 384) : BitVec 384 :=
  BitVec.ofNat 384 (leNat (sha384 (leBytes old.toNat 48 ++ leBytes m.toNat 48)))

end Sys2Proof.Machine
end

