-- ==== Sys2Proof/Machine/Power.lean ====
section
/-!
DEFINITION. Sys2Proof/Machine/Power.lean: power, clocks and heat (R17-R25), the gated ways of the LLC (R29, R30), resets (R32, R33),
and the boot (R77-R80).
-/

namespace Sys2Proof.Machine

/-- Change the power registers. -/
def updPower (f : Power → Power) (s : State) : State := { s with mod := { s.mod with power := f s.mod.power } }
/-- Change Escutcheon's state. -/
def updTrust (f : Trust → Trust) (s : State) : State := { s with mod := { s.mod with trust := f s.mod.trust } }
/-- Whether the module has started. -/
def isUp (s : State) : Bool := s.mod.power.boot == .up

/-- Whether the dies' clocks run. -/
def clocksRun (s : State) : Bool := isUp s && (s.mod.power.state == .m0 || s.mod.power.state == .m1)

/-! ### Boot (R77-R80) -/

/-- Whether both signatures of a message verify under Genrek's keys (R78): those Genrek made do; of any other it is open. -/
def genrekSigned (m : List Byte) (ecdsa : BitVec 768) (hss : List Byte) : Bool :=
  (ecdsa == Config.genrekEcdsa m || Config.otherEcdsa m ecdsa) && (hss == Config.genrekHss m || Config.otherHss m hss)

/-- Whether an image passes the five checks of R78 for a type. -/
def accepted (t : Trust) (typ : Nat) (i : FwImage) : Bool :=
  i.magic == 0x4B584946 && i.typ.toNat == typ && decide (t.svnMin.get 0 typ ≤ i.svn.toNat) && leNat (sha384 i.body) == i.digest.toNat &&
    genrekSigned (imageHead i) i.ecdsa i.hss

/-- An image was not accepted: alarm class A (R83, R84). From the seventeenth on no image is verified until the next reset. -/
def imageAlarm (t : Trust) : Trust :=
  { t with classA := true, acount := BitVec.ofNat 5 (Nat.min 31 (t.acount.toNat + 1)), blocked := decide (17 ≤ t.acount.toNat + 1) }

/-- Verify an image of a type. -/
def verifyImage (typ : Nat) (o : Option FwImage) (t : Trust) : Trust × Bool :=
  if t.blocked then (t, false)
  else match o with
  | some i => if accepted t typ i then (t, true) else (imageAlarm t, false)
  | none => (imageAlarm t, false)

/-- An accepted image is measured and runs (R79, R80). -/
def takeImage (i : Nat) (o : Option FwImage) (t : Trust) : Trust :=
  match o with
  | some m => { t with booted := setAt t.booted i (some m), meas := t.meas.upd 0 i (fun x => measExtendWith x m.digest) }
  | none => t

/-- One of the first six steps of the boot: copy A, then copy B. The flag says whether the boot goes on. -/
def bootStep (r : Trust × Bool) (i : Nat) : Trust × Bool :=
  if !r.2 then r
  else
    let c := nthD r.1.flash i (none, none)
    let a := verifyImage (i + 1) c.1 r.1
    if a.2 then (takeImage i c.1 a.1, true)
    else
      let b := verifyImage (i + 1) c.2 a.1
      if b.2 then (takeImage i c.2 b.1, true) else (b.1, false)

/-- The fused minimums rise to what was booted (R79). -/
def raiseSvn (t : Trust) : Trust :=
  { t with svnMin := (List.range 6).foldl (fun m i => match nthD t.booted i none with
      | some x => m.upd 0 (i + 1) (fun k => Nat.max k x.svn.toNat)
      | none => m) t.svnMin }

/-- Escutcheon's state where the boot begins: nothing has run and no session is open. -/
def bootBegins (t : Trust) : Trust :=
  { t with booted := List.replicate 6 none, blocked := false, doe := .zero, mctp := .zero, sessions := [], failUs := [] }

/-- What is left once the dies have lost their state: the host's own memory, Escutcheon, and what is given of the module; the turns
and counters of the model go on. -/
def bareState (m : Module) (t : Trust) (s : State) : State :=
  { State.reset with
    agenda := s.agenda, curCore := s.curCore, curCtx := s.curCtx, free := s.free, nextId := s.nextId,
    mem := { cells := s.mem.cells.filter (fun c => decide (hostKey 0 ≤ c.1) && decide (c.1 < hostKey (2 ^ 60))) },
    mod := { m with trust := t, sent := s.mod.sent, answer := s.mod.answer } }

/-- The boot up to its step 6 (R79, R32): step 7 is under way, or the boot has ended in recovery mode. A class C alarm since the last
power-on keeps all dies in reset (R83). -/
def bootWith (m : Module) (t : Trust) (s : State) : State :=
  let p := m.power
  if t.holdC then bareState { m with power := { p with boot := .held, pwrgd := false, alert := true } } t s
  else
    let r := (List.range 6).foldl bootStep (bootBegins t, true)
    bareState { m with power := { p with state := .m1, boot := if r.2 then .training else .recovery, pwrgd := false, alert := t.classB } } r.1 s

/-- Step 7 ends (R79, R32): the module enters M1 and PWRGD rises; or the training has failed, and the module stays in reset with ALERT_N
asserted. -/
def bootEnds (ok : Bool) (s : State) : State :=
  if s.mod.power.boot ≠ .training then s
  else if ok then updTrust raiseSvn (updPower (fun p => { p with boot := .up, pwrgd := true }) s)
  else updPower (fun p => { p with boot := .failed, alert := true }) s

/-- What a module reset leaves of Escutcheon's registers (R33, R80, R84, R85): flash and fuses, and the fields that only power-on
clears. -/
def resetTrust (t : Trust) : Trust :=
  { t with meas := .empty, measData := 0, measIdx := 0, measRef := false, classA := false, unlocked := false, challenge := none, reply := .none }

/-- MODULE_RESET (R33). -/
def resetModule (s : State) : State :=
  if s.mod.power.boot = .off then s else bootWith { Module.reset with trust := s.mod.trust } (resetTrust s.mod.trust) s

/-- MODULE_RESET. -/
def execModuleReset (s : State) : Host.Outcome State Fault Refusal := .next (resetModule s)
/-- HOST_PERST (R32): a host PERST_N is a module reset. -/
def execHostPerst (s : State) : Host.Outcome State Fault Refusal := .next (resetModule s)
/-- STORAGE_PERST (R32, R33): it resets the storage port only, which holds no register; reads under way there stay outstanding
(DESIGN CHOICE, assumption 96). -/
def execStoragePerst (s : State) : Host.Outcome State Fault Refusal := .next s

/-- POWER_ON (R32, R80, R84, R85): 48 V comes to a module without power. -/
def powerOn (s : State) : State :=
  if s.mod.power.boot ≠ .off then s
  else bootWith Module.reset { resetTrust s.mod.trust with classB := false, acount := 0, locked := false, holdC := false } s

/-- POWER_ON. -/
def execPowerOn (s : State) : Host.Outcome State Fault Refusal := .next (powerOn s)

/-- All dies are held in reset, and what they held is lost (R17, R21, R83). -/
def holdDies (b : BootState) (pwrgd : Bool) (s : State) : State :=
  let p := s.mod.power
  bareState { Module.reset with power := { p with state := .m1, req := 0, boot := b, pwrgd := pwrgd, exiting := false, held := [] } } s.mod.trust s

/-- POWER_LOSS (R17). -/
def execPowerLoss (s : State) : Host.Outcome State Fault Refusal := .next (if s.mod.power.boot = .off then s else holdDies .off false s)

/-- FLASH_IMAGE_UPDATE (R79): in recovery mode a new image is verified and then written. -/
def updateFlash (copyB : Bool) (i : FwImage) (s : State) : State :=
  if s.mod.power.boot ≠ .recovery then s
  else
    let typ := i.typ.toNat
    let r := verifyImage typ (some i) s.mod.trust
    let ok := r.2 && decide (1 ≤ typ) && decide (typ ≤ 6)
    let c := nthD r.1.flash (typ - 1) (none, none)
    updTrust (fun _ => if ok then { r.1 with flash := setAt r.1.flash (typ - 1) (if copyB then (c.1, some i) else (some i, c.2)) } else r.1) s

/-- FLASH_IMAGE_UPDATE. -/
def execFlashImageUpdate (copyB : Bool) (img : FwImage) (s : State) : Host.Outcome State Fault Refusal := .next (updateFlash copyB img s)

/-! ### The power cap (R19, R64) -/

/-- The cap in force, in watts. -/
def capWatts (p : Power) : Nat := if p.cap = 0 ∨ 2800 < p.cap.toNat then 2800 else p.cap.toNat
/-- The core clock one step down, and one step up. -/
def stepDown (f : BitVec 12) : BitVec 12 := BitVec.ofNat 12 (Nat.max 900 (f.toNat - 100))
def stepUp (f : BitVec 12) : BitVec 12 := BitVec.ofNat 12 (Nat.min 1800 (f.toNat + 100))

/-- POWER_CAP_STEP_DOWN: power is above the cap. -/
def execPowerCapStepDown (watts : Nat) (s : State) : Host.Outcome State Fault Refusal :=
  .next (updPower (fun p => if p.boot = .up ∧ capWatts p < watts then { p with mhz := stepDown p.mhz, capped := true } else p) s)

/-- POWER_CAP_STEP_UP: power has stayed at least 5 % below the cap, and the thermal rule holds nothing down. -/
def execPowerCapStepUp (watts : Nat) (s : State) : Host.Outcome State Fault Refusal :=
  .next (updPower (fun p =>
    if p.boot = .up ∧ 100 * watts ≤ 95 * capWatts p ∧ p.hot = false then { p with mhz := stepUp p.mhz, capped := p.capped && stepUp p.mhz != 1800 } else p) s)

/-! ### Heat (R21, R64) -/

/-- A temperature in the sensors' units of 1/16 °C. -/
def celsius (n : Nat) : Int := 16 * n
/-- The hottest reading of all sensors. -/
def hottest (p : Power) : Int :=
  ((List.range 10).flatMap (fun d => (List.range 4).map (fun i => signed 16 (fieldW (p.therm.get 0 d) (16 * i) 16)))).foldl max (-32768)

/-- A die's sensors are read. Below 100 °C the thermal rule is over; below 110 °C the alarm is. -/
def readSensors (die : Nat) (v : Word) (p : Power) : Power :=
  let p := { p with therm := p.therm.set 0 die v }
  if hottest p < celsius 100 then { p with hot := false, talarm := false, thermN := false }
  else if hottest p < celsius 110 then { p with talarm := false, thermN := false } else p

/-- A reading of a die, and what follows from it. -/
def onHeat (die : Nat) (v : Word) (f : State → State) (s : State) : State :=
  if 10 ≤ die ∨ !isUp s then s else f (updPower (readSensors die v) s)

/-- THERMAL_STEP_DOWN. -/
def execThermalStepDown (die : Nat) (v : BitVec 64) (s : State) : Host.Outcome State Fault Refusal :=
  .next (onHeat die v (updPower (fun p =>
    if celsius 100 ≤ hottest p ∧ hottest p < celsius 110 then { p with mhz := stepDown p.mhz, hot := true } else p)) s)

/-- THERMAL_ALARM: the alarm is raised to the host, and the clock held at 0.9 GHz. -/
def thermalAlarm (s : State) : State :=
  if hottest s.mod.power < celsius 110 then s
  else
    let s1 := updPower (fun p => { p with mhz := 900, hot := true, talarm := true, thermN := true }) s
    if s.mod.power.talarm then s1 else sendMsix (Config.alarmVector 1 % 64) s1

/-- THERMAL_ALARM. -/
def execThermalAlarm (die : Nat) (v : BitVec 64) (s : State) : Host.Outcome State Fault Refusal := .next (onHeat die v thermalAlarm s)

/-- THERMAL_TRIP. -/
def execThermalTrip (die : Nat) (v : BitVec 64) (s : State) : Host.Outcome State Fault Refusal :=
  .next (onHeat die v (fun s => if celsius 115 ≤ hottest s.mod.power then holdDies .held false (updPower (fun p => { p with thermN := true }) s) else s) s)

/-! ### Power states (R22, R23, R64) -/

/-- Whether a core runs a task. -/
def anyTask (s : State) : Bool := s.cores.cells.any (fun k => k.2.b.task.isSome)

/-- The conditions of R23: no context has RUN set, no task is live, saved ones included, and no token is PENDING. -/
def mayRetain (s : State) : Bool :=
  !s.ctxs.cells.any (fun x => decide (x.1 < 64) && x.2.run) && !anyTask s && !s.cores.cells.any (fun k => k.2.frames != [] || k.2.b.mxQ != [] || k.2.b.xfQ != [])

/-- What the management domain of I/O die 0 keeps in M3 (R22, R25): the registers of the module control block that no die holds,
retired clusters and lost dies among them, and Escutcheon. -/
def standbyModule (m : Module) : Module :=
  { Module.reset with
    power := { m.power with exiting := false, held := [] }, rsvhit := m.rsvhit, errinj := m.errinj, errvec := m.errvec, ngself := m.ngself, errlog := m.errlog, errnext := m.errnext, errovfl := m.errovfl,
    db := { Deadbolt.reset with lostdies := m.db.lostdies, adopters := m.db.adopters, retired := m.db.retired } }

/-- The state that M3 leaves, under a power register. -/
def standby (f : Power → Power) (s : State) : State :=
  let m := standbyModule s.mod
  { bareState { m with power := f m.power } s.mod.trust s with clk := s.clk, us := s.us, degraded := s.degraded }

/-- A request for a power state (R23). While the exit from M2 goes on a request for M2 or M3 is refused, so that no held access is lost
(R24; assumption 95). -/
def askPower (r : Nat) (i3c : Bool) (s : State) : State :=
  let p := s.mod.power
  if p.boot ≠ .up then s
  else if p.state = .m3 then
    (if r < 2 ∧ i3c then
      let m := standbyModule s.mod
      { bootWith { m with power := { m.power with req := BitVec.ofNat 2 r } } s.mod.trust s with us := s.us, degraded := s.degraded }
    else s)
  else if r < 2 then updPower (fun p => { p with req := BitVec.ofNat 2 r, exiting := p.exiting || p.state == .m2 }) s
  else if p.exiting || !mayRetain s then updPower (fun p => { p with req := 0, refused := true }) s
  else if r = 2 then updPower (fun p => { p with req := 2, state := .m2 }) s
  else standby (fun p => { p with req := 3, state := .m3, pwrgd := false }) s

/-- A write of MODPWR, of the bits of a mask. -/
def writeModpwr (i3c : Bool) (m v : Nat) (s : State) : State :=
  if s.mod.power.boot ≠ .up then s
  else
    let s := updPower (fun p =>
      let cap := Nat.lor (Nat.land (p.cap.toNat * 2 ^ 16) (fullMask - Nat.land m fullMask)) (Nat.land v m)
      { p with refused := p.refused && !(bitAt m 4 && bitAt v 4), cap := BitVec.ofNat 12 (bitsOf cap 16 12) }) s
    if bitAt m 0 then askPower (bitsOf v 0 2) i3c s else s

/-- MODPWR_REQ_AUTO: a write of MODPWR whose REQ is read as 0, or 1. -/
def execModpwrReqAuto (v : BitVec 64) (i3c : Bool) (s : State) : Host.Outcome State Fault Refusal :=
  .next (writeModpwr i3c fullMask (withBits v.toNat 1 1 0) s)
/-- MODPWR_REQ_M2: with REQ 2. -/
def execModpwrReqM2 (v : BitVec 64) (s : State) : Host.Outcome State Fault Refusal := .next (writeModpwr false fullMask (withBits v.toNat 0 2 2) s)
/-- MODPWR_REQ_M3: with REQ 3. -/
def execModpwrReqM3 (v : BitVec 64) (s : State) : Host.Outcome State Fault Refusal := .next (writeModpwr false fullMask (withBits v.toNat 0 2 3) s)

/-- M1_ENTRY (R22): the module moves by itself from M0 to M1 when no core runs a task. -/
def execM1Entry (s : State) : Host.Outcome State Fault Refusal :=
  .next (if isUp s ∧ s.mod.power.state = .m0 ∧ !anyTask s then updPower (fun p => { p with state := .m1 }) s else s)
/-- M1_EXIT (R22). -/
def execM1Exit (s : State) : Host.Outcome State Fault Refusal :=
  .next (if isUp s ∧ s.mod.power.state = .m1 then updPower (fun p => { p with state := .m0 }) s else s)

/-! ### LLCWAY (R29, R30) -/

/-- The ways that hold lines of LLC-pinned tensors of a die: open, where it has such tensors at all. -/
def pinnedWays (d : Nat) (s : State) : State × Nat :=
  if llcPinned s d = 0 then (s, 0) else ({ s with free := s.free + 1 }, (Config.freeValue s.free).toNat % 2 ^ 16)

/-- A write of LLCWAY, of the bits of a mask. -/
def writeLlcway (d m v : Nat) (s : State) : State :=
  if 8 ≤ d then s
  else
    let s := if bitAt m 17 ∧ bitAt v 17 then { s with mod := { s.mod with llcRef := s.mod.llcRef.set false d false } } else s
    let old := (s.mod.llc.get 0 d).toNat
    let new := bitsOf (Nat.lor (Nat.land old (fullMask - Nat.land m fullMask)) (Nat.land v m)) 0 16
    let w := pinnedWays d s
    let fresh := Nat.land new (2 ^ 16 - 1 - old)
    if new = 2 ^ 16 - 1 ∨ Nat.land fresh w.2 ≠ 0 then { w.1 with mod := { w.1.mod with llcRef := w.1.mod.llcRef.set false d true } }
    else
      let busy := BitVec.ofNat 16 (Nat.land (Nat.lor (s.mod.llcBusy.get 0 d).toNat fresh) new)
      { w.1 with mod := { w.1.mod with llc := w.1.mod.llc.set 0 d (BitVec.ofNat 16 new), llcBusy := w.1.mod.llcBusy.set 0 d busy } }

/-- LLCWAY_WRITE. -/
def execLlcwayWrite (die : Nat) (v : BitVec 32) (s : State) : Host.Outcome State Fault Refusal := .next (writeLlcway die fullMask v.toNat s)

/-- LLC_WAY_DRAINED: every newly gated way is empty. -/
def execLlcWayDrained (die : Nat) (s : State) : Host.Outcome State Fault Refusal :=
  .next (if die < 8 then { s with mod := { s.mod with llcBusy := s.mod.llcBusy.set 0 die 0 } } else s)

end Sys2Proof.Machine
end

