-- ==== Sys2Proof/Machine/Trust.lean ====
section
/-!
DEFINITION. Sys2Proof/Machine/Trust.lean: Escutcheon at work: measurement extends (R80), SPDM requests (R81, R82), alarms (R83, R84)
and debug unlock (R85).
-/

namespace Sys2Proof.Machine

/-! ### Alarms (R83) -/

/-- An alarm of class B or C: ALERT_N is asserted and PF vector 1 sent. -/
def raiseAlarm (s : State) : State := sendMsix 1 (updPower (fun p => { p with alert := true }) s)

/-- Alarm class B: debug is locked until the next power-on, and every SPDM session ends with its key. -/
def alarmB (s : State) : State :=
  raiseAlarm (updTrust (fun t => { t with classB := true, unlocked := false, locked := true, challenge := none, sessions := [], failUs := [] }) s)

/-- TAMPER_ALARM: class C. The identity keys are erased, the alarm fuse is blown, and all dies are held in reset until the next
power-on. -/
def tamper (s : State) : State :=
  if s.mod.power.boot = .off then s
  else holdDies .held s.mod.power.pwrgd (updTrust (fun t => { t with fused := true, keys := false, holdC := true, sessions := [] }) (raiseAlarm s))

/-- TAMPER_ALARM. -/
def execTamperAlarm (s : State) : Host.Outcome State Fault Refusal := .next (tamper s)

/-! ### Measurement extends (R80) -/

/-- A write of MEASEXT, of the bits of a mask. -/
def writeMeasext (m v : Nat) (s : State) : State :=
  let s := updTrust (fun t => { t with
    measIdx := if bitAt m 0 then BitVec.ofNat 3 v else t.measIdx, measRef := t.measRef && !(bitAt m 3 && bitAt v 3) }) s
  if bitAt m 4 && bitAt v 4 then
    updTrust (fun t =>
      if t.measIdx.toNat < 6 then { t with measRef := true }
      else { t with meas := t.meas.upd 0 t.measIdx.toNat (fun x => measExtendWith x t.measData) }) s
  else s

/-- MEAS_EXTEND: a write of MEASEXT with GO. -/
def execMeasExtend (v : BitVec 64) (s : State) : Host.Outcome State Fault Refusal := .next (writeMeasext fullMask (withBits v.toNat 4 1 1) s)

/-! ### SPDM (R81, R82) -/

/-- Whether Escutcheon's runtime runs and answers. -/
def escutcheonUp (s : State) : Bool := s.mod.power.boot != .off && (nthD s.mod.trust.booted 0 none).isSome

/-- Whether a transport reaches Escutcheon (R81, R25): data object exchange needs the host port out of reset. -/
def reachable (s : State) : Transport → Bool
  | .doe => escutcheonUp s && isUp s && s.mod.power.state != .m3
  | .mctp => escutcheonUp s

/-- The connection of a transport. -/
def conn (t : Trust) : Transport → Conn
  | .doe => t.doe
  | .mctp => t.mctp
/-- Change it. -/
def updConn (tr : Transport) (f : Conn → Conn) (s : State) : State :=
  updTrust (fun t => match tr with | .doe => { t with doe := f t.doe } | .mctp => { t with mctp := f t.mctp }) s

/-- The transport over which the requests come from now on (assumption 101). -/
def requestsVia (tr : Transport) (s : State) : State := updTrust (fun t => { t with via := tr }) s

/-- Answer a request. -/
def reply (r : SpdmReply) (s : State) : State := updTrust (fun t => { t with reply := r }) s

/-- An answer on a transport that reaches Escutcheon: a request that its connection does not allow gets an error (PRESUMED: the order of
SPDM 1.3). -/
def spdm (tr : Transport) (ok : Trust → Bool) (f : State → State) (s : State) : State :=
  if !reachable s tr then s else if ok s.mod.trust then f s else reply (.error false) s

/-- How many HSS signatures a key of two levels of height 15 gives (R77, R82). -/
def hssLeaves : Nat := 2 ^ 30

/-- Both signatures over a transcript, with the leaf `n` (R82): the alarmed identity's once FUSED is set (R84). -/
def signTranscript (t : Trust) (n : Nat) (m : List Byte) : Signed :=
  { alarmed := t.fused, identity := t.fused, ecdsa := Config.deviceEcdsa t.fused m, hss := Config.deviceHss t.fused n m }

/-- A signed response (R82): the leaf counter advances before the HSS signature is released; an exhausted counter gives the error
Unspecified and alarm class B. -/
def signedReply (f : Signed → SpdmReply) (g : State → State) (s : State) : State :=
  let t := s.mod.trust
  if hssLeaves ≤ t.hss then alarmB (reply (.error true) s)
  else g (reply (f (signTranscript t t.hss (Config.transcript s.free))) { updTrust (fun t => { t with hss := t.hss + 1 }) s with free := s.free + 1 })

/-- The certificates of the device's chain, or of the alarmed identity's (R82, R84): each carries both signatures. -/
def certificates (t : Trust) : List (List Byte × Signed) :=
  (Config.chain t.fused).map (fun b => (b, { alarmed := t.fused, identity := t.fused, ecdsa := Config.genrekEcdsa b, hss := Config.genrekHss b }))

/-- GET_VERSION: the connection begins anew. -/
def execGetVersion (s : State) : Host.Outcome State Fault Refusal :=
  let tr := s.mod.trust.via
  .next (spdm tr (fun _ => true) (fun s => reply .version (updConn tr (fun _ => { Conn.zero with version := true }) s)) s)

/-- GET_CAPABILITIES. -/
def execGetCapabilities (s : State) : Host.Outcome State Fault Refusal :=
  let tr := s.mod.trust.via
  .next (spdm tr (fun t => (conn t tr).version) (fun s => reply .capabilities (updConn tr (fun k => { k with caps := true }) s)) s)

/-- The only algorithms offered (R81). -/
def spdmAlgs : List SpdmAlg := [.ecdsaP384, .sha384, .ecdheP384, .aes256gcm]

/-- NEGOTIATE_ALGORITHMS: it settles on the only algorithms, where the requester offers them. -/
def execNegotiateAlgorithms (offered : List SpdmAlg) (s : State) : Host.Outcome State Fault Refusal :=
  let tr := s.mod.trust.via
  .next (spdm tr (fun t => (conn t tr).caps && spdmAlgs.all (fun a => offered.contains a))
    (fun s => reply (.algorithms spdmAlgs) (updConn tr (fun k => { k with algs := true }) s)) s)

/-- GET_DIGESTS: the SHA-384 digest of the certificate chain. -/
def execGetDigests (s : State) : Host.Outcome State Fault Refusal :=
  let tr := s.mod.trust.via
  .next (spdm tr (fun t => (conn t tr).algs) (fun s => reply (.digests (sha384 (Config.chain s.mod.trust.fused).flatten)) s) s)

/-- GET_CERTIFICATE: the chain, in slot 0. -/
def execGetCertificate (slot : Nat) (s : State) : Host.Outcome State Fault Refusal :=
  let tr := s.mod.trust.via
  .next (spdm tr (fun t => (conn t tr).algs && slot == 0) (fun s => reply (.certificate (certificates s.mod.trust)) s) s)

/-- A failed session establishment or CHALLENGE verification: eight within 60 s raise alarm class B (R83). -/
def spdmFailed (s : State) : State :=
  let l := s.us :: s.mod.trust.failUs.filter (fun u => decide (s.us ≤ u + 60000000))
  let s := updTrust (fun t => { t with failUs := l }) s
  if 8 ≤ l.length then alarmB s else s

/-- CHALLENGE: `verified` says whether the verification succeeded. -/
def execChallenge (nonce : BitVec 256) (verified : Bool) (s : State) : Host.Outcome State Fault Refusal :=
  let tr := s.mod.trust.via
  .next (spdm tr (fun t => (conn t tr).algs) (fun s => signedReply (.challenge nonce) (fun s => if verified then s else spdmFailed s) s) s)

/-- ALMSTAT (R84). -/
def almstat (t : Trust) : Word :=
  BitVec.ofNat 64 ((if t.classA then 1 else 0) + (if t.classB then 2 else 0) + (if t.fused then 4 else 0) + t.acount.toNat * 8)

/-- The measurement blocks (R81): MEAS0 to MEAS7 are blocks 1 to 8 and the alarm state is block 9. -/
def measBlock (t : Trust) (i : Nat) : Nat × Nat := (i, if i = 9 then (almstat t).toNat else (t.meas.get 0 (i - 1)).toNat)

/-- The blocks a request names: none for 0, which asks for their number, all for 0xFF. -/
def measBlocks (t : Trust) (index : Nat) : List (Nat × Nat) :=
  if index = 0 then [(0, 9)] else if index = 255 then (List.range 9).map (fun i => measBlock t (i + 1)) else [measBlock t index]

/-- GET_MEASUREMENTS. -/
def execGetMeasurements (index : Nat) (sign : Bool) (s : State) : Host.Outcome State Fault Refusal :=
  let tr := s.mod.trust.via
  .next (spdm tr (fun t => (conn t tr).algs && (decide (index ≤ 9) || index == 255)) (fun s =>
    let b := measBlocks s.mod.trust index
    if sign then signedReply (fun a => .measurements b (some a)) (fun s => s) s else reply (.measurements b none) s) s)

/-- The session of a transport with a number, waiting for FINISH or established. -/
def sessionOf (t : Trust) (tr : Transport) (sess : Nat) (wait : Bool) : Option Session :=
  t.sessions.find? (fun x => x.tr == tr && x.id == sess && x.wait == wait)

/-- Put a session in place of those of its transport and number, or end them. -/
def putSession (tr : Transport) (sess : Nat) (x : Option Session) (s : State) : State :=
  updTrust (fun t => { t with sessions := x.toList ++ t.sessions.filter (fun y => y.tr != tr || y.id != sess) }) s

/-- KEY_EXCHANGE: a session begins over ECDHE on P-384, with its key, and waits for its FINISH. -/
def execKeyExchange (sess : Nat) (_pub : BitVec 768) (established : Bool) (s : State) : Host.Outcome State Fault Refusal :=
  let tr := s.mod.trust.via
  .next (spdm tr (fun t => (conn t tr).algs) (fun s =>
    if !established then spdmFailed (reply (.error false) s)
    else signedReply (.keyExchange sess) (fun s => putSession tr sess (some { tr := tr, id := sess, key := Config.sessionKey s.free, wait := true }) { s with free := s.free + 1 }) s) s)

/-- FINISH: its code authenticates under the session's key. -/
def execFinish (sess : Nat) (mac : BitVec 384) (s : State) : Host.Outcome State Fault Refusal :=
  let tr := s.mod.trust.via
  .next (spdm tr (fun t => (sessionOf t tr sess true).isSome) (fun s =>
    match sessionOf s.mod.trust tr sess true with
    | some x =>
      if Config.macOk x.key mac then reply (.finish sess) (putSession tr sess (some { x with wait := false }) s)
      else spdmFailed (reply (.error false) (putSession tr sess none s))
    | none => s) s)

/-- END_SESSION. -/
def execEndSession (sess : Nat) (s : State) : Host.Outcome State Fault Refusal :=
  let tr := s.mod.trust.via
  .next (spdm tr (fun t => (sessionOf t tr sess false).isSome) (fun s => reply (.endSession sess) (putSession tr sess none s)) s)

/-- HEARTBEAT. -/
def execHeartbeat (sess : Nat) (s : State) : Host.Outcome State Fault Refusal :=
  let tr := s.mod.trust.via
  .next (spdm tr (fun t => (sessionOf t tr sess false).isSome) (reply (.heartbeat sess)) s)

/-! ### Debug (R85) -/

/-- Whether debug access is refused without a challenge (R85). -/
def debugRefused (s : State) : Bool := !escutcheonUp s || s.mod.trust.classB || s.mod.trust.fused || s.mod.trust.locked

/-- Escutcheon gives a debugger its challenge (assumption 101). -/
def giveChallenge (s : State) : State :=
  if debugRefused s then s
  else { updTrust (fun t => { t with challenge := some (Config.debugChallenge s.free) }) s with free := s.free + 1 }

/-- DEBUG_UNLOCK: the response to the challenge given, which it uses up. One that fails, or that answers no challenge, is alarm class B
(assumption 101). -/
def debugUnlock (ecdsa : BitVec 768) (hss : List Byte) (s : State) : State :=
  if debugRefused s then s
  else
    let t := s.mod.trust
    let s := updTrust (fun t => { t with challenge := none }) s
    match t.challenge with
    | some c => if genrekSigned (leBytes c.toNat 32) ecdsa hss then updTrust (fun t => { t with unlocked := true }) s else alarmB s
    | none => alarmB s

/-- DEBUG_UNLOCK. -/
def execDebugUnlock (ecdsa : BitVec 768) (hss : List (BitVec 8)) (s : State) : Host.Outcome State Fault Refusal := .next (debugUnlock ecdsa hss s)

end Sys2Proof.Machine
end

