-- ==== Sys2Proof/Machine/Snapshot.lean ====
section
/-!
DEFINITION. Sys2Proof/Machine/Snapshot.lean: snapshot triggers and the registers the blocks latch (R64, R86, R87).
-/

namespace Sys2Proof.Machine

/-- A die sequencer's Tumbler entry as two registers. -/
def tumblerRegs (s : State) (d i : Nat) : List Word :=
  let x := s.tumblers.get 0 (d * 256 + i)
  [x.setWidth 64, (x >>> 64).setWidth 64]

/-- The code CTXSTAT gives a state (R71). -/
def ctxStateCode : CtxState → Nat
  | .idle => 0 | .running => 1 | .waiting => 2 | .stopping => 3 | .ended => 4 | .faulted => 5

/-- CTXSTAT (R71). -/
def ctxstat (x : Ctx) : Word :=
  BitVec.ofNat 64 (ctxStateCode x.state + (if x.refused then 8 else 0) + x.fault.toNat * 16 + x.pc.toNat * 2 ^ 16)

/-- PAUSECNT (R282). -/
def pauseReg (b : Body) : Word := BitVec.ofNat 64 (b.pauseCnt.toNat + b.lastPause.toNat * 2 ^ 48)

/-- The snapshot registers of a block: R64 fixes a core's and a die sequencer's; the other blocks latch diagnostic state, which the spec leaves
open. -/
def snapRegs (s : State) (block : Nat) : List Word :=
  if block < 512 then
    let b := (coreAt s block).b
    [b.r.pc, BitVec.ofNat 64 (b.r.vcc % 2 ^ 48), pauseReg b, b.fltstat, b.fltpc, b.fltvcc.setWidth 64, b.fltaddr, b.numstat]
  else if block < 520 then
    let d := block - 512
    (List.range 256).flatMap (tumblerRegs s d) ++ (List.range 8).map (fun k => ctxstat (ctx s (8 * d + k)))
  else [Config.diagnostic block s.us]

/-- SNAPSHOT_TRIGGER_ARRIVAL (R86): a block latches its registers, with the package time. -/
def latchBlock (block : Nat) (s : State) : State :=
  let n := s.mod.snap
  if !n.todo.contains block then s
  else { s with mod := { s.mod with snap := { n with
    todo := n.todo.filter (fun b => b != block), latch := n.latch.set [] block (snapRegs s block), times := n.times.set 0 block s.us } } }

/-- SNAPSHOT_TRIGGER_ARRIVAL. -/
def execSnapshotTriggerArrival (block : Nat) (s : State) : Host.Outcome State Fault Refusal := .next (latchBlock block s)

/-- SNAPSHOT_FIRE (R86): a host trigger. -/
def execSnapshotFire (s : State) : Host.Outcome State Fault Refusal := .next (fireTrig 4 0 s)

/-- Release the held snapshot (R87): the next trigger latches afresh. -/
def rearm (s : State) : State := { s with mod := { s.mod with snap := { s.mod.snap with held := false } } }

/-- SNAPSHOT_REARM. -/
def execSnapshotRearm (s : State) : Host.Outcome State Fault Refusal := .next (rearm s)

end Sys2Proof.Machine
end

