-- ==== Sys2Proof/Machine/Deadbolt.lean ====
section
/-!
DEFINITION. Sys2Proof/Machine/Deadbolt.lean: the loss of a die (R37, R258-R260, R264) and its rebuild (R203, R263), and the module
rebuild (R266).
-/

namespace Sys2Proof.Machine

/-- Change the Deadbolt registers. -/
def updDb (f : Deadbolt → Deadbolt) (s : State) : State := { s with mod := { s.mod with db := f s.mod.db } }

/-- An error log entry of a die (R268) whose DETAIL the spec does not state. -/
def logDie (src d : Nat) (fence : Bool) (s : State) : State :=
  let x := freeNat s
  logErr (errEntry codeDieLost src (64 * d) 0 false fence false x.2 s.us) x.1

/-! ### The fence (R258-R260) -/

/-- Whether a context is touched by a lost die (R259): it is active, or still has launches, and runs on the die's sequencer or in a
partition that names a cluster of the die. -/
def touched (s : State) (d c : Nat) : Bool :=
  let x := ctx s c
  x.state != .idle && x.state != .ended &&
    (ctxDie c == d || (List.range 80).any (fun i => let m := mapEntry s x.part.toNat i; m.msb && m.toNat % 128 / 16 == d))

/-- A touched context: its launches and tasks end, and it is FAULTED with DIE_LOST, whatever its handler. -/
def loseCtx (c : Nat) (s : State) : State :=
  let s := clearCtx c s
  ctxFaulted c codeDieLost (updCtx (snapFault codeDieLost s) c (fun x => { x with fcode := codeDieLost, finfo := 0, fpc := x.pc, flen := 0, fails := [], killing := false, woken := false, mret := false }))

/-- A sub-stream on a lost die's sequencer ends with its launches; its re-issue begins anew at the adopter. -/
def loseSub (c : Nat) (s : State) : State :=
  match (ctx s c).sub with
  | none => s
  | some h =>
    let s := endLaunches ((s.launches.cells.filter (fun l => l.2.sub == some h)).map (·.1)) s
    updReissue h (fun r => { r with sub := none, failed := false }) { s with ctxs := s.ctxs.set .zero c .zero }

/-- The Hasp slice of a lost die stops: its moves are abandoned, and what its bounce buffer held is lost. -/
def loseHasp (d : Nat) (s : State) : State :=
  let s := (hasp s d).moves.foldl (fun s m =>
    let s := updRec (dropMove m.h s) m.h (fun r => { r with busy := false })
    if m.forced then hforceEnd d 6 s else s) s
  let s := ((hasp s d).bounce.map (fun b => b.h)).eraseDups.foldl (fun s h => discardBounced h codeDieLost s) s
  updHasp s d (fun x => { x with tried := [] })

/-- The lost dies whose tensors a die hosts. -/
def hosted (s : State) (d : Nat) : List Nat := (List.range 8).filter (fun e => isLost s e && hostDie s e == d && !dieGone s e)

/-- Whether a key of an L2 names a line of a die's cache or of its tensors. -/
def lineOf (d k : Nat) : Bool := k / 2 ^ 64 == d || hbmDie (k % 2 ^ 64 * 128) == some d

/-- Whether a dirty line is held for the rebuild of a die: a survivor's cache has it, and it is a survivable tensor's (R260). -/
def heldLine (s : State) (d k : Nat) : Bool := k / 2 ^ 64 != d && (trec s ((k % 2 ^ 64 * 128 - 2 ^ 63) / 2 ^ 40)).surv

/-- The protected pages of the survivors as they are at a fence, by slot: the bytes, and the sectors that are poisoned. What a survivor
writes later sends no delta (R264), so the stripes are rebuilt from these (R263; assumption 77). -/
def keptPages (s : State) (d : Nat) : Tab (List Byte × List Nat) :=
  { cells := (s.mod.db.slots.cells.filter (fun x => x.1 / 2 ^ 24 != d)).map (fun x =>
    (x.1, (pageBytes s x.2.1 x.2.2, (List.range 2048).filter (fun q => poisonAt s (byteKey s x.2.1 (65536 * x.2.2 + 32 * q)))))) }

/-- A cluster of a lost die is retired, and an entry of the error log records it (R254, R259). -/
def retireLost (d k : Nat) (s : State) : State :=
  let cl := 16 * d + k
  if isRetired s cl then s
  else
    let x := freeNat s
    logErr (errEntry codeDieLost 9 (clusterCore cl 0) 0 true false false x.2 s.us) (retireCluster cl x.1)

/-- DIE_FENCE: the die and its cache die are fenced. -/
def fenceDie (d : Nat) (s : State) : State :=
  if 8 ≤ d ∨ !isUp s ∨ isLost s d then s
  else
    let lost := (List.range 64).filter (touched s d)
    let s := updDb (fun b => { b with
      pendLoss := b.pendLoss ++ d :: hosted s d, lostdies := b.lostdies ||| (1#8 <<< d), adopters := b.adopters &&& ~~~ (1#8 <<< d),
      rebuilding := true, progress := 0, kept := if b.lostdies = 0 then keptPages s d else .empty }) s
    let s := logDie 9 d true { s with degraded := true, l2 := s.l2.keep (fun k _ => !lineOf d k), l2Dirty := s.l2Dirty.keep (fun k _ => !lineOf d k || heldLine s d k) }
    let s := lost.foldl (fun s c => loseCtx c s) s
    let s := (subCtxs d).foldl (fun s c => loseSub c s) s
    let s := (List.range (dieClusters d)).foldl (fun s k => retireLost d k s) s
    sendMsix 5 (loseHasp d s)

/-- DIE_FENCE. -/
def execDieFence (die : Nat) (s : State) : Host.Outcome State Fault Refusal := .next (fenceDie die s)

/-! ### The rebuild (R263, R203) -/

/-- Whether the package has lost one die only, so that stripes can be rebuilt (R264). -/
def oneLost (s : State) : Bool := popN s.mod.db.lostdies.toNat 8 == 1

/-- Whether a page survives the loss of its die: in a stripe that lacks no other member, or, after a second loss, in a module-level
stripe (R264, R265). -/
def pageSurvives (s : State) (h i : Nat) : Bool :=
  if oneLost s then (slotOf s.mod.db.slots h i).isSome
  else (trec s h).survm && bitAt s.mod.db.group.toNat 50 && (slotOf s.mod.db.mslots h i).isSome

/-- Whether a survivable tensor survives: SPILLED, its bytes are in the LPDDR6 share; resident, every page survives. -/
def bytesSurvive (s : State) (h : Nat) : Bool :=
  let r := trec s h
  if !r.surv ∨ (!oneLost s ∧ !r.survm) then false
  else if r.state = .spilled then true
  else isResident r && (List.range (pagesOf r.bytes)).all (pageSurvives s h)

/-- Whether a tensor is there after the rebuild, or can be recomputed (R203): the first number bounds the chain. -/
def outlives (s : State) : Nat → Nat → Bool
  | 0, _ => false
  | f + 1, h =>
    let r := trec s h
    if r.state = .free then false
    else if r.lost then false
    else if !dieGone s (handleDie h) ∧ r.state ≠ .dropped then true
    else if bytesSurvive s h then true
    else validRecipe s h && (inputsOf s h).all (fun i => outlives s f i.1)

/-- The pages that a rebuild of a data slot of a die reads, each with its poisoned sectors: the other dies' data pages, as they were at the
fence, and the parity page. -/
def stripePages (s : State) (d k : Nat) : List (List Byte × List Nat) :=
  (List.range 8).filterMap (fun e =>
    if e = d then none
    else if e = k % 8 then
      let p := parityKey e (k / 8) 0
      some (s.mem.bytes p 65536, (List.range 2048).filter (fun q => poisonAt s (p + 32 * q)))
    else findKey (e * 2 ^ 24 + k) s.mod.db.kept.cells)

/-- Write a rebuilt page: its bytes and its poisoned sectors. -/
def putPage (s : State) (h i : Nat) (bytes : List Byte) (bad : Nat → Bool) : State :=
  let k := byteKey s h (65536 * i)
  { s with mem := s.mem.setBytes k bytes, poison := (List.range 2048).foldl (fun t q => t.set false (k / 32 + q) (bad q)) s.poison }

/-- Rebuild a page from its stripe: the XOR of the others; a sector that meets poison is written poisoned. -/
def rebuildPage (d : Nat) (s : State) (h i : Nat) : State :=
  match slotOf s.mod.db.slots h i with
  | none => s
  | some slot =>
    let from_ := stripePages s d (slot % 2 ^ 24)
    putPage s h i (from_.foldl (fun b p => xorBytes b p.1) (List.replicate 65536 0)) (fun q => from_.any (fun p => p.2.contains q))

/-- A page of a module-level stripe comes back as its last write whose delta had applied at the holder: of the deltas still under way,
which had applied is left open (R265; assumption 77). -/
def rebuildFar (s : State) (h i : Nat) : State :=
  match slotOf s.mod.db.mslots h i with
  | none => s
  | some j =>
    s.packets.foldl (fun s p => match p.body with
      | .delta k off b =>
        if p.lane = 4 ∧ p.src = .die (handleDie h) ∧ k = j % 2 ^ 24 then
          let x := freeNat s
          let at_ := byteKey s h (65536 * i + off)
          if x.2 % 2 = 0 then x.1 else { x.1 with mem := x.1.mem.setBytes at_ (xorBytes (x.1.mem.bytes at_ b.length) b) }
        else s
      | _ => s) s

/-- Make room for pages on a die by eviction (R184): one victim after another, each action done at once. -/
def makeRoom (d need : Nat) : Nat → State → State
  | 0, s => s
  | f + 1, s =>
    if need ≤ freePages s d then s
    else
      let s := (candidates s (hostDie s d)).foldl (fun s h => refreshUse h s) s
      match victim s (candidates s (hostDie s d)) with
    | none => s
    | some h =>
      let s := updHasp s (handleDie h) (fun x => { x with tried := x.tried ++ [h] })
      makeRoom d need f (match actOrder s h with
        | .drop :: _ => dropTensor h s
        | .compress :: _ => endCompress h false s
        | .spill :: _ => endSpill h false s
        | [] => s)

/-- The dirty lines of a survivable tensor that the survivors held are written to the adopter, with parity (R260, R263). -/
def applyHeld (h : Nat) (before s : State) : State :=
  let mine := (s.l2Dirty.cells.filter (fun k => decide (globKey h 0 / 128 ≤ k.1 % 2 ^ 64) && decide (k.1 % 2 ^ 64 < globKey h 0 / 128 + 2 ^ 33))).map (fun k => k.1)
  let s := mine.foldl (fun s k =>
    let o := (k % 2 ^ 64 - globKey h 0 / 128) * 128
    storeGlob s h o (before.mem.bytes (byteKey before h o) 128) (allMask 128)) s
  { s with l2Dirty := s.l2Dirty.keep (fun k _ => !mine.contains k) }

/-- A tensor whose bytes are gone and which nothing can recompute (R203). -/
def loseTensor (h : Nat) (s : State) : State :=
  dropLines h (freeTensorPages (zeroTensor h (updRec s h (fun r => { r with state := .dropped, lost := true, busy := false }))) h)

/-- Restore a survivable tensor onto the adopter; into its share of LPDDR6 where HBM4E has no room, and where neither has room it is
LOST (R263). -/
def rebuildTensor (d : Nat) (before : State) (h : Nat) (s : State) : State :=
  let pages := pagesOf (trec s h).bytes
  let spilled := (trec s h).state = .spilled
  let have_ := (List.range pages).filter (fun i => s.pages.get false (pageKey s h i))
  let need := pages - have_.length
  let s := makeRoom (handleDie h) need s.recs.cells.length s
  let lacks := freePages s (handleDie h) < need
  if lacks ∧ !spilled ∧ freeSpill s (handleDie h) < pages then loseTensor h s
  else
    let s := if spilled then s else (List.range pages).foldl (fun s i => if oneLost s then rebuildPage d s h i else rebuildFar s h i) s
    let s := updDb (fun b => { b with progress := b.progress + BitVec.ofNat 46 pages }) s
    if lacks then applyHeld h before (placedAt h (updRec (freeTensorPages s h) h (fun r => { r with state := .spilled, busy := false })))
    else applyHeld h before (assignParity h (updRec (allocTensor h s) h (fun r => { r with state := .hbm, busy := false })))

/-- A tensor that is not survivable: DROPPED where it can be recomputed, else LOST (R203). -/
def dropLost (ok : Bool) (h : Nat) (s : State) : State :=
  if ok then dropTensor h (updRec s h (fun r => { r with busy := false }))
  else loseTensor h s

/-- Deal with one tensor of a lost die: those that were DROPPED stay so. -/
def dealTensor (d : Nat) (before : State) (s : State) (h : Nat) : State :=
  if (trec before h).state = .dropped then (if outlives before before.recs.cells.length h ∨ (trec before h).lost then s else markLost h s)
  else if bytesSurvive before h then rebuildTensor d before h s
  else dropLost (outlives before before.recs.cells.length h) h s

/-- The tensors of the lost dies whose rebuild has not ended. -/
def lostTensors (s : State) : List Nat := (s.recs.cells.filter (fun x => dieGone s (handleDie x.1) && x.2.state != .free)).map (·.1)

/-- The launches that waited for the rebuild ask anew for what they need (R259). -/
def askAgain (hs : List Nat) (s : State) : State :=
  s.launches.keys.foldl (fun s l =>
    let x := launchOf s l
    if x.state ≠ .waitRes then s
    else ((neededTensors x).filter (fun h => hs.contains h)).foldl (fun s h =>
      if isResident (trec s h) then s else requestResident h (.launch l) x.part x.cls s) s) s

/-- DIE_REBUILD: once every delta accepted before the fence has applied at its holder, the lost die's slice and tensors come to the
adopter. Each of the five steps is logged (R268). -/
def rebuildDie (d : Nat) (s : State) : State :=
  if 8 ≤ d ∨ !dieGone s d ∨ !isLost s d ∨ s.packets.any (fun p => p.lane == 3 && (match p.dst with | .die e => !isLost s e | _ => false)) then s
  else
    let hs := lostTensors s
    let before := s
    let s := (List.range 5).foldl (fun s _ => logDie 7 d false s) s
    let s := hs.foldl (fun s h => dealTensor d before s h) s
    let s := { s with packets := s.packets.filter (fun p => p.lane != 3) }
    let s := updDb (fun b => { b with pendLoss := [], kept := .empty, rebuilding := b.mrebuild, adopters := before.mod.db.pendLoss.foldl (fun m e => m ||| (1#8 <<< adopterOf before e)) b.adopters }) s
    askAgain hs s

/-- DIE_REBUILD. -/
def execDieRebuild (die : Nat) (s : State) : Host.Outcome State Fault Refusal := .next (rebuildDie die s)

/-! ### The module rebuild (R266) -/

/-- DBCTL_MREBUILD: a write of DBCTL with MREBUILD starts a module rebuild onto this module. -/
def writeDbctl (m v : Nat) (s : State) : State :=
  if !isUp s ∨ !(bitAt m 0 && bitAt v 0) ∨ !bitAt s.mod.db.group.toNat 50 then s
  else
    let x := freeNat s
    logErr (errEntry 0 7 0 0 false false false x.2 s.us) (updDb (fun b => { b with rebuilding := true, mrebuild := true, progress := 0 }) x.1)

/-- DBCTL_MREBUILD. -/
def execDbctlMrebuild (v : BitVec 64) (s : State) : Host.Outcome State Fault Refusal := .next (writeDbctl fullMask v.toNat s)

/-- A step of a module rebuild, as the error log records it (R268). -/
def logStep (d : Nat) (s : State) : State :=
  let x := freeNat s
  logErr (errEntry 0 7 (64 * d) 0 false false false x.2 s.us) x.1

/-- A die of the replacement rebuilds a record of its Hasp slice, with its recipe, as the other members give them (R266, R265): a SURVM
tensor was resident, and its pages follow; of any other the bytes are gone. -/
def rebuildRec (h : Nat) (r : TRec) (recipe : Option Recipe) (s : State) : State :=
  if !s.mod.db.mrebuild ∨ (trec s h).state ≠ .free then s
  else
    let ix := (recipe.bind (fun _ => (List.range (2 ^ 18)).find? (fun i => !s.recs.cells.any (fun x => handleDie x.1 == handleDie h && x.2.recix == some i))))
    let s := match recipe, ix with
      | some q, some i => { s with recipes := s.recipes.set .zero (recipeKey (handleDie h) i) q }
      | _, _ => s
    logStep (handleDie h) (updRec s h (fun _ => { r with
      state := if r.survm then .hbm else .dropped, busy := false, lost := false, pincnt := 0, recix := ix, rvalid := r.rvalid && ix.isSome }))

/-- A page of a SURVM tensor is rebuilt from the members' three other pages of its stripe: its bytes come over the links (R266). -/
def rebuildSlot (h i : Nat) (bytes : List Byte) (s : State) : State :=
  if !s.mod.db.mrebuild ∨ !(trec s h).survm ∨ pagesOf (trec s h).bytes ≤ i ∨ bytes.length ≠ 65536 then s
  else
    let s := { s with pages := s.pages.set false (pageKey s h i) true }
    updDb (fun b => { b with progress := b.progress + 1 }) (assignPage h i (putPage s h i bytes (fun _ => false)))

/-- The module rebuild ends (R266): a SURVM tensor of which pages did not come is LOST, and the tensors without SURVM are treated under R203
against their recipes. -/
def endMrebuild (s : State) : State :=
  if !s.mod.db.mrebuild then s
  else
    let whole := fun (h : Nat) => (List.range (pagesOf (trec s h).bytes)).all (fun i => s.pages.get false (pageKey s h i))
    let before := s
    let s := s.recs.cells.foldl (fun s x =>
      if x.2.state = .hbm ∧ x.2.survm ∧ !whole x.1 then loseTensor x.1 s
      else if x.2.state = .dropped ∧ !x.2.lost ∧ !outlives before before.recs.cells.length x.1 then markLost x.1 s
      else s) s
    logStep 0 (updDb (fun b => { b with mrebuild := false, rebuilding := b.pendLoss != [] }) s)

/-- An uncorrectable error of an I/O die stops the module (R258): all its dies are held until the next reset. -/
def ioDieError (s : State) : State := if isUp s then holdDies .failed false (logErr (errEntry codeDataUe 9 0 0 false false false 0 s.us) s) else s

end Sys2Proof.Machine
end

