-- ==== Sys2Proof/Machine/Registers.lean ====
section
/-!
DEFINITION. Sys2Proof/Machine/Registers.lean: the management window (R62-R65): what each offset reads, what a write of it does, the pages
of the virtual functions, and the accesses that find the module in M2 or M3 (R24, R25).
-/

namespace Sys2Proof.Machine

/-! ### The snapshot directory (R64) -/

/-- How many snapshot registers a block has (assumption 11). -/
def snapCount (block : Nat) : Nat := if block < 512 then 8 else if block < 520 then 520 else 1

/-- The blocks with the offset of their first register. -/
def snapPlaces : Nat → List Nat → List (Nat × Nat)
  | _, [] => []
  | o, b :: t => (b, o) :: snapPlaces (o + snapCount b) t

/-- The kind, die and instance of a block. -/
def snapKind (block : Nat) : Nat × Nat × Nat :=
  if block < 512 then (1, block / 64, block % 64)
  else if block < 520 then (2, block - 512, 0)
  else if block < 528 then (3, block - 520, 0)
  else if block < 560 then (8, 8 + (block - 528) / 16, block - 528)
  else if block = 560 then (10, 8, 0)
  else if block < 569 then (4, block - 561, 0)
  else if block < 577 then (5, block - 569, 0)
  else if block < 587 then (6, block - 577, 0)
  else if block < 603 then
    let d := ((List.range 8).find? (fun d => (stacksOf d).contains (block - 587))).getD 0
    (7, d, block - 587 - (stacksOf d).headD 0)
  else (9, 8, block - 603)

/-- An entry of SNAPDIR. -/
def snapdir (i : Nat) : Nat :=
  match (snapPlaces 0 snapBlocks)[i]? with
  | some (b, o) =>
    let k := snapKind b
    o + snapCount b * 2 ^ 20 + k.1 * 2 ^ 32 + k.2.1 * 2 ^ 40 + k.2.2 * 2 ^ 44 + 2 ^ 63
  | none => 0

/-- The latched register at an offset of the snapshot region. -/
def snapReg (s : State) (i : Nat) : Option Nat :=
  match (snapPlaces 0 snapBlocks).find? (fun x => decide (x.2 ≤ i) && decide (i < x.2 + snapCount x.1)) with
  | some (b, o) => some (nthD (s.mod.snap.latch.get [] b) (i - o) 0).toNat
  | none => none

/-! ### What the offsets read -/

/-- A half of a 128-bit register. -/
def half {n : Nat} (x : BitVec n) (i : Nat) : Nat := bitsOf x.toNat (64 * i) 64
/-- A number of bits from a flag. -/
def b1 (b : Bool) : Nat := if b then 1 else 0

/-- MODPWR (R64). -/
def modpwrImage (p : Power) : Nat :=
  p.req.toNat + (match p.state with | .m0 => 0 | .m1 => 1 | .m2 => 2 | .m3 => 3) * 4 + b1 p.refused * 16 + p.cap.toNat * 2 ^ 16
/-- CLKSTAT (R64). -/
def clkstatImage (p : Power) : Nat := p.mhz.toNat + b1 p.capped * 2 ^ 12 + b1 p.hot * 2 ^ 13 + b1 p.talarm * 2 ^ 14
/-- PARTCTL (R69). -/
def partctlImage (s : State) (p : Nat) : Nat := b1 (partExists s p) + (partOf s p).vecbase.toNat * 2 + (partOf s p).veccount.toNat * 2 ^ 12
/-- PARTSTAT (R69). -/
def partstatImage (x : Part) : Nat := b1 x.refused + x.reason.toNat * 2 + b1 x.aperr * 16
/-- PARTSCHED (R159). -/
def partschedImage (x : Part) : Nat := b1 x.halted + x.hcode.toNat * 4 + x.hcore.toNat * 2 ^ 10 + x.hstep.toNat * 2 ^ 32
/-- PREEMPT (R154): IDLE while no task of the partition runs or is being saved. -/
def preemptImage (s : State) (p : Nat) : Nat := b1 (s.softs.getLsbD p) + b1 ((leadsOf (fun _ t => t.part == p) s) == []) * 4
/-- HDCTL (R74). -/
def hdctlImage (x : Part) : Nat :=
  b1 x.hdop * 2 + x.hdowner.toNat * 4 + b1 x.hdreq.isSome * 2 ^ 8 + b1 x.hddone * 2 ^ 9 + b1 x.hdrefused * 2 ^ 10 + x.hdcode.toNat * 2 ^ 16
/-- CTXCTL (R71). -/
def ctxctlImage (x : Ctx) : Nat := b1 x.run + x.part.toNat * 4 + x.prio.toNat * 2 ^ 5 + b1 x.irqend * 2 ^ 7 + x.vec.toNat * 2 ^ 8
/-- MACSTAT (R137). -/
def macstatImage (x : Ctx) : Nat := b1 x.inmac + x.mindex.toNat * 2 + x.mpos.toNat * 2 ^ 9
/-- A route table entry (R59): its lower and upper half. -/
def routeHalf (r : Route) (i : Nat) : Nat :=
  if i = 0 then r.base.toNat + b1 r.port * 2 ^ 60 + b1 r.valid * 2 ^ 61 + b1 r.write * 2 ^ 62 else r.limit.toNat
/-- HBMCNT or LPCNT (R56). -/
def cntImage (b : MemBank) : Nat :=
  b.ce.toNat + b.ue.toNat * 2 ^ 16 + b.retry.toNat * 2 ^ 32 + Nat.min 255 b.half.length * 2 ^ 48 + b1 b.ovfl * 2 ^ 63
/-- SCRUBCFG or LPSCRUB (R55). -/
def scrubImage (b : MemBank) : Nat := b.period.toNat + b1 b.nowb * 64
/-- LLCWAY (R29). -/
def llcwayImage (s : State) (d : Nat) : Nat :=
  (s.mod.llc.get 0 d).toNat + b1 (s.mod.llcBusy.get 0 d != 0) * 2 ^ 16 + b1 (s.mod.llcRef.get false d) * 2 ^ 17
/-- SNAPCTL (R86), a half. -/
def snapctlHalf (n : Snap) (i : Nat) : Nat :=
  if i = 0 then b1 n.faulten + n.code.toNat * 2 + b1 n.vccen * 2 ^ 9 + n.core.toNat * 2 ^ 10 else n.match_.toNat
/-- SNAPSTAT (R86). -/
def snapstatImage (n : Snap) : Nat := b1 n.held + n.cause.toNat * 2 + n.fcode.toNat * 16 + n.lost.toNat * 2 ^ 12
/-- DBSTAT (R267). -/
def dbstatImage (s : State) : Nat :=
  let b := s.mod.db
  b1 s.degraded + b1 b.rebuilding * 2 + b.lostdies.toNat * 4 + b.adopters.toNat * 2 ^ 10 + b.progress.toNat * 2 ^ 18
/-- HFORCE (R463). -/
def hforceImage (x : Hasp) : Nat :=
  x.hfH.toNat + x.hfAct.toNat * 2 ^ 24 + b1 x.hfBusy * 2 ^ 27 + b1 x.hfDone * 2 ^ 28 + b1 x.hfRef * 2 ^ 29 + x.hfWhy.toNat * 2 ^ 32

/-- A Hasp register (R204, R463) by its offset. -/
def haspRead (x : Hasp) (o : Nat) : Option Nat :=
  if o = 0 then some x.spill.toNat
  else if o = 8 then some (x.compk.toNat + x.compr.toNat * 2 ^ 16 + x.rdef.toNat * 2 ^ 32)
  else if o = 0x10 then some x.recomp.toNat
  else if o = 0x18 then some x.dist.toNat
  else if o = 0x20 then some x.hdepth.toNat
  else if o = 0x28 then some (x.low.toNat + x.high.toNat * 2 ^ 16)
  else if o = 0x30 then some (b1 x.defmode + x.retry.toNat * 2)
  else if 0x40 ≤ o ∧ o < 0xC0 then some (half (x.rgns.get 0 ((o - 0x40) / 16)) (o / 8 % 2))
  else if o = 0xC0 then some x.hstat.toNat
  else if o = 0xC8 then some x.hrqsel.toNat
  else if 0x100 ≤ o ∧ o < 0x180 then some (half x.hrqdata ((o - 0x100) / 8))
  else if o = 0x180 then some (hforceImage x)
  else none

/-- The module control block (R63, R64, R267, R268). -/
def controlRead (s : State) (o : Nat) : Option Nat :=
  if o = 0 then some (modpwrImage s.mod.power)
  else if o = 8 then some (clkstatImage s.mod.power)
  else if o = 0x10 then some s.mod.rsvhit.toNat
  else if o = 0x18 then some s.mod.ngself.toNat
  else if o = 0x20 then some s.mod.errvec.toNat
  else if 0x100 ≤ o ∧ o < 0x150 then some (s.mod.power.therm.get 0 ((o - 0x100) / 8)).toNat
  else if 0x8000 ≤ o ∧ o < 0x9000 then haspRead (hasp s ((o - 0x8000) / 0x200)) (o % 0x200)
  else if 0x9000 ≤ o ∧ o < 0x9200 then some (ctx s ((o - 0x9000) / 8)).num.toNat
  else if o = 0xA000 then some (s.mod.db.dbslots.toNat + s.mod.db.dbmslots.toNat * 2 ^ 24)
  else if o = 0xA008 then some (dbstatImage s)
  else if o = 0xA010 then some 0
  else if o = 0xA100 ∨ o = 0xA108 then some (half s.mod.db.retired (o / 8 % 2))
  else if o = 0xBFF8 then some (s.mod.errnext.toNat + b1 s.mod.errovfl * 256)
  else if 0xC000 ≤ o ∧ o < 0xD000 then some (half (s.mod.errlog.get 0 ((o - 0xC000) / 16)) (o / 8 % 2))
  else none

/-- The block of a partition (R154). -/
def partRead (s : State) (p o : Nat) : Option Nat :=
  let x := partOf s p
  if o = 0 then some (partctlImage s p)
  else if o = 8 then some (partstatImage x)
  else if 0x40 ≤ o ∧ o < 0x90 then some (packElems 8 ((List.range 8).map (fun i => (mapEntry s p (o - 0x40 + i)).toNat)))
  else if 0x100 ≤ o ∧ o < 0x200 then some (routeHalf (s.routes.get .zero (p * 16 + (o - 0x100) / 16)) (o / 8 % 2))
  else if o = 0x200 then some (partschedImage x)
  else if o = 0x208 then some (preemptImage s p)
  else if 0x400 ≤ o ∧ o < 0x440 then some (fieldB x.hddesc (o - 0x400) 8)
  else if o = 0x440 then some (hdctlImage x)
  else if o = 0x448 then some x.hdres.toNat
  else if 0x1000 ≤ o then
    let k := p * 1024 + (o - 0x1000) / 4
    some ((s.shapes.get 0 k).toNat + (s.shapes.get 0 (k + 1)).toNat * 2 ^ 32)
  else none

/-- The block of a stream context (R71). -/
def ctxRead (x : Ctx) (o : Nat) : Option Nat :=
  if o = 0 then some (ctxctlImage x) else if o = 8 then some x.entry.toNat else if o = 0x10 then some (ctxstat x).toNat
  else if o = 0x18 then some (macstatImage x) else none

/-- Links, memory, caches and cores, snapshots and Escutcheon (R63). -/
def blockRead (s : State) (g : Nat) : Option Nat :=
  if 0x100000 ≤ g ∧ g < 0x100100 then some (ngportImage (port s ((g - 0x100000) / 8))).toNat
  else if g = 0x100100 then some s.mod.db.group.toNat
  else if 0x180000 ≤ g ∧ g < 0x200000 then
    let k := (g - 0x180000) / 4
    some ((s.mod.ngrt.get 0 k).toNat + (s.mod.ngrt.get 0 (k + 1)).toNat * 2 ^ 32)
  else if 0x200000 ≤ g ∧ g < 0x212000 then
    let b := memBank s ((g - 0x200000) / 0x1000)
    let o := g % 0x1000
    if o = 0 then some (cntImage b) else if o = 8 then some (scrubImage b)
    else if 0x400 ≤ o ∧ o < 0x800 then some (half (b.log.get 0 ((o - 0x400) / 16)) (o / 8 % 2)) else none
  else if 0x300000 ≤ g ∧ g < 0x300040 then some (llcwayImage s ((g - 0x300000) / 8))
  else if 0x301000 ≤ g ∧ g < 0x309000 then
    let c := (g - 0x301000) / 0x40
    let k := coreAt s c
    if !coreExists c then none
    else if g % 0x40 = 0 then some (k.gate.toNat + k.ready.toNat * 2 ^ 32) else if g % 0x40 = 8 then some k.spstat.toNat
    else if g % 0x40 = 0x10 then some k.coreerr.toNat else if g % 0x40 = 0x18 then some (s.mod.errinj.get 0 c).toNat else none
  else if g = 0x400000 ∨ g = 0x400008 then some (snapctlHalf s.mod.snap (g / 8 % 2))
  else if g = 0x400010 then some (snapstatImage s.mod.snap)
  else if 0x400100 ≤ g ∧ g < 0x402100 then some (snapdir ((g - 0x400100) / 8))
  else if 0x404000 ≤ g ∧ g < 0x800000 then snapReg s ((g - 0x404000) / 8)
  else if 0x800000 ≤ g ∧ g < 0x800200 then (if g % 0x40 < 0x30 then some (half (s.mod.trust.meas.get 0 ((g - 0x800000) / 0x40)) (g % 0x40 / 8)) else none)
  else if 0x800200 ≤ g ∧ g < 0x800230 then some (half s.mod.trust.measData ((g - 0x800200) / 8))
  else if g = 0x800240 then some (s.mod.trust.measIdx.toNat + b1 s.mod.trust.measRef * 8)
  else if g = 0x800248 then some (almstat s.mod.trust).toNat
  else if g = 0x800250 then some (b1 s.mod.trust.unlocked + b1 s.mod.trust.locked * 2)
  else none

/-- What eight bytes at an offset of function 0's window read, if the offset is listed. -/
def regRead (s : State) (g : Nat) : Option Nat :=
  if g < 0x10000 then controlRead s g
  else if g < 0x20000 then partRead s ((g - 0x10000) / 0x2000) (g % 0x2000)
  else if g < 0x30000 then ctxRead (ctx s ((g - 0x20000) / 0x400)) (g % 0x400)
  else if g < 0x30200 then some (slotReg s ((g - 0x30000) / 8)).toNat
  else if 0x40000 ≤ g ∧ g < 0x48000 then some (half (s.mod.msix.get msixReset ((g - 0x40000) / 16)) (g / 8 % 2))
  else if 0x48000 ≤ g ∧ g < 0x48100 then some (packElems 1 ((List.range 64).map (fun i => b1 (s.mod.pending.get false ((g - 0x48000) * 8 + i)))))
  else blockRead s g

/-! ### What a write does -/

/-- The bits of a write within a mask, and the old ones outside it. -/
def merge (old m v : Nat) : Nat := Nat.lor (Nat.land old (fullMask - Nat.land m fullMask)) (Nat.land (Nat.land v m) fullMask)

/-- A counter that a write of all ones clears (R56, R257). -/
def clearOnes (x m v lo : Nat) : Nat := if bitsOf (Nat.land m v) lo 16 = 65535 then 0 else bitsOf x lo 16

/-- A write of a Hasp register; those of a slice that waits for its rebuild take none. -/
def haspWrite (d o m v : Nat) (s : State) : State :=
  let x := hasp s d
  let w := merge ((haspRead x o).getD 0) m v
  let one := Nat.land m v
  if dieGone s d then s
  else if o = 0 then updHasp s d (fun x => { x with spill := BitVec.ofNat 16 w })
  else if o = 8 then updHasp s d (fun x => { x with compk := BitVec.ofNat 16 w, compr := BitVec.ofNat 16 (bitsOf w 16 16), rdef := BitVec.ofNat 8 (bitsOf w 32 8) })
  else if o = 0x10 then updHasp s d (fun x => { x with recomp := BitVec.ofNat 16 w })
  else if o = 0x18 then updHasp s d (fun x => { x with dist := BitVec.ofNat 24 w })
  else if o = 0x20 then updHasp s d (fun x => { x with hdepth := BitVec.ofNat 3 w })
  else if o = 0x28 then updHasp s d (fun x => { x with low := BitVec.ofNat 16 w, high := BitVec.ofNat 16 (bitsOf w 16 16) })
  else if o = 0x30 then updHasp s d (fun x => { x with defmode := bitAt w 0, retry := BitVec.ofNat 3 (bitsOf w 1 3) })
  else if 0x40 ≤ o ∧ o < 0xC0 then
    let i := (o - 0x40) / 16
    let old := (x.rgns.get 0 i).toNat
    let new := if o / 8 % 2 = 0 then withBits old 0 64 (w % 2 ^ 38) else withBits old 64 64 (w % 2 ^ 36)
    updHasp s d (fun x => { x with rgns := x.rgns.set 0 i (BitVec.ofNat 128 new) })
  else if o = 0xC0 then updHasp s d (fun x => { x with hstat := BitVec.ofNat 64 (Nat.land x.hstat.toNat (fullMask - one % 8)) })
  else if o = 0xC8 then latchRecord d (BitVec.ofNat 64 w) s
  else if o = 0x180 then
    let go := bitsOf one 26 1 * 2 ^ 26 + bitsOf one 28 2 * 2 ^ 28
    writeHforce d (actOf (bitsOf w 24 2)) (BitVec.ofNat 64 (w % 2 ^ 26 + go)) s
  else s

/-- A write in the module control block. -/
def controlWrite (i3c : Bool) (o m v : Nat) (s : State) : State :=
  let w := merge ((controlRead s o).getD 0) m v
  let one := Nat.land m v
  if o = 0 then writeModpwr i3c m v s
  else if o = 0x10 then
    (if one % 2 ^ 32 = 2 ^ 32 - 1 then { s with mod := { s.mod with rsvhit := BitVec.ofNat 64 (withBits s.mod.rsvhit.toNat 0 32 0) } } else s)
  else if o = 0x18 then { s with mod := { s.mod with ngself := BitVec.ofNat 12 w } }
  else if o = 0x20 then { s with mod := { s.mod with errvec := BitVec.ofNat 64 (bitsOf w 0 11 + bitsOf w 16 11 * 2 ^ 16) } }
  else if 0x8000 ≤ o ∧ o < 0x9000 then haspWrite ((o - 0x8000) / 0x200) (o % 0x200) m v s
  else if 0x9000 ≤ o ∧ o < 0x9200 then
    (if bitAt one 0 then updCtx s ((o - 0x9000) / 8) (fun x => { x with num := BitVec.ofNat 64 (withBits x.num.toNat 0 1 0) }) else s)
  else if o = 0xA010 then writeDbctl m v s
  else if o = 0xBFF8 then { s with mod := { s.mod with errovfl := s.mod.errovfl && !bitAt one 8 } }
  else s

/-- A route table entry with a half replaced. -/
def routeWith (r : Route) (i w : Nat) : Route :=
  if i = 0 then { r with base := BitVec.ofNat 60 w, port := bitAt w 60, valid := bitAt w 61, write := bitAt w 62 } else { r with limit := BitVec.ofNat 60 w }

/-- The bytes of a write that lie in an eight-byte word: their places and values. -/
def byteWrites (m v : Nat) : List (Nat × BitVec 8) :=
  ((List.range 8).filter (fun i => bitsOf m (8 * i) 8 == 255)).map (fun i => (i, BitVec.ofNat 8 (bitsOf v (8 * i) 8)))

/-- The 32-bit halves that a write touches: their places and new values. -/
def halfWrites (old m v : Nat) : List (Nat × BitVec 32) :=
  ((List.range 2).filter (fun i => bitsOf m (32 * i) 32 != 0)).map (fun i => (i, BitVec.ofNat 32 (bitsOf (merge old m v) (32 * i) 32)))

/-- A write in a partition block. -/
def partWrite (p o m v : Nat) (s : State) : State :=
  let old := (partRead s p o).getD 0
  let w := merge old m v
  let one := Nat.land m v
  if o = 0 then writePartctl p m v s
  else if o = 8 then updPart s p (fun x => { x with refused := x.refused && !bitAt one 0, aperr := x.aperr && !bitAt one 4 })
  else if 0x40 ≤ o ∧ o < 0x90 then (byteWrites m v).foldl (fun s b => writeMap p (o - 0x40 + b.1) b.2 s) s
  else if 0x100 ≤ o ∧ o < 0x200 then { s with routes := s.routes.upd .zero (p * 16 + (o - 0x100) / 16) (fun r => routeWith r (o / 8 % 2) w) }
  else if o = 0x200 then (if bitAt one 1 then releasePart p s else s)
  else if o = 0x208 then writePreempt p (BitVec.ofNat 64 (bitsOf w 0 1 + bitsOf one 1 1 * 2)) s
  else if 0x400 ≤ o ∧ o < 0x440 then updPart s p (fun x => { x with hddesc := (x.hddesc.take (o - 0x400)) ++ leBytes w 8 ++ x.hddesc.drop (o - 0x400 + 8) })
  else if o = 0x440 then writeHdctl p m v s
  else if o = 0x448 then updPart s p (fun x => { x with hdres := BitVec.ofNat 64 w })
  else if 0x1000 ≤ o then (halfWrites old m v).foldl (fun s h => writeShape p ((o - 0x1000) / 4 + h.1) h.2 s) s
  else s

/-- A write in a context block; those of a fenced die take none (R37). -/
def ctxWrite (c o m v : Nat) (s : State) : State :=
  if o = 0 then writeCtxctl c m v s
  else if isLost s (c / 8) then s
  else if o = 8 then updCtx s c (fun x => if canStart x then { x with entry := BitVec.ofNat 64 (merge x.entry.toNat m v) } else x)
  else if o = 0x10 then updCtx s c (fun x => { x with refused := x.refused && !bitAt (Nat.land m v) 3 })
  else if o = 0x18 then writeMacstat c m v s
  else s

/-- A write of an MSI-X table entry (R76): one whose mask bit clears sends what is pending. -/
def msixWrite (e i m v : Nat) (s : State) : State :=
  let old := (s.mod.msix.get msixReset e).toNat
  let w := merge (bitsOf old (64 * i) 64) m v
  let w := if i = 1 then w % 2 ^ 33 else w
  let s := { s with mod := { s.mod with msix := s.mod.msix.set msixReset e (BitVec.ofNat 128 (withBits old (64 * i) 64 w)) } }
  if bitAt old 96 && !((s.mod.msix.get msixReset e).getLsbD 96) then unmask e s else s

/-- The registers of a core in the management window (R26, R27, R257, R458). -/
def coreWrite (c o m v : Nat) (s : State) : State :=
  let one := Nat.land m v
  if o = 0 then (if m % 2 ^ 32 = 0 then s else writeSpgate s c (BitVec.ofNat 64 (merge (coreAt s c).gate.toNat m v % 2 ^ 32)))
  else if o = 8 then updCore s c (fun k => { k with spstat := BitVec.ofNat 64 (Nat.land k.spstat.toNat (fullMask - one % 2)) })
  else if o = 0x10 then
    updCore s c (fun k =>
      let x := k.coreerr.toNat
      { k with coreerr := BitVec.ofNat 64 (clearOnes x m v 0 + clearOnes x m v 16 * 2 ^ 16 + clearOnes x m v 32 * 2 ^ 32) })
  else if o = 0x18 then
    let old := (s.mod.errinj.get 0 c).toNat
    let w := merge old m v
    let fired := if bitAt old 2 && !bitAt one 2 then 4 else 0
    { s with mod := { s.mod with errinj := s.mod.errinj.set 0 c (BitVec.ofNat 64 (bitsOf w 0 2 + fired + bitsOf w 5 15 * 2 ^ 5 + bitsOf w 32 22 * 2 ^ 32)) } }
  else s

/-- A write of SNAPCTL, a half: REARM acts before FIRE. -/
def snapctlWrite (i m v : Nat) (s : State) : State :=
  let w := merge (snapctlHalf s.mod.snap i) m v
  let one := Nat.land m v
  if i = 1 then { s with mod := { s.mod with snap := { s.mod.snap with match_ := BitVec.ofNat 48 w } } }
  else
    let n := s.mod.snap
    let s := { s with mod := { s.mod with snap := { n with
      faulten := bitAt w 0, code := BitVec.ofNat 8 (bitsOf w 1 8), vccen := bitAt w 9, core := BitVec.ofNat 9 (bitsOf w 10 9) } } }
    let s := if bitAt one 20 then rearm s else s
    if bitAt one 19 then fireTrig 4 0 s else s

/-- Writes of links, memory, caches and cores, snapshots and Escutcheon. -/
def blockWrite (g m v : Nat) (s : State) : State :=
  let old := (blockRead s g).getD 0
  let w := merge old m v
  let one := Nat.land m v
  if 0x100000 ≤ g ∧ g < 0x100100 then writeNgport ((g - 0x100000) / 8) (BitVec.ofNat 64 w) s
  else if g = 0x100100 then updDb (fun b => { b with group := BitVec.ofNat 64 (bitsOf w 0 51) }) s
  else if 0x180000 ≤ g ∧ g < 0x200000 then
    (halfWrites old m v).foldl (fun (s : State) h =>
      { s with mod := { s.mod with ngrt := s.mod.ngrt.set 0 ((g - 0x180000) / 4 + h.1) (BitVec.ofNat 32 (bitsOf h.2.toNat 0 13)) } }) s
  else if 0x200000 ≤ g ∧ g < 0x212000 then
    let k := (g - 0x200000) / 0x1000
    if g % 0x1000 = 0 then
      updBank k (fun b => { b with
        ce := BitVec.ofNat 16 (clearOnes old m v 0), ue := BitVec.ofNat 16 (clearOnes old m v 16), retry := BitVec.ofNat 16 (clearOnes old m v 32), ovfl := b.ovfl && !bitAt one 63 }) s
    else if g % 0x1000 = 8 then updBank k (fun b => { b with period := BitVec.ofNat 6 w, nowb := bitAt w 6 }) s
    else s
  else if 0x300000 ≤ g ∧ g < 0x300040 then writeLlcway ((g - 0x300000) / 8) m v s
  else if 0x301000 ≤ g ∧ g < 0x309000 then coreWrite ((g - 0x301000) / 0x40) (g % 0x40) m v s
  else if g = 0x400000 ∨ g = 0x400008 then snapctlWrite (g / 8 % 2) m v s
  else if 0x800200 ≤ g ∧ g < 0x800230 then
    updTrust (fun t => { t with measData := BitVec.ofNat 384 (withBits t.measData.toNat (8 * (g - 0x800200)) 64 w) }) s
  else if g = 0x800240 then writeMeasext m v s
  else if g = 0x800248 then updTrust (fun t => { t with classA := t.classA && !bitAt one 0 }) s
  else s

/-- The slot register bits that hold (R66). -/
def slotBits : Nat := 2 ^ 25 - 1 + (2 ^ 10 - 1) * 2 ^ 32

/-- A write of eight bytes under a mask, at a listed offset of function 0's window. -/
def regWrite (i3c : Bool) (g m v : Nat) (s : State) : State :=
  if g < 0x10000 then controlWrite i3c g m v s
  else if g < 0x20000 then partWrite ((g - 0x10000) / 0x2000) (g % 0x2000) m v s
  else if g < 0x30000 then ctxWrite ((g - 0x20000) / 0x400) (g % 0x400) m v s
  else if g < 0x30200 then
    let k := (g - 0x30000) / 8
    { s with mod := { s.mod with apslots := s.mod.apslots.set 0 k (BitVec.ofNat 64 (Nat.land (merge (slotReg s k).toNat m v) slotBits)) } }
  else if 0x40000 ≤ g ∧ g < 0x48000 then msixWrite ((g - 0x40000) / 16) (g / 8 % 2) m v s
  else if g < 0x100000 then s
  else blockWrite g m v s

/-- An access to an unlisted offset counts (R62, R64). -/
def countMiss (off : Nat) (write : Bool) (s : State) : State :=
  let n := Nat.min (2 ^ 32 - 1) (fieldW s.mod.rsvhit 0 32 + 1)
  { s with mod := { s.mod with rsvhit := BitVec.ofNat 64 (n + off % 2 ^ 24 * 2 ^ 32 + b1 write * 2 ^ 56) } }

/-! ### Who reaches what (R25, R62, R65) -/

/-- An offset of a virtual function's page as one of function 0's window (R65); the context blocks of its partition are packed. -/
def pageOffset (s : State) (p o : Nat) : Option Nat :=
  if p = 0 ∨ 8 ≤ p ∨ !partExists s p then none
  else if o < 0x10000 then
    (((List.range 64).filter (fun c => (ctx s c).part.toNat == p))[o / 0x400]?).map (fun c => 0x20000 + 0x400 * c + o % 0x400)
  else if o < 0x20000 then (if o - 0x10000 < 64 then some (0x30000 + 64 * p + (o - 0x10000)) else none)
  else if o < 0x30000 then
    let n := 16 * (partOf s p).veccount.toNat
    if o - 0x20000 < n then some (0x40000 + 16 * (partOf s p).vecbase.toNat + (o - 0x20000)) else none
  else if o - 0x30000 < 0x50 then some (0x10000 + 0x2000 * p + 0x400 + (o - 0x30000))
  else none

/-- Whether an offset lies in the module control block, but for the Hasp registers, which Karol dies hold, or in Escutcheon: the management
domain serves it by itself (R25). -/
def managed (g : Nat) : Bool := (decide (g < 0x10000) && !(decide (0x8000 ≤ g) && decide (g < 0x9000))) || (decide (0x800000 ≤ g) && decide (g < 0x801000))
/-- Whether an offset names a register held in a Karol die or a cache die (R25). Neither row of R25 for M2 names HBMCNT, HBMLOG, SCRUBCFG, their
LPDDR6 twins, CTXNUM, SNAPCTL, SNAPSTAT, SNAPDIR, the APSLOTs, NGPORT, NGRT and DBGROUP: they are served at once (DESIGN CHOICE, assumption 95). -/
def dieHeld (g : Nat) : Bool :=
  (decide (0x8000 ≤ g) && decide (g < 0x9000)) || (decide (0x20000 ≤ g) && decide (g < 0x30000)) ||
    (decide (0x300000 ≤ g) && decide (g < 0x400000)) || (decide (0x404000 ≤ g) && decide (g < 0x800000))

/-- Whether an access reaches the registers now: in M3, in recovery and with all dies in reset only the sideband does, and only what
the management domain serves (R25, R79). -/
def reaches (s : State) (i3c : Bool) (g : Nat) : Bool :=
  let p := s.mod.power
  if p.boot = .off then false
  else if p.boot = .up ∧ p.state ≠ .m3 then true
  else i3c && managed g

/-- The eight-byte words a write of `n` bytes at an offset touches: for each, its offset, the mask and the value. -/
def granules (off n v : Nat) : List (Nat × Nat × Nat) :=
  let sh := 8 * (off % 8)
  let m := (2 ^ (8 * Nat.min n 8) - 1) * 2 ^ sh
  let x := v * 2 ^ sh
  let g := off / 8 * 8
  (if m % 2 ^ 64 = 0 then [] else [(g, m % 2 ^ 64, x % 2 ^ 64)]) ++ (if m / 2 ^ 64 = 0 then [] else [(g + 8, m / 2 ^ 64, x / 2 ^ 64)])

/-- A write of one word through the window; one at an unlisted offset counts. -/
def writeWord (i3c : Bool) (off : Nat) (s : State) (w : Nat × Nat × Nat) : State :=
  if !reaches s i3c w.1 then s
  else if (regRead s w.1).isNone then countMiss off true s
  else regWrite i3c w.1 w.2.1 w.2.2 s

/-- Hold an access in M2 and begin the exit (R24, R25). -/
def holdAccess (acc : HostAccess) (s : State) : State :=
  updPower (fun p => { p with exiting := true, held := if acc = .link then p.held else p.held ++ [acc] }) s

/-- A write through function 0's window. -/
def writeBar0 (off n : Nat) (v : Word) (s : State) : State :=
  if s.mod.power.state = .m2 ∧ dieHeld off then holdAccess (.write off n v) s
  else (granules off n v.toNat).foldl (writeWord false off) s

/-- Whether an access of a virtual function's page meets, in M2, a register held in a die (R25). -/
def pageHeld (s : State) (p off n : Nat) : Bool :=
  s.mod.power.state == .m2 && (granules off n 0).any (fun w => match pageOffset s p w.1 with | some g => dieHeld g | none => false)

/-- REGISTER_WRITE (R6, R62, R63, R65): an access of a page is looked at word by word. -/
def registerWrite (via : Via) (off n : Nat) (v : Word) (s : State) : State :=
  match via with
  | .bar0 => writeBar0 off n v s
  | .i3c => (granules off n v.toNat).foldl (writeWord true off) s
  | .page p =>
    if pageHeld s p off n then holdAccess (.page p off n (some v)) s
    else (granules off n v.toNat).foldl (fun s w =>
      match pageOffset s p w.1 with
      | some g => if reaches s false g ∧ (regRead s g).isSome then regWrite false g w.2.1 w.2.2 s else s
      | none => s) s

/-- REGISTER_WRITE. -/
def execRegisterWrite (via : Via) (off : Nat) (n : Nat) (v : BitVec 64) (s : State) : Host.Outcome State Fault Refusal :=
  .next (registerWrite via off n v s)

/-- What a read of one word through the window gives; one at an unlisted offset gives zero and counts. -/
def readWord (i3c : Bool) (off : Nat) (r : State × Nat) (w : Nat × Nat × Nat) : State × Nat :=
  let at_ := fun (x : Nat) => r.2 + x * 2 ^ (8 * (w.1 - off / 8 * 8))
  if !reaches r.1 i3c w.1 then r
  else match regRead r.1 w.1 with
  | some x => (r.1, at_ x)
  | none => (countMiss off false r.1, r.2)

/-- A read of `n` bytes at an offset: they come from the words it touches. -/
def readBytes (i3c : Bool) (off n : Nat) (s : State) : State :=
  let r := (granules off n 0).foldl (readWord i3c off) (s, 0)
  answerHost (.data (leBytes (r.2 / 2 ^ (8 * (off % 8))) n)) r.1

/-- A read through function 0's window: in M2 one of a register held in a die is held and starts the exit (R25). -/
def readBar0 (off n : Nat) (s : State) : State :=
  if !reaches s false off then answerHost .silent s
  else if s.mod.power.state = .m2 ∧ dieHeld off then answerHost .held (holdAccess (.read off n) s)
  else readBytes false off n s

/-- Eight bytes at an offset of a virtual function's page that lie in its pending bit array, which follows its entries (R65). -/
def pagePba (s : State) (p o : Nat) : Nat :=
  let q := partOf s p
  let k := (o - 0x20000) / 8 - 2 * q.veccount.toNat
  if p = 0 ∨ 8 ≤ p ∨ !partExists s p ∨ o < 0x20000 ∨ 0x30000 ≤ o ∨ o - 0x20000 < 16 * q.veccount.toNat then 0
  else packElems 1 ((List.range 64).map (fun i =>
    let e := 64 * k + i
    b1 (decide (e < q.veccount.toNat) && s.mod.pending.get false (q.vecbase.toNat + e))))

/-- A read of a register by the host or over I3C, which changes nothing but RSVHIT (R6, R62, R63, R65). It has no row of the opcode
table: it is a turn of its own (assumption 3). -/
def registerRead (via : Via) (off n : Nat) (s : State) : State :=
  match via with
  | .bar0 => readBar0 off n s
  | .i3c => readBytes true off n s
  | .page p =>
    if !reaches s false 0x20000 then answerHost .silent s
    else if pageHeld s p off n then answerHost .held (holdAccess (.page p off n none) s)
    else
      let word := fun (w : Nat) => match pageOffset s p w with | some g => (regRead s g).getD 0 | none => pagePba s p w
      let x := ((granules off n 0).map (fun w => word w.1 * 2 ^ (8 * (w.1 - off / 8 * 8)))).sum
      answerHost (.data (leBytes (x / 2 ^ (8 * (off % 8))) n)) s

/-! ### The exit from M2 (R24, R25) -/

/-- Perform a host access that was held. -/
def performAccess (s : State) (acc : HostAccess) : State :=
  match acc with
  | .read off n => readBytes false off n s
  | .write off n v => writeBar0 off n v s
  | .apRead fn x n => apRead fn x n s
  | .apWrite fn x b => apWrite fn x b s
  | .page p off n (some v) => registerWrite (.page p) off n v s
  | .page p off n none => registerRead (.page p) off n s
  | .link => s

/-- M2_EXIT_START. -/
def execM2ExitStart (acc : HostAccess) (s : State) : Host.Outcome State Fault Refusal :=
  .next (if isUp s ∧ s.mod.power.state = .m2 then holdAccess acc s else s)

/-- Deliver the packets a port held (R24). -/
def deliverInbox (s : State) (q : Nat) : State :=
  (port s q).inbox.foldl (fun s p => routeIn q p s) (updPort s q (fun x => { x with inbox := [] }))

/-- The exit ends: held packets and host accesses are performed in arrival order, and requests of the host that wait are performed. -/
def exitM2 (s : State) : State :=
  if !isUp s ∨ s.mod.power.state ≠ .m2 ∨ !s.mod.power.exiting then s
  else
    let acc := s.mod.power.held
    let s := updPower (fun p => { p with state := .m0, exiting := false, held := [] }) s
    let s := (List.range 32).foldl deliverInbox s
    let s := acc.foldl performAccess s
    (List.range 8).foldl (fun s p => hdRun p s) s

/-- M2_EXIT_COMPLETE. -/
def execM2ExitComplete (s : State) : Host.Outcome State Fault Refusal := .next (exitM2 s)

end Sys2Proof.Machine
end

