-- ==== Sys2Proof/Machine/Dispatch.lean ====
section
/-!
DEFINITION. Sys2Proof/Machine/Dispatch.lean: one arm per instruction, each a direct call of its meaning.
-/

namespace Sys2Proof.Machine

def exec (i : Instr) (s : State) : Host.Outcome State Fault Refusal :=
  match i with
  | .br a0 => Sys2Proof.Machine.execBr a0 s
  | .brz a0 a1 => Sys2Proof.Machine.execBrz a0 a1 s
  | .brnz a0 a1 => Sys2Proof.Machine.execBrnz a0 a1 s
  | .loop a0 a1 a2 => Sys2Proof.Machine.execLoop a0 a1 a2 s
  | .loopReg a0 a1 a2 => Sys2Proof.Machine.execLoopReg a0 a1 a2 s
  | .call a0 a1 => Sys2Proof.Machine.execCall a0 a1 s
  | .callr a0 a1 => Sys2Proof.Machine.execCallr a0 a1 s
  | .ret a0 => Sys2Proof.Machine.execRet a0 s
  | .trap a0 => Sys2Proof.Machine.execTrap a0 s
  | .waitt a0 a1 a2 => Sys2Proof.Machine.execWaitt a0 a1 a2 s
  | .waitg a0 a1 => Sys2Proof.Machine.execWaitg a0 a1 s
  | .drain a0 => Sys2Proof.Machine.execDrain a0 s
  | .fenceT a0 => Sys2Proof.Machine.execFenceT a0 s
  | .segchk a0 => Sys2Proof.Machine.execSegchk a0 s
  | .sysr a0 a1 => Sys2Proof.Machine.execSysr a0 a1 s
  | .sysw a0 a1 => Sys2Proof.Machine.execSysw a0 a1 s
  | .shapepub a0 a1 => Sys2Proof.Machine.execShapepub a0 a1 s
  | .shapepubClr a0 => Sys2Proof.Machine.execShapepubClr a0 s
  | .ctlHint a0 a1 => Sys2Proof.Machine.execCtlHint a0 a1 s
  | .add a0 a1 a2 => Sys2Proof.Machine.execAdd a0 a1 a2 s
  | .sub a0 a1 a2 => Sys2Proof.Machine.execSub a0 a1 a2 s
  | .and_ a0 a1 a2 => Sys2Proof.Machine.execAnd a0 a1 a2 s
  | .or_ a0 a1 a2 => Sys2Proof.Machine.execOr a0 a1 a2 s
  | .xor_ a0 a1 a2 => Sys2Proof.Machine.execXor a0 a1 a2 s
  | .shl a0 a1 a2 => Sys2Proof.Machine.execShl a0 a1 a2 s
  | .shr a0 a1 a2 => Sys2Proof.Machine.execShr a0 a1 a2 s
  | .sar a0 a1 a2 => Sys2Proof.Machine.execSar a0 a1 a2 s
  | .slt a0 a1 a2 => Sys2Proof.Machine.execSlt a0 a1 a2 s
  | .sltu a0 a1 a2 => Sys2Proof.Machine.execSltu a0 a1 a2 s
  | .seq a0 a1 a2 => Sys2Proof.Machine.execSeq a0 a1 a2 s
  | .min a0 a1 a2 => Sys2Proof.Machine.execMin a0 a1 a2 s
  | .max a0 a1 a2 => Sys2Proof.Machine.execMax a0 a1 a2 s
  | .minu a0 a1 a2 => Sys2Proof.Machine.execMinu a0 a1 a2 s
  | .maxu a0 a1 a2 => Sys2Proof.Machine.execMaxu a0 a1 a2 s
  | .mul a0 a1 a2 => Sys2Proof.Machine.execMul a0 a1 a2 s
  | .mulh a0 a1 a2 => Sys2Proof.Machine.execMulh a0 a1 a2 s
  | .mulhu a0 a1 a2 => Sys2Proof.Machine.execMulhu a0 a1 a2 s
  | .clmul a0 a1 a2 => Sys2Proof.Machine.execClmul a0 a1 a2 s
  | .clmulh a0 a1 a2 => Sys2Proof.Machine.execClmulh a0 a1 a2 s
  | .sel a0 a1 a2 a3 => Sys2Proof.Machine.execSel a0 a1 a2 a3 s
  | .movi a0 a1 => Sys2Proof.Machine.execMovi a0 a1 s
  | .movhi a0 a1 a2 => Sys2Proof.Machine.execMovhi a0 a1 a2 s
  | .clz a0 a1 => Sys2Proof.Machine.execClz a0 a1 s
  | .ctz a0 a1 => Sys2Proof.Machine.execCtz a0 a1 s
  | .popc a0 a1 => Sys2Proof.Machine.execPopc a0 a1 s
  | .sptest a0 a1 => Sys2Proof.Machine.execSptest a0 a1 s
  | .spcastSp a0 a1 => Sys2Proof.Machine.execSpcastSp a0 a1 s
  | .spcastCl a0 a1 => Sys2Proof.Machine.execSpcastCl a0 a1 s
  | .gptr a0 a1 a2 => Sys2Proof.Machine.execGptr a0 a1 a2 s
  | .gptrH a0 a1 a2 => Sys2Proof.Machine.execGptrH a0 a1 a2 s
  | .padd a0 a1 a2 => Sys2Proof.Machine.execPadd a0 a1 a2 s
  | .stg a0 a1 a2 => Sys2Proof.Machine.execStg a0 a1 a2 s
  | .shf a0 a1 a2 => Sys2Proof.Machine.execShf a0 a1 a2 s
  | .mpw a0 a1 a2 => Sys2Proof.Machine.execMpw a0 a1 a2 s
  | .addi a0 a1 a2 => Sys2Proof.Machine.execAddi a0 a1 a2 s
  | .andi a0 a1 a2 => Sys2Proof.Machine.execAndi a0 a1 a2 s
  | .ori a0 a1 a2 => Sys2Proof.Machine.execOri a0 a1 a2 s
  | .xori a0 a1 a2 => Sys2Proof.Machine.execXori a0 a1 a2 s
  | .shli a0 a1 a2 => Sys2Proof.Machine.execShli a0 a1 a2 s
  | .shri a0 a1 a2 => Sys2Proof.Machine.execShri a0 a1 a2 s
  | .sari a0 a1 a2 => Sys2Proof.Machine.execSari a0 a1 a2 s
  | .slti a0 a1 a2 => Sys2Proof.Machine.execSlti a0 a1 a2 s
  | .sltui a0 a1 a2 => Sys2Proof.Machine.execSltui a0 a1 a2 s
  | .seqi a0 a1 a2 => Sys2Proof.Machine.execSeqi a0 a1 a2 s
  | .sHint a0 a1 => Sys2Proof.Machine.execSHint a0 a1 s
  | .ld a0 a1 a2 a3 a4 => Sys2Proof.Machine.execLd a0 a1 a2 a3 a4 s
  | .st a0 a1 a2 a3 => Sys2Proof.Machine.execSt a0 a1 a2 a3 s
  | .vld a0 a1 a2 => Sys2Proof.Machine.execVld a0 a1 a2 s
  | .vst a0 a1 a2 a3 => Sys2Proof.Machine.execVst a0 a1 a2 a3 s
  | .vlds a0 a1 a2 a3 a4 => Sys2Proof.Machine.execVlds a0 a1 a2 a3 a4 s
  | .vsts a0 a1 a2 a3 a4 => Sys2Proof.Machine.execVsts a0 a1 a2 a3 a4 s
  | .vldx a0 a1 a2 a3 a4 => Sys2Proof.Machine.execVldx a0 a1 a2 a3 a4 s
  | .vstx a0 a1 a2 a3 a4 => Sys2Proof.Machine.execVstx a0 a1 a2 a3 a4 s
  | .ldl a0 a1 a2 a3 => Sys2Proof.Machine.execLdl a0 a1 a2 a3 s
  | .amoAdd a0 a1 a2 a3 => Sys2Proof.Machine.execAmoAdd a0 a1 a2 a3 s
  | .amoAnd a0 a1 a2 a3 => Sys2Proof.Machine.execAmoAnd a0 a1 a2 a3 s
  | .amoOr a0 a1 a2 a3 => Sys2Proof.Machine.execAmoOr a0 a1 a2 a3 s
  | .amoXor a0 a1 a2 a3 => Sys2Proof.Machine.execAmoXor a0 a1 a2 a3 s
  | .amoMin a0 a1 a2 a3 => Sys2Proof.Machine.execAmoMin a0 a1 a2 a3 s
  | .amoMax a0 a1 a2 a3 => Sys2Proof.Machine.execAmoMax a0 a1 a2 a3 s
  | .amoMinu a0 a1 a2 a3 => Sys2Proof.Machine.execAmoMinu a0 a1 a2 a3 s
  | .amoMaxu a0 a1 a2 a3 => Sys2Proof.Machine.execAmoMaxu a0 a1 a2 a3 s
  | .amoSwap a0 a1 a2 a3 => Sys2Proof.Machine.execAmoSwap a0 a1 a2 a3 s
  | .amoFadd a0 a1 a2 => Sys2Proof.Machine.execAmoFadd a0 a1 a2 s
  | .cas a0 a1 a2 a3 => Sys2Proof.Machine.execCas a0 a1 a2 a3 s
  | .redAdd a0 a1 a2 => Sys2Proof.Machine.execRedAdd a0 a1 a2 s
  | .redAnd a0 a1 a2 => Sys2Proof.Machine.execRedAnd a0 a1 a2 s
  | .redOr a0 a1 a2 => Sys2Proof.Machine.execRedOr a0 a1 a2 s
  | .redXor a0 a1 a2 => Sys2Proof.Machine.execRedXor a0 a1 a2 s
  | .redMin a0 a1 a2 => Sys2Proof.Machine.execRedMin a0 a1 a2 s
  | .redMax a0 a1 a2 => Sys2Proof.Machine.execRedMax a0 a1 a2 s
  | .redMinu a0 a1 a2 => Sys2Proof.Machine.execRedMinu a0 a1 a2 s
  | .redMaxu a0 a1 a2 => Sys2Proof.Machine.execRedMaxu a0 a1 a2 s
  | .redFadd a0 a1 => Sys2Proof.Machine.execRedFadd a0 a1 s
  | .ldAcq a0 a1 a2 a3 => Sys2Proof.Machine.execLdAcq a0 a1 a2 a3 s
  | .stRel a0 a1 a2 a3 => Sys2Proof.Machine.execStRel a0 a1 a2 a3 s
  | .hingeRel a0 a1 a2 => Sys2Proof.Machine.execHingeRel a0 a1 a2 s
  | .hingeAcq a0 a1 a2 => Sys2Proof.Machine.execHingeAcq a0 a1 a2 s
  | .bgive a0 a1 a2 => Sys2Proof.Machine.execBgive a0 a1 a2 s
  | .syncarm a0 a1 => Sys2Proof.Machine.execSyncarm a0 a1 s
  | .spill a0 a1 a2 => Sys2Proof.Machine.execSpill a0 a1 a2 s
  | .fill a0 a1 a2 => Sys2Proof.Machine.execFill a0 a1 a2 s
  | .pref a0 a1 => Sys2Proof.Machine.execPref a0 a1 s
  | .lsHint a0 a1 => Sys2Proof.Machine.execLsHint a0 a1 s
  | .vadd a0 a1 a2 a3 a4 => Sys2Proof.Machine.execVadd a0 a1 a2 a3 a4 s
  | .vsub a0 a1 a2 a3 a4 => Sys2Proof.Machine.execVsub a0 a1 a2 a3 a4 s
  | .vmul a0 a1 a2 a3 a4 => Sys2Proof.Machine.execVmul a0 a1 a2 a3 a4 s
  | .vmulh a0 a1 a2 a3 a4 => Sys2Proof.Machine.execVmulh a0 a1 a2 a3 a4 s
  | .vmin a0 a1 a2 a3 a4 => Sys2Proof.Machine.execVmin a0 a1 a2 a3 a4 s
  | .vmax a0 a1 a2 a3 a4 => Sys2Proof.Machine.execVmax a0 a1 a2 a3 a4 s
  | .vabs a0 a1 a2 a3 => Sys2Proof.Machine.execVabs a0 a1 a2 a3 s
  | .vand a0 a1 a2 a3 a4 => Sys2Proof.Machine.execVand a0 a1 a2 a3 a4 s
  | .vor a0 a1 a2 a3 a4 => Sys2Proof.Machine.execVor a0 a1 a2 a3 a4 s
  | .vxor a0 a1 a2 a3 a4 => Sys2Proof.Machine.execVxor a0 a1 a2 a3 a4 s
  | .vandn a0 a1 a2 a3 a4 => Sys2Proof.Machine.execVandn a0 a1 a2 a3 a4 s
  | .vshl a0 a1 a2 a3 a4 => Sys2Proof.Machine.execVshl a0 a1 a2 a3 a4 s
  | .vshr a0 a1 a2 a3 a4 => Sys2Proof.Machine.execVshr a0 a1 a2 a3 a4 s
  | .vsar a0 a1 a2 a3 a4 => Sys2Proof.Machine.execVsar a0 a1 a2 a3 a4 s
  | .vadds a0 a1 a2 a3 a4 => Sys2Proof.Machine.execVadds a0 a1 a2 a3 a4 s
  | .vsubs a0 a1 a2 a3 a4 => Sys2Proof.Machine.execVsubs a0 a1 a2 a3 a4 s
  | .vcmpeq a0 a1 a2 a3 a4 => Sys2Proof.Machine.execVcmpeq a0 a1 a2 a3 a4 s
  | .vcmpne a0 a1 a2 a3 a4 => Sys2Proof.Machine.execVcmpne a0 a1 a2 a3 a4 s
  | .vcmplt a0 a1 a2 a3 a4 => Sys2Proof.Machine.execVcmplt a0 a1 a2 a3 a4 s
  | .vcmple a0 a1 a2 a3 a4 => Sys2Proof.Machine.execVcmple a0 a1 a2 a3 a4 s
  | .vsel a0 a1 a2 a3 a4 => Sys2Proof.Machine.execVsel a0 a1 a2 a3 a4 s
  | .vbcast a0 a1 a2 a3 => Sys2Proof.Machine.execVbcast a0 a1 a2 a3 s
  | .vextr a0 a1 a2 a3 => Sys2Proof.Machine.execVextr a0 a1 a2 a3 s
  | .vinsr a0 a1 a2 a3 => Sys2Proof.Machine.execVinsr a0 a1 a2 a3 s
  | .vclmulLo a0 a1 a2 a3 a4 => Sys2Proof.Machine.execVclmulLo a0 a1 a2 a3 a4 s
  | .vclmulHi a0 a1 a2 a3 a4 => Sys2Proof.Machine.execVclmulHi a0 a1 a2 a3 a4 s
  | .vscanAdd a0 a1 a2 a3 => Sys2Proof.Machine.execVscanAdd a0 a1 a2 a3 s
  | .vscanMin a0 a1 a2 a3 => Sys2Proof.Machine.execVscanMin a0 a1 a2 a3 s
  | .vscanMax a0 a1 a2 a3 => Sys2Proof.Machine.execVscanMax a0 a1 a2 a3 s
  | .vscanXor a0 a1 a2 a3 => Sys2Proof.Machine.execVscanXor a0 a1 a2 a3 s
  | .vscanAnd a0 a1 a2 a3 => Sys2Proof.Machine.execVscanAnd a0 a1 a2 a3 s
  | .vscanOr a0 a1 a2 a3 => Sys2Proof.Machine.execVscanOr a0 a1 a2 a3 s
  | .vreduceAdd a0 a1 a2 a3 => Sys2Proof.Machine.execVreduceAdd a0 a1 a2 a3 s
  | .vreduceMin a0 a1 a2 a3 => Sys2Proof.Machine.execVreduceMin a0 a1 a2 a3 s
  | .vreduceMax a0 a1 a2 a3 => Sys2Proof.Machine.execVreduceMax a0 a1 a2 a3 s
  | .vreduceXor a0 a1 a2 a3 => Sys2Proof.Machine.execVreduceXor a0 a1 a2 a3 s
  | .vreduceAnd a0 a1 a2 a3 => Sys2Proof.Machine.execVreduceAnd a0 a1 a2 a3 s
  | .vreduceOr a0 a1 a2 a3 => Sys2Proof.Machine.execVreduceOr a0 a1 a2 a3 s
  | .vperm a0 a1 a2 a3 a4 => Sys2Proof.Machine.execVperm a0 a1 a2 a3 a4 s
  | .vcompress a0 a1 a2 a3 => Sys2Proof.Machine.execVcompress a0 a1 a2 a3 s
  | .vexpand a0 a1 a2 a3 => Sys2Proof.Machine.execVexpand a0 a1 a2 a3 s
  | .vmergeLo a0 a1 a2 a3 a4 => Sys2Proof.Machine.execVmergeLo a0 a1 a2 a3 a4 s
  | .vmergeHi a0 a1 a2 a3 a4 => Sys2Proof.Machine.execVmergeHi a0 a1 a2 a3 a4 s
  | .vmergekv a0 a1 a2 a3 a4 => Sys2Proof.Machine.execVmergekv a0 a1 a2 a3 a4 s
  | .vfadd a0 a1 a2 a3 a4 => Sys2Proof.Machine.execVfadd a0 a1 a2 a3 a4 s
  | .vfsub a0 a1 a2 a3 a4 => Sys2Proof.Machine.execVfsub a0 a1 a2 a3 a4 s
  | .vfmul a0 a1 a2 a3 a4 => Sys2Proof.Machine.execVfmul a0 a1 a2 a3 a4 s
  | .vfma a0 a1 a2 a3 a4 => Sys2Proof.Machine.execVfma a0 a1 a2 a3 a4 s
  | .vfmin a0 a1 a2 a3 a4 => Sys2Proof.Machine.execVfmin a0 a1 a2 a3 a4 s
  | .vfmax a0 a1 a2 a3 a4 => Sys2Proof.Machine.execVfmax a0 a1 a2 a3 a4 s
  | .vcvt a0 a1 a2 a3 a4 a5 a6 => Sys2Proof.Machine.execVcvt a0 a1 a2 a3 a4 a5 a6 s
  | .vamax a0 a1 a2 a3 a4 => Sys2Proof.Machine.execVamax a0 a1 a2 a3 a4 s
  | .vbqpack a0 a1 a2 a3 a4 => Sys2Proof.Machine.execVbqpack a0 a1 a2 a3 a4 s
  | .vbqunpk a0 a1 a2 a3 a4 => Sys2Proof.Machine.execVbqunpk a0 a1 a2 a3 a4 s
  | .kand a0 a1 a2 => Sys2Proof.Machine.execKand a0 a1 a2 s
  | .kor a0 a1 a2 => Sys2Proof.Machine.execKor a0 a1 a2 s
  | .kxor a0 a1 a2 => Sys2Proof.Machine.execKxor a0 a1 a2 s
  | .knot a0 a1 => Sys2Proof.Machine.execKnot a0 a1 s
  | .kpop a0 a1 a2 => Sys2Proof.Machine.execKpop a0 a1 a2 s
  | .kset a0 a1 a2 => Sys2Proof.Machine.execKset a0 a1 a2 s
  | .vmov a0 a1 a2 a3 => Sys2Proof.Machine.execVmov a0 a1 a2 a3 s
  | .vmovFromMg a0 a1 => Sys2Proof.Machine.execVmovFromMg a0 a1 s
  | .vmovToMg a0 a1 => Sys2Proof.Machine.execVmovToMg a0 a1 s
  | .vmovMaskLo a0 a1 => Sys2Proof.Machine.execVmovMaskLo a0 a1 s
  | .vmovMaskHi a0 a1 => Sys2Proof.Machine.execVmovMaskHi a0 a1 s
  | .vHint a0 a1 => Sys2Proof.Machine.execVHint a0 a1 s
  | .fexp2 a0 a1 a2 a3 => Sys2Proof.Machine.execFexp2 a0 a1 a2 a3 s
  | .flog2 a0 a1 a2 a3 => Sys2Proof.Machine.execFlog2 a0 a1 a2 a3 s
  | .frcp a0 a1 a2 a3 => Sys2Proof.Machine.execFrcp a0 a1 a2 a3 s
  | .frsq a0 a1 a2 a3 => Sys2Proof.Machine.execFrsq a0 a1 a2 a3 s
  | .fsqrt a0 a1 a2 a3 => Sys2Proof.Machine.execFsqrt a0 a1 a2 a3 s
  | .frsqe a0 a1 a2 a3 => Sys2Proof.Machine.execFrsqe a0 a1 a2 a3 s
  | .ftanh a0 a1 a2 a3 => Sys2Proof.Machine.execFtanh a0 a1 a2 a3 s
  | .fsig a0 a1 a2 a3 => Sys2Proof.Machine.execFsig a0 a1 a2 a3 s
  | .ferf a0 a1 a2 a3 => Sys2Proof.Machine.execFerf a0 a1 a2 a3 s
  | .scalegen a0 a1 a2 a3 a4 => Sys2Proof.Machine.execScalegen a0 a1 a2 a3 a4 s
  | .scld a0 a1 a2 => Sys2Proof.Machine.execScld a0 a1 a2 s
  | .tbld a0 a1 => Sys2Proof.Machine.execTbld a0 a1 s
  | .sfHint a0 a1 => Sys2Proof.Machine.execSfHint a0 a1 s
  | .mxcall a0 a1 a2 a3 a4 => Sys2Proof.Machine.execMxcall a0 a1 a2 a3 a4 s
  | .mxjoin a0 a1 a2 a3 => Sys2Proof.Machine.execMxjoin a0 a1 a2 a3 s
  | .mxpart a0 a1 a2 a3 => Sys2Proof.Machine.execMxpart a0 a1 a2 a3 s
  | .mxnorm a0 a1 a2 a3 => Sys2Proof.Machine.execMxnorm a0 a1 a2 a3 s
  | .mxzero a0 a1 a2 a3 => Sys2Proof.Machine.execMxzero a0 a1 a2 a3 s
  | .mxrda a0 a1 a2 a3 a4 => Sys2Proof.Machine.execMxrda a0 a1 a2 a3 a4 s
  | .mxwra a0 a1 a2 a3 a4 => Sys2Proof.Machine.execMxwra a0 a1 a2 a3 a4 s
  | .mxwb a0 a1 a2 a3 a4 => Sys2Proof.Machine.execMxwb a0 a1 a2 a3 a4 s
  | .mxucw a0 a1 a2 a3 => Sys2Proof.Machine.execMxucw a0 a1 a2 a3 s
  | .mxHint a0 a1 => Sys2Proof.Machine.execMxHint a0 a1 s
  | .xcopy a0 a1 a2 a3 a4 => Sys2Proof.Machine.execXcopy a0 a1 a2 a3 a4 s
  | .xstore a0 a1 a2 a3 a4 => Sys2Proof.Machine.execXstore a0 a1 a2 a3 a4 s
  | .xweight a0 a1 a2 a3 a4 => Sys2Proof.Machine.execXweight a0 a1 a2 a3 a4 s
  | .xtrans a0 a1 a2 a3 a4 => Sys2Proof.Machine.execXtrans a0 a1 a2 a3 a4 s
  | .xgather a0 a1 a2 a3 a4 => Sys2Proof.Machine.execXgather a0 a1 a2 a3 a4 s
  | .xkv a0 a1 a2 a3 a4 => Sys2Proof.Machine.execXkv a0 a1 a2 a3 a4 s
  | .xsend a0 a1 a2 a3 a4 => Sys2Proof.Machine.execXsend a0 a1 a2 a3 a4 s
  | .xred a0 a1 a2 a3 a4 => Sys2Proof.Machine.execXred a0 a1 a2 a3 a4 s
  | .xdecomp a0 a1 a2 a3 a4 => Sys2Proof.Machine.execXdecomp a0 a1 a2 a3 a4 s
  | .xfill a0 a1 a2 a3 a4 => Sys2Proof.Machine.execXfill a0 a1 a2 a3 a4 s
  | .xcancel a0 a1 a2 a3 a4 => Sys2Proof.Machine.execXcancel a0 a1 a2 a3 a4 s
  | .xfHint a0 a1 => Sys2Proof.Machine.execXfHint a0 a1 s
  | .mloada a0 a1 a2 => Sys2Proof.Machine.execMloada a0 a1 a2 s
  | .mloadb a0 a1 => Sys2Proof.Machine.execMloadb a0 a1 s
  | .mscale a0 a1 => Sys2Proof.Machine.execMscale a0 a1 s
  | .mskip a0 => Sys2Proof.Machine.execMskip a0 s
  | .mnext a0 a1 => Sys2Proof.Machine.execMnext a0 a1 s
  | .mloop a0 a1 => Sys2Proof.Machine.execMloop a0 a1 s
  | .mnorm a0 => Sys2Proof.Machine.execMnorm a0 s
  | .streamBr a0 => Sys2Proof.Machine.execStreamBr a0 s
  | .brc a0 a1 a2 a3 => Sys2Proof.Machine.execBrc a0 a1 a2 a3 s
  | .streamCall a0 a1 => Sys2Proof.Machine.execStreamCall a0 a1 s
  | .streamRet a0 => Sys2Proof.Machine.execStreamRet a0 s
  | .seth a0 => Sys2Proof.Machine.execSeth a0 s
  | .streamAdd a0 a1 a2 => Sys2Proof.Machine.execStreamAdd a0 a1 a2 s
  | .streamSub a0 a1 a2 => Sys2Proof.Machine.execStreamSub a0 a1 a2 s
  | .streamMul a0 a1 a2 => Sys2Proof.Machine.execStreamMul a0 a1 a2 s
  | .streamMulhu a0 a1 a2 => Sys2Proof.Machine.execStreamMulhu a0 a1 a2 s
  | .streamAnd a0 a1 a2 => Sys2Proof.Machine.execStreamAnd a0 a1 a2 s
  | .streamOr a0 a1 a2 => Sys2Proof.Machine.execStreamOr a0 a1 a2 s
  | .streamXor a0 a1 a2 => Sys2Proof.Machine.execStreamXor a0 a1 a2 s
  | .streamShl a0 a1 a2 => Sys2Proof.Machine.execStreamShl a0 a1 a2 s
  | .streamShr a0 a1 a2 => Sys2Proof.Machine.execStreamShr a0 a1 a2 s
  | .streamSar a0 a1 a2 => Sys2Proof.Machine.execStreamSar a0 a1 a2 s
  | .streamSlt a0 a1 a2 => Sys2Proof.Machine.execStreamSlt a0 a1 a2 s
  | .streamSltu a0 a1 a2 => Sys2Proof.Machine.execStreamSltu a0 a1 a2 s
  | .streamSeq a0 a1 a2 => Sys2Proof.Machine.execStreamSeq a0 a1 a2 s
  | .streamMin a0 a1 a2 => Sys2Proof.Machine.execStreamMin a0 a1 a2 s
  | .streamMax a0 a1 a2 => Sys2Proof.Machine.execStreamMax a0 a1 a2 s
  | .streamMinu a0 a1 a2 => Sys2Proof.Machine.execStreamMinu a0 a1 a2 s
  | .streamMaxu a0 a1 a2 => Sys2Proof.Machine.execStreamMaxu a0 a1 a2 s
  | .streamAddi a0 a1 a2 => Sys2Proof.Machine.execStreamAddi a0 a1 a2 s
  | .streamSubi a0 a1 a2 => Sys2Proof.Machine.execStreamSubi a0 a1 a2 s
  | .streamMuli a0 a1 a2 => Sys2Proof.Machine.execStreamMuli a0 a1 a2 s
  | .streamMulhui a0 a1 a2 => Sys2Proof.Machine.execStreamMulhui a0 a1 a2 s
  | .streamAndi a0 a1 a2 => Sys2Proof.Machine.execStreamAndi a0 a1 a2 s
  | .streamOri a0 a1 a2 => Sys2Proof.Machine.execStreamOri a0 a1 a2 s
  | .streamXori a0 a1 a2 => Sys2Proof.Machine.execStreamXori a0 a1 a2 s
  | .streamShli a0 a1 a2 => Sys2Proof.Machine.execStreamShli a0 a1 a2 s
  | .streamShri a0 a1 a2 => Sys2Proof.Machine.execStreamShri a0 a1 a2 s
  | .streamSari a0 a1 a2 => Sys2Proof.Machine.execStreamSari a0 a1 a2 s
  | .streamSlti a0 a1 a2 => Sys2Proof.Machine.execStreamSlti a0 a1 a2 s
  | .streamSltui a0 a1 a2 => Sys2Proof.Machine.execStreamSltui a0 a1 a2 s
  | .streamSeqi a0 a1 a2 => Sys2Proof.Machine.execStreamSeqi a0 a1 a2 s
  | .streamMini a0 a1 a2 => Sys2Proof.Machine.execStreamMini a0 a1 a2 s
  | .streamMaxi a0 a1 a2 => Sys2Proof.Machine.execStreamMaxi a0 a1 a2 s
  | .streamMinui a0 a1 a2 => Sys2Proof.Machine.execStreamMinui a0 a1 a2 s
  | .streamMaxui a0 a1 a2 => Sys2Proof.Machine.execStreamMaxui a0 a1 a2 s
  | .streamMovi a0 a1 => Sys2Proof.Machine.execStreamMovi a0 a1 s
  | .streamMovhi a0 a1 => Sys2Proof.Machine.execStreamMovhi a0 a1 s
  | .srd a0 a1 => Sys2Proof.Machine.execSrd a0 a1 s
  | .streamHint a0 a1 a2 => Sys2Proof.Machine.execStreamHint a0 a1 a2 s
  | .ldq a0 a1 a2 a3 a4 => Sys2Proof.Machine.execLdq a0 a1 a2 a3 a4 s
  | .stq a0 a1 a2 a3 => Sys2Proof.Machine.execStq a0 a1 a2 a3 s
  | .fence a0 a1 a2 => Sys2Proof.Machine.execFence a0 a1 a2 s
  | .waitmb a0 a1 a2 => Sys2Proof.Machine.execWaitmb a0 a1 a2 s
  | .irq a0 a1 => Sys2Proof.Machine.execIrq a0 a1 s
  | .launch a0 a1 a2 a3 => Sys2Proof.Machine.execLaunch a0 a1 a2 a3 s
  | .launchp a0 a1 a2 a3 a4 a5 => Sys2Proof.Machine.execLaunchp a0 a1 a2 a3 a4 a5 s
  | .waite a0 a1 a2 => Sys2Proof.Machine.execWaite a0 a1 a2 s
  | .sige a0 a1 a2 a3 => Sys2Proof.Machine.execSige a0 a1 a2 a3 s
  | .sigeRemote a0 a1 a2 => Sys2Proof.Machine.execSigeRemote a0 a1 a2 s
  | .shpub a0 a1 => Sys2Proof.Machine.execShpub a0 a1 s
  | .shpubClr a0 => Sys2Proof.Machine.execShpubClr a0 s
  | .coll a0 a1 a2 => Sys2Proof.Machine.execColl a0 a1 a2 s
  | .deadline a0 a1 => Sys2Proof.Machine.execDeadline a0 a1 s
  | .prio a0 => Sys2Proof.Machine.execPrio a0 s
  | .tdecl a0 a1 => Sys2Proof.Machine.execTdecl a0 a1 s
  | .tfree a0 => Sys2Proof.Machine.execTfree a0 s
  | .tpin a0 a1 a2 => Sys2Proof.Machine.execTpin a0 a1 a2 s
  | .tunpin a0 a1 => Sys2Proof.Machine.execTunpin a0 a1 s
  | .trecOpen a0 a1 => Sys2Proof.Machine.execTrecOpen a0 a1 s
  | .tuse a0 a1 => Sys2Proof.Machine.execTuse a0 a1 s
  | .tprot a0 a1 => Sys2Proof.Machine.execTprot a0 a1 s
  | .streamMacro a0 a1 a2 => Sys2Proof.Machine.execStreamMacro a0 a1 a2 s
  | .mload a0 => Sys2Proof.Machine.execMload a0 s
  | .flashImageUpdate a0 a1 => Sys2Proof.Machine.execFlashImageUpdate a0 a1 s
  | .pcieConfigRequest a0 => Sys2Proof.Machine.execPcieConfigRequest a0 s
  | .functionLevelReset a0 => Sys2Proof.Machine.execFunctionLevelReset a0 s
  | .powerCapStepDown a0 => Sys2Proof.Machine.execPowerCapStepDown a0 s
  | .powerCapStepUp a0 => Sys2Proof.Machine.execPowerCapStepUp a0 s
  | .thermalStepDown a0 a1 => Sys2Proof.Machine.execThermalStepDown a0 a1 s
  | .thermalAlarm a0 a1 => Sys2Proof.Machine.execThermalAlarm a0 a1 s
  | .thermalTrip a0 a1 => Sys2Proof.Machine.execThermalTrip a0 a1 s
  | .modpwrReqAuto a0 a1 => Sys2Proof.Machine.execModpwrReqAuto a0 a1 s
  | .modpwrReqM2 a0 => Sys2Proof.Machine.execModpwrReqM2 a0 s
  | .modpwrReqM3 a0 => Sys2Proof.Machine.execModpwrReqM3 a0 s
  | .m2ExitStart a0 => Sys2Proof.Machine.execM2ExitStart a0 s
  | .registerWrite a0 a1 a2 a3 => Sys2Proof.Machine.execRegisterWrite a0 a1 a2 a3 s
  | .spgateWrite a0 a1 => Sys2Proof.Machine.execSpgateWrite a0 a1 s
  | .bankWakeComplete a0 a1 => Sys2Proof.Machine.execBankWakeComplete a0 a1 s
  | .llcwayWrite a0 a1 => Sys2Proof.Machine.execLlcwayWrite a0 a1 s
  | .llcWayDrained a0 => Sys2Proof.Machine.execLlcWayDrained a0 s
  | .fabricPacketDelivery a0 a1 a2 => Sys2Proof.Machine.execFabricPacketDelivery a0 a1 a2 s
  | .flitSend a0 a1 => Sys2Proof.Machine.execFlitSend a0 a1 s
  | .flitReceive a0 a1 => Sys2Proof.Machine.execFlitReceive a0 a1 s
  | .portRetrain a0 a1 => Sys2Proof.Machine.execPortRetrain a0 a1 s
  | .ngportWrite a0 a1 => Sys2Proof.Machine.execNgportWrite a0 a1 s
  | .portTrainingComplete a0 a1 => Sys2Proof.Machine.execPortTrainingComplete a0 a1 s
  | .routeSwitchRelease a0 a1 => Sys2Proof.Machine.execRouteSwitchRelease a0 a1 s
  | .remoteRequestTimeout a0 a1 => Sys2Proof.Machine.execRemoteRequestTimeout a0 a1 s
  | .hbmChannelRetrain a0 a1 a2 => Sys2Proof.Machine.execHbmChannelRetrain a0 a1 a2 s
  | .patrolScrub a0 a1 a2 => Sys2Proof.Machine.execPatrolScrub a0 a1 a2 s
  | .lpddrChannelRetrain a0 a1 => Sys2Proof.Machine.execLpddrChannelRetrain a0 a1 s
  | .peerReadCompletion a0 a1 a2 a3 => Sys2Proof.Machine.execPeerReadCompletion a0 a1 a2 a3 s
  | .peerReadTimeout a0 a1 => Sys2Proof.Machine.execPeerReadTimeout a0 a1 s
  | .apertureRead a0 a1 a2 => Sys2Proof.Machine.execApertureRead a0 a1 a2 s
  | .apertureWrite a0 a1 a2 => Sys2Proof.Machine.execApertureWrite a0 a1 a2 s
  | .apertureHeldWritePerform a0 => Sys2Proof.Machine.execApertureHeldWritePerform a0 s
  | .clusterMapWrite a0 a1 a2 => Sys2Proof.Machine.execClusterMapWrite a0 a1 a2 s
  | .partctlWrite a0 a1 => Sys2Proof.Machine.execPartctlWrite a0 a1 s
  | .ctxctlRun a0 a1 => Sys2Proof.Machine.execCtxctlRun a0 a1 s
  | .ctxctlStop a0 a1 => Sys2Proof.Machine.execCtxctlStop a0 a1 s
  | .contextStopComplete a0 => Sys2Proof.Machine.execContextStopComplete a0 s
  | .ctxctlKill a0 a1 => Sys2Proof.Machine.execCtxctlKill a0 a1 s
  | .contextKillComplete a0 => Sys2Proof.Machine.execContextKillComplete a0 s
  | .contextEndComplete a0 => Sys2Proof.Machine.execContextEndComplete a0 s
  | .macstatClear a0 a1 => Sys2Proof.Machine.execMacstatClear a0 a1 s
  | .hostDeclare a0 a1 => Sys2Proof.Machine.execHostDeclare a0 a1 s
  | .hostFree a0 a1 => Sys2Proof.Machine.execHostFree a0 a1 s
  | .msixUnmask a0 => Sys2Proof.Machine.execMsixUnmask a0 s
  | .measExtend a0 => Sys2Proof.Machine.execMeasExtend a0 s
  | .negotiateAlgorithms a0 => Sys2Proof.Machine.execNegotiateAlgorithms a0 s
  | .getCertificate a0 => Sys2Proof.Machine.execGetCertificate a0 s
  | .challenge a0 a1 => Sys2Proof.Machine.execChallenge a0 a1 s
  | .getMeasurements a0 a1 => Sys2Proof.Machine.execGetMeasurements a0 a1 s
  | .keyExchange a0 a1 a2 => Sys2Proof.Machine.execKeyExchange a0 a1 a2 s
  | .finish a0 a1 => Sys2Proof.Machine.execFinish a0 a1 s
  | .endSession a0 => Sys2Proof.Machine.execEndSession a0 s
  | .heartbeat a0 => Sys2Proof.Machine.execHeartbeat a0 s
  | .debugUnlock a0 a1 => Sys2Proof.Machine.execDebugUnlock a0 a1 s
  | .snapshotTriggerArrival a0 => Sys2Proof.Machine.execSnapshotTriggerArrival a0 s
  | .waitmbWake a0 => Sys2Proof.Machine.execWaitmbWake a0 s
  | .remoteSignalArrival a0 => Sys2Proof.Machine.execRemoteSignalArrival a0 s
  | .streamWaitWake a0 => Sys2Proof.Machine.execStreamWaitWake a0 s
  | .streamWaitLimit a0 => Sys2Proof.Machine.execStreamWaitLimit a0 s
  | .launchFailureDelivery a0 => Sys2Proof.Machine.execLaunchFailureDelivery a0 s
  | .launchQueueWaitEnd a0 => Sys2Proof.Machine.execLaunchQueueWaitEnd a0 s
  | .launchThresholdsMet a0 => Sys2Proof.Machine.execLaunchThresholdsMet a0 s
  | .launchResident a0 => Sys2Proof.Machine.execLaunchResident a0 s
  | .restoreWaitTimeout a0 => Sys2Proof.Machine.execRestoreWaitTimeout a0 s
  | .shareArrival a0 => Sys2Proof.Machine.execShareArrival a0 s
  | .dispatchRound a0 => Sys2Proof.Machine.execDispatchRound a0 s
  | .taskImageLoad a0 => Sys2Proof.Machine.execTaskImageLoad a0 s
  | .taskSaveComplete a0 => Sys2Proof.Machine.execTaskSaveComplete a0 s
  | .launchComplete a0 => Sys2Proof.Machine.execLaunchComplete a0 s
  | .preemptSoft a0 a1 => Sys2Proof.Machine.execPreemptSoft a0 a1 s
  | .preemptHard a0 a1 => Sys2Proof.Machine.execPreemptHard a0 a1 s
  | .deadlineOverrun a0 => Sys2Proof.Machine.execDeadlineOverrun a0 s
  | .partschedRelease a0 a1 => Sys2Proof.Machine.execPartschedRelease a0 a1 s
  | .holdQueuePauseTimeout a0 => Sys2Proof.Machine.execHoldQueuePauseTimeout a0 s
  | .substreamPreemptTimeout a0 => Sys2Proof.Machine.execSubstreamPreemptTimeout a0 s
  | .shapeSlotWrite a0 a1 a2 => Sys2Proof.Machine.execShapeSlotWrite a0 a1 a2 s
  | .trim a0 => Sys2Proof.Machine.execTrim a0 s
  | .evict a0 => Sys2Proof.Machine.execEvict a0 s
  | .optimisticCopyPass a0 => Sys2Proof.Machine.execOptimisticCopyPass a0 s
  | .swapPairExchange a0 => Sys2Proof.Machine.execSwapPairExchange a0 s
  | .restoreComplete a0 => Sys2Proof.Machine.execRestoreComplete a0 s
  | .substreamStart a0 => Sys2Proof.Machine.execSubstreamStart a0 s
  | .substreamComplete a0 => Sys2Proof.Machine.execSubstreamComplete a0 s
  | .dependentMaterialisation a0 => Sys2Proof.Machine.execDependentMaterialisation a0 s
  | .pageWalk a0 a1 => Sys2Proof.Machine.execPageWalk a0 a1 s
  | .rangeTableFill a0 a1 => Sys2Proof.Machine.execRangeTableFill a0 a1 s
  | .bounceApply a0 => Sys2Proof.Machine.execBounceApply a0 s
  | .hforceSpill a0 a1 => Sys2Proof.Machine.execHforceSpill a0 a1 s
  | .hforceCompress a0 a1 => Sys2Proof.Machine.execHforceCompress a0 a1 s
  | .hforceDrop a0 a1 => Sys2Proof.Machine.execHforceDrop a0 a1 s
  | .hrqselWrite a0 a1 => Sys2Proof.Machine.execHrqselWrite a0 a1 s
  | .bundleIssue a0 => Sys2Proof.Machine.execBundleIssue a0 s
  | .checkpoint a0 => Sys2Proof.Machine.execCheckpoint a0 s
  | .pauseEnd a0 => Sys2Proof.Machine.execPauseEnd a0 s
  | .landingArrival a0 a1 => Sys2Proof.Machine.execLandingArrival a0 a1 s
  | .rollback a0 => Sys2Proof.Machine.execRollback a0 s
  | .clusterRetirement a0 => Sys2Proof.Machine.execClusterRetirement a0 s
  | .scratchpadScrub a0 a1 a2 => Sys2Proof.Machine.execScratchpadScrub a0 a1 a2 s
  | .storeFaultUnresolved a0 => Sys2Proof.Machine.execStoreFaultUnresolved a0 s
  | .hingeReleasePerform a0 => Sys2Proof.Machine.execHingeReleasePerform a0 s
  | .engineCommandStart a0 a1 => Sys2Proof.Machine.execEngineCommandStart a0 a1 s
  | .engineLinePerform a0 a1 a2 => Sys2Proof.Machine.execEngineLinePerform a0 a1 a2 s
  | .weightBlockExpand a0 => Sys2Proof.Machine.execWeightBlockExpand a0 s
  | .deltaApply a0 => Sys2Proof.Machine.execDeltaApply a0 s
  | .dieFence a0 => Sys2Proof.Machine.execDieFence a0 s
  | .dieRebuild a0 => Sys2Proof.Machine.execDieRebuild a0 s
  | .dbctlMrebuild a0 => Sys2Proof.Machine.execDbctlMrebuild a0 s
  | .matrixCommandEnd a0 => Sys2Proof.Machine.execMatrixCommandEnd a0 s
  | .decodeTableComplete a0 a1 => Sys2Proof.Machine.execDecodeTableComplete a0 a1 s
  | .powerOn => Sys2Proof.Machine.execPowerOn s
  | .powerLoss => Sys2Proof.Machine.execPowerLoss s
  | .moduleReset => Sys2Proof.Machine.execModuleReset s
  | .hostPerst => Sys2Proof.Machine.execHostPerst s
  | .storagePerst => Sys2Proof.Machine.execStoragePerst s
  | .m1Entry => Sys2Proof.Machine.execM1Entry s
  | .m1Exit => Sys2Proof.Machine.execM1Exit s
  | .m2ExitComplete => Sys2Proof.Machine.execM2ExitComplete s
  | .getVersion => Sys2Proof.Machine.execGetVersion s
  | .getCapabilities => Sys2Proof.Machine.execGetCapabilities s
  | .getDigests => Sys2Proof.Machine.execGetDigests s
  | .tamperAlarm => Sys2Proof.Machine.execTamperAlarm s
  | .snapshotFire => Sys2Proof.Machine.execSnapshotFire s
  | .snapshotRearm => Sys2Proof.Machine.execSnapshotRearm s
  | .streamEnd => Sys2Proof.Machine.execStreamEnd s
  | .sethRemove => Sys2Proof.Machine.execSethRemove s
  | .streamEret => Sys2Proof.Machine.execStreamEret s
  | .streamEretSkip => Sys2Proof.Machine.execStreamEretSkip s
  | .nop => Sys2Proof.Machine.execNop s
  | .trecClose => Sys2Proof.Machine.execTrecClose s
  | .tend => Sys2Proof.Machine.execTend s
  | .eret => Sys2Proof.Machine.execEret s
  | .eretSkip => Sys2Proof.Machine.execEretSkip s
  | .fenceSvDie => Sys2Proof.Machine.execFenceSvDie s
  | .fenceSvModule => Sys2Proof.Machine.execFenceSvModule s
  | .yieldp => Sys2Proof.Machine.execYieldp s
  | .mmac => Sys2Proof.Machine.execMmac s
  | .mmact => Sys2Proof.Machine.execMmact s
  | .mbcast => Sys2Proof.Machine.execMbcast s
  | .mend => Sys2Proof.Machine.execMend s
  | .msync => Sys2Proof.Machine.execMsync s

end Sys2Proof.Machine
end

