-- ==== Sys2Proof/Machine/World.lean ====
section
/-!
DEFINITION. Sys2Proof/Machine/World.lean: the happenings that the opcode table has no row for (assumption 101): errors of the memories, of the cores
and of the caches as the spec's rules name them, and what the management domain and the other modules do.
-/

namespace Sys2Proof.Machine

/-- A core meets an uncorrectable accumulator or exponent word, or a residue mismatch of its matrix array or vector datapath: a detected
error of the bundle at its PC (R251, R289). -/
def coreError (c : Nat) (s : State) : State := if coreExists c then detect c codeDataUe s else s

/-- An uncorrectable read of a line of a die's L2, or of its slice of the LLC: the line's sectors are poisoned, in memory too once it is
written back, and the error log records it (R257, R54, R268). -/
def cacheError (die : Nat) (llc : Bool) (h line : Nat) (s : State) : State :=
  if 8 ≤ die ∨ isLost s die ∨ !isResident (trec s h) ∨ (trec s h).bytes ≤ 128 * line ∨ (llc ∧ hostDie s (handleDie h) ≠ die) then s
  else
    let x := freeNat s
    logErr (errEntry codeDataUe (if llc then 5 else 4) (64 * die) 0 false false false x.2 s.us) (poisonLoc x.1 (.glob h (128 * line)) 128)

/-- A ZX tile of a COMPRESSED tensor fails its checks as it is expanded: its sectors are filled poisoned (R191). -/
def tileError (h tile : Nat) (s : State) : State :=
  if (trec s h).state = .compressed ∧ 4096 * tile < (trec s h).bytes then spoil ((List.range 128).map (fun i => globKey h (4096 * tile) / 32 + i)) s else s

/-- What a happening does. Those of the dies need their clocks. -/
def happen (w : World) (s : State) : State :=
  match w with
  | .bootEnd ok => bootEnds ok s
  | .spdmVia tr => requestsVia tr s
  | .debugChallenge => giveChallenge s
  | .ioDieError => ioDieError s
  | .servedRead fn i => if clocksRun s then apServeHeld fn i s else s
  | .upset q two => if clocksRun s then upset q two s else s
  | .retried m n => if clocksRun s then retried m n s else s
  | .coreError c => if clocksRun s then coreError c s else s
  | .cacheError d llc h l => if clocksRun s then cacheError d llc h l s else s
  | .tileError h t => if clocksRun s then tileError h t s else s
  | .rebuiltRecord h r q => if clocksRun s then rebuildRec h r q s else s
  | .rebuiltPage h i b => if clocksRun s then rebuildSlot h i b s else s
  | .rebuildEnd => if clocksRun s then endMrebuild s else s

end Sys2Proof.Machine
end

