-- ==== Sys2Proof/Machine/Turns.lean ====
section
/-!
DEFINITION. Sys2Proof/Machine/Turns.lean: what a turn of the agenda comes to (assumption 3): the instruction an actor fetches, or the
event; what the power state lets act (R22, R25); and how an instruction's bytes are placed where the next step fetches them.
-/

namespace Sys2Proof.Machine

/-! ### What may act (R22-R25, R79) -/

/-- Which events happen with the module in a state: those of the management domain at any time, those of the host port and the
links while the module is started and not in M3, and those that need the dies' clocks in M0 and M1. -/
inductive EventClass where
  | always | port | clocked
  deriving DecidableEq, Repr

/-- The class of an event. -/
def eventClass : Instr → EventClass
  | .powerOn | .flashImageUpdate _ _ | .powerLoss | .moduleReset | .hostPerst | .storagePerst => .always
  | .thermalStepDown _ _ | .thermalAlarm _ _ | .thermalTrip _ _ | .modpwrReqAuto _ _ | .pcieConfigRequest _ | .registerWrite _ _ _ _ => .always
  | .measExtend _ | .getVersion | .getCapabilities | .negotiateAlgorithms _ | .getDigests | .getCertificate _ | .challenge _ _ => .always
  | .getMeasurements _ _ | .keyExchange _ _ _ | .finish _ _ | .endSession _ | .heartbeat _ | .tamperAlarm | .debugUnlock _ _ => .always
  | .powerCapStepDown _ | .powerCapStepUp _ | .modpwrReqM2 _ | .modpwrReqM3 _ | .m1Entry | .m1Exit | .m2ExitStart _ | .m2ExitComplete => .port
  | .hostDeclare _ _ | .hostFree _ _ | .clusterMapWrite _ _ _ | .partctlWrite _ _ | .partschedRelease _ _ | .preemptSoft _ _ | .preemptHard _ _ => .port
  | .apertureRead _ _ _ | .apertureWrite _ _ _ | .ctxctlRun _ _ | .ctxctlStop _ _ | .ctxctlKill _ _ | .macstatClear _ _ | .msixUnmask _ => .port
  | .functionLevelReset _ | .snapshotFire | .snapshotRearm | .flitSend _ _ | .flitReceive _ _ | .portRetrain _ _ | .ngportWrite _ _ => .port
  | .portTrainingComplete _ _ | .routeSwitchRelease _ _ | .hrqselWrite _ _ | .hforceSpill _ _ | .hforceCompress _ _ | .hforceDrop _ _ => .port
  | .spgateWrite _ _ | .llcwayWrite _ _ | .shapeSlotWrite _ _ _ | .dieFence _ | .dbctlMrebuild _ => .port
  | _ => .clocked

/-- Whether an event happens now. -/
def mayHappen (s : State) (i : Instr) : Bool :=
  match eventClass i with
  | .always => true
  | .port => isUp s && s.mod.power.state != .m3
  | .clocked => clocksRun s

/-- The access of the host that an event is, where it names the aperture or a register held in a die (R25). -/
def hostAccess : Instr → Option HostAccess
  | .apertureRead fn x n => some (.apRead fn x n)
  | .apertureWrite fn x b => some (.apWrite fn x b)
  | .ctxctlRun c v => some (.write (0x20000 + 0x400 * c) 8 (BitVec.ofNat 64 (withBits v.toNat 0 2 1)))
  | .ctxctlStop c v => some (.write (0x20000 + 0x400 * c) 8 (BitVec.ofNat 64 (withBits v.toNat 0 2 0)))
  | .ctxctlKill c v => some (.write (0x20000 + 0x400 * c) 8 (BitVec.ofNat 64 (withBits v.toNat 1 1 1)))
  | .macstatClear c v => some (.write (0x20018 + 0x400 * c) 8 v)
  | .hrqselWrite d v => some (.write (0x80C8 + 0x200 * d) 8 v)
  | .hforceSpill d v => some (.write (0x8180 + 0x200 * d) 8 (BitVec.ofNat 64 (withBits v.toNat 24 2 1)))
  | .hforceCompress d v => some (.write (0x8180 + 0x200 * d) 8 (BitVec.ofNat 64 (withBits v.toNat 24 2 2)))
  | .hforceDrop d v => some (.write (0x8180 + 0x200 * d) 8 (BitVec.ofNat 64 (withBits v.toNat 24 2 3)))
  | .spgateWrite c v => some (.write (0x301000 + 0x40 * c) 8 v)
  | .llcwayWrite d v => some (.write (0x300000 + 8 * d) 4 (v.setWidth 64))
  | _ => none

/-- An event as it happens: in M2 an access that needs a die starts the exit and is held. -/
noncomputable def eventNow (s : State) (i : Instr) : Option Instr :=
  if !mayHappen s i then none
  else if s.mod.power.state = .m2 then (match hostAccess i with | some a => some (.m2ExitStart a) | none => some i)
  else some i

/-! ### What an actor runs -/

/-- The slot position at which an instruction word alone is the bundle's only slot. -/
def soleSlot (p : Nat) : Bool := p == 0 || p == 1 || p == 3 || p == 4 || p == 6 || p == 7 || p == 8

/-- A core's turn: a bundle of one slot is that slot's instruction; any other is issued as a whole. -/
noncomputable def coreTurn (c : Nat) (s : State) : State × Option Instr :=
  let g := groupOf s c
  let lead := g.headD c
  if (taskOf s c).isNone then (s, none)
  else match fetchBundle s lead with
  | .ok (hdr, [(p, w)]) =>
    (match decodeSlot p w with
    | .ok i => if soleSlot p then (setHeader g hdr [w] { s with curCore := c }, some i) else (s, some (.bundleIssue c))
    | .error _ => (s, some (.bundleIssue c)))
  | _ => (s, some (.bundleIssue c))

/-- A sub-stream that has left its recipe's range ends: at the end of the range, or by a failure (R131). -/
def subEnds (c h : Nat) (s : State) : Option State :=
  match recipeOf s h with
  | none => some (failSub h (updCtx s c (fun x => { x with state := .ended })))
  | some r =>
    let pc := (ctx s c).pc.toNat
    if pc = r.hi then some (updCtx s c (fun x => { x with state := .ended }))
    else if pc < r.lo ∨ r.hi < pc then some (failSub h (updCtx s c (fun x => { x with state := .ended })))
    else none

/-- A context drops the pins that re-issues have left to it, but for those that `keep` names and those of its STQs (R197). -/
def dropHolds (keep : Nat → Bool) (c : Nat) (s : State) : State :=
  let l := (ctx s c).holds.filter (fun x => x.1.isNone && !keep x.2)
  if l = [] then s
  else l.foldl (fun s x => unpin x.2 s) (updCtx s c (fun x => { x with holds := x.holds.filter (fun y => y.1.isSome || keep y.2) }))

/-- What a context does with what it fetched. -/
def onFetched (c : Nat) (s : State) (f : Fetched) : State × Option Instr :=
  match f with
  | .instr i => ({ (if (ctx s c).woken then s else dropHolds (fun _ => false) c s) with curCtx := c }, some i)
  | .fault code info len => (streamFault c code info len [] s, none)
  | .wait h => (askWait c (.fetch h) (beginWait c (.fetch h) s), none)

/-- A context's turn: a launch failure is delivered before the next instruction (R97). -/
noncomputable def ctxTurn (c : Nat) (s : State) : State × Option Instr :=
  let x := ctx s c
  if 96 ≤ c then (s, none)
  else if x.fails ≠ [] ∧ x.wait.isNone ∧ x.woken = false ∧ x.sub.isNone ∧ (x.state = .running ∨ x.state = .stopping) then (s, some (.launchFailureDelivery c))
  else if !executes x then (s, none)
  else match x.sub with
  | none => onFetched c s (fetchStream s c)
  | some h => match subEnds c h s with | some s => (s, none) | none => onFetched c s (fetchStream s c)

/-- What an actor does: a state it is prepared in, and the instruction it runs, if any. -/
noncomputable def actorTurn (a : Actor) (s : State) : State × Option Instr :=
  match a with
  | .event i => (s, eventNow s i)
  | .read via off n => (registerRead via off n s, none)
  | .world w => (happen w s, none)
  | .core c => if clocksRun s then coreTurn c s else (s, none)
  | .ctx c => if clocksRun s then ctxTurn c s else (s, none)
  | .micro c => if clocksRun s then ({ s with curCore := c }, microNow s c) else (s, none)

/-! ### What the hardware keeps in view between turns -/

/-- Whether the instruction or the fetch for which a re-issue was made has still to use the tensor (R197). -/
def stillUses (x : Ctx) (h : Nat) : Bool :=
  match x.wait with
  | some (.event _ _) | some .queue | some .close | some (.free _) => false
  | some _ => x.state == .running || x.state == .waiting
  | none => (x.state == .running || x.state == .waiting) && (x.woken || h == ptrH x.code)

/-- Whether a tensor's restore lacks room on a die that has no unpinned victim (R145). -/
def noVictim (s : State) (h : Nat) : Bool :=
  (hasp s (handleDie h)).moves.any (fun m => m.h == h && m.restore && !restoreRoom s m && (swapPartner s m).isNone) &&
  !s.recs.cells.any (fun x => handleDie x.1 == handleDie h && x.2.state == .hbm && !isPinned s x.1)

/-- The locks in force on a die. -/
def dieLocks (s : State) (d : Nat) : Nat := ((heldLocks s).filter (fun r => handleDie r.1 == d)).length

/-- The restores that a launch in WAIT_RES waits for and that find no victim, with the time of the last lock dropped on their die. -/
def roomWaits (s : State) (x : Launch) : List (Nat × Nat × Nat) :=
  if x.state ≠ .waitRes then []
  else ((neededTensors x).filter (noVictim s)).map (fun h =>
    let n := dieLocks s (handleDie h)
    match x.roomUs.find? (fun e => e.1 == h) with
    | some e => if n < e.2.2 then (h, s.us, n) else (h, e.2.1, n)
    | none => (h, s.us, n))

/-- The launches keep in view the restores that find no victim (R145). -/
def observeRooms (s : State) : State :=
  s.launches.cells.foldl (fun s x =>
    let v := roomWaits s x.2
    if v = x.2.roomUs then s else updLaunch s x.1 (fun x => { x with roomUs := v })) s

/-- The dispatchers keep in view since when a provisional task has paused for its truth while a share had no core (R167). -/
def observeCores (s : State) : State :=
  s.cores.cells.foldl (fun s x =>
    let v := if awaitsTruth s x.1 && isFull s (coreCluster x.1) then some (x.2.b.stuck.getD s.clk) else none
    if v = x.2.b.stuck then s else updBody s x.1 (fun b => { b with stuck := v })) s

/-- The dispatchers keep in view since when a share of a sub-stream has found no core (R168). -/
def observeShares (s : State) : State :=
  let waits : Share → Bool := fun h => h.sub && dispatchable s h && noCoreAnywhere s h.launch
  s.disps.cells.foldl (fun (s : State) (d : Nat × Dispatcher) =>
    let v : List Share := d.2.shares.map (fun h => if h.since = s.us ∨ waits h = true then h else { h with since := s.us })
    if v = d.2.shares then s else updDisp s d.1 (fun x => { x with shares := v })) s

/-- A host declaration or free under way goes on (R74). -/
def observeHost (s : State) : State :=
  (List.range 8).foldl (fun s p => if (partOf s p).hdreq.isSome ∧ clocksRun s then hdRun p s else s) s

/-- What the hardware keeps in view between two turns: host requests under way, the pins that a context has done with, and what has lasted until now. -/
def observe (s : State) : State :=
  observeShares (observeCores (observeRooms ((s.ctxs.cells.map (·.1)).foldl (fun s c => if (ctx s c).holds = [] then s else dropHolds (stillUses (ctx s c)) c s) (observeHost s))))

/-- Time passes before a turn; the core clock stands still while the dies' clocks do. -/
def passTime (us clks : Nat) (s : State) : State := { s with us := s.us + us, clk := s.clk + (if clocksRun s then clks else 0) }

/-! ### Placing an instruction -/

/-- The task that runs on core 0 for a placed bundle word. -/
def placedTask : Task :=
  let t : Task := { launch := 0, part := 0, ctx := 0, cls := 2, step := 0, lin := 0, x := 0, y := 0, z := 0, slot := 0, group := false, prov := false, tail := false, persist := false, limit := 2 ^ 40, start := 0, excl := 0, savedAt := 0, stage := .running, image := none }
  { t with image := some { handle := 1, gen := 0, codeOff := 0, codeLen := 8, constOff := 0, constLen := 0 } }

/-- Place a bundle of one word at a slot position. -/
def placeSlot (p w : Nat) (s : State) : State :=
  let s := updBody s 0 (fun b => { b with task := some placedTask, r := { b.r with pc := globalPtr 1 0 } })
  { s with mem := s.mem.setBytes (storeKey 0 0) (leBytes (0xB4000000 + 2 ^ p) 4 ++ leBytes w 4), agenda := [{ us := 0, clks := 0, actor := .core 0 }] }

/-- Place a stream word, with extension words of zeros, as the code of context 0. -/
def placeStream (w : Nat) (s : State) : State :=
  let s := updRec s 1 (fun r => { r with state := .hbm, bytes := 32 })
  let s := updCtx s 0 (fun x => { x with state := .running, run := true, code := globalPtr 1 0, pc := 0 })
  { s with mem := s.mem.setBytes (globKey 1 0) (leBytes w 8 ++ List.replicate 24 0), agenda := [{ us := 0, clks := 0, actor := .ctx 0 }] }

/-- Place a micro-word as the first of the program routine (R436) that core 0's matrix engine runs. -/
def placeMicro (w : Nat) (s : State) : State :=
  let st : MicroState := { upc := 512, mw := .empty, mc := [1, 1, 1, 1], mc0 := [1, 1, 1, 1], g := 0, rc := 0, pa := [], pb := [], sa := [], sb := [], rot := false, sync := false, bad := 0 }
  let m : MxCmd := { op := 1, et := .i8, tok := 0, ins := [], snap := List.replicate 12 0, pc := 0, vcc := 0, started := true, micro := some st, after := [], orphan := false, fault := none, who := issuerOf s 0 }
  let s := updBody s 0 (fun b => { b with micro := b.micro.set 0 512 (BitVec.ofNat 64 w), mxQ := [m] })
  { s with agenda := [{ us := 0, clks := 0, actor := .micro 0 }] }

/-- The first slot position whose map claims a word, in the order of `decodeTableWord`. -/
def claimingSlot (w : Nat) : Nat :=
  match [0, 1, 3, 4, 8, 6, 7].find? (fun p => match decodeSlot p w with | .ok _ => true | .error _ => false) with
  | some p => p
  | none => 0

/-- Place the instruction of a word of the opcode table where the next step fetches it. -/
noncomputable def placeWord (nbits w : Nat) (s : State) : State :=
  if nbits = 32 then placeSlot (claimingSlot w) w s
  else match decodeStream w [0, 0, 0] with
  | .ok _ => placeStream w s
  | .error _ => placeMicro w s

end Sys2Proof.Machine
end

