-- ==== Sys2Proof/Machine/Step.lean ====
section
/-!
DEFINITION. Sys2Proof/Machine/Step.lean: one step of the machine: the next turn of the agenda (assumption 3).
-/

namespace Sys2Proof.Machine

/-- One step: what the hardware keeps in view is brought up to now (`observe`), time passes, and the turn's actor runs its next instruction, or its event happens. With no turn left a core clock
passes. -/
noncomputable def step (s : State) : Host.Outcome State Fault Refusal :=
  match s.agenda with
  | [] => .next (passTime 0 1 (observe s))
  | t :: rest =>
    match actorTurn t.actor (passTime t.us t.clks (observe { s with agenda := rest })) with
    | (s, some i) => exec i s
    | (s, none) => .next s

/-- The state with an instruction of the opcode table placed where the next step fetches it. -/
noncomputable def State.withFetchWord (s : State) (nbits w : Nat) : State := placeWord nbits w s

end Sys2Proof.Machine
end

