-- ==== Sys2Proof/Safety.lean ====
section
/-!
DEFINITION. Sys2Proof/Safety.lean: the terms the statements are made in: a step that goes on, a core or lockstep group that is
ready to issue the bundle at its PC, the state such a bundle leaves, and a context that is ready to execute an instruction.
-/

namespace Sys2Proof.Safety

open Sys2Proof.Machine

/-- A step that goes on: it answers a next state, and neither a fault of the machine nor a refusal. -/
def GoesOn (s : State) : Prop := ∃ t, step s = .next t

/-! ### Bundles -/

/-- The cores that issue the bundle of the core a step names: the core alone, or its lockstep group (R273). -/
def issuers (s : State) : List Nat := groupOf s s.curCore

/-- The leading core of the issuers (R273). -/
def lead (s : State) : Nat := (issuers s).headD s.curCore

/-- The state whose registers the bundle reads: every result that is due has been written (R274, R278). -/
def settled (s : State) : State := onCores (fun q s => updBody s q settle) (issuers s) s

/-- Nothing keeps the bundle at PC from issuing: a task runs on every issuer, no pause, detected error or refetched command holds
it (R252, R279); no deferred fault, late data or write conflict stands before it (R237, R275, R278); the checkpoint of a
checkpoint bundle has been performed (R249); and no landing brings poison (R256). -/
def Ready (s : State) : Prop :=
  canIssue s s.curCore = true ∧ ahead s (issuers s) = .clear ∧
  ((coreAt s (lead s)).b.hdrCkpt = true → (coreAt s (lead s)).b.ckptDone = true) ∧
  ∀ q ∈ issuers s, (coreAt (settled s) q).b.detected = none

/-- What a slot's operation makes of the issuers: `k` on each core in turn, reading the settled state. -/
def slotDone (k : Nat → State → State → State) (s : State) : State := (issuers s).foldl (fun t q => k q (settled s) t) (settled s)

/-- The state after a bundle of one operation: the operation on every issuer, then the next bundle, the VCC and the running
sums (R272, R353, R355). -/
def issued (k : Nat → State → State → State) (s : State) : State := finishBundle (issuers s) (settled s) (slotDone k s)

/-- The state after a bundle of one CTL operation, which the leading core evaluates for its group (R350). -/
def issuedLead (k : Nat → State → State → State) (s : State) : State :=
  finishBundle (issuers s) (settled s) (k (lead s) (settled s) (settled s))

/-- The instruction, alone in its bundle, writes value `v q o` of the settled state `o` on each issuer `q` into scalar register `d`
`lat` cycles later, and does nothing else. -/
def GivesS (i : Instr) (s : State) (d : BitVec 6) (lat : Nat) (v : Nat → State → Word) : Prop :=
  exec i s = .next (issued (fun q o t => resultS q d.toNat (v q o) lat t) s)

/-- The same for a vector register. -/
def GivesV (i : Instr) (s : State) (d : BitVec 6) (lat : Nat) (v : Nat → State → Vec) : Prop :=
  exec i s = .next (issued (fun q o t => resultV q d.toNat (v q o) lat t) s)

/-- The same for a mask register. -/
def GivesK (i : Instr) (s : State) (d : BitVec 4) (lat : Nat) (v : Nat → State → Mask) : Prop :=
  exec i s = .next (issued (fun q o t => resultK q d.toNat (v q o) lat t) s)

/-- The same for any destination: a part of an engine's shadow register, a scale register, a merge register. -/
def Gives (i : Instr) (s : State) (dst : Dst) (lat : Nat) (v : Nat → State → BitVec 1024) : Prop :=
  exec i s = .next (issued (fun q o t => result q dst (v q o) lat t) s)

/-- The instruction writes each active element of vector register `d` (R391): element `i` takes the bits of `f q o i`, whose sticky
bits NUMSTAT collects; an inactive element keeps what it held. -/
def GivesLanes (i : Instr) (s : State) (d : BitVec 6) (k : BitVec 4) (e : Fmt) (lat : Nat) (f : Nat → State → Nat → Rnd) : Prop :=
  exec i s = .next (issued (fun q o t => mapLanes q o t d.toNat k e lat (f q o)) s)

/-- The same for an operation that is exact and sets no sticky bit. -/
def GivesExact (i : Instr) (s : State) (d : BitVec 6) (k : BitVec 4) (e : Fmt) (lat : Nat) (f : Nat → State → Nat → Nat) : Prop :=
  exec i s = .next (issued (fun q o t => mapExact q o t d.toNat k e lat (f q o)) s)

/-- The instruction writes every byte bit of each element of mask register `d` (R395): those of an active element hold the truth of
`f q o i`, whose sticky bits NUMSTAT collects, and those of an inactive element are zero (R391). -/
def GivesMask (i : Instr) (s : State) (d : BitVec 4) (k : BitVec 4) (e : Fmt) (lat : Nat) (f : Nat → State → Nat → Bool × Nat) : Prop :=
  exec i s = .next (issued (fun q o t =>
    let r := fun (j : Nat) => if active o q k e.width j then f q o j else (false, 0)
    setFlags q ((List.range (lanes e)).foldl (fun x j => fOr x (r j).2) 0)
      (resultK q d.toNat (maskOf e.width (lanes e) (fun j => (r j).1)) lat t)) s)

/-- No error of ERRINJ is armed on any core (R458). -/
def NoInjection (s : State) : Prop := ∀ q, bitAt (s.mod.errinj.get 0 q).toNat 0 = false

/-- A CTL transfer to `t` is taken on the leading core: the next bundle issued is the one at `t` (R353). -/
def takes (t : Word) (c : Nat) (u : State) : State := updBody u c (fun b => { b with taken := some t })

/-! ### Operations of the rules -/

/-- The carry-less product: the XOR over every set bit `i` of `b` of `a` shifted left by `i` (R367). -/
def carryless (a b : Word) : BitVec 128 :=
  (List.range 64).foldl (fun p i => if b.getLsbD i then p ^^^ (a.setWidth 128 <<< i) else p) 0

/-- The clear bits of `a` above its highest set bit (R368). -/
def leadingZeros (a : Word) : Nat := ((List.range 64).takeWhile (fun i => !a.getLsbD (63 - i))).length

/-- The clear bits of `a` below its lowest set bit (R368). -/
def trailingZeros (a : Word) : Nat := ((List.range 64).takeWhile (fun i => !a.getLsbD i)).length

/-- The set bits of `a` (R368). -/
def setBits (a : Word) : Nat := ((List.range 64).filter a.getLsbD).length

/-- The slot of a core's task. -/
def slotOf (s : State) (q : Nat) : Nat := match taskOf s q with | some t => t.slot | none => 0

/-- The window number of a pointer, 8 for every global one. -/
def windowOf (p : Nat) : Nat := if bitAt p 63 then 8 else bitsOf p 60 4

/-- What SPTEST says of a pointer on a core (R369): the window, and the checks of a 1-byte load that fail. -/
def SptestSays (q : Nat) (o : State) (p v : Nat) : Prop :=
  v % 16 = windowOf p ∧ v < 2048 ∧
  (bitAt v 4 = true ↔ windowOf p = 3 ∨ windowOf p = 5 ∨ windowOf p = 6 ∨ windowOf p = 7) ∧
  (bitAt v 5 = true ↔ (windowOf p = 0 ∧ (bitsOf p 51 9 ≠ q ∨ bitsOf p 46 5 ≠ slotOf o q)) ∨ (windowOf p = 1 ∧ bitsOf p 51 9 ≠ q)) ∧
  (bitAt v 6 = true ↔ (windowOf p = 1 ∧ bitsOf p 22 29 ≠ 0) ∨ (windowOf p = 2 ∧ bitsOf p 24 36 ≠ 0)) ∧
  (bitAt v 7 = true ↔ (windowOf p = 0 ∧ 0x4000 ≤ bitsOf p 0 46) ∨ ((windowOf p = 1 ∨ windowOf p = 2) ∧ 0x380000 ≤ bitsOf p 0 22)) ∧
  (bitAt v 8 = true ↔ (windowOf p = 1 ∧ owned o (bitsOf p 51 9) (bitsOf p 0 22) 1 (coreCic q) = true) ∨
    (windowOf p = 2 ∧ owned o (clusterCore (coreCluster q) (bitsOf p 22 2)) (bitsOf p 0 22) 1 (coreCic q) = true)) ∧
  (bitAt v 9 = true ↔ windowOf p = 8 ∧ ∀ x ∈ taskOps o q, opHandle x ≠ bitsOf p 40 23) ∧
  (bitAt v 10 = true ↔ windowOf p = 4 ∧ routeFor o (taskPart o q) (bitsOf p 0 60) 1 = none)

/-- SPCAST.SP on a core (R370): the pointer in the scratchpad window, INVALID where there is none. -/
def castToScratchpad (q : Nat) (p : Word) : Word :=
  let x := p.toNat
  if bitsOf x 60 4 = 1 then p
  else if bitsOf x 60 4 = 2 ∧ bitsOf x 24 36 = 0 then BitVec.ofNat 64 (1 * 2 ^ 60 + (q / 4 * 4 + bitsOf x 22 2) * 2 ^ 51 + bitsOf x 0 22)
  else ptrInvalid

/-- SPCAST.CL on a core (R370). -/
def castToCluster (q : Nat) (p : Word) : Word :=
  let x := p.toNat
  if bitsOf x 60 4 = 2 then p
  else if bitsOf x 60 4 = 1 ∧ bitsOf x 22 29 = 0 ∧ bitsOf x 53 7 = q / 4 then BitVec.ofNat 64 (2 * 2 ^ 60 + bitsOf x 51 2 * 2 ^ 22 + bitsOf x 0 22)
  else ptrInvalid

/-- The width of the offset field of a pointer (R372); zero for a reserved window. -/
def offsetWidth (p : Nat) : Nat :=
  match windowOf p with | 0 => 46 | 1 => 22 | 2 => 22 | 4 => 60 | 8 => 40 | _ => 0

/-- PADD's result (R372). -/
def displaced (p : Word) (x : Int) : Word :=
  let w := offsetWidth p.toNat
  let sum : Int := (p.toNat % 2 ^ w : Nat) + x
  if w = 0 ∨ sum < 0 ∨ 2 ^ w ≤ sum then ptrInvalid else BitVec.ofNat 64 (p.toNat / 2 ^ w * 2 ^ w + sum.toNat)

/-- What a comparison of two elements finds (R395): integer elements by their type; floating ones as IEEE values, where a NaN makes it
`unordered`, a signalling NaN sets NV, and a quiet one does too for the ordered relations. -/
def compared (rel : Int → Int → Prop) [DecidableRel rel] (unordered quietToo : Bool) (e : Fmt) (x y : Nat) : Bool × Nat :=
  if e.isInt then (decide (rel (eVal e x) (eVal e y)), 0)
  else
    let a := fdec (ffOf e) x
    let b := fdec (ffOf e) y
    if isNaN a || isNaN b then (unordered, if isSig a || isSig b || quietToo then fNV else 0) else (decide (rel (fcmp a b) 0), 0)

/-- An exact result as a lane's value. -/
def lane (x : Nat) : Rnd := { bits := x, flags := 0 }

/-- The merge of R404, from element `i` of `a` and `j` of `b`: `n` outputs with their source. -/
def mergeFrom (e : Fmt) (a b : Nat → Nat) : Nat → Nat → Nat → List (Nat × Bool)
  | 0, _, _ => []
  | n + 1, i, j =>
    if j = 16 ∨ (i < 16 ∧ ¬ eVal e (b j) < eVal e (a i)) then (a i, false) :: mergeFrom e a b n (i + 1) j
    else (b j, true) :: mergeFrom e a b n i (j + 1)

/-- Output lane `t` of a selection by the bits of `src` (R405), the sources counted from `ia` and `ib`; a source index of sixteen or
more gives zero. -/
def payload (src : Nat) (a b : Nat → Nat) (ia ib t : Nat) : Nat :=
  let m := ((List.range t).filter (bitAt src)).length
  let n := if bitAt src t then ib + m else ia + (t - m)
  if n < 16 then (if bitAt src t then b n else a n) else 0

/-! ### Accesses -/

/-- An access of `n` bytes by a core at a pointer reaches place `l`: every check of R207 passes. -/
def Reaches (o : State) (q : Nat) (p : Word) (n align : Nat) (win : Windows) (wr : Bool) (l : Loc) : Prop := access o q p n align win wr = .ok l

/-- The same, where the bytes can be read at once: the banks are READY (R27), and what the core sees of them, its own stores included (R230), is
not poisoned (R256). -/
def Readable (o : State) (q : Nat) (p : Word) (n align : Nat) (win : Windows) (wr : Bool) (l : Loc) : Prop :=
  Reaches o q p n align win wr l ∧ bankReady o l n = true ∧ poisoned (seen o q) l n = false

/-- The commit queue of a core takes an entry (R223), with the bundle that made it. -/
def queued (q : Nat) (o : State) (body : CBody) (t : State) : State :=
  updBody t q (fun b => { b with commitQ := b.commitQ ++ [{ body := body, pc := (coreAt o q).b.r.pc, vcc := (coreAt o q).b.r.vcc }] })

/-- The provisional hold queue of a core takes an entry (R164). -/
def heldBack (q : Nat) (o : State) (body : CBody) (t : State) : State :=
  updBody t q (fun b => { b with holdQ := b.holdQ ++ [{ body := body, pc := (coreAt o q).b.r.pc, vcc := (coreAt o q).b.r.vcc }] })

/-- A landing request (R277): the register it is for, the access and the due cycle, under the number `t.nextId`. -/
def awaiting (q : Nat) (dst : Dst) (p : Word) (n due : Nat) (resp : Option (BitVec 1024 × Bool)) (held : Bool) (t : State) : State :=
  updRegs { t with nextId := t.nextId + 1 } q (fun r =>
    { r with lands := r.lands ++ [{ id := t.nextId, dst := dst, ptr := p, n := n, due := due, resp := resp, data := none, held := held }] })

/-- A landing request whose access goes out as a packet, behind the accesses that `after` names. -/
def requested (q : Nat) (o : State) (dst : Dst) (p : Word) (l : Loc) (n due : Nat) (op : Nat → AccessOp) (after : List Nat) (t : State) : State :=
  post q (awaiting q dst p n due none false t) p l (op t.nextId) (ownerCtx o q) (entryNow o q (.access p l (op t.nextId))) after

/-- A landing request for the old value of an atomic of the core's own scratchpad, performed at issue (R230). -/
def answered (q : Nat) (dst : Dst) (p : Word) (l : Loc) (n due : Nat) (op : Nat → AccessOp) (t : State) : State :=
  let r := applyOp t l (op t.nextId) (putFlat l)
  awaiting q dst p n due r.2 false r.1

/-- A core has room for a landing request (R277). -/
def CanLand (o : State) (q : Nat) : Prop := landEntries o q < landLimit ∧ outstanding o q < 8192

/-- The place is in the core's own storages. -/
def isOwn (q : Nat) (l : Loc) : Bool := match l with | .flat k => (k - 2 ^ 60) / 2 ^ 51 == q | _ => false

/-- No store, load or atomic of the core to any of `n` bytes at a place is still on its way (R231). -/
def Settled (o : State) (q : Nat) (l : Loc) (n : Nat) : Prop := pendingTo o q l n = false

/-! ### Engines -/

/-- What an MX word must satisfy to enter its engine (R339, R420, R421, R426, R434, R435), outside a rerun: a token that is not live, a
staging the command accepts, a store range it may write, a join where it needs one, a region within the bank whose spill slots are
free, fewer than sixteen commands queued, and no weight block waiting for its table (R292). -/
def MxAccepts (o : State) (q op : Nat) (et : Fmt) (tout : BitVec 6) (sw : Bool) : Prop :=
  let b := (coreAt o q).b
  let x := snapM b.r sw
  tokLive o q tout.toNat = false ∧ mxIllegal b op et x = false ∧
  (op = 9 → 512 ≤ mxUword x ∧ mxUword x + mxUcount x ≤ 1024 ∧ (mxWent x = true → 32 ≤ mxEntry x)) ∧
  (op = 2 → isGroup o q = true) ∧ (op = 1 → mxJoint x = true → b.r.joined = true) ∧
  (op = 1 ∨ 4 ≤ op ∧ op ≤ 8 → mxOut op x = false ∧ mxBankBad q o (newMx (cmdNow o q 6 op et tout.toNat x) [] [] none) = false) ∧
  b.mxQ.length < 16 ∧ tableStall o q = false ∧ b.check = none

/-- The tokens of a word that were live, which its command waits for. -/
def waitsOn (o : State) (q : Nat) (tout : BitVec 6) (l : List (BitVec 6)) : List Nat := (tokIns tout.toNat (l.map (·.toNat))).filter (tokLive o q)

/-- The accesses of a core to its own storages that have not performed, which a command issued later follows (R230). -/
def ownFirst (o : State) (q : Nat) : List Nat := (ownPend o q).map (fun p => p.id)

/-- The fault of the first token of a word whose command ended FAULT (R248). -/
def faultsOn (o : State) (q : Nat) (tout : BitVec 6) (l : List (BitVec 6)) : Option (BitVec 8) :=
  ((tokIns tout.toNat (l.map (·.toNat))).filter (fun t => (tokRec o q t).used && (tokRec o q t).status == .fault)).head?.map (fun t => (tokRec o q t).code)

/-- The record of the token of a command that has entered its engine (R247, R421). -/
def entered (o : State) (q : Nat) (engine : BitVec 4) (x : List Word) : TokenRec :=
  { used := true, status := .pending, code := 0, short := false, tout := false, engine := engine, progress := 0, pc := (coreAt o q).b.r.pc,
    vcc := BitVec.ofNat 48 (coreAt o q).b.r.vcc, snap := x, taken := false }

/-- An MX word has entered its engine: its command stands last in the queue with the registers it found live, or shadowed where it
exchanges them first (R341), and its token is PENDING. -/
def MxEntered (o t : State) (q op : Nat) (et : Fmt) (tout t0 t1 : BitVec 6) (sw : Bool) : Prop :=
  let r := (coreAt o q).b.r
  let x := snapM r sw
  (coreAt t q).b.mxQ = (coreAt o q).b.mxQ ++ [newMx (cmdNow o q 6 op et tout.toNat x) (waitsOn o q tout [t0, t1]) (ownFirst o q) (faultsOn o q tout [t0, t1])] ∧
  tokRec t q tout.toNat = entered o q 1 x ∧ (∀ n < 64, n ≠ tout.toNat → tokRec t q n = tokRec o q n) ∧
  (coreAt t q).b.r.liveM = (if sw then r.shadM else r.liveM) ∧ (coreAt t q).b.r.shadM = (if sw then r.liveM else r.shadM) ∧
  (coreAt t q).b.r.joined = (if op = 2 then true else if op = 3 then false else r.joined)

/-- The same for an XF word (R420, R421, R422, R444, R448, R456), outside a rerun. -/
def XfAccepts (o : State) (q op : Nat) (tout : BitVec 6) (sw : Bool) : Prop :=
  let b := (coreAt o q).b
  let x := snapX b.r sw
  tokLive o q tout.toNat = false ∧ xfIllegal op x = false ∧ (op = 3 → xwEnd x ≤ 262144) ∧
  (isProv o q = true → op ≠ 7 ∧ op ≠ 8 ∧ (op = 2 → xstoreRetr o q x = true)) ∧
  b.xfQ.length < 32 ∧ (op = 2 → b.commitQ.length < 256) ∧ b.check = none

/-- An XF word has entered its engine, XSTORE held (R447). -/
def XfEntered (o t : State) (q op : Nat) (tout t0 t1 t2 : BitVec 6) (sw : Bool) : Prop :=
  let r := (coreAt o q).b.r
  let x := snapX r sw
  (coreAt t q).b.xfQ = (coreAt o q).b.xfQ ++ [newXf (cmdNow o q 7 op .i8 tout.toNat x) (waitsOn o q tout [t0, t1, t2]) (ownFirst o q) (faultsOn o q tout [t0, t1, t2]) (op == 2)] ∧
  tokRec t q tout.toNat = entered o q 0 x ∧ (∀ n < 64, n ≠ tout.toNat → tokRec t q n = tokRec o q n) ∧
  (coreAt t q).b.r.liveX = (if sw then r.shadX else r.liveX) ∧ (coreAt t q).b.r.shadX = (if sw then r.liveX else r.shadX) ∧
  (coreAt t q).b.commitQ = (coreAt o q).b.commitQ ++ (if op = 2 then [{ body := .xstore tout.toNat, pc := r.pc, vcc := r.vcc }] else [])

/-- A routine runs on the core a step names: command `m` heads its matrix engine, and `st` is the routine's state. -/
def Routine (s : State) (m : MxCmd) (st : MicroState) : Prop := mxHead s s.curCore = some m ∧ m.micro = some st

/-- What a block adds to an element of exponent word `x` (R315): the exact sum of products rounded once to the grid, or for BF16 each
product on its own; none where an operand is NaN or infinite. -/
def contribution (et : Fmt) (x : Nat) (ps : List (FV × FV)) : Option Int :=
  if et = .bf16 then dotEach (signed 16 x) ps else (dotExact ps).map (fun p => nearestI p.1 (p.2 - signed 16 x))

/-- A sum saturated to the 40 bits of an element (R315). -/
def saturated (a : Int) : Int := max (-(2 ^ 39)) (min (2 ^ 39 - 1) a)

/-! ### Stream contexts -/

/-- The context a step names executes an instruction now: it runs, waits for nothing and has not come to END (R90, R100); in an
expansion the instruction may run there (R136), and in a bracket or a recipe sub-stream too (R128). -/
def Executes (inBracket inBody : Bool) (s : State) : Prop :=
  let x := ctx s s.curCtx
  x.state = .running ∧ x.wait = none ∧ x.ending = false ∧ (expanding x = true → inBody = true) ∧
  (x.bracket.isSome = true ∨ x.sub.isSome = true → inBracket = true)

/-- A stream instruction of a number of words makes `t` of the state and goes on behind itself. -/
def Does (i : Instr) (words : Nat) (s t : State) : Prop := exec i s = .next (advancePc s.curCtx words t)

/-- A stream instruction of a number of words issues and waits (R90). -/
def Waits (i : Instr) (words : Nat) (k : WaitKind) (s : State) : Prop :=
  exec i s = .next (updCtx (updCtx s s.curCtx (fun x => { x with wait := some k, waitUs := if x.woken then x.waitUs else s.us, state := .waiting })) s.curCtx
    (fun x => { x with wlen := 8 * words }))

/-- A stream instruction of a number of words faults (R96, R98). -/
def Faults (i : Instr) (words : Nat) (code : BitVec 8) (info : Word) (s : State) : Prop :=
  exec i s = .next (streamFault s.curCtx code info (8 * words) [] s)

/-- The thresholds of a launch's inputs in use, as their registers stand at issue (R114). -/
def launchInputs (s : State) (ins : LaunchIns) : List (Nat × BitVec 32) :=
  ([ins.i0, ins.i1, ins.i2, ins.i3].filter (fun i => i.valid == 1)).map (fun i => (i.evt.toNat, (qReg s s.curCtx i.qt.toNat).setWidth 32))

/-- A launch record stands at a pointer and passes every check of R115 and R128: its bytes and its arguments' bytes. -/
def RecordStands (s : State) (p : Word) (ins : LaunchIns) (b args : List Byte) : Prop :=
  let c := s.curCtx
  ∃ hdr, recordRead s c p 64 64 fieldInfo = .ok hdr ∧ failing (headerChecks hdr) = none ∧
    recordRead s c p (64 + 16 * recNoper hdr) 64 fieldInfo = .ok b ∧ failing (recordChecks s (ctx s c).part.toNat b) = none ∧
    bracketOk s c p b (launchInputs s ins) = true ∧
    (if fieldB b 24 2 = 0 then .ok [] else recordRead s c (recArgs b) (fieldB b 24 2) 1 (fun _ => fieldInfo 16)) = .ok args

/-! ### The module -/

/-- The dies hold nothing: no core runs a task or keeps a register, no context is started, and no byte but the host's own memory
stands (R17, R33). -/
def Bare (t : State) : Prop :=
  (∀ q, coreAt t q = .zero) ∧ (∀ c, ctx t c = .zero) ∧ t.launches = .empty ∧ t.packets = [] ∧ ∀ k, (k < hostKey 0 ∨ hostKey (2 ^ 60) ≤ k) → t.mem.byte k = 0

/-- An event makes a state `t` with a property. -/
def Makes (i : Instr) (s : State) (p : State → Prop) : Prop := ∃ t, exec i s = .next t ∧ p t

end Sys2Proof.Safety
end

