-- ==== Sys2Proof/Certificates/Slice0/Obligations.lean ====
section
/-!
DEFINITION. Sys2Proof/Certificates/Slice0/Obligations.lean: the statements for the provers.
-/

open Sys2Proof Sys2Proof.Machine Sys2Proof.Safety

/-! ### The machine, its words and its step -/

/-- Every instruction and every event of the table answers a next state in every state: none is refused, and the machine never stops.
It rests on a choice of the model: assumption 88. -/
def Obligations.NothingStops : Prop := ∀ (i : Instr) (s : State), ∃ t, exec i s = .next t

/-- R331-R337, R352, R364, R374, R393, R412, R422, R439, R447: the word of a well-formed slot instruction or micro-operation, at every value of its operands, decodes to it. -/
def Obligations.SlotEncodingsRoundTrip : Prop := ∀ (i : Instr) (w : Nat), i.wf = true →
  (encodeCtl i = some w → w < 2 ^ 32 ∧ decodeCtl w = .ok i) ∧ (encodeS i = some w → w < 2 ^ 32 ∧ decodeS w = .ok i) ∧ (encodeLs i = some w → w < 2 ^ 32 ∧ decodeLs w = .ok i) ∧
  (encodeV i = some w → w < 2 ^ 32 ∧ decodeV w = .ok i) ∧ (encodeSf i = some w → w < 2 ^ 32 ∧ decodeSf w = .ok i) ∧ (encodeMx i = some w → w < 2 ^ 32 ∧ decodeMx w = .ok i) ∧
  (encodeXf i = some w → w < 2 ^ 32 ∧ decodeXf w = .ok i) ∧ (encodeMicro i = some w → w < 2 ^ 64 ∧ decodeMicro w = .ok i)

/-- R329, R331-R337, R440: a word that a slot map or the microcode accepts is the word of the instruction it decodes to, which is well-formed: no bit of it is without a meaning. -/
def Obligations.SlotWordsHaveOneMeaning : Prop := ∀ (i : Instr) (w : Nat),
  (w < 2 ^ 32 →
    (decodeCtl w = .ok i → i.wf = true ∧ encodeCtl i = some w) ∧ (decodeS w = .ok i → i.wf = true ∧ encodeS i = some w) ∧ (decodeLs w = .ok i → i.wf = true ∧ encodeLs i = some w) ∧
    (decodeV w = .ok i → i.wf = true ∧ encodeV i = some w) ∧ (decodeSf w = .ok i → i.wf = true ∧ encodeSf i = some w) ∧ (decodeMx w = .ok i → i.wf = true ∧ encodeMx i = some w) ∧
    (decodeXf w = .ok i → i.wf = true ∧ encodeXf i = some w)) ∧
  (w < 2 ^ 64 → decodeMicro w = .ok i → i.wf = true ∧ encodeMicro i = some w)

/-- R91-R93: the words of a well-formed stream instruction, at every value of its operands, decode to it. -/
def Obligations.StreamEncodingsRoundTrip : Prop := ∀ (i : Instr) (w : Nat) (xs : List Nat), i.wf = true → encodeStream i = some (w :: xs) →
  w < 2 ^ 64 ∧ (∀ x ∈ xs, x < 2 ^ 64) ∧ num w 56 2 = xs.length ∧ decodeStream w xs = .ok i

/-- R91-R93, R329, R331-R337, R437-R440: words written out from the encoding tables decode to their instructions, and reserved opcodes, fields, operand values and word counts are refused. -/
def Obligations.WordsDecode : Prop :=  decodeCtl 0x44500010 = .ok (.sysr 5 0x10) ∧ decodeS 0x04304200 = .ok (.add 3 1 2) ∧ decodeLs 0x04A0F808 = .ok (.ld 10 3 3 1 8) ∧
  decodeV 0x042042F2 = .ok (.vadd 2 1 2 15 .i32) ∧ decodeSf 0x3010C000 = .ok (.tbld 1 3) ∧ decodeMx 0x24182000 = .ok (.mxucw 1 32 32 0) ∧ decodeXf 0x04108206 = .ok (.xcopy 1 2 2 1 1) ∧
  decodeMicro 0x1800000000000000 = .ok .mmac ∧ decodeStream 0x2018820000000000 [] = .ok (.streamAdd 3 2 1) ∧ decodeStream 0x3400000000000000 [] = .ok .nop ∧
  decodeCtl 0 = .error .reservedOpcode ∧ decodeS 0x08000003 = .error .reservedField ∧ decodeLs 0x24003000 = .error .operandValue ∧ decodeStream 0x3500000000000000 [0] = .error .wordCount

/-- R90, R92, R273, R320-R323, R437: a step runs exactly the instruction that the turn's actor has decoded: the sole slot of the bundle at a core's PC, the words at a context's PC, the micro-word of a routine, or an event, which a die's clock or
power may hold back (R22-R25), or a happening of the world outside it. Which actor a turn names is the model's agenda (assumption 3). With no turn left a clock
passes.
It rests on choices of the model: assumptions 3, 7. -/
def Obligations.StepRunsTheDecoded : Prop := ∀ (s : State) (turn : Turn) (rest : List Turn) (c hdr p w n : Nat) (i : Instr) (im : ImageInfo),
  let o := passTime turn.us turn.clks (observe { s with agenda := rest })
  let lead := (groupOf o c).headD c
  let off := fieldW (coreAt o lead).b.r.pc 0 40 - im.codeOff
  let x := ctx o c
  let r := trec o (ptrH x.code)
  let at_ := Loc.glob (ptrH x.code) x.pc.toNat
  (s.agenda = [] → step s = .next (passTime 0 1 (observe s))) ∧
  (s.agenda = turn :: rest →
    (turn.actor = .core c → clocksRun o = true → (taskOf o c).isSome = true → imageOf o lead = some im → hdr = leNat (o.mem.bytes (storeKey lead off) 4) → w = leNat (o.mem.bytes (storeKey lead (off + 4)) 4) →
      headerOk hdr = true → slotsOf hdr = [p] → off + bundleLen hdr ≤ im.codeLen → 8 ≤ bundleLen hdr → soleSlot p = true → decodeSlot p w = .ok i →
      step s = exec i (setHeader (groupOf o c) hdr [w] { o with curCore := c })) ∧
    (turn.actor = .ctx c → clocksRun o = true → c < 64 → x.fails = [] → executes x = true → x.sub = none → expanding x = false → declared o x.part.toNat (ptrH x.code) = true →
      isReady o (ptrH x.code) = true →
      dieGone o (handleDie (ptrH x.code)) = false → w = readNat o at_ 8 → n = bitsOf w 56 2 → x.pc.toNat + 8 * (1 + n) ≤ r.bytes → poisoned o at_ (8 * (1 + n)) = false → poisoned o at_ 8 = false →
      decodeStream w ((List.range n).map (fun j => readNat o (.glob (ptrH x.code) (x.pc.toNat + 8 + 8 * j)) 8)) = .ok i →
      step s = exec i { (if x.woken then o else dropHolds (fun _ => false) c o) with curCtx := c }) ∧
    (turn.actor = .micro c → clocksRun o = true → microNow o c = some i → step s = exec i { o with curCore := c }) ∧
    (turn.actor = .event i → mayHappen o i = true → o.mod.power.state ≠ .m2 → step s = exec i o) ∧
    (turn.actor = .event i → mayHappen o i = false → step s = .next o) ∧
    (∀ v, turn.actor = .world v → step s = .next (happen v o)) ∧
    (∀ via off m, turn.actor = .read via off m → step s = .next (registerRead via off m o)))

/-- R320, R323, R331-R337: run alone, the instruction of a word that a slot position decodes is the issue of that one slot's operation on the issuing cores, whichever instruction it is.
It rests on a choice of the model: assumption 7. -/
def Obligations.SlotInstructionsAreTheirEffects : Prop := ∀ (s : State) (p w : Nat) (i : Instr), soleSlot p = true → decodeSlot p w = .ok i →
  exec i s = .next (issueSlots s.curCore [(p, slotEff i)] none s)

/-- What a bundle of one result leaves as it was (R274): memory, the contexts, launches and tensors, every core that does not issue it, and on those that do every register the result is not for, the accumulators, the fault and status registers
and what the task holds back. Registers change where earlier results fall due. -/
def Obligations.ResultsLeaveTheRest : Prop := ∀ (i : Instr) (s t : State) (d : Dst) (lat : Nat) (v : Nat → State → BitVec 1024), Ready s → exec i s = .next t →
  Gives i s d lat v →
  (∀ k, t.mem.byte k = s.mem.byte k) ∧ t.poison = s.poison ∧ t.ctxs = s.ctxs ∧ t.launches = s.launches ∧ t.recs = s.recs ∧ t.packets = s.packets ∧ (∀ q, q ∉ issuers s → coreAt t q = coreAt s q) ∧
  ∀ q ∈ issuers s,
    let x := (coreAt t q).b
    let o := (coreAt (settled s) q).b
    x.r.s = o.r.s ∧ x.r.v = o.r.v ∧ x.r.k = o.r.k ∧ x.r.sc = o.r.sc ∧ x.r.mg = o.r.mg ∧ x.r.liveX = o.r.liveX ∧ x.r.liveM = o.r.liveM ∧ x.r.shadX = o.r.shadX ∧ x.r.shadM = o.r.shadM ∧ x.r.toks = o.r.toks ∧
    x.r.bufs = o.r.bufs ∧ x.acc = o.acc ∧ x.accX = o.accX ∧ x.numstat = o.numstat ∧ x.fltstat = o.fltstat ∧ x.fltpc = o.fltpc ∧ x.fltvcc = o.fltvcc ∧ x.fltaddr = o.fltaddr ∧ x.trapvec = o.trapvec ∧
    x.commitQ = o.commitQ ∧ x.holdQ = o.holdQ ∧ x.mxQ = o.mxQ ∧ x.xfQ = o.xfQ ∧ x.task = o.task ∧ (coreAt t q).frames = (coreAt s q).frames ∧ (coreAt t q).gate = (coreAt s q).gate

/-- R274, R278: a result stands in its register from its due cycle on and not before, and a landing whose data has arrived in the same way. -/
def Obligations.ResultsFallDue : Prop := ∀ (b : Body) (x : Res) (l : Landing) (v : BitVec 1024) (bad : Bool),
  (b.r.res = [x] → b.r.lands = [] →
    (x.due ≤ b.r.vcc → (settle b).r = { writeDst b.r x.dst x.val with res := [], lands := [] }) ∧
    (b.r.vcc < x.due → settle b = b)) ∧
  (b.r.res = [] → b.r.lands = [l] → l.data = some (v, bad) →
    (l.due ≤ b.r.vcc → (settle b).r = { writeDst b.r l.dst v with res := [], lands := [] } ∧
      (bad = true → b.detected = none → (settle b).detected = some (codePoison, b.r.pc, l.ptr)) ∧ (bad = false → (settle b).detected = b.detected)) ∧
    (b.r.vcc < l.due → settle b = b))

/-- What reset leaves: memory lists nothing and is canonical, every scratchpad bank is powered and READY (R26), the fault register names no slot (R245), no context or launch runs, no tensor is declared (R170), the Hasp's registers stand at their values (R204),
SNAPCTL holds code 0xFF (R86), HBMVEC and LPVEC are 4 (R64), and the module is in M1 with PWRGD (R79).
It rests on choices of the model: assumptions 1, 5, 9. -/
def Obligations.ResetState : Prop :=  let s := State.reset
  s.mem.wf = true ∧ (∀ k, s.mem.byte k = 0) ∧
  (∀ q, (coreAt s q).b.task = none ∧ (coreAt s q).ready = 0xFFFFFFFF ∧ (coreAt s q).gate = 0 ∧ (coreAt s q).b.fltstat = 0xF00 ∧ (coreAt s q).coreerr = 0) ∧
  (∀ c, (ctx s c).state = .idle) ∧ (∀ h, (trec s h).state = .free ∧ (trec s h).nuse = 0xFFFFFFFFFFFFFFFF) ∧
  (∀ d, (hasp s d).spill = 4 ∧ (hasp s d).compk = 2 ∧ (hasp s d).compr = 8 ∧ (hasp s d).rdef = 128 ∧ (hasp s d).recomp = 40 ∧ (hasp s d).dist = 800 ∧ (hasp s d).hdepth = 3 ∧ (hasp s d).low = 256 ∧ (hasp s d).high = 1024 ∧ (hasp s d).retry = 3) ∧
  s.mod.snap.code = 0xFF ∧ fieldW s.mod.errvec 0 11 = 4 ∧ fieldW s.mod.errvec 16 11 = 4 ∧ s.mod.power.boot = .up ∧ s.mod.power.state = .m1 ∧ s.mod.power.pwrgd = true

/-- Every step keeps memory in its canonical form: addresses rising, and no byte listed that reads as an unlisted one does; so equal contents are equal data.
It rests on a choice of the model: assumption 5. -/
def Obligations.MemoryStaysCanonical : Prop := ∀ s t : State, s.mem.wf = true → step s = .next t → t.mem.wf = true

/-! ### The scalar slots -/

/-- R365: the register-register forms compute s[D] := f(s[A], s[B]) modulo 2^64 with latency 1 (R364), set no flag and raise no fault. -/
def Obligations.ScalarRegisterForms : Prop := ∀ (s : State) (d a b : BitVec 6), Ready s →
  GivesS (.add d a b) s d 1 (fun q o => sReg o q a.toNat + sReg o q b.toNat) ∧
  GivesS (.sub d a b) s d 1 (fun q o => sReg o q a.toNat - sReg o q b.toNat) ∧
  GivesS (.and_ d a b) s d 1 (fun q o => sReg o q a.toNat &&& sReg o q b.toNat) ∧
  GivesS (.or_ d a b) s d 1 (fun q o => sReg o q a.toNat ||| sReg o q b.toNat) ∧
  GivesS (.xor_ d a b) s d 1 (fun q o => sReg o q a.toNat ^^^ sReg o q b.toNat) ∧
  GivesS (.shl d a b) s d 1 (fun q o => sReg o q a.toNat <<< ((sReg o q b.toNat).toNat % 64)) ∧
  GivesS (.shr d a b) s d 1 (fun q o => sReg o q a.toNat >>> ((sReg o q b.toNat).toNat % 64)) ∧
  GivesS (.sar d a b) s d 1 (fun q o => (sReg o q a.toNat).sshiftRight ((sReg o q b.toNat).toNat % 64)) ∧
  GivesS (.slt d a b) s d 1 (fun q o => if (sReg o q a.toNat).toInt < (sReg o q b.toNat).toInt then 1 else 0) ∧
  GivesS (.sltu d a b) s d 1 (fun q o => if (sReg o q a.toNat).toNat < (sReg o q b.toNat).toNat then 1 else 0) ∧
  GivesS (.seq d a b) s d 1 (fun q o => if sReg o q a.toNat = sReg o q b.toNat then 1 else 0) ∧
  GivesS (.min d a b) s d 1 (fun q o => if (sReg o q a.toNat).toInt ≤ (sReg o q b.toNat).toInt then sReg o q a.toNat else sReg o q b.toNat) ∧
  GivesS (.max d a b) s d 1 (fun q o => if (sReg o q a.toNat).toInt ≤ (sReg o q b.toNat).toInt then sReg o q b.toNat else sReg o q a.toNat) ∧
  GivesS (.minu d a b) s d 1 (fun q o => if (sReg o q a.toNat).toNat ≤ (sReg o q b.toNat).toNat then sReg o q a.toNat else sReg o q b.toNat) ∧
  GivesS (.maxu d a b) s d 1 (fun q o => if (sReg o q a.toNat).toNat ≤ (sReg o q b.toNat).toNat then sReg o q b.toNat else sReg o q a.toNat)

/-- R367: the products, with latency 3 (R364). R366: the immediate forms take b = sext(IMM, 14); a shift takes its 6-bit amount. R368: SEL, MOVI, MOVHI and the bit counts. R329: a
hint has no effect. Latency 1 (R364). -/
def Obligations.ScalarProductsAndMoves : Prop :=
  (∀ (s : State) (d a b : BitVec 6), Ready s →
     GivesS (.mul d a b) s d 3 (fun q o => ((sReg o q a.toNat).setWidth 128 * (sReg o q b.toNat).setWidth 128).setWidth 64) ∧
     GivesS (.mulh d a b) s d 3 (fun q o => ((sReg o q a.toNat).signExtend 128 * (sReg o q b.toNat).signExtend 128).extractLsb' 64 64) ∧
     GivesS (.mulhu d a b) s d 3 (fun q o => ((sReg o q a.toNat).setWidth 128 * (sReg o q b.toNat).setWidth 128).extractLsb' 64 64) ∧
     GivesS (.clmul d a b) s d 3 (fun q o => (carryless (sReg o q a.toNat) (sReg o q b.toNat)).setWidth 64) ∧
     GivesS (.clmulh d a b) s d 3 (fun q o => (carryless (sReg o q a.toNat) (sReg o q b.toNat)).extractLsb' 64 64)) ∧
  (∀ (s : State) (d a b c : BitVec 6) (i : BitVec 14) (n : BitVec 20) (p : BitVec 2)
       (h : BitVec 16) (x : BitVec 26), Ready s →
     GivesS (.addi d a i) s d 1 (fun q o => sReg o q a.toNat + i.signExtend 64) ∧
     GivesS (.andi d a i) s d 1 (fun q o => sReg o q a.toNat &&& i.signExtend 64) ∧
     GivesS (.ori d a i) s d 1 (fun q o => sReg o q a.toNat ||| i.signExtend 64) ∧
     GivesS (.xori d a i) s d 1 (fun q o => sReg o q a.toNat ^^^ i.signExtend 64) ∧
     GivesS (.shli d a b) s d 1 (fun q o => sReg o q a.toNat <<< b.toNat) ∧
     GivesS (.shri d a b) s d 1 (fun q o => sReg o q a.toNat >>> b.toNat) ∧
     GivesS (.sari d a b) s d 1 (fun q o => (sReg o q a.toNat).sshiftRight b.toNat) ∧
     GivesS (.slti d a i) s d 1 (fun q o => if (sReg o q a.toNat).toInt < i.toInt then 1 else 0) ∧
     GivesS (.sltui d a i) s d 1 (fun q o => if (sReg o q a.toNat).toNat < (i.signExtend 64).toNat then 1 else 0) ∧
     GivesS (.seqi d a i) s d 1 (fun q o => if sReg o q a.toNat = i.signExtend 64 then 1 else 0) ∧
     GivesS (.sel d a b c) s d 1 (fun q o => if sReg o q c.toNat ≠ 0 then sReg o q a.toNat else sReg o q b.toNat) ∧
     GivesS (.movi d n) s d 1 (fun _ _ => n.signExtend 64) ∧
     GivesS (.clz d a) s d 1 (fun q o => BitVec.ofNat 64 (leadingZeros (sReg o q a.toNat))) ∧
     GivesS (.ctz d a) s d 1 (fun q o => BitVec.ofNat 64 (trailingZeros (sReg o q a.toNat))) ∧
     GivesS (.popc d a) s d 1 (fun q o => BitVec.ofNat 64 (setBits (sReg o q a.toNat))) ∧
     (∃ v : Nat → State → Word, GivesS (.movhi d p h) s d 1 v ∧ ∀ q o j, j < 64 →
       (v q o).getLsbD j = if j / 16 = p.toNat then h.getLsbD (j % 16) else (sReg o q d.toNat).getLsbD j) ∧
     exec (.sHint p x) s = .next (issued (fun _ _ t => t) s))

/-- R369: SPTEST classifies s[A] without dereferencing it and raises no fault: each flag reports one check of a 1-byte load. -/
def Obligations.SptestClassifies : Prop := ∀ (s : State) (d a : BitVec 6), Ready s →
  ∃ v : Nat → State → Word, GivesS (.sptest d a) s d 1 v ∧ ∀ (q : Nat) (o : State), SptestSays q o (sReg o q a.toNat).toNat (v q o).toNat

/-- R370: SPCAST.SP and SPCAST.CL. R372: PADD adds a signed displacement to the offset field, and a reserved window or a sum that
leaves the field gives INVALID. R371: GPTR and GPTR.H form a global pointer from a handle and an offset. A result that is not INVALID needs a handle of an operand
of the task's launch; an INVALID one is formed without fault, whatever the handle. R340, R373: STG, SHF and MPW write s[A] to a part of a shadow register with latency 1: xg0-xg7; xs0-xs3 and ms0-ms3; mp0-mp7. The
part's bits take the low bits of s[A], the register's other bits stand, and its reserved bits read zero (R6). -/
def Obligations.PointersAndShadows : Prop :=
  (∀ (s : State) (d a b : BitVec 6), Ready s →
     GivesS (.spcastSp d a) s d 1 (fun q o => castToScratchpad q (sReg o q a.toNat)) ∧
     GivesS (.spcastCl d a) s d 1 (fun q o => castToCluster q (sReg o q a.toNat)) ∧
     GivesS (.padd d a b) s d 1 (fun q o => displaced (sReg o q a.toNat) (sReg o q b.toNat).toInt)) ∧
  (∀ (s : State) (d a b : BitVec 6), Ready s →
     ((∀ q ∈ issuers s, fieldW (sReg (settled s) q b.toNat) 40 24 = 0 → (sReg (settled s) q a.toNat).getLsbD 63 = true →
         ∃ x ∈ taskOps (settled s) q, opHandle x = fieldW (sReg (settled s) q a.toNat) 40 23) →
       GivesS (.gptr d a b) s d 1 (fun q o =>
         if fieldW (sReg o q b.toNat) 40 24 ≠ 0 ∨ (sReg o q a.toNat).getLsbD 63 = false then ptrInvalid
         else BitVec.ofNat 64 (2 ^ 63 + fieldW (sReg o q a.toNat) 40 23 * 2 ^ 40 + fieldW (sReg o q b.toNat) 0 40))) ∧
     ((∀ q ∈ issuers s, fieldW (sReg (settled s) q b.toNat) 40 24 = 0 →
         ∃ x ∈ taskOps (settled s) q, opHandle x = fieldW (sReg (settled s) q a.toNat) 0 23) →
       GivesS (.gptrH d a b) s d 1 (fun q o =>
         if fieldW (sReg o q b.toNat) 40 24 ≠ 0 then ptrInvalid
         else BitVec.ofNat 64 (2 ^ 63 + fieldW (sReg o q a.toNat) 0 23 * 2 ^ 40 + fieldW (sReg o q b.toNat) 0 40)))) ∧
  ((∀ (s : State) (r p : BitVec 3) (a : BitVec 6), Ready s →
       Gives (.stg r p a) s (.shX r.toNat p.toNat) 1 (fun q o => (sReg o q a.toNat).setWidth 1024) ∧
       Gives (.shf r p a) s (if r.toNat < 4 then .shX (8 + r.toNat) p.toNat else .shM (4 + r.toNat) p.toNat) 1
         (fun q o => (sReg o q a.toNat).setWidth 1024) ∧
       Gives (.mpw r p a) s (.shM r.toNat p.toNat) 1 (fun q o => (sReg o q a.toNat).setWidth 1024)) ∧
     ∀ (r : Regs) (n p i : Nat) (x : BitVec 1024), p < 7 → i < 64 →
       let lo := match p with | 0 => 0 | 1 => 0 | 2 => 32 | q => 16 * (q - 3)
       let w := match p with | 0 => 64 | 1 => 32 | 2 => 32 | _ => 16
       (((writeDst r (.shX n p) x).shadX.get 0 n).getLsbD i =
         ((if lo ≤ i ∧ i < lo + w then x.getLsbD (i - lo) else (r.shadX.get 0 n).getLsbD i) && Nat.testBit (keepX n) i)) ∧
       (((writeDst r (.shM n p) x).shadM.get 0 n).getLsbD i =
         ((if lo ≤ i ∧ i < lo + w then x.getLsbD (i - lo) else (r.shadM.get 0 n).getLsbD i) && Nat.testBit (keepM n) i)))

/-! ### The vector slots -/

/-- R394: the integer operations of the vector slots on each active element, modulo 2^w, with latency 2 (R393); inactive elements keep
their values (R391). -/
def Obligations.VectorIntegerLanes : Prop := ∀ (s : State) (d a b : BitVec 6) (k : BitVec 4) (e : Fmt), Ready s → e.isInt = true →
  let x := fun (q : Nat) (o : State) (i : Nat) => vElem o q a.toNat e i
  let y := fun (q : Nat) (o : State) (i : Nat) => vElem o q b.toNat e i
  let X := fun (q : Nat) (o : State) (i : Nat) => eVal e (x q o i)
  let Y := fun (q : Nat) (o : State) (i : Nat) => eVal e (y q o i)
  let lo := ilo e.isSigned e.width
  let hi := ihi e.isSigned e.width
  GivesExact (.vadd d a b k e) s d k e 2 (fun q o i => (x q o i + y q o i) % 2 ^ e.width) ∧
  GivesExact (.vsub d a b k e) s d k e 2 (fun q o i => wrap e.width (x q o i - y q o i)) ∧
  GivesExact (.vmul d a b k e) s d k e 2 (fun q o i => x q o i * y q o i % 2 ^ e.width) ∧
  GivesExact (.vmulh d a b k e) s d k e 2 (fun q o i => wrap e.width (X q o i * Y q o i / 2 ^ e.width)) ∧
  GivesExact (.vmin d a b k e) s d k e 2 (fun q o i => if X q o i ≤ Y q o i then x q o i else y q o i) ∧
  GivesExact (.vmax d a b k e) s d k e 2 (fun q o i => if X q o i < Y q o i then y q o i else x q o i) ∧
  (e.isSigned = true → GivesExact (.vabs d a k e) s d k e 2 (fun q o i => wrap e.width |X q o i|)) ∧
  GivesExact (.vand d a b k e) s d k e 2 (fun q o i => x q o i &&& y q o i) ∧
  GivesExact (.vor d a b k e) s d k e 2 (fun q o i => x q o i ||| y q o i) ∧
  GivesExact (.vxor d a b k e) s d k e 2 (fun q o i => x q o i ^^^ y q o i) ∧
  GivesExact (.vandn d a b k e) s d k e 2 (fun q o i => x q o i &&& (2 ^ e.width - 1 - y q o i)) ∧
  GivesExact (.vshl d a b k e) s d k e 2 (fun q o i => x q o i <<< (y q o i % e.width) % 2 ^ e.width) ∧
  GivesExact (.vshr d a b k e) s d k e 2 (fun q o i => x q o i >>> (y q o i % e.width)) ∧
  GivesExact (.vsar d a b k e) s d k e 2 (fun q o i => wrap e.width (signed e.width (x q o i) / 2 ^ (y q o i % e.width))) ∧
  GivesExact (.vadds d a b k e) s d k e 2 (fun q o i => wrap e.width (max lo (min hi (X q o i + Y q o i)))) ∧
  GivesExact (.vsubs d a b k e) s d k e 2 (fun q o i => wrap e.width (max lo (min hi (X q o i - Y q o i))))

/-- R395: the comparisons into a mask register, with latency 2. -/
def Obligations.VectorComparisons : Prop := ∀ (s : State) (d : BitVec 4) (a b : BitVec 6) (k : BitVec 4) (e : Fmt), Ready s →
  let x := fun (q : Nat) (o : State) (i : Nat) => vElem o q a.toNat e i
  let y := fun (q : Nat) (o : State) (i : Nat) => vElem o q b.toNat e i
  GivesMask (.vcmpeq d a b k e) s d k e 2 (fun q o i => compared (· = ·) false false e (x q o i) (y q o i)) ∧
  GivesMask (.vcmpne d a b k e) s d k e 2 (fun q o i => compared (· ≠ ·) true false e (x q o i) (y q o i)) ∧
  GivesMask (.vcmplt d a b k e) s d k e 2 (fun q o i => compared (· < ·) false true e (x q o i) (y q o i)) ∧
  GivesMask (.vcmple d a b k e) s d k e 2 (fun q o i => compared (· ≤ ·) false true e (x q o i) (y q o i))

/-- R396, R398: VSEL, VBCAST, VEXTR, VINSR and the forms of VMOV, with latency 2; R329: a hint has no effect. R397: the mask instructions, on all 128 bits of their registers, with latency 2. -/
def Obligations.ElementMovesAndMasks : Prop :=
  (∀ (s : State) (d a b : BitVec 6) (k m : BitVec 4) (g h : BitVec 2) (z : BitVec 26) (e : Fmt), Ready s →
     let x := fun (q : Nat) (o : State) (i : Nat) => vElem o q a.toNat e i
     GivesV (.vsel d a b k e) s d 2 (fun q o => ofElems e.width ((List.range (lanes e)).map (fun i =>
       if (kReg o q k.toNat).getLsbD (i * e.width / 8) then x q o i else vElem o q b.toNat e i))) ∧
     GivesExact (.vbcast d a k e) s d k e 2 (fun q o _ => (sReg o q a.toNat).toNat % 2 ^ e.width) ∧
     GivesS (.vextr d a b e) s d 2 (fun q o =>
       let j := (sReg o q b.toNat).toNat
       if j < lanes e then (if e.isSigned then BitVec.ofInt 64 (signed e.width (x q o j)) else BitVec.ofNat 64 (x q o j)) else 0) ∧
     GivesV (.vinsr d a b e) s d 2 (fun q o => ofElems e.width ((List.range (lanes e)).map (fun i =>
       if i = (sReg o q b.toNat).toNat then (sReg o q a.toNat).toNat % 2 ^ e.width else vElem o q d.toNat e i))) ∧
     GivesExact (.vmov d a k e) s d k e 2 x ∧
     GivesS (.vmovFromMg d g) s d 2 (fun q o => mgReg o q g.toNat) ∧
     Gives (.vmovToMg g a) s (.mg g.toNat) 2 (fun q o => (sReg o q a.toNat &&& 0x7FFFFFFFFFFFFFFF#64).setWidth 1024) ∧
     GivesS (.vmovMaskLo d m) s d 2 (fun q o => (kReg o q m.toNat).extractLsb' 0 64) ∧
     GivesS (.vmovMaskHi d m) s d 2 (fun q o => (kReg o q m.toNat).extractLsb' 64 64) ∧
     exec (.vHint h z) s = .next (issued (fun _ _ t => t) s)) ∧
  (∀ (s : State) (d a b : BitVec 4) (r x y : BitVec 6) (e : Fmt), Ready s →
     GivesK (.kand d a b) s d 2 (fun q o => kReg o q a.toNat &&& kReg o q b.toNat) ∧
     GivesK (.kor d a b) s d 2 (fun q o => kReg o q a.toNat ||| kReg o q b.toNat) ∧
     GivesK (.kxor d a b) s d 2 (fun q o => kReg o q a.toNat ^^^ kReg o q b.toNat) ∧
     GivesK (.knot d a) s d 2 (fun q o => ~~~ kReg o q a.toNat) ∧
     GivesK (.kset d x y) s d 2 (fun q o => sReg o q y.toNat ++ sReg o q x.toNat) ∧
     GivesS (.kpop r a e) s r 2 (fun q o =>
       BitVec.ofNat 64 ((List.range (lanes e)).filter (fun i => (kReg o q a.toNat).getLsbD (i * e.width / 8))).length))

/-- R399, R401, R402: carry-less products of 64-bit lanes, VPERM, VCOMPRESS and VEXPAND, with latency 3. -/
def Obligations.VectorPermutations : Prop := ∀ (s : State) (d a b : BitVec 6) (k : BitVec 4) (e : Fmt), Ready s →
  let x := fun (q : Nat) (o : State) (i : Nat) => vElem o q a.toNat e i
  (e.is64 = true → GivesExact (.vclmulLo d a b k e) s d k e 3 (fun q o i =>
    (carryless (BitVec.ofNat 64 (x q o i)) (BitVec.ofNat 64 (vElem o q b.toNat e i))).toNat % 2 ^ 64)) ∧
  (e.is64 = true → GivesExact (.vclmulHi d a b k e) s d k e 3 (fun q o i =>
    (carryless (BitVec.ofNat 64 (x q o i)) (BitVec.ofNat 64 (vElem o q b.toNat e i))).toNat / 2 ^ 64)) ∧
  GivesExact (.vperm d a b k e) s d k e 3 (fun q o i => if vElem o q b.toNat e i < lanes e then x q o (vElem o q b.toNat e i) else 0) ∧
  GivesV (.vcompress d a k e) s d 3 (fun q o =>
    ofElems e.width (((List.range (lanes e)).filter (fun i => active o q k e.width i)).map (x q o))) ∧
  GivesV (.vexpand d a k e) s d 3 (fun q o => ofElems e.width ((List.range (lanes e)).map (fun i =>
    if active o q k e.width i then x q o ((List.range i).filter (fun j => active o q k e.width j)).length else 0)))

/-- R400: a scan starts from element 0 and takes one rounded step for each further element, an inactive element counting as the
operation's identity; VSCAN writes the running values, VREDUCE the last one, with latency 4. R404, R405: the merge of two ascending vectors of sixteen lanes, stable, with the merge register's SRC, HALF, POSA and POSB; and the
selection of two payloads by it. -/
def Obligations.ScansReductionsAndMerges : Prop :=
  (∀ (s : State) (d a : BitVec 6) (k : BitVec 4) (e : Fmt), Ready s → e.isPlain = true →
     ∀ p : ScanOp, (e.isInt = true ∨ p = .add ∨ p = .min ∨ p = .max) →
       let x := fun (q : Nat) (o : State) (i : Nat) => if active o q k e.width i then vElem o q a.toNat e i else scanId p e
       ∃ r : Nat → State → Nat → Rnd,
         (∀ q o, r q o 0 = lane (x q o 0)) ∧ (∀ q o i, i + 1 < lanes e → r q o (i + 1) = scanStep p e (r q o i).bits (x q o (i + 1))) ∧
         GivesLanes (match p with
           | .add => .vscanAdd d a k e | .min => .vscanMin d a k e | .max => .vscanMax d a k e
           | .xor_ => .vscanXor d a k e | .and_ => .vscanAnd d a k e | .or_ => .vscanOr d a k e) s d k e 4 r ∧
         exec (match p with
           | .add => .vreduceAdd d a k e | .min => .vreduceMin d a k e | .max => .vreduceMax d a k e
           | .xor_ => .vreduceXor d a k e | .and_ => .vreduceAnd d a k e | .or_ => .vreduceOr d a k e) s =
           .next (issued (fun q o t => setFlags q (((List.range (lanes e)).filter (fun i => active o q k e.width i)).foldl (fun f i => fOr f (r q o i).flags) 0)
             (resultS q d.toNat (extendE e (r q o (lanes e - 1)).bits) 4 t)) s)) ∧
  (∀ (s : State) (d a b : BitVec 6) (m : BitVec 2) (e : Fmt), Ready s → e.is64 = true →
     let x := fun (r : BitVec 6) (q : Nat) (o : State) (i : Nat) => elem (vReg o q r.toNat).toNat 64 i
     let half := fun (hi : Bool) (q : Nat) (o : State) => ((mergeFrom e (x a q o) (x b q o) 32 0 0).drop (if hi then 16 else 0)).take 16
     let src := fun (hi : Bool) (q : Nat) (o : State) => packElems 1 ((half hi q o).map (fun z => if z.2 then 1 else 0))
     let nb := fun (hi : Bool) (q : Nat) (o : State) => ((half hi q o).filter (fun z => z.2)).length
     let merged := fun (hi : Bool) (q : Nat) (o t : State) =>
       result q (.mg m.toNat) (BitVec.ofNat 1024 (src hi q o + (if hi then 2 ^ 16 else 0) +
         (fieldW (mgReg o q m.toNat) 17 23 + (16 - nb hi q o)) % 2 ^ 23 * 2 ^ 17 + (fieldW (mgReg o q m.toNat) 40 23 + nb hi q o) % 2 ^ 23 * 2 ^ 40)) 3
         (resultV q d.toNat (ofElems 64 ((half hi q o).map (fun z => z.1))) 3 t)
     exec (.vmergeLo d a b m e) s = .next (issued (merged false) s) ∧
     exec (.vmergeHi d a b m e) s = .next (issued (merged true) s) ∧
     GivesV (.vmergekv d a b m e) s d 3 (fun q o =>
       let g := (mgReg o q m.toNat).toNat
       let p := ((List.range 16).filter (bitAt g)).length
       ofElems 64 ((List.range 16).map (payload (g % 2 ^ 16) (x a q o) (x b q o) (if bitAt g 16 then p else 0) (if bitAt g 16 then 16 - p else 0)))))

/-- R406, R407: VFADD, VFSUB, VFMUL and VFMA round once under RNE (mode 0); VFMIN and VFMAX round nothing. Latency 4. -/
def Obligations.VectorFloatingArithmetic : Prop := ∀ (s : State) (d a b : BitVec 6) (k : BitVec 4) (e : Fmt), Ready s → e.isFlt = true →
  let x := fun (r : BitVec 6) (q : Nat) (o : State) (i : Nat) => vElem o q r.toNat e i
  let v := fun (r : BitVec 6) (q : Nat) (o : State) (i : Nat) => fdec (ffOf e) (x r q o i)
  GivesLanes (.vfadd d a b k e) s d k e 4 (fun q o i => fadd (ffOf e) 0 (v a q o i) (v b q o i)) ∧
  GivesLanes (.vfsub d a b k e) s d k e 4 (fun q o i => fadd (ffOf e) 0 (v a q o i) (fneg (v b q o i))) ∧
  GivesLanes (.vfmul d a b k e) s d k e 4 (fun q o i => fmul (ffOf e) 0 (v a q o i) (v b q o i)) ∧
  GivesLanes (.vfma d a b k e) s d k e 4 (fun q o i => ffma (ffOf e) 0 (v a q o i) (v b q o i) (v d q o i)) ∧
  GivesLanes (.vfmin d a b k e) s d k e 4 (fun q o i => fminmax (ffOf e) false (x a q o i) (x b q o i)) ∧
  GivesLanes (.vfmax d a b k e) s d k e 4 (fun q o i => fminmax (ffOf e) true (x a q o i) (x b q o i))

/-- R409: VCVT converts the elements of one part of the wider side, keeps the elements of v[D] outside it, and has latency 3. R410: VAMAX
writes the amax of each block. R411: VBQPACK and VBQUNPK move one block at its position. R415: SCLD loads a scale register from the core's own storages with latency 6. R416: SCALEGEN writes the codes of the active blocks and
keeps the rest. R417: a local TBLD leaves its slot loading, complete six cycles later; one from global space leaves it loading until the bytes come that it asks
for.
It rests on a choice of the model: assumption 37. -/
def Obligations.ConversionsBlocksAndScales : Prop :=
  (∀ (s : State) (d a : BitVec 6) (k : BitVec 4) (e : Fmt), Ready s →
     (∀ (t : Fmt) (r : BitVec 2) (p : BitVec 3) (z : BitVec 1), (Instr.vcvt d a t r p z e).wf = true →
       let m := 1024 / max e.width t.width
       let c := fun (q : Nat) (o : State) (i : Nat) => convert (vElem o q a.toNat e i) e t r.toNat (z == 1)
       exec (.vcvt d a t r p z e) s = .next (issued (fun q o u =>
         setFlags q ((List.range m).foldl (fun f i => fOr f (c q o (if t.width ≤ e.width then i else p.toNat * m + i)).flags) 0)
           (resultV q d.toNat (ofElems t.width ((List.range (1024 / t.width)).map (fun j =>
             if t.width ≤ e.width then
               (if p.toNat * m ≤ j ∧ j < p.toNat * m + m then (c q o (j - p.toNat * m)).bits else vElem o q d.toNat t j)
             else (c q o (p.toNat * m + j)).bits))) 3 u)) s)) ∧
     (∀ p : BitVec 6, (Instr.vamax d a p k e).wf = true →
       GivesV (.vamax d a p k e) s d 3 (fun q o => ofElems 32 ((List.range 32).map (fun i =>
         if p.toNat ≤ i ∧ i < p.toNat + e.blocks then blockAmax q o a k e (i - p.toNat) else elem (vReg o q d.toNat).toNat 32 i)))) ∧
     (∀ (sc : BitVec 3) (blk : BitVec 6), (Instr.vbqpack d a sc blk e).wf = true →
       let bq8 := e == .bq8
       let w := if bq8 then 8 else 4
       let pos := blk.toNat % (if bq8 then 4 else 8)
       let code := fun (q : Nat) (o : State) (i : Nat) => elem (scReg o q sc.toNat).toNat 8 (2 * blk.toNat + i)
       let packed := fun (q : Nat) (o : State) (i : Nat) =>
         packVal bq8 (code q o 0) (code q o 1) (fdec (ffOf .f32) (elem (vReg o q a.toNat).toNat 32 i))
       exec (.vbqpack d a sc blk e) s = .next (issued (fun q o u =>
         setFlags q ((List.range 32).foldl (fun f i => fOr f (packed q o i).2) 0)
           (resultV q d.toNat (BitVec.ofNat 1024 (withBits (vReg o q d.toNat).toNat (32 * w * pos) (32 * w)
             (packElems w ((List.range 32).map (fun i => (packed q o i).1))))) 4 u)) s) ∧
       GivesV (.vbqunpk d a sc blk e) s d 4 (fun q o => ofElems 32 ((List.range 32).map (fun i =>
         (fto (ffOf .f32) 0 (blockVal bq8 (code q o 0) (code q o 1)
           (elem (bitsOf (vReg o q a.toNat).toNat (32 * w * pos) (32 * w)) w i))).bits))))) ∧
  (∀ (s : State) (sc : BitVec 3) (a : BitVec 6) (h ts : BitVec 1) (k : BitVec 4) (e : Fmt) (dp : BitVec 10)
       (l : Nat → Loc), Ready s → NoInjection s → (∀ q ∈ issuers s, tableStall (settled s) q = false) →
     let codes := fun (q : Nat) (o : State) (j : Nat) => scaleVal (e == .bq8) (fdec (ffOf .f32) (elem (vReg o q a.toNat).toNat 32 j % 2 ^ 31))
     (exec (.scalegen sc a h k e) s = .next (issued (fun q o t =>
         setFlags q (if (List.range 32).any (fun j => active o q k 32 j && (codes q o j).2.2) then fFLOOR else 0)
           (result q (.sc sc.toNat) (ofElems 8 ((List.range 128).map (fun b =>
             if b / 64 = h.toNat ∧ active o q k 32 (b % 64 / 2) then
               (if b % 2 = 0 then (codes q o (b % 64 / 2)).1 else (codes q o (b % 64 / 2)).2.1)
             else elem (scReg o q sc.toNat).toNat 8 b))) 6 t)) s)) ∧
     ((∀ q ∈ issuers s, access (settled s) q (sReg (settled s) q a.toNat + 128 * dp.signExtend 64) 128 128 winScale false = .ok (l q) ∧
         bankReady (settled s) (l q) 128 = true ∧ poisoned (seen (settled s) q) (l q) 128 = false) →
       Gives (.scld sc a dp) s (.sc sc.toNat) 6 (fun q o => BitVec.ofNat 1024 (readNat (seen o q) (l q) 128))) ∧
     ((∀ q ∈ issuers s, access (settled s) q (sReg (settled s) q a.toNat) 16 16 winTable false = .ok (l q) ∧
         winOf (sReg (settled s) q a.toNat) ≠ 8 ∧ bankReady (settled s) (l q) 16 = true ∧ tabRefd (settled s) q ts.toNat = false) →
       exec (.tbld ts a) s = .next (issued (fun q o t => updBody t q (setTab ts.toNat
         { data := BitVec.ofNat 128 (readNat (seen o q) (l q) 16), loading := true, due := o.clk + 6, stamp := 0, bad := poisoned (seen o q) (l q) 16 })) s)) ∧
     ((∀ q ∈ issuers s, access (settled s) q (sReg (settled s) q a.toNat) 16 16 winTable false = .ok (l q) ∧
         winOf (sReg (settled s) q a.toNat) = 8 ∧ outstanding (settled s) q < 8192 ∧ tabRefd (settled s) q ts.toNat = false) →
       exec (.tbld ts a) s = .next (issued (fun q o t =>
         let op : AccessOp := .table ts.toNat t.nextId (heldBytes o q (l q) 16)
         post q (updBody { t with nextId := t.nextId + 1 } q (setTab ts.toNat { data := 0, loading := true, due := 0, stamp := t.nextId, bad := false }))
           (sReg o q a.toNat) (l q) op none (entryNow o q (.access (sReg o q a.toNat) (l q) op)) []) s)))

/-! ### The special-function slot -/

/-- R413, R414: the functions of each active element, behind a weight block that waits for its table (R292), with the latencies of R412;
FRSQE has no mask and counts the elements it keeps. R329: a hint has no effect.
It rests on choices of the model: assumptions 8, 81. -/
def Obligations.SpecialFunctions : Prop := ∀ (s : State) (d a b : BitVec 6) (k x : BitVec 4) (h : BitVec 2) (z : BitVec 26) (e : Fmt), Ready s →
  (∀ q ∈ issuers s, tableStall (settled s) q = false) →
  let v := fun (q : Nat) (o : State) (i : Nat) => fdec (ffOf e) (vElem o q a.toNat e i)
  let el := fun (r : BitVec 6) (q : Nat) (o : State) (i : Nat) => elem (vReg o q r.toNat).toNat 32 i
  let step := fun (q : Nat) (o : State) (i : Nat) =>
    rsqe x.toNat (fdec (ffOf .f32) (el a q o i)) (fdec (ffOf .f32) (el b q o i)) (fdec (ffOf .f32) (el d q o i))
  GivesLanes (.fexp2 d a k e) s d k e 8 (fun q o i => fnExp2 (ffOf e) (v q o i)) ∧
  GivesLanes (.flog2 d a k e) s d k e 8 (fun q o i => fnLog2 (ffOf e) (v q o i)) ∧
  GivesLanes (.frcp d a k e) s d k e 8 (fun q o i => fnRcp (ffOf e) (v q o i)) ∧
  GivesLanes (.frsq d a k e) s d k e 8 (fun q o i => fnRsq (ffOf e) (v q o i)) ∧
  GivesLanes (.fsqrt d a k e) s d k e 12 (fun q o i => fnSqrt (ffOf e) (v q o i)) ∧
  GivesLanes (.ftanh d a k e) s d k e 12 (fun q o i => fnTanh (ffOf e) (v q o i)) ∧
  GivesLanes (.fsig d a k e) s d k e 12 (fun q o i => fnSig (ffOf e) (v q o i)) ∧
  GivesLanes (.ferf d a k e) s d k e 12 (fun q o i => fnErf (ffOf e) (v q o i)) ∧
  exec (.frsqe d a b x) s = .next (issued (fun q o t =>
    addNan q ((List.range 32).filter (fun i => match step q o i with | .keep _ => true | .set _ => false)).length
      (setFlags q ((List.range 32).foldl (fun f i => fOr f (match step q o i with | .keep y => y | .set y => y.flags)) 0)
        (resultV q d.toNat (ofElems 32 ((List.range 32).map (fun i =>
          match step q o i with | .keep _ => el d q o i | .set y => y.bits))) 16 t))) s) ∧
  exec (.sfHint h z) s = .next (issued (fun _ _ t => t) s)

/-! ### The load-store slot -/

/-- R376, R377, R378, R230: a load from the core's own storages reads its bytes at issue, as its own accesses before it leave them, and writes its register 4 or 5 cycles later: zero- or
sign-extended, a whole vector, or the active elements with the masked-off ones zero. -/
def Obligations.LoadsFromOwnStorages : Prop := ∀ (s : State) (d a x : BitVec 6) (k : BitVec 4) (e : Fmt), Ready s → NoInjection s →
  (∀ (z : BitVec 2) (sg : BitVec 1) (i : BitVec 11) (l : Nat → Loc),
    (∀ q ∈ issuers s, Readable (settled s) q (sReg (settled s) q a.toNat + i.signExtend 64) (2 ^ z.toNat) (2 ^ z.toNat) winLocal false (l q)) →
    GivesS (.ld d a z sg i) s d 4 (fun q o =>
      if sg = 1 then BitVec.ofInt 64 (signed (8 * 2 ^ z.toNat) (readNat (seen o q) (l q) (2 ^ z.toNat))) else BitVec.ofNat 64 (readNat (seen o q) (l q) (2 ^ z.toNat)))) ∧
  (∀ (i : BitVec 10) (l : Nat → Loc),
    (∀ q ∈ issuers s, Readable (settled s) q (sReg (settled s) q a.toNat + 8 * i.signExtend 64) 128 8 winLocal false (l q)) →
    GivesV (.vld d a i) s d 5 (fun q o => BitVec.ofNat 1024 (readNat (seen o q) (l q) 128))) ∧
  (∀ (l : Nat → Nat → Loc),
    (∀ q ∈ issuers s, ∀ j < lanes e, active (settled s) q k e.width j = true →
      Readable (settled s) q (sReg (settled s) q a.toNat + BitVec.ofNat 64 j * sReg (settled s) q x.toNat) (e.width / 8) (e.width / 8) winLocal false (l q j)) →
    GivesV (.vlds d a x k e) s d 5 (fun q o => ofElems e.width ((List.range (lanes e)).map (fun j =>
      if active o q k e.width j then readNat (seen o q) (l q j) (e.width / 8) else 0)))) ∧
  (∀ (l : Nat → Nat → Loc),
    (∀ q ∈ issuers s, ∀ j < lanes e, active (settled s) q k e.width j = true →
      Readable (settled s) q (sReg (settled s) q a.toNat + BitVec.ofNat 64 (vElem (settled s) q x.toNat e j)) (e.width / 8) (e.width / 8) winLocal false (l q j)) →
    GivesV (.vldx d a x k e) s d 5 (fun q o => ofElems e.width ((List.range (lanes e)).map (fun j =>
      if active o q k e.width j then readNat (seen o q) (l q j) (e.width / 8) else 0))))

/-- R376, R377: a store to the core's own storages writes the low bytes of s[B], or the bytes of v[B] that the mask selects, at the place
its pointer reaches, where no earlier access of the core to these storages is under way; a sector stored whole is no longer poisoned (R256), every other byte
of memory stands, and no register is written. R378: a strided or indexed store writes each active element of v[B] at its own address, in element order, so that the element of
higher number stands where two name the same bytes; bytes that no active element names stand. R230: behind accesses of the core to these storages
that are still under way the elements follow in order. -/
def Obligations.StoresAndScatters : Prop :=
  (∀ (s : State) (b a : BitVec 6) (k : BitVec 4) (key : Nat → Nat), Ready s →
     let kept := fun (n : Nat) (byte : Nat → State → Nat → Option Byte) (t : State) =>
       (∀ x, (∀ q ∈ issuers s, x < key q ∨ key q + n ≤ x) → t.mem.byte x = s.mem.byte x) ∧
       (∀ q ∈ issuers s, (∀ u ∈ issuers s, u ≠ q → key u + n ≤ key q ∨ key q + n ≤ key u) → ∀ i < n,
         t.mem.byte (key q + i) = (byte q (settled s) i).getD (s.mem.byte (key q + i))) ∧
       (∀ q ∈ issuers s, ∀ sec, (∀ j < 32, ∃ i < n, key q + i = 32 * sec + j ∧ byte q (settled s) i ≠ none) → t.poison.get false sec = false) ∧
       (∀ q, (coreAt t q).b.r.s = (coreAt (settled s) q).b.r.s ∧ (coreAt t q).b.r.v = (coreAt (settled s) q).b.r.v ∧ (coreAt t q).b.r.res = (coreAt (settled s) q).b.r.res)
     (∀ (z : BitVec 2) (i : BitVec 11),
       (∀ q ∈ issuers s, Reaches (settled s) q (sReg (settled s) q a.toNat + i.signExtend 64) (2 ^ z.toNat) (2 ^ z.toNat) winAll true (.flat (key q)) ∧
         winOf (sReg (settled s) q a.toNat + i.signExtend 64) ≠ 2 ∧ bankReady (settled s) (.flat (key q)) (2 ^ z.toNat) = true ∧ ownPend (settled s) q = []) →
       ∃ t, exec (.st b a z i) s = .next t ∧
         kept (2 ^ z.toNat) (fun q o j => some ((sReg o q b.toNat).extractLsb' (8 * j) 8)) t) ∧
     (∀ i : BitVec 10,
       (∀ q ∈ issuers s, Reaches (settled s) q (sReg (settled s) q a.toNat + 8 * i.signExtend 64) 128 8 winAll true (.flat (key q)) ∧
         winOf (sReg (settled s) q a.toNat + 8 * i.signExtend 64) ≠ 2 ∧ bankReady (settled s) (.flat (key q)) 128 = true ∧ ownPend (settled s) q = []) →
       ∃ t, exec (.vst b a k i) s = .next t ∧
         kept 128 (fun q o j => if k = 0 ∨ (kReg o q k.toNat).getLsbD j = true then some ((vReg o q b.toNat).extractLsb' (8 * j) 8) else none) t)) ∧
  (∀ (s : State) (b a x : BitVec 6) (k : BitVec 4) (e : Fmt) (key : Nat → Nat → Nat), Ready s →
     let w := e.width / 8
     let addr := fun (indexed : Bool) (q : Nat) (j : Nat) => sReg (settled s) q a.toNat +
       (if indexed then BitVec.ofNat 64 (vElem (settled s) q x.toNat e j) else BitVec.ofNat 64 j * sReg (settled s) q x.toNat)
     ∀ indexed : Bool,
       (∀ q ∈ issuers s, ∀ j < lanes e, active (settled s) q k e.width j = true →
         Reaches (settled s) q (addr indexed q j) w w winLocal true (.flat (key q j)) ∧ bankReady (settled s) (.flat (key q j)) w = true) →
       ∃ t, exec (if indexed then .vstx b a x k e else .vsts b a x k e) s = .next t ∧
         (∀ q, issuers s = [q] → ownPend (settled s) q ≠ [] →
           (∀ y, t.mem.byte y = s.mem.byte y) ∧
           t.packets.map (fun p => (p.core, p.after, p.body)) = s.packets.map (fun p => (p.core, p.after, p.body)) ++
             ((List.range (lanes e)).filter (fun j => active (settled s) q k e.width j)).map (fun j =>
               let op : AccessOp := .store ((List.range w).map (fun i => BitVec.ofNat 8 (vElem (settled s) q b.toNat e j / 2 ^ (8 * i)))) (List.replicate w true)
               (q, behindOwn (settled s) q, .access (addr indexed q j) (.flat (key q j)) op none (entryNow (settled s) q (.access (addr indexed q j) (.flat (key q j)) op))))) ∧
         (∀ y, (∀ q ∈ issuers s, ∀ j < lanes e, active (settled s) q k e.width j = true → y < key q j ∨ key q j + w ≤ y) → t.mem.byte y = s.mem.byte y) ∧
         (∀ q, issuers s = [q] → ownPend (settled s) q = [] → ∀ j < lanes e, active (settled s) q k e.width j = true →
           (∀ m < lanes e, j < m → active (settled s) q k e.width m = true → key q m + w ≤ key q j ∨ key q j + w ≤ key q m) → ∀ i < w,
             t.mem.byte (key q j + i) = BitVec.ofNat 8 (vElem (settled s) q b.toNat e j / 2 ^ (8 * i))))

/-- R223, R376, R377, R380: a store to global space or the host window, by a task that is not provisional or within its retractable region (R164), enters the
commit queue, which pauses it with code 6 when full; to the cluster window it is posted; R230: to the core's own storages it follows its earlier accesses there that are still under
way. Memory and registers stand until it performs.
It rests on a choice of the model: assumption 84. -/
def Obligations.HeldAndPostedStores : Prop := ∀ (s : State) (b a : BitVec 6) (k : BitVec 4) (l : Nat → Loc), Ready s →
  let bytes := fun (n : Nat) (v : Nat) => (List.range n).map (fun j => BitVec.ofNat 8 (v / 2 ^ (8 * j)))
  let sMask := fun (n : Nat) => List.replicate n true
  let vMask := fun (q : Nat) (o : State) => (List.range 128).map (fun j => k == 0 || (kReg o q k.toNat).getLsbD j)
  (∀ (z : BitVec 2) (i : BitVec 11),
    let n := 2 ^ z.toNat
    let p := fun (q : Nat) (o : State) => sReg o q a.toNat + i.signExtend 64
    (∀ q ∈ issuers s, Reaches (settled s) q (p q (settled s)) n n winAll true (l q)) →
    ((∀ q ∈ issuers s, isHeldWin (p q (settled s)) = true ∧ (isProv (settled s) q && !locRetr (settled s) q (l q) n) = false ∧
        (coreAt (settled s) q).b.commitQ.length < 256) →
      exec (.st b a z i) s = .next (issued (fun q o t => queued q o (.access (p q o) (l q) (.store (bytes n (sReg o q b.toNat).toNat) (sMask n))) t) s)) ∧
    ((∀ q ∈ issuers s, winOf (p q (settled s)) = 2) →
      exec (.st b a z i) s = .next (issued (fun q o t =>
        let op : AccessOp := .store (bytes n (sReg o q b.toNat).toNat) (sMask n)
        post q t (p q o) (l q) op none (entryNow o q (.access (p q o) (l q) op)) []) s)) ∧
    ((∀ q ∈ issuers s, winOf (p q (settled s)) < 2 ∧ bankReady (settled s) (l q) n = true ∧ ownPend (settled s) q ≠ []) →
      exec (.st b a z i) s = .next (issued (fun q o t =>
        let op : AccessOp := .store (bytes n (sReg o q b.toNat).toNat) (sMask n)
        post q t (p q o) (l q) op none (entryNow o q (.access (p q o) (l q) op)) (behindOwn o q)) s))) ∧
  (∀ i : BitVec 10,
    let p := fun (q : Nat) (o : State) => sReg o q a.toNat + 8 * i.signExtend 64
    (∀ q ∈ issuers s, Reaches (settled s) q (p q (settled s)) 128 8 winAll true (l q)) →
    ((∀ q ∈ issuers s, isHeldWin (p q (settled s)) = true ∧ (isProv (settled s) q && !locRetr (settled s) q (l q) 128) = false ∧
        (coreAt (settled s) q).b.commitQ.length < 256) →
      exec (.vst b a k i) s = .next (issued (fun q o t => queued q o (.access (p q o) (l q) (.store (bytes 128 (vReg o q b.toNat).toNat) (vMask q o))) t) s)) ∧
    ((∀ q ∈ issuers s, winOf (p q (settled s)) = 2) →
      exec (.vst b a k i) s = .next (issued (fun q o t =>
        let op : AccessOp := .store (bytes 128 (vReg o q b.toNat).toNat) (vMask q o)
        post q t (p q o) (l q) op none (entryNow o q (.access (p q o) (l q) op)) []) s)) ∧
    ((∀ q ∈ issuers s, winOf (p q (settled s)) < 2 ∧ bankReady (settled s) (l q) 128 = true ∧ ownPend (settled s) q ≠ []) →
      exec (.vst b a k i) s = .next (issued (fun q o t =>
        let op : AccessOp := .store (bytes 128 (vReg o q b.toNat).toNat) (vMask q o)
        post q t (p q o) (l q) op none (entryNow o q (.access (p q o) (l q) op)) (behindOwn o q)) s)))

/-- R277, R379: LDL takes a landing request due R cycles later and goes on; bytes of the core's own storages are read at issue, any other
access goes out as a packet with the bytes that the stores the core still holds give it (R225). Its own storages it reads as its own accesses before it leave
them (R230).
It rests on choices of the model: assumptions 66, 84. -/
def Obligations.LandingLoads : Prop := ∀ (s : State) (d a : BitVec 6) (f : BitVec 2) (r : BitVec 12) (l : Nat → Loc), Ready s →
  (Instr.ldl d a f r).wf = true →
  let n := if f = 0 then 8 else if f = 1 then 4 else 128
  let dst : Dst := if f = 2 then .v d.toNat else .s d.toNat
  (∀ q ∈ issuers s, Reaches (settled s) q (sReg (settled s) q a.toNat) n (if f = 2 then 8 else n) winAll false (l q) ∧ CanLand (settled s) q ∧
    (winOf (sReg (settled s) q a.toNat) < 2 → bankReady (settled s) (l q) n = true)) →
  exec (.ldl d a f r) s = .next (issued (fun q o t =>
    if isOwn q (l q) = true ∧ bankReady o (l q) n = true then
      awaiting q dst (sReg o q a.toNat) n ((coreAt o q).b.r.vcc + r.toNat) (some (BitVec.ofNat 1024 (readNat (seen o q) (l q) n), poisoned (seen o q) (l q) n)) false t
    else requested q o dst (sReg o q a.toNat) (l q) n ((coreAt o q).b.r.vcc + r.toNat) (fun id => .load n id (heldBytes o q (l q) n)) [] t) s)

/-- R381, R382: an atomic of the core's cluster, and in a checkpoint bundle of a global tensor (R226), takes a landing request and goes out as a packet; one of
its own scratchpad is performed at issue, or follows the core's earlier accesses there that are under way (R230); one of a provisional task outside its
retractable region waits in the hold queue (R164). Each form carries its operation number, its width and s[D]; CAS carries the pair s[D], s[D + 1]. R381: what an atomic or reduction computes on 4 or 8 bytes: ADD, AND, OR, XOR, signed and unsigned MIN and MAX, SWAP, and FADD as FP32
under RNE.
It rests on a choice of the model: assumption 84. -/
def Obligations.AtomicsRequestAndAnswer : Prop :=
  (∀ (s : State) (d a : BitVec 6) (w : BitVec 1) (l : Nat → Loc), Ready s →
     let n := if w = 1 then 8 else 4
     let issue := fun (i : Instr) (n due : Nat) (op : Nat → State → Nat → AccessOp) =>
       (∀ q ∈ issuers s, Reaches (settled s) q (sReg (settled s) q a.toNat) n n winAtomic true (l q) ∧ CanLand (settled s) q) →
       ((∀ q ∈ issuers s, winOf (sReg (settled s) q a.toNat) = 2) →
         exec i s = .next (issued (fun q o t =>
           requested q o (.s d.toNat) (sReg o q a.toNat) (l q) n ((coreAt o q).b.r.vcc + due) (op q o) [] t) s)) ∧
       ((∀ q ∈ issuers s, winOf (sReg (settled s) q a.toNat) = 1 ∧ bankReady (settled s) (l q) n = true) →
         exec i s = .next (issued (fun q o t =>
           if ownPend o q = [] then answered q (.s d.toNat) (sReg o q a.toNat) (l q) n ((coreAt o q).b.r.vcc + due) (op q o) t
           else requested q o (.s d.toNat) (sReg o q a.toNat) (l q) n ((coreAt o q).b.r.vcc + due) (op q o) (behindOwn o q) t) s)) ∧
       ((∀ q ∈ issuers s, winOf (sReg (settled s) q a.toNat) = 8 ∧ (coreAt (settled s) q).b.hdrCkpt = true ∧ keptAmo (settled s) q d.toNat = none ∧
           (isProv (settled s) q && !locRetr (settled s) q (l q) n) = false) →
         exec i s = .next (issued (fun q o t =>
           let u := requested q o (.s d.toNat) (sReg o q a.toNat) (l q) n ((coreAt o q).b.r.vcc + due) (op q o) [] t
           updBody u q (fun b => { b with amoKeep := b.amoKeep ++ b.r.lands.drop (b.r.lands.length - 1) })) s)) ∧
       ((∀ q ∈ issuers s, winOf (sReg (settled s) q a.toNat) = 8 ∧ (coreAt (settled s) q).b.hdrCkpt = true ∧ keptAmo (settled s) q d.toNat = none ∧
           isProv (settled s) q = true ∧ locRetr (settled s) q (l q) n = false ∧ (coreAt (settled s) q).b.holdQ.length < 64) →
         exec i s = .next (issued (fun q o t =>
           let u := heldBack q o (.access (sReg o q a.toNat) (l q) (op q o t.nextId))
             (awaiting q (.s d.toNat) (sReg o q a.toNat) n ((coreAt o q).b.r.vcc + due) none true t)
           updBody u q (fun b => { b with amoKeep := b.amoKeep ++ b.r.lands.drop (b.r.lands.length - 1) })) s))
     (∀ f : BitVec 9, let amo := fun (opc : Nat) (q : Nat) (o : State) (id : Nat) => AccessOp.amo opc (w == 1) (sReg o q d.toNat) id
       issue (.amoAdd d a w f) n (8 * f.toNat) (amo 0) ∧ issue (.amoAnd d a w f) n (8 * f.toNat) (amo 1) ∧
       issue (.amoOr d a w f) n (8 * f.toNat) (amo 2) ∧ issue (.amoXor d a w f) n (8 * f.toNat) (amo 3) ∧
       issue (.amoMin d a w f) n (8 * f.toNat) (amo 4) ∧ issue (.amoMax d a w f) n (8 * f.toNat) (amo 5) ∧
       issue (.amoMinu d a w f) n (8 * f.toNat) (amo 6) ∧ issue (.amoMaxu d a w f) n (8 * f.toNat) (amo 7) ∧
       issue (.amoSwap d a w f) n (8 * f.toNat) (amo 8) ∧
       issue (.amoFadd d a f) 4 (8 * f.toNat) (fun q o id => .amo 9 false (sReg o q d.toNat) id)) ∧
     ∀ r : BitVec 12, issue (.cas d a w r) n r.toNat (fun q o id => .cas (w == 1) (sReg o q d.toNat) (sReg o q (d.toNat + 1)) id)) ∧
  (∀ (w8 : Bool) (m b : Nat),
     let w := if w8 then 64 else 32
     let x := BitVec.ofNat w m
     let y := BitVec.ofNat w b
     m < 2 ^ w →
     amoVal 0 w8 m b = (x + y).toNat ∧ amoVal 1 w8 m b = (x &&& y).toNat ∧ amoVal 2 w8 m b = (x ||| y).toNat ∧ amoVal 3 w8 m b = (x ^^^ y).toNat ∧
     amoVal 4 w8 m b = (if x.toInt ≤ y.toInt then x else y).toNat ∧ amoVal 5 w8 m b = (if x.toInt < y.toInt then y else x).toNat ∧
     amoVal 6 w8 m b = (if x ≤ y then x else y).toNat ∧ amoVal 7 w8 m b = (if x < y then y else x).toNat ∧ amoVal 8 w8 m b = y.toNat ∧
     amoVal 9 w8 m b = (fadd (ffOf .f32) 0 (fdec (ffOf .f32) m) (fdec (ffOf .f32) y.toNat)).bits)

/-- R381, R382: each reduction is issued under its operation number, its width and s[B], in every window it may name: to global space it enters the commit queue,
or, of a provisional task outside its retractable region, the hold queue (R164); to the cluster window it is posted; in the core's own scratchpad it is
performed at issue, or behind the core's earlier accesses there that are under way (R230), and then the bytes it names hold the combined value and every other byte
of memory stands.
It rests on a choice of the model: assumption 83. -/
def Obligations.ReductionsPerform : Prop := ∀ (s : State) (a b : BitVec 6) (w : BitVec 1) (l : Nat → Loc), Ready s →
  let p := fun (q : Nat) (o : State) => sReg o q a.toNat
  let issue := fun (i : Instr) (w8 : Bool) (opc : Nat) =>
    let n := if w8 then 8 else 4
    let op := fun (q : Nat) (o : State) => AccessOp.red opc w8 (sReg o q b.toNat)
    let body := fun (q : Nat) (o : State) => CBody.access (p q o) (l q) (op q o)
    let back := fun (q : Nat) (o : State) => isProv o q && !locRetr o q (l q) n
    (∀ q ∈ issuers s, Reaches (settled s) q (p q (settled s)) n n winAtomic true (l q)) →
    ((∀ q ∈ issuers s,
        (winOf (p q (settled s)) = 8 → if back q (settled s) then (coreAt (settled s) q).b.holdQ.length < 64 else (coreAt (settled s) q).b.commitQ.length < 256) ∧
        (winOf (p q (settled s)) = 1 → bankReady (settled s) (l q) n = true)) →
      exec i s = .next (issued (fun q o t =>
        if winOf (p q o) = 8 then (if back q o then heldBack q o (body q o) t else queued q o (body q o) t)
        else if winOf (p q o) = 2 then post q t (p q o) (l q) (op q o) none (entryNow o q (body q o)) []
        else if ownPend o q = [] then (applyOp t (l q) (op q o) (putFlat (l q))).1
        else post q t (p q o) (l q) (op q o) none (entryNow o q (body q o)) (behindOwn o q)) s)) ∧
    (∀ q key, issuers s = [q] → l q = .flat key → winOf (p q (settled s)) = 1 → bankReady (settled s) (l q) n = true → ownPend (settled s) q = [] →
      ∃ t, exec i s = .next t ∧ (∀ x, x < key ∨ key + n ≤ x → t.mem.byte x = s.mem.byte x) ∧
        leNat (t.mem.bytes key n) = amoVal opc w8 (leNat (s.mem.bytes key n)) (sReg (settled s) q b.toNat).toNat % 2 ^ (8 * n))
  issue (.redAdd a b w) (w == 1) 0 ∧ issue (.redAnd a b w) (w == 1) 1 ∧ issue (.redOr a b w) (w == 1) 2 ∧ issue (.redXor a b w) (w == 1) 3 ∧
  issue (.redMin a b w) (w == 1) 4 ∧ issue (.redMax a b w) (w == 1) 5 ∧ issue (.redMinu a b w) (w == 1) 6 ∧ issue (.redMaxu a b w) (w == 1) 7 ∧
  issue (.redFadd a b) false 9

/-- R383, R384, R242: LD.ACQ and HINGE.ACQ read the value a load would see, after the core's own accesses to it; HINGE.ACQ waits with code
10 until the flag is at least s[B], and goes on then. R383: ST.REL to global space or the host window is held as a release of its scope;
in the other windows it is posted behind every earlier access, those still held included. R218: the read counts down the line's expected reads. R241: HINGE.REL enters the commit queue with its flag and chain word.
It rests on choices of the model: assumptions 29, 63. -/
def Obligations.AcquireAndRelease : Prop := ∀ (s : State) (d a b : BitVec 6) (z : BitVec 1) (sc : BitVec 3) (l : Nat → Loc), Ready s →
  let n := if z = 1 then 8 else 4
  let p := fun (q : Nat) (o : State) => sReg o q a.toNat
  let value := fun (n : Nat) (q : Nat) (o : State) => BitVec.ofNat 64 (leNat (overlay o q (l q) n))
  let clean := fun (n q : Nat) => poisonBeyond (settled s) (l q) n (heldBytes (settled s) q (l q) n) = false ∧ locGone (settled s) (l q) = false ∧ Settled (settled s) q (l q) n
  ((∀ q ∈ issuers s, Reaches (settled s) q (p q (settled s)) n n winAtomic false (l q) ∧ bankReady (settled s) (l q) n = true ∧ clean n q) →
    exec (.ldAcq d a z sc) s = .next (issued (fun q o t => resultS q d.toNat (value n q o) 1 (acqRead q (l q) n t)) s)) ∧
  ((∀ q ∈ issuers s, Reaches (settled s) q (p q (settled s)) n n winRelease true (l q)) →
    let op := fun (q : Nat) (o : State) => AccessOp.store ((List.range n).map (fun j => (sReg o q b.toNat).extractLsb' (8 * j) 8)) (List.replicate n true)
    ((∀ q ∈ issuers s, isHeldWin (p q (settled s)) = true ∧ (isProv (settled s) q && !locRetr (settled s) q (l q) n) = false ∧
        (coreAt (settled s) q).b.commitQ.length < 256) →
      exec (.stRel b a z sc) s = .next (issued (fun q o t => queued q o (.rel sc.toNat (p q o) (l q) (op q o)) t) s)) ∧
    ((∀ q ∈ issuers s, isHeldWin (p q (settled s)) = false) →
      exec (.stRel b a z sc) s = .next (issued (fun q o t =>
        post q t (p q o) (l q) (op q o) none (entryNow o q (.rel sc.toNat (p q o) (l q) (op q o))) ((coreAt t q).out ++ heldId t q)) s))) ∧
  ((∀ q ∈ issuers s, isProv (settled s) q = false ∧ Reaches (settled s) q (p q (settled s)) 8 8 winGlobal true (l q) ∧ clean 8 q ∧
      (sReg (settled s) q b.toNat).toNat ≤ leNat (overlay (settled s) q (l q) 8)) →
    exec (.hingeAcq d a b) s = .next (issued (fun q o t => resultS q d.toNat (value 8 q o) 1 (acqRead q (l q) 8 t)) s)) ∧
  ((∀ q ∈ issuers s, isProv (settled s) q = false ∧ Reaches (settled s) q (p q (settled s)) 8 8 winGlobal true (l q) ∧
      (coreAt (settled s) q).b.commitQ.length < 256 ∧ (sReg (settled s) q d.toNat).getLsbD 23 = false ∧ fieldW (sReg (settled s) q d.toNat) 38 26 = 0 ∧
      (ctx (settled s) (fieldW (sReg (settled s) q d.toNat) 32 6)).part.toNat = taskPart (settled s) q) →
    exec (.hingeRel d a b) s = .next (issued (fun q o t => queued q o (.hinge (p q o)
      { flagH := fieldW (p q o) 40 23, flagO := fieldW (p q o) 0 40, value := sReg o q b.toNat, head := fieldW (sReg o q d.toNat) 0 23,
        count := fieldW (sReg o q d.toNat) 24 8 + 1, newown := fieldW (sReg o q d.toNat) 32 6 }) t) s))

/-- R211: BGIVE by an entry's owner is held by a core-granular task, and takes effect two cycles later in a lockstep group, where the owner
alone executes it. R214: SYNCARM writes TARGET and a COUNT of zero and leaves GEN, at once or behind the core's earlier accesses (R230) in the own scratchpad and
posted to the cluster window. R218: PREF sets the expected read count of a line that is not dirty and is nothing but a hint elsewhere. R329: a hint has no effect. R284, R387: SPILL writes 32 mantissa words of a spill slot that no queued MX command uses, leaves their guard words, and sets the slot's
bit of the spill map; FILL reads the words of a slot into a vector, or the first two into a scalar, three cycles later.
It rests on choices of the model: assumptions 82, 99. -/
def Obligations.BuffersSpillsAndPrefetch : Prop :=
  (∀ (s : State) (a b : BitVec 6) (h : BitVec 2) (x : BitVec 4) (o2 : BitVec 2) (z : BitVec 26) (l : Nat → Loc),
     Ready s → NoInjection s →
     let entry := fun (q : Nat) (o : State) => (coreAt o (clusterCore (coreCluster q) h.toNat)).b.r.bufs.get 0 x.toNat
     let armed := fun (q : Nat) (o : State) => (List.range 4).map (fun j => (sReg o q b.toNat).extractLsb' (8 * j) 8) ++ [0, 0, 0, 0]
     ((∀ q ∈ issuers s, isGroup (settled s) q = false ∧ (entry q (settled s)).getLsbD 0 = true ∧ fieldW (entry q (settled s)) 1 2 = coreCic q ∧
         (coreAt (settled s) q).b.commitQ.length < 256) →
       exec (.bgive h x o2) s = .next (issued (fun q o t => queued q o (.bgive (clusterCore (coreCluster q) h.toNat) x.toNat o2.toNat) t) s)) ∧
     ((∀ q ∈ issuers s, isGroup (settled s) q = true ∧ (entry q (settled s)).getLsbD 0 = true) →
       exec (.bgive h x o2) s = .next (issued (fun q o t =>
         if fieldW (entry q o) 1 2 = coreCic q then
           updRegs t (clusterCore (coreCluster q) h.toNat) (fun r =>
             { r with res := r.res ++ [{ dst := .buf x.toNat, val := BitVec.ofNat 1024 o2.toNat, due := (coreAt o q).b.r.vcc + 2 }] })
         else t) s)) ∧
     ((∀ q ∈ issuers s, isProv (settled s) q = false ∧ Reaches (settled s) q (sReg (settled s) q a.toNat) 16 16 winSync true (l q) ∧
         (winOf (sReg (settled s) q a.toNat) = 2 ∨ bankReady (settled s) (l q) 8 = true)) →
       exec (.syncarm a b) s = .next (issued (fun q o t =>
         if winOf (sReg o q a.toNat) = 2 ∨ ownPend o q ≠ [] then
           post q t (sReg o q a.toNat) (l q) (.store (armed q o) (List.replicate 8 true)) none
             (entryNow o q (.access (sReg o q a.toNat) (l q) (.store (armed q o) (List.replicate 8 true)))) (if winOf (sReg o q a.toNat) = 2 then [] else behindOwn o q)
         else putFlat (l q) t (armed q o) (List.replicate 8 true)) s)) ∧
     exec (.pref a x) s = .next (issued (fun q o t =>
       let p := sReg o q a.toNat
       let line := l2Key (coreDie q) (fieldW p 40 23) (fieldW p 0 40)
       if winOf p = 8 ∧ rangeMap o q (fieldW p 40 23) (fieldW p 0 40) 1 false = none ∧ x ≠ 0 ∧ t.l2Dirty.get false line = false then
         { t with l2 := t.l2.set 0 line (x.toNat + 1) }
       else t) s) ∧
     exec (.lsHint h z) s = .next (issued (fun _ _ t => t) s)) ∧
  (∀ (s : State) (r : BitVec 6) (j : BitVec 10), Ready s →
     (∀ q ∈ issuers s, slotBusy (settled s) q j.toNat = false) →
     let cell := fun (i : Nat) => j.toNat / 512 * 16384 + (32 * (j.toNat % 4) + i) * 128 + j.toNat / 4 % 128
     let words := fun (q : Nat) (o : State) => (List.range 32).map (fun i => ((coreAt o q).b.acc.get 0 (cell i)).toNat % 2 ^ 32)
     (∀ v : BitVec 1, ∃ t, exec (.spill r v j) s = .next t ∧ ∀ q ∈ issuers s,
       let x : Vec := if v = 1 then vReg (settled s) q r.toNat else (sReg (settled s) q r.toNat).setWidth 1024
       (∀ i < 32, ((coreAt t q).b.acc.get 0 (cell i)).toNat = ((coreAt s q).b.acc.get 0 (cell i)).toNat / 2 ^ 32 * 2 ^ 32 + (x.extractLsb' (32 * i) 32).toNat) ∧
       (∀ k, (∀ i < 32, k ≠ cell i) → (coreAt t q).b.acc.get 0 k = (coreAt s q).b.acc.get 0 k) ∧
       (∀ i < 1024, (coreAt t q).b.r.spill.getLsbD i = ((coreAt (settled s) q).b.r.spill.getLsbD i || decide (i = j.toNat)))) ∧
     GivesV (.fill r 1 j) s r 3 (fun q o => ofElems 32 (words q o)) ∧
     GivesS (.fill r 0 j) s r 3 (fun q o => (ofElems 32 (words q o)).setWidth 64))

/-! ### Control -/

/-- R353: a transfer is taken to its target, which must be a code address of the loaded image; the bundle there issues three cycles later
and the idle count, on every core of the group. CALL and CALLR leave the address of the next bundle in s[D] one cycle later. A branch that
is not taken falls through. R326: another target is the precise fault ILLEGAL. -/
def Obligations.ControlTransfers : Prop := ∀ (s : State) (i26 : BitVec 26) (i20 : BitVec 20) (d a : BitVec 6), Ready s →
  let o := settled s
  let c := lead s
  let here := (coreAt o c).b.r.pc
  let link := fun (u : State) => onCores (fun q u => resultS q d.toNat (here + BitVec.ofNat 64 (coreAt o c).b.hdrLen) 1 u) (groupOf o c) u
  let goes := fun (i : Instr) (t : Word) (k : State → State) =>
    (isCodeAddr o c t = true → exec i s = .next (issuedLead (fun c _ u => takes t c (k u)) s) ∧
      ∀ q ∈ issuers s, (coreAt (issuedLead (fun c _ u => takes t c (k u)) s) q).b.r.pc = t ∧
        (coreAt (issuedLead (fun c _ u => takes t c (k u)) s) q).b.r.vcc = (coreAt o q).b.r.vcc + 3 + (coreAt o q).b.hdrIdle) ∧
    (isCodeAddr o c t = false → exec i s = .next (takeFault (issuers s) (faultHere s c codeIllegal 0 none 0) s))
  let falls := fun (i : Instr) => exec i s = .next (issuedLead (fun _ _ u => u) s)
  goes (.br i26) (here + 4 * i26.signExtend 64) id ∧
  (sReg o c a.toNat = 0 → goes (.brz a i20) (here + 4 * i20.signExtend 64) id ∧ falls (.brnz a i20)) ∧
  (sReg o c a.toNat ≠ 0 → goes (.brnz a i20) (here + 4 * i20.signExtend 64) id ∧ falls (.brz a i20)) ∧
  goes (.call d i20) (here + 4 * i20.signExtend 64) link ∧
  goes (.callr d a) (sReg o c a.toNat) link ∧
  goes (.ret a) (sReg o c a.toNat) id

/-- R354: LOOP sets a counter, the start of its body after the LOOP bundle and the end bundle END words ahead; a count of zero skips the
body; an END of zero or outside the code is refused. R355: at the end bundle of a loop, whose counter is examined with lc1 first, a counter of at
least two is counted down and issue goes on at the start in one cycle; a counter of one is counted down and issue falls through. -/
def Obligations.LoopsRepeat : Prop := ∀ (s : State) (l : BitVec 1) (n e : BitVec 12) (a : BitVec 6) (h : BitVec 2) (z : BitVec 26), Ready s →
  let o := settled s
  let c := lead s
  let start := (coreAt o c).b.r.pc + BitVec.ofNat 64 (coreAt o c).b.hdrLen
  let stop := (coreAt o c).b.r.pc + 4 * e.setWidth 64
  let sets := fun (x : LoopCtr) (u : State) => onCores (fun q u => updRegs u q (fun r => if l = 1 then { r with lc1 := x } else { r with lc0 := x })) (groupOf o c) u
  let loops := fun (i : Instr) (m : Nat) =>
    (e = 0 ∨ isCodeAddr o c stop = false → exec i s = .next (takeFault (issuers s) (faultHere s c codeIllegal 0 none 0) s)) ∧
    (e ≠ 0 → isCodeAddr o c stop = true → m ≠ 0 →
      exec i s = .next (issuedLead (fun _ _ u => sets { count := BitVec.ofNat 32 m, start := start, stop := some stop } u) s)) ∧
    (e ≠ 0 → isCodeAddr o c stop = true → m = 0 → isCodeAddr o c (stop + BitVec.ofNat 64 (bundleLen (codeWord o c stop))) = true →
      ∃ t, exec i s = .next t ∧ ∀ q ∈ issuers s, (coreAt t q).b.r.pc = stop + BitVec.ofNat 64 (bundleLen (codeWord o c stop)))
  loops (.loop l n e) n.toNat ∧ loops (.loopReg l a e) ((sReg o c a.toNat).toNat % 2 ^ 32) ∧
  ((coreAt o c).b.taken = none → ∃ t, exec (.ctlHint h z) s = .next t ∧ ∀ q ∈ issuers s,
    let r := (coreAt o q).b.r
    let x := (coreAt t q).b.r
    let at1 := r.lc1.stop = some r.pc
    let at0 := r.lc0.stop = some r.pc
    let back1 := at1 ∧ 2 ≤ r.lc1.count.toNat
    let back0 := ¬ back1 ∧ at0 ∧ 2 ≤ r.lc0.count.toNat
    x.vcc = r.vcc + 1 + (coreAt o q).b.hdrIdle ∧
    (back1 → x.pc = r.lc1.start ∧ x.lc0 = r.lc0) ∧ (back0 → x.pc = r.lc0.start) ∧
    (¬ back1 → ¬ back0 → x.pc = r.pc + BitVec.ofNat 64 (coreAt o q).b.hdrLen) ∧
    x.lc1.count.toNat = (if at1 then r.lc1.count.toNat - 1 else r.lc1.count.toNat) ∧
    x.lc0.count.toNat = (if at0 ∧ ¬ back1 then r.lc0.count.toNat - 1 else r.lc0.count.toNat))

/-- R356: a TEND whose commands have all ended without an unconsumed fault, whose landings have arrived and which stands in no rerun ends the
task: the commit queue is released, the core is freed and its launch counts one task less. R357: ERET in a handler resumes at the saved
bundle three cycles and the idle count later, ERET.SKIP after it, both at the boundary for a deferred store; outside one they are ILLEGAL. -/
def Obligations.TaskEndsAndHandlerReturns : Prop := ∀ (s : State), Ready s →
  let o := settled s
  let c := lead s
  ((∀ q ∈ issuers s, liveToks (settled s) q = [] ∧ faultTok (settled s) q = none ∧ (coreAt o q).b.check = none ∧
      (coreAt o q).b.r.lands.all (fun l => l.data.isSome) = true) →
    ∃ t, exec .tend s = .next t ∧ ∀ q ∈ issuers s, (coreAt t q).b.task = none ∧ (coreAt t q).b.commitQ = [] ∧ (coreAt t q).b.r.lands = []) ∧
  ((coreAt o c).b.inHandler = false → ∀ i ∈ [Instr.eret, Instr.eretSkip],
    exec i s = .next (takeFault (issuers s) (faultHere s c codeIllegal 0 none 0) s)) ∧
  ((coreAt o c).b.inHandler = true → ∀ skip : Bool,
    let b := (coreAt o c).b
    let target := if skip && fieldW b.fltstat 0 8 != codeDeferred.toNat then b.fltpc + BitVec.ofNat 64 (bundleLen (codeWord o c b.fltpc)) else b.resumePc
    ∃ t, exec (if skip then .eretSkip else .eret) s = .next t ∧ (coreAt t c).b.inHandler = false ∧ (coreAt t c).b.r.pc = target ∧
      (coreAt t c).b.r.vcc = b.r.vcc + 3 + b.hdrIdle ∧ (coreAt t c).b.latched = [] ∧ (coreAt t c).b.latchedL = [] ∧
      (coreAt t c).b.r.res = b.r.res ++ b.latched.map (fun x => { x with due := x.due + (b.r.vcc + 3 + b.hdrIdle) }) ∧
      (coreAt t c).b.r.lands = b.r.lands ++ b.latchedL.map (fun x => { x with due := x.due + (b.r.vcc + 3 + b.hdrIdle) }))

/-- R245, R246: TRAP is a precise fault at its bundle: FLTSTAT takes the code and the slot, FLTPC and FLTVCC the bundle, FLTADDR the
immediate; with a handler set and none running, results in flight are latched with their remaining offsets (those due in the idle span before the bundle stay, and are
written before the next bundle reads: R274, R278) and issue goes on at TRAPVEC three cycles later;
with TRAPVEC zero or in a handler the task ends and its launch fails with the code. -/
def Obligations.TrapEntersHandler : Prop := ∀ (s : State) (i : BitVec 20), Ready s →
  let c := lead s
  let b := (coreAt s c).b
  (b.trapvec ≠ 0 → b.inHandler = false → isCodeAddr s c b.trapvec = true →
    ∃ t, exec (.trap i) s = .next t ∧ t.mem = s.mem ∧ ∀ q ∈ issuers s,
      let x := (coreAt t q).b
      let y := (coreAt s q).b
      x.fltstat = BitVec.ofNat 64 codeTrap.toNat ∧ x.fltpc = b.r.pc ∧ x.fltvcc = BitVec.ofNat 48 b.r.vcc ∧ x.fltaddr = i.setWidth 64 ∧
      x.inHandler = true ∧ x.resumePc = b.r.pc ∧ x.r.pc = b.trapvec ∧ x.r.vcc = y.r.vcc + 3 ∧ x.r.lands = y.r.lands.filter (fun z => decide (z.due < y.r.vcc) && z.data.isSome) ∧ x.r.s = y.r.s ∧ x.r.v = y.r.v ∧ x.r.k = y.r.k ∧
      x.latched = (y.r.res.filter (fun z => decide (y.r.vcc ≤ z.due) && !isBuf z.dst)).map (fun z => { z with due := z.due - y.r.vcc }) ∧
      x.latchedL = (y.r.lands.filter (fun z => !(decide (z.due < y.r.vcc) && z.data.isSome))).map (fun z => { z with due := z.due - y.r.vcc })) ∧
  (b.trapvec = 0 ∨ b.inHandler = true →
    ∃ t, exec (.trap i) s = .next t ∧ ∀ q ∈ issuers s, (coreAt t q).b.task = none ∧ (coreAt t q).b.commitQ = [] ∧ (coreAt t q).b.holdQ = [] ∧
      fieldW (coreAt t q).b.fltstat 0 8 = codeTrap.toNat ∧ (coreAt t q).b.fltpc = b.r.pc)

/-- R358, R359: WAITT goes on when none of its commands is pending, and takes the fault of the lowest-numbered one that ended FAULT; WAITG
when GEN differs from the value given, after the core's own accesses to the sync word; a bank that is not READY begins its wake (R27). DRAIN goes on when every access has performed and every command ended, and puts a barrier behind held entries; FENCE.T,
in a checkpoint bundle, drops the cached entries of the dies its scope covers; FENCE.SV goes on once no delta is outstanding. Until
then each pauses with its cause. -/
def Obligations.WaitsAndFences : Prop := ∀ (s : State) (x y z a b : BitVec 6) (sc : BitVec 3) (l : Loc), Ready s →
  let o := settled s
  let c := lead s
  let g := groupOf o c
  let goes := fun (i : Instr) => exec i s = .next (issuedLead (fun _ _ u => u) s)
  let holds := fun (i : Instr) (cause : Nat) => exec i s = .next (setPause (issuers s) cause s)
  let named := fun (q t : Nat) (st : TokStatus) => q ∈ g ∧ (t = x.toNat ∨ t = y.toNat ∨ t = z.toNat) ∧ (tokRec o q t).used = true ∧ (tokRec o q t).status = st
  ((∀ q t, ¬ named q t .pending ∧ ¬ named q t .fault) → goes (.waitt x y z)) ∧
  ((∃ q t, named q t .pending) → holds (.waitt x y z) 4) ∧
  ((∀ q t, ¬ named q t .pending) → ∀ q t, named q t .fault → (∀ q' t', named q' t' .fault → t < t' ∨ (t = t' ∧ (q = q' ∨ q < q'))) →
    exec (.waitt x y z) s = .next (takeFault (issuers s) (faultHere s c (tokRec o q t).code 0 (some t) 0)
      (setTok s q t (fun k => { k with taken := true })))) ∧
  (Reaches o c (sReg o c a.toNat) 16 16 winSync false l → bankReady o l 16 = false →
    exec (.waitg a b) s = .next (setPause (issuers s) 2 (wake (unready o l 16) s))) ∧
  (Reaches o c (sReg o c a.toNat) 16 16 winSync false l → bankReady o l 16 = true → pendingTo o c l 16 = true → holds (.waitg a b) 5) ∧
  (Reaches o c (sReg o c a.toNat) 16 16 winSync false l → bankReady o l 16 = true → pendingTo o c l 16 = false →
    let gen := readNat o l 16 / 2 ^ 64 % 2 ^ 32
    (gen ≠ (sReg o c b.toNat).toNat % 2 ^ 32 → goes (.waitg a b)) ∧ (gen = (sReg o c b.toNat).toNat % 2 ^ 32 → holds (.waitg a b) 5)) ∧
  ((∀ q ∈ g, allPerformed o q = true ∧ liveToks o q = []) →
    exec (.drain sc) s = .next (issuedLead (fun _ _ u => onCores (fun q u => updBody u q (fun b => if b.commitQ = [] then b
      else { b with commitQ := b.commitQ ++ [{ body := .barrier sc.toNat, pc := b.r.pc, vcc := b.r.vcc }] })) g u) s)) ∧
  ((∃ q ∈ g, allPerformed o q = false ∨ liveToks o q ≠ []) → holds (.drain sc) 11) ∧
  ((coreAt o c).b.hdrCkpt = true → (∀ q ∈ g, allPerformed o q = true) →
    exec (.fenceT sc) s = .next (issuedLead (fun c o u => dropTlb u (if sc = 2 then [coreDie c] else if sc = 3 then partDies o (taskPart o c) else List.range 8)) s)) ∧
  ((coreAt o c).b.hdrCkpt = false → exec (.fenceT sc) s = .next (takeFault (issuers s) (faultHere s c codeIllegal 0 none 0) s)) ∧
  ((∀ q ∈ g, outLive o q = [] ∧ ∀ p ∈ o.packets, p.core = q → ∀ k n e, p.body ≠ .delta k n e) → goes .fenceSvDie ∧ goes .fenceSvModule) ∧
  ((∃ q ∈ g, outLive o q ≠ []) → holds .fenceSvDie 11 ∧ holds .fenceSvModule 11) ∧
  (∀ p ∈ o.packets, p.core ∈ g → (∃ k n e, p.body = .delta k n e) →
    (p.lane = 3 → o.degraded = false → holds .fenceSvDie 11 ∧ holds .fenceSvModule 11) ∧ (p.lane = 4 → holds .fenceSvModule 11))

/-- R361, R282: SYSR reads a system register two cycles later, each core of a group its own; an index that names none is ILLEGAL.
SYSW writes TRAPVEC, TKSEL, NUMSTAT, the loop counters and SPSTAT, and the buffer-table entry of each core; a read-only register
ignores it; SPGATE is for privileged tasks alone. R255, R360: SEGCHK compares the VCCs and the CRC of the segment with its constant: a passing check begins the next segment, a failing one is
the detected error SEG_MISMATCH. R362: YIELDP has no effect unless a persistent task is being pre-empted softly. R117, R363: SHAPEPUB in a
checkpoint bundle of a confirmed task publishes a truth of at most 65,535 into a slot that holds none, and SHAPEPUB.CLR clears the slot.
It rests on a choice of the model: assumption 95. -/
def Obligations.SystemRegistersSegmentsAndShapes : Prop :=
  (∀ (s : State) (d a : BitVec 6) (i : BitVec 12), Ready s →
     let o := settled s
     let c := lead s
     let g := groupOf o c
     let x := sReg o c a.toNat
     let b := fun (q : Nat) => (coreAt o q).b
     let illegal := fun (j : Instr) => exec j s = .next (takeFault (issuers s) (faultHere s c codeIllegal 0 none 0) s)
     let writes := fun (n : BitVec 12) (f : Body → Body) => exec (.sysw a n) s = .next (issuedLead (fun _ _ u => onCores (fun q u => updBody u q f) g u) s)
     (sysReg o c i.toNat = none → illegal (.sysr d i) ∧ illegal (.sysw a i)) ∧
     (sysReg o c i.toNat ≠ none →
       exec (.sysr d i) s = .next (issuedLead (fun _ o u => onCores (fun q u => resultS q d.toNat ((sysReg o q i.toNat).getD 0) 2 u) g u) s)) ∧
     (∀ q, sysReg o q 1 = some (BitVec.ofNat 64 ((b q).r.vcc % 2 ^ 48)) ∧ sysReg o q 0x20 = some (b q).fltstat ∧ sysReg o q 0x21 = some (b q).fltpc ∧
       sysReg o q 0x22 = some ((b q).fltvcc.setWidth 64) ∧ sysReg o q 0x23 = some (b q).fltaddr ∧ sysReg o q 0x24 = some (b q).trapvec ∧
       sysReg o q 0x40 = some (b q).numstat ∧ sysReg o q 0x48 = some ((b q).r.lc0.count.setWidth 64) ∧ sysReg o q 0x49 = some ((b q).r.lc1.count.setWidth 64) ∧
       sysReg o q 0x60 = some (BitVec.ofNat 64 ((coreAt o q).gate.toNat + (coreAt o q).ready.toNat * 2 ^ 32)) ∧ sysReg o q 0x61 = some (coreAt o q).spstat ∧
       (∀ j < 16, sysReg o q (0x50 + j) = some ((b q).r.bufs.get 0 j) ∧ sysReg o q (0x10 + j) = some ((b q).r.spill.extractLsb' (64 * j) 64)) ∧
       ∀ j ∈ [3, 0x0F, 0x25, 0x2F, 0x41, 0x47, 0x4A, 0x4F, 0x62, 4095], sysReg o q j = none) ∧
     writes 0x24 (fun k => { k with trapvec := x }) ∧ writes 0x30 (fun k => { k with tksel := x.setWidth 6 }) ∧
     writes 0x40 (fun k => { k with numstat := BitVec.ofNat 64 (Nat.land (fieldW k.numstat 0 8) (255 - fieldW x 0 8) + fieldW x 16 16 * 2 ^ 16) }) ∧
     writes 0x48 (fun k => { k with r := { k.r with lc0 := { k.r.lc0 with count := x.setWidth 32 } } }) ∧
     writes 0x49 (fun k => { k with r := { k.r with lc1 := { k.r.lc1 with count := x.setWidth 32 } } }) ∧
     (∀ n ∈ [0x00, 0x01, 0x02, 0x10, 0x1F, 0x20, 0x21, 0x22, 0x23, 0x31, 0x3F], exec (.sysw a (BitVec.ofNat 12 n)) s = .next (issuedLead (fun _ _ u => u) s)) ∧
     exec (.sysw a 0x61) s = .next (issuedLead (fun _ _ u => onCores (fun q u => updCore u q (fun k => { k with spstat := k.spstat &&& ~~~ (x &&& 1) })) g u) s) ∧
     (isPriv o c = false → exec (.sysw a 0x60) s = .next (takeFault (issuers s) (faultHere s c codePrivilege 0 none 0) s)) ∧
     (isPriv o c = true → exec (.sysw a 0x60) s = .next (issuedLead (fun _ _ u => onCores (fun q u => writeSpgate u q x) g u) s)) ∧
     ∀ j < 16, (∀ q ∈ g, bufRefuse o q j (sReg o q a.toNat) = none) →
       exec (.sysw a (BitVec.ofNat 12 (0x50 + j))) s =
         .next (issuedLead (fun _ o u => onCores (fun q u => updRegs u q (fun r => { r with bufs := r.bufs.set 0 j (sReg o q a.toNat) })) g u) s)) ∧
  (∀ (s : State) (a : BitVec 6) (i : BitVec 12) (n : BitVec 10) (k : Nat), Ready s →
     let o := settled s
     let c := lead s
     let b := (coreAt o c).b
     let cell := taskPart o c * 1024 + n.toNat
     let v := (sReg o c a.toNat).toNat
     let vccs := b.r.vcc - b.r.seg.vcc0
     (constEntry o c i.toNat = .ok k → bitsOf k 50 14 = 0 → bitsOf k 96 32 = 0 →
       let pass := (if bitAt k 48 then vccs ≤ bitsOf k 0 48 else vccs = bitsOf k 0 48) ∧ (bitAt k 49 = true → b.r.seg.crc.toNat = bitsOf k 64 32)
       ∃ t, exec (.segchk i) s = .next t ∧ (coreAt t c).b.r.seg = { vcc0 := b.r.vcc + 1 + b.hdrIdle, crc := 0 } ∧
         (pass → (coreAt t c).b.detected = none) ∧ (¬ pass → (coreAt t c).b.detected = some (codeSegMismatch, b.r.pc, 0))) ∧
     ((∀ t, taskOf o c = some t → t.persist = false ∨ o.softs.getLsbD t.part = false) → exec .yieldp s = .next (issuedLead (fun _ _ u => u) s)) ∧
     (b.hdrCkpt = true → isProv o c = false → (∀ q ∈ groupOf o c, allPerformed o q = true) →
       (v ≤ 65535 → ∃ t, exec (.shapepub a n) s = .next t ∧
         (t.shapes.get 0 cell).toNat = if bitAt (s.shapes.get 0 cell).toNat 16 then (s.shapes.get 0 cell).toNat else v + 2 ^ 16) ∧
       (65535 < v → exec (.shapepub a n) s = .next (takeFault (issuers s) (faultHere s c codeBounds 0 none 0) s)) ∧
       ∃ t, exec (.shapepubClr n) s = .next t ∧ t.shapes.get 0 cell = 0) ∧
     (b.hdrCkpt = false → ∀ j ∈ [Instr.shapepub a n, .shapepubClr n], exec j s = .next (takeFault (issuers s) (faultHere s c codeIllegal 0 none 0) s)))

/-! ### Engines -/

/-- R339, R341, R420, R421, R434: an MX word whose staging its command accepts enters the matrix engine with the twelve registers it finds, after the exchange
SW asks for, and its token is PENDING; MXJOIN sets the joint state and MXPART clears it. R426: a staging that is refused is ILLEGAL_ENCODING, and a live token
TOKEN_LIVE. R329: a hint has no effect. R339, R341, R420, R421, R444: the same for the XF words; R447: XSTORE enters the commit queue as well and is held; R455: XCANCEL ends each named command
that has no line in flight and asks the others to stop.
It rests on a choice of the model: assumption 14. -/
def Obligations.EngineCommandsEnter : Prop :=
  (∀ (s : State) (tout t0 t1 : BitVec 6) (e : Fmt) (sw : BitVec 1) (h : BitVec 2) (z : BitVec 26), Ready s →
     let o := settled s
     let words : List (Nat × Fmt × Instr) := [(1, e, .mxcall tout t0 t1 e sw), (2, .i8, .mxjoin tout t0 t1 sw), (3, .i8, .mxpart tout t0 t1 sw),
       (4, .i8, .mxnorm tout t0 t1 sw), (5, .i8, .mxzero tout t0 t1 sw), (6, e, .mxrda tout t0 t1 e sw), (7, e, .mxwra tout t0 t1 e sw),
       (8, e, .mxwb tout t0 t1 e sw), (9, .i8, .mxucw tout t0 t1 sw)]
     (∀ w ∈ words,
       ((∀ q ∈ issuers s, MxAccepts o q w.1 w.2.1 tout (sw == 1)) →
         ∃ t, exec w.2.2 s = .next t ∧ ∀ q ∈ issuers s, MxEntered o t q w.1 w.2.1 tout t0 t1 (sw == 1)) ∧
       ((coreAt o (lead s)).b.check = none → tokLive o (lead s) tout.toNat = true →
         exec w.2.2 s = .next (takeFault (issuers s) (faultHere s (lead s) codeTokenLive 6 none 0) s)) ∧
       ((coreAt o (lead s)).b.check = none → tokLive o (lead s) tout.toNat = false → mxIllegal (coreAt o (lead s)).b w.1 w.2.1 (snapM (coreAt o (lead s)).b.r (sw == 1)) = true →
         exec w.2.2 s = .next (takeFault (issuers s) (faultHere s (lead s) codeIllegal 6 none 0) s))) ∧
     exec (.mxHint h z) s = .next (issued (fun _ _ t => t) s)) ∧
  (∀ (s : State) (tout t0 t1 t2 : BitVec 6) (sw : BitVec 1) (h : BitVec 2) (z : BitVec 26), Ready s →
     let o := settled s
     let words : List (Nat × Instr) := [(1, .xcopy tout t0 t1 t2 sw), (2, .xstore tout t0 t1 t2 sw), (3, .xweight tout t0 t1 t2 sw), (4, .xtrans tout t0 t1 t2 sw),
       (5, .xgather tout t0 t1 t2 sw), (6, .xkv tout t0 t1 t2 sw), (7, .xsend tout t0 t1 t2 sw), (8, .xred tout t0 t1 t2 sw), (9, .xdecomp tout t0 t1 t2 sw),
       (10, .xfill tout t0 t1 t2 sw)]
     (∀ w ∈ words,
       ((∀ q ∈ issuers s, XfAccepts o q w.1 tout (sw == 1)) →
         ∃ t, exec w.2 s = .next t ∧ ∀ q ∈ issuers s, XfEntered o t q w.1 tout t0 t1 t2 (sw == 1)) ∧
       ((coreAt o (lead s)).b.check = none → tokLive o (lead s) tout.toNat = true →
         exec w.2 s = .next (takeFault (issuers s) (faultHere s (lead s) codeTokenLive 7 none 0) s)) ∧
       ((coreAt o (lead s)).b.check = none → tokLive o (lead s) tout.toNat = false → xfIllegal w.1 (snapX (coreAt o (lead s)).b.r (sw == 1)) = true →
         exec w.2 s = .next (takeFault (issuers s) (faultHere s (lead s) codeIllegal 7 none 0) s))) ∧
     ((∀ q ∈ issuers s, XfAccepts o q 11 tout (sw == 1)) →
       ∃ t, exec (.xcancel tout t0 t1 t2 sw) s = .next t ∧ ∀ q ∈ issuers s,
         (∃ x ∈ (coreAt t q).b.xfQ, x.op = 11 ∧ x.tok = tout.toNat ∧ x.ins = [] ∧ x.orphan = false) ∧ tokRec t q tout.toNat = entered o q 0 (snapX (coreAt o q).b.r (sw == 1)) ∧
         ∀ x ∈ (coreAt t q).b.xfQ, x.orphan = false → x.tok ∈ [t0.toNat, t1.toNat, t2.toNat] → x.tok ≠ tout.toNat → cancellable x.op = true →
           x.cancel = true ∧ (x.sent ≠ [] ∨ hostSource x = true ∨ (x.op = 9 ∧ x.outb ≠ []))) ∧
     exec (.xfHint h z) s = .next (issued (fun _ _ t => t) s))

/-- R438, R439: what a micro-word makes of its routine's state: MSKIP leaves the block of a group without rows, MNEXT goes on to the next group, MLOOP counts
down and jumps, MBCAST turns the rotation of a joint operation on, MNORM renormalises the region's segments; R427: MEND ends the command DONE; MSYNC waits in a
joint operation until the four engines stand at the same one. -/
def Obligations.RoutineControl : Prop := ∀ (s : State) (m : MxCmd) (st : MicroState) (x : BitVec 16) (ra rb : BitVec 3) (ct : BitVec 2) (y : BitVec 8), Routine s m st →
  let c := s.curCore
  let q := m.snap
  let goes := fun (i : Instr) (st' : MicroState) => exec i s = .next (setMicro c st' s)
  let next := st.upc + 1
  let jump := ((st.upc : Int) + x.toInt).toNat
  goes (.mskip x) { st with upc := if rowsOf q st.g = 0 then jump else next } ∧
  (∃ mw, mw.get 0 ra.toNat = st.mw.get 0 ra.toNat + BitVec.ofNat 64 (fieldW (st.mw.get 0 rb.toNat) 0 32) ∧ (∀ n ≠ ra.toNat, mw.get 0 n = st.mw.get 0 n) ∧
    goes (.mnext ra rb) { st with upc := next, rc := st.rc + rowsOf q st.g, g := st.g + 1, mw := mw }) ∧
  (2 ≤ nthD st.mc ct.toNat 0 → goes (.mloop ct x) { st with upc := jump, mc := setAt st.mc ct.toNat (nthD st.mc ct.toNat 0 - 1) }) ∧
  (nthD st.mc ct.toNat 0 < 2 → goes (.mloop ct x) { st with upc := next, mc := setAt st.mc ct.toNat (nthD st.mc0 ct.toNat 0) }) ∧
  goes .mbcast { st with upc := next, rot := mxJoint q } ∧
  exec (.mnorm y) s = .next (setMicro c { st with upc := next } (updBody s c (onSegments (fun r k b => normSeg (mxBank q) y.toInt r k b) (box c m.op q)))) ∧
  (m.orphan = false → ∃ t, exec .mend s = .next t ∧ (tokRec t c m.tok).status = .done ∧ (coreAt t c).b.mxQ.length + 1 = (coreAt s c).b.mxQ.length ∧
    (coreAt t c).b.acc = (coreAt s c).b.acc) ∧
  (mxJoint q = false → goes .msync { st with upc := next }) ∧
  (mxJoint q = true → (∀ k ∈ clusterCores c, k ≠ c → ∃ p, microOf s k = some p ∧ p.2.sync = true ∧ p.2.upc = st.upc) →
    ∃ t, exec .msync s = .next t ∧ ∀ k ∈ clusterCores c, ∃ p, microOf t k = some p ∧ p.2.sync = false ∧ p.2.upc = next) ∧
  (mxJoint q = true → (∃ k ∈ clusterCores c, k ≠ c ∧ ∀ p, microOf s k = some p → ¬ (p.2.sync = true ∧ p.2.upc = st.upc)) → goes .msync { st with sync := true })

/-- R438, R439: MLOADA and MLOADB read the elements of the tile's rows and columns over the K-block at their strides, and MSCALE its scale pairs; MSCALE does
nothing for types without scales. R315, R439: MMAC adds the block's sum of products, rounded to the element's grid, to every element of the tile and saturates it to 40 bits; MMACT does
so up to each row's own column and leaves the least value beyond it. -/
def Obligations.RoutineLoadsAndAccumulates : Prop :=
  (∀ (s s' : State) (m : MxCmd) (st : MicroState) (ra rb : BitVec 3) (tr ic : BitVec 1) (p : List (List Nat)), Routine s m st →
     let c := s.curCore
     let q := m.snap
     let ks := blockKs q st
     let elems := p.map (fun row => (row.zip ks).map (fun x => pickElem m.et x.2 x.1))
     let reads := fun (wb : Nat) (l : List (List Req)) => readRows c m.who (rotSrc c q st) wb s l = .ok (s', p)
     (reads 0 ((panelRows c q st).map (fun i => ks.map (fun k => reqA q m.et (st.mw.get 0 ra.toNat) (tr == 1) (ic == 1) i k))) →
       exec (.mloada ra tr ic) s = .next (setMicro c { st with pa := elems, upc := st.upc + 1 } s')) ∧
     (reads (mxWb q) ((panelCols c q).map (fun j => ks.map (fun k => reqB q m.et (st.mw.get 0 ra.toNat) (tr == 1) j k))) →
       exec (.mloadb ra tr) s = .next (setMicro c { st with pb := elems, upc := st.upc + 1 } s')) ∧
     (m.et ≠ .bq8 → m.et ≠ .bq4 → exec (.mscale ra rb) s = .next (setMicro c { st with upc := st.upc + 1 } s)) ∧
     (m.et = .bq8 ∨ m.et = .bq4 → ∀ a b : List Nat, p = [a, b] →
       reads (mxWb q) [(panelRows c q st).map (fun i => Req.mem (st.mw.get 0 ra.toNat + BitVec.ofInt 64 (i * fieldW (mpOf q 5) 0 32 + 2 * blockIdx q st : Nat)) 2),
         (panelCols c q).map (fun j => if mxBsrc q then Req.wb (fieldW (st.mw.get 0 rb.toNat) 0 18 + (j * fieldW (mpOf q 5) 32 32 + 2 * blockIdx q st)) 2
           else Req.mem (st.mw.get 0 rb.toNat + BitVec.ofInt 64 (j * fieldW (mpOf q 5) 32 32 + 2 * blockIdx q st : Nat)) 2)] →
       exec (.mscale ra rb) s = .next (setMicro c { st with sa := a.map (fun x => (x % 256, x / 256)), sb := b.map (fun x => (x % 256, x / 256)), upc := st.upc + 1 } s'))) ∧
  (∀ (s : State) (m : MxCmd) (st : MicroState) (masked : Bool), Routine s m st → mxJoint m.snap = false →
     let c := s.curCore
     let q := m.snap
     let bank := mxBank q
     let row := fun (i : Nat) => mxRow0 q + (st.rc + i)
     let col := fun (j : Nat) => mxCol0 q + j
     let sum := fun (i j : Nat) => contribution m.et (segGet (coreAt s c).b bank (row i) (col j))
       ((panelVals m.et st.pa st.sa i).zip (panelVals m.et st.pb st.sb j))
     row (rowsOf q st.g) ≤ 128 → col (mxN q) ≤ 128 →
     (∀ i < rowsOf q st.g, ∀ j < mxN q, segGet (coreAt s c).b bank (row i) (col j) ≠ nanX ∧ sum i j ≠ none) →
     ∃ t, exec (if masked then .mmact else .mmac) s = .next t ∧ microOf t c = some ({ m with micro := some { st with rot := false, upc := st.upc + 1 } }, { st with rot := false, upc := st.upc + 1 }) ∧
       (∀ i < rowsOf q st.g, ∀ j < mxN q,
         accGet (coreAt t c).b bank (row i) (col j) =
           if masked = true ∧ fieldW (mpOf q 6) 0 32 + (st.rc + i) < fieldW (mpOf q 6) 32 32 + j then -(2 ^ 39)
           else saturated (accGet (coreAt s c).b bank (row i) (col j) + (sum i j).getD 0)) ∧
       (coreAt t c).b.accX = (coreAt s c).b.accX ∧
       ∀ k, (∀ i < rowsOf q st.g, ∀ j < mxN q, k ≠ accKey bank (row i) (col j)) → (coreAt t c).b.acc.get 0 k = (coreAt s c).b.acc.get 0 k)

/-! ### Streams -/

/-- R92, R136: NOP and HINT have no effect but to go on: outside an expansion PC rises by eight for each word; within one POS rises by the words, and past its last
word the context leaves the expansion and goes on behind the MACRO. R96, R98: STREAM_RET to a register that no multiple of eight stands in faults ALIGN: FCODE, FINFO and FPC are
written, the handler is entered where there is one and none runs, and else the context is FAULTED. -/
def Obligations.StreamsAdvanceAndFault : Prop := ∀ (s : State) (k : BitVec 3) (xn : BitVec 2) (z : BitVec 56) (a : BitVec 5),
  let c := s.curCtx
  let x := ctx s c
  (Executes true true s → ∀ w ∈ [(Instr.nop, 1), (.streamHint k xn z, 1 + xn.toNat)],
    ∃ t, exec w.1 s = .next t ∧ t.mem = s.mem ∧ (∀ n, n ≠ c → ctx t n = ctx s n) ∧ (∀ q, coreAt t q = coreAt s q) ∧ (∀ n, qReg t c n = qReg s c n) ∧
      (expanding x = false → ctx t c = { x with pc := x.pc + BitVec.ofNat 48 (8 * w.2), woken := false }) ∧
      (expanding x = true → x.mpos.toNat + w.2 < (mdir s (ctxDie c) x.mindex.toNat).len → x.mpos.toNat + w.2 < 4096 →
        ctx t c = { x with mpos := x.mpos + BitVec.ofNat 12 w.2, woken := false }) ∧
      (expanding x = true → (mdir s (ctxDie c) x.mindex.toNat).len ≤ x.mpos.toNat + w.2 →
        ctx t c = { x with inmac := false, mret := false, mpos := 0, mparams := [], pc := x.pc + 8, woken := false })) ∧
  (Executes false false s → (qReg s c a.toNat).toNat % 8 ≠ 0 →
    ∃ t, exec (.streamRet a) s = .next t ∧ (ctx t c).fcode = codeAlign ∧ (ctx t c).finfo = 0 ∧ (ctx t c).fpc = x.pc ∧ (ctx t c).flen = 8 ∧
      (∀ h, x.handler = some h → x.inh = false → (ctx t c).pc = h ∧ (ctx t c).inh = true ∧ (ctx t c).state = .running) ∧
      (x.handler = none ∨ x.inh = true → (ctx t c).state = .faulted ∧ (ctx t c).fault = codeAlign ∧ (ctx t c).run = false))

/-- R99, R128, R136: a taken branch adds its words to PC; in a bracket its target, taken or not, is at or after the bracket's start, and in an expansion within the body. BRC is taken
where its condition holds. CALL leaves PC + 8 in q[QD], RET goes to q[QA]. R100: END stops issue and leaves PC. SETH sets and removes the handler. R96: ERET resumes at FPC and with skip past the
faulting instruction; outside a handler it is ILLEGAL.
It rests on a choice of the model: assumption 100. -/
def Obligations.StreamTransfers : Prop := ∀ (s : State) (imm : BitVec 32) (a b d : BitVec 5) (cc : BrCond),
  let c := s.curCtx
  let x := ctx s c
  let u := qReg s c a.toNat
  let v := qReg s c b.toNat
  let target : Int := x.pc.toNat + 8 * imm.toInt
  let noted := fun (r : Bracket) => updCtx s c (fun x => { x with bracket := some { r with maxT := Nat.max r.maxT target.toNat } })
  let goes := fun (i : Instr) =>
    let onto := fun (s : State) => updCtx s c (fun x => { x with pc := x.pc + BitVec.ofInt 48 (8 * imm.toInt), woken := false })
    let pos : Int := x.mpos.toNat + imm.toInt
    (expanding x = false → x.bracket = none → exec i s = .next (onto s)) ∧
    (∀ r, expanding x = false → x.bracket = some r → (r.start : Int) ≤ target → exec i s = .next (onto (noted r))) ∧
    (∀ r, expanding x = false → x.bracket = some r → target < r.start → Faults i 1 codeRecipeInvalid 0 s) ∧
    (expanding x = true → 0 ≤ pos → pos < (mdir s (ctxDie c) x.mindex.toNat).len →
      exec i s = .next (updCtx s c (fun x => { x with mpos := BitVec.ofNat 12 pos.toNat, woken := false }))) ∧
    (expanding x = true → pos < 0 ∨ (mdir s (ctxDie c) x.mindex.toNat).len ≤ pos → Faults i 1 codeIllegal 0 s)
  let falls := fun (i : Instr) =>
    (expanding x = true ∨ x.bracket = none → Does i 1 s s) ∧
    (∀ r, expanding x = false → x.bracket = some r → (r.start : Int) ≤ target → Does i 1 s (noted r)) ∧
    (∀ r, expanding x = false → x.bracket = some r → target < r.start → Faults i 1 codeRecipeInvalid 0 s)
  let holds : Prop := match cc with
    | .eq => u = v | .ne => u ≠ v | .lt => u.toInt < v.toInt | .ge => v.toInt ≤ u.toInt | .ltu => u.toNat < v.toNat | .geu => v.toNat ≤ u.toNat
  (Executes true true s → goes (.streamBr imm) ∧ (holds → goes (.brc cc a b imm)) ∧ (¬ holds → falls (.brc cc a b imm))) ∧
  (Executes false false s →
    exec (.streamCall d imm) s = .next (updCtx (setQ c d.toNat ((x.pc + 8).setWidth 64) s) c
      (fun x => { x with pc := x.pc + BitVec.ofInt 48 (8 * imm.toInt), woken := false })) ∧
    (u.toNat % 8 = 0 → exec (.streamRet a) s = .next (updCtx s c (fun x => { x with pc := u.setWidth 48, woken := false }))) ∧
    exec .streamEnd s = .next (updCtx s c (fun x => { x with ending := true, woken := false })) ∧
    Does (.seth imm) 1 s (updCtx s c (fun x => { x with handler := some (x.pc + BitVec.ofInt 48 (8 * imm.toInt)) })) ∧
    Does .sethRemove 1 s (updCtx s c (fun x => { x with handler := none })) ∧
    (x.inh = false → Faults .streamEret 1 codeIllegal 0 s ∧ Faults .streamEretSkip 1 codeIllegal 0 s) ∧
    (x.inh = true → ∀ skip : Bool, ∃ t, exec (if skip then .streamEretSkip else .streamEret) s = .next t ∧ (∀ n, n ≠ c → ctx t n = ctx s n) ∧
      let n := if skip then x.flen else 0
      (x.inmac = false → ctx t c = { x with inh := false, pc := x.fpc + BitVec.ofNat 48 n, woken := false }) ∧
      (x.inmac = true → x.mpos.toNat + n / 8 < (mdir s (ctxDie c) x.mindex.toNat).len →
        ctx t c = { x with inh := false, mret := true, pc := x.fpc, mpos := BitVec.ofNat 12 (x.mpos.toNat + n / 8), woken := false })))

/-- R101: a register operation writes its function of q[QA] and q[QB] to q[QD], modulo 2^64, shifts by the low six bits; R89: q0 reads zero and keeps nothing. R101, R102: an immediate operation takes the sign-extended immediate, or a shift amount, in place of q[QB]; MOVI writes the immediate and MOVHI the upper half.
R95: SRD reads a special register; an index above 16 is ILLEGAL. -/
def Obligations.StreamArithmetic : Prop :=
  (∀ (s : State) (d a b : BitVec 5), Executes true true s →
     let c := s.curCtx
     let x := qReg s c a.toNat
     let y := qReg s c b.toNat
     let gives := fun (i : Instr) (v : Word) => Does i 1 s (setQ c d.toNat v s)
     let one := fun (p : Prop) [Decidable p] => if p then (1 : Word) else 0
     gives (.streamAdd d a b) (x + y) ∧ gives (.streamSub d a b) (x - y) ∧ gives (.streamMul d a b) (x * y) ∧
     gives (.streamMulhu d a b) ((x.setWidth 128 * y.setWidth 128).extractLsb' 64 64) ∧
     gives (.streamAnd d a b) (x &&& y) ∧ gives (.streamOr d a b) (x ||| y) ∧ gives (.streamXor d a b) (x ^^^ y) ∧
     gives (.streamShl d a b) (x <<< (y.toNat % 64)) ∧ gives (.streamShr d a b) (x >>> (y.toNat % 64)) ∧ gives (.streamSar d a b) (x.sshiftRight (y.toNat % 64)) ∧
     gives (.streamSlt d a b) (one (x.slt y = true)) ∧ gives (.streamSltu d a b) (one (x.ult y = true)) ∧ gives (.streamSeq d a b) (one (x = y)) ∧
     gives (.streamMin d a b) (if y.slt x then y else x) ∧ gives (.streamMax d a b) (if x.slt y then y else x) ∧
     gives (.streamMinu d a b) (if y.ult x then y else x) ∧ gives (.streamMaxu d a b) (if x.ult y then y else x) ∧
     ∀ (v : Word) (n : Nat), qReg (setQ c d.toNat v s) c n = if n = d.toNat ∧ n ≠ 0 then v else qReg s c n) ∧
  (∀ (s : State) (d a : BitVec 5) (imm : BitVec 32) (sh : BitVec 6), Executes true true s →
     let c := s.curCtx
     let x := qReg s c a.toNat
     let y := imm.signExtend 64
     let k := ctx s c
     let gives := fun (i : Instr) (v : Word) => Does i 1 s (setQ c d.toNat v s)
     let one := fun (p : Prop) [Decidable p] => if p then (1 : Word) else 0
     gives (.streamAddi d a imm) (x + y) ∧ gives (.streamSubi d a imm) (x - y) ∧ gives (.streamMuli d a imm) (x * y) ∧
     gives (.streamMulhui d a imm) ((x.setWidth 128 * y.setWidth 128).extractLsb' 64 64) ∧
     gives (.streamAndi d a imm) (x &&& y) ∧ gives (.streamOri d a imm) (x ||| y) ∧ gives (.streamXori d a imm) (x ^^^ y) ∧
     gives (.streamShli d a sh) (x <<< sh.toNat) ∧ gives (.streamShri d a sh) (x >>> sh.toNat) ∧ gives (.streamSari d a sh) (x.sshiftRight sh.toNat) ∧
     gives (.streamSlti d a imm) (one (x.slt y = true)) ∧ gives (.streamSltui d a imm) (one (x.ult y = true)) ∧ gives (.streamSeqi d a imm) (one (x = y)) ∧
     gives (.streamMini d a imm) (if y.slt x then y else x) ∧ gives (.streamMaxi d a imm) (if x.slt y then y else x) ∧
     gives (.streamMinui d a imm) (if y.ult x then y else x) ∧ gives (.streamMaxui d a imm) (if x.ult y then y else x) ∧
     gives (.streamMovi d imm) y ∧ gives (.streamMovhi d imm) (imm ++ (qReg s c d.toNat).setWidth 32) ∧ gives (.srd d 0) k.code ∧
     (k.bracket = none → k.sub = none →
       gives (.srd d 1) (BitVec.ofNat 64 c) ∧ gives (.srd d 2) (k.part.setWidth 64) ∧ gives (.srd d 3) k.step ∧ gives (.srd d 4) (BitVec.ofNat 64 s.us) ∧
       gives (.srd d 5) (k.fpc.setWidth 64) ∧ gives (.srd d 6) (k.fcode.setWidth 64) ∧ gives (.srd d 7) k.finfo ∧ gives (.srd d 8) (k.fdepth.setWidth 64) ∧
       (∀ n < 8, gives (.srd d (BitVec.ofNat 6 (9 + n))) (BitVec.ofNat 64 (nthD k.chain n 0))) ∧
       ∀ n : BitVec 6, 16 < n.toNat → Faults (.srd d n) 1 codeIllegal 0 s))

/-- R103: LDQ reads the bytes of its size little-endian and extends them; a poisoned byte faults, and so does a failing check, with the pointer in FINFO. R104: STQ
posts its bytes, and from the host window LDQ brings what the other side answers. R105: FENCE waits for the context's stores. R106: WAITMB waits while a doubleword equals q[QB] and returns another value. R107: IRQ sends a vector of the partition's
range.
It rests on choices of the model: assumptions 20, 63, 100. -/
def Obligations.StreamMemory : Prop := ∀ (s : State) (d a b : BitVec 5) (sz : BitVec 2) (sg sv md : BitVec 1) (imm : BitVec 32) (sc : BitVec 3) (h o : Nat) (code : BitVec 8),
  let c := s.curCtx
  let n := 2 ^ sz.toNat
  let p := qReg s c a.toNat + imm.signExtend 64
  let p0 := qReg s c a.toNat
  let value := fun (h o n : Nat) => leNat (readLoc s (.glob h o) n)
  let idle := (ctx s c).stores = []
  let vec := (p0 + imm.setWidth 64).toNat
  let bytes := (List.range n).map (fun j => (qReg s c b.toNat).extractLsb' (8 * j) 8)
  (Executes false true s →
    (streamAccess s c p n false = .tensor h o → idle → poisoned s (.glob h o) n = false →
      Does (.ldq d a sz sg imm) 1 s (setQ c d.toNat (if sg = 1 then (BitVec.ofNat (8 * n) (value h o n)).signExtend 64 else BitVec.ofNat 64 (value h o n)) s)) ∧
    (∀ x port, streamAccess s c p n false = .host x port → idle → ∃ (v : Word) (k : Nat), Does (.ldq d a sz sg imm) 1 s (setQ c d.toNat v { s with free := k })) ∧
    (streamAccess s c p n false = .tensor h o → idle → poisoned s (.glob h o) n = true → Faults (.ldq d a sz sg imm) 1 codePoison p s) ∧
    (streamAccess s c p n false = .fault code → Faults (.ldq d a sz sg imm) 1 code p s) ∧
    (streamAccess s c p n true = .fault code → Faults (.stq a b sz imm) 1 code p s) ∧
    (streamAccess s c p n true = .tensor h o → Does (.stq a b sz imm) 1 s (sendStq c p (.glob h o) bytes s)) ∧
    (∀ x port, streamAccess s c p n true = .host x port → Does (.stq a b sz imm) 1 s (sendStq c p (.host x port) bytes s)) ∧
    (isGlobal p0 = true → streamAccess s c p0 8 false = .tensor h o → idle → poisoned s (.glob h o) 8 = false →
      (BitVec.ofNat 64 (value h o 8) ≠ qReg s c b.toNat → Does (.waitmb d a b) 1 s (setQ c d.toNat (BitVec.ofNat 64 (value h o 8)) s)) ∧
      (BitVec.ofNat 64 (value h o 8) = qReg s c b.toNat → Waits (.waitmb d a b) 1 (.mailbox d.toNat (ptrH p0) (ptrO p0) (qReg s c b.toNat)) s)) ∧
    (isGlobal p0 = false → Faults (.waitmb d a b) 1 codeSpace p0 s) ∧
    (vec < (partOf s (ctx s c).part.toNat).veccount.toNat → Does (.irq a imm) 1 s (sendMsix ((partOf s (ctx s c).part.toNat).vecbase.toNat + vec) s)) ∧
    ((partOf s (ctx s c).part.toNat).veccount.toNat ≤ vec → Faults (.irq a imm) 1 codeBounds 0 s)) ∧
  (Executes true true s →
    (idle → (∀ k ∈ s.packets, k.core = 512 + c → ∀ i m e, k.body ≠ .delta i m e) → Does (.fence sc sv md) 1 s s) ∧
    (¬ idle → Waits (.fence sc sv md) 1 (.fence sc.toNat (sv == 1) (md == 1)) s))

/-- R108-R110: WAITE goes on once the event count has reached its threshold; local SIGE adds to a count and returns it, remote SIGE sends a signal, behind the context's stores, to a context of the same partition. R117: SHPUB publishes a
truth and SHPUB.CLR clears a slot. R138, R139: DEADLINE and PRIO set what the next launches carry.
It rests on a choice of the model: assumption 30. -/
def Obligations.StreamEvents : Prop := ∀ (s : State) (d a : BitVec 5) (ev : BitVec 6) (imm : BitVec 32) (n : BitVec 16) (slot : BitVec 10) (pct : BitVec 8) (cl : BitVec 2),
  let c := s.curCtx
  let x := ctx s c
  let u := qReg s c a.toNat
  let count := x.e.get 0 ev.toNat
  let thr := (u + imm.signExtend 64).setWidth 32
  let cell := x.part.toNat * 1024 + slot.toNat
  let msg : Packet := { id := s.nextId, lane := 2, src := .die (ctxDie c), dst := .die (ctxDie u.toNat), core := 512 + c, after := x.stores, lackUs := none, body := .signal u.toNat ev.toNat n.toNat }
  (Executes false true s →
    ((count - thr).msb = false → Does (.waite a ev imm) 1 s s) ∧
    ((count - thr).msb = true → Waits (.waite a ev imm) 1 (.event ev.toNat thr) s) ∧
    (∃ t, exec (.sige d a ev n) s = .next t ∧ (ctx t c).e.get 0 ev.toNat = count + n.setWidth 32 ∧
      (d ≠ 0 → qReg t c d.toNat = (count + n.setWidth 32).setWidth 64) ∧ ∀ k ≠ ev.toNat, (ctx t c).e.get 0 k = x.e.get 0 k) ∧
    (u.toNat < 64 → (ctx s u.toNat).part = x.part →
      Does (.sigeRemote a ev n) 1 s { s with nextId := s.nextId + 1, packets := s.packets ++ [msg] }) ∧
    (64 ≤ u.toNat → Faults (.sigeRemote a ev n) 1 codeBounds 0 s) ∧
    (u.toNat < 64 → (ctx s u.toNat).part ≠ x.part → Faults (.sigeRemote a ev n) 1 codePrivilege 0 s) ∧
    (fieldW u 0 32 ≤ 65535 → ∃ t, exec (.shpub a slot) s = .next t ∧
      (t.shapes.get 0 cell).toNat = if bitAt (s.shapes.get 0 cell).toNat 16 then (s.shapes.get 0 cell).toNat else fieldW u 0 32 + 2 ^ 16) ∧
    (65535 < fieldW u 0 32 → Faults (.shpub a slot) 1 codeBounds 0 s) ∧
    ∃ t, exec (.shpubClr slot) s = .next t ∧ t.shapes.get 0 cell = 0) ∧
  (Executes true true s →
    Does (.deadline a pct) 1 s (updCtx s c (fun x => { x with margin := pct, limit := u.setWidth 32 })) ∧
    Does (.prio cl) 1 s (updCtx s c (fun x => { x with cls := cl })))

/-- R111, R114, R140: LAUNCH of a record that passes its checks enters the launch queue: STEP rises by one, and the entry takes the record's operands, arguments and
inputs; while the queue is full it waits. R116: LAUNCHP replaces the extent on its dimension by the slot's truth, or a prediction, within the record's bounds. R132: COLL enters
likewise with its descriptor.
It rests on choices of the model: assumptions 47, 84, 100. -/
def Obligations.StreamLaunches : Prop := ∀ (s : State) (a b : BitVec 5) (ev : BitVec 6) (sig : BitVec 1) (ins : LaunchIns) (pr : PredFields) (rec_ args desc : List Byte),
  let c := s.curCtx
  let p := qReg s c a.toNat
  let dst := if sig = 1 then some ev.toNat else none
  let l := recLaunch rec_ args (launchInputs s ins) dst
  let coll : Launch := { Launch.zero with what := .coll desc, ops := collOps desc, sig := dst }
  (Executes true true s → RecordStands s p ins rec_ args →
    (queueFree s c = true → Does (.launch a ev sig ins) 2 s (enqueue c l s) ∧
      (ctx (enqueue c l s) c).step = (ctx s c).step + 1 ∧
      let e := launchOf (enqueue c l s) s.nextId
      e.state = .waitEv ∧ e.step = (ctx s c).step + 1 ∧ e.ops = recOps rec_ ∧ e.args = args ∧ e.waits = launchInputs s ins ∧ e.part = (ctx s c).part.toNat ∧ e.ctx = actsFor s c ∧ e.sig = dst) ∧
    (queueFree s c = false → Waits (.launch a ev sig ins) 2 .queue s)) ∧
  (Executes false true s →
    (RecordStands s p ins rec_ args → pr.dim.toNat < 3 → ∀ l' s', addPrediction c (fieldW (qReg s c b.toNat) 0 16) pr l s = .ok (l', s') →
      (queueFree s c = true → Does (.launchp a b ev sig ins pr) 3 s (enqueue c l' s')) ∧ (queueFree s c = false → Waits (.launchp a b ev sig ins pr) 3 .queue s) ∧
      let slot := (s.shapes.get 0 ((ctx s c).part.toNat * 1024 + pr.slot.toNat)).toNat
      (bitAt slot 16 = true → extentOn l' pr.dim.toNat = Nat.min (slot % 2 ^ 16) (extentOn l pr.dim.toNat)) ∧
      (bitAt slot 16 = false → fieldW (qReg s c b.toNat) 0 16 ≤ extentOn l' pr.dim.toNat ∧ extentOn l' pr.dim.toNat ≤ extentOn l pr.dim.toNat)) ∧
    (pr.dim.toNat = 3 → Faults (.launchp a b ev sig ins pr) 3 codeIllegal 0 s) ∧
    (recordRead s c p 64 1 fieldInfo = .ok desc → failing (collChecks s (ctx s c).part.toNat desc) = none →
      (queueFree s c = true → Does (.coll a ev sig) 1 s (enqueue c coll s)) ∧ (queueFree s c = false → Waits (.coll a ev sig) 1 .queue s)))

/-- R121-R125: TDECL returns the handle of the tensor its record declares; TFREE frees, waiting for what still uses the tensor; TPIN pins a range and TUNPIN the first such pin; TUSE and TPROT set
the use list and the protection. R122: a handle of no tensor of the partition is UNDECLARED; R123: TUNPIN of a range that no entry holds is BOUNDS. R127, R129: TREC.OPEN opens a bracket and TREC.CLOSE records its recipe. R134, R135: MLOAD reads a header and a body of words with their tags and enters them in the die's directory; R136: MACRO takes its parameters from consecutive registers and passes control
to the first word of the entry.
It rests on choices of the model: assumptions 43, 45, 93, 100. -/
def Obligations.StreamTensorsAndExpansions : Prop :=
  (∀ (s s' : State) (d a b : BitVec 5) (llc : BitVec 1) (fl : BitVec 4) (mask : BitVec 31) (rec_ : List Byte) (h : Nat),
     let c := s.curCtx
     let k := ctx s c
     let p := qReg s c a.toNat
     let v := qReg s c b.toNat
     let named := isGlobal p = true ∧ declared s k.part.toNat (ptrH p) = true
     let H := hasp s (handleDie (ptrH p))
     let saved := ((List.range 31).filter (fun i => mask.getLsbD i)).map (fun i => (i + 1, qReg s c (i + 1)))
     let entry : PinEntry := { ptr := p, len := v.toNat, llc := llc == 1 }
     (Executes false true s →
       (recordRead s c p 64 64 (fun _ => 0) = .ok rec_ → declareTensor rec_ k.part.toNat c k.step s = .ok (s', h) →
         Does (.tdecl d a) 1 s (setQ c d.toNat (BitVec.ofNat 64 (2 ^ 63 + h % 2 ^ 23 * 2 ^ 40)) s')) ∧
       (named → (freeWaits s (ptrH p) = false → Does (.tfree a) 1 s (freeTensor (ptrH p) s)) ∧ (freeWaits s (ptrH p) = true → Waits (.tfree a) 1 (.free (ptrH p)) s)) ∧
       (named → v ≠ 0 → ptrO p + v.toNat ≤ (trec s (ptrH p)).bytes → H.pins.length < 4096 → isReady s (ptrH p) = true →
         (llc = 1 → llcPinned s (handleDie (ptrH p)) + v.toNat ≤ 64 * 2 ^ 20) →
         ∃ t, exec (.tpin a b llc) s = .next t ∧ (hasp t (handleDie (ptrH p))).pins = H.pins ++ [entry] ∧
           (llc = 1 → (trec t (ptrH p)).state = .llcpin)) ∧
       (named → (∃ e ∈ H.pins, e.ptr = p ∧ e.len = v.toNat) → ∃ t, exec (.tunpin a b) s = .next t ∧
         (hasp t (handleDie (ptrH p))).pins.length + 1 = H.pins.length ∧ ∃ e ∈ H.pins, e.ptr = p ∧ e.len = v.toNat ∧ (hasp t (handleDie (ptrH p))).pins = H.pins.erase e) ∧
       (named → Does (.tuse a b) 1 s (setUses (ptrH p) v k.step s)) ∧
       (named → Does (.tprot a fl) 1 s (updRec s (ptrH p) (fun r => { r with prot := fl }))) ∧
       (¬ named → ∀ i ∈ [Instr.tfree a, .tpin a b llc, .tuse a b, .tprot a fl], Faults i 1 codeUndeclared 0 s) ∧
       let freed := isGlobal p = true ∧ (trec s (ptrH p)).freeing = true ∧ (trec s (ptrH p)).part = k.part
       (freed → Faults (.tunpin a b) 1 codeUndeclared 0 s) ∧
       (¬ freed → (¬ named ∨ ∀ e ∈ H.pins, ¬ (e.ptr = p ∧ e.len = v.toNat)) → Faults (.tunpin a b) 1 codeBounds 0 s)) ∧
     (Executes false false s → named →
       Does (.trecOpen a mask) 1 s (updCtx { s with nextId := s.nextId + 1 } c (fun x => { x with bracket := some { num := s.nextId, out := ptrH p, saved := saved, start := (k.pc + 8).toNat, maxT := 0, ids := [], inputs := [], cycles := 0, failed := false } }))) ∧
     (Executes true false s → k.sub = none →
       (k.bracket = none → Faults .trecClose 1 codeRecipeInvalid 0 s) ∧
       ∀ r, k.bracket = some r → (r.ids ≠ [] → Waits .trecClose 1 .close s) ∧
         (r.ids = [] → declared s k.part.toNat r.out = true → r.maxT ≤ k.pc.toNat → r.failed = false → (bracketRecipe s c r).inputs.length ≤ 16 → ∀ i, (trec s r.out).recix = some i →
           ∃ t, exec .trecClose s = .next t ∧ (ctx t c).bracket = none ∧ (trec t r.out).recix = some i ∧ (trec t r.out).rvalid = true ∧
             t.recipes.get .zero (recipeKey (handleDie r.out) i) = bracketRecipe s c r))) ∧
  (∀ (s : State) (m : BitVec 8) (n : BitVec 4) (a : BitVec 5) (hdr body : List Byte), Executes false false s →
     let c := s.curCtx
     let d := ctxDie c
     let e := mdir s d m.toNat
     let p := qReg s c a.toNat
     let w := leNat hdr
     let start := bitsOf w 0 12
     let len := if bitsOf w 12 12 = 0 then 4096 else bitsOf w 12 12
     let ix := bitsOf w 24 8
     (n.toNat ≤ 8 → a.toNat + n.toNat ≤ 32 → e.valid = true → e.part = (ctx s c).part →
       ∃ t, exec (.streamMacro m n a) s = .next t ∧ (ctx t c).inmac = true ∧ (ctx t c).mret = true ∧ (ctx t c).mindex = m ∧ (ctx t c).mpos = 0 ∧ (ctx t c).pc = (ctx s c).pc ∧
         ∀ i < n.toNat, nthD (ctx t c).mparams i 0 = qReg s c (a.toNat + i)) ∧
     (8 < n.toNat ∨ 32 < a.toNat + n.toNat ∨ e.valid = false → Faults (.streamMacro m n a) 1 codeIllegal 0 s) ∧
     (recordRead s c p 8 8 (fun _ => 0) = .ok hdr → w < 2 ^ 32 → start + len ≤ 4096 →
       (∀ k < 256, k ≠ ix → (mdir s d k).valid = true → start + len ≤ (mdir s d k).start ∨ (mdir s d k).start + (mdir s d k).len ≤ start) →
       ((mdir s d ix).valid = true → (mdir s d ix).part = (ctx s c).part) → expands s c ix false = false → expands s c ix true = false →
       ((ctx s c).inmac = true → (ctx s c).mindex.toNat ≠ ix) → recordRead s c p (8 * (1 + len + (len + 15) / 16)) 8 (fun _ => 0) = .ok body →
       ∃ t, exec (.mload a) s = .next t ∧ mdir t d ix = { start := start, len := len, part := (ctx s c).part, valid := true } ∧
         ∀ k < len, (t.mwords.get 0 (d * 4096 + start + k)).toNat = fieldB body (8 * (1 + k)) 8 ∧
           (t.mtags.get 0 (d * 4096 + start + k)).toNat = fieldB body (8 * (1 + len + k / 16)) 8 / 2 ^ (4 * (k % 16)) % 16))

/-! ### The module -/

/-- R32, R33: a module reset or a host PERST_N leaves the dies bare and starts the boot; R79: with six accepted images the boot comes to its step 7, which ends in M1 with PWRGD or, where
the training fails, leaves the module in reset with ALERT_N asserted; R83: after a class C alarm all dies stay in reset until power-on; a storage PERST_N changes nothing. R78: an image is
accepted only with the digest of its body. R17: without power the dies are bare. R79: in recovery an accepted image is written to its copy. R19: the clock goes 100 MHz down above the cap and up below it, between 900 and 1,800 MHz. R21:
at 100 °C the clock steps down, at 110 °C it is held at 900 MHz with the alarm, and at 115 °C all dies are held in reset. R22, R23: MODPWR, M1 and the exit from M2.
It rests on choices of the model: assumptions 9, 40, 70, 71, 72, 95, 96, 101. -/
def Obligations.PowerAndResets : Prop := ∀ (s : State) (w die off n : Nat) (v : BitVec 64) (i3c copyB : Bool) (img : FwImage),
  let p := s.mod.power
  let tr := s.mod.trust
  let stock := ∀ i < 6, ∃ m, (nthD tr.flash i (none, none)).1 = some m ∧ accepted tr (i + 1) m = true
  let cap := if p.cap = 0 ∨ 2800 < p.cap.toNat then 2800 else p.cap.toNat
  let hot := hottest (readSensors die v p)
  let down := BitVec.ofNat 12 (max 900 (p.mhz.toNat - 100))
  let trains := fun (t : State) => t.mod.power.boot = .training ∧ t.mod.power.pwrgd = false ∧
    (let u := (happen (.bootEnd true) t).mod.power; u.boot = .up ∧ u.state = .m1 ∧ u.pwrgd = true) ∧
    (let u := (happen (.bootEnd false) t).mod.power; u.boot = .failed ∧ u.pwrgd = false ∧ u.alert = true)
  (p.boot ≠ .off → ∀ i ∈ [Instr.moduleReset, .hostPerst], Makes i s (fun t => Bare t ∧ t.mod.trust.flash = tr.flash ∧ t.mod.trust.classB = tr.classB ∧ (∀ e, t.mod.errlog.get 0 e = 0) ∧ (stock → tr.holdC = false → trains t) ∧
    (tr.holdC = true → t.mod.power.boot = .held ∧ t.mod.power.alert = true))) ∧
  (p.boot = .off → Makes .powerOn s (fun t => Bare t ∧ t.mod.trust.classB = false ∧
    (stock → trains t ∧ ∀ i < 6, nthD t.mod.trust.booted i none = (nthD tr.flash i (none, none)).1))) ∧
  (p.boot ≠ .off → Makes .powerLoss s (fun t => Bare t ∧ t.mod.power.boot = .off ∧ t.mod.power.pwrgd = false ∧ t.mod.trust = tr)) ∧
  exec .storagePerst s = .next s ∧
  (p.boot = .recovery → tr.blocked = false → tr.flash.length = 6 → 1 ≤ img.typ.toNat → img.typ.toNat ≤ 6 → Makes (.flashImageUpdate copyB img) s (fun t =>
    let old := nthD tr.flash (img.typ.toNat - 1) (none, none)
    nthD t.mod.trust.flash (img.typ.toNat - 1) (none, none) =
      (if accepted tr img.typ.toNat img = true then (if copyB then (old.1, some img) else (some img, old.2)) else old) ∧
    (accepted tr img.typ.toNat img = false → t.mod.trust.classA = true))) ∧
  (∀ typ, accepted tr typ img = true → img.typ.toNat = typ ∧ tr.svnMin.get 0 typ ≤ img.svn.toNat ∧ leNat (sha384 img.body) = img.digest.toNat) ∧
  (p.boot = .up → cap < w → Makes (.powerCapStepDown w) s (fun t => t.mod.power.mhz = down ∧ t.mod.power.capped = true)) ∧
  (p.boot = .up → 100 * w ≤ 95 * cap → p.hot = false → Makes (.powerCapStepUp w) s (fun t => t.mod.power.mhz = BitVec.ofNat 12 (min 1800 (p.mhz.toNat + 100)))) ∧
  (p.boot = .up → die < 10 →
    (1600 ≤ hot → hot < 1760 → Makes (.thermalStepDown die v) s (fun t => t.mod.power.mhz = down ∧ t.mod.power.hot = true)) ∧
    (1760 ≤ hot → Makes (.thermalAlarm die v) s (fun t => t.mod.power.mhz = 900 ∧ t.mod.power.hot = true ∧ t.mod.power.talarm = true ∧ t.mod.power.thermN = true)) ∧
    (1840 ≤ hot → Makes (.thermalTrip die v) s (fun t => Bare t ∧ t.mod.power.boot = .held ∧ t.mod.power.pwrgd = false ∧ t.mod.power.thermN = true))) ∧
  (p.boot = .up → p.state ≠ .m3 →
    Makes (.modpwrReqAuto v i3c) s (fun t => t.mod.power.req.toNat = v.toNat % 2 ∧ t.mod.power.state = p.state ∧ (p.state = .m2 → t.mod.power.exiting = true)) ∧
    (mayRetain s = true → p.exiting = false → Makes (.modpwrReqM2 v) s (fun t => t.mod.power.state = .m2 ∧ t.mod.power.req = 2) ∧
      Makes (.modpwrReqM3 v) s (fun t => t.mod.power.state = .m3 ∧ t.mod.power.req = 3 ∧ t.mod.power.pwrgd = false ∧ Bare t)) ∧
    (mayRetain s = false ∨ p.exiting = true → ∀ i ∈ [Instr.modpwrReqM2 v, .modpwrReqM3 v], Makes i s (fun t => t.mod.power.state = p.state ∧ t.mod.power.req = 0 ∧ t.mod.power.refused = true))) ∧
  (p.boot = .up → p.state = .m0 → anyTask s = false → Makes .m1Entry s (fun t => t.mod.power = { p with state := .m1 })) ∧
  (p.boot = .up → p.state = .m1 → Makes .m1Exit s (fun t => t.mod.power = { p with state := .m0 })) ∧
  (p.boot = .up → p.state = .m2 →
    Makes (.m2ExitStart (.read off n)) s (fun t => t.mod.power = { p with exiting := true, held := p.held ++ [.read off n] }) ∧
    (p.exiting = true → p.held = [] → (∀ q < 32, (port s q).inbox = []) → (∀ k < 8, (partOf s k).hdreq = none) →
      Makes .m2ExitComplete s (fun t => t.mod.power.state = .m0 ∧ t.mod.power.exiting = false)))

/-- R6, R62, R64: a write through the window reaches a listed register under its byte mask, and one at an unlisted offset counts in RSVHIT. R27: SPGATE gates the banks asked for, but those in
use, and a woken bank becomes READY. R29, R30: LLCWAY gates ways, never all. R69, R70: a map entry that names a cluster of no other partition is written and its cluster zeroed; a vector range within
bounds is written, and another is refused. R76: an unmasked entry sends what was pending. R73: a function reset clears its slots. R25: configuration requests are answered. R117: a host write
publishes or clears a shape slot. R48: NGPORT sets ENABLE and ZXEN. R204: HRQSEL latches a record.
It rests on choices of the model: assumptions 10, 24, 67, 68, 80, 100. -/
def Obligations.HostRegisters : Prop := ∀ (s : State) (q bank d k p e fn : Nat) (v : BitVec 64) (x : BitVec 32) (m : BitVec 8) (n : Nat),
  let c := coreAt s q
  let want := fun (b : Nat) => v.getLsbD b && !(!c.gate.getLsbD b && bankBusy s q b)
  let base := fieldW v 1 11
  let count := fieldW v 12 12
  (s.mod.power.boot = .up → s.mod.power.state = .m0 → Makes (.registerWrite .bar0 0x18 8 v) s (fun t => t.mod.ngself = v.setWidth 12) ∧
    Makes (.registerWrite .bar0 0x48 8 v) s (fun t => fieldW t.mod.rsvhit 0 32 = min (2 ^ 32 - 1) (fieldW s.mod.rsvhit 0 32 + 1) ∧ fieldW t.mod.rsvhit 32 24 = 0x48)) ∧
  (coreExists q = true → Makes (.spgateWrite q v) s (fun t =>
    (∀ b < 32, (coreAt t q).gate.getLsbD b = want b ∧ (coreAt t q).ready.getLsbD b = (c.ready.getLsbD b && !want b)) ∧
    ((∃ b < 32, v.getLsbD b = true ∧ want b = false) → (coreAt t q).spstat.getLsbD 0 = true) ∧
    ∀ b < 32, want b = true → c.ready.getLsbD b = true → ∀ a < 2 ^ 17, t.mem.byte (spadKey q (b * 2 ^ 17 + a)) = 0)) ∧
  (bank < 32 → c.gate.getLsbD bank = false → c.ready.getLsbD bank = false → Makes (.bankWakeComplete q bank) s (fun t => ∀ b < 32,
    (coreAt t q).ready.getLsbD b = (c.ready.getLsbD b || decide (b = bank)))) ∧
  (d < 8 → llcPinned s d = 0 → x.toNat % 2 ^ 16 ≠ 2 ^ 16 - 1 → Makes (.llcwayWrite d x) s (fun t => t.mod.llc.get 0 d = x.setWidth 16)) ∧
  (d < 8 → x.toNat % 2 ^ 16 = 2 ^ 16 - 1 → Makes (.llcwayWrite d x) s (fun t => t.mod.llc.get 0 d = s.mod.llc.get 0 d ∧ t.mod.llcRef.get false d = true)) ∧
  (d < 8 → Makes (.llcWayDrained d) s (fun t => t.mod.llcBusy.get 0 d = 0 ∧ t.mod.llc = s.mod.llc)) ∧
  (p < 8 → k < 80 → mapRefused s p m = none → Makes (.clusterMapWrite p k m) s (fun t => t.maps.get 0 (p * 80 + k) = m)) ∧
  (p < 8 → k < 80 → ∀ why, mapRefused s p m = some why → Makes (.clusterMapWrite p k m) s (fun t => t.maps = s.maps ∧
    (partOf t p).refused = true ∧ (partOf t p).reason = BitVec.ofNat 3 why)) ∧
  (p < 8 → rangeRefused s p base count = none → Makes (.partctlWrite p v) s (fun t => (partOf t p).vecbase.toNat = base ∧ (partOf t p).veccount.toNat = count)) ∧
  (p < 8 → ∀ why, rangeRefused s p base count = some why → Makes (.partctlWrite p v) s (fun t => (partOf t p).vecbase = (partOf s p).vecbase ∧
    (partOf t p).veccount = (partOf s p).veccount ∧ (partOf t p).refused = true ∧ (partOf t p).reason = BitVec.ofNat 3 why)) ∧
  (e < 2048 → Makes (.msixUnmask e) s (fun t => (t.mod.msix.get msixReset e).getLsbD 96 = false ∧ t.mod.pending.get false e = false ∧
    t.mod.sent = (if s.mod.pending.get false e then e :: s.mod.sent else s.mod.sent))) ∧
  (0 < fn → fn < 8 → (∀ c < 64, (ctx s c).part.toNat = fn → canStart (ctx s c) = true) → Makes (.functionLevelReset fn) s (fun t =>
    ∀ k, t.mod.apslots.get 0 k = if k / 8 = fn then 0 else s.mod.apslots.get 0 k)) ∧
  (s.mod.power.boot = .up → s.mod.power.state ≠ .m3 → ∀ (en : Bool) (nv : BitVec 3), Makes (.pcieConfigRequest (some (en, nv))) s (fun t =>
    t.mod.answer = .ok ∧ t.mod.vfen = en ∧ t.mod.numvfs = nv)) ∧
  (q < 32 → (port s q).enable = false → v.getLsbD 0 = true → Makes (.ngportWrite q v) s (fun t => (port t q).enable = true ∧ (port t q).state = .training ∧ (port t q).zxen = v.getLsbD 1)) ∧
  (p < 8 → n < 1024 → x.getLsbD 16 = false → Makes (.shapeSlotWrite p n x) s (fun t => t.shapes.get 0 (p * 1024 + n) = 0)) ∧
  (d < 8 → Makes (.hrqselWrite d v) s (fun t => (hasp t d).hrqsel = v.setWidth 23))

/-- R71-R73, R100, R137: CTXCTL starts a context at ENTRY with the class PRIO, stops one, and kills one with its launches; it is IDLE once the stop or the kill has completed, and ENDED after END once its launches and their failures have gone;
a start at no code address is refused. R137: MACSTAT abandons the expansion of a context that is not active. R69, R74: the host declares and frees a tensor through HDCTL. R67, R68: the host
reads and writes tensors through the aperture; a read that a write or a restore keeps back is held and served in its time.
It rests on choices of the model: assumptions 20, 26, 28, 64, 91, 93, 100, 101. -/
def Obligations.HostContextsAndTensors : Prop := ∀ (s s' : State) (c p fn x n h : Nat) (v : BitVec 64) (b : List Byte),
  let k := ctx s c
  let idle := k.state = .idle ∨ k.state = .ended ∨ k.state = .faulted
  let part := if k.state = .idle then BitVec.ofNat 3 (fieldW v 2 3) else k.part
  let d := ptrH (partOf s p).hdres
  let a := apHandle s fn x
  let o := apOff s fn x
  let P := partOf s p
  let go := v.getLsbD 0 = true ∧ P.hdreq = none ∧ P.heldW = [] ∧ s.mod.power.state ≠ .m2
  (c < 64 → isLost s (c / 8) = false →
    (idle → isGlobal k.entry = true → k.entry.toNat % 8 = 0 → partExists s part.toNat = true → Makes (.ctxctlRun c v) s (fun t =>
      (ctx t c).state = .running ∧ (ctx t c).run = true ∧ (ctx t c).pc.toNat = ptrO k.entry ∧ ptrH (ctx t c).code = ptrH k.entry ∧ (ctx t c).part = part ∧
      (ctx t c).cls = BitVec.ofNat 2 (fieldW v 5 2) ∧ (ctx t c).handler = none ∧ (ctx t c).inh = false)) ∧
    (idle → isGlobal k.entry = false ∨ k.entry.toNat % 8 ≠ 0 → Makes (.ctxctlRun c v) s (fun t => (ctx t c).state = k.state ∧ (ctx t c).refused = true)) ∧
    (k.state = .running → Makes (.ctxctlStop c v) s (fun t => (ctx t c).state = .stopping ∧ (ctx t c).run = false)) ∧
    (¬ idle → Makes (.ctxctlKill c v) s (fun t => (ctx t c).state = .stopping ∧ (ctx t c).killing = true ∧ (ctx t c).run = false ∧ (ctx t c).wait = none)) ∧
    (idle → v.getLsbD 0 = false → Makes (.macstatClear c v) s (fun t => (ctx t c).inmac = false ∧ (ctx t c).mret = false ∧ (ctx t c).mpos = 0))) ∧
  (c < 64 →
    (k.state = .stopping → k.killing = false → hasLaunches s c = false → k.stores = [] → k.wait = none → k.woken = false → k.ending = false → Makes (.contextStopComplete c) s (fun t => (ctx t c).state = .idle)) ∧
    (k.killing = true → Makes (.contextKillComplete c) s (fun t => (ctx t c).state = .idle ∧ (ctx t c).killing = false)) ∧
    (k.ending = true → hasLaunches s c = false → k.fails = [] → Makes (.contextEndComplete c) s (fun t => (ctx t c).state = .ended ∧ (ctx t c).run = false ∧ (ctx t c).ending = false))) ∧
  (p < 8 → go → (ctx s (fieldW v 2 6)).part.toNat = p → declareTensor P.hddesc p (fieldW v 2 6) (ctx s (fieldW v 2 6)).step
      (updPart (updPart s p (fun y => { y with hdop := false, hdowner := BitVec.ofNat 6 (fieldW v 2 6), hddone := y.hddone && !v.getLsbD 9, hdrefused := y.hdrefused && !v.getLsbD 10 })) p
        (fun y => { y with hdreq := some { free := false, owner := BitVec.ofNat 6 (fieldW v 2 6), ptr := P.hdres, desc := P.hddesc } })) = .ok (s', h) →
    Makes (.hostDeclare p v) s (fun t => (partOf t p).hddone = true ∧ (partOf t p).hdreq = none ∧ (partOf t p).hdres = globalPtr h 0)) ∧
  (p < 8 → go → isGlobal P.hdres = true → declared s p d = true → freeWaits s d = false → Makes (.hostFree p v) s (fun t => (partOf t p).hddone = true ∧ (partOf t p).hdreq = none)) ∧
  (p < 8 → go → isGlobal P.hdres = false → Makes (.hostFree p v) s (fun t => (partOf t p).hdrefused = true ∧ (partOf t p).hdcode = codeUndeclared)) ∧
  (p < 8 → v.getLsbD 0 = true → ∀ r, P.hdreq = some r → P.heldW ≠ [] → Makes (.hostDeclare p v) s (fun t => (partOf t p).hdreq = some r ∧ (partOf t p).hdop = false)) ∧
  ((partOf s fn).heldW = [] → apValid s fn x n = true → isResident (trec s a) = true → (trec s a).state ≠ .dropped → (hasp s (handleDie a)).bounce = [] →
    Makes (.apertureRead fn x n) s (fun t => t.mod.answer = if poisoned s (.glob a o) n = true then .poisoned else .data (readLoc s (.glob a o) n))) ∧
  ((partOf s fn).heldW ≠ [] ∨ readBlocked s fn x n = true → Makes (.apertureRead fn x n) s (fun t => t.mod.answer = .held ∧
    (partOf t fn).heldR = (partOf s fn).heldR ++ [(x, n, (partOf s fn).heldW.length)])) ∧
  ((partOf s fn).heldR = [(x, n, 0)] → readBlocked s fn x n = false → apValid s fn x n = true → (trec s a).state ≠ .dropped → clocksRun s = true →
    let t := happen (.servedRead fn 0) s
    (partOf t fn).heldR = [] ∧ t.mod.answer = if poisoned s (.glob a o) n = true then .poisoned else .data (readLoc s (.glob a o) n)) ∧
  ((partOf s fn).heldW = [] → apValid s fn x n = false → Makes (.apertureRead fn x n) s (fun t => t.mod.answer = .ur)) ∧
  ((partOf s fn).heldW = [] → apValid s fn x b.length = true → (slotReg s (apSlot fn x)).getLsbD 24 = true → (trec s a).state ≠ .dropped → apReady s a o b.length = true →
    exec (.apertureWrite fn x b) s = .next (apPut a o b s)) ∧
  (apValid s fn x b.length = false → Makes (.apertureWrite fn x b) s (fun t => (partOf t (apSlot fn x / 8)).aperr = true ∧ t.mem = s.mem)) ∧
  (p < 8 → P.heldW = [(h, n, b)] → P.hdreq = none → (trec s h).state = .hbm → isResident (trec s h) = true → (trec s h).freeing = false → dieGone s (handleDie h) = false → apReady s h n b.length = true →
    Makes (.apertureHeldWritePerform p) s (fun t => (partOf t p).heldW = [] ∧ (trec t h).rvalid = false))

/-- R81, R82: Escutcheon answers SPDM requests on each transport in their order, advances the leaf counter for every signed response, which carries both signatures, and answers an error
where the connection does not allow the request; an exhausted counter is alarm class B. R80: MEASEXT extends MEAS6 and MEAS7 and refuses the others. R83: a tamper alarm erases the keys
and holds the dies; R84: from then on the alarmed identity signs. R85: DEBUG_UNLOCK with a right response to the challenge given unlocks and uses the challenge up; a wrong one, or one that
answers none, is alarm class B. R86, R87: a trigger holds a snapshot, each block latches its registers once, and REARM releases it.
It rests on choices of the model: assumptions 11, 25, 69, 74, 101. -/
def Obligations.TrustAndSnapshots : Prop := ∀ (s : State) (u : Transport) (offered : List SpdmAlg) (nonce : BitVec 256) (ix sess block : Nat) (pub : BitVec 768) (mac : BitVec 384)
    (sig : BitVec 768) (hss : List Byte) (v : BitVec 64),
  let t0 := s.mod.trust
  let tr := t0.via
  let k := conn t0 tr
  let up := s.mod.power.boot ≠ .off ∧ (nthD t0.booted 0 none).isSome = true
  let leaf := t0.hss < 2 ^ 30
  let S : Signed := { alarmed := t0.fused, identity := t0.fused, ecdsa := Config.deviceEcdsa t0.fused (Config.transcript s.free), hss := Config.deviceHss t0.fused t0.hss (Config.transcript s.free) }
  let replies := fun (i : Instr) (r : SpdmReply) => Makes i s (fun t => t.mod.trust.reply = r)
  let signed := fun (i : Instr) (r : SpdmReply) => Makes i s (fun t => t.mod.trust.reply = r ∧ t.mod.trust.hss = t0.hss + 1)
  let refuses := fun (i : Instr) => Makes i s (fun t => t.mod.trust.reply = .error true ∧ t.mod.trust.hss = t0.hss ∧ t.mod.trust.classB = true)
  (up → (tr = .doe → s.mod.power.boot = .up ∧ s.mod.power.state ≠ .m3) →
    Makes .getVersion s (fun t => t.mod.trust.reply = .version ∧ conn t.mod.trust tr = { Conn.zero with version := true } ∧ (u ≠ tr → conn t.mod.trust u = conn t0 u)) ∧
    (k.version = true → Makes .getCapabilities s (fun t => t.mod.trust.reply = .capabilities ∧ conn t.mod.trust tr = { k with caps := true })) ∧
    (k.version = false → replies .getCapabilities (.error false)) ∧
    (k.caps = true → (∀ a ∈ spdmAlgs, a ∈ offered) →
      Makes (.negotiateAlgorithms offered) s (fun t => t.mod.trust.reply = .algorithms spdmAlgs ∧ conn t.mod.trust tr = { k with algs := true })) ∧
    (k.algs = true →
      replies .getDigests (.digests (sha384 (Config.chain t0.fused).flatten)) ∧
      replies (.getCertificate 0) (.certificate ((Config.chain t0.fused).map (fun b => (b, ({ alarmed := t0.fused, identity := t0.fused, ecdsa := Config.genrekEcdsa b, hss := Config.genrekHss b } : Signed))))) ∧
      (leaf → signed (.challenge nonce true) (.challenge nonce S) ∧ signed (.keyExchange sess pub true) (.keyExchange sess S) ∧
        Makes (.keyExchange sess pub true) s (fun t => ∃ x, sessionOf t.mod.trust tr sess true = some x)) ∧
      (¬ leaf → refuses (.challenge nonce true) ∧ refuses (.keyExchange sess pub true) ∧ refuses (.getMeasurements 9 true)) ∧
      (ix ≤ 9 → replies (.getMeasurements ix false) (.measurements (measBlocks t0 ix) none) ∧
        (leaf → signed (.getMeasurements ix true) (.measurements (measBlocks t0 ix) (some S))))) ∧
    (k.algs = false → ∀ i ∈ [Instr.getDigests, .getCertificate 0, .challenge nonce true, .getMeasurements ix true, .keyExchange sess pub true], replies i (.error false)) ∧
    (∀ x, sessionOf t0 tr sess true = some x → Config.macOk x.key mac = true →
      Makes (.finish sess mac) s (fun t => t.mod.trust.reply = .finish sess ∧ sessionOf t.mod.trust tr sess false = some { x with wait := false } ∧ sessionOf t.mod.trust tr sess true = none)) ∧
    (∀ x, sessionOf t0 tr sess false = some x → replies (.heartbeat sess) (.heartbeat sess) ∧
      Makes (.endSession sess) s (fun t => t.mod.trust.reply = .endSession sess ∧ sessionOf t.mod.trust tr sess false = none)) ∧
    (sessionOf t0 tr sess false = none → replies (.heartbeat sess) (.error false) ∧ replies (.endSession sess) (.error false))) ∧
  (up → t0.classB = false → t0.fused = false → t0.locked = false →
    let wrong := Makes (.debugUnlock sig hss) s (fun t =>
      t.mod.trust.unlocked = false ∧ t.mod.trust.classB = true ∧ t.mod.trust.locked = true ∧ t.mod.trust.challenge = none ∧ t.mod.power.alert = true)
    (happen (.spdmVia u) s).mod.trust.via = u ∧
    (happen .debugChallenge s).mod.trust.challenge = some (Config.debugChallenge s.free) ∧
    (t0.challenge = none → wrong) ∧
    ∀ ch, t0.challenge = some ch →
      (genrekSigned (leBytes ch.toNat 32) sig hss = true → Makes (.debugUnlock sig hss) s (fun t => t.mod.trust.unlocked = true ∧ t.mod.trust.challenge = none)) ∧
      (genrekSigned (leBytes ch.toNat 32) sig hss = false → wrong)) ∧
  Makes (.measExtend v) s (fun t => let j := fieldW v 0 3
    (6 ≤ j → t.mod.trust.meas.get 0 j = measExtendWith (t0.meas.get 0 j) t0.measData ∧ ∀ i, i ≠ j → t.mod.trust.meas.get 0 i = t0.meas.get 0 i) ∧
    (j < 6 → t.mod.trust.meas = t0.meas ∧ t.mod.trust.measRef = true)) ∧
  (s.mod.power.boot ≠ .off → Makes .tamperAlarm s (fun t => Bare t ∧ t.mod.power.boot = .held ∧ t.mod.power.alert = true ∧ t.mod.trust.fused = true ∧ t.mod.trust.keys = false ∧ t.mod.trust.holdC = true ∧ t.mod.trust.sessions = [])) ∧
  (s.mod.snap.held = false → Makes .snapshotFire s (fun t => t.mod.snap.held = true ∧ t.mod.snap.cause = 4 ∧ t.mod.snap.at_ = s.clk ∧ t.mod.snap.todo = snapBlocks)) ∧
  (s.mod.snap.held = true → s.mod.snap.at_ ≠ s.clk → s.mod.snap.lost.toNat < 65535 → Makes .snapshotFire s (fun t => t.mod.snap = { s.mod.snap with lost := s.mod.snap.lost + 1 })) ∧
  (block ∈ s.mod.snap.todo → Makes (.snapshotTriggerArrival block) s (fun t => block ∉ t.mod.snap.todo ∧ t.mod.snap.latch.get [] block = snapRegs s block ∧ t.mod.snap.times.get 0 block = s.us)) ∧
  Makes .snapshotRearm s (fun t => t.mod.snap = { s.mod.snap with held := false })

/-! ### Links, packets and memory channels -/

/-- R48: lanes that train make a port UP when all four have. R41: a retrain that succeeds resumes from ACK + 1, and the third in succession that fails makes the port FAILED; three trainings that fail do too. R39, R40, R43: a
flit asked for again goes first with its own number; otherwise the next flit of the chosen lane goes with the next number into the replay buffer and takes one credit; without a flit or credit
an idle flit goes. R39, R40: a flit of wrong CRC counts for nothing and owes a NAK; a header flit with the next expected number begins a packet on its lane, and in M2 the exit (R24). R46: a route change releases what it holds.
It rests on choices of the model: assumptions 13, 22, 23. -/
def Obligations.LinkPorts : Prop := ∀ (s : State) (q vl w dest : Nat) (f : LinkFlit) (num : BitVec 16) (b : List Byte) (lanes : BitVec 4) (p : NetPacket),
  let x := port s q
  let up := q < 32 ∧ x.state = .up
  let c := (nthD b 52 0).toNat
  let old := s.mod.lastRoute.get 0 (q * 4096 + dest)
  let free := old = 0 ∨ routeBusy s q dest (old - 1) = false
  (q < 32 → x.state = .training → Makes (.portTrainingComplete q lanes) s (fun t =>
    (port t q).laneok = x.laneok ||| lanes ∧ (port t q).state = if x.laneok ||| lanes = 15 then .up else .training)) ∧
  (up → mustRetrain s x = true →
    Makes (.portRetrain q true) s (fun t => (port t q).state = .up ∧ (port t q).again = x.replay.length ∧ (port t q).fails = 0) ∧
    (x.fails < 2 → Makes (.portRetrain q false) s (fun t => port t q = { x with fails := x.fails + 1 })) ∧
    (2 ≤ x.fails → x.queue = [] → Makes (.portRetrain q false) s (fun t => (port t q).state = .failed ∧ (port t q).replay = [] ∧ t.mod.power.alert = true))) ∧
  (q < 32 → x.state = .training →
    (x.fails < 2 → Makes (.portRetrain q false) s (fun t => port t q = { x with fails := x.fails + 1 })) ∧
    (2 ≤ x.fails → x.queue = [] → Makes (.portRetrain q false) s (fun t => (port t q).state = .failed ∧ t.mod.power.alert = true))) ∧
  (up → vl < 8 →
    (0 < x.again → x.replay[x.replay.length - x.again]? = some (num, f) → Makes (.flitSend q vl) s (fun t =>
      (port t q).again = x.again - 1 ∧ (port t q).replay = x.replay ∧ (port t q).lastTx = flitImage f num (ackOf x) x.nakOwed)) ∧
    (x.again = 0 → x.replay.length < 1024 → chosenLane x vl = w → laneReady x w = true → x.flits.find? (fun g => g.vl == w) = some f → Makes (.flitSend q vl) s (fun t =>
      (port t q).seq = x.seq + 1 ∧ (port t q).replay = x.replay ++ [(x.seq, withCredit s x f)] ∧ (port t q).spent.get 0 w = x.spent.get 0 w + 1 ∧
      (port t q).flits = x.flits.erase f ∧ (port t q).tx = x.tx ∧ (port t q).lastTx = flitImage (withCredit s x f) x.seq (ackOf x) x.nakOwed)) ∧
    (x.again = 0 → laneReady x (chosenLane x vl) = false → Makes (.flitSend q vl) s (fun t =>
      (port t q).seq = x.seq ∧ (port t q).replay = x.replay ∧ (port t q).lastTx = flitImage (withCredit s x idleFlit) x.seq (ackOf x) x.nakOwed))) ∧
  (up → b.length = 64 →
    ((crc32c (b.take 60)).toNat ≠ leNat (b.drop 60) → Makes (.flitReceive q b) s (fun t => port t q = { x with nakOwed := true })) ∧
    ((crc32c (b.take 60)).toNat = leNat (b.drop 60) → bitsOf c 6 2 = 0 → bitsOf c 3 2 = 1 → leNat ((b.drop 54).take 2) = x.expect.toNat → x.ahead = [] → Makes (.flitReceive q b) s (fun t =>
      (port t q).expect = x.expect + 1 ∧ (s.mod.power.state = .m2 → t.mod.power.exiting = true) ∧ (port t q).owed.get 0 (bitsOf c 0 3) = x.owed.get 0 (bitsOf c 0 3) + 1 ∧
      (port t q).rx.get none (bitsOf c 0 3) = some { dest := leNat (b.take 2), len := leNat ((b.drop 2).take 4), bytes := [], run := [], seqs := [] }))) ∧
  (free → (∀ k ∈ s.mod.routeHold, ¬ (k.1 = q ∧ k.2.dest = dest)) → Makes (.routeSwitchRelease q dest) s (fun t =>
    t.mod.lastRoute.get 0 (q * 4096 + dest) = 0 ∧ t.mod.routeHold = s.mod.routeHold)) ∧
  (free → s.mod.routeHold = [(q, p)] → p.dest = dest → exec (.routeSwitchRelease q dest) s =
    .next (routeIn q p { s with mod := { s.mod with routeHold := [], lastRoute := s.mod.lastRoute.set 0 (q * 4096 + dest) 0 } })) ∧
  (¬ free → exec (.routeSwitchRelease q dest) s = .next s)

/-- R35, R232: a packet that nothing before it on its lane keeps back performs: a response reaches its landing entry, a signal its context (or DIE_LOST its sender, R37), a share the die's sequencer, an access its home. R46, R60: a link request
without response for 100 µs or a peer read without one for 50 ms ends its token FAULT with DATA_UE and the timeout mark; a peer's data joins the read it answers, a peer's error ends the command with DATA_UE and a poisoned completion with POISON_CONSUMED. R53, R57: a channel
that fails four times retrains at a lower rate or is disabled, and is logged; the retries of one that succeeds are counted. R52, R54: a demand read corrects and counts one wrong symbol and poisons a sector with two. R54, R55: patrol scrubbing counts and logs what it finds, and poisons a
sector it cannot correct.
It rests on choices of the model: assumptions 13, 40, 57, 58, 63, 96, 101. -/
def Obligations.PacketsAndChannels : Prop := ∀ (s s2 : State) (lane pick c tok req st ch io m q land ev n cl : Nat) (src dst : Node) (p : Packet) (rest : List Packet) (v : BitVec 1024) (bad : Bool)
    (x : XfCmd) (data : List Byte) (ptr : Word) (l : Loc) (op : AccessOp) (own : Option Nat) (e : CEntry) (r : Option (BitVec 1024 × Bool)) (h : Share) (y : PeerRead),
  let line := s.packets.filter (fun p => p.lane == lane && p.src == src && p.dst == dst)
  let first := line.drop pick = p :: rest ∧ p.after.any (notDone s) = false ∧ (line.take pick).any (fun q => blocksPacket q p) = false
  let reads := s.mod.peerReads.filter (fun r => r.core == c && r.tok == x.tok && r.vcc == x.vcc)
  let kind := fun (t : State) (k : Nat) => ((memBank t k).log.get 0 (memBank s k).next).toNat / 2 ^ 48 % 256
  let toked := fun (t : State) (code : BitVec 8) => (tokRec t c tok).status = .fault ∧ (tokRec t c tok).code = code
  let lone := xfFind s c tok true = some x ∧ x.orphan = false ∧ (coreAt s c).b.refetchWait.contains tok = false
  (first → p.body = .resp land v bad → Makes (.fabricPacketDelivery ⟨lane, pick⟩ src dst) s (fun t => t.packets = s.packets.filter (fun q => q.id != p.id) ∧
    (coreAt t p.core).b.r.lands = (coreAt s p.core).b.r.lands.map (fun y => if y.id = land then { y with resp := some (v, bad) } else y))) ∧
  (first → p.body = .signal c ev n → dieGone s (ctxDie c) = false → Makes (.fabricPacketDelivery ⟨lane, pick⟩ src dst) s (fun t => (ctx t c).inbox = (ctx s c).inbox ++ [(ev, n)])) ∧
  (first → p.body = .signal c ev n → dieGone s (ctxDie c) = true →
    exec (.fabricPacketDelivery ⟨lane, pick⟩ src dst) s = .next (streamFault (p.core - 512) codeDieLost 0 0 [] { s with packets := s.packets.filter (fun q => q.id != p.id) })) ∧
  (first → p.body = .share h cl → dieGone s (cl / 16) = false → (s.waiting.get [] (cl / 16)).length < waitingLimit → Makes (.fabricPacketDelivery ⟨lane, pick⟩ src dst) s (fun t =>
    t.waiting.get [] (cl / 16) = s.waiting.get [] (cl / 16) ++ [h])) ∧
  (first → p.core < 512 → p.body = .access ptr l op own e → homeAccess s (coreDie p.core) l op own = .done s2 r →
    exec (.fabricPacketDelivery ⟨lane, pick⟩ src dst) s = .next (giveAnswer p op r (accessOver p (tagDeltas s.nextId p.core s2)))) ∧
  (lone → x.op = 7 ∨ x.op = 8 → (∃ i ∈ x.sent, x.sentUs.get 0 i ≠ 0 ∧ x.sentUs.get 0 i + 99 ≤ s.us) → Makes (.remoteRequestTimeout c tok) s (fun t => toked t codeDataUe ∧ (tokRec t c tok).tout = true)) ∧
  (lone → (∃ r ∈ reads, r.data.length < r.n ∧ r.us + 50000 ≤ s.us) → Makes (.peerReadTimeout c tok) s (fun t => toked t codeDataUe ∧ (tokRec t c tok).tout = true)) ∧
  (lone → (reads.filter (fun r => decide (r.data.length < r.n)))[req]? = some y →
    Makes (.peerReadCompletion c ⟨tok, req⟩ .success data) s (fun t => t.mod.peerReads =
      s.mod.peerReads.map (fun r => if r = y then { r with data := r.data ++ data.take (r.n - r.data.length) } else r)) ∧
    Makes (.peerReadCompletion c ⟨tok, req⟩ .error data) s (fun t => toked t codeDataUe) ∧
    Makes (.peerReadCompletion c ⟨tok, req⟩ .poisoned data) s (fun t => toked t codePoison)) ∧
  (st < 16 → ch < 32 → (memBank s st).dead.contains ch = false →
    Makes (.hbmChannelRetrain st ch true) s (fun t => (memBank t st).half = ((memBank s st).half ++ [ch]).eraseDups ∧ (memBank t st).retry = satAdd (memBank s st).retry 3 ∧ kind t st = 6) ∧
    Makes (.hbmChannelRetrain st ch false) s (fun t => (memBank t st).dead = (memBank s st).dead ++ [ch] ∧ ch ∉ (memBank t st).half ∧ kind t st = 7)) ∧
  (io < 2 → ch < 16 → Makes (.lpddrChannelRetrain io ch) s (fun t => (memBank t (16 + io)).half = ((memBank s (16 + io)).half ++ [ch]).eraseDups ∧ kind t (16 + io) = 6)) ∧
  (m < 18 → 0 < n → n < 4 → memBank (retried m n s) m = { memBank s m with retry := satAdd (memBank s m).retry n }) ∧
  (memOf s (32 * q) = some m → m < 16 → s.poison.get false q = false → deadSector s (32 * q) = false →
    (s.wrong.get 0 q = 1 → (memBank (findOnRead q s) m).ce = satAdd (memBank s m).ce 1 ∧ kind (findOnRead q s) m = 1) ∧
    (1 < s.wrong.get 0 q → (memBank (findOnRead q s) m).ue = satAdd (memBank s m).ue 1 ∧ kind (findOnRead q s) m = 2 ∧ (findOnRead q s).poison.get false q = true)) ∧
  ((memBank s m).period ≠ 0 → bankHolds s m (32 * q) = true →
    exec (.patrolScrub m q .clean) s = .next s ∧
    Makes (.patrolScrub m q .corrected) s (fun t => (memBank t m).ce = satAdd (memBank s m).ce 1 ∧ kind t m = 4) ∧
    Makes (.patrolScrub m q .uncorrectable) s (fun t => (memBank t m).ue = satAdd (memBank s m).ue 1 ∧ kind t m = 5 ∧ t.poison.get false q = true))

/-! ### Waits, launches and dispatch -/

/-- R75, R106: WAITMB completes when its word differs and writes the new value. R90, R109: a wait whose condition holds ends; one past the limit of SLIM faults with DEADLINE (R138). R108, R110: a signal that has arrived counts. R97,
R98: a launch failure is a stream fault before the next instruction. R114: a launch that waited for its queue goes on when it has room.
It rests on choices of the model: assumptions 18, 40. -/
def Obligations.StreamWaits : Prop := ∀ (s : State) (c d h o ev n : Nat) (old v : Word) (k : WaitKind) (f : Failure),
  let x := ctx s c
  let box := x.wait = some (.mailbox d h o old) ∧ declared s x.part.toNat h = true ∧ dieGone s (handleDie h) = false ∧ isReady s h = true ∧ v = BitVec.ofNat 64 (readNat s (.glob h o) 8)
  let info := BitVec.ofNat 64 (fieldW f.step 0 32 + f.code.toNat * 2 ^ 32 + f.core % 512 * 2 ^ 40)
  (box → v = old → exec (.waitmbWake c) s = .next s) ∧
  (box → v ≠ old → poisoned s (.glob h o) 8 = false → exec (.waitmbWake c) s = .next (advancePc c 1 (setQ c d v (wakeCtx c s)))) ∧
  (x.wait = some k → waitOver s c k = false → exec (.streamWaitWake c) s = .next s) ∧
  (x.wait = some k → waitOver s c k = true → Makes (.streamWaitWake c) s (fun t => (ctx t c).wait = none ∧
    (x.state = .waiting → (ctx t c).state = .running) ∧ (∀ e thr, k = .event e thr → t = advancePc c 1 (wakeCtx c s)))) ∧
  (x.wait = some k → limited s c k = true → x.limit ≠ 0 → x.limit.toNat < s.us - x.waitUs → waitOver s c k = false → exec (.streamWaitLimit c) s = .next (streamFault c codeDeadline 1 8 [] s)) ∧
  (x.wait = some k → limited s c k = false ∨ x.limit = 0 ∨ s.us - x.waitUs ≤ x.limit.toNat → exec (.streamWaitLimit c) s = .next s) ∧
  (x.inbox = [(ev, n)] → Makes (.remoteSignalArrival c) s (fun t => (ctx t c).inbox = [] ∧ evCount t c ev = evCount s c ev + BitVec.ofNat 32 n)) ∧
  (x.fails = [f] → x.state = .running → x.wait = none → x.woken = false → exec (.launchFailureDelivery c) s = .next (streamFault c f.code info 0 f.chain (updCtx s c (fun y => { y with fails := [] })))) ∧
  (x.wait = some .queue → queueFree s c = true → exec (.launchQueueWaitEnd c) s = .next (wakeCtx c s))

/-- R141, R142, R144: a launch whose thresholds are met waits for its operands, and drains at once where it runs no task (R169). R113, R146: once they are resident each task goes out in a share to its cluster; R148: a retired cluster fails the
launch. R145: a restore that has found no victim for 10 ms, with no pin or lock dropped on its die, fails it with BOUNDS. R146: a waiting share joins its dispatcher. R165: the trim takes the tasks past the truth out of the shares, and is over once no squashed task's access is under way and none is being saved. R141: a launch that has drained is DONE: its entry is free and its event counts one.
It rests on choices of the model: assumptions 18, 40, 84. -/
def Obligations.LaunchesProceed : Prop := ∀ (s : State) (l d e tr : Nat) (h : Share) (rest : List Share) (p : Pred),
  let x := launchOf s l
  let empty := x.what = .tasks ∧ x.gx * x.gy * x.gz = 0 ∧ ∀ p, x.pred = some p →
    let g := withExtent x p.dim (match p.truth with | some t => Nat.min t p.maxe | none => p.maxe)
    g.gx * g.gy * g.gz = 0
  (x.state = .waitEv → x.waits.all (fun w => evMet s x.ctx w.1 w.2) = true → bracketFirst s l = true →
    (empty → Makes (.launchThresholdsMet l) s (fun t => (launchOf t l).state = .drain)) ∧
    (¬ empty → (neededTensors x).all (fun h => isResident (trec s h)) = true → Makes (.launchThresholdsMet l) s (fun t => (launchOf t l).state = .waitRes))) ∧
  (x.state = .waitRes → x.fail = none → allResident s x = true → x.bracket = none → x.what = .tasks →
    ((∀ k < x.plCount, (mapEntry s x.part (x.plBase + k)).getLsbD 7 = true) → x.plMode ≠ 1 → x.pred = none → Makes (.launchResident l) s (fun t => (launchOf t l).state = .running ∧
      (0 < x.plCount → ∀ i ∈ gridTasks x.gx x.gy x.gz false, ∃ k ∈ t.packets, ∃ sh cl, k.body = .share sh cl ∧ sh.launch = l ∧ i ∈ sh.todo ∧
        cl = (mapEntry s x.part (x.plBase + i.1 % x.plCount)).toNat % 128))) ∧
    ((∃ k < x.plCount, (mapEntry s x.part (x.plBase + k)).getLsbD 7 = false) → Makes (.launchResident l) s (fun t => (launchOf t l).fail = some (codeRetired, noCore)))) ∧
  (x.state = .waitRes → d ∈ neededTensors x → noVictim s d = true →
    ((∀ r ∈ x.roomUs, r.1 ≠ d) → (d, s.us, dieLocks s (handleDie d)) ∈ roomWaits s x) ∧
    (∀ u n, x.roomUs.find? (fun r => r.1 == d) = some (d, u, n) → (d, if dieLocks s (handleDie d) < n then s.us else u, dieLocks s (handleDie d)) ∈ roomWaits s x)) ∧
  (x.state = .waitRes → x.fail = none → (∃ r ∈ x.roomUs, r.2.1 + 10000 ≤ s.us) →
    Makes (.restoreWaitTimeout l) s (fun t => (launchOf t l).fail = some (codeBounds, noCore))) ∧
  (s.waiting.get [] d = h :: rest → isRetired s h.cl = false → (disp s h.cl).shares.length < 16 → (disp s h.cl).shares.any (fun y => y.launch == h.launch) = false → Makes (.shareArrival d) s (fun t =>
    (disp t h.cl).shares = (disp s h.cl).shares ++ [{ h with since := s.us, seq := s.nextId }] ∧ t.waiting.get [] d = rest)) ∧
  (x.pred = some p → p.truth = some tr → p.trimmed = false → x.state = .running →
    Makes (.trim l) s (fun t => ∀ cl, ∀ sh ∈ (disp t cl).shares, sh.launch = l → ∀ i ∈ sh.todo, i.2.2.2.2 = false → ¬ (p.min ≤ itemCoord p.dim i ∧ tr ≤ itemCoord p.dim i)) ∧
    (squashed l p tr s = [] → (∀ i ∈ p.cut.getD [], notDone s i = false) →
      (∀ c k, taskOf s c = some k → k.launch = l → k.prov = true → isSaving k = true → isPast p tr (taskCoord k p.dim) = false) →
      Makes (.trim l) s (fun t => (launchOf t l).pred = some { p with trimmed := true }))) ∧
  (x.state = .running → x.what = .tasks → tasksOver s l = true → frozenIn s l = false → drained s l = true → x.sub = none → x.bracket = none → Makes (.launchComplete l) s (fun t =>
    launchOf t l = .zero ∧ (x.sig = some e → evCount t x.ctx e = evCount s x.ctx e + 1) ∧
    (∀ code who, x.fail = some (code, who) → (ctx t x.ctx).fails = (ctx s x.ctx).fails ++ [{ step := x.step, code := code, core := who, chain := x.chain }])))

/-- R147, R149-R151: a dispatcher starts the next task of its one dispatchable share on its first usable core, with s0 its coordinates. R150, R325: an image that passes its checks enters the bundle store and the task runs; one that
fails them ends the task. R155: a frozen task whose outstanding work is done goes to its save frame and keeps its slot. R154: PREEMPT holds a partition and freezes its tasks. R159, R160: an overrun halts the partition, a second one only counts, and
RELEASE ends the task and the halt. R167, R168: a provisional task that has paused too long for its truth and a sub-stream that waits too long freeze a task.
It rests on choices of the model: assumptions 40, 50, 55. -/
def Obligations.TasksDispatched : Prop := ∀ (s : State) (cl c p : Nat) (h : Share) (it : Nat × Nat × Nat × Nat × Bool) (more : List (Nat × Nat × Nat × Nat × Bool)) (rest : List Nat) (k : Task) (im : ImageInfo) (code : BitVec 8) (v : BitVec 64),
  let x := launchOf s h.launch
  let entry := (launchOf s k.launch).entry
  let on := fun (t : State) (q : Nat) => ∃ u b, taskOf t q = some u ∧ u.stage = .saving b
  let n := s.mod.snap.lost
  (clusterExists cl = true → (∀ i < 4, (coreAt s (clusterCore cl i)).frames = []) → (disp s cl).reserved = none → (disp s cl).shares = [h] → h.cl = cl → dispatchable s h = true → h.group = false → 0 < h.cls → h.cls < 4 →
    coresFor s h = c :: rest → h.todo = it :: more → isCancelled x it = false → Makes (.dispatchRound cl) s (fun t => ∃ u, taskOf t c = some u ∧ u.launch = h.launch ∧ u.lin = it.1 ∧ u.x = it.2.1 ∧ u.y = it.2.2.1 ∧ u.z = it.2.2.2.1 ∧ u.stage = .loading ∧
      sReg t c 0 = coordWord it (startsProv x it) ∧ (coreAt t c).b.r.pc = x.entry ∧ (disp t cl).shares.map (fun y => y.todo) = [more].filter (fun l => l ≠ []))) ∧
  (taskOf s c = some k → k.stage = .loading → k.image = none → groupOf s c = [c] → privAsleep s [c] = none → (coreAt s c).image = none → dieGone s (handleDie (ptrH entry)) = false → isResident (trec s (ptrH entry)) = true →
    (readImage s (ptrH entry) (ptrO entry) = .ok im → (coreAt s c).b.tendRegs = none → Makes (.taskImageLoad c) s (fun t =>
      taskOf t c = some { k with image := some im, start := s.clk, stage := .running } ∧ (coreAt t c).image = some im)) ∧
    (readImage s (ptrH entry) (ptrO entry) = .error code → exec (.taskImageLoad c) s = .next (endFaulted [c] code s))) ∧
  (taskOf s c = some k → (∃ b, k.stage = .saving b) → groupOf s c = [c] → saveReady s c = true → Makes (.taskSaveComplete c) s (fun t =>
    taskOf t c = none ∧ (coreAt t c).frames.length = (coreAt s c).frames.length + 1 ∧ (coreAt t c).slots = (coreAt s c).slots)) ∧
  (p < 8 → ∀ i ∈ [Instr.preemptSoft p v, .preemptHard p v], Makes i s (fun t => t.softs.getLsbD p = v.getLsbD 0 ∧
    (v.getLsbD 1 = false → t.cores = s.cores) ∧ (v.getLsbD 1 = true → taskOf s c = some k → k.part = p → k.group = false → groupOf s c = [c] → mayFreeze s c = true → on t c))) ∧
  (taskOf s c = some k → overran s k = true →
    ((partOf s k.part).halted = false → Makes (.deadlineOverrun c) s (fun t => (partOf t k.part).halted = true ∧ (partOf t k.part).hcode = (if k.persist then codeSegDeadline else codeDeadline) ∧
      (partOf t k.part).hstep = BitVec.ofNat 32 k.step)) ∧
    ((partOf s k.part).halted = true → hasOverrun (partOf s k.part).overran ((groupOf s c).headD c) k.slot = false →
      Makes (.deadlineOverrun c) s (fun t => t.mod.snap.lost = (if n = 0xFFFF then 0xFFFF else n + 1) ∧ t.cores = s.cores)) ∧
    ((partOf s k.part).halted = true → hasOverrun (partOf s k.part).overran ((groupOf s c).headD c) k.slot = true → exec (.deadlineOverrun c) s = .next s)) ∧
  (p < 8 → v.getLsbD 1 = true → (partOf s p).halted = true → Makes (.partschedRelease p v) s (fun t => (partOf t p).halted = false ∧ (partOf t p).frozen = [] ∧
    (overranTask s (partOf s p) = some k → (launchOf s k.launch).state ≠ .done → (launchOf s k.launch).fail = none → (launchOf t k.launch).fail = some ((partOf s p).hcode, (partOf s p).hcore.toNat)))) ∧
  (clusterExists cl = true → freeCores s cl = [] → (disp s cl).shares.any (dispatchable s) = true → c ∈ (List.range 4).map (clusterCore cl) → isProv s c = true → mayFreeze s c = true →
    (∀ q ∈ (List.range 4).map (clusterCore cl), isProv s q = true → mayFreeze s q = true → q = c) → awaitsTruth s c = true → (∃ z, (coreAt s c).b.stuck = some z ∧ z + 65536 ≤ s.clk) →
    exec (.holdQueuePauseTimeout cl) s = .next (freezeTask c s)) ∧
  (clusterExists cl = true → (disp s cl).shares = [h] → h.sub = true → dispatchable s h = true → h.since + 100 ≤ s.us → noCoreAnywhere s h.launch = true → clusterSaving s cl = false → h.group = false →
    bestVictim s (victims s cl) = some c → exec (.substreamPreemptTimeout cl) s = .next (freezeTask c s))

/-! ### Residency -/

/-- R184, R186: an eviction run takes its one candidate by its one eligible action, and ends when nothing must be evicted. R192-R194: a pass of a page copy that no store spoiled moves on to the next page, a spoiled one is repeated, and the last
allowed one abandons the move; in swap pairs mode two pages exchange places line by line through a staging buffer. R191: a restore whose pages, and whose parity, have all arrived makes the tensor resident. R463: HFORCE performs its action on an eligible tensor and is refused without one.
It rests on choices of the model: assumptions 36, 40, 49. -/
def Obligations.EvictionAndMoves : Prop := ∀ (s : State) (h d : Nat) (a : Act) (m n : Move) (v : BitVec 64),
  let r := trec s h
  let x := hasp s d
  let last := max 1 (hasp s (handleDie h)).retry.toNat ≤ m.pass + 1
  let only := ∀ b, actOk s h b = true ↔ b = a
  let taken := fun (t : State) (forced : Bool) =>
    (a = .drop → (trec t h).state = .dropped) ∧
    (a ≠ .drop → (trec t h).busy = true ∧ ∃ k ∈ (hasp t d).moves, k.h = h ∧ k.restore = false ∧ k.page = 0 ∧ k.forced = forced ∧ (k.comp = true ↔ a = .compress))
  (d < 8 → x.moves.any (fun k => !k.restore) = false →
    (mustEvict s d = false → Makes (.evict d) s (fun t => (hasp t d).tried = [])) ∧
    (mustEvict s d = true → candidates s d = [h] → r.nuse = noUse → only → Makes (.evict d) s (fun t => taken t false)) ∧
    (mustEvict s d = true → candidates s d = [] → Makes (.evict d) s (fun t => (hasp t d).tried = [] ∧
      (freePages s d < lowPages s d → (hasp t d).hstat.getLsbD 2 = true)))) ∧
  (moveOf s h = some m → moveOpen s m = true → swapPartner s m = none →
    (m.marked ≠ [] → ¬ last → Makes (.optimisticCopyPass h) s (fun t => moveOf t h = some { m with marked := [], pass := m.pass + 1 })) ∧
    (m.marked ≠ [] → last → exec (.optimisticCopyPass h) s = .next (abandonMove h s)) ∧
    (m.marked = [] → m.page + 1 < pagesOf r.bytes →
      Makes (.optimisticCopyPass h) s (fun t => moveOf t h = some { m with page := m.page + 1, marked := [], pass := 0, lines := 0, staged := false }))) ∧
  (moveOf s h = some m → moveLeft s m = true → swapPartner s m = some n →
    let both := fun (f : Move → Move) => updMove n.h f (updMove m.h f s)
    (m.staged = false → exec (.swapPairExchange h) s = .next (both (fun y => { y with staged := true }))) ∧
    (m.staged = true → m.lines + 1 < 512 → exec (.swapPairExchange h) s = .next (both (fun y => { y with staged := false, lines := y.lines + 1 }))) ∧
    (m.staged = true → 511 ≤ m.lines → exec (.swapPairExchange h) s = .next (if m.restore = true then movePage m (movePage n s) else movePage n (movePage m s)))) ∧
  (moveOf s h = some m → m.restore = true → pagesOf r.bytes ≤ m.page →
    (deltaUnder s h = true → exec (.restoreComplete h) s = .next s) ∧
    (deltaUnder s h = false → (∀ b ∈ (hasp s (handleDie h)).bounce, b.h ≠ h) → Makes (.restoreComplete h) s (fun t =>
      (trec t h).state = .hbm ∧ (trec t h).busy = false ∧ moveOf t h = none))) ∧
  (d < 8 → x.hfBusy = false → v.getLsbD 26 = true → bitsOf v.toNat 0 23 = h →
    let force : Instr := match a with | .spill => .hforceSpill d v | .compress => .hforceCompress d v | .drop => .hforceDrop d v
    (handleDie h = d → isPageTable h = false → r.state = .hbm → isPinned s h = false → r.busy = false → actOk s h a = true → Makes force s (fun t => taken t true)) ∧
    (handleDie h ≠ d ∨ r.state = .free → Makes force s (fun t => (hasp t d).hfRef = true ∧ (hasp t d).hfWhy = 1 ∧ trec t h = r)))

/-- R131, R168, R197: a re-issue whose inputs are pinned and resident starts its recipe in a free place with the saved registers, and ends when its sub-stream has ended and its launches have gone. R196: a held writer makes the first
dependent be materialised. R176: a walk enters its leaf entry. R175: a core's range table takes an entry, 256 at most. R182: bounced data is applied to its resident tensor and its sender answered, a tensor that is not resident is asked for,
and the data of one that is lost is discarded.
It rests on choices of the model: assumptions 6, 13, 40. -/
def Obligations.RecipesAndTables : Prop := ∀ (s : State) (h d c ia : Nat) (x : Bounced) (k : Task) (u : RangeEntry) (r : Reissue) (p : Recipe) (rest : List Nat),
  let R := trec s h
  (d < 8 → s.reissues = [r] → hostDie s (handleDie r.h) = d → dieGone s (handleDie r.h) = false → mayStart s r = true → (subCtxs d).find? (fun k => (ctx s k).sub.isNone) = some c → recipeOf s r.h = some p →
    Makes (.substreamStart d) s (fun t => (ctx t c).state = .running ∧ (ctx t c).sub = some r.h ∧ (ctx t c).pc = BitVec.ofNat 48 p.lo ∧ (ctx t c).cls = BitVec.ofNat 2 r.cls ∧
      (ctx t c).q = p.saved.foldl (fun q x => q.set 0 x.1 x.2) .empty ∧ t.reissues = [{ r with sub := some c }])) ∧
  (reissueOf s h = some r → r.sub = some c → (ctx s c).state = .ended → (∀ l ∈ s.launches.cells, l.2.sub ≠ some h) → exec (.substreamComplete h) s =
    .next ((if r.failed then reissueFailed h else reissueDone h) { s with ctxs := s.ctxs.set .zero c .zero })) ∧
  (R.rhcnt ≠ 0 → writerWaits s h = true → dependents s h = d :: rest → reissueOf s d = none → exec (.dependentMaterialisation h) s = .next (requestResident d .dep (trec s d).part.toNat 1 s)) ∧
  (R.rhcnt = 0 ∨ writerWaits s h = false → exec (.dependentMaterialisation h) s = .next s) ∧
  (d < 8 → bitAt (walk s d ia) 0 = true → Makes (.pageWalk d ia) s (fun t => t.tlb.get 0 (cacheKey d ia) = BitVec.ofNat 64 (walk s d ia))) ∧
  (coreExists c = true → taskOf s c = some k → homeEntry s k.launch h = some u → u.h = h ∧ u.bytes = tensorBytes s h ∧ u.iapage = R.iapage ∧
    Makes (.rangeTableFill c h) s (fun t => (coreAt t c).artab.head? = some u ∧ (coreAt t c).artab.length ≤ 256)) ∧
  (d < 8 → (hasp s d).bounce = [x] → x.h = h → handleDie h = d → R.state ≠ .free → R.freeing = false →
    (R.lost = true → exec (.bounceApply d) s = .next (discardBounced h codeRecipeInvalid s)) ∧
    (R.lost = false → isResident R = false → exec (.bounceApply d) s = .next (requestResident h .bounce R.part.toNat 1 s)) ∧
    (R.lost = false → isResident R = true → linkFits s h x.o x.bytes.length = true → exec (.bounceApply d) s =
      .next (answerLine x.tag x.line none (linkWritten h (markPoison (storeGlob (updHasp s d (fun y => { y with bounce := [] })) h x.o x.bytes (allMask x.bytes.length)) (.glob h x.o) x.bad)))))

/-! ### Core events, engines and Deadbolt -/

/-- R320, R323: the one-slot bundle of a core is issued as its instruction. R249: a checkpoint copies the registers and releases the commit queue, unless its bundle has come to fault. R279: a pause whose condition has gone ends, counted in PAUSECNT. R278: data arrives in its landing entry. R252: a rollback
restores the checkpoint and logs the error. R254: an error in a rerun retires the cluster. R257: the scrubber counts what it corrects and poisons what it cannot. R237: a store that has found no room for 1 ms fails. R241: a HINGE.REL passes its pages on and stores its flag.
It rests on choices of the model: assumptions 27, 40, 42, 84, 98. -/
def Obligations.CoreEvents : Prop := ∀ (s : State) (c id q cl sector p own part hdr w : Nat) (i : Instr) (z : Pause) (code : BitVec 8) (pc ptr : Word) (k : Regs) (x : Packet) (l : Loc) (op : AccessOp) (o : Option Nat) (e : CEntry) (h : HingeRel) (pages : List Nat),
  let b := (coreAt s c).b
  let one := groupOf s c = [c]
  (one → fetchBundle s c = .ok (hdr, [(p, w)]) → decodeSlot p w = .ok i → exec (.bundleIssue c) s = .next (issueSlots c [(p, slotEff i)] none (setHeader [c] hdr [w] s))) ∧
  (one → fetchBundle s c = .error code → exec (.bundleIssue c) s = .next (issueSlots c [] (some (code, 15)) s)) ∧
  (one → b.pause = some z → z.cause = 12 → b.detected = none → pausedFor 12 [c] c (issueBundle c (unpause [c] s)) = false → exec (.checkpoint c) s = .next (clearPause [c] s)) ∧
  (one → b.pause = some z → z.cause = 12 → b.detected = none → b.check = none → pausedFor 12 [c] c (issueBundle c (unpause [c] s)) = true → Makes (.checkpoint c) s (fun t => (coreAt t c).b.ckpt = some b.r ∧ (coreAt t c).b.pause = none ∧ (coreAt t c).b.commitQ = [] ∧ (coreAt t c).b.ckptDone = true)) ∧
  (one → b.pause = some z → inTend s c = false → pausedFor z.cause [c] c (issueBundle c (unpause [c] s)) = true →
    exec (.pauseEnd c) s = .next (updBody (issueBundle c (unpause [c] s)) c (fun b => { b with pause := some z }))) ∧
  (one → b.pause = some z → inTend s c = false → pausedFor z.cause [c] c (issueBundle c (unpause [c] s)) = false →
    Makes (.pauseEnd c) s (fun t => (coreAt t c).b.pause = none ∧ (z.since < s.clk → (coreAt t c).b.pauseCnt.toNat = min (2 ^ 48 - 1) (b.pauseCnt.toNat + (s.clk - z.since)) ∧ (coreAt t c).b.lastPause = BitVec.ofNat 4 z.cause))) ∧
  Makes (.landingArrival c id) s (fun t => (coreAt t c).b.r.lands = b.r.lands.map (fun y => if y.id = id ∧ y.data = none then { y with data := y.resp } else y)) ∧
  (one → b.detected = some (code, pc, ptr) → rollable s c = true → b.check = none → b.noroll = false → b.ckpt = some k → Makes (.rollback c) s (fun t =>
    (coreAt t c).b.r = { k with toks := (coreAt t c).b.r.toks } ∧ (coreAt t c).b.acc = b.accSave ∧ (coreAt t c).b.commitQ = [] ∧ (coreAt t c).b.detected = none ∧ (coreAt t c).b.check.isSome = true ∧ t.mod.errnext = s.mod.errnext + 1)) ∧
  (clusterExists cl = true → q < 4 → (coreAt s (clusterCore cl q)).b.check.isSome = true → (coreAt s (clusterCore cl q)).b.detected.isSome = true → repeatsPoison (coreAt s (clusterCore cl q)).b = false →
    Makes (.clusterRetirement cl) s (fun t => isRetired t cl = true)) ∧
  (sector < 2 ^ 17 → (coreAt s c).ready.getLsbD (sector / 2 ^ 12) = true →
    exec (.scratchpadScrub c sector .clean) s = .next s ∧
    Makes (.scratchpadScrub c sector .corrected) s (fun t => fieldW (coreAt t c).coreerr 0 16 = min 65535 (fieldW (coreAt s c).coreerr 0 16 + 1)) ∧
    Makes (.scratchpadScrub c sector .uncorrectable) s (fun t => fieldW (coreAt t c).coreerr 16 16 = min 65535 (fieldW (coreAt s c).coreerr 16 16 + 1) ∧ t.poison.get false (spadKey c (32 * sector) / 32) = true)) ∧
  (c < 512 → s.packets.find? (fun y => y.core == c && lacksPage s y && (match y.lackUs with | some u => decide (u + 1000 ≤ s.us) | none => false) &&
      (match packetSpan y with | some (.glob g _, _) => noRoomLeft s (handleDie g) | _ => false)) = some x → x.body = .access ptr l op o e → landOf op = none → exec (.storeFaultUnresolved c) s = .next (storeFails x e codeTranslation s)) ∧
  (c < 512 → firstHinge s c = some x → x.body = .hinge h own part e → dieGone s (handleDie h.flagH) = false → (trec s h.flagH).owner.toNat = own →
    let u := pages.foldl (fun s q => updRec s q (fun r => { r with owner := BitVec.ofNat 6 h.newown })) s
    (walkChain s (handleDie h.flagH) own part h.count h.head [] = .pages pages → (newPages s h.flagH h.flagO 8).length ≤ freePages s (handleDie h.flagH) → exec (.hingeReleasePerform c) s =
      .next (accessOver x (tagDeltas s.nextId x.core (storeGlob u h.flagH h.flagO (leBytes h.value.toNat 8) (allMask 8))))) ∧
    (walkChain s (handleDie h.flagH) own part h.count h.head [] = .fail code → exec (.hingeReleasePerform c) s = .next (storeFails x e code s)))

/-- R421: a command whose tokens have ended starts, or ends with the fault of one; R445: a line of a plain walk reads, writes and counts. R292, R308, R309: a weight block expands into its buffer once its table is complete. R421: a matrix command without a routine performs and ends DONE.
R417: a decode table load completes. R262: a parity delta is XORed in at its holder. R258, R259: a die fence loses the die, ends what its loss touches and retires its clusters. R263: a rebuild brings the lost die to its adopter. R266: DBCTL starts a module rebuild.
It rests on choices of the model: assumptions 37, 75, 76, 77, 96, 98. -/
def Obligations.EnginesAndDeadbolt : Prop := ∀ (s u1 u2 u3 : State) (c tok d ts id k off : Nat) (m : MxCmd) (x : XfCmd) (code : BitVec 8) (bytes : List Byte) (bad : List Bool) (w : WBlock) (p : Packet) (v : BitVec 64),
  let b := (coreAt s c).b
  let T := tabSlot b ts
  let q := x.snap
  let lone := x.orphan = false ∧ b.refetchWait.contains tok = false
  let row := x.row
  let span := xfSpan x x.row x.line
  let asked := if hostSource x then askPeer c x row (xfRowSrc x row) (xfLen x) (span.1 + span.2) (span.2 + 1) span.1 s else s
  (mxHead s c = some m → m.tok = tok → m.started = false → m.ins = [] → m.op ≠ 1 → (∀ i ∈ m.after, notDone s i = false) →
    (m.fault = none → Makes (.engineCommandStart c tok) s (fun t => mxHead t c = some { m with started := true })) ∧
    (m.fault = some code → m.orphan = false → b.refetchWait.contains tok = false → Makes (.engineCommandStart c tok) s (fun t => (tokRec t c tok).status = .fault ∧ (tokRec t c tok).code = code))) ∧
  (mxHead s c = none → xfFind s c tok false = some x → x.ins = [] → x.after = [] → lone → x.op ≠ 8 → x.op ≠ 11 → locksFit s (lockRanges s x) = true →
    (x.fault = none → x.op = 9 ∨ xfEmpty q = false → Makes (.engineCommandStart c tok) s (fun t => (coreAt t c).b.xfQ = b.xfQ.map (fun y => if isCmd x.tok x.vcc y && y.orphan == x.orphan then { y with started := true, locks := lockRanges s x } else y))) ∧
    (x.fault = none → x.op ≠ 9 → xfEmpty q = true → Makes (.engineCommandStart c tok) s (fun t => (tokRec t c tok).status = .done)) ∧
    (x.fault = some code → Makes (.engineCommandStart c tok) s (fun t => (tokRec t c tok).status = .fault ∧ (tokRec t c tok).code = code))) ∧
  (xfFind s c tok true = some x → x.cancel = false → x.op ∈ [1, 2, 5, 10] → row < xfRows x → x.line < xfLines x row → row * 2 ^ 20 + x.line ∉ x.did → row * 2 ^ 20 + x.line = id → x.line < 2 ^ 20 →
    lineSource c x row span.1 span.2 asked = .ok (u1, bytes, bad) → lineSink c x row span.1 bytes bad u1 = .ok u2 → syncUpdate c x span.2 u2 = .ok u3 → exec (.engineLinePerform c tok id) s = .next (lineDone c x id (forgetReads c x row (span.1 + span.2) u3))) ∧
  (b.wbQ.find? (wbReady b) = some w → b.xfQ.find? (isCmd w.tok w.vcc) = some x → xfSync q = 0 → Makes (.weightBlockExpand c) s (fun t => w ∉ (coreAt t c).b.wbQ ∧
    ∀ i (hi : i < 256), t.mem.byte (wbufKey c (fieldW (xfDst q) 18 1) (fieldW (xfDst q) 0 18 + 256 * w.idx) + i) =
      nthD (match w.table with | some n => expandCb3 (tabSlot b n).data w.src | none => expandS24 w.src w.pos) i 0)) ∧
  (mxHead s c = some m → m.started = true → m.micro = none →
    (m.op = 3 → exec (.matrixCommandEnd c) s = .next (endMx c .done 0 0 s)) ∧
    (m.op = 4 → exec (.matrixCommandEnd c) s = .next (endMx c .done 0 0 (updBody s c (onSegments (fun r k b => normSeg (mxBank m.snap) (mxD m.snap) r k b) (box c 4 m.snap))))) ∧
    (m.op = 5 → exec (.matrixCommandEnd c) s = .next (endMx c .done 0 0 (updBody s c (clearRegion (mxBank m.snap) (mxXset m.snap) (box c 5 m.snap)))))) ∧
  (T.loading = true → T.due ≠ 0 → T.due ≤ s.clk → ts < 2 → Makes (.decodeTableComplete c ts) s (fun t => (tabSlot (coreAt t c).b ts).loading = false ∧ (tabSlot (coreAt t c).b ts).data = T.data ∧
    (T.bad = false → (coreAt t c).b.detected = b.detected) ∧ (T.bad = true → b.task.isSome = true → (coreAt t c).b.detected.isSome = true))) ∧
  (d < 8 → isLost s d = false → s.packets.find? (fun y => y.lane == 3 && y.dst == .die d) = some p → p.body = .delta k off bytes → Makes (.deltaApply d) s (fun t =>
    (∀ i (hi : i < bytes.length), t.mem.byte (parityKey d (k / 8) off + i) = bytes[i] ^^^ s.mem.byte (parityKey d (k / 8) off + i)) ∧ t.packets = s.packets.filter (fun y => y.id != p.id))) ∧
  (d < 8 → isUp s = true → isLost s d = false → Makes (.dieFence d) s (fun t => t.mod.db.lostdies.getLsbD d = true ∧ t.degraded = true ∧ t.mod.db.rebuilding = true ∧
    (∀ n < dieClusters d, isRetired t (16 * d + n) = true) ∧ ∀ n < 64, touched s d n = true → (ctx t n).state = .faulted ∧ (ctx t n).fcode = codeDieLost)) ∧
  (d < 8 → dieGone s d = true → isLost s d = true → (∀ y ∈ s.packets, y.lane ≠ 3) → Makes (.dieRebuild d) s (fun t => (∀ n, dieGone t n = false) ∧ t.mod.db.rebuilding = s.mod.db.mrebuild)) ∧
  (isUp s = true → v.getLsbD 0 = true → s.mod.db.group.getLsbD 50 = true → Makes (.dbctlMrebuild v) s (fun t => t.mod.db.rebuilding = true ∧ t.mod.db.mrebuild = true ∧ t.mod.db.progress = 0))
end

