-- ==== Sys2Proof/Laws/Table.lean ====
section
/-!
SUPPORT. Sys2Proof/Laws/Table.lean: what the sparse tables and the byte memory do: a read after a write, and the canonical form
that every operation of the byte memory keeps.
-/

namespace Sys2Proof.Machine

/-! ### Key lists -/

@[simp] theorem findKey_insKey {α : Type} (k k' : Nat) (a : α) (l : List (Nat × α)) :
    findKey k (insKey k' a l) = if k = k' then some a else findKey k l := by
  induction l with
  | nil => simp [insKey, findKey]
  | cons x t ih =>
    obtain ⟨k₂, a₂⟩ := x
    simp only [insKey]
    split
    · simp [findKey]
    · split
      · subst_vars; simp only [findKey]; split <;> rfl
      · simp only [findKey, ih]; split <;> split <;> first | rfl | omega

@[simp] theorem findKey_delKey {α : Type} (k k' : Nat) (l : List (Nat × α)) :
    findKey k (delKey k' l) = if k = k' then none else findKey k l := by
  induction l with
  | nil => simp [delKey, findKey]
  | cons x t ih =>
    obtain ⟨k₂, a₂⟩ := x
    simp only [delKey]
    split
    · subst_vars; simp only [ih, findKey]; split <;> rfl
    · simp only [findKey, ih]; split <;> split <;> first | rfl | omega

/-! ### Tables -/

/-- A read of a table after a write. -/
@[simp] theorem Tab.get_set {α : Type} [DecidableEq α] (t : Tab α) (d : α) (k k' : Nat) (a : α) :
    (t.set d k a).get d k' = if k' = k then a else t.get d k' := by
  simp only [Tab.get, Tab.set]
  split
  · subst_vars; simp only [findKey_delKey]; split <;> rfl
  · simp only [findKey_insKey]; split <;> rfl

/-- A read of a table after a change of one entry. -/
@[simp] theorem Tab.get_upd {α : Type} [DecidableEq α] (t : Tab α) (d : α) (k k' : Nat) (f : α → α) :
    (t.upd d k f).get d k' = if k' = k then f (t.get d k) else t.get d k' := by
  simp [Tab.upd]

@[simp] theorem Tab.get_empty {α : Type} (d : α) (k : Nat) : (Tab.empty : Tab α).get d k = d := rfl

/-! ### Bytes -/

/-- A read of a byte after a store of one. -/
@[simp] theorem Memory.byte_setByte (m : Memory) (k k' : Nat) (b : Byte) :
    (m.setByte k b).byte k' = if k' = k then b else m.byte k' := by
  simp only [Memory.byte, Memory.setByte]
  split
  · subst_vars; simp only [findKey_delKey]; split <;> rfl
  · simp only [findKey_insKey]; split <;> rfl

@[simp] theorem Memory.byte_empty (k : Nat) : Memory.empty.byte k = 0 := rfl

/-- A byte below a run that is stored keeps its value. -/
theorem Memory.byte_setBytes_below (m : Memory) (k k' : Nat) (l : List Byte) (h : k' < k) : (m.setBytes k l).byte k' = m.byte k' := by
  induction l generalizing m k with
  | nil => rfl
  | cons b t ih => rw [Memory.setBytes, ih _ _ (by omega), Memory.byte_setByte, if_neg (by omega)]

/-- A byte outside a run that is stored keeps its value. -/
theorem Memory.byte_setBytes_outside (m : Memory) (k k' : Nat) (l : List Byte) (h : k' < k ∨ k + l.length ≤ k') :
    (m.setBytes k l).byte k' = m.byte k' := by
  induction l generalizing m k with
  | nil => rfl
  | cons b t ih =>
    rw [Memory.setBytes, ih _ _ (by simp at h; omega), Memory.byte_setByte, if_neg (by simp at h; omega)]

/-- A byte of a run that is stored. -/
theorem Memory.byte_setBytes_inside (m : Memory) (k i : Nat) (l : List Byte) (h : i < l.length) :
    (m.setBytes k l).byte (k + i) = l[i] := by
  induction l generalizing m k i with
  | nil => simp at h
  | cons b t ih =>
    cases i with
    | zero => rw [Memory.setBytes, Memory.byte_setBytes_below _ _ _ _ (by omega)]; simp
    | succ j =>
      have := ih (m.setByte k b) (k + 1) j (by simpa using h)
      rw [Memory.setBytes, show k + (j + 1) = k + 1 + j by omega, this]; rfl

/-! ### The canonical form -/

/-- Keys that rise from above a bound rise from above a lower one. -/
theorem risesFrom_weaken {α : Type} {b b' : Nat} (h : b' ≤ b) : ∀ {l : List (Nat × α)}, risesFrom (some b) l = true → risesFrom (some b') l = true
  | [], _ => rfl
  | (k, _) :: t, hl => by simp only [risesFrom, Bool.and_eq_true, decide_eq_true_eq] at hl ⊢; exact ⟨by omega, hl.2⟩

theorem risesFrom_none {α : Type} {b : Nat} : ∀ {l : List (Nat × α)}, risesFrom (some b) l = true → risesFrom none l = true
  | [], _ => rfl
  | (k, _) :: t, hl => by simp only [risesFrom, Bool.and_eq_true] at hl ⊢; exact hl.2

theorem insKey_rises {α : Type} (k : Nat) (a : α) : ∀ {b : Nat} {l : List (Nat × α)}, b < k → risesFrom (some b) l = true →
    risesFrom (some b) (insKey k a l) = true
  | b, [], hb, _ => by simp [insKey, risesFrom, hb]
  | b, (k', a') :: t, hb, hl => by
    simp only [risesFrom, Bool.and_eq_true, decide_eq_true_eq] at hl
    simp only [insKey]
    split
    · next h => simp [risesFrom, hb, h, hl.2]
    · split
      · next h => subst h; simp [risesFrom, hb, hl.2]
      · next h₁ h₂ => simp [risesFrom, hl.1, insKey_rises k a (show k' < k by omega) hl.2]

theorem insKey_rises_none {α : Type} (k : Nat) (a : α) : ∀ {l : List (Nat × α)}, risesFrom none l = true → risesFrom none (insKey k a l) = true
  | [], _ => rfl
  | (k', a') :: t, hl => by
    simp only [risesFrom] at hl
    simp only [insKey]
    split
    · next h => simp [risesFrom, h, hl]
    · split
      · next h => subst h; simp [risesFrom, hl]
      · next h₁ h₂ => simp [risesFrom, insKey_rises k a (show k' < k by omega) hl]

theorem delKey_rises {α : Type} (k : Nat) : ∀ {b : Nat} {l : List (Nat × α)}, risesFrom (some b) l = true → risesFrom (some b) (delKey k l) = true
  | _, [], _ => rfl
  | b, (k', a') :: t, hl => by
    simp only [risesFrom, Bool.and_eq_true, decide_eq_true_eq] at hl
    simp only [delKey]
    split
    · exact risesFrom_weaken (by omega) (delKey_rises k hl.2)
    · simp [risesFrom, hl.1, delKey_rises k hl.2]

theorem delKey_rises_none {α : Type} (k : Nat) : ∀ {l : List (Nat × α)}, risesFrom none l = true → risesFrom none (delKey k l) = true
  | [], _ => rfl
  | (k', a') :: t, hl => by
    simp only [risesFrom] at hl
    simp only [delKey]
    split
    · exact risesFrom_none (delKey_rises k hl)
    · simpa [risesFrom] using delKey_rises k hl

theorem filter_rises {α : Type} (p : Nat × α → Bool) : ∀ {b : Nat} {l : List (Nat × α)}, risesFrom (some b) l = true →
    risesFrom (some b) (l.filter p) = true
  | _, [], _ => rfl
  | b, (k', a') :: t, hl => by
    simp only [risesFrom, Bool.and_eq_true, decide_eq_true_eq] at hl
    simp only [List.filter]
    split
    · simp [risesFrom, hl.1, filter_rises p hl.2]
    · exact risesFrom_weaken (by omega) (filter_rises p hl.2)

theorem filter_rises_none {α : Type} (p : Nat × α → Bool) : ∀ {l : List (Nat × α)}, risesFrom none l = true → risesFrom none (l.filter p) = true
  | [], _ => rfl
  | (k', a') :: t, hl => by
    simp only [risesFrom] at hl
    simp only [List.filter]
    split
    · simpa [risesFrom] using filter_rises p hl
    · exact risesFrom_none (filter_rises p hl)

theorem mem_insKey {α : Type} (k : Nat) (a : α) : ∀ {l : List (Nat × α)} {x : Nat × α}, x ∈ insKey k a l → x = (k, a) ∨ x ∈ l
  | [], x, h => by simpa [insKey] using h
  | (k', a') :: t, x, h => by
    simp only [insKey] at h
    split at h
    · simpa using h
    · split at h
      · rcases List.mem_cons.1 h with h | h
        · exact .inl h
        · exact .inr (List.mem_cons_of_mem _ h)
      · rcases List.mem_cons.1 h with h | h
        · exact .inr (h ▸ List.mem_cons_self)
        · rcases mem_insKey k a h with h | h
          · exact .inl h
          · exact .inr (List.mem_cons_of_mem _ h)

theorem mem_delKey {α : Type} (k : Nat) : ∀ {l : List (Nat × α)} {x : Nat × α}, x ∈ delKey k l → x ∈ l
  | [], x, h => h
  | (k', a') :: t, x, h => by
    simp only [delKey] at h
    split at h
    · exact List.mem_cons_of_mem _ (mem_delKey k h)
    · rcases List.mem_cons.1 h with h | h
      · exact h ▸ List.mem_cons_self
      · exact List.mem_cons_of_mem _ (mem_delKey k h)

theorem Memory.wf_iff (m : Memory) : m.wf = true ↔ risesFrom none m.cells = true ∧ ∀ c ∈ m.cells, c.2 ≠ 0 := by
  simp [Memory.wf]

@[simp] theorem Memory.empty_wf : Memory.empty.wf = true := rfl

/-- A store of one byte keeps the canonical form. -/
@[simp] theorem Memory.setByte_wf {m : Memory} (k : Nat) (b : Byte) (h : m.wf = true) : (m.setByte k b).wf = true := by
  rw [Memory.wf_iff] at h ⊢
  simp only [Memory.setByte]
  split
  · exact ⟨delKey_rises_none k h.1, fun c hc => h.2 c (mem_delKey k hc)⟩
  · next hb =>
    refine ⟨insKey_rises_none k b h.1, fun c hc => ?_⟩
    rcases mem_insKey k b hc with rfl | hc
    · exact hb
    · exact h.2 c hc

/-- A store of a run of bytes keeps it. -/
@[simp] theorem Memory.setBytes_wf {m : Memory} (k : Nat) (l : List Byte) (h : m.wf = true) : (m.setBytes k l).wf = true := by
  induction l generalizing m k with
  | nil => exact h
  | cons b t ih => exact ih (k + 1) (Memory.setByte_wf k b h)

/-- Keeping some of the listed bytes keeps it. -/
theorem Memory.filter_wf {m : Memory} (p : Host.Cell → Bool) (h : m.wf = true) : ({ cells := m.cells.filter p } : Memory).wf = true := by
  rw [Memory.wf_iff] at h ⊢
  exact ⟨filter_rises_none p h.1, fun c hc => h.2 c (List.mem_filter.1 hc).1⟩

/-- Zeroing a range keeps it. -/
@[simp] theorem Memory.zeroRange_wf {m : Memory} (lo n : Nat) (h : m.wf = true) : (m.zeroRange lo n).wf = true := Memory.filter_wf _ h

/-- Writing saved bytes back keeps it. -/
@[simp] theorem Memory.restore_wf {m : Memory} (lo n : Nat) (l : List Host.Cell) (h : m.wf = true) : (m.restore lo n l).wf = true := by
  have key : ∀ (l : List Host.Cell) (m : Memory), m.wf = true → (l.foldl (fun m c => m.setByte (lo + c.1) c.2) m).wf = true := by
    intro l
    induction l with
    | nil => exact fun _ h => h
    | cons c t ih => exact fun m h => ih _ (Memory.setByte_wf _ _ h)
  exact key l _ (Memory.zeroRange_wf lo n h)

/-- A byte inside a zeroed range reads zero, every other byte as before. -/
theorem Memory.byte_zeroRange (m : Memory) (lo n k : Nat) :
    (m.zeroRange lo n).byte k = if lo ≤ k ∧ k < lo + n then 0 else m.byte k := by
  have key : ∀ l : List Host.Cell, findKey k (l.filter (fun c => !(decide (lo ≤ c.1) && decide (c.1 < lo + n)))) =
      if lo ≤ k ∧ k < lo + n then none else findKey k l := by
    intro l
    induction l with
    | nil => simp [findKey]
    | cons c t ih =>
      obtain ⟨k', b⟩ := c
      simp only [List.filter]
      split <;> rename_i hp <;> simp only [findKey, ih] <;> simp at hp <;> split <;> rename_i h₁ <;>
        (try split) <;> (try rfl) <;> (try subst h₁) <;> omega
  simp only [Memory.byte, Memory.zeroRange, key]
  split <;> rfl

end Sys2Proof.Machine
end

