-- ==== Sys2Proof/Laws/State.lean ====
section
/-!
SUPPORT. Sys2Proof/Laws/State.lean: what each update of a part of the state leaves of every field, and what a read of the part
gives afterwards.
-/

namespace Sys2Proof.Machine

/-! ### updCore -/

@[simp] theorem updCore_clk (s : State) (c : Nat) (f : Core → Core) : (updCore s c f).clk = s.clk := rfl
@[simp] theorem updCore_us (s : State) (c : Nat) (f : Core → Core) : (updCore s c f).us = s.us := rfl
@[simp] theorem updCore_agenda (s : State) (c : Nat) (f : Core → Core) : (updCore s c f).agenda = s.agenda := rfl
@[simp] theorem updCore_curCore (s : State) (c : Nat) (f : Core → Core) : (updCore s c f).curCore = s.curCore := rfl
@[simp] theorem updCore_curCtx (s : State) (c : Nat) (f : Core → Core) : (updCore s c f).curCtx = s.curCtx := rfl
@[simp] theorem updCore_free (s : State) (c : Nat) (f : Core → Core) : (updCore s c f).free = s.free := rfl
@[simp] theorem updCore_nextId (s : State) (c : Nat) (f : Core → Core) : (updCore s c f).nextId = s.nextId := rfl
@[simp] theorem updCore_mem (s : State) (c : Nat) (f : Core → Core) : (updCore s c f).mem = s.mem := rfl
@[simp] theorem updCore_poison (s : State) (c : Nat) (f : Core → Core) : (updCore s c f).poison = s.poison := rfl
@[simp] theorem updCore_wrong (s : State) (c : Nat) (f : Core → Core) : (updCore s c f).wrong = s.wrong := rfl
@[simp] theorem updCore_ctxs (s : State) (c : Nat) (f : Core → Core) : (updCore s c f).ctxs = s.ctxs := rfl
@[simp] theorem updCore_launches (s : State) (c : Nat) (f : Core → Core) : (updCore s c f).launches = s.launches := rfl
@[simp] theorem updCore_recs (s : State) (c : Nat) (f : Core → Core) : (updCore s c f).recs = s.recs := rfl
@[simp] theorem updCore_recipes (s : State) (c : Nat) (f : Core → Core) : (updCore s c f).recipes = s.recipes := rfl
@[simp] theorem updCore_reissues (s : State) (c : Nat) (f : Core → Core) : (updCore s c f).reissues = s.reissues := rfl
@[simp] theorem updCore_hasps (s : State) (c : Nat) (f : Core → Core) : (updCore s c f).hasps = s.hasps := rfl
@[simp] theorem updCore_disps (s : State) (c : Nat) (f : Core → Core) : (updCore s c f).disps = s.disps := rfl
@[simp] theorem updCore_waiting (s : State) (c : Nat) (f : Core → Core) : (updCore s c f).waiting = s.waiting := rfl
@[simp] theorem updCore_routes (s : State) (c : Nat) (f : Core → Core) : (updCore s c f).routes = s.routes := rfl
@[simp] theorem updCore_shapes (s : State) (c : Nat) (f : Core → Core) : (updCore s c f).shapes = s.shapes := rfl
@[simp] theorem updCore_tumblers (s : State) (c : Nat) (f : Core → Core) : (updCore s c f).tumblers = s.tumblers := rfl
@[simp] theorem updCore_mwords (s : State) (c : Nat) (f : Core → Core) : (updCore s c f).mwords = s.mwords := rfl
@[simp] theorem updCore_mtags (s : State) (c : Nat) (f : Core → Core) : (updCore s c f).mtags = s.mtags := rfl
@[simp] theorem updCore_mdirs (s : State) (c : Nat) (f : Core → Core) : (updCore s c f).mdirs = s.mdirs := rfl
@[simp] theorem updCore_pages (s : State) (c : Nat) (f : Core → Core) : (updCore s c f).pages = s.pages := rfl
@[simp] theorem updCore_ptw (s : State) (c : Nat) (f : Core → Core) : (updCore s c f).ptw = s.ptw := rfl
@[simp] theorem updCore_tlb (s : State) (c : Nat) (f : Core → Core) : (updCore s c f).tlb = s.tlb := rfl
@[simp] theorem updCore_l2 (s : State) (c : Nat) (f : Core → Core) : (updCore s c f).l2 = s.l2 := rfl
@[simp] theorem updCore_l2Dirty (s : State) (c : Nat) (f : Core → Core) : (updCore s c f).l2Dirty = s.l2Dirty := rfl
@[simp] theorem updCore_packets (s : State) (c : Nat) (f : Core → Core) : (updCore s c f).packets = s.packets := rfl
@[simp] theorem updCore_maps (s : State) (c : Nat) (f : Core → Core) : (updCore s c f).maps = s.maps := rfl
@[simp] theorem updCore_softs (s : State) (c : Nat) (f : Core → Core) : (updCore s c f).softs = s.softs := rfl
@[simp] theorem updCore_degraded (s : State) (c : Nat) (f : Core → Core) : (updCore s c f).degraded = s.degraded := rfl
@[simp] theorem updCore_mod (s : State) (c : Nat) (f : Core → Core) : (updCore s c f).mod = s.mod := rfl
@[simp] theorem ctx_updCore (s : State) (c : Nat) (f : Core → Core) (i : Nat) : ctx (updCore s c f) i = ctx s i := rfl
@[simp] theorem trec_updCore (s : State) (c : Nat) (f : Core → Core) (i : Nat) : trec (updCore s c f) i = trec s i := rfl
@[simp] theorem launchOf_updCore (s : State) (c : Nat) (f : Core → Core) (i : Nat) : launchOf (updCore s c f) i = launchOf s i := rfl
@[simp] theorem hasp_updCore (s : State) (c : Nat) (f : Core → Core) (i : Nat) : hasp (updCore s c f) i = hasp s i := rfl
@[simp] theorem disp_updCore (s : State) (c : Nat) (f : Core → Core) (i : Nat) : disp (updCore s c f) i = disp s i := rfl

/-! ### updBody -/

@[simp] theorem updBody_clk (s : State) (c : Nat) (f : Body → Body) : (updBody s c f).clk = s.clk := rfl
@[simp] theorem updBody_us (s : State) (c : Nat) (f : Body → Body) : (updBody s c f).us = s.us := rfl
@[simp] theorem updBody_agenda (s : State) (c : Nat) (f : Body → Body) : (updBody s c f).agenda = s.agenda := rfl
@[simp] theorem updBody_curCore (s : State) (c : Nat) (f : Body → Body) : (updBody s c f).curCore = s.curCore := rfl
@[simp] theorem updBody_curCtx (s : State) (c : Nat) (f : Body → Body) : (updBody s c f).curCtx = s.curCtx := rfl
@[simp] theorem updBody_free (s : State) (c : Nat) (f : Body → Body) : (updBody s c f).free = s.free := rfl
@[simp] theorem updBody_nextId (s : State) (c : Nat) (f : Body → Body) : (updBody s c f).nextId = s.nextId := rfl
@[simp] theorem updBody_mem (s : State) (c : Nat) (f : Body → Body) : (updBody s c f).mem = s.mem := rfl
@[simp] theorem updBody_poison (s : State) (c : Nat) (f : Body → Body) : (updBody s c f).poison = s.poison := rfl
@[simp] theorem updBody_wrong (s : State) (c : Nat) (f : Body → Body) : (updBody s c f).wrong = s.wrong := rfl
@[simp] theorem updBody_ctxs (s : State) (c : Nat) (f : Body → Body) : (updBody s c f).ctxs = s.ctxs := rfl
@[simp] theorem updBody_launches (s : State) (c : Nat) (f : Body → Body) : (updBody s c f).launches = s.launches := rfl
@[simp] theorem updBody_recs (s : State) (c : Nat) (f : Body → Body) : (updBody s c f).recs = s.recs := rfl
@[simp] theorem updBody_recipes (s : State) (c : Nat) (f : Body → Body) : (updBody s c f).recipes = s.recipes := rfl
@[simp] theorem updBody_reissues (s : State) (c : Nat) (f : Body → Body) : (updBody s c f).reissues = s.reissues := rfl
@[simp] theorem updBody_hasps (s : State) (c : Nat) (f : Body → Body) : (updBody s c f).hasps = s.hasps := rfl
@[simp] theorem updBody_disps (s : State) (c : Nat) (f : Body → Body) : (updBody s c f).disps = s.disps := rfl
@[simp] theorem updBody_waiting (s : State) (c : Nat) (f : Body → Body) : (updBody s c f).waiting = s.waiting := rfl
@[simp] theorem updBody_routes (s : State) (c : Nat) (f : Body → Body) : (updBody s c f).routes = s.routes := rfl
@[simp] theorem updBody_shapes (s : State) (c : Nat) (f : Body → Body) : (updBody s c f).shapes = s.shapes := rfl
@[simp] theorem updBody_tumblers (s : State) (c : Nat) (f : Body → Body) : (updBody s c f).tumblers = s.tumblers := rfl
@[simp] theorem updBody_mwords (s : State) (c : Nat) (f : Body → Body) : (updBody s c f).mwords = s.mwords := rfl
@[simp] theorem updBody_mtags (s : State) (c : Nat) (f : Body → Body) : (updBody s c f).mtags = s.mtags := rfl
@[simp] theorem updBody_mdirs (s : State) (c : Nat) (f : Body → Body) : (updBody s c f).mdirs = s.mdirs := rfl
@[simp] theorem updBody_pages (s : State) (c : Nat) (f : Body → Body) : (updBody s c f).pages = s.pages := rfl
@[simp] theorem updBody_ptw (s : State) (c : Nat) (f : Body → Body) : (updBody s c f).ptw = s.ptw := rfl
@[simp] theorem updBody_tlb (s : State) (c : Nat) (f : Body → Body) : (updBody s c f).tlb = s.tlb := rfl
@[simp] theorem updBody_l2 (s : State) (c : Nat) (f : Body → Body) : (updBody s c f).l2 = s.l2 := rfl
@[simp] theorem updBody_l2Dirty (s : State) (c : Nat) (f : Body → Body) : (updBody s c f).l2Dirty = s.l2Dirty := rfl
@[simp] theorem updBody_packets (s : State) (c : Nat) (f : Body → Body) : (updBody s c f).packets = s.packets := rfl
@[simp] theorem updBody_maps (s : State) (c : Nat) (f : Body → Body) : (updBody s c f).maps = s.maps := rfl
@[simp] theorem updBody_softs (s : State) (c : Nat) (f : Body → Body) : (updBody s c f).softs = s.softs := rfl
@[simp] theorem updBody_degraded (s : State) (c : Nat) (f : Body → Body) : (updBody s c f).degraded = s.degraded := rfl
@[simp] theorem updBody_mod (s : State) (c : Nat) (f : Body → Body) : (updBody s c f).mod = s.mod := rfl
@[simp] theorem ctx_updBody (s : State) (c : Nat) (f : Body → Body) (i : Nat) : ctx (updBody s c f) i = ctx s i := rfl
@[simp] theorem trec_updBody (s : State) (c : Nat) (f : Body → Body) (i : Nat) : trec (updBody s c f) i = trec s i := rfl
@[simp] theorem launchOf_updBody (s : State) (c : Nat) (f : Body → Body) (i : Nat) : launchOf (updBody s c f) i = launchOf s i := rfl
@[simp] theorem hasp_updBody (s : State) (c : Nat) (f : Body → Body) (i : Nat) : hasp (updBody s c f) i = hasp s i := rfl
@[simp] theorem disp_updBody (s : State) (c : Nat) (f : Body → Body) (i : Nat) : disp (updBody s c f) i = disp s i := rfl

/-! ### updRegs -/

@[simp] theorem updRegs_clk (s : State) (c : Nat) (f : Regs → Regs) : (updRegs s c f).clk = s.clk := rfl
@[simp] theorem updRegs_us (s : State) (c : Nat) (f : Regs → Regs) : (updRegs s c f).us = s.us := rfl
@[simp] theorem updRegs_agenda (s : State) (c : Nat) (f : Regs → Regs) : (updRegs s c f).agenda = s.agenda := rfl
@[simp] theorem updRegs_curCore (s : State) (c : Nat) (f : Regs → Regs) : (updRegs s c f).curCore = s.curCore := rfl
@[simp] theorem updRegs_curCtx (s : State) (c : Nat) (f : Regs → Regs) : (updRegs s c f).curCtx = s.curCtx := rfl
@[simp] theorem updRegs_free (s : State) (c : Nat) (f : Regs → Regs) : (updRegs s c f).free = s.free := rfl
@[simp] theorem updRegs_nextId (s : State) (c : Nat) (f : Regs → Regs) : (updRegs s c f).nextId = s.nextId := rfl
@[simp] theorem updRegs_mem (s : State) (c : Nat) (f : Regs → Regs) : (updRegs s c f).mem = s.mem := rfl
@[simp] theorem updRegs_poison (s : State) (c : Nat) (f : Regs → Regs) : (updRegs s c f).poison = s.poison := rfl
@[simp] theorem updRegs_wrong (s : State) (c : Nat) (f : Regs → Regs) : (updRegs s c f).wrong = s.wrong := rfl
@[simp] theorem updRegs_ctxs (s : State) (c : Nat) (f : Regs → Regs) : (updRegs s c f).ctxs = s.ctxs := rfl
@[simp] theorem updRegs_launches (s : State) (c : Nat) (f : Regs → Regs) : (updRegs s c f).launches = s.launches := rfl
@[simp] theorem updRegs_recs (s : State) (c : Nat) (f : Regs → Regs) : (updRegs s c f).recs = s.recs := rfl
@[simp] theorem updRegs_recipes (s : State) (c : Nat) (f : Regs → Regs) : (updRegs s c f).recipes = s.recipes := rfl
@[simp] theorem updRegs_reissues (s : State) (c : Nat) (f : Regs → Regs) : (updRegs s c f).reissues = s.reissues := rfl
@[simp] theorem updRegs_hasps (s : State) (c : Nat) (f : Regs → Regs) : (updRegs s c f).hasps = s.hasps := rfl
@[simp] theorem updRegs_disps (s : State) (c : Nat) (f : Regs → Regs) : (updRegs s c f).disps = s.disps := rfl
@[simp] theorem updRegs_waiting (s : State) (c : Nat) (f : Regs → Regs) : (updRegs s c f).waiting = s.waiting := rfl
@[simp] theorem updRegs_routes (s : State) (c : Nat) (f : Regs → Regs) : (updRegs s c f).routes = s.routes := rfl
@[simp] theorem updRegs_shapes (s : State) (c : Nat) (f : Regs → Regs) : (updRegs s c f).shapes = s.shapes := rfl
@[simp] theorem updRegs_tumblers (s : State) (c : Nat) (f : Regs → Regs) : (updRegs s c f).tumblers = s.tumblers := rfl
@[simp] theorem updRegs_mwords (s : State) (c : Nat) (f : Regs → Regs) : (updRegs s c f).mwords = s.mwords := rfl
@[simp] theorem updRegs_mtags (s : State) (c : Nat) (f : Regs → Regs) : (updRegs s c f).mtags = s.mtags := rfl
@[simp] theorem updRegs_mdirs (s : State) (c : Nat) (f : Regs → Regs) : (updRegs s c f).mdirs = s.mdirs := rfl
@[simp] theorem updRegs_pages (s : State) (c : Nat) (f : Regs → Regs) : (updRegs s c f).pages = s.pages := rfl
@[simp] theorem updRegs_ptw (s : State) (c : Nat) (f : Regs → Regs) : (updRegs s c f).ptw = s.ptw := rfl
@[simp] theorem updRegs_tlb (s : State) (c : Nat) (f : Regs → Regs) : (updRegs s c f).tlb = s.tlb := rfl
@[simp] theorem updRegs_l2 (s : State) (c : Nat) (f : Regs → Regs) : (updRegs s c f).l2 = s.l2 := rfl
@[simp] theorem updRegs_l2Dirty (s : State) (c : Nat) (f : Regs → Regs) : (updRegs s c f).l2Dirty = s.l2Dirty := rfl
@[simp] theorem updRegs_packets (s : State) (c : Nat) (f : Regs → Regs) : (updRegs s c f).packets = s.packets := rfl
@[simp] theorem updRegs_maps (s : State) (c : Nat) (f : Regs → Regs) : (updRegs s c f).maps = s.maps := rfl
@[simp] theorem updRegs_softs (s : State) (c : Nat) (f : Regs → Regs) : (updRegs s c f).softs = s.softs := rfl
@[simp] theorem updRegs_degraded (s : State) (c : Nat) (f : Regs → Regs) : (updRegs s c f).degraded = s.degraded := rfl
@[simp] theorem updRegs_mod (s : State) (c : Nat) (f : Regs → Regs) : (updRegs s c f).mod = s.mod := rfl
@[simp] theorem ctx_updRegs (s : State) (c : Nat) (f : Regs → Regs) (i : Nat) : ctx (updRegs s c f) i = ctx s i := rfl
@[simp] theorem trec_updRegs (s : State) (c : Nat) (f : Regs → Regs) (i : Nat) : trec (updRegs s c f) i = trec s i := rfl
@[simp] theorem launchOf_updRegs (s : State) (c : Nat) (f : Regs → Regs) (i : Nat) : launchOf (updRegs s c f) i = launchOf s i := rfl
@[simp] theorem hasp_updRegs (s : State) (c : Nat) (f : Regs → Regs) (i : Nat) : hasp (updRegs s c f) i = hasp s i := rfl
@[simp] theorem disp_updRegs (s : State) (c : Nat) (f : Regs → Regs) (i : Nat) : disp (updRegs s c f) i = disp s i := rfl

/-! ### setTok -/

@[simp] theorem setTok_clk (s : State) (c t : Nat) (f : TokenRec → TokenRec) : (setTok s c t f).clk = s.clk := rfl
@[simp] theorem setTok_us (s : State) (c t : Nat) (f : TokenRec → TokenRec) : (setTok s c t f).us = s.us := rfl
@[simp] theorem setTok_agenda (s : State) (c t : Nat) (f : TokenRec → TokenRec) : (setTok s c t f).agenda = s.agenda := rfl
@[simp] theorem setTok_curCore (s : State) (c t : Nat) (f : TokenRec → TokenRec) : (setTok s c t f).curCore = s.curCore := rfl
@[simp] theorem setTok_curCtx (s : State) (c t : Nat) (f : TokenRec → TokenRec) : (setTok s c t f).curCtx = s.curCtx := rfl
@[simp] theorem setTok_free (s : State) (c t : Nat) (f : TokenRec → TokenRec) : (setTok s c t f).free = s.free := rfl
@[simp] theorem setTok_nextId (s : State) (c t : Nat) (f : TokenRec → TokenRec) : (setTok s c t f).nextId = s.nextId := rfl
@[simp] theorem setTok_mem (s : State) (c t : Nat) (f : TokenRec → TokenRec) : (setTok s c t f).mem = s.mem := rfl
@[simp] theorem setTok_poison (s : State) (c t : Nat) (f : TokenRec → TokenRec) : (setTok s c t f).poison = s.poison := rfl
@[simp] theorem setTok_wrong (s : State) (c t : Nat) (f : TokenRec → TokenRec) : (setTok s c t f).wrong = s.wrong := rfl
@[simp] theorem setTok_ctxs (s : State) (c t : Nat) (f : TokenRec → TokenRec) : (setTok s c t f).ctxs = s.ctxs := rfl
@[simp] theorem setTok_launches (s : State) (c t : Nat) (f : TokenRec → TokenRec) : (setTok s c t f).launches = s.launches := rfl
@[simp] theorem setTok_recs (s : State) (c t : Nat) (f : TokenRec → TokenRec) : (setTok s c t f).recs = s.recs := rfl
@[simp] theorem setTok_recipes (s : State) (c t : Nat) (f : TokenRec → TokenRec) : (setTok s c t f).recipes = s.recipes := rfl
@[simp] theorem setTok_reissues (s : State) (c t : Nat) (f : TokenRec → TokenRec) : (setTok s c t f).reissues = s.reissues := rfl
@[simp] theorem setTok_hasps (s : State) (c t : Nat) (f : TokenRec → TokenRec) : (setTok s c t f).hasps = s.hasps := rfl
@[simp] theorem setTok_disps (s : State) (c t : Nat) (f : TokenRec → TokenRec) : (setTok s c t f).disps = s.disps := rfl
@[simp] theorem setTok_waiting (s : State) (c t : Nat) (f : TokenRec → TokenRec) : (setTok s c t f).waiting = s.waiting := rfl
@[simp] theorem setTok_routes (s : State) (c t : Nat) (f : TokenRec → TokenRec) : (setTok s c t f).routes = s.routes := rfl
@[simp] theorem setTok_shapes (s : State) (c t : Nat) (f : TokenRec → TokenRec) : (setTok s c t f).shapes = s.shapes := rfl
@[simp] theorem setTok_tumblers (s : State) (c t : Nat) (f : TokenRec → TokenRec) : (setTok s c t f).tumblers = s.tumblers := rfl
@[simp] theorem setTok_mwords (s : State) (c t : Nat) (f : TokenRec → TokenRec) : (setTok s c t f).mwords = s.mwords := rfl
@[simp] theorem setTok_mtags (s : State) (c t : Nat) (f : TokenRec → TokenRec) : (setTok s c t f).mtags = s.mtags := rfl
@[simp] theorem setTok_mdirs (s : State) (c t : Nat) (f : TokenRec → TokenRec) : (setTok s c t f).mdirs = s.mdirs := rfl
@[simp] theorem setTok_pages (s : State) (c t : Nat) (f : TokenRec → TokenRec) : (setTok s c t f).pages = s.pages := rfl
@[simp] theorem setTok_ptw (s : State) (c t : Nat) (f : TokenRec → TokenRec) : (setTok s c t f).ptw = s.ptw := rfl
@[simp] theorem setTok_tlb (s : State) (c t : Nat) (f : TokenRec → TokenRec) : (setTok s c t f).tlb = s.tlb := rfl
@[simp] theorem setTok_l2 (s : State) (c t : Nat) (f : TokenRec → TokenRec) : (setTok s c t f).l2 = s.l2 := rfl
@[simp] theorem setTok_l2Dirty (s : State) (c t : Nat) (f : TokenRec → TokenRec) : (setTok s c t f).l2Dirty = s.l2Dirty := rfl
@[simp] theorem setTok_packets (s : State) (c t : Nat) (f : TokenRec → TokenRec) : (setTok s c t f).packets = s.packets := rfl
@[simp] theorem setTok_maps (s : State) (c t : Nat) (f : TokenRec → TokenRec) : (setTok s c t f).maps = s.maps := rfl
@[simp] theorem setTok_softs (s : State) (c t : Nat) (f : TokenRec → TokenRec) : (setTok s c t f).softs = s.softs := rfl
@[simp] theorem setTok_degraded (s : State) (c t : Nat) (f : TokenRec → TokenRec) : (setTok s c t f).degraded = s.degraded := rfl
@[simp] theorem setTok_mod (s : State) (c t : Nat) (f : TokenRec → TokenRec) : (setTok s c t f).mod = s.mod := rfl
@[simp] theorem ctx_setTok (s : State) (c t : Nat) (f : TokenRec → TokenRec) (i : Nat) : ctx (setTok s c t f) i = ctx s i := rfl
@[simp] theorem trec_setTok (s : State) (c t : Nat) (f : TokenRec → TokenRec) (i : Nat) : trec (setTok s c t f) i = trec s i := rfl
@[simp] theorem launchOf_setTok (s : State) (c t : Nat) (f : TokenRec → TokenRec) (i : Nat) : launchOf (setTok s c t f) i = launchOf s i := rfl
@[simp] theorem hasp_setTok (s : State) (c t : Nat) (f : TokenRec → TokenRec) (i : Nat) : hasp (setTok s c t f) i = hasp s i := rfl
@[simp] theorem disp_setTok (s : State) (c t : Nat) (f : TokenRec → TokenRec) (i : Nat) : disp (setTok s c t f) i = disp s i := rfl

/-! ### updCtx -/

@[simp] theorem updCtx_clk (s : State) (c : Nat) (f : Ctx → Ctx) : (updCtx s c f).clk = s.clk := rfl
@[simp] theorem updCtx_us (s : State) (c : Nat) (f : Ctx → Ctx) : (updCtx s c f).us = s.us := rfl
@[simp] theorem updCtx_agenda (s : State) (c : Nat) (f : Ctx → Ctx) : (updCtx s c f).agenda = s.agenda := rfl
@[simp] theorem updCtx_curCore (s : State) (c : Nat) (f : Ctx → Ctx) : (updCtx s c f).curCore = s.curCore := rfl
@[simp] theorem updCtx_curCtx (s : State) (c : Nat) (f : Ctx → Ctx) : (updCtx s c f).curCtx = s.curCtx := rfl
@[simp] theorem updCtx_free (s : State) (c : Nat) (f : Ctx → Ctx) : (updCtx s c f).free = s.free := rfl
@[simp] theorem updCtx_nextId (s : State) (c : Nat) (f : Ctx → Ctx) : (updCtx s c f).nextId = s.nextId := rfl
@[simp] theorem updCtx_mem (s : State) (c : Nat) (f : Ctx → Ctx) : (updCtx s c f).mem = s.mem := rfl
@[simp] theorem updCtx_poison (s : State) (c : Nat) (f : Ctx → Ctx) : (updCtx s c f).poison = s.poison := rfl
@[simp] theorem updCtx_wrong (s : State) (c : Nat) (f : Ctx → Ctx) : (updCtx s c f).wrong = s.wrong := rfl
@[simp] theorem updCtx_cores (s : State) (c : Nat) (f : Ctx → Ctx) : (updCtx s c f).cores = s.cores := rfl
@[simp] theorem updCtx_launches (s : State) (c : Nat) (f : Ctx → Ctx) : (updCtx s c f).launches = s.launches := rfl
@[simp] theorem updCtx_recs (s : State) (c : Nat) (f : Ctx → Ctx) : (updCtx s c f).recs = s.recs := rfl
@[simp] theorem updCtx_recipes (s : State) (c : Nat) (f : Ctx → Ctx) : (updCtx s c f).recipes = s.recipes := rfl
@[simp] theorem updCtx_reissues (s : State) (c : Nat) (f : Ctx → Ctx) : (updCtx s c f).reissues = s.reissues := rfl
@[simp] theorem updCtx_hasps (s : State) (c : Nat) (f : Ctx → Ctx) : (updCtx s c f).hasps = s.hasps := rfl
@[simp] theorem updCtx_disps (s : State) (c : Nat) (f : Ctx → Ctx) : (updCtx s c f).disps = s.disps := rfl
@[simp] theorem updCtx_waiting (s : State) (c : Nat) (f : Ctx → Ctx) : (updCtx s c f).waiting = s.waiting := rfl
@[simp] theorem updCtx_routes (s : State) (c : Nat) (f : Ctx → Ctx) : (updCtx s c f).routes = s.routes := rfl
@[simp] theorem updCtx_shapes (s : State) (c : Nat) (f : Ctx → Ctx) : (updCtx s c f).shapes = s.shapes := rfl
@[simp] theorem updCtx_tumblers (s : State) (c : Nat) (f : Ctx → Ctx) : (updCtx s c f).tumblers = s.tumblers := rfl
@[simp] theorem updCtx_mwords (s : State) (c : Nat) (f : Ctx → Ctx) : (updCtx s c f).mwords = s.mwords := rfl
@[simp] theorem updCtx_mtags (s : State) (c : Nat) (f : Ctx → Ctx) : (updCtx s c f).mtags = s.mtags := rfl
@[simp] theorem updCtx_mdirs (s : State) (c : Nat) (f : Ctx → Ctx) : (updCtx s c f).mdirs = s.mdirs := rfl
@[simp] theorem updCtx_pages (s : State) (c : Nat) (f : Ctx → Ctx) : (updCtx s c f).pages = s.pages := rfl
@[simp] theorem updCtx_ptw (s : State) (c : Nat) (f : Ctx → Ctx) : (updCtx s c f).ptw = s.ptw := rfl
@[simp] theorem updCtx_tlb (s : State) (c : Nat) (f : Ctx → Ctx) : (updCtx s c f).tlb = s.tlb := rfl
@[simp] theorem updCtx_l2 (s : State) (c : Nat) (f : Ctx → Ctx) : (updCtx s c f).l2 = s.l2 := rfl
@[simp] theorem updCtx_l2Dirty (s : State) (c : Nat) (f : Ctx → Ctx) : (updCtx s c f).l2Dirty = s.l2Dirty := rfl
@[simp] theorem updCtx_packets (s : State) (c : Nat) (f : Ctx → Ctx) : (updCtx s c f).packets = s.packets := rfl
@[simp] theorem updCtx_maps (s : State) (c : Nat) (f : Ctx → Ctx) : (updCtx s c f).maps = s.maps := rfl
@[simp] theorem updCtx_softs (s : State) (c : Nat) (f : Ctx → Ctx) : (updCtx s c f).softs = s.softs := rfl
@[simp] theorem updCtx_degraded (s : State) (c : Nat) (f : Ctx → Ctx) : (updCtx s c f).degraded = s.degraded := rfl
@[simp] theorem updCtx_mod (s : State) (c : Nat) (f : Ctx → Ctx) : (updCtx s c f).mod = s.mod := rfl
@[simp] theorem core_updCtx (s : State) (c : Nat) (f : Ctx → Ctx) (i : Nat) : coreAt (updCtx s c f) i = coreAt s i := rfl
@[simp] theorem trec_updCtx (s : State) (c : Nat) (f : Ctx → Ctx) (i : Nat) : trec (updCtx s c f) i = trec s i := rfl
@[simp] theorem launchOf_updCtx (s : State) (c : Nat) (f : Ctx → Ctx) (i : Nat) : launchOf (updCtx s c f) i = launchOf s i := rfl
@[simp] theorem hasp_updCtx (s : State) (c : Nat) (f : Ctx → Ctx) (i : Nat) : hasp (updCtx s c f) i = hasp s i := rfl
@[simp] theorem disp_updCtx (s : State) (c : Nat) (f : Ctx → Ctx) (i : Nat) : disp (updCtx s c f) i = disp s i := rfl

/-! ### updRec -/

@[simp] theorem updRec_clk (s : State) (h : Nat) (f : TRec → TRec) : (updRec s h f).clk = s.clk := rfl
@[simp] theorem updRec_us (s : State) (h : Nat) (f : TRec → TRec) : (updRec s h f).us = s.us := rfl
@[simp] theorem updRec_agenda (s : State) (h : Nat) (f : TRec → TRec) : (updRec s h f).agenda = s.agenda := rfl
@[simp] theorem updRec_curCore (s : State) (h : Nat) (f : TRec → TRec) : (updRec s h f).curCore = s.curCore := rfl
@[simp] theorem updRec_curCtx (s : State) (h : Nat) (f : TRec → TRec) : (updRec s h f).curCtx = s.curCtx := rfl
@[simp] theorem updRec_free (s : State) (h : Nat) (f : TRec → TRec) : (updRec s h f).free = s.free := rfl
@[simp] theorem updRec_nextId (s : State) (h : Nat) (f : TRec → TRec) : (updRec s h f).nextId = s.nextId := rfl
@[simp] theorem updRec_mem (s : State) (h : Nat) (f : TRec → TRec) : (updRec s h f).mem = s.mem := rfl
@[simp] theorem updRec_poison (s : State) (h : Nat) (f : TRec → TRec) : (updRec s h f).poison = s.poison := rfl
@[simp] theorem updRec_wrong (s : State) (h : Nat) (f : TRec → TRec) : (updRec s h f).wrong = s.wrong := rfl
@[simp] theorem updRec_cores (s : State) (h : Nat) (f : TRec → TRec) : (updRec s h f).cores = s.cores := rfl
@[simp] theorem updRec_ctxs (s : State) (h : Nat) (f : TRec → TRec) : (updRec s h f).ctxs = s.ctxs := rfl
@[simp] theorem updRec_launches (s : State) (h : Nat) (f : TRec → TRec) : (updRec s h f).launches = s.launches := rfl
@[simp] theorem updRec_recipes (s : State) (h : Nat) (f : TRec → TRec) : (updRec s h f).recipes = s.recipes := rfl
@[simp] theorem updRec_reissues (s : State) (h : Nat) (f : TRec → TRec) : (updRec s h f).reissues = s.reissues := rfl
@[simp] theorem updRec_hasps (s : State) (h : Nat) (f : TRec → TRec) : (updRec s h f).hasps = s.hasps := rfl
@[simp] theorem updRec_disps (s : State) (h : Nat) (f : TRec → TRec) : (updRec s h f).disps = s.disps := rfl
@[simp] theorem updRec_waiting (s : State) (h : Nat) (f : TRec → TRec) : (updRec s h f).waiting = s.waiting := rfl
@[simp] theorem updRec_routes (s : State) (h : Nat) (f : TRec → TRec) : (updRec s h f).routes = s.routes := rfl
@[simp] theorem updRec_shapes (s : State) (h : Nat) (f : TRec → TRec) : (updRec s h f).shapes = s.shapes := rfl
@[simp] theorem updRec_tumblers (s : State) (h : Nat) (f : TRec → TRec) : (updRec s h f).tumblers = s.tumblers := rfl
@[simp] theorem updRec_mwords (s : State) (h : Nat) (f : TRec → TRec) : (updRec s h f).mwords = s.mwords := rfl
@[simp] theorem updRec_mtags (s : State) (h : Nat) (f : TRec → TRec) : (updRec s h f).mtags = s.mtags := rfl
@[simp] theorem updRec_mdirs (s : State) (h : Nat) (f : TRec → TRec) : (updRec s h f).mdirs = s.mdirs := rfl
@[simp] theorem updRec_pages (s : State) (h : Nat) (f : TRec → TRec) : (updRec s h f).pages = s.pages := rfl
@[simp] theorem updRec_ptw (s : State) (h : Nat) (f : TRec → TRec) : (updRec s h f).ptw = s.ptw := rfl
@[simp] theorem updRec_tlb (s : State) (h : Nat) (f : TRec → TRec) : (updRec s h f).tlb = s.tlb := rfl
@[simp] theorem updRec_l2 (s : State) (h : Nat) (f : TRec → TRec) : (updRec s h f).l2 = s.l2 := rfl
@[simp] theorem updRec_l2Dirty (s : State) (h : Nat) (f : TRec → TRec) : (updRec s h f).l2Dirty = s.l2Dirty := rfl
@[simp] theorem updRec_packets (s : State) (h : Nat) (f : TRec → TRec) : (updRec s h f).packets = s.packets := rfl
@[simp] theorem updRec_maps (s : State) (h : Nat) (f : TRec → TRec) : (updRec s h f).maps = s.maps := rfl
@[simp] theorem updRec_softs (s : State) (h : Nat) (f : TRec → TRec) : (updRec s h f).softs = s.softs := rfl
@[simp] theorem updRec_degraded (s : State) (h : Nat) (f : TRec → TRec) : (updRec s h f).degraded = s.degraded := rfl
@[simp] theorem updRec_mod (s : State) (h : Nat) (f : TRec → TRec) : (updRec s h f).mod = s.mod := rfl
@[simp] theorem core_updRec (s : State) (h : Nat) (f : TRec → TRec) (i : Nat) : coreAt (updRec s h f) i = coreAt s i := rfl
@[simp] theorem ctx_updRec (s : State) (h : Nat) (f : TRec → TRec) (i : Nat) : ctx (updRec s h f) i = ctx s i := rfl
@[simp] theorem launchOf_updRec (s : State) (h : Nat) (f : TRec → TRec) (i : Nat) : launchOf (updRec s h f) i = launchOf s i := rfl
@[simp] theorem hasp_updRec (s : State) (h : Nat) (f : TRec → TRec) (i : Nat) : hasp (updRec s h f) i = hasp s i := rfl
@[simp] theorem disp_updRec (s : State) (h : Nat) (f : TRec → TRec) (i : Nat) : disp (updRec s h f) i = disp s i := rfl

/-! ### updLaunch -/

@[simp] theorem updLaunch_clk (s : State) (l : Nat) (f : Launch → Launch) : (updLaunch s l f).clk = s.clk := rfl
@[simp] theorem updLaunch_us (s : State) (l : Nat) (f : Launch → Launch) : (updLaunch s l f).us = s.us := rfl
@[simp] theorem updLaunch_agenda (s : State) (l : Nat) (f : Launch → Launch) : (updLaunch s l f).agenda = s.agenda := rfl
@[simp] theorem updLaunch_curCore (s : State) (l : Nat) (f : Launch → Launch) : (updLaunch s l f).curCore = s.curCore := rfl
@[simp] theorem updLaunch_curCtx (s : State) (l : Nat) (f : Launch → Launch) : (updLaunch s l f).curCtx = s.curCtx := rfl
@[simp] theorem updLaunch_free (s : State) (l : Nat) (f : Launch → Launch) : (updLaunch s l f).free = s.free := rfl
@[simp] theorem updLaunch_nextId (s : State) (l : Nat) (f : Launch → Launch) : (updLaunch s l f).nextId = s.nextId := rfl
@[simp] theorem updLaunch_mem (s : State) (l : Nat) (f : Launch → Launch) : (updLaunch s l f).mem = s.mem := rfl
@[simp] theorem updLaunch_poison (s : State) (l : Nat) (f : Launch → Launch) : (updLaunch s l f).poison = s.poison := rfl
@[simp] theorem updLaunch_wrong (s : State) (l : Nat) (f : Launch → Launch) : (updLaunch s l f).wrong = s.wrong := rfl
@[simp] theorem updLaunch_cores (s : State) (l : Nat) (f : Launch → Launch) : (updLaunch s l f).cores = s.cores := rfl
@[simp] theorem updLaunch_ctxs (s : State) (l : Nat) (f : Launch → Launch) : (updLaunch s l f).ctxs = s.ctxs := rfl
@[simp] theorem updLaunch_recs (s : State) (l : Nat) (f : Launch → Launch) : (updLaunch s l f).recs = s.recs := rfl
@[simp] theorem updLaunch_recipes (s : State) (l : Nat) (f : Launch → Launch) : (updLaunch s l f).recipes = s.recipes := rfl
@[simp] theorem updLaunch_reissues (s : State) (l : Nat) (f : Launch → Launch) : (updLaunch s l f).reissues = s.reissues := rfl
@[simp] theorem updLaunch_hasps (s : State) (l : Nat) (f : Launch → Launch) : (updLaunch s l f).hasps = s.hasps := rfl
@[simp] theorem updLaunch_disps (s : State) (l : Nat) (f : Launch → Launch) : (updLaunch s l f).disps = s.disps := rfl
@[simp] theorem updLaunch_waiting (s : State) (l : Nat) (f : Launch → Launch) : (updLaunch s l f).waiting = s.waiting := rfl
@[simp] theorem updLaunch_routes (s : State) (l : Nat) (f : Launch → Launch) : (updLaunch s l f).routes = s.routes := rfl
@[simp] theorem updLaunch_shapes (s : State) (l : Nat) (f : Launch → Launch) : (updLaunch s l f).shapes = s.shapes := rfl
@[simp] theorem updLaunch_tumblers (s : State) (l : Nat) (f : Launch → Launch) : (updLaunch s l f).tumblers = s.tumblers := rfl
@[simp] theorem updLaunch_mwords (s : State) (l : Nat) (f : Launch → Launch) : (updLaunch s l f).mwords = s.mwords := rfl
@[simp] theorem updLaunch_mtags (s : State) (l : Nat) (f : Launch → Launch) : (updLaunch s l f).mtags = s.mtags := rfl
@[simp] theorem updLaunch_mdirs (s : State) (l : Nat) (f : Launch → Launch) : (updLaunch s l f).mdirs = s.mdirs := rfl
@[simp] theorem updLaunch_pages (s : State) (l : Nat) (f : Launch → Launch) : (updLaunch s l f).pages = s.pages := rfl
@[simp] theorem updLaunch_ptw (s : State) (l : Nat) (f : Launch → Launch) : (updLaunch s l f).ptw = s.ptw := rfl
@[simp] theorem updLaunch_tlb (s : State) (l : Nat) (f : Launch → Launch) : (updLaunch s l f).tlb = s.tlb := rfl
@[simp] theorem updLaunch_l2 (s : State) (l : Nat) (f : Launch → Launch) : (updLaunch s l f).l2 = s.l2 := rfl
@[simp] theorem updLaunch_l2Dirty (s : State) (l : Nat) (f : Launch → Launch) : (updLaunch s l f).l2Dirty = s.l2Dirty := rfl
@[simp] theorem updLaunch_packets (s : State) (l : Nat) (f : Launch → Launch) : (updLaunch s l f).packets = s.packets := rfl
@[simp] theorem updLaunch_maps (s : State) (l : Nat) (f : Launch → Launch) : (updLaunch s l f).maps = s.maps := rfl
@[simp] theorem updLaunch_softs (s : State) (l : Nat) (f : Launch → Launch) : (updLaunch s l f).softs = s.softs := rfl
@[simp] theorem updLaunch_degraded (s : State) (l : Nat) (f : Launch → Launch) : (updLaunch s l f).degraded = s.degraded := rfl
@[simp] theorem updLaunch_mod (s : State) (l : Nat) (f : Launch → Launch) : (updLaunch s l f).mod = s.mod := rfl
@[simp] theorem core_updLaunch (s : State) (l : Nat) (f : Launch → Launch) (i : Nat) : coreAt (updLaunch s l f) i = coreAt s i := rfl
@[simp] theorem ctx_updLaunch (s : State) (l : Nat) (f : Launch → Launch) (i : Nat) : ctx (updLaunch s l f) i = ctx s i := rfl
@[simp] theorem trec_updLaunch (s : State) (l : Nat) (f : Launch → Launch) (i : Nat) : trec (updLaunch s l f) i = trec s i := rfl
@[simp] theorem hasp_updLaunch (s : State) (l : Nat) (f : Launch → Launch) (i : Nat) : hasp (updLaunch s l f) i = hasp s i := rfl
@[simp] theorem disp_updLaunch (s : State) (l : Nat) (f : Launch → Launch) (i : Nat) : disp (updLaunch s l f) i = disp s i := rfl

/-! ### updHasp -/

@[simp] theorem updHasp_clk (s : State) (d : Nat) (f : Hasp → Hasp) : (updHasp s d f).clk = s.clk := rfl
@[simp] theorem updHasp_us (s : State) (d : Nat) (f : Hasp → Hasp) : (updHasp s d f).us = s.us := rfl
@[simp] theorem updHasp_agenda (s : State) (d : Nat) (f : Hasp → Hasp) : (updHasp s d f).agenda = s.agenda := rfl
@[simp] theorem updHasp_curCore (s : State) (d : Nat) (f : Hasp → Hasp) : (updHasp s d f).curCore = s.curCore := rfl
@[simp] theorem updHasp_curCtx (s : State) (d : Nat) (f : Hasp → Hasp) : (updHasp s d f).curCtx = s.curCtx := rfl
@[simp] theorem updHasp_free (s : State) (d : Nat) (f : Hasp → Hasp) : (updHasp s d f).free = s.free := rfl
@[simp] theorem updHasp_nextId (s : State) (d : Nat) (f : Hasp → Hasp) : (updHasp s d f).nextId = s.nextId := rfl
@[simp] theorem updHasp_mem (s : State) (d : Nat) (f : Hasp → Hasp) : (updHasp s d f).mem = s.mem := rfl
@[simp] theorem updHasp_poison (s : State) (d : Nat) (f : Hasp → Hasp) : (updHasp s d f).poison = s.poison := rfl
@[simp] theorem updHasp_wrong (s : State) (d : Nat) (f : Hasp → Hasp) : (updHasp s d f).wrong = s.wrong := rfl
@[simp] theorem updHasp_cores (s : State) (d : Nat) (f : Hasp → Hasp) : (updHasp s d f).cores = s.cores := rfl
@[simp] theorem updHasp_ctxs (s : State) (d : Nat) (f : Hasp → Hasp) : (updHasp s d f).ctxs = s.ctxs := rfl
@[simp] theorem updHasp_launches (s : State) (d : Nat) (f : Hasp → Hasp) : (updHasp s d f).launches = s.launches := rfl
@[simp] theorem updHasp_recs (s : State) (d : Nat) (f : Hasp → Hasp) : (updHasp s d f).recs = s.recs := rfl
@[simp] theorem updHasp_recipes (s : State) (d : Nat) (f : Hasp → Hasp) : (updHasp s d f).recipes = s.recipes := rfl
@[simp] theorem updHasp_reissues (s : State) (d : Nat) (f : Hasp → Hasp) : (updHasp s d f).reissues = s.reissues := rfl
@[simp] theorem updHasp_disps (s : State) (d : Nat) (f : Hasp → Hasp) : (updHasp s d f).disps = s.disps := rfl
@[simp] theorem updHasp_waiting (s : State) (d : Nat) (f : Hasp → Hasp) : (updHasp s d f).waiting = s.waiting := rfl
@[simp] theorem updHasp_routes (s : State) (d : Nat) (f : Hasp → Hasp) : (updHasp s d f).routes = s.routes := rfl
@[simp] theorem updHasp_shapes (s : State) (d : Nat) (f : Hasp → Hasp) : (updHasp s d f).shapes = s.shapes := rfl
@[simp] theorem updHasp_tumblers (s : State) (d : Nat) (f : Hasp → Hasp) : (updHasp s d f).tumblers = s.tumblers := rfl
@[simp] theorem updHasp_mwords (s : State) (d : Nat) (f : Hasp → Hasp) : (updHasp s d f).mwords = s.mwords := rfl
@[simp] theorem updHasp_mtags (s : State) (d : Nat) (f : Hasp → Hasp) : (updHasp s d f).mtags = s.mtags := rfl
@[simp] theorem updHasp_mdirs (s : State) (d : Nat) (f : Hasp → Hasp) : (updHasp s d f).mdirs = s.mdirs := rfl
@[simp] theorem updHasp_pages (s : State) (d : Nat) (f : Hasp → Hasp) : (updHasp s d f).pages = s.pages := rfl
@[simp] theorem updHasp_ptw (s : State) (d : Nat) (f : Hasp → Hasp) : (updHasp s d f).ptw = s.ptw := rfl
@[simp] theorem updHasp_tlb (s : State) (d : Nat) (f : Hasp → Hasp) : (updHasp s d f).tlb = s.tlb := rfl
@[simp] theorem updHasp_l2 (s : State) (d : Nat) (f : Hasp → Hasp) : (updHasp s d f).l2 = s.l2 := rfl
@[simp] theorem updHasp_l2Dirty (s : State) (d : Nat) (f : Hasp → Hasp) : (updHasp s d f).l2Dirty = s.l2Dirty := rfl
@[simp] theorem updHasp_packets (s : State) (d : Nat) (f : Hasp → Hasp) : (updHasp s d f).packets = s.packets := rfl
@[simp] theorem updHasp_maps (s : State) (d : Nat) (f : Hasp → Hasp) : (updHasp s d f).maps = s.maps := rfl
@[simp] theorem updHasp_softs (s : State) (d : Nat) (f : Hasp → Hasp) : (updHasp s d f).softs = s.softs := rfl
@[simp] theorem updHasp_degraded (s : State) (d : Nat) (f : Hasp → Hasp) : (updHasp s d f).degraded = s.degraded := rfl
@[simp] theorem updHasp_mod (s : State) (d : Nat) (f : Hasp → Hasp) : (updHasp s d f).mod = s.mod := rfl
@[simp] theorem core_updHasp (s : State) (d : Nat) (f : Hasp → Hasp) (i : Nat) : coreAt (updHasp s d f) i = coreAt s i := rfl
@[simp] theorem ctx_updHasp (s : State) (d : Nat) (f : Hasp → Hasp) (i : Nat) : ctx (updHasp s d f) i = ctx s i := rfl
@[simp] theorem trec_updHasp (s : State) (d : Nat) (f : Hasp → Hasp) (i : Nat) : trec (updHasp s d f) i = trec s i := rfl
@[simp] theorem launchOf_updHasp (s : State) (d : Nat) (f : Hasp → Hasp) (i : Nat) : launchOf (updHasp s d f) i = launchOf s i := rfl
@[simp] theorem disp_updHasp (s : State) (d : Nat) (f : Hasp → Hasp) (i : Nat) : disp (updHasp s d f) i = disp s i := rfl

/-! ### updDisp -/

@[simp] theorem updDisp_clk (s : State) (c : Nat) (f : Dispatcher → Dispatcher) : (updDisp s c f).clk = s.clk := rfl
@[simp] theorem updDisp_us (s : State) (c : Nat) (f : Dispatcher → Dispatcher) : (updDisp s c f).us = s.us := rfl
@[simp] theorem updDisp_agenda (s : State) (c : Nat) (f : Dispatcher → Dispatcher) : (updDisp s c f).agenda = s.agenda := rfl
@[simp] theorem updDisp_curCore (s : State) (c : Nat) (f : Dispatcher → Dispatcher) : (updDisp s c f).curCore = s.curCore := rfl
@[simp] theorem updDisp_curCtx (s : State) (c : Nat) (f : Dispatcher → Dispatcher) : (updDisp s c f).curCtx = s.curCtx := rfl
@[simp] theorem updDisp_free (s : State) (c : Nat) (f : Dispatcher → Dispatcher) : (updDisp s c f).free = s.free := rfl
@[simp] theorem updDisp_nextId (s : State) (c : Nat) (f : Dispatcher → Dispatcher) : (updDisp s c f).nextId = s.nextId := rfl
@[simp] theorem updDisp_mem (s : State) (c : Nat) (f : Dispatcher → Dispatcher) : (updDisp s c f).mem = s.mem := rfl
@[simp] theorem updDisp_poison (s : State) (c : Nat) (f : Dispatcher → Dispatcher) : (updDisp s c f).poison = s.poison := rfl
@[simp] theorem updDisp_wrong (s : State) (c : Nat) (f : Dispatcher → Dispatcher) : (updDisp s c f).wrong = s.wrong := rfl
@[simp] theorem updDisp_cores (s : State) (c : Nat) (f : Dispatcher → Dispatcher) : (updDisp s c f).cores = s.cores := rfl
@[simp] theorem updDisp_ctxs (s : State) (c : Nat) (f : Dispatcher → Dispatcher) : (updDisp s c f).ctxs = s.ctxs := rfl
@[simp] theorem updDisp_launches (s : State) (c : Nat) (f : Dispatcher → Dispatcher) : (updDisp s c f).launches = s.launches := rfl
@[simp] theorem updDisp_recs (s : State) (c : Nat) (f : Dispatcher → Dispatcher) : (updDisp s c f).recs = s.recs := rfl
@[simp] theorem updDisp_recipes (s : State) (c : Nat) (f : Dispatcher → Dispatcher) : (updDisp s c f).recipes = s.recipes := rfl
@[simp] theorem updDisp_reissues (s : State) (c : Nat) (f : Dispatcher → Dispatcher) : (updDisp s c f).reissues = s.reissues := rfl
@[simp] theorem updDisp_hasps (s : State) (c : Nat) (f : Dispatcher → Dispatcher) : (updDisp s c f).hasps = s.hasps := rfl
@[simp] theorem updDisp_waiting (s : State) (c : Nat) (f : Dispatcher → Dispatcher) : (updDisp s c f).waiting = s.waiting := rfl
@[simp] theorem updDisp_routes (s : State) (c : Nat) (f : Dispatcher → Dispatcher) : (updDisp s c f).routes = s.routes := rfl
@[simp] theorem updDisp_shapes (s : State) (c : Nat) (f : Dispatcher → Dispatcher) : (updDisp s c f).shapes = s.shapes := rfl
@[simp] theorem updDisp_tumblers (s : State) (c : Nat) (f : Dispatcher → Dispatcher) : (updDisp s c f).tumblers = s.tumblers := rfl
@[simp] theorem updDisp_mwords (s : State) (c : Nat) (f : Dispatcher → Dispatcher) : (updDisp s c f).mwords = s.mwords := rfl
@[simp] theorem updDisp_mtags (s : State) (c : Nat) (f : Dispatcher → Dispatcher) : (updDisp s c f).mtags = s.mtags := rfl
@[simp] theorem updDisp_mdirs (s : State) (c : Nat) (f : Dispatcher → Dispatcher) : (updDisp s c f).mdirs = s.mdirs := rfl
@[simp] theorem updDisp_pages (s : State) (c : Nat) (f : Dispatcher → Dispatcher) : (updDisp s c f).pages = s.pages := rfl
@[simp] theorem updDisp_ptw (s : State) (c : Nat) (f : Dispatcher → Dispatcher) : (updDisp s c f).ptw = s.ptw := rfl
@[simp] theorem updDisp_tlb (s : State) (c : Nat) (f : Dispatcher → Dispatcher) : (updDisp s c f).tlb = s.tlb := rfl
@[simp] theorem updDisp_l2 (s : State) (c : Nat) (f : Dispatcher → Dispatcher) : (updDisp s c f).l2 = s.l2 := rfl
@[simp] theorem updDisp_l2Dirty (s : State) (c : Nat) (f : Dispatcher → Dispatcher) : (updDisp s c f).l2Dirty = s.l2Dirty := rfl
@[simp] theorem updDisp_packets (s : State) (c : Nat) (f : Dispatcher → Dispatcher) : (updDisp s c f).packets = s.packets := rfl
@[simp] theorem updDisp_maps (s : State) (c : Nat) (f : Dispatcher → Dispatcher) : (updDisp s c f).maps = s.maps := rfl
@[simp] theorem updDisp_softs (s : State) (c : Nat) (f : Dispatcher → Dispatcher) : (updDisp s c f).softs = s.softs := rfl
@[simp] theorem updDisp_degraded (s : State) (c : Nat) (f : Dispatcher → Dispatcher) : (updDisp s c f).degraded = s.degraded := rfl
@[simp] theorem updDisp_mod (s : State) (c : Nat) (f : Dispatcher → Dispatcher) : (updDisp s c f).mod = s.mod := rfl
@[simp] theorem core_updDisp (s : State) (c : Nat) (f : Dispatcher → Dispatcher) (i : Nat) : coreAt (updDisp s c f) i = coreAt s i := rfl
@[simp] theorem ctx_updDisp (s : State) (c : Nat) (f : Dispatcher → Dispatcher) (i : Nat) : ctx (updDisp s c f) i = ctx s i := rfl
@[simp] theorem trec_updDisp (s : State) (c : Nat) (f : Dispatcher → Dispatcher) (i : Nat) : trec (updDisp s c f) i = trec s i := rfl
@[simp] theorem launchOf_updDisp (s : State) (c : Nat) (f : Dispatcher → Dispatcher) (i : Nat) : launchOf (updDisp s c f) i = launchOf s i := rfl
@[simp] theorem hasp_updDisp (s : State) (c : Nat) (f : Dispatcher → Dispatcher) (i : Nat) : hasp (updDisp s c f) i = hasp s i := rfl

/-! ### Reads after an update -/

@[simp] theorem core_updCore (s : State) (c : Nat) (f : Core → Core) (i : Nat) :
    coreAt (updCore s c f) i = if i = c then f (coreAt s c) else coreAt s i := Tab.get_upd _ _ _ _ _
@[simp] theorem core_updBody (s : State) (c : Nat) (f : Body → Body) (i : Nat) :
    coreAt (updBody s c f) i = if i = c then { coreAt s c with b := f (coreAt s c).b } else coreAt s i := core_updCore _ _ _ _
@[simp] theorem core_updRegs (s : State) (c : Nat) (f : Regs → Regs) (i : Nat) :
    coreAt (updRegs s c f) i = if i = c then { coreAt s c with b := { (coreAt s c).b with r := f (coreAt s c).b.r } } else coreAt s i :=
  core_updBody _ _ _ _
@[simp] theorem core_setTok (s : State) (c t : Nat) (f : TokenRec → TokenRec) (i : Nat) :
    coreAt (setTok s c t f) i =
      if i = c then { coreAt s c with b := { (coreAt s c).b with r := { (coreAt s c).b.r with toks := (coreAt s c).b.r.toks.upd .free t f } } } else coreAt s i :=
  core_updRegs _ _ _ _
@[simp] theorem ctx_updCtx (s : State) (c : Nat) (f : Ctx → Ctx) (i : Nat) :
    ctx (updCtx s c f) i = if i = c then f (ctx s c) else ctx s i := Tab.get_upd _ _ _ _ _
@[simp] theorem trec_updRec (s : State) (h : Nat) (f : TRec → TRec) (i : Nat) :
    trec (updRec s h f) i = if i = h then f (trec s h) else trec s i := Tab.get_upd _ _ _ _ _
@[simp] theorem launchOf_updLaunch (s : State) (l : Nat) (f : Launch → Launch) (i : Nat) :
    launchOf (updLaunch s l f) i = if i = l then f (launchOf s l) else launchOf s i := Tab.get_upd _ _ _ _ _
@[simp] theorem hasp_updHasp (s : State) (d : Nat) (f : Hasp → Hasp) (i : Nat) :
    hasp (updHasp s d f) i = if i = d then f (hasp s d) else hasp s i := Tab.get_upd _ _ _ _ _
@[simp] theorem disp_updDisp (s : State) (c : Nat) (f : Dispatcher → Dispatcher) (i : Nat) :
    disp (updDisp s c f) i = if i = c then f (disp s c) else disp s i := Tab.get_upd _ _ _ _ _
@[simp] theorem partOf_updPart (s : State) (p : Nat) (f : Part → Part) (i : Nat) :
    partOf (updPart s p f) i = if i = p then f (partOf s p) else partOf s i := Tab.get_upd _ _ _ _ _
@[simp] theorem core_updPart (s : State) (p : Nat) (f : Part → Part) (i : Nat) : coreAt (updPart s p f) i = coreAt s i := rfl
@[simp] theorem mem_updPart (s : State) (p : Nat) (f : Part → Part) : (updPart s p f).mem = s.mem := rfl

end Sys2Proof.Machine
end

