-- ==== Sys2Proof/Laws/Issue.lean ====
section
/-!
SUPPORT. Sys2Proof/Laws/Issue.lean: what a bundle of one slot does when nothing stops its operation.
-/

namespace Sys2Proof.Machine

open Sys2Proof.Safety

/-- An operation of any slot but CTL that stops on no issuer takes effect on each in turn, and a property it keeps holds of the
result. -/
theorem evalSlots_ok (P : State → Prop) (g : List Nat) (pos : Nat) (hp : pos ≠ 0) (f : Eff) (k : Nat → State → State → State) (o : State)
    (hu : P o) (hf : ∀ q ∈ g, ∀ t, P t → f q o t = .ok (k q o t) ∧ P (k q o t)) :
    evalSlots g [(pos, f)] o = (g.foldl (fun t q => k q o t) o, []) ∧ P (g.foldl (fun t q => k q o t) o) := by
  have key : ∀ (h' : Option Nat) (l : List Nat) (u : State), P u → (∀ q ∈ l, ∀ t, P t → f q o t = .ok (k q o t) ∧ P (k q o t)) →
      l.foldl (fun acc q => [(pos, f)].foldl (fun acc x =>
        if x.1 = 0 ∧ h' ≠ some q then acc
        else match x.2 q o acc.1 with
          | .ok s => (s, acc.2)
          | .error e => (acc.1, acc.2 ++ [(q, x.1, e)])) acc) (u, ([] : List (Nat × Nat × Stop))) =
        (l.foldl (fun t q => k q o t) u, []) ∧ P (l.foldl (fun t q => k q o t) u) := by
    intro h' l
    induction l with
    | nil => intro u hu _; exact ⟨rfl, hu⟩
    | cons q l ih =>
      intro u hu hf
      obtain ⟨h1, h2⟩ := hf q (by simp) u hu
      have := ih (k q o u) h2 (fun q hq => hf q (by simp [hq]))
      simpa [hp, h1] using this
  exact key g.head? g o hu hf

/-- An operation of any slot but CTL, alone in its bundle, that stops on no issuer. `P` is kept by the operation and says that no
issuer has met a detected error. -/
theorem runSlot_next (P : State → Prop) {s : State} (h : Ready s) {pos : Nat} (hp : pos ≠ 0) {f : Eff} {k : Nat → State → State → State}
    (h0 : P (settled s)) (hf : ∀ q ∈ issuers s, ∀ t, P t → f q (settled s) t = .ok (k q (settled s) t) ∧ P (k q (settled s) t))
    (hd : ∀ t, P t → ∀ q ∈ issuers s, (coreAt t q).b.detected = none) :
    runSlot pos f s = .next (issued k s) := by
  obtain ⟨h1, h2, h3, -⟩ := h
  have he := evalSlots_ok P (issuers s) pos hp f k (settled s) h0 hf
  have hr : (issuers s).find? (fun q => repeatsPoison (coreAt ((issuers s).foldl (fun t q => k q (settled s) t) (settled s)) q).b) = none := by
    rw [List.find?_eq_none]
    intro q hq
    simp [repeatsPoison, hd _ he.2 q hq]
  have h3' : ((coreAt s (lead s)).b.hdrCkpt && !(coreAt s (lead s)).b.ckptDone) = false := by
    cases hc : (coreAt s (lead s)).b.hdrCkpt <;> simp_all
  simp only [runSlot, issueSlots, h1, Bool.not_true, Bool.false_eq_true, if_false]
  simp only [issuers] at h2 he hr
  simp only [lead, issuers] at h3'
  rw [h2]
  simp only [settled, issuers] at he hr
  rw [he.1]
  simp only [firstFault, firstPause, h3', hr]
  simp [issued, slotDone, issuers, settled]

/-- The leading core comes first among the issuers, and once. -/
theorem issuers_eq (s : State) : ∃ l, issuers s = lead s :: l ∧ lead s ∉ l := by
  unfold lead issuers groupOf
  by_cases h : isGroup s s.curCore = true
  · refine ⟨[clusterCore (coreCluster s.curCore) 1, clusterCore (coreCluster s.curCore) 2, clusterCore (coreCluster s.curCore) 3], ?_, ?_⟩
    · simp [h, clusterCores, List.range_succ]
    · simp [h, clusterCores, List.range_succ, clusterCore]
  · exact ⟨[], by simp [h], by simp⟩

/-- The leading core is an issuer. -/
theorem lead_mem (s : State) : lead s ∈ issuers s := by
  obtain ⟨l, h, -⟩ := issuers_eq s
  simp [h]

/-- A CTL operation is evaluated on the leading core alone. -/
theorem evalSlots_lead {s : State} (f : Eff) (o : State) :
    evalSlots (issuers s) [(0, f)] o =
      (match f (lead s) o o with | .ok u => (u, []) | .error e => (o, [(lead s, 0, e)])) := by
  obtain ⟨l, h, hn⟩ := issuers_eq s
  have rest : ∀ (m : List Nat), lead s ∉ m → ∀ r : State × List (Nat × Nat × Stop),
      m.foldl (fun acc q => [(0, f)].foldl (fun acc x =>
        if x.1 = 0 ∧ some (lead s) ≠ some q then acc
        else match x.2 q o acc.1 with
          | .ok s => (s, acc.2)
          | .error e => (acc.1, acc.2 ++ [(q, x.1, e)])) acc) r = r := by
    intro m
    induction m with
    | nil => intro _ r; rfl
    | cons q m ih =>
      intro hq r
      simp only [List.mem_cons, not_or] at hq
      simpa [hq.1] using ih hq.2 r
  rw [h]
  have hl := rest l hn
  unfold evalSlots
  rw [List.foldl_cons]
  refine (hl _).trans ?_
  cases hc : f (lead s) o o <;> simp [hc]

/-- A CTL operation alone in its bundle that does not stop. -/
theorem runSlot_lead {s : State} (h : Ready s) {f : Eff} {k : Nat → State → State → State}
    (hf : f (lead s) (settled s) (settled s) = .ok (k (lead s) (settled s) (settled s)))
    (hd : ∀ q ∈ issuers s, (coreAt (k (lead s) (settled s) (settled s)) q).b.detected = none) :
    runSlot 0 f s = .next (issuedLead k s) := by
  obtain ⟨h1, h2, h3, -⟩ := h
  have he := evalSlots_lead (s := s) f (settled s)
  rw [hf] at he
  have hr : (issuers s).find? (fun q => repeatsPoison (coreAt (k (lead s) (settled s) (settled s)) q).b) = none := by
    rw [List.find?_eq_none]
    intro q hq
    simp [repeatsPoison, hd q hq]
  have h3' : ((coreAt s (lead s)).b.hdrCkpt && !(coreAt s (lead s)).b.ckptDone) = false := by
    cases hc : (coreAt s (lead s)).b.hdrCkpt <;> simp_all
  simp only [runSlot, issueSlots, h1, Bool.not_true, Bool.false_eq_true, if_false]
  simp only [issuers] at h2 he hr
  simp only [lead, issuers] at h3'
  rw [h2]
  simp only [settled, issuers] at he hr
  rw [he]
  simp only [firstFault, firstPause, h3', hr]
  simp [issuedLead, issuers, settled]

/-- A fault of a CTL operation that no token reports is taken by the group, at the bundle that raised it (R244). -/
theorem runSlot_lead_fault {s : State} (h : Ready s) {f : Eff} {code : BitVec 8} {a : Word}
    (hf : f (lead s) (settled s) (settled s) = .error (.fault code a none)) :
    runSlot 0 f s = .next (takeFault (issuers s) (faultHere s (lead s) code 0 none a) s) := by
  obtain ⟨h1, h2, -, -⟩ := h
  have he := evalSlots_lead (s := s) f (settled s)
  rw [hf] at he
  simp only [runSlot, issueSlots, h1, Bool.not_true, Bool.false_eq_true, if_false]
  simp only [issuers] at h2 he
  rw [h2]
  simp only [settled, issuers] at he
  rw [he]
  simp [firstFault, lead, issuers]

/-- A CTL operation that pauses holds the group at its bundle (R279). -/
theorem runSlot_lead_pause {s : State} (h : Ready s) {f : Eff} {cause : Nat}
    (hf : f (lead s) (settled s) (settled s) = .error (.pause cause none)) :
    runSlot 0 f s = .next (setPause (issuers s) cause s) := by
  obtain ⟨h1, h2, h3, -⟩ := h
  have he := evalSlots_lead (s := s) f (settled s)
  rw [hf] at he
  have h3' : ((coreAt s (lead s)).b.hdrCkpt && !(coreAt s (lead s)).b.ckptDone) = false := by
    cases hc : (coreAt s (lead s)).b.hdrCkpt <;> simp_all
  simp only [runSlot, issueSlots, h1, Bool.not_true, Bool.false_eq_true, if_false]
  simp only [issuers] at h2 he
  simp only [lead, issuers] at h3'
  rw [h2]
  simp only [settled, issuers] at he
  rw [he]
  simp only [firstFault, firstPause, h3']
  simp [issuers, wake]

/-- A slot instruction of any slot but CTL that stops on no issuer and meets no error issues. -/
theorem issues_ok {s : State} (h : Ready s) {i : Instr} {pos : Nat} {f : Eff} {k : Nat → State → State → State}
    (hi : exec i s = runSlot pos f s) (hp : pos ≠ 0)
    (hf : ∀ q ∈ issuers s, ∀ t, f q (settled s) t = .ok (k q (settled s) t))
    (hk : ∀ q t c, (coreAt (k q (settled s) t) c).b.detected = (coreAt t c).b.detected) :
    exec i s = .next (issued k s) := by
  rw [hi]
  refine runSlot_next (fun t => ∀ q ∈ issuers s, (coreAt t q).b.detected = none) h hp h.2.2.2 ?_ (fun t ht => ht)
  intro q hq t ht
  exact ⟨hf q hq t, fun c hc => by rw [hk]; exact ht c hc⟩

@[simp] theorem detected_result (c : Nat) (d : Dst) (x : BitVec 1024) (lat : Nat) (s : State) (q : Nat) :
    (coreAt (result c d x lat s) q).b.detected = (coreAt s q).b.detected := by
  simp only [result, core_updRegs]
  split <;> simp_all

@[simp] theorem detected_resultS (c n : Nat) (x : Word) (lat : Nat) (s : State) (q : Nat) :
    (coreAt (resultS c n x lat s) q).b.detected = (coreAt s q).b.detected := detected_result _ _ _ _ _ _

@[simp] theorem detected_resultV (c n : Nat) (x : Vec) (lat : Nat) (s : State) (q : Nat) :
    (coreAt (resultV c n x lat s) q).b.detected = (coreAt s q).b.detected := detected_result _ _ _ _ _ _

@[simp] theorem detected_resultK (c n : Nat) (x : Mask) (lat : Nat) (s : State) (q : Nat) :
    (coreAt (resultK c n x lat s) q).b.detected = (coreAt s q).b.detected := detected_result _ _ _ _ _ _

@[simp] theorem detected_setFlags (c n : Nat) (s : State) (q : Nat) :
    (coreAt (setFlags c n s) q).b.detected = (coreAt s q).b.detected := by
  simp only [setFlags, core_updBody]
  split <;> simp_all

@[simp] theorem detected_addNan (c n : Nat) (s : State) (q : Nat) :
    (coreAt (addNan c n s) q).b.detected = (coreAt s q).b.detected := by
  simp only [addNan, core_updBody]
  split <;> simp_all

@[simp] theorem detected_mapLanes (c : Nat) (o s : State) (d : Nat) (k : BitVec 4) (e : Fmt) (lat : Nat) (f : Nat → Rnd) (q : Nat) :
    (coreAt (mapLanes c o s d k e lat f) q).b.detected = (coreAt s q).b.detected := by
  simp [mapLanes]

@[simp] theorem detected_mapExact (c : Nat) (o s : State) (d : Nat) (k : BitVec 4) (e : Fmt) (lat : Nat) (f : Nat → Nat) (q : Nat) :
    (coreAt (mapExact c o s d k e lat f) q).b.detected = (coreAt s q).b.detected := detected_mapLanes _ _ _ _ _ _ _ _ _

/-- With no error armed a read meets none (R458). -/
theorem injected_none {s : State} (h : NoInjection s) (src r : Nat) (pc : Word) (l : Loc) (n : Nat) : injected src r pc l n s = s := by
  unfold injected
  split
  · rfl
  · rename_i q _ _
    have hq := h q
    dsimp only
    rw [if_neg]
    intro hc
    simp only [Bool.and_eq_true, hq] at hc
    simp at hc

/-- Changing cores one after another leaves what no core holds. -/
theorem onCores_keep {α : Type} (p : State → α) (f : Nat → Core → Core) (hp : ∀ s q g, p (updCore s q g) = p s) (l : List Nat) (s : State) :
    p (onCores (fun q s => updCore s q (f q)) l s) = p s := by
  induction l generalizing s with
  | nil => rfl
  | cons q l ih => exact (ih _).trans (hp _ _ _)

@[simp] theorem settled_mod (s : State) : (settled s).mod = s.mod := onCores_keep (·.mod) _ (fun _ _ _ => rfl) _ _
@[simp] theorem settled_mem (s : State) : (settled s).mem = s.mem := onCores_keep (·.mem) _ (fun _ _ _ => rfl) _ _
@[simp] theorem settled_clk (s : State) : (settled s).clk = s.clk := onCores_keep (·.clk) _ (fun _ _ _ => rfl) _ _
@[simp] theorem settled_poison (s : State) : (settled s).poison = s.poison := onCores_keep (·.poison) _ (fun _ _ _ => rfl) _ _
@[simp] theorem settled_packets (s : State) : (settled s).packets = s.packets := onCores_keep (·.packets) _ (fun _ _ _ => rfl) _ _

/-- Errors are armed by the module alone. -/
theorem noInjection_settled {s : State} (h : NoInjection s) : NoInjection (settled s) := by
  intro q; rw [settled_mod]; exact h q

/-- A slot instruction of any slot but CTL that stops on no issuer, where its operation needs a property of the states it passes through. -/
theorem issues_under {s : State} (h : Ready s) {i : Instr} {pos : Nat} {f : Eff} {k : Nat → State → State → State} (P : State → Prop)
    (hi : exec i s = runSlot pos f s) (hp : pos ≠ 0) (h0 : P (settled s))
    (hf : ∀ q ∈ issuers s, ∀ t, P t → f q (settled s) t = .ok (k q (settled s) t) ∧ P (k q (settled s) t))
    (hk : ∀ q t c, (coreAt (k q (settled s) t) c).b.detected = (coreAt t c).b.detected) :
    exec i s = .next (issued k s) := by
  rw [hi]
  refine runSlot_next (fun t => P t ∧ ∀ q ∈ issuers s, (coreAt t q).b.detected = none) h hp ⟨h0, h.2.2.2⟩ ?_ (fun t ht => ht.2)
  intro q hq t ht
  exact ⟨(hf q hq t ht.1).1, (hf q hq t ht.1).2, fun c hc => by rw [hk]; exact ht.2 c hc⟩

/-- An instruction whose operation gives one scalar result. -/
theorem givesS_of {s : State} (h : Ready s) {i : Instr} {pos : Nat} {f : Eff} {d : BitVec 6} {lat : Nat} {v : Nat → State → Word}
    (hi : exec i s = runSlot pos f s) (hp : pos ≠ 0)
    (hf : ∀ q ∈ issuers s, ∀ t, f q (settled s) t = .ok (resultS q d.toNat (v q (settled s)) lat t)) : GivesS i s d lat v :=
  issues_ok h hi hp hf (fun _ _ _ => detected_resultS _ _ _ _ _ _)

/-- An instruction whose operation gives one vector result. -/
theorem givesV_of {s : State} (h : Ready s) {i : Instr} {pos : Nat} {f : Eff} {d : BitVec 6} {lat : Nat} {v : Nat → State → Vec}
    (hi : exec i s = runSlot pos f s) (hp : pos ≠ 0)
    (hf : ∀ q ∈ issuers s, ∀ t, f q (settled s) t = .ok (resultV q d.toNat (v q (settled s)) lat t)) : GivesV i s d lat v :=
  issues_ok h hi hp hf (fun _ _ _ => detected_resultV _ _ _ _ _ _)

/-- An instruction whose operation gives one mask result. -/
theorem givesK_of {s : State} (h : Ready s) {i : Instr} {pos : Nat} {f : Eff} {d : BitVec 4} {lat : Nat} {v : Nat → State → Mask}
    (hi : exec i s = runSlot pos f s) (hp : pos ≠ 0)
    (hf : ∀ q ∈ issuers s, ∀ t, f q (settled s) t = .ok (resultK q d.toNat (v q (settled s)) lat t)) : GivesK i s d lat v :=
  issues_ok h hi hp hf (fun _ _ _ => detected_resultK _ _ _ _ _ _)

/-- An instruction whose operation gives one result. -/
theorem gives_of {s : State} (h : Ready s) {i : Instr} {pos : Nat} {f : Eff} {dst : Dst} {lat : Nat} {v : Nat → State → BitVec 1024}
    (hi : exec i s = runSlot pos f s) (hp : pos ≠ 0)
    (hf : ∀ q ∈ issuers s, ∀ t, f q (settled s) t = .ok (result q dst (v q (settled s)) lat t)) : Gives i s dst lat v :=
  issues_ok h hi hp hf (fun _ _ _ => detected_result _ _ _ _ _ _)

/-- An instruction whose operation gives the active lanes of a vector. -/
theorem givesLanes_of {s : State} (h : Ready s) {i : Instr} {pos : Nat} {f : Eff} {d : BitVec 6} {k : BitVec 4} {e : Fmt} {lat : Nat}
    {v : Nat → State → Nat → Rnd} (hi : exec i s = runSlot pos f s) (hp : pos ≠ 0)
    (hf : ∀ q ∈ issuers s, ∀ t, f q (settled s) t = .ok (mapLanes q (settled s) t d.toNat k e lat (v q (settled s)))) :
    GivesLanes i s d k e lat v :=
  issues_ok h hi hp hf (fun _ _ _ => detected_mapLanes _ _ _ _ _ _ _ _ _)

/-- An instruction whose operation gives the active lanes of a vector exactly. -/
theorem givesExact_of {s : State} (h : Ready s) {i : Instr} {pos : Nat} {f : Eff} {d : BitVec 6} {k : BitVec 4} {e : Fmt} {lat : Nat}
    {v : Nat → State → Nat → Nat} (hi : exec i s = runSlot pos f s) (hp : pos ≠ 0)
    (hf : ∀ q ∈ issuers s, ∀ t, f q (settled s) t = .ok (mapExact q (settled s) t d.toNat k e lat (v q (settled s)))) :
    GivesExact i s d k e lat v :=
  issues_ok h hi hp hf (fun _ _ _ => detected_mapExact _ _ _ _ _ _ _ _ _)

end Sys2Proof.Machine
end

