-- ==== Sys2Proof/Laws/PerInstr.lean ====
section
/-!
SUPPORT. Sys2Proof/Laws/PerInstr.lean: one lemma for each constructor of Instr: no instruction has words in two of the maps of the
slots, the microcode and the stream code.
-/

namespace Sys2Proof.Laws

/-- At most one of the nine encoders has words for an instruction, and an event of the machine has words in none. -/
def EncodedOnce.Statement (i : Instr) : Prop :=
  ([(encodeCtl i).isSome, (encodeS i).isSome, (encodeLs i).isSome, (encodeV i).isSome, (encodeSf i).isSome, (encodeMx i).isSome,
    (encodeXf i).isSome, (encodeMicro i).isSome, (encodeStream i).isSome].filter id).length ≤ 1

theorem EncodedOnce.br (a0 : BitVec 26) : EncodedOnce.Statement (.br a0) := Nat.le_of_ble_eq_true rfl
theorem EncodedOnce.brz (a0 : BitVec 6) (a1 : BitVec 20) : EncodedOnce.Statement (.brz a0 a1) := Nat.le_of_ble_eq_true rfl
theorem EncodedOnce.brnz (a0 : BitVec 6) (a1 : BitVec 20) : EncodedOnce.Statement (.brnz a0 a1) := Nat.le_of_ble_eq_true rfl
theorem EncodedOnce.loop (a0 : BitVec 1) (a1 : BitVec 12) (a2 : BitVec 12) : EncodedOnce.Statement (.loop a0 a1 a2) := Nat.le_of_ble_eq_true rfl
theorem EncodedOnce.loopReg (a0 : BitVec 1) (a1 : BitVec 6) (a2 : BitVec 12) : EncodedOnce.Statement (.loopReg a0 a1 a2) := Nat.le_of_ble_eq_true rfl
theorem EncodedOnce.call (a0 : BitVec 6) (a1 : BitVec 20) : EncodedOnce.Statement (.call a0 a1) := Nat.le_of_ble_eq_true rfl
theorem EncodedOnce.callr (a0 : BitVec 6) (a1 : BitVec 6) : EncodedOnce.Statement (.callr a0 a1) := Nat.le_of_ble_eq_true rfl
theorem EncodedOnce.ret (a0 : BitVec 6) : EncodedOnce.Statement (.ret a0) := Nat.le_of_ble_eq_true rfl
theorem EncodedOnce.trap (a0 : BitVec 20) : EncodedOnce.Statement (.trap a0) := Nat.le_of_ble_eq_true rfl
theorem EncodedOnce.waitt (a0 : BitVec 6) (a1 : BitVec 6) (a2 : BitVec 6) : EncodedOnce.Statement (.waitt a0 a1 a2) := Nat.le_of_ble_eq_true rfl
theorem EncodedOnce.waitg (a0 : BitVec 6) (a1 : BitVec 6) : EncodedOnce.Statement (.waitg a0 a1) := Nat.le_of_ble_eq_true rfl
theorem EncodedOnce.drain (a0 : BitVec 3) : EncodedOnce.Statement (.drain a0) := Nat.le_of_ble_eq_true rfl
theorem EncodedOnce.fenceT (a0 : BitVec 3) : EncodedOnce.Statement (.fenceT a0) := Nat.le_of_ble_eq_true rfl
theorem EncodedOnce.segchk (a0 : BitVec 12) : EncodedOnce.Statement (.segchk a0) := Nat.le_of_ble_eq_true rfl
theorem EncodedOnce.sysr (a0 : BitVec 6) (a1 : BitVec 12) : EncodedOnce.Statement (.sysr a0 a1) := Nat.le_of_ble_eq_true rfl
theorem EncodedOnce.sysw (a0 : BitVec 6) (a1 : BitVec 12) : EncodedOnce.Statement (.sysw a0 a1) := Nat.le_of_ble_eq_true rfl
theorem EncodedOnce.shapepub (a0 : BitVec 6) (a1 : BitVec 10) : EncodedOnce.Statement (.shapepub a0 a1) := Nat.le_of_ble_eq_true rfl
theorem EncodedOnce.shapepubClr (a0 : BitVec 10) : EncodedOnce.Statement (.shapepubClr a0) := Nat.le_of_ble_eq_true rfl
theorem EncodedOnce.ctlHint (a0 : BitVec 2) (a1 : BitVec 26) : EncodedOnce.Statement (.ctlHint a0 a1) := Nat.le_of_ble_eq_true rfl
theorem EncodedOnce.add (a0 : BitVec 6) (a1 : BitVec 6) (a2 : BitVec 6) : EncodedOnce.Statement (.add a0 a1 a2) := Nat.le_of_ble_eq_true rfl
theorem EncodedOnce.sub (a0 : BitVec 6) (a1 : BitVec 6) (a2 : BitVec 6) : EncodedOnce.Statement (.sub a0 a1 a2) := Nat.le_of_ble_eq_true rfl
theorem EncodedOnce.and_ (a0 : BitVec 6) (a1 : BitVec 6) (a2 : BitVec 6) : EncodedOnce.Statement (.and_ a0 a1 a2) := Nat.le_of_ble_eq_true rfl
theorem EncodedOnce.or_ (a0 : BitVec 6) (a1 : BitVec 6) (a2 : BitVec 6) : EncodedOnce.Statement (.or_ a0 a1 a2) := Nat.le_of_ble_eq_true rfl
theorem EncodedOnce.xor_ (a0 : BitVec 6) (a1 : BitVec 6) (a2 : BitVec 6) : EncodedOnce.Statement (.xor_ a0 a1 a2) := Nat.le_of_ble_eq_true rfl
theorem EncodedOnce.shl (a0 : BitVec 6) (a1 : BitVec 6) (a2 : BitVec 6) : EncodedOnce.Statement (.shl a0 a1 a2) := Nat.le_of_ble_eq_true rfl
theorem EncodedOnce.shr (a0 : BitVec 6) (a1 : BitVec 6) (a2 : BitVec 6) : EncodedOnce.Statement (.shr a0 a1 a2) := Nat.le_of_ble_eq_true rfl
theorem EncodedOnce.sar (a0 : BitVec 6) (a1 : BitVec 6) (a2 : BitVec 6) : EncodedOnce.Statement (.sar a0 a1 a2) := Nat.le_of_ble_eq_true rfl
theorem EncodedOnce.slt (a0 : BitVec 6) (a1 : BitVec 6) (a2 : BitVec 6) : EncodedOnce.Statement (.slt a0 a1 a2) := Nat.le_of_ble_eq_true rfl
theorem EncodedOnce.sltu (a0 : BitVec 6) (a1 : BitVec 6) (a2 : BitVec 6) : EncodedOnce.Statement (.sltu a0 a1 a2) := Nat.le_of_ble_eq_true rfl
theorem EncodedOnce.seq (a0 : BitVec 6) (a1 : BitVec 6) (a2 : BitVec 6) : EncodedOnce.Statement (.seq a0 a1 a2) := Nat.le_of_ble_eq_true rfl
theorem EncodedOnce.min (a0 : BitVec 6) (a1 : BitVec 6) (a2 : BitVec 6) : EncodedOnce.Statement (.min a0 a1 a2) := Nat.le_of_ble_eq_true rfl
theorem EncodedOnce.max (a0 : BitVec 6) (a1 : BitVec 6) (a2 : BitVec 6) : EncodedOnce.Statement (.max a0 a1 a2) := Nat.le_of_ble_eq_true rfl
theorem EncodedOnce.minu (a0 : BitVec 6) (a1 : BitVec 6) (a2 : BitVec 6) : EncodedOnce.Statement (.minu a0 a1 a2) := Nat.le_of_ble_eq_true rfl
theorem EncodedOnce.maxu (a0 : BitVec 6) (a1 : BitVec 6) (a2 : BitVec 6) : EncodedOnce.Statement (.maxu a0 a1 a2) := Nat.le_of_ble_eq_true rfl
theorem EncodedOnce.mul (a0 : BitVec 6) (a1 : BitVec 6) (a2 : BitVec 6) : EncodedOnce.Statement (.mul a0 a1 a2) := Nat.le_of_ble_eq_true rfl
theorem EncodedOnce.mulh (a0 : BitVec 6) (a1 : BitVec 6) (a2 : BitVec 6) : EncodedOnce.Statement (.mulh a0 a1 a2) := Nat.le_of_ble_eq_true rfl
theorem EncodedOnce.mulhu (a0 : BitVec 6) (a1 : BitVec 6) (a2 : BitVec 6) : EncodedOnce.Statement (.mulhu a0 a1 a2) := Nat.le_of_ble_eq_true rfl
theorem EncodedOnce.clmul (a0 : BitVec 6) (a1 : BitVec 6) (a2 : BitVec 6) : EncodedOnce.Statement (.clmul a0 a1 a2) := Nat.le_of_ble_eq_true rfl
theorem EncodedOnce.clmulh (a0 : BitVec 6) (a1 : BitVec 6) (a2 : BitVec 6) : EncodedOnce.Statement (.clmulh a0 a1 a2) := Nat.le_of_ble_eq_true rfl
theorem EncodedOnce.sel (a0 : BitVec 6) (a1 : BitVec 6) (a2 : BitVec 6) (a3 : BitVec 6) : EncodedOnce.Statement (.sel a0 a1 a2 a3) := Nat.le_of_ble_eq_true rfl
theorem EncodedOnce.movi (a0 : BitVec 6) (a1 : BitVec 20) : EncodedOnce.Statement (.movi a0 a1) := Nat.le_of_ble_eq_true rfl
theorem EncodedOnce.movhi (a0 : BitVec 6) (a1 : BitVec 2) (a2 : BitVec 16) : EncodedOnce.Statement (.movhi a0 a1 a2) := Nat.le_of_ble_eq_true rfl
theorem EncodedOnce.clz (a0 : BitVec 6) (a1 : BitVec 6) : EncodedOnce.Statement (.clz a0 a1) := Nat.le_of_ble_eq_true rfl
theorem EncodedOnce.ctz (a0 : BitVec 6) (a1 : BitVec 6) : EncodedOnce.Statement (.ctz a0 a1) := Nat.le_of_ble_eq_true rfl
theorem EncodedOnce.popc (a0 : BitVec 6) (a1 : BitVec 6) : EncodedOnce.Statement (.popc a0 a1) := Nat.le_of_ble_eq_true rfl
theorem EncodedOnce.sptest (a0 : BitVec 6) (a1 : BitVec 6) : EncodedOnce.Statement (.sptest a0 a1) := Nat.le_of_ble_eq_true rfl
theorem EncodedOnce.spcastSp (a0 : BitVec 6) (a1 : BitVec 6) : EncodedOnce.Statement (.spcastSp a0 a1) := Nat.le_of_ble_eq_true rfl
theorem EncodedOnce.spcastCl (a0 : BitVec 6) (a1 : BitVec 6) : EncodedOnce.Statement (.spcastCl a0 a1) := Nat.le_of_ble_eq_true rfl
theorem EncodedOnce.gptr (a0 : BitVec 6) (a1 : BitVec 6) (a2 : BitVec 6) : EncodedOnce.Statement (.gptr a0 a1 a2) := Nat.le_of_ble_eq_true rfl
theorem EncodedOnce.gptrH (a0 : BitVec 6) (a1 : BitVec 6) (a2 : BitVec 6) : EncodedOnce.Statement (.gptrH a0 a1 a2) := Nat.le_of_ble_eq_true rfl
theorem EncodedOnce.padd (a0 : BitVec 6) (a1 : BitVec 6) (a2 : BitVec 6) : EncodedOnce.Statement (.padd a0 a1 a2) := Nat.le_of_ble_eq_true rfl
theorem EncodedOnce.stg (a0 : BitVec 3) (a1 : BitVec 3) (a2 : BitVec 6) : EncodedOnce.Statement (.stg a0 a1 a2) := Nat.le_of_ble_eq_true rfl
theorem EncodedOnce.shf (a0 : BitVec 3) (a1 : BitVec 3) (a2 : BitVec 6) : EncodedOnce.Statement (.shf a0 a1 a2) := Nat.le_of_ble_eq_true rfl
theorem EncodedOnce.mpw (a0 : BitVec 3) (a1 : BitVec 3) (a2 : BitVec 6) : EncodedOnce.Statement (.mpw a0 a1 a2) := Nat.le_of_ble_eq_true rfl
theorem EncodedOnce.addi (a0 : BitVec 6) (a1 : BitVec 6) (a2 : BitVec 14) : EncodedOnce.Statement (.addi a0 a1 a2) := Nat.le_of_ble_eq_true rfl
theorem EncodedOnce.andi (a0 : BitVec 6) (a1 : BitVec 6) (a2 : BitVec 14) : EncodedOnce.Statement (.andi a0 a1 a2) := Nat.le_of_ble_eq_true rfl
theorem EncodedOnce.ori (a0 : BitVec 6) (a1 : BitVec 6) (a2 : BitVec 14) : EncodedOnce.Statement (.ori a0 a1 a2) := Nat.le_of_ble_eq_true rfl
theorem EncodedOnce.xori (a0 : BitVec 6) (a1 : BitVec 6) (a2 : BitVec 14) : EncodedOnce.Statement (.xori a0 a1 a2) := Nat.le_of_ble_eq_true rfl
theorem EncodedOnce.shli (a0 : BitVec 6) (a1 : BitVec 6) (a2 : BitVec 6) : EncodedOnce.Statement (.shli a0 a1 a2) := Nat.le_of_ble_eq_true rfl
theorem EncodedOnce.shri (a0 : BitVec 6) (a1 : BitVec 6) (a2 : BitVec 6) : EncodedOnce.Statement (.shri a0 a1 a2) := Nat.le_of_ble_eq_true rfl
theorem EncodedOnce.sari (a0 : BitVec 6) (a1 : BitVec 6) (a2 : BitVec 6) : EncodedOnce.Statement (.sari a0 a1 a2) := Nat.le_of_ble_eq_true rfl
theorem EncodedOnce.slti (a0 : BitVec 6) (a1 : BitVec 6) (a2 : BitVec 14) : EncodedOnce.Statement (.slti a0 a1 a2) := Nat.le_of_ble_eq_true rfl
theorem EncodedOnce.sltui (a0 : BitVec 6) (a1 : BitVec 6) (a2 : BitVec 14) : EncodedOnce.Statement (.sltui a0 a1 a2) := Nat.le_of_ble_eq_true rfl
theorem EncodedOnce.seqi (a0 : BitVec 6) (a1 : BitVec 6) (a2 : BitVec 14) : EncodedOnce.Statement (.seqi a0 a1 a2) := Nat.le_of_ble_eq_true rfl
theorem EncodedOnce.sHint (a0 : BitVec 2) (a1 : BitVec 26) : EncodedOnce.Statement (.sHint a0 a1) := Nat.le_of_ble_eq_true rfl
theorem EncodedOnce.ld (a0 : BitVec 6) (a1 : BitVec 6) (a2 : BitVec 2) (a3 : BitVec 1) (a4 : BitVec 11) : EncodedOnce.Statement (.ld a0 a1 a2 a3 a4) := Nat.le_of_ble_eq_true rfl
theorem EncodedOnce.st (a0 : BitVec 6) (a1 : BitVec 6) (a2 : BitVec 2) (a3 : BitVec 11) : EncodedOnce.Statement (.st a0 a1 a2 a3) := Nat.le_of_ble_eq_true rfl
theorem EncodedOnce.vld (a0 : BitVec 6) (a1 : BitVec 6) (a2 : BitVec 10) : EncodedOnce.Statement (.vld a0 a1 a2) := Nat.le_of_ble_eq_true rfl
theorem EncodedOnce.vst (a0 : BitVec 6) (a1 : BitVec 6) (a2 : BitVec 4) (a3 : BitVec 10) : EncodedOnce.Statement (.vst a0 a1 a2 a3) := Nat.le_of_ble_eq_true rfl
theorem EncodedOnce.vlds (a0 : BitVec 6) (a1 : BitVec 6) (a2 : BitVec 6) (a3 : BitVec 4) (a4 : Fmt) : EncodedOnce.Statement (.vlds a0 a1 a2 a3 a4) := Nat.le_of_ble_eq_true rfl
theorem EncodedOnce.vsts (a0 : BitVec 6) (a1 : BitVec 6) (a2 : BitVec 6) (a3 : BitVec 4) (a4 : Fmt) : EncodedOnce.Statement (.vsts a0 a1 a2 a3 a4) := Nat.le_of_ble_eq_true rfl
theorem EncodedOnce.vldx (a0 : BitVec 6) (a1 : BitVec 6) (a2 : BitVec 6) (a3 : BitVec 4) (a4 : Fmt) : EncodedOnce.Statement (.vldx a0 a1 a2 a3 a4) := Nat.le_of_ble_eq_true rfl
theorem EncodedOnce.vstx (a0 : BitVec 6) (a1 : BitVec 6) (a2 : BitVec 6) (a3 : BitVec 4) (a4 : Fmt) : EncodedOnce.Statement (.vstx a0 a1 a2 a3 a4) := Nat.le_of_ble_eq_true rfl
theorem EncodedOnce.ldl (a0 : BitVec 6) (a1 : BitVec 6) (a2 : BitVec 2) (a3 : BitVec 12) : EncodedOnce.Statement (.ldl a0 a1 a2 a3) := Nat.le_of_ble_eq_true rfl
theorem EncodedOnce.amoAdd (a0 : BitVec 6) (a1 : BitVec 6) (a2 : BitVec 1) (a3 : BitVec 9) : EncodedOnce.Statement (.amoAdd a0 a1 a2 a3) := Nat.le_of_ble_eq_true rfl
theorem EncodedOnce.amoAnd (a0 : BitVec 6) (a1 : BitVec 6) (a2 : BitVec 1) (a3 : BitVec 9) : EncodedOnce.Statement (.amoAnd a0 a1 a2 a3) := Nat.le_of_ble_eq_true rfl
theorem EncodedOnce.amoOr (a0 : BitVec 6) (a1 : BitVec 6) (a2 : BitVec 1) (a3 : BitVec 9) : EncodedOnce.Statement (.amoOr a0 a1 a2 a3) := Nat.le_of_ble_eq_true rfl
theorem EncodedOnce.amoXor (a0 : BitVec 6) (a1 : BitVec 6) (a2 : BitVec 1) (a3 : BitVec 9) : EncodedOnce.Statement (.amoXor a0 a1 a2 a3) := Nat.le_of_ble_eq_true rfl
theorem EncodedOnce.amoMin (a0 : BitVec 6) (a1 : BitVec 6) (a2 : BitVec 1) (a3 : BitVec 9) : EncodedOnce.Statement (.amoMin a0 a1 a2 a3) := Nat.le_of_ble_eq_true rfl
theorem EncodedOnce.amoMax (a0 : BitVec 6) (a1 : BitVec 6) (a2 : BitVec 1) (a3 : BitVec 9) : EncodedOnce.Statement (.amoMax a0 a1 a2 a3) := Nat.le_of_ble_eq_true rfl
theorem EncodedOnce.amoMinu (a0 : BitVec 6) (a1 : BitVec 6) (a2 : BitVec 1) (a3 : BitVec 9) : EncodedOnce.Statement (.amoMinu a0 a1 a2 a3) := Nat.le_of_ble_eq_true rfl
theorem EncodedOnce.amoMaxu (a0 : BitVec 6) (a1 : BitVec 6) (a2 : BitVec 1) (a3 : BitVec 9) : EncodedOnce.Statement (.amoMaxu a0 a1 a2 a3) := Nat.le_of_ble_eq_true rfl
theorem EncodedOnce.amoSwap (a0 : BitVec 6) (a1 : BitVec 6) (a2 : BitVec 1) (a3 : BitVec 9) : EncodedOnce.Statement (.amoSwap a0 a1 a2 a3) := Nat.le_of_ble_eq_true rfl
theorem EncodedOnce.amoFadd (a0 : BitVec 6) (a1 : BitVec 6) (a2 : BitVec 9) : EncodedOnce.Statement (.amoFadd a0 a1 a2) := Nat.le_of_ble_eq_true rfl
theorem EncodedOnce.cas (a0 : BitVec 6) (a1 : BitVec 6) (a2 : BitVec 1) (a3 : BitVec 12) : EncodedOnce.Statement (.cas a0 a1 a2 a3) := Nat.le_of_ble_eq_true rfl
theorem EncodedOnce.redAdd (a0 : BitVec 6) (a1 : BitVec 6) (a2 : BitVec 1) : EncodedOnce.Statement (.redAdd a0 a1 a2) := Nat.le_of_ble_eq_true rfl
theorem EncodedOnce.redAnd (a0 : BitVec 6) (a1 : BitVec 6) (a2 : BitVec 1) : EncodedOnce.Statement (.redAnd a0 a1 a2) := Nat.le_of_ble_eq_true rfl
theorem EncodedOnce.redOr (a0 : BitVec 6) (a1 : BitVec 6) (a2 : BitVec 1) : EncodedOnce.Statement (.redOr a0 a1 a2) := Nat.le_of_ble_eq_true rfl
theorem EncodedOnce.redXor (a0 : BitVec 6) (a1 : BitVec 6) (a2 : BitVec 1) : EncodedOnce.Statement (.redXor a0 a1 a2) := Nat.le_of_ble_eq_true rfl
theorem EncodedOnce.redMin (a0 : BitVec 6) (a1 : BitVec 6) (a2 : BitVec 1) : EncodedOnce.Statement (.redMin a0 a1 a2) := Nat.le_of_ble_eq_true rfl
theorem EncodedOnce.redMax (a0 : BitVec 6) (a1 : BitVec 6) (a2 : BitVec 1) : EncodedOnce.Statement (.redMax a0 a1 a2) := Nat.le_of_ble_eq_true rfl
theorem EncodedOnce.redMinu (a0 : BitVec 6) (a1 : BitVec 6) (a2 : BitVec 1) : EncodedOnce.Statement (.redMinu a0 a1 a2) := Nat.le_of_ble_eq_true rfl
theorem EncodedOnce.redMaxu (a0 : BitVec 6) (a1 : BitVec 6) (a2 : BitVec 1) : EncodedOnce.Statement (.redMaxu a0 a1 a2) := Nat.le_of_ble_eq_true rfl
theorem EncodedOnce.redFadd (a0 : BitVec 6) (a1 : BitVec 6) : EncodedOnce.Statement (.redFadd a0 a1) := Nat.le_of_ble_eq_true rfl
theorem EncodedOnce.ldAcq (a0 : BitVec 6) (a1 : BitVec 6) (a2 : BitVec 1) (a3 : BitVec 3) : EncodedOnce.Statement (.ldAcq a0 a1 a2 a3) := Nat.le_of_ble_eq_true rfl
theorem EncodedOnce.stRel (a0 : BitVec 6) (a1 : BitVec 6) (a2 : BitVec 1) (a3 : BitVec 3) : EncodedOnce.Statement (.stRel a0 a1 a2 a3) := Nat.le_of_ble_eq_true rfl
theorem EncodedOnce.hingeRel (a0 : BitVec 6) (a1 : BitVec 6) (a2 : BitVec 6) : EncodedOnce.Statement (.hingeRel a0 a1 a2) := Nat.le_of_ble_eq_true rfl
theorem EncodedOnce.hingeAcq (a0 : BitVec 6) (a1 : BitVec 6) (a2 : BitVec 6) : EncodedOnce.Statement (.hingeAcq a0 a1 a2) := Nat.le_of_ble_eq_true rfl
theorem EncodedOnce.bgive (a0 : BitVec 2) (a1 : BitVec 4) (a2 : BitVec 2) : EncodedOnce.Statement (.bgive a0 a1 a2) := Nat.le_of_ble_eq_true rfl
theorem EncodedOnce.syncarm (a0 : BitVec 6) (a1 : BitVec 6) : EncodedOnce.Statement (.syncarm a0 a1) := Nat.le_of_ble_eq_true rfl
theorem EncodedOnce.spill (a0 : BitVec 6) (a1 : BitVec 1) (a2 : BitVec 10) : EncodedOnce.Statement (.spill a0 a1 a2) := Nat.le_of_ble_eq_true rfl
theorem EncodedOnce.fill (a0 : BitVec 6) (a1 : BitVec 1) (a2 : BitVec 10) : EncodedOnce.Statement (.fill a0 a1 a2) := Nat.le_of_ble_eq_true rfl
theorem EncodedOnce.pref (a0 : BitVec 6) (a1 : BitVec 4) : EncodedOnce.Statement (.pref a0 a1) := Nat.le_of_ble_eq_true rfl
theorem EncodedOnce.lsHint (a0 : BitVec 2) (a1 : BitVec 26) : EncodedOnce.Statement (.lsHint a0 a1) := Nat.le_of_ble_eq_true rfl
theorem EncodedOnce.vadd (a0 : BitVec 6) (a1 : BitVec 6) (a2 : BitVec 6) (a3 : BitVec 4) (a4 : Fmt) : EncodedOnce.Statement (.vadd a0 a1 a2 a3 a4) := Nat.le_of_ble_eq_true rfl
theorem EncodedOnce.vsub (a0 : BitVec 6) (a1 : BitVec 6) (a2 : BitVec 6) (a3 : BitVec 4) (a4 : Fmt) : EncodedOnce.Statement (.vsub a0 a1 a2 a3 a4) := Nat.le_of_ble_eq_true rfl
theorem EncodedOnce.vmul (a0 : BitVec 6) (a1 : BitVec 6) (a2 : BitVec 6) (a3 : BitVec 4) (a4 : Fmt) : EncodedOnce.Statement (.vmul a0 a1 a2 a3 a4) := Nat.le_of_ble_eq_true rfl
theorem EncodedOnce.vmulh (a0 : BitVec 6) (a1 : BitVec 6) (a2 : BitVec 6) (a3 : BitVec 4) (a4 : Fmt) : EncodedOnce.Statement (.vmulh a0 a1 a2 a3 a4) := Nat.le_of_ble_eq_true rfl
theorem EncodedOnce.vmin (a0 : BitVec 6) (a1 : BitVec 6) (a2 : BitVec 6) (a3 : BitVec 4) (a4 : Fmt) : EncodedOnce.Statement (.vmin a0 a1 a2 a3 a4) := Nat.le_of_ble_eq_true rfl
theorem EncodedOnce.vmax (a0 : BitVec 6) (a1 : BitVec 6) (a2 : BitVec 6) (a3 : BitVec 4) (a4 : Fmt) : EncodedOnce.Statement (.vmax a0 a1 a2 a3 a4) := Nat.le_of_ble_eq_true rfl
theorem EncodedOnce.vabs (a0 : BitVec 6) (a1 : BitVec 6) (a2 : BitVec 4) (a3 : Fmt) : EncodedOnce.Statement (.vabs a0 a1 a2 a3) := Nat.le_of_ble_eq_true rfl
theorem EncodedOnce.vand (a0 : BitVec 6) (a1 : BitVec 6) (a2 : BitVec 6) (a3 : BitVec 4) (a4 : Fmt) : EncodedOnce.Statement (.vand a0 a1 a2 a3 a4) := Nat.le_of_ble_eq_true rfl
theorem EncodedOnce.vor (a0 : BitVec 6) (a1 : BitVec 6) (a2 : BitVec 6) (a3 : BitVec 4) (a4 : Fmt) : EncodedOnce.Statement (.vor a0 a1 a2 a3 a4) := Nat.le_of_ble_eq_true rfl
theorem EncodedOnce.vxor (a0 : BitVec 6) (a1 : BitVec 6) (a2 : BitVec 6) (a3 : BitVec 4) (a4 : Fmt) : EncodedOnce.Statement (.vxor a0 a1 a2 a3 a4) := Nat.le_of_ble_eq_true rfl
theorem EncodedOnce.vandn (a0 : BitVec 6) (a1 : BitVec 6) (a2 : BitVec 6) (a3 : BitVec 4) (a4 : Fmt) : EncodedOnce.Statement (.vandn a0 a1 a2 a3 a4) := Nat.le_of_ble_eq_true rfl
theorem EncodedOnce.vshl (a0 : BitVec 6) (a1 : BitVec 6) (a2 : BitVec 6) (a3 : BitVec 4) (a4 : Fmt) : EncodedOnce.Statement (.vshl a0 a1 a2 a3 a4) := Nat.le_of_ble_eq_true rfl
theorem EncodedOnce.vshr (a0 : BitVec 6) (a1 : BitVec 6) (a2 : BitVec 6) (a3 : BitVec 4) (a4 : Fmt) : EncodedOnce.Statement (.vshr a0 a1 a2 a3 a4) := Nat.le_of_ble_eq_true rfl
theorem EncodedOnce.vsar (a0 : BitVec 6) (a1 : BitVec 6) (a2 : BitVec 6) (a3 : BitVec 4) (a4 : Fmt) : EncodedOnce.Statement (.vsar a0 a1 a2 a3 a4) := Nat.le_of_ble_eq_true rfl
theorem EncodedOnce.vadds (a0 : BitVec 6) (a1 : BitVec 6) (a2 : BitVec 6) (a3 : BitVec 4) (a4 : Fmt) : EncodedOnce.Statement (.vadds a0 a1 a2 a3 a4) := Nat.le_of_ble_eq_true rfl
theorem EncodedOnce.vsubs (a0 : BitVec 6) (a1 : BitVec 6) (a2 : BitVec 6) (a3 : BitVec 4) (a4 : Fmt) : EncodedOnce.Statement (.vsubs a0 a1 a2 a3 a4) := Nat.le_of_ble_eq_true rfl
theorem EncodedOnce.vcmpeq (a0 : BitVec 4) (a1 : BitVec 6) (a2 : BitVec 6) (a3 : BitVec 4) (a4 : Fmt) : EncodedOnce.Statement (.vcmpeq a0 a1 a2 a3 a4) := Nat.le_of_ble_eq_true rfl
theorem EncodedOnce.vcmpne (a0 : BitVec 4) (a1 : BitVec 6) (a2 : BitVec 6) (a3 : BitVec 4) (a4 : Fmt) : EncodedOnce.Statement (.vcmpne a0 a1 a2 a3 a4) := Nat.le_of_ble_eq_true rfl
theorem EncodedOnce.vcmplt (a0 : BitVec 4) (a1 : BitVec 6) (a2 : BitVec 6) (a3 : BitVec 4) (a4 : Fmt) : EncodedOnce.Statement (.vcmplt a0 a1 a2 a3 a4) := Nat.le_of_ble_eq_true rfl
theorem EncodedOnce.vcmple (a0 : BitVec 4) (a1 : BitVec 6) (a2 : BitVec 6) (a3 : BitVec 4) (a4 : Fmt) : EncodedOnce.Statement (.vcmple a0 a1 a2 a3 a4) := Nat.le_of_ble_eq_true rfl
theorem EncodedOnce.vsel (a0 : BitVec 6) (a1 : BitVec 6) (a2 : BitVec 6) (a3 : BitVec 4) (a4 : Fmt) : EncodedOnce.Statement (.vsel a0 a1 a2 a3 a4) := Nat.le_of_ble_eq_true rfl
theorem EncodedOnce.vbcast (a0 : BitVec 6) (a1 : BitVec 6) (a2 : BitVec 4) (a3 : Fmt) : EncodedOnce.Statement (.vbcast a0 a1 a2 a3) := Nat.le_of_ble_eq_true rfl
theorem EncodedOnce.vextr (a0 : BitVec 6) (a1 : BitVec 6) (a2 : BitVec 6) (a3 : Fmt) : EncodedOnce.Statement (.vextr a0 a1 a2 a3) := Nat.le_of_ble_eq_true rfl
theorem EncodedOnce.vinsr (a0 : BitVec 6) (a1 : BitVec 6) (a2 : BitVec 6) (a3 : Fmt) : EncodedOnce.Statement (.vinsr a0 a1 a2 a3) := Nat.le_of_ble_eq_true rfl
theorem EncodedOnce.vclmulLo (a0 : BitVec 6) (a1 : BitVec 6) (a2 : BitVec 6) (a3 : BitVec 4) (a4 : Fmt) : EncodedOnce.Statement (.vclmulLo a0 a1 a2 a3 a4) := Nat.le_of_ble_eq_true rfl
theorem EncodedOnce.vclmulHi (a0 : BitVec 6) (a1 : BitVec 6) (a2 : BitVec 6) (a3 : BitVec 4) (a4 : Fmt) : EncodedOnce.Statement (.vclmulHi a0 a1 a2 a3 a4) := Nat.le_of_ble_eq_true rfl
theorem EncodedOnce.vscanAdd (a0 : BitVec 6) (a1 : BitVec 6) (a2 : BitVec 4) (a3 : Fmt) : EncodedOnce.Statement (.vscanAdd a0 a1 a2 a3) := Nat.le_of_ble_eq_true rfl
theorem EncodedOnce.vscanMin (a0 : BitVec 6) (a1 : BitVec 6) (a2 : BitVec 4) (a3 : Fmt) : EncodedOnce.Statement (.vscanMin a0 a1 a2 a3) := Nat.le_of_ble_eq_true rfl
theorem EncodedOnce.vscanMax (a0 : BitVec 6) (a1 : BitVec 6) (a2 : BitVec 4) (a3 : Fmt) : EncodedOnce.Statement (.vscanMax a0 a1 a2 a3) := Nat.le_of_ble_eq_true rfl
theorem EncodedOnce.vscanXor (a0 : BitVec 6) (a1 : BitVec 6) (a2 : BitVec 4) (a3 : Fmt) : EncodedOnce.Statement (.vscanXor a0 a1 a2 a3) := Nat.le_of_ble_eq_true rfl
theorem EncodedOnce.vscanAnd (a0 : BitVec 6) (a1 : BitVec 6) (a2 : BitVec 4) (a3 : Fmt) : EncodedOnce.Statement (.vscanAnd a0 a1 a2 a3) := Nat.le_of_ble_eq_true rfl
theorem EncodedOnce.vscanOr (a0 : BitVec 6) (a1 : BitVec 6) (a2 : BitVec 4) (a3 : Fmt) : EncodedOnce.Statement (.vscanOr a0 a1 a2 a3) := Nat.le_of_ble_eq_true rfl
theorem EncodedOnce.vreduceAdd (a0 : BitVec 6) (a1 : BitVec 6) (a2 : BitVec 4) (a3 : Fmt) : EncodedOnce.Statement (.vreduceAdd a0 a1 a2 a3) := Nat.le_of_ble_eq_true rfl
theorem EncodedOnce.vreduceMin (a0 : BitVec 6) (a1 : BitVec 6) (a2 : BitVec 4) (a3 : Fmt) : EncodedOnce.Statement (.vreduceMin a0 a1 a2 a3) := Nat.le_of_ble_eq_true rfl
theorem EncodedOnce.vreduceMax (a0 : BitVec 6) (a1 : BitVec 6) (a2 : BitVec 4) (a3 : Fmt) : EncodedOnce.Statement (.vreduceMax a0 a1 a2 a3) := Nat.le_of_ble_eq_true rfl
theorem EncodedOnce.vreduceXor (a0 : BitVec 6) (a1 : BitVec 6) (a2 : BitVec 4) (a3 : Fmt) : EncodedOnce.Statement (.vreduceXor a0 a1 a2 a3) := Nat.le_of_ble_eq_true rfl
theorem EncodedOnce.vreduceAnd (a0 : BitVec 6) (a1 : BitVec 6) (a2 : BitVec 4) (a3 : Fmt) : EncodedOnce.Statement (.vreduceAnd a0 a1 a2 a3) := Nat.le_of_ble_eq_true rfl
theorem EncodedOnce.vreduceOr (a0 : BitVec 6) (a1 : BitVec 6) (a2 : BitVec 4) (a3 : Fmt) : EncodedOnce.Statement (.vreduceOr a0 a1 a2 a3) := Nat.le_of_ble_eq_true rfl
theorem EncodedOnce.vperm (a0 : BitVec 6) (a1 : BitVec 6) (a2 : BitVec 6) (a3 : BitVec 4) (a4 : Fmt) : EncodedOnce.Statement (.vperm a0 a1 a2 a3 a4) := Nat.le_of_ble_eq_true rfl
theorem EncodedOnce.vcompress (a0 : BitVec 6) (a1 : BitVec 6) (a2 : BitVec 4) (a3 : Fmt) : EncodedOnce.Statement (.vcompress a0 a1 a2 a3) := Nat.le_of_ble_eq_true rfl
theorem EncodedOnce.vexpand (a0 : BitVec 6) (a1 : BitVec 6) (a2 : BitVec 4) (a3 : Fmt) : EncodedOnce.Statement (.vexpand a0 a1 a2 a3) := Nat.le_of_ble_eq_true rfl
theorem EncodedOnce.vmergeLo (a0 : BitVec 6) (a1 : BitVec 6) (a2 : BitVec 6) (a3 : BitVec 2) (a4 : Fmt) : EncodedOnce.Statement (.vmergeLo a0 a1 a2 a3 a4) := Nat.le_of_ble_eq_true rfl
theorem EncodedOnce.vmergeHi (a0 : BitVec 6) (a1 : BitVec 6) (a2 : BitVec 6) (a3 : BitVec 2) (a4 : Fmt) : EncodedOnce.Statement (.vmergeHi a0 a1 a2 a3 a4) := Nat.le_of_ble_eq_true rfl
theorem EncodedOnce.vmergekv (a0 : BitVec 6) (a1 : BitVec 6) (a2 : BitVec 6) (a3 : BitVec 2) (a4 : Fmt) : EncodedOnce.Statement (.vmergekv a0 a1 a2 a3 a4) := Nat.le_of_ble_eq_true rfl
theorem EncodedOnce.vfadd (a0 : BitVec 6) (a1 : BitVec 6) (a2 : BitVec 6) (a3 : BitVec 4) (a4 : Fmt) : EncodedOnce.Statement (.vfadd a0 a1 a2 a3 a4) := Nat.le_of_ble_eq_true rfl
theorem EncodedOnce.vfsub (a0 : BitVec 6) (a1 : BitVec 6) (a2 : BitVec 6) (a3 : BitVec 4) (a4 : Fmt) : EncodedOnce.Statement (.vfsub a0 a1 a2 a3 a4) := Nat.le_of_ble_eq_true rfl
theorem EncodedOnce.vfmul (a0 : BitVec 6) (a1 : BitVec 6) (a2 : BitVec 6) (a3 : BitVec 4) (a4 : Fmt) : EncodedOnce.Statement (.vfmul a0 a1 a2 a3 a4) := Nat.le_of_ble_eq_true rfl
theorem EncodedOnce.vfma (a0 : BitVec 6) (a1 : BitVec 6) (a2 : BitVec 6) (a3 : BitVec 4) (a4 : Fmt) : EncodedOnce.Statement (.vfma a0 a1 a2 a3 a4) := Nat.le_of_ble_eq_true rfl
theorem EncodedOnce.vfmin (a0 : BitVec 6) (a1 : BitVec 6) (a2 : BitVec 6) (a3 : BitVec 4) (a4 : Fmt) : EncodedOnce.Statement (.vfmin a0 a1 a2 a3 a4) := Nat.le_of_ble_eq_true rfl
theorem EncodedOnce.vfmax (a0 : BitVec 6) (a1 : BitVec 6) (a2 : BitVec 6) (a3 : BitVec 4) (a4 : Fmt) : EncodedOnce.Statement (.vfmax a0 a1 a2 a3 a4) := Nat.le_of_ble_eq_true rfl
theorem EncodedOnce.vcvt (a0 : BitVec 6) (a1 : BitVec 6) (a2 : Fmt) (a3 : BitVec 2) (a4 : BitVec 3) (a5 : BitVec 1) (a6 : Fmt) : EncodedOnce.Statement (.vcvt a0 a1 a2 a3 a4 a5 a6) := Nat.le_of_ble_eq_true rfl
theorem EncodedOnce.vamax (a0 : BitVec 6) (a1 : BitVec 6) (a2 : BitVec 6) (a3 : BitVec 4) (a4 : Fmt) : EncodedOnce.Statement (.vamax a0 a1 a2 a3 a4) := Nat.le_of_ble_eq_true rfl
theorem EncodedOnce.vbqpack (a0 : BitVec 6) (a1 : BitVec 6) (a2 : BitVec 3) (a3 : BitVec 6) (a4 : Fmt) : EncodedOnce.Statement (.vbqpack a0 a1 a2 a3 a4) := Nat.le_of_ble_eq_true rfl
theorem EncodedOnce.vbqunpk (a0 : BitVec 6) (a1 : BitVec 6) (a2 : BitVec 3) (a3 : BitVec 6) (a4 : Fmt) : EncodedOnce.Statement (.vbqunpk a0 a1 a2 a3 a4) := Nat.le_of_ble_eq_true rfl
theorem EncodedOnce.kand (a0 : BitVec 4) (a1 : BitVec 4) (a2 : BitVec 4) : EncodedOnce.Statement (.kand a0 a1 a2) := Nat.le_of_ble_eq_true rfl
theorem EncodedOnce.kor (a0 : BitVec 4) (a1 : BitVec 4) (a2 : BitVec 4) : EncodedOnce.Statement (.kor a0 a1 a2) := Nat.le_of_ble_eq_true rfl
theorem EncodedOnce.kxor (a0 : BitVec 4) (a1 : BitVec 4) (a2 : BitVec 4) : EncodedOnce.Statement (.kxor a0 a1 a2) := Nat.le_of_ble_eq_true rfl
theorem EncodedOnce.knot (a0 : BitVec 4) (a1 : BitVec 4) : EncodedOnce.Statement (.knot a0 a1) := Nat.le_of_ble_eq_true rfl
theorem EncodedOnce.kpop (a0 : BitVec 6) (a1 : BitVec 4) (a2 : Fmt) : EncodedOnce.Statement (.kpop a0 a1 a2) := Nat.le_of_ble_eq_true rfl
theorem EncodedOnce.kset (a0 : BitVec 4) (a1 : BitVec 6) (a2 : BitVec 6) : EncodedOnce.Statement (.kset a0 a1 a2) := Nat.le_of_ble_eq_true rfl
theorem EncodedOnce.vmov (a0 : BitVec 6) (a1 : BitVec 6) (a2 : BitVec 4) (a3 : Fmt) : EncodedOnce.Statement (.vmov a0 a1 a2 a3) := Nat.le_of_ble_eq_true rfl
theorem EncodedOnce.vmovFromMg (a0 : BitVec 6) (a1 : BitVec 2) : EncodedOnce.Statement (.vmovFromMg a0 a1) := Nat.le_of_ble_eq_true rfl
theorem EncodedOnce.vmovToMg (a0 : BitVec 2) (a1 : BitVec 6) : EncodedOnce.Statement (.vmovToMg a0 a1) := Nat.le_of_ble_eq_true rfl
theorem EncodedOnce.vmovMaskLo (a0 : BitVec 6) (a1 : BitVec 4) : EncodedOnce.Statement (.vmovMaskLo a0 a1) := Nat.le_of_ble_eq_true rfl
theorem EncodedOnce.vmovMaskHi (a0 : BitVec 6) (a1 : BitVec 4) : EncodedOnce.Statement (.vmovMaskHi a0 a1) := Nat.le_of_ble_eq_true rfl
theorem EncodedOnce.vHint (a0 : BitVec 2) (a1 : BitVec 26) : EncodedOnce.Statement (.vHint a0 a1) := Nat.le_of_ble_eq_true rfl
theorem EncodedOnce.fexp2 (a0 : BitVec 6) (a1 : BitVec 6) (a2 : BitVec 4) (a3 : Fmt) : EncodedOnce.Statement (.fexp2 a0 a1 a2 a3) := Nat.le_of_ble_eq_true rfl
theorem EncodedOnce.flog2 (a0 : BitVec 6) (a1 : BitVec 6) (a2 : BitVec 4) (a3 : Fmt) : EncodedOnce.Statement (.flog2 a0 a1 a2 a3) := Nat.le_of_ble_eq_true rfl
theorem EncodedOnce.frcp (a0 : BitVec 6) (a1 : BitVec 6) (a2 : BitVec 4) (a3 : Fmt) : EncodedOnce.Statement (.frcp a0 a1 a2 a3) := Nat.le_of_ble_eq_true rfl
theorem EncodedOnce.frsq (a0 : BitVec 6) (a1 : BitVec 6) (a2 : BitVec 4) (a3 : Fmt) : EncodedOnce.Statement (.frsq a0 a1 a2 a3) := Nat.le_of_ble_eq_true rfl
theorem EncodedOnce.fsqrt (a0 : BitVec 6) (a1 : BitVec 6) (a2 : BitVec 4) (a3 : Fmt) : EncodedOnce.Statement (.fsqrt a0 a1 a2 a3) := Nat.le_of_ble_eq_true rfl
theorem EncodedOnce.frsqe (a0 : BitVec 6) (a1 : BitVec 6) (a2 : BitVec 6) (a3 : BitVec 4) : EncodedOnce.Statement (.frsqe a0 a1 a2 a3) := Nat.le_of_ble_eq_true rfl
theorem EncodedOnce.ftanh (a0 : BitVec 6) (a1 : BitVec 6) (a2 : BitVec 4) (a3 : Fmt) : EncodedOnce.Statement (.ftanh a0 a1 a2 a3) := Nat.le_of_ble_eq_true rfl
theorem EncodedOnce.fsig (a0 : BitVec 6) (a1 : BitVec 6) (a2 : BitVec 4) (a3 : Fmt) : EncodedOnce.Statement (.fsig a0 a1 a2 a3) := Nat.le_of_ble_eq_true rfl
theorem EncodedOnce.ferf (a0 : BitVec 6) (a1 : BitVec 6) (a2 : BitVec 4) (a3 : Fmt) : EncodedOnce.Statement (.ferf a0 a1 a2 a3) := Nat.le_of_ble_eq_true rfl
theorem EncodedOnce.scalegen (a0 : BitVec 3) (a1 : BitVec 6) (a2 : BitVec 1) (a3 : BitVec 4) (a4 : Fmt) : EncodedOnce.Statement (.scalegen a0 a1 a2 a3 a4) := Nat.le_of_ble_eq_true rfl
theorem EncodedOnce.scld (a0 : BitVec 3) (a1 : BitVec 6) (a2 : BitVec 10) : EncodedOnce.Statement (.scld a0 a1 a2) := Nat.le_of_ble_eq_true rfl
theorem EncodedOnce.tbld (a0 : BitVec 1) (a1 : BitVec 6) : EncodedOnce.Statement (.tbld a0 a1) := Nat.le_of_ble_eq_true rfl
theorem EncodedOnce.sfHint (a0 : BitVec 2) (a1 : BitVec 26) : EncodedOnce.Statement (.sfHint a0 a1) := Nat.le_of_ble_eq_true rfl
theorem EncodedOnce.mxcall (a0 : BitVec 6) (a1 : BitVec 6) (a2 : BitVec 6) (a3 : Fmt) (a4 : BitVec 1) : EncodedOnce.Statement (.mxcall a0 a1 a2 a3 a4) := Nat.le_of_ble_eq_true rfl
theorem EncodedOnce.mxjoin (a0 : BitVec 6) (a1 : BitVec 6) (a2 : BitVec 6) (a3 : BitVec 1) : EncodedOnce.Statement (.mxjoin a0 a1 a2 a3) := Nat.le_of_ble_eq_true rfl
theorem EncodedOnce.mxpart (a0 : BitVec 6) (a1 : BitVec 6) (a2 : BitVec 6) (a3 : BitVec 1) : EncodedOnce.Statement (.mxpart a0 a1 a2 a3) := Nat.le_of_ble_eq_true rfl
theorem EncodedOnce.mxnorm (a0 : BitVec 6) (a1 : BitVec 6) (a2 : BitVec 6) (a3 : BitVec 1) : EncodedOnce.Statement (.mxnorm a0 a1 a2 a3) := Nat.le_of_ble_eq_true rfl
theorem EncodedOnce.mxzero (a0 : BitVec 6) (a1 : BitVec 6) (a2 : BitVec 6) (a3 : BitVec 1) : EncodedOnce.Statement (.mxzero a0 a1 a2 a3) := Nat.le_of_ble_eq_true rfl
theorem EncodedOnce.mxrda (a0 : BitVec 6) (a1 : BitVec 6) (a2 : BitVec 6) (a3 : Fmt) (a4 : BitVec 1) : EncodedOnce.Statement (.mxrda a0 a1 a2 a3 a4) := Nat.le_of_ble_eq_true rfl
theorem EncodedOnce.mxwra (a0 : BitVec 6) (a1 : BitVec 6) (a2 : BitVec 6) (a3 : Fmt) (a4 : BitVec 1) : EncodedOnce.Statement (.mxwra a0 a1 a2 a3 a4) := Nat.le_of_ble_eq_true rfl
theorem EncodedOnce.mxwb (a0 : BitVec 6) (a1 : BitVec 6) (a2 : BitVec 6) (a3 : Fmt) (a4 : BitVec 1) : EncodedOnce.Statement (.mxwb a0 a1 a2 a3 a4) := Nat.le_of_ble_eq_true rfl
theorem EncodedOnce.mxucw (a0 : BitVec 6) (a1 : BitVec 6) (a2 : BitVec 6) (a3 : BitVec 1) : EncodedOnce.Statement (.mxucw a0 a1 a2 a3) := Nat.le_of_ble_eq_true rfl
theorem EncodedOnce.mxHint (a0 : BitVec 2) (a1 : BitVec 26) : EncodedOnce.Statement (.mxHint a0 a1) := Nat.le_of_ble_eq_true rfl
theorem EncodedOnce.xcopy (a0 : BitVec 6) (a1 : BitVec 6) (a2 : BitVec 6) (a3 : BitVec 6) (a4 : BitVec 1) : EncodedOnce.Statement (.xcopy a0 a1 a2 a3 a4) := Nat.le_of_ble_eq_true rfl
theorem EncodedOnce.xstore (a0 : BitVec 6) (a1 : BitVec 6) (a2 : BitVec 6) (a3 : BitVec 6) (a4 : BitVec 1) : EncodedOnce.Statement (.xstore a0 a1 a2 a3 a4) := Nat.le_of_ble_eq_true rfl
theorem EncodedOnce.xweight (a0 : BitVec 6) (a1 : BitVec 6) (a2 : BitVec 6) (a3 : BitVec 6) (a4 : BitVec 1) : EncodedOnce.Statement (.xweight a0 a1 a2 a3 a4) := Nat.le_of_ble_eq_true rfl
theorem EncodedOnce.xtrans (a0 : BitVec 6) (a1 : BitVec 6) (a2 : BitVec 6) (a3 : BitVec 6) (a4 : BitVec 1) : EncodedOnce.Statement (.xtrans a0 a1 a2 a3 a4) := Nat.le_of_ble_eq_true rfl
theorem EncodedOnce.xgather (a0 : BitVec 6) (a1 : BitVec 6) (a2 : BitVec 6) (a3 : BitVec 6) (a4 : BitVec 1) : EncodedOnce.Statement (.xgather a0 a1 a2 a3 a4) := Nat.le_of_ble_eq_true rfl
theorem EncodedOnce.xkv (a0 : BitVec 6) (a1 : BitVec 6) (a2 : BitVec 6) (a3 : BitVec 6) (a4 : BitVec 1) : EncodedOnce.Statement (.xkv a0 a1 a2 a3 a4) := Nat.le_of_ble_eq_true rfl
theorem EncodedOnce.xsend (a0 : BitVec 6) (a1 : BitVec 6) (a2 : BitVec 6) (a3 : BitVec 6) (a4 : BitVec 1) : EncodedOnce.Statement (.xsend a0 a1 a2 a3 a4) := Nat.le_of_ble_eq_true rfl
theorem EncodedOnce.xred (a0 : BitVec 6) (a1 : BitVec 6) (a2 : BitVec 6) (a3 : BitVec 6) (a4 : BitVec 1) : EncodedOnce.Statement (.xred a0 a1 a2 a3 a4) := Nat.le_of_ble_eq_true rfl
theorem EncodedOnce.xdecomp (a0 : BitVec 6) (a1 : BitVec 6) (a2 : BitVec 6) (a3 : BitVec 6) (a4 : BitVec 1) : EncodedOnce.Statement (.xdecomp a0 a1 a2 a3 a4) := Nat.le_of_ble_eq_true rfl
theorem EncodedOnce.xfill (a0 : BitVec 6) (a1 : BitVec 6) (a2 : BitVec 6) (a3 : BitVec 6) (a4 : BitVec 1) : EncodedOnce.Statement (.xfill a0 a1 a2 a3 a4) := Nat.le_of_ble_eq_true rfl
theorem EncodedOnce.xcancel (a0 : BitVec 6) (a1 : BitVec 6) (a2 : BitVec 6) (a3 : BitVec 6) (a4 : BitVec 1) : EncodedOnce.Statement (.xcancel a0 a1 a2 a3 a4) := Nat.le_of_ble_eq_true rfl
theorem EncodedOnce.xfHint (a0 : BitVec 2) (a1 : BitVec 26) : EncodedOnce.Statement (.xfHint a0 a1) := Nat.le_of_ble_eq_true rfl
theorem EncodedOnce.mloada (a0 : BitVec 3) (a1 : BitVec 1) (a2 : BitVec 1) : EncodedOnce.Statement (.mloada a0 a1 a2) := Nat.le_of_ble_eq_true rfl
theorem EncodedOnce.mloadb (a0 : BitVec 3) (a1 : BitVec 1) : EncodedOnce.Statement (.mloadb a0 a1) := Nat.le_of_ble_eq_true rfl
theorem EncodedOnce.mscale (a0 : BitVec 3) (a1 : BitVec 3) : EncodedOnce.Statement (.mscale a0 a1) := Nat.le_of_ble_eq_true rfl
theorem EncodedOnce.mskip (a0 : BitVec 16) : EncodedOnce.Statement (.mskip a0) := Nat.le_of_ble_eq_true rfl
theorem EncodedOnce.mnext (a0 : BitVec 3) (a1 : BitVec 3) : EncodedOnce.Statement (.mnext a0 a1) := Nat.le_of_ble_eq_true rfl
theorem EncodedOnce.mloop (a0 : BitVec 2) (a1 : BitVec 16) : EncodedOnce.Statement (.mloop a0 a1) := Nat.le_of_ble_eq_true rfl
theorem EncodedOnce.mnorm (a0 : BitVec 8) : EncodedOnce.Statement (.mnorm a0) := Nat.le_of_ble_eq_true rfl
theorem EncodedOnce.streamBr (a0 : BitVec 32) : EncodedOnce.Statement (.streamBr a0) := Nat.le_of_ble_eq_true rfl
theorem EncodedOnce.brc (a0 : BrCond) (a1 : BitVec 5) (a2 : BitVec 5) (a3 : BitVec 32) : EncodedOnce.Statement (.brc a0 a1 a2 a3) := Nat.le_of_ble_eq_true rfl
theorem EncodedOnce.streamCall (a0 : BitVec 5) (a1 : BitVec 32) : EncodedOnce.Statement (.streamCall a0 a1) := Nat.le_of_ble_eq_true rfl
theorem EncodedOnce.streamRet (a0 : BitVec 5) : EncodedOnce.Statement (.streamRet a0) := Nat.le_of_ble_eq_true rfl
theorem EncodedOnce.seth (a0 : BitVec 32) : EncodedOnce.Statement (.seth a0) := Nat.le_of_ble_eq_true rfl
theorem EncodedOnce.streamAdd (a0 : BitVec 5) (a1 : BitVec 5) (a2 : BitVec 5) : EncodedOnce.Statement (.streamAdd a0 a1 a2) := Nat.le_of_ble_eq_true rfl
theorem EncodedOnce.streamSub (a0 : BitVec 5) (a1 : BitVec 5) (a2 : BitVec 5) : EncodedOnce.Statement (.streamSub a0 a1 a2) := Nat.le_of_ble_eq_true rfl
theorem EncodedOnce.streamMul (a0 : BitVec 5) (a1 : BitVec 5) (a2 : BitVec 5) : EncodedOnce.Statement (.streamMul a0 a1 a2) := Nat.le_of_ble_eq_true rfl
theorem EncodedOnce.streamMulhu (a0 : BitVec 5) (a1 : BitVec 5) (a2 : BitVec 5) : EncodedOnce.Statement (.streamMulhu a0 a1 a2) := Nat.le_of_ble_eq_true rfl
theorem EncodedOnce.streamAnd (a0 : BitVec 5) (a1 : BitVec 5) (a2 : BitVec 5) : EncodedOnce.Statement (.streamAnd a0 a1 a2) := Nat.le_of_ble_eq_true rfl
theorem EncodedOnce.streamOr (a0 : BitVec 5) (a1 : BitVec 5) (a2 : BitVec 5) : EncodedOnce.Statement (.streamOr a0 a1 a2) := Nat.le_of_ble_eq_true rfl
theorem EncodedOnce.streamXor (a0 : BitVec 5) (a1 : BitVec 5) (a2 : BitVec 5) : EncodedOnce.Statement (.streamXor a0 a1 a2) := Nat.le_of_ble_eq_true rfl
theorem EncodedOnce.streamShl (a0 : BitVec 5) (a1 : BitVec 5) (a2 : BitVec 5) : EncodedOnce.Statement (.streamShl a0 a1 a2) := Nat.le_of_ble_eq_true rfl
theorem EncodedOnce.streamShr (a0 : BitVec 5) (a1 : BitVec 5) (a2 : BitVec 5) : EncodedOnce.Statement (.streamShr a0 a1 a2) := Nat.le_of_ble_eq_true rfl
theorem EncodedOnce.streamSar (a0 : BitVec 5) (a1 : BitVec 5) (a2 : BitVec 5) : EncodedOnce.Statement (.streamSar a0 a1 a2) := Nat.le_of_ble_eq_true rfl
theorem EncodedOnce.streamSlt (a0 : BitVec 5) (a1 : BitVec 5) (a2 : BitVec 5) : EncodedOnce.Statement (.streamSlt a0 a1 a2) := Nat.le_of_ble_eq_true rfl
theorem EncodedOnce.streamSltu (a0 : BitVec 5) (a1 : BitVec 5) (a2 : BitVec 5) : EncodedOnce.Statement (.streamSltu a0 a1 a2) := Nat.le_of_ble_eq_true rfl
theorem EncodedOnce.streamSeq (a0 : BitVec 5) (a1 : BitVec 5) (a2 : BitVec 5) : EncodedOnce.Statement (.streamSeq a0 a1 a2) := Nat.le_of_ble_eq_true rfl
theorem EncodedOnce.streamMin (a0 : BitVec 5) (a1 : BitVec 5) (a2 : BitVec 5) : EncodedOnce.Statement (.streamMin a0 a1 a2) := Nat.le_of_ble_eq_true rfl
theorem EncodedOnce.streamMax (a0 : BitVec 5) (a1 : BitVec 5) (a2 : BitVec 5) : EncodedOnce.Statement (.streamMax a0 a1 a2) := Nat.le_of_ble_eq_true rfl
theorem EncodedOnce.streamMinu (a0 : BitVec 5) (a1 : BitVec 5) (a2 : BitVec 5) : EncodedOnce.Statement (.streamMinu a0 a1 a2) := Nat.le_of_ble_eq_true rfl
theorem EncodedOnce.streamMaxu (a0 : BitVec 5) (a1 : BitVec 5) (a2 : BitVec 5) : EncodedOnce.Statement (.streamMaxu a0 a1 a2) := Nat.le_of_ble_eq_true rfl
theorem EncodedOnce.streamAddi (a0 : BitVec 5) (a1 : BitVec 5) (a2 : BitVec 32) : EncodedOnce.Statement (.streamAddi a0 a1 a2) := Nat.le_of_ble_eq_true rfl
theorem EncodedOnce.streamSubi (a0 : BitVec 5) (a1 : BitVec 5) (a2 : BitVec 32) : EncodedOnce.Statement (.streamSubi a0 a1 a2) := Nat.le_of_ble_eq_true rfl
theorem EncodedOnce.streamMuli (a0 : BitVec 5) (a1 : BitVec 5) (a2 : BitVec 32) : EncodedOnce.Statement (.streamMuli a0 a1 a2) := Nat.le_of_ble_eq_true rfl
theorem EncodedOnce.streamMulhui (a0 : BitVec 5) (a1 : BitVec 5) (a2 : BitVec 32) : EncodedOnce.Statement (.streamMulhui a0 a1 a2) := Nat.le_of_ble_eq_true rfl
theorem EncodedOnce.streamAndi (a0 : BitVec 5) (a1 : BitVec 5) (a2 : BitVec 32) : EncodedOnce.Statement (.streamAndi a0 a1 a2) := Nat.le_of_ble_eq_true rfl
theorem EncodedOnce.streamOri (a0 : BitVec 5) (a1 : BitVec 5) (a2 : BitVec 32) : EncodedOnce.Statement (.streamOri a0 a1 a2) := Nat.le_of_ble_eq_true rfl
theorem EncodedOnce.streamXori (a0 : BitVec 5) (a1 : BitVec 5) (a2 : BitVec 32) : EncodedOnce.Statement (.streamXori a0 a1 a2) := Nat.le_of_ble_eq_true rfl
theorem EncodedOnce.streamShli (a0 : BitVec 5) (a1 : BitVec 5) (a2 : BitVec 6) : EncodedOnce.Statement (.streamShli a0 a1 a2) := Nat.le_of_ble_eq_true rfl
theorem EncodedOnce.streamShri (a0 : BitVec 5) (a1 : BitVec 5) (a2 : BitVec 6) : EncodedOnce.Statement (.streamShri a0 a1 a2) := Nat.le_of_ble_eq_true rfl
theorem EncodedOnce.streamSari (a0 : BitVec 5) (a1 : BitVec 5) (a2 : BitVec 6) : EncodedOnce.Statement (.streamSari a0 a1 a2) := Nat.le_of_ble_eq_true rfl
theorem EncodedOnce.streamSlti (a0 : BitVec 5) (a1 : BitVec 5) (a2 : BitVec 32) : EncodedOnce.Statement (.streamSlti a0 a1 a2) := Nat.le_of_ble_eq_true rfl
theorem EncodedOnce.streamSltui (a0 : BitVec 5) (a1 : BitVec 5) (a2 : BitVec 32) : EncodedOnce.Statement (.streamSltui a0 a1 a2) := Nat.le_of_ble_eq_true rfl
theorem EncodedOnce.streamSeqi (a0 : BitVec 5) (a1 : BitVec 5) (a2 : BitVec 32) : EncodedOnce.Statement (.streamSeqi a0 a1 a2) := Nat.le_of_ble_eq_true rfl
theorem EncodedOnce.streamMini (a0 : BitVec 5) (a1 : BitVec 5) (a2 : BitVec 32) : EncodedOnce.Statement (.streamMini a0 a1 a2) := Nat.le_of_ble_eq_true rfl
theorem EncodedOnce.streamMaxi (a0 : BitVec 5) (a1 : BitVec 5) (a2 : BitVec 32) : EncodedOnce.Statement (.streamMaxi a0 a1 a2) := Nat.le_of_ble_eq_true rfl
theorem EncodedOnce.streamMinui (a0 : BitVec 5) (a1 : BitVec 5) (a2 : BitVec 32) : EncodedOnce.Statement (.streamMinui a0 a1 a2) := Nat.le_of_ble_eq_true rfl
theorem EncodedOnce.streamMaxui (a0 : BitVec 5) (a1 : BitVec 5) (a2 : BitVec 32) : EncodedOnce.Statement (.streamMaxui a0 a1 a2) := Nat.le_of_ble_eq_true rfl
theorem EncodedOnce.streamMovi (a0 : BitVec 5) (a1 : BitVec 32) : EncodedOnce.Statement (.streamMovi a0 a1) := Nat.le_of_ble_eq_true rfl
theorem EncodedOnce.streamMovhi (a0 : BitVec 5) (a1 : BitVec 32) : EncodedOnce.Statement (.streamMovhi a0 a1) := Nat.le_of_ble_eq_true rfl
theorem EncodedOnce.srd (a0 : BitVec 5) (a1 : BitVec 6) : EncodedOnce.Statement (.srd a0 a1) := Nat.le_of_ble_eq_true rfl
theorem EncodedOnce.streamHint (a0 : BitVec 3) (a1 : BitVec 2) (a2 : BitVec 56) : EncodedOnce.Statement (.streamHint a0 a1 a2) := Nat.le_of_ble_eq_true rfl
theorem EncodedOnce.ldq (a0 : BitVec 5) (a1 : BitVec 5) (a2 : BitVec 2) (a3 : BitVec 1) (a4 : BitVec 32) : EncodedOnce.Statement (.ldq a0 a1 a2 a3 a4) := Nat.le_of_ble_eq_true rfl
theorem EncodedOnce.stq (a0 : BitVec 5) (a1 : BitVec 5) (a2 : BitVec 2) (a3 : BitVec 32) : EncodedOnce.Statement (.stq a0 a1 a2 a3) := Nat.le_of_ble_eq_true rfl
theorem EncodedOnce.fence (a0 : BitVec 3) (a1 : BitVec 1) (a2 : BitVec 1) : EncodedOnce.Statement (.fence a0 a1 a2) := Nat.le_of_ble_eq_true rfl
theorem EncodedOnce.waitmb (a0 : BitVec 5) (a1 : BitVec 5) (a2 : BitVec 5) : EncodedOnce.Statement (.waitmb a0 a1 a2) := Nat.le_of_ble_eq_true rfl
theorem EncodedOnce.irq (a0 : BitVec 5) (a1 : BitVec 32) : EncodedOnce.Statement (.irq a0 a1) := Nat.le_of_ble_eq_true rfl
theorem EncodedOnce.launch (a0 : BitVec 5) (a1 : BitVec 6) (a2 : BitVec 1) (a3 : LaunchIns) : EncodedOnce.Statement (.launch a0 a1 a2 a3) := Nat.le_of_ble_eq_true rfl
theorem EncodedOnce.launchp (a0 : BitVec 5) (a1 : BitVec 5) (a2 : BitVec 6) (a3 : BitVec 1) (a4 : LaunchIns) (a5 : PredFields) : EncodedOnce.Statement (.launchp a0 a1 a2 a3 a4 a5) := Nat.le_of_ble_eq_true rfl
theorem EncodedOnce.waite (a0 : BitVec 5) (a1 : BitVec 6) (a2 : BitVec 32) : EncodedOnce.Statement (.waite a0 a1 a2) := Nat.le_of_ble_eq_true rfl
theorem EncodedOnce.sige (a0 : BitVec 5) (a1 : BitVec 5) (a2 : BitVec 6) (a3 : BitVec 16) : EncodedOnce.Statement (.sige a0 a1 a2 a3) := Nat.le_of_ble_eq_true rfl
theorem EncodedOnce.sigeRemote (a0 : BitVec 5) (a1 : BitVec 6) (a2 : BitVec 16) : EncodedOnce.Statement (.sigeRemote a0 a1 a2) := Nat.le_of_ble_eq_true rfl
theorem EncodedOnce.shpub (a0 : BitVec 5) (a1 : BitVec 10) : EncodedOnce.Statement (.shpub a0 a1) := Nat.le_of_ble_eq_true rfl
theorem EncodedOnce.shpubClr (a0 : BitVec 10) : EncodedOnce.Statement (.shpubClr a0) := Nat.le_of_ble_eq_true rfl
theorem EncodedOnce.coll (a0 : BitVec 5) (a1 : BitVec 6) (a2 : BitVec 1) : EncodedOnce.Statement (.coll a0 a1 a2) := Nat.le_of_ble_eq_true rfl
theorem EncodedOnce.deadline (a0 : BitVec 5) (a1 : BitVec 8) : EncodedOnce.Statement (.deadline a0 a1) := Nat.le_of_ble_eq_true rfl
theorem EncodedOnce.prio (a0 : BitVec 2) : EncodedOnce.Statement (.prio a0) := Nat.le_of_ble_eq_true rfl
theorem EncodedOnce.tdecl (a0 : BitVec 5) (a1 : BitVec 5) : EncodedOnce.Statement (.tdecl a0 a1) := Nat.le_of_ble_eq_true rfl
theorem EncodedOnce.tfree (a0 : BitVec 5) : EncodedOnce.Statement (.tfree a0) := Nat.le_of_ble_eq_true rfl
theorem EncodedOnce.tpin (a0 : BitVec 5) (a1 : BitVec 5) (a2 : BitVec 1) : EncodedOnce.Statement (.tpin a0 a1 a2) := Nat.le_of_ble_eq_true rfl
theorem EncodedOnce.tunpin (a0 : BitVec 5) (a1 : BitVec 5) : EncodedOnce.Statement (.tunpin a0 a1) := Nat.le_of_ble_eq_true rfl
theorem EncodedOnce.trecOpen (a0 : BitVec 5) (a1 : BitVec 31) : EncodedOnce.Statement (.trecOpen a0 a1) := Nat.le_of_ble_eq_true rfl
theorem EncodedOnce.tuse (a0 : BitVec 5) (a1 : BitVec 5) : EncodedOnce.Statement (.tuse a0 a1) := Nat.le_of_ble_eq_true rfl
theorem EncodedOnce.tprot (a0 : BitVec 5) (a1 : BitVec 4) : EncodedOnce.Statement (.tprot a0 a1) := Nat.le_of_ble_eq_true rfl
theorem EncodedOnce.streamMacro (a0 : BitVec 8) (a1 : BitVec 4) (a2 : BitVec 5) : EncodedOnce.Statement (.streamMacro a0 a1 a2) := Nat.le_of_ble_eq_true rfl
theorem EncodedOnce.mload (a0 : BitVec 5) : EncodedOnce.Statement (.mload a0) := Nat.le_of_ble_eq_true rfl
theorem EncodedOnce.flashImageUpdate (a0 : Bool) (a1 : FwImage) : EncodedOnce.Statement (.flashImageUpdate a0 a1) := Nat.le_of_ble_eq_true rfl
theorem EncodedOnce.pcieConfigRequest (a0 : Option (Bool × BitVec 3)) : EncodedOnce.Statement (.pcieConfigRequest a0) := Nat.le_of_ble_eq_true rfl
theorem EncodedOnce.functionLevelReset (a0 : Nat) : EncodedOnce.Statement (.functionLevelReset a0) := Nat.le_of_ble_eq_true rfl
theorem EncodedOnce.powerCapStepDown (a0 : Nat) : EncodedOnce.Statement (.powerCapStepDown a0) := Nat.le_of_ble_eq_true rfl
theorem EncodedOnce.powerCapStepUp (a0 : Nat) : EncodedOnce.Statement (.powerCapStepUp a0) := Nat.le_of_ble_eq_true rfl
theorem EncodedOnce.thermalStepDown (a0 : Nat) (a1 : BitVec 64) : EncodedOnce.Statement (.thermalStepDown a0 a1) := Nat.le_of_ble_eq_true rfl
theorem EncodedOnce.thermalAlarm (a0 : Nat) (a1 : BitVec 64) : EncodedOnce.Statement (.thermalAlarm a0 a1) := Nat.le_of_ble_eq_true rfl
theorem EncodedOnce.thermalTrip (a0 : Nat) (a1 : BitVec 64) : EncodedOnce.Statement (.thermalTrip a0 a1) := Nat.le_of_ble_eq_true rfl
theorem EncodedOnce.modpwrReqAuto (a0 : BitVec 64) (a1 : Bool) : EncodedOnce.Statement (.modpwrReqAuto a0 a1) := Nat.le_of_ble_eq_true rfl
theorem EncodedOnce.modpwrReqM2 (a0 : BitVec 64) : EncodedOnce.Statement (.modpwrReqM2 a0) := Nat.le_of_ble_eq_true rfl
theorem EncodedOnce.modpwrReqM3 (a0 : BitVec 64) : EncodedOnce.Statement (.modpwrReqM3 a0) := Nat.le_of_ble_eq_true rfl
theorem EncodedOnce.m2ExitStart (a0 : HostAccess) : EncodedOnce.Statement (.m2ExitStart a0) := Nat.le_of_ble_eq_true rfl
theorem EncodedOnce.registerWrite (a0 : Via) (a1 : Nat) (a2 : Nat) (a3 : BitVec 64) : EncodedOnce.Statement (.registerWrite a0 a1 a2 a3) := Nat.le_of_ble_eq_true rfl
theorem EncodedOnce.spgateWrite (a0 : Nat) (a1 : BitVec 64) : EncodedOnce.Statement (.spgateWrite a0 a1) := Nat.le_of_ble_eq_true rfl
theorem EncodedOnce.bankWakeComplete (a0 : Nat) (a1 : Nat) : EncodedOnce.Statement (.bankWakeComplete a0 a1) := Nat.le_of_ble_eq_true rfl
theorem EncodedOnce.llcwayWrite (a0 : Nat) (a1 : BitVec 32) : EncodedOnce.Statement (.llcwayWrite a0 a1) := Nat.le_of_ble_eq_true rfl
theorem EncodedOnce.llcWayDrained (a0 : Nat) : EncodedOnce.Statement (.llcWayDrained a0) := Nat.le_of_ble_eq_true rfl
theorem EncodedOnce.fabricPacketDelivery (a0 : LanePick) (a1 : Node) (a2 : Node) : EncodedOnce.Statement (.fabricPacketDelivery a0 a1 a2) := Nat.le_of_ble_eq_true rfl
theorem EncodedOnce.flitSend (a0 : Nat) (a1 : Nat) : EncodedOnce.Statement (.flitSend a0 a1) := Nat.le_of_ble_eq_true rfl
theorem EncodedOnce.flitReceive (a0 : Nat) (a1 : List (BitVec 8)) : EncodedOnce.Statement (.flitReceive a0 a1) := Nat.le_of_ble_eq_true rfl
theorem EncodedOnce.portRetrain (a0 : Nat) (a1 : Bool) : EncodedOnce.Statement (.portRetrain a0 a1) := Nat.le_of_ble_eq_true rfl
theorem EncodedOnce.ngportWrite (a0 : Nat) (a1 : BitVec 64) : EncodedOnce.Statement (.ngportWrite a0 a1) := Nat.le_of_ble_eq_true rfl
theorem EncodedOnce.portTrainingComplete (a0 : Nat) (a1 : BitVec 4) : EncodedOnce.Statement (.portTrainingComplete a0 a1) := Nat.le_of_ble_eq_true rfl
theorem EncodedOnce.routeSwitchRelease (a0 : Nat) (a1 : Nat) : EncodedOnce.Statement (.routeSwitchRelease a0 a1) := Nat.le_of_ble_eq_true rfl
theorem EncodedOnce.remoteRequestTimeout (a0 : Nat) (a1 : Nat) : EncodedOnce.Statement (.remoteRequestTimeout a0 a1) := Nat.le_of_ble_eq_true rfl
theorem EncodedOnce.hbmChannelRetrain (a0 : Nat) (a1 : Nat) (a2 : Bool) : EncodedOnce.Statement (.hbmChannelRetrain a0 a1 a2) := Nat.le_of_ble_eq_true rfl
theorem EncodedOnce.patrolScrub (a0 : Nat) (a1 : Nat) (a2 : ScrubFind) : EncodedOnce.Statement (.patrolScrub a0 a1 a2) := Nat.le_of_ble_eq_true rfl
theorem EncodedOnce.lpddrChannelRetrain (a0 : Nat) (a1 : Nat) : EncodedOnce.Statement (.lpddrChannelRetrain a0 a1) := Nat.le_of_ble_eq_true rfl
theorem EncodedOnce.peerReadCompletion (a0 : Nat) (a1 : PeerReq) (a2 : PeerStatus) (a3 : List (BitVec 8)) : EncodedOnce.Statement (.peerReadCompletion a0 a1 a2 a3) := Nat.le_of_ble_eq_true rfl
theorem EncodedOnce.peerReadTimeout (a0 : Nat) (a1 : Nat) : EncodedOnce.Statement (.peerReadTimeout a0 a1) := Nat.le_of_ble_eq_true rfl
theorem EncodedOnce.apertureRead (a0 : Nat) (a1 : Nat) (a2 : Nat) : EncodedOnce.Statement (.apertureRead a0 a1 a2) := Nat.le_of_ble_eq_true rfl
theorem EncodedOnce.apertureWrite (a0 : Nat) (a1 : Nat) (a2 : List (BitVec 8)) : EncodedOnce.Statement (.apertureWrite a0 a1 a2) := Nat.le_of_ble_eq_true rfl
theorem EncodedOnce.apertureHeldWritePerform (a0 : Nat) : EncodedOnce.Statement (.apertureHeldWritePerform a0) := Nat.le_of_ble_eq_true rfl
theorem EncodedOnce.clusterMapWrite (a0 : Nat) (a1 : Nat) (a2 : BitVec 8) : EncodedOnce.Statement (.clusterMapWrite a0 a1 a2) := Nat.le_of_ble_eq_true rfl
theorem EncodedOnce.partctlWrite (a0 : Nat) (a1 : BitVec 64) : EncodedOnce.Statement (.partctlWrite a0 a1) := Nat.le_of_ble_eq_true rfl
theorem EncodedOnce.ctxctlRun (a0 : Nat) (a1 : BitVec 64) : EncodedOnce.Statement (.ctxctlRun a0 a1) := Nat.le_of_ble_eq_true rfl
theorem EncodedOnce.ctxctlStop (a0 : Nat) (a1 : BitVec 64) : EncodedOnce.Statement (.ctxctlStop a0 a1) := Nat.le_of_ble_eq_true rfl
theorem EncodedOnce.contextStopComplete (a0 : Nat) : EncodedOnce.Statement (.contextStopComplete a0) := Nat.le_of_ble_eq_true rfl
theorem EncodedOnce.ctxctlKill (a0 : Nat) (a1 : BitVec 64) : EncodedOnce.Statement (.ctxctlKill a0 a1) := Nat.le_of_ble_eq_true rfl
theorem EncodedOnce.contextKillComplete (a0 : Nat) : EncodedOnce.Statement (.contextKillComplete a0) := Nat.le_of_ble_eq_true rfl
theorem EncodedOnce.contextEndComplete (a0 : Nat) : EncodedOnce.Statement (.contextEndComplete a0) := Nat.le_of_ble_eq_true rfl
theorem EncodedOnce.macstatClear (a0 : Nat) (a1 : BitVec 64) : EncodedOnce.Statement (.macstatClear a0 a1) := Nat.le_of_ble_eq_true rfl
theorem EncodedOnce.hostDeclare (a0 : Nat) (a1 : BitVec 64) : EncodedOnce.Statement (.hostDeclare a0 a1) := Nat.le_of_ble_eq_true rfl
theorem EncodedOnce.hostFree (a0 : Nat) (a1 : BitVec 64) : EncodedOnce.Statement (.hostFree a0 a1) := Nat.le_of_ble_eq_true rfl
theorem EncodedOnce.msixUnmask (a0 : Nat) : EncodedOnce.Statement (.msixUnmask a0) := Nat.le_of_ble_eq_true rfl
theorem EncodedOnce.measExtend (a0 : BitVec 64) : EncodedOnce.Statement (.measExtend a0) := Nat.le_of_ble_eq_true rfl
theorem EncodedOnce.negotiateAlgorithms (a0 : List SpdmAlg) : EncodedOnce.Statement (.negotiateAlgorithms a0) := Nat.le_of_ble_eq_true rfl
theorem EncodedOnce.getCertificate (a0 : Nat) : EncodedOnce.Statement (.getCertificate a0) := Nat.le_of_ble_eq_true rfl
theorem EncodedOnce.challenge (a0 : BitVec 256) (a1 : Bool) : EncodedOnce.Statement (.challenge a0 a1) := Nat.le_of_ble_eq_true rfl
theorem EncodedOnce.getMeasurements (a0 : Nat) (a1 : Bool) : EncodedOnce.Statement (.getMeasurements a0 a1) := Nat.le_of_ble_eq_true rfl
theorem EncodedOnce.keyExchange (a0 : Nat) (a1 : BitVec 768) (a2 : Bool) : EncodedOnce.Statement (.keyExchange a0 a1 a2) := Nat.le_of_ble_eq_true rfl
theorem EncodedOnce.finish (a0 : Nat) (a1 : BitVec 384) : EncodedOnce.Statement (.finish a0 a1) := Nat.le_of_ble_eq_true rfl
theorem EncodedOnce.endSession (a0 : Nat) : EncodedOnce.Statement (.endSession a0) := Nat.le_of_ble_eq_true rfl
theorem EncodedOnce.heartbeat (a0 : Nat) : EncodedOnce.Statement (.heartbeat a0) := Nat.le_of_ble_eq_true rfl
theorem EncodedOnce.debugUnlock (a0 : BitVec 768) (a1 : List (BitVec 8)) : EncodedOnce.Statement (.debugUnlock a0 a1) := Nat.le_of_ble_eq_true rfl
theorem EncodedOnce.snapshotTriggerArrival (a0 : Nat) : EncodedOnce.Statement (.snapshotTriggerArrival a0) := Nat.le_of_ble_eq_true rfl
theorem EncodedOnce.waitmbWake (a0 : Nat) : EncodedOnce.Statement (.waitmbWake a0) := Nat.le_of_ble_eq_true rfl
theorem EncodedOnce.remoteSignalArrival (a0 : Nat) : EncodedOnce.Statement (.remoteSignalArrival a0) := Nat.le_of_ble_eq_true rfl
theorem EncodedOnce.streamWaitWake (a0 : Nat) : EncodedOnce.Statement (.streamWaitWake a0) := Nat.le_of_ble_eq_true rfl
theorem EncodedOnce.streamWaitLimit (a0 : Nat) : EncodedOnce.Statement (.streamWaitLimit a0) := Nat.le_of_ble_eq_true rfl
theorem EncodedOnce.launchFailureDelivery (a0 : Nat) : EncodedOnce.Statement (.launchFailureDelivery a0) := Nat.le_of_ble_eq_true rfl
theorem EncodedOnce.launchQueueWaitEnd (a0 : Nat) : EncodedOnce.Statement (.launchQueueWaitEnd a0) := Nat.le_of_ble_eq_true rfl
theorem EncodedOnce.launchThresholdsMet (a0 : Nat) : EncodedOnce.Statement (.launchThresholdsMet a0) := Nat.le_of_ble_eq_true rfl
theorem EncodedOnce.launchResident (a0 : Nat) : EncodedOnce.Statement (.launchResident a0) := Nat.le_of_ble_eq_true rfl
theorem EncodedOnce.restoreWaitTimeout (a0 : Nat) : EncodedOnce.Statement (.restoreWaitTimeout a0) := Nat.le_of_ble_eq_true rfl
theorem EncodedOnce.shareArrival (a0 : Nat) : EncodedOnce.Statement (.shareArrival a0) := Nat.le_of_ble_eq_true rfl
theorem EncodedOnce.dispatchRound (a0 : Nat) : EncodedOnce.Statement (.dispatchRound a0) := Nat.le_of_ble_eq_true rfl
theorem EncodedOnce.taskImageLoad (a0 : Nat) : EncodedOnce.Statement (.taskImageLoad a0) := Nat.le_of_ble_eq_true rfl
theorem EncodedOnce.taskSaveComplete (a0 : Nat) : EncodedOnce.Statement (.taskSaveComplete a0) := Nat.le_of_ble_eq_true rfl
theorem EncodedOnce.launchComplete (a0 : Nat) : EncodedOnce.Statement (.launchComplete a0) := Nat.le_of_ble_eq_true rfl
theorem EncodedOnce.preemptSoft (a0 : Nat) (a1 : BitVec 64) : EncodedOnce.Statement (.preemptSoft a0 a1) := Nat.le_of_ble_eq_true rfl
theorem EncodedOnce.preemptHard (a0 : Nat) (a1 : BitVec 64) : EncodedOnce.Statement (.preemptHard a0 a1) := Nat.le_of_ble_eq_true rfl
theorem EncodedOnce.deadlineOverrun (a0 : Nat) : EncodedOnce.Statement (.deadlineOverrun a0) := Nat.le_of_ble_eq_true rfl
theorem EncodedOnce.partschedRelease (a0 : Nat) (a1 : BitVec 64) : EncodedOnce.Statement (.partschedRelease a0 a1) := Nat.le_of_ble_eq_true rfl
theorem EncodedOnce.holdQueuePauseTimeout (a0 : Nat) : EncodedOnce.Statement (.holdQueuePauseTimeout a0) := Nat.le_of_ble_eq_true rfl
theorem EncodedOnce.substreamPreemptTimeout (a0 : Nat) : EncodedOnce.Statement (.substreamPreemptTimeout a0) := Nat.le_of_ble_eq_true rfl
theorem EncodedOnce.shapeSlotWrite (a0 : Nat) (a1 : Nat) (a2 : BitVec 32) : EncodedOnce.Statement (.shapeSlotWrite a0 a1 a2) := Nat.le_of_ble_eq_true rfl
theorem EncodedOnce.trim (a0 : Nat) : EncodedOnce.Statement (.trim a0) := Nat.le_of_ble_eq_true rfl
theorem EncodedOnce.evict (a0 : Nat) : EncodedOnce.Statement (.evict a0) := Nat.le_of_ble_eq_true rfl
theorem EncodedOnce.optimisticCopyPass (a0 : Nat) : EncodedOnce.Statement (.optimisticCopyPass a0) := Nat.le_of_ble_eq_true rfl
theorem EncodedOnce.swapPairExchange (a0 : Nat) : EncodedOnce.Statement (.swapPairExchange a0) := Nat.le_of_ble_eq_true rfl
theorem EncodedOnce.restoreComplete (a0 : Nat) : EncodedOnce.Statement (.restoreComplete a0) := Nat.le_of_ble_eq_true rfl
theorem EncodedOnce.substreamStart (a0 : Nat) : EncodedOnce.Statement (.substreamStart a0) := Nat.le_of_ble_eq_true rfl
theorem EncodedOnce.substreamComplete (a0 : Nat) : EncodedOnce.Statement (.substreamComplete a0) := Nat.le_of_ble_eq_true rfl
theorem EncodedOnce.dependentMaterialisation (a0 : Nat) : EncodedOnce.Statement (.dependentMaterialisation a0) := Nat.le_of_ble_eq_true rfl
theorem EncodedOnce.pageWalk (a0 : Nat) (a1 : Nat) : EncodedOnce.Statement (.pageWalk a0 a1) := Nat.le_of_ble_eq_true rfl
theorem EncodedOnce.rangeTableFill (a0 : Nat) (a1 : Nat) : EncodedOnce.Statement (.rangeTableFill a0 a1) := Nat.le_of_ble_eq_true rfl
theorem EncodedOnce.bounceApply (a0 : Nat) : EncodedOnce.Statement (.bounceApply a0) := Nat.le_of_ble_eq_true rfl
theorem EncodedOnce.hforceSpill (a0 : Nat) (a1 : BitVec 64) : EncodedOnce.Statement (.hforceSpill a0 a1) := Nat.le_of_ble_eq_true rfl
theorem EncodedOnce.hforceCompress (a0 : Nat) (a1 : BitVec 64) : EncodedOnce.Statement (.hforceCompress a0 a1) := Nat.le_of_ble_eq_true rfl
theorem EncodedOnce.hforceDrop (a0 : Nat) (a1 : BitVec 64) : EncodedOnce.Statement (.hforceDrop a0 a1) := Nat.le_of_ble_eq_true rfl
theorem EncodedOnce.hrqselWrite (a0 : Nat) (a1 : BitVec 64) : EncodedOnce.Statement (.hrqselWrite a0 a1) := Nat.le_of_ble_eq_true rfl
theorem EncodedOnce.bundleIssue (a0 : Nat) : EncodedOnce.Statement (.bundleIssue a0) := Nat.le_of_ble_eq_true rfl
theorem EncodedOnce.checkpoint (a0 : Nat) : EncodedOnce.Statement (.checkpoint a0) := Nat.le_of_ble_eq_true rfl
theorem EncodedOnce.pauseEnd (a0 : Nat) : EncodedOnce.Statement (.pauseEnd a0) := Nat.le_of_ble_eq_true rfl
theorem EncodedOnce.landingArrival (a0 : Nat) (a1 : Nat) : EncodedOnce.Statement (.landingArrival a0 a1) := Nat.le_of_ble_eq_true rfl
theorem EncodedOnce.rollback (a0 : Nat) : EncodedOnce.Statement (.rollback a0) := Nat.le_of_ble_eq_true rfl
theorem EncodedOnce.clusterRetirement (a0 : Nat) : EncodedOnce.Statement (.clusterRetirement a0) := Nat.le_of_ble_eq_true rfl
theorem EncodedOnce.scratchpadScrub (a0 : Nat) (a1 : Nat) (a2 : ScrubFind) : EncodedOnce.Statement (.scratchpadScrub a0 a1 a2) := Nat.le_of_ble_eq_true rfl
theorem EncodedOnce.storeFaultUnresolved (a0 : Nat) : EncodedOnce.Statement (.storeFaultUnresolved a0) := Nat.le_of_ble_eq_true rfl
theorem EncodedOnce.hingeReleasePerform (a0 : Nat) : EncodedOnce.Statement (.hingeReleasePerform a0) := Nat.le_of_ble_eq_true rfl
theorem EncodedOnce.engineCommandStart (a0 : Nat) (a1 : Nat) : EncodedOnce.Statement (.engineCommandStart a0 a1) := Nat.le_of_ble_eq_true rfl
theorem EncodedOnce.engineLinePerform (a0 : Nat) (a1 : Nat) (a2 : Nat) : EncodedOnce.Statement (.engineLinePerform a0 a1 a2) := Nat.le_of_ble_eq_true rfl
theorem EncodedOnce.weightBlockExpand (a0 : Nat) : EncodedOnce.Statement (.weightBlockExpand a0) := Nat.le_of_ble_eq_true rfl
theorem EncodedOnce.deltaApply (a0 : Nat) : EncodedOnce.Statement (.deltaApply a0) := Nat.le_of_ble_eq_true rfl
theorem EncodedOnce.dieFence (a0 : Nat) : EncodedOnce.Statement (.dieFence a0) := Nat.le_of_ble_eq_true rfl
theorem EncodedOnce.dieRebuild (a0 : Nat) : EncodedOnce.Statement (.dieRebuild a0) := Nat.le_of_ble_eq_true rfl
theorem EncodedOnce.dbctlMrebuild (a0 : BitVec 64) : EncodedOnce.Statement (.dbctlMrebuild a0) := Nat.le_of_ble_eq_true rfl
theorem EncodedOnce.matrixCommandEnd (a0 : Nat) : EncodedOnce.Statement (.matrixCommandEnd a0) := Nat.le_of_ble_eq_true rfl
theorem EncodedOnce.decodeTableComplete (a0 : Nat) (a1 : Nat) : EncodedOnce.Statement (.decodeTableComplete a0 a1) := Nat.le_of_ble_eq_true rfl
theorem EncodedOnce.powerOn : EncodedOnce.Statement (.powerOn) := Nat.le_of_ble_eq_true rfl
theorem EncodedOnce.powerLoss : EncodedOnce.Statement (.powerLoss) := Nat.le_of_ble_eq_true rfl
theorem EncodedOnce.moduleReset : EncodedOnce.Statement (.moduleReset) := Nat.le_of_ble_eq_true rfl
theorem EncodedOnce.hostPerst : EncodedOnce.Statement (.hostPerst) := Nat.le_of_ble_eq_true rfl
theorem EncodedOnce.storagePerst : EncodedOnce.Statement (.storagePerst) := Nat.le_of_ble_eq_true rfl
theorem EncodedOnce.m1Entry : EncodedOnce.Statement (.m1Entry) := Nat.le_of_ble_eq_true rfl
theorem EncodedOnce.m1Exit : EncodedOnce.Statement (.m1Exit) := Nat.le_of_ble_eq_true rfl
theorem EncodedOnce.m2ExitComplete : EncodedOnce.Statement (.m2ExitComplete) := Nat.le_of_ble_eq_true rfl
theorem EncodedOnce.getVersion : EncodedOnce.Statement .getVersion := Nat.le_of_ble_eq_true rfl
theorem EncodedOnce.getCapabilities : EncodedOnce.Statement .getCapabilities := Nat.le_of_ble_eq_true rfl
theorem EncodedOnce.getDigests : EncodedOnce.Statement .getDigests := Nat.le_of_ble_eq_true rfl
theorem EncodedOnce.tamperAlarm : EncodedOnce.Statement (.tamperAlarm) := Nat.le_of_ble_eq_true rfl
theorem EncodedOnce.snapshotFire : EncodedOnce.Statement (.snapshotFire) := Nat.le_of_ble_eq_true rfl
theorem EncodedOnce.snapshotRearm : EncodedOnce.Statement (.snapshotRearm) := Nat.le_of_ble_eq_true rfl
theorem EncodedOnce.streamEnd : EncodedOnce.Statement (.streamEnd) := Nat.le_of_ble_eq_true rfl
theorem EncodedOnce.sethRemove : EncodedOnce.Statement (.sethRemove) := Nat.le_of_ble_eq_true rfl
theorem EncodedOnce.streamEret : EncodedOnce.Statement (.streamEret) := Nat.le_of_ble_eq_true rfl
theorem EncodedOnce.streamEretSkip : EncodedOnce.Statement (.streamEretSkip) := Nat.le_of_ble_eq_true rfl
theorem EncodedOnce.nop : EncodedOnce.Statement (.nop) := Nat.le_of_ble_eq_true rfl
theorem EncodedOnce.trecClose : EncodedOnce.Statement (.trecClose) := Nat.le_of_ble_eq_true rfl
theorem EncodedOnce.tend : EncodedOnce.Statement (.tend) := Nat.le_of_ble_eq_true rfl
theorem EncodedOnce.eret : EncodedOnce.Statement (.eret) := Nat.le_of_ble_eq_true rfl
theorem EncodedOnce.eretSkip : EncodedOnce.Statement (.eretSkip) := Nat.le_of_ble_eq_true rfl
theorem EncodedOnce.fenceSvDie : EncodedOnce.Statement (.fenceSvDie) := Nat.le_of_ble_eq_true rfl
theorem EncodedOnce.fenceSvModule : EncodedOnce.Statement (.fenceSvModule) := Nat.le_of_ble_eq_true rfl
theorem EncodedOnce.yieldp : EncodedOnce.Statement (.yieldp) := Nat.le_of_ble_eq_true rfl
theorem EncodedOnce.mmac : EncodedOnce.Statement (.mmac) := Nat.le_of_ble_eq_true rfl
theorem EncodedOnce.mmact : EncodedOnce.Statement (.mmact) := Nat.le_of_ble_eq_true rfl
theorem EncodedOnce.mbcast : EncodedOnce.Statement (.mbcast) := Nat.le_of_ble_eq_true rfl
theorem EncodedOnce.mend : EncodedOnce.Statement (.mend) := Nat.le_of_ble_eq_true rfl
theorem EncodedOnce.msync : EncodedOnce.Statement (.msync) := Nat.le_of_ble_eq_true rfl

end Sys2Proof.Laws
end

