-- ==== Sys2Proof/Tests/Slice0.lean ====
section
/-!
SUPPORT. Sys2Proof/Tests/Slice0.lean: words written out from the encoding tables, terms that well-formedness refuses, states
that meet the hypotheses of the obligations, and small tests of single steps.
-/

namespace Sys2Proof.Tests

open Sys2Proof Sys2Proof.Machine Sys2Proof.Safety

set_option Elab.async false

/-! ### Decoding -/

/-- Words of the CTL map, each put together from its row of the encoding tables. -/
def ctlWords : List (Nat × Instr) := [
  (0x040002B7, .br 695),
  (0x0B70015B, .brz 55 347),
  (0x0F70015B, .brnz 55 347),
  (0x1215B0AD, .loop 1 347 173),
  (0x136C00AD, .loopReg 1 27 173),
  (0x1770015B, .call 55 347),
  (0x1B76C000, .callr 55 27),
  (0x1C0DC000, .ret 55),
  (0x240002B7, .trap 695),
  (0x2F76ED00, .waitt 55 27 45),
  (0x300DDB00, .waitg 55 27),
  (0x34000005, .drain 5),
  (0x38000005, .fenceT 5),
  (0x400002B7, .segchk 695),
  (0x4770015B, .sysr 55 347),
  (0x480DC15B, .sysw 55 347),
  (0x500DC15B, .shapepub 55 347),
  (0x501002B7, .shapepubClr 695),
  (0x20000000, .tend),
  (0x28000000, .eret),
  (0x28000001, .eretSkip),
  (0x3C000000, .fenceSvDie),
  (0x3C000001, .fenceSvModule),
  (0x4C000000, .yieldp)]

theorem test_decode_ctl_words : ctlWords.all (fun p => decide (decodeCtl p.1 = .ok p.2 ∧ encodeCtl p.2 = some p.1 ∧ p.2.wf = true)) = true := by decide +kernel

/-- Words of the S0 and S1 map, each put together from its row of the encoding tables. -/
def sWords1 : List (Nat × Instr) := [
  (0x0776ED00, .add 55 27 45),
  (0x0776ED01, .sub 55 27 45),
  (0x0776ED02, .and_ 55 27 45),
  (0x0776ED03, .or_ 55 27 45),
  (0x0776ED04, .xor_ 55 27 45),
  (0x0776ED05, .shl 55 27 45),
  (0x0776ED06, .shr 55 27 45),
  (0x0776ED07, .sar 55 27 45),
  (0x0776ED08, .slt 55 27 45),
  (0x0776ED09, .sltu 55 27 45),
  (0x0776ED0A, .seq 55 27 45),
  (0x0776ED0B, .min 55 27 45),
  (0x0776ED0C, .max 55 27 45),
  (0x0776ED0D, .minu 55 27 45),
  (0x0776ED0E, .maxu 55 27 45),
  (0x0B76ED00, .mul 55 27 45),
  (0x0B76ED01, .mulh 55 27 45),
  (0x0B76ED02, .mulhu 55 27 45),
  (0x0F76ED00, .clmul 55 27 45),
  (0x1376ED00, .clmulh 55 27 45),
  (0x1776ED5C, .sel 55 27 45 23),
  (0x1B70015B, .movi 55 347),
  (0x1F7400AD, .movhi 55 1 173),
  (0x2376C000, .clz 55 27),
  (0x2376C001, .ctz 55 27),
  (0x2376C002, .popc 55 27)]

theorem test_decode_s_words1 : sWords1.all (fun p => decide (decodeS p.1 = .ok p.2 ∧ encodeS p.2 = some p.1 ∧ p.2.wf = true)) = true := by decide +kernel

/-- Words of the S0 and S1 map, each put together from its row of the encoding tables. -/
def sWords2 : List (Nat × Instr) := [
  (0x2776C000, .sptest 55 27),
  (0x2B76C000, .spcastSp 55 27),
  (0x2B76C001, .spcastCl 55 27),
  (0x2F76ED00, .gptr 55 27 45),
  (0x2F76ED01, .gptrH 55 27 45),
  (0x3376ED00, .padd 55 27 45),
  (0x37EB4000, .stg 7 6 45),
  (0x3BEB4000, .shf 7 6 45),
  (0x3FEB4000, .mpw 7 6 45),
  (0x4376C0AD, .addi 55 27 173),
  (0x4776C0AD, .andi 55 27 173),
  (0x4B76C0AD, .ori 55 27 173),
  (0x4F76C0AD, .xori 55 27 173),
  (0x5376C02D, .shli 55 27 45),
  (0x5776C02D, .shri 55 27 45),
  (0x5B76C02D, .sari 55 27 45),
  (0x5F76C0AD, .slti 55 27 173),
  (0x6376C0AD, .sltui 55 27 173),
  (0x6776C0AD, .seqi 55 27 173)]

theorem test_decode_s_words2 : sWords2.all (fun p => decide (decodeS p.1 = .ok p.2 ∧ encodeS p.2 = some p.1 ∧ p.2.wf = true)) = true := by decide +kernel

/-- Words of the LS map, each put together from its row of the encoding tables. -/
def lsWords1 : List (Nat × Instr) := [
  (0x0776D82B, .ld 55 27 1 1 43),
  (0x0B76D057, .st 55 27 1 87),
  (0x0F76C0AD, .vld 55 27 173),
  (0x1376F457, .vst 55 27 13 87),
  (0x1776ED7A, .vlds 55 27 45 7 .f32),
  (0x1B76ED7A, .vsts 55 27 45 7 .f32),
  (0x1F76ED7A, .vldx 55 27 45 7 .f32),
  (0x2376ED7A, .vstx 55 27 45 7 .f32),
  (0x2776E057, .ldl 55 27 2 87),
  (0x2B76C257, .amoAdd 55 27 1 87),
  (0x2B76C657, .amoAnd 55 27 1 87),
  (0x2B76CA57, .amoOr 55 27 1 87),
  (0x2B76CE57, .amoXor 55 27 1 87),
  (0x2B76D257, .amoMin 55 27 1 87),
  (0x2B76D657, .amoMax 55 27 1 87),
  (0x2B76DA57, .amoMinu 55 27 1 87),
  (0x2B76DE57, .amoMaxu 55 27 1 87),
  (0x2B76E257, .amoSwap 55 27 1 87),
  (0x2B76E4AD, .amoFadd 55 27 173),
  (0x2FE6E057, .cas 62 27 1 87),
  (0x300DDB08, .redAdd 55 27 1),
  (0x300DDB18, .redAnd 55 27 1),
  (0x300DDB28, .redOr 55 27 1),
  (0x300DDB38, .redXor 55 27 1),
  (0x300DDB48, .redMin 55 27 1),
  (0x300DDB58, .redMax 55 27 1)]

theorem test_decode_ls_words1 : lsWords1.all (fun p => decide (decodeLs p.1 = .ok p.2 ∧ encodeLs p.2 = some p.1 ∧ p.2.wf = true)) = true := by decide +kernel

/-- Words of the LS map, each put together from its row of the encoding tables. -/
def lsWords2 : List (Nat × Instr) := [
  (0x300DDB68, .redMinu 55 27 1),
  (0x300DDB78, .redMaxu 55 27 1),
  (0x300DDB90, .redFadd 55 27),
  (0x3776FA00, .ldAcq 55 27 1 5),
  (0x3B76FA00, .stRel 55 27 1 5),
  (0x3F76ED00, .hingeRel 55 27 45),
  (0x4376ED00, .hingeAcq 55 27 45),
  (0x4406D000, .bgive 1 11 1),
  (0x480DDB00, .syncarm 55 27),
  (0x4F78AD00, .spill 55 1 173),
  (0x5378AD00, .fill 55 1 173),
  (0x540DEC00, .pref 55 11)]

theorem test_decode_ls_words2 : lsWords2.all (fun p => decide (decodeLs p.1 = .ok p.2 ∧ encodeLs p.2 = some p.1 ∧ p.2.wf = true)) = true := by decide +kernel

/-- Words of the V0 and V1 map, each put together from its row of the encoding tables. -/
def vWords1 : List (Nat × Instr) := [
  (0x0776ED75, .vadd 55 27 45 7 .n16),
  (0x0B76ED75, .vsub 55 27 45 7 .n16),
  (0x0F76ED75, .vmul 55 27 45 7 .n16),
  (0x1376ED75, .vmulh 55 27 45 7 .n16),
  (0x1776ED75, .vmin 55 27 45 7 .n16),
  (0x1B76ED75, .vmax 55 27 45 7 .n16),
  (0x1F76C0D1, .vabs 55 27 13 .i16),
  (0x2376ED75, .vand 55 27 45 7 .n16),
  (0x2776ED75, .vor 55 27 45 7 .n16),
  (0x2B76ED75, .vxor 55 27 45 7 .n16),
  (0x2F76ED75, .vandn 55 27 45 7 .n16),
  (0x3376ED75, .vshl 55 27 45 7 .n16),
  (0x3776ED75, .vshr 55 27 45 7 .n16),
  (0x3B76ED75, .vsar 55 27 45 7 .n16),
  (0x3F76ED75, .vadds 55 27 45 7 .n16),
  (0x4376ED75, .vsubs 55 27 45 7 .n16),
  (0x4476ED75, .vcmpeq 7 27 45 7 .n16),
  (0x4876ED75, .vcmpne 7 27 45 7 .n16),
  (0x4C76ED75, .vcmplt 7 27 45 7 .n16),
  (0x5076ED75, .vcmple 7 27 45 7 .n16),
  (0x5776ED75, .vsel 55 27 45 7 .n16),
  (0x5B76C0D5, .vbcast 55 27 13 .n16),
  (0x5F76ED05, .vextr 55 27 45 .n16),
  (0x6376ED05, .vinsr 55 27 45 .n16),
  (0x6776ED77, .vclmulLo 55 27 45 7 .n64),
  (0x6B76ED77, .vclmulHi 55 27 45 7 .n64)]

theorem test_decode_v_words1 : vWords1.all (fun p => decide (decodeV p.1 = .ok p.2 ∧ encodeV p.2 = some p.1 ∧ p.2.wf = true)) = true := by decide +kernel

/-- Words of the V0 and V1 map, each put together from its row of the encoding tables. -/
def vWords2 : List (Nat × Instr) := [
  (0x6F76C0D5, .vscanAdd 55 27 13 .n16),
  (0x6F76C1D5, .vscanMin 55 27 13 .n16),
  (0x6F76C2D5, .vscanMax 55 27 13 .n16),
  (0x6F76C3D5, .vscanXor 55 27 13 .n16),
  (0x6F76C4D5, .vscanAnd 55 27 13 .n16),
  (0x6F76C5D5, .vscanOr 55 27 13 .n16),
  (0x7376C0D5, .vreduceAdd 55 27 13 .n16),
  (0x7376C1D5, .vreduceMin 55 27 13 .n16),
  (0x7376C2D5, .vreduceMax 55 27 13 .n16),
  (0x7376C3D5, .vreduceXor 55 27 13 .n16),
  (0x7376C4D5, .vreduceAnd 55 27 13 .n16),
  (0x7376C5D5, .vreduceOr 55 27 13 .n16),
  (0x7776ED75, .vperm 55 27 45 7 .n16),
  (0x7B76C0D5, .vcompress 55 27 13 .n16),
  (0x7F76C0D5, .vexpand 55 27 13 .n16),
  (0x8376ED17, .vmergeLo 55 27 45 1 .n64),
  (0x8776ED17, .vmergeHi 55 27 45 1 .n64),
  (0x8B76ED17, .vmergekv 55 27 45 1 .n64),
  (0x8F76ED79, .vfadd 55 27 45 7 .bf16),
  (0x9376ED79, .vfsub 55 27 45 7 .bf16),
  (0x9776ED79, .vfmul 55 27 45 7 .bf16),
  (0x9B76ED79, .vfma 55 27 45 7 .bf16),
  (0x9F76ED79, .vfmin 55 27 45 7 .bf16),
  (0xA376ED79, .vfmax 55 27 45 7 .bf16),
  (0xA776C36A, .vcvt 55 27 .i8 3 3 0 .f32),
  (0xAB76DE79, .vamax 55 27 30 7 .bf16)]

theorem test_decode_v_words2 : vWords2.all (fun p => decide (decodeV p.1 = .ok p.2 ∧ encodeV p.2 = some p.1 ∧ p.2.wf = true)) = true := by decide +kernel

/-- Words of the V0 and V1 map, each put together from its row of the encoding tables. -/
def vWords3 : List (Nat × Instr) := [
  (0xAF76EAEC, .vbqpack 55 27 5 23 .bq4),
  (0xB376EAEC, .vbqunpk 55 27 5 23 .bq4),
  (0xB872CD00, .kand 7 11 13),
  (0xBC72CD00, .kor 7 11 13),
  (0xC072CD00, .kxor 7 11 13),
  (0xC472C000, .knot 7 11),
  (0xCB72C005, .kpop 55 11 .n16),
  (0xCC76ED00, .kset 7 27 45),
  (0xD376C0D5, .vmov 55 27 13 .n16),
  (0xD3704100, .vmovFromMg 55 1),
  (0xD016C200, .vmovToMg 1 27),
  (0xD372C300, .vmovMaskLo 55 11),
  (0xD372C400, .vmovMaskHi 55 11)]

theorem test_decode_v_words3 : vWords3.all (fun p => decide (decodeV p.1 = .ok p.2 ∧ encodeV p.2 = some p.1 ∧ p.2.wf = true)) = true := by decide +kernel

/-- Words of the SF map, each put together from its row of the encoding tables. -/
def sfWords : List (Nat × Instr) := [
  (0x0776C0D9, .fexp2 55 27 13 .bf16),
  (0x0B76C0D9, .flog2 55 27 13 .bf16),
  (0x0F76C0D9, .frcp 55 27 13 .bf16),
  (0x1376C0D9, .frsq 55 27 13 .bf16),
  (0x1776C0D9, .fsqrt 55 27 13 .bf16),
  (0x1B76ED7A, .frsqe 55 27 45 7),
  (0x1F76C0D9, .ftanh 55 27 13 .bf16),
  (0x2376C0D9, .fsig 55 27 13 .bf16),
  (0x2776C0D9, .ferf 55 27 13 .bf16),
  (0x2876C17C, .scalegen 7 27 1 7 .bq4),
  (0x2C76CAD0, .scld 7 27 173),
  (0x3016C000, .tbld 1 27)]

theorem test_decode_sf_words : sfWords.all (fun p => decide (decodeSf p.1 = .ok p.2 ∧ encodeSf p.2 = some p.1 ∧ p.2.wf = true)) = true := by decide +kernel

/-- Words of the MX map, each put together from its row of the encoding tables. -/
def mxWords : List (Nat × Instr) := [
  (0x0776EDC2, .mxcall 55 27 45 .bq4 1),
  (0x0B76ED02, .mxjoin 55 27 45 1),
  (0x0F76ED02, .mxpart 55 27 45 1),
  (0x1376ED02, .mxnorm 55 27 45 1),
  (0x1776ED02, .mxzero 55 27 45 1),
  (0x1B76ED92, .mxrda 55 27 45 .bf16 1),
  (0x1F76ED92, .mxwra 55 27 45 .bf16 1),
  (0x2376EDC2, .mxwb 55 27 45 .bq4 1),
  (0x2776ED02, .mxucw 55 27 45 1)]

theorem test_decode_mx_words : mxWords.all (fun p => decide (decodeMx p.1 = .ok p.2 ∧ encodeMx p.2 = some p.1 ∧ p.2.wf = true)) = true := by decide +kernel

/-- Words of the XF map, each put together from its row of the encoding tables. -/
def xfWords : List (Nat × Instr) := [
  (0x0776ED5E, .xcopy 55 27 45 23 1),
  (0x0B76ED5E, .xstore 55 27 45 23 1),
  (0x0F76ED5E, .xweight 55 27 45 23 1),
  (0x1376ED5E, .xtrans 55 27 45 23 1),
  (0x1776ED5E, .xgather 55 27 45 23 1),
  (0x1B76ED5E, .xkv 55 27 45 23 1),
  (0x1F76ED5E, .xsend 55 27 45 23 1),
  (0x2376ED5E, .xred 55 27 45 23 1),
  (0x2776ED5E, .xdecomp 55 27 45 23 1),
  (0x2B76ED5E, .xfill 55 27 45 23 1),
  (0x2F76ED5E, .xcancel 55 27 45 23 1)]

theorem test_decode_xf_words : xfWords.all (fun p => decide (decodeXf p.1 = .ok p.2 ∧ encodeXf p.2 = some p.1 ∧ p.2.wf = true)) = true := by decide +kernel
/-- The hints of the slot maps accept any field (R329, R331-R337). -/
theorem test_decode_hints :
    decodeCtl 0xE0000001 = .ok (.ctlHint 0 1) ∧ decodeS 0xE7FFFFFF = .ok (.sHint 1 0x3FFFFFF) ∧ decodeLs 0xE8000002 = .ok (.lsHint 2 2) ∧
    decodeV 0xEC00000F = .ok (.vHint 3 15) ∧ decodeSf 0xE0000000 = .ok (.sfHint 0 0) ∧ decodeMx 0xE4000000 = .ok (.mxHint 1 0) ∧
    decodeXf 0xEFFFFFFF = .ok (.xfHint 3 0x3FFFFFF) := by decide +kernel

/-- Reserved opcodes at the edges of the slot maps (R331-R337). -/
theorem test_decode_reserved :
    ([0x00000000, 0x54000000, 0xB4000000, 0xDC000000, 0xF0000000, 0xFC000000].all (fun w => decide (decodeCtl w = .error .reservedOpcode)) &&
    [0x00000000, 0x68000000, 0xB4000000, 0xF0000000].all (fun w => decide (decodeS w = .error .reservedOpcode)) &&
    [0x00000000, 0x58000000, 0xB4000000, 0xF0000000].all (fun w => decide (decodeLs w = .error .reservedOpcode)) &&
    [0x00000000, 0xB4000000, 0xD4000000, 0xF0000000].all (fun w => decide (decodeV w = .error .reservedOpcode)) &&
    [0x00000000, 0x34000000, 0xDC000000, 0xF0000000].all (fun w => decide (decodeSf w = .error .reservedOpcode)) &&
    [0x00000000, 0x28000000, 0xF0000000].all (fun w => decide (decodeMx w = .error .reservedOpcode)) &&
    [0x00000000, 0x30000000, 0xF0000000].all (fun w => decide (decodeXf w = .error .reservedOpcode))) = true := by decide +kernel

/-- The loop of R440's example, and a word of each other micro-operation by R437's layout. -/
def microWords : List (Nat × Instr) := [
  (0x2A60000000000000, .mscale 2 3), (0x0800000000000000, .mloada 0 0 0), (0x1100000000000000, .mloadb 1 0), (0x1800000000000000, .mmac),
  (0x4800FFFC00000000, .mloop 0 0xFFFC), (0x5800000000000000, .mend), (0x0F00000300000000, .mloada 7 1 1), (0x1600000100000000, .mloadb 6 1),
  (0x2000000000000000, .mmact), (0x3000000000000000, .mbcast), (0x38007FFF00000000, .mskip 0x7FFF), (0x43A0000000000000, .mnext 3 5),
  (0x4818800000000000, .mloop 3 0x8000), (0x500000C000000000, .mnorm 0xC0), (0x6000000000000000, .msync)]

theorem test_decode_micro : microWords.all (fun p => decide (decodeMicro p.1 = .ok p.2 ∧ encodeMicro p.2 = some p.1 ∧ p.2.wf = true)) = true := by decide +kernel

/-- A primary word from its fields (R91). -/
def primary (op xn qd qa qb ev fl imm : Nat) : Nat :=
  op * 2 ^ 58 + xn * 2 ^ 56 + qd * 2 ^ 51 + qa * 2 ^ 46 + qb * 2 ^ 41 + ev * 2 ^ 35 + fl * 2 ^ 32 + imm

/-- The arithmetic of R101, by function code. -/
noncomputable def arithWords : List (Nat × Instr) :=
  [Instr.streamAdd 31 1 2, .streamSub 31 1 2, .streamMul 31 1 2, .streamMulhu 31 1 2, .streamAnd 31 1 2, .streamOr 31 1 2, .streamXor 31 1 2,
   .streamShl 31 1 2, .streamShr 31 1 2, .streamSar 31 1 2, .streamSlt 31 1 2, .streamSltu 31 1 2, .streamSeq 31 1 2, .streamMin 31 1 2,
   .streamMax 31 1 2, .streamMinu 31 1 2, .streamMaxu 31 1 2].zipIdx.map (fun p => (primary 0b001000 0 31 1 2 p.2 0 0, p.1)) ++
  [Instr.streamAddi 31 1 63, .streamSubi 31 1 63, .streamMuli 31 1 63, .streamMulhui 31 1 63, .streamAndi 31 1 63, .streamOri 31 1 63, .streamXori 31 1 63,
   .streamShli 31 1 63, .streamShri 31 1 63, .streamSari 31 1 63, .streamSlti 31 1 63, .streamSltui 31 1 63, .streamSeqi 31 1 63, .streamMini 31 1 63,
   .streamMaxi 31 1 63, .streamMinui 31 1 63, .streamMaxui 31 1 63].zipIdx.map (fun p => (primary 0b001001 0 31 1 0 p.2 0 63, p.1))

theorem test_decode_stream_arithmetic :
    ∀ p ∈ arithWords, decodeStream p.1 [] = .ok p.2 ∧ encodeStream p.2 = some [p.1] := by decide +kernel

/-- The other stream instructions of one word, each put together from its row of R93 and its own rule. -/
noncomputable def streamWords : List (Nat × Instr) := [
  (primary 0b000001 0 0 0 0 0 0 0xFFFFFFFF, .streamBr 0xFFFFFFFF), (0x08014C02FFFFFFFD, .brc .lt 5 6 0xFFFFFFFD),
  (primary 0b000010 0 0 31 30 0 5 1, .brc .geu 31 30 1), (primary 0b000011 0 9 0 0 0 0 4, .streamCall 9 4), (primary 0b000100 0 0 9 0 0 0 0, .streamRet 9),
  (primary 0b000101 0 0 0 0 0 0 0, .streamEnd), (primary 0b000110 0 0 0 0 0 0 7, .seth 7), (primary 0b000110 0 0 0 0 0 1 0, .sethRemove),
  (primary 0b000111 0 0 0 0 0 0 0, .streamEret), (primary 0b000111 0 0 0 0 0 1 0, .streamEretSkip),
  (primary 0b001010 0 6 0 0 0 0 0x80000000, .streamMovi 6 0x80000000), (primary 0b001011 0 6 0 0 0 0 5, .streamMovhi 6 5),
  (primary 0b001100 0 6 0 0 16 0 0, .srd 6 16), (primary 0b001101 0 0 0 0 0 0 0, .nop), (primary 0b010000 0 3 4 0 0 7 8, .ldq 3 4 3 1 8),
  (primary 0b010001 0 0 4 5 0 3 8, .stq 4 5 3 8), (primary 0b010010 0 0 0 0 5 3 0, .fence 5 1 1), (primary 0b010011 0 3 4 5 0 0 0, .waitmb 3 4 5),
  (primary 0b010100 0 0 4 0 0 0 2, .irq 4 2), (primary 0b011010 0 0 4 0 63 0 1, .waite 4 63 1), (primary 0b011011 0 3 0 0 5 0 0xFFFF, .sige 3 0 5 0xFFFF),
  (primary 0b011011 0 0 4 0 5 1 1, .sigeRemote 4 5 1), (primary 0b011100 0 0 4 0 0 0 1023, .shpub 4 1023), (primary 0b011100 0 0 0 0 0 1 1023, .shpubClr 1023),
  (primary 0b011101 0 0 4 0 3 1 0, .coll 4 3 1), (primary 0b011110 0 0 4 0 0 0 255, .deadline 4 255), (primary 0b011111 0 0 0 0 0 0 3, .prio 3),
  (primary 0b100000 0 3 4 0 0 0 0, .tdecl 3 4), (primary 0b100001 0 0 4 0 0 0 0, .tfree 4), (primary 0b100010 0 0 4 5 0 1 0, .tpin 4 5 1),
  (primary 0b100011 0 0 4 5 0 0 0, .tunpin 4 5), (primary 0b100100 0 0 4 0 0 0 0xFFFFFFFE, .trecOpen 4 0x7FFFFFFF), (primary 0b100101 0 0 0 0 0 0 0, .trecClose),
  (primary 0b100110 0 0 4 5 0 0 0, .tuse 4 5), (primary 0b100111 0 0 4 0 0 0 15, .tprot 4 15), (primary 0b101000 0 0 24 0 0 0 (8 * 256 + 255), .streamMacro 255 8 24),
  (primary 0b101001 0 0 4 0 0 0 0, .mload 4), (primary 0b110111 0 31 0 0 0 0 1, .streamHint 7 0 (31 * 2 ^ 51 + 1))]

theorem test_decode_stream : ∀ p ∈ streamWords, decodeStream p.1 [] = .ok p.2 ∧ encodeStream p.2 = some [p.1] ∧ p.2.wf = true := by decide +kernel

/-- R114's example, and a LAUNCHP with every field of R116 in use. -/
theorem test_decode_launch :
    let none_ : LaunchIn := { evt := 0, valid := 0, qt := 0 }
    let ins : LaunchIns := { i0 := { evt := 1, valid := 1, qt := 10 }, i1 := none_, i2 := none_, i3 := none_ }
    decodeStream 0x6101001900000000 [0xA41] = .ok (.launch 4 3 1 ins) ∧
    decodeStream (primary 0b011001 2 0 4 5 3 0 0) [0xA41, 255 + 3 * 2 ^ 8 + 2 * 2 ^ 10 + 9 * 2 ^ 12 + 1023 * 2 ^ 20 + 65535 * 2 ^ 30] =
      .ok (.launchp 4 5 3 0 ins { site := 255, mode := 3, dim := 2, pct := 9, slot := 1023, fixv := 65535 }) := by decide +kernel

/-- Reserved opcodes, fields and operand values of stream words, and wrong counts of extension words (R91-R93). -/
theorem test_decode_stream_refused :
    decodeStream 0 [] = .error .reservedOpcode ∧ decodeStream (primary 0b101010 0 0 0 0 0 0 0) [] = .error .reservedOpcode ∧
    decodeStream (primary 0b111000 0 0 0 0 0 0 0) [] = .error .reservedOpcode ∧ decodeStream (primary 0b011000 0 0 4 0 0 0 0) [] = .error .wordCount ∧
    decodeStream (primary 0b000001 0 1 0 0 0 0 0) [] = .error .reservedField ∧ decodeStream (primary 0b001001 0 1 1 0 7 0 64) [] = .error .reservedField ∧
    decodeStream (primary 0b001100 0 6 0 0 17 0 0) [] = .error .operandValue := by decide +kernel

/-- One ill-formed term for each condition of `Instr.wf`; each is refused. -/
theorem test_wf_refuses : [Instr.srd 1 17, .fence 1 0 0, .fence 6 0 0, .fence 2 0 1, .launchp 0 0 0 0 ⟨⟨0, 0, 0⟩, ⟨0, 0, 0⟩, ⟨0, 0, 0⟩, ⟨0, 0, 0⟩⟩ ⟨0, 0, 3, 0, 0, 0⟩,
    .streamMacro 0 9 0, .streamMacro 0 8 25, .drain 6, .fenceT 1, .fenceT 6, .stg 0 7 0, .shf 0 7 0, .mpw 0 7 0, .vlds 0 0 0 0 .i16, .vsts 0 0 0 0 .bf16, .vldx 0 0 0 0 .cb3,
    .vstx 0 0 0 0 .e4m3, .ldl 0 0 3 1, .ldl 0 0 0 0].all (fun i => !i.wf) = true := by decide +kernel

theorem test_wf_refuses_memory : [Instr.amoAdd 0 0 0 0, .amoAnd 0 0 0 0, .amoOr 0 0 0 0, .amoXor 0 0 0 0, .amoMin 0 0 0 0, .amoMax 0 0 0 0, .amoMinu 0 0 0 0, .amoMaxu 0 0 0 0,
    .amoSwap 0 0 0 0, .amoFadd 0 0 0, .cas 1 0 0 1, .cas 0 0 0 0, .ldAcq 0 0 0 6, .stRel 0 0 0 7].all (fun i => !i.wf) = true := by decide +kernel

theorem test_wf_refuses_vector : [Instr.vadd 0 0 0 0 .f32, .vsub 0 0 0 0 .bq8, .vmul 0 0 0 0 .f16, .vmulh 0 0 0 0 .bf16, .vmin 0 0 0 0 .f32, .vmax 0 0 0 0 .f32, .vabs 0 0 0 .n8,
    .vand 0 0 0 0 .f32, .vor 0 0 0 0 .f32, .vxor 0 0 0 0 .f32, .vandn 0 0 0 0 .f32, .vshl 0 0 0 0 .f32, .vshr 0 0 0 0 .f32, .vsar 0 0 0 0 .f32, .vadds 0 0 0 0 .f32, .vsubs 0 0 0 0 .f32,
    .vcmpeq 0 0 0 0 .bq8, .vcmpne 0 0 0 0 .bq4, .vcmplt 0 0 0 0 .cb3, .vcmple 0 0 0 0 .e5m2, .vsel 0 0 0 0 .i8, .vsel 0 0 0 1 .bq8, .vbcast 0 0 0 .bq8, .vextr 0 0 0 .bq8, .vinsr 0 0 0 .bq8,
    .vclmulLo 0 0 0 0 .i32, .vclmulHi 0 0 0 0 .n32].all (fun i => !i.wf) = true := by decide +kernel

theorem test_wf_refuses_vector_more : [Instr.vscanAdd 0 0 0 .bq8, .vscanMin 0 0 0 .bq8, .vscanMax 0 0 0 .bq8, .vscanXor 0 0 0 .f32, .vscanAnd 0 0 0 .f32, .vscanOr 0 0 0 .f32, .vreduceAdd 0 0 0 .bq8,
    .vreduceMin 0 0 0 .bq8, .vreduceMax 0 0 0 .bq8, .vreduceXor 0 0 0 .f32, .vreduceAnd 0 0 0 .f32, .vreduceOr 0 0 0 .f32, .vperm 0 0 0 0 .bq8, .vcompress 0 0 0 .bq8, .vexpand 0 0 0 .bq8,
    .vmergeLo 0 0 0 0 .i32, .vmergeHi 0 0 0 0 .i32, .vmergekv 0 0 0 0 .i32, .vfadd 0 0 0 0 .i32, .vfsub 0 0 0 0 .i32, .vfmul 0 0 0 0 .i32, .vfma 0 0 0 0 .i32, .vfmin 0 0 0 0 .i32, .vfmax 0 0 0 0 .i32,
    .vcvt 0 0 .bq8 0 0 0 .f32, .vcvt 0 0 .i8 0 4 0 .i32, .vcvt 0 0 .i8 1 0 0 .i32, .vcvt 0 0 .f32 1 0 0 .f16, .vcvt 0 0 .i32 0 0 1 .f32, .vcvt 0 0 .f16 0 0 1 .f32].all (fun i => !i.wf) = true := by decide +kernel

theorem test_wf_refuses_rest : [Instr.vamax 0 0 0 0 .i32, .vamax 0 0 32 0 .f32, .vamax 0 0 31 0 .f16, .vbqpack 0 0 0 0 .f32, .vbqunpk 0 0 0 0 .f32, .kpop 0 0 .bq8, .vmov 0 0 0 .bq8, .fexp2 0 0 0 .i32, .flog2 0 0 0 .i32,
    .frcp 0 0 0 .i32, .frsq 0 0 0 .i32, .fsqrt 0 0 0 .i32, .ftanh 0 0 0 .i32, .fsig 0 0 0 .i32, .ferf 0 0 0 .i32, .scalegen 0 0 0 0 .f32, .mxcall 0 0 0 .i16 0, .mxrda 0 0 0 .i8 0, .mxwra 0 0 0 .f16 0, .mxwb 0 0 0 .f32 0,
    .mnorm 0x41, .mnorm 0xBF].all (fun i => !i.wf) = true := by decide +kernel

/-! ### States that meet the hypotheses: cores -/

/-- The machine at reset, with empty copies of the flash: its images are open values, which nothing can compare. -/
def base : State :=
  { State.reset with mod := { State.reset.mod with trust := { State.reset.mod.trust with flash := [], booted := [] } } }

/-- Core 0 runs a task at the start of its image, with a tensor of 256 bytes as its operand and given scalar registers. -/
def lone (l : List (Nat × Word)) (f : Body → Body) : State :=
  let op : Operand := { ptr := globalPtr 1 0, len := 256, rd := true, wr := true, retr := false }
  let im : ImageInfo := { handle := 1, gen := 0, codeOff := 0, codeLen := 64, constOff := 0, constLen := 16 }
  let s := updBody base 0 (fun b => f { b with task := some { placedTask with launch := 7, image := some im }, r := { b.r with pc := globalPtr 1 0, s := { cells := l } }, hdrLen := 8 })
  let s := updRec (updLaunch s 7 (fun x => { x with ops := [op], state := .running })) 1 (fun r => { r with state := .hbm, bytes := 256 })
  updRec s 2 (fun r => { r with state := .hbm, bytes := 256 })

/-- The four cores of cluster 0 run a task as one lockstep group. -/
def joined (l : List (Nat × Word)) (f : Body → Body) : State :=
  let k : Task := { placedTask with group := true }
  [0, 1, 2, 3].foldl (fun s q => updBody s q (fun b => f { b with task := some k, r := { b.r with pc := globalPtr 1 0, s := { cells := l } }, hdrLen := 8 })) base

/-- Whether two outcomes are the same next state. -/
def sameNext (a b : Host.Outcome State Fault Refusal) : Bool :=
  match a, b with
  | .next s, .next t => decide (s = t)
  | _, _ => false

theorem eq_of_sameNext {a b : Host.Outcome State Fault Refusal} (h : sameNext a b = true) : a = b := by
  cases a <;> cases b <;> simp_all [sameNext]

/-- A provisional task's core. -/
def provisional (b : Body) : Body := { b with task := b.task.map (fun t => { t with prov := true }) }

/-- A checkpoint bundle whose checkpoint has been taken. -/
def atCkpt (b : Body) : Body := { b with hdrCkpt := true, ckptDone := true }

/-- A held entry of a commit queue. -/
def someEntry : CEntry := { body := .barrier 0, pc := 0, vcc := 0 }

/-- A store of core 0 to its own scratchpad that has not performed. -/
def ownStore : Packet :=
  { id := 0, lane := 0, src := .core 0, dst := .core 0, core := 0, after := [], lackUs := none, body := .access (2 ^ 60) (.flat (spadKey 0 0)) (.store [1] [true]) none someEntry }

/-- The same core behind a store of its own. -/
def behind (l : List (Nat × Word)) : State := { lone l id with packets := [ownStore], nextId := 1 }

/-- A provisional task whose operand may be retracted. -/
def growing (l : List (Nat × Word)) : State :=
  updRec (updLaunch (lone l (fun b => provisional (atCkpt b))) 7 (fun x => { x with ops := x.ops.map (fun p => { p with retr := true }) })) 1
    (fun r => { r with growv := true, rank := 1, dims := [128, 0, 0, 0, 0] })

theorem test_hypotheses_of_bundles : Ready (lone [] id) ∧ Ready (joined [] id) ∧ Ready (lone [] atCkpt) ∧ Ready (lone [] provisional) := by
  refine ⟨⟨?_, ?_, ?_, ?_⟩, ⟨?_, ?_, ?_, ?_⟩, ⟨?_, ?_, ?_, ?_⟩, ⟨?_, ?_, ?_, ?_⟩⟩ <;> decide +kernel

theorem no_injection_of {s : State} (h : s.mod.errinj = .empty) : NoInjection s := by
  intro q; rw [h]; show bitAt 0 0 = false; decide

theorem test_no_injection : NoInjection (lone [] id) := no_injection_of (by decide +kernel)

theorem test_hypotheses_ResultsLeaveTheRest :
    Ready (lone [(1, 5), (2, 7)] id) ∧ Gives (.add 3 1 2) (lone [(1, 5), (2, 7)] id) (.s 3) 1 (fun _ _ => 12) ∧ 1 ∉ issuers (lone [(1, 5), (2, 7)] id) :=
  ⟨⟨by decide +kernel, by decide +kernel, by decide +kernel, by decide +kernel⟩, eq_of_sameNext (by decide +kernel), by decide +kernel⟩

/-- A landing whose data has arrived. -/
def landed (due : Nat) (bad : Bool) : Landing := { id := 0, dst := .s 1, ptr := 0, n := 8, due := due, resp := none, data := some (5, bad), held := false }

/-- A core's body with one result or landing in flight. -/
def inFlight (l : List Res) (m : List Landing) : Body := let b := (coreAt (lone [] id) 0).b; { b with r := { b.r with vcc := 9, res := l, lands := m } }

theorem test_hypotheses_ResultsFallDue :
    let x := fun (due : Nat) => ({ dst := .s 1, val := 5, due := due } : Res)
    (inFlight [x 9] []).r.res = [x 9] ∧ (x 9).due ≤ (inFlight [x 9] []).r.vcc ∧ (inFlight [x 10] []).r.vcc < (x 10).due ∧
    (inFlight [] [landed 9 true]).r.lands = [landed 9 true] ∧ (landed 9 true).data = some (5, true) ∧ (inFlight [] [landed 9 true]).detected = none ∧
    (landed 9 false).data = some (5, false) ∧ (inFlight [] [landed 10 false]).r.vcc < (landed 10 false).due := by decide +kernel

theorem test_hypotheses_PointersAndShadows :
    let s := lone [(1, globalPtr 1 0), (2, 2 ^ 40 - 1), (3, 1)] id
    Ready s ∧ (∀ q ∈ issuers s, fieldW (sReg (settled s) q 2) 40 24 = 0 ∧ (sReg (settled s) q 1).getLsbD 63 = true ∧
      ∃ x ∈ taskOps (settled s) q, opHandle x = fieldW (sReg (settled s) q 1) 40 23) ∧
    (∀ q ∈ issuers s, ∃ x ∈ taskOps (settled s) q, opHandle x = fieldW (sReg (settled s) q 3) 0 23) :=
  ⟨⟨by decide +kernel, by decide +kernel, by decide +kernel, by decide +kernel⟩, by decide +kernel, by decide +kernel⟩

theorem test_hypotheses_of_element_types :
    Fmt.i8.isInt = true ∧ Fmt.n64.isInt = true ∧ Fmt.n16.isPlain = true ∧ Fmt.i64.is64 = true ∧ Fmt.bf16.isFlt = true ∧ Fmt.i16.isSigned = true ∧
    (Instr.vcvt 0 0 .i8 3 3 0 .f32).wf = true ∧ (Instr.vcvt 0 0 .f32 0 1 0 .f16).wf = true ∧ (Instr.vamax 0 0 30 0 .f16).wf = true ∧
    (Instr.vbqpack 0 0 0 63 .bq8).wf = true ∧ (Instr.vbqunpk 0 0 7 0 .bq4).wf = true := by decide

theorem test_hypotheses_ConversionsBlocksAndScales :
    let s := lone [(1, 2 ^ 60 + 0x380000 - 128 - 128 * 511), (2, 2 ^ 60 + 0x37FFF0)] id
    Ready s ∧ (∀ q ∈ issuers s, tableStall (settled s) q = false ∧
      access (settled s) q (sReg (settled s) q 1 + 128 * (511 : BitVec 10).signExtend 64) 128 128 winScale false = .ok (.flat (spadKey 0 0x37FF80)) ∧
      bankReady (settled s) (.flat (spadKey 0 0x37FF80)) 128 = true ∧ poisoned (seen (settled s) q) (.flat (spadKey 0 0x37FF80)) 128 = false ∧
      access (settled s) q (sReg (settled s) q 2) 16 16 winTable false = .ok (.flat (spadKey 0 0x37FFF0)) ∧ winOf (sReg (settled s) q 2) ≠ 8 ∧
      bankReady (settled s) (.flat (spadKey 0 0x37FFF0)) 16 = true ∧ tabRefd (settled s) q 1 = false) :=
  ⟨⟨by decide +kernel, by decide +kernel, by decide +kernel, by decide +kernel⟩, by decide +kernel⟩

theorem test_hypotheses_LoadsFromOwnStorages :
    let s := lone [(1, 0x4000 - 8), (2, 2 ^ 60 + 0x380000 - 128), (3, 2 ^ 60), (4, 8)] id
    Ready s ∧ (∀ q ∈ issuers s,
      access (settled s) q (sReg (settled s) q 1) 8 8 winLocal false = .ok (.flat (spadKey 0 (privOff 0 + 0x3FF8))) ∧ bankReady (settled s) (.flat (spadKey 0 (privOff 0 + 0x3FF8))) 8 = true ∧
      poisoned (seen (settled s) q) (.flat (spadKey 0 (privOff 0 + 0x3FF8))) 8 = false ∧
      access (settled s) q (sReg (settled s) q 2) 128 8 winLocal false = .ok (.flat (spadKey 0 0x37FF80)) ∧ bankReady (settled s) (.flat (spadKey 0 0x37FF80)) 128 = true ∧
      poisoned (seen (settled s) q) (.flat (spadKey 0 0x37FF80)) 128 = false ∧
      ∀ j < lanes .i64, active (settled s) q 0 64 j = true → access (settled s) q (sReg (settled s) q 3 + BitVec.ofNat 64 j * sReg (settled s) q 4) 8 8 winLocal false = .ok (.flat (spadKey 0 (8 * j))) ∧
        bankReady (settled s) (.flat (spadKey 0 (8 * j))) 8 = true ∧ poisoned (seen (settled s) q) (.flat (spadKey 0 (8 * j))) 8 = false ∧
        access (settled s) q (sReg (settled s) q 3 + BitVec.ofNat 64 (vElem (settled s) q 0 .i64 j)) 8 8 winLocal false = .ok (.flat (spadKey 0 0))) :=
  ⟨⟨by decide +kernel, by decide +kernel, by decide +kernel, by decide +kernel⟩, by decide +kernel⟩

theorem test_hypotheses_StoresAndScatters :
    let s := lone [(1, 0x4000 - 8), (2, 2 ^ 60 + 0x380000 - 128), (3, 2 ^ 60), (4, 8)] id
    Ready s ∧ (∀ q ∈ issuers s,
      access (settled s) q (sReg (settled s) q 1) 8 8 winAll true = .ok (.flat (spadKey 0 (privOff 0 + 0x3FF8))) ∧ winOf (sReg (settled s) q 1) ≠ 2 ∧
      bankReady (settled s) (.flat (spadKey 0 (privOff 0 + 0x3FF8))) 8 = true ∧ ownPend (settled s) q = [] ∧
      access (settled s) q (sReg (settled s) q 2) 128 8 winAll true = .ok (.flat (spadKey 0 0x37FF80)) ∧ winOf (sReg (settled s) q 2) ≠ 2 ∧ bankReady (settled s) (.flat (spadKey 0 0x37FF80)) 128 = true ∧
      ∀ j < lanes .i64, active (settled s) q 0 64 j = true → access (settled s) q (sReg (settled s) q 3 + BitVec.ofNat 64 j * sReg (settled s) q 4) 8 8 winLocal true = .ok (.flat (spadKey 0 (8 * j))) ∧
        bankReady (settled s) (.flat (spadKey 0 (8 * j))) 8 = true) :=
  ⟨⟨by decide +kernel, by decide +kernel, by decide +kernel, by decide +kernel⟩, by decide +kernel⟩

theorem test_hypotheses_HeldAndPostedStores :
    let s := lone [(1, globalPtr 1 248), (2, 2 * 2 ^ 60 + 2 ^ 22), (3, globalPtr 1 128)] (fun b => { b with commitQ := List.replicate 255 someEntry })
    Ready s ∧ (∀ q ∈ issuers s,
      access (settled s) q (sReg (settled s) q 1) 8 8 winAll true = .ok (.glob 1 248) ∧ isHeldWin (sReg (settled s) q 1) = true ∧ isProv (settled s) q = false ∧ (coreAt (settled s) q).b.commitQ.length < 256 ∧
      access (settled s) q (sReg (settled s) q 2) 8 8 winAll true = .ok (.flat (spadKey 1 0)) ∧ winOf (sReg (settled s) q 2) = 2 ∧
      access (settled s) q (sReg (settled s) q 3) 128 8 winAll true = .ok (.glob 1 128) ∧ access (settled s) q (sReg (settled s) q 2) 128 8 winAll true = .ok (.flat (spadKey 1 0))) :=
  ⟨⟨by decide +kernel, by decide +kernel, by decide +kernel, by decide +kernel⟩, by decide +kernel⟩

theorem test_hypotheses_LandingLoads :
    let s := lone [(1, globalPtr 1 128), (2, 2 ^ 60 + 4)] (fun b => { b with r := { b.r with lands := List.replicate 255 { landed 99 false with data := none } } })
    Ready s ∧ (Instr.ldl 3 1 2 4095).wf = true ∧ (Instr.ldl 3 2 1 1).wf = true ∧
    (∀ q ∈ issuers s, access (settled s) q (sReg (settled s) q 1) 128 8 winAll false = .ok (.glob 1 128) ∧ isOwn q (.glob 1 128) = false ∧
      access (settled s) q (sReg (settled s) q 2) 4 4 winAll false = .ok (.flat (spadKey 0 4)) ∧ isOwn q (.flat (spadKey 0 4)) = true ∧
      landEntries (settled s) q < landLimit ∧ outstanding (settled s) q < 8192) :=
  ⟨⟨by decide +kernel, by decide +kernel, by decide +kernel, by decide +kernel⟩, by decide +kernel⟩

theorem test_hypotheses_AtomicsRequestAndAnswer :
    let l : List (Nat × Word) := [(1, globalPtr 1 248), (2, 2 * 2 ^ 60 + 2 ^ 22)]
    let s := lone l atCkpt
    let t := lone l (fun b => provisional (atCkpt { b with holdQ := List.replicate 63 someEntry }))
    Ready s ∧ Ready t ∧ (∀ q ∈ issuers s,
      access (settled s) q (sReg (settled s) q 2) 8 8 winAtomic true = .ok (.flat (spadKey 1 0)) ∧ winOf (sReg (settled s) q 2) ≠ 8 ∧ landEntries (settled s) q < landLimit ∧
      outstanding (settled s) q < 8192 ∧ access (settled s) q (sReg (settled s) q 1) 8 8 winAtomic true = .ok (.glob 1 248) ∧ winOf (sReg (settled s) q 1) = 8 ∧
      (coreAt (settled s) q).b.hdrCkpt = true ∧ keptAmo (settled s) q 3 = none ∧ (isProv (settled s) q && !locRetr (settled s) q (.glob 1 248) 8) = false) ∧
    (∀ q ∈ issuers t, access (settled t) q (sReg (settled t) q 1) 8 8 winAtomic true = .ok (.glob 1 248) ∧ keptAmo (settled t) q 3 = none ∧ isProv (settled t) q = true ∧
      locRetr (settled t) q (.glob 1 248) 8 = false ∧ (coreAt (settled t) q).b.holdQ.length < 64) ∧ 2 ^ 64 - 1 < 2 ^ 64 :=
  ⟨⟨by decide +kernel, by decide +kernel, by decide +kernel, by decide +kernel⟩, ⟨by decide +kernel, by decide +kernel, by decide +kernel, by decide +kernel⟩, by decide +kernel⟩

theorem test_hypotheses_ReductionsPerform :
    let s := lone [(1, globalPtr 1 248), (2, 2 ^ 60 + 0x37FFF8), (3, 2 * 2 ^ 60)] id
    Ready s ∧ issuers s = [0] ∧ (∀ q ∈ issuers s,
      access (settled s) q (sReg (settled s) q 1) 8 8 winAtomic true = .ok (.glob 1 248) ∧ winOf (sReg (settled s) q 1) = 8 ∧ isProv (settled s) q = false ∧
      access (settled s) q (sReg (settled s) q 2) 8 8 winAtomic true = .ok (.flat (spadKey 0 0x37FFF8)) ∧ bankReady (settled s) (.flat (spadKey 0 0x37FFF8)) 8 = true ∧ ownPend (settled s) q = [] ∧
      access (settled s) q (sReg (settled s) q 3) 4 4 winAtomic true = .ok (.flat (spadKey 0 0)) ∧ winOf (sReg (settled s) q 3) = 2) :=
  ⟨⟨by decide +kernel, by decide +kernel, by decide +kernel, by decide +kernel⟩, by decide +kernel⟩

theorem test_hypotheses_AcquireAndRelease :
    let s := lone [(1, globalPtr 1 248), (2, 2 ^ 60), (3, 0x3F00000002)] id
    Ready s ∧ (∀ q ∈ issuers s,
      access (settled s) q (sReg (settled s) q 1) 8 8 winAtomic false = .ok (.glob 1 248) ∧ bankReady (settled s) (.glob 1 248) 8 = true ∧
      poisonBeyond (settled s) (.glob 1 248) 8 (heldBytes (settled s) q (.glob 1 248) 8) = false ∧
      locGone (settled s) (.glob 1 248) = false ∧ pendingTo (settled s) q (.glob 1 248) 8 = false ∧
      access (settled s) q (sReg (settled s) q 1) 8 8 winRelease true = .ok (.glob 1 248) ∧ isHeldWin (sReg (settled s) q 1) = true ∧ isProv (settled s) q = false ∧
      access (settled s) q (sReg (settled s) q 2) 8 8 winRelease true = .ok (.flat (spadKey 0 0)) ∧ isHeldWin (sReg (settled s) q 2) = false ∧
      access (settled s) q (sReg (settled s) q 1) 8 8 winGlobal true = .ok (.glob 1 248) ∧ (sReg (settled s) q 0).toNat ≤ leNat (overlay (settled s) q (.glob 1 248) 8) ∧
      (sReg (settled s) q 3).getLsbD 23 = false ∧ fieldW (sReg (settled s) q 3) 38 26 = 0 ∧ fieldW (sReg (settled s) q 3) 32 6 = 63 ∧ (ctx (settled s) 63).part.toNat = taskPart (settled s) q) :=
  ⟨⟨by decide +kernel, by decide +kernel, by decide +kernel, by decide +kernel⟩, by decide +kernel⟩

theorem test_hypotheses_BuffersSpillsAndPrefetch :
    let buf : Body → Body := fun b => { b with r := { b.r with bufs := { cells := [(15, 0x100000001)] } } }
    let s := lone [(1, 2 ^ 60 + 0x37FFF0)] buf
    let t := joined [] buf
    Ready s ∧ NoInjection s ∧ Ready t ∧ (∀ q ∈ issuers s, isGroup (settled s) q = false ∧ ((coreAt (settled s) (clusterCore (coreCluster q) 0)).b.r.bufs.get 0 15).getLsbD 0 = true ∧
      fieldW ((coreAt (settled s) (clusterCore (coreCluster q) 0)).b.r.bufs.get 0 15) 1 2 = coreCic q ∧ isProv (settled s) q = false ∧
      access (settled s) q (sReg (settled s) q 1) 16 16 winSync true = .ok (.flat (spadKey 0 0x37FFF0)) ∧ bankReady (settled s) (.flat (spadKey 0 0x37FFF0)) 8 = true ∧ slotBusy (settled s) q 1023 = false) ∧
    (∀ q ∈ issuers t, isGroup (settled t) q = true ∧ ((coreAt (settled t) (clusterCore (coreCluster q) 0)).b.r.bufs.get 0 15).getLsbD 0 = true) :=
  ⟨⟨by decide +kernel, by decide +kernel, by decide +kernel, by decide +kernel⟩, no_injection_of (by decide +kernel), ⟨by decide +kernel, by decide +kernel, by decide +kernel, by decide +kernel⟩, by decide +kernel⟩


theorem test_hypotheses_of_accesses_behind_others :
    let s := behind [(1, 2 ^ 60 + 8), (2, 2 ^ 60), (3, 8), (4, 2 ^ 60 + 16)]
    Ready s ∧ issuers s = [0] ∧ ownPend (settled s) 0 = [ownStore] ∧ winOf (sReg (settled s) 0 1) = 1 ∧
    access (settled s) 0 (sReg (settled s) 0 1) 8 8 winAll true = .ok (.flat (spadKey 0 8)) ∧ bankReady (settled s) (.flat (spadKey 0 8)) 8 = true ∧
    access (settled s) 0 (sReg (settled s) 0 1) 8 8 winAtomic true = .ok (.flat (spadKey 0 8)) ∧ access (settled s) 0 (sReg (settled s) 0 1) 8 8 winRelease true = .ok (.flat (spadKey 0 8)) ∧
    access (settled s) 0 (sReg (settled s) 0 4) 16 16 winSync true = .ok (.flat (spadKey 0 16)) ∧
    (∀ j < lanes .i64, access (settled s) 0 (sReg (settled s) 0 2 + BitVec.ofNat 64 j * sReg (settled s) 0 3) 8 8 winLocal true = .ok (.flat (spadKey 0 (8 * j))) ∧
      bankReady (settled s) (.flat (spadKey 0 (8 * j))) 8 = true) :=
  ⟨⟨by decide +kernel, by decide +kernel, by decide +kernel, by decide +kernel⟩, by decide +kernel⟩

theorem test_hypotheses_of_retractable_accesses :
    let s := growing [(1, globalPtr 1 248), (2, globalPtr 1 128)]
    Ready s ∧ (∀ q ∈ issuers s, access (settled s) q (sReg (settled s) q 1) 8 8 winAll true = .ok (.glob 1 248) ∧ isHeldWin (sReg (settled s) q 1) = true ∧ isProv (settled s) q = true ∧
      (isProv (settled s) q && !locRetr (settled s) q (.glob 1 248) 8) = false ∧ (coreAt (settled s) q).b.commitQ.length < 256 ∧
      access (settled s) q (sReg (settled s) q 1) 8 8 winAtomic true = .ok (.glob 1 248) ∧ (coreAt (settled s) q).b.hdrCkpt = true ∧ keptAmo (settled s) q 3 = none ∧
      access (settled s) q (sReg (settled s) q 2) 128 8 winAll true = .ok (.glob 1 128) ∧ (isProv (settled s) q && !locRetr (settled s) q (.glob 1 128) 128) = false) :=
  ⟨⟨by decide +kernel, by decide +kernel, by decide +kernel, by decide +kernel⟩, by decide +kernel⟩

theorem test_hypotheses_of_global_tables :
    let s := lone [(1, globalPtr 1 240)] id
    Ready s ∧ (∀ q ∈ issuers s, access (settled s) q (sReg (settled s) q 1) 16 16 winTable false = .ok (.glob 1 240) ∧ winOf (sReg (settled s) q 1) = 8 ∧
      outstanding (settled s) q < 8192 ∧ tabRefd (settled s) q 1 = false) :=
  ⟨⟨by decide +kernel, by decide +kernel, by decide +kernel, by decide +kernel⟩, by decide +kernel⟩
theorem test_hypotheses_ControlTransfers :
    let s := lone [(2, globalPtr 1 60)] id
    Ready s ∧ isCodeAddr (settled s) (lead s) ((coreAt (settled s) (lead s)).b.r.pc + 4 * (15 : BitVec 26).signExtend 64) = true ∧
    isCodeAddr (settled s) (lead s) ((coreAt (settled s) (lead s)).b.r.pc + 4 * (16 : BitVec 26).signExtend 64) = false ∧
    sReg (settled s) (lead s) 1 = 0 ∧ sReg (settled s) (lead s) 2 ≠ 0 ∧ isCodeAddr (settled s) (lead s) (sReg (settled s) (lead s) 2) = true ∧
    isCodeAddr (settled s) (lead s) (sReg (settled s) (lead s) 1) = false :=
  ⟨⟨by decide +kernel, by decide +kernel, by decide +kernel, by decide +kernel⟩, by decide +kernel⟩

theorem test_hypotheses_LoopsRepeat :
    let s := lone [(2, 2 ^ 32)] id
    let stop := fun (e : BitVec 12) => (coreAt (settled s) (lead s)).b.r.pc + 4 * e.setWidth 64
    Ready s ∧ isCodeAddr (settled s) (lead s) (stop 16) = false ∧ isCodeAddr (settled s) (lead s) (stop 15) = true ∧
    isCodeAddr (settled s) (lead s) (stop 14 + BitVec.ofNat 64 (bundleLen (codeWord (settled s) (lead s) (stop 14)))) = true ∧
    (sReg (settled s) (lead s) 2).toNat % 2 ^ 32 = 0 ∧ (coreAt (settled s) (lead s)).b.taken = none :=
  ⟨⟨by decide +kernel, by decide +kernel, by decide +kernel, by decide +kernel⟩, by decide +kernel⟩

theorem test_hypotheses_TaskEndsAndHandlerReturns :
    let s := lone [] id
    let t := lone [] (fun b => { b with inHandler := true, resumePc := globalPtr 1 8 })
    Ready s ∧ (∀ q ∈ issuers s, liveToks (settled s) q = [] ∧ faultTok (settled s) q = none ∧ (coreAt (settled s) q).b.check = none ∧
      (coreAt (settled s) q).b.r.lands.all (fun l => l.data.isSome) = true) ∧ (coreAt (settled s) (lead s)).b.inHandler = false ∧
    Ready t ∧ (coreAt (settled t) (lead t)).b.inHandler = true :=
  ⟨⟨by decide +kernel, by decide +kernel, by decide +kernel, by decide +kernel⟩, by decide +kernel, by decide +kernel,
    ⟨by decide +kernel, by decide +kernel, by decide +kernel, by decide +kernel⟩, by decide +kernel⟩

theorem test_hypotheses_TrapEntersHandler :
    let s := lone [] (fun b => { b with trapvec := globalPtr 1 60 })
    let t := lone [] (fun b => { b with trapvec := globalPtr 1 60, inHandler := true })
    Ready s ∧ (coreAt s (lead s)).b.trapvec ≠ 0 ∧ (coreAt s (lead s)).b.inHandler = false ∧ isCodeAddr s (lead s) (coreAt s (lead s)).b.trapvec = true ∧
    Ready t ∧ (coreAt t (lead t)).b.inHandler = true ∧ (coreAt (lone [] id) 0).b.trapvec = 0 :=
  ⟨⟨by decide +kernel, by decide +kernel, by decide +kernel, by decide +kernel⟩, by decide +kernel, by decide +kernel, by decide +kernel,
    ⟨by decide +kernel, by decide +kernel, by decide +kernel, by decide +kernel⟩, by decide +kernel, by decide +kernel⟩

/-- A token of a status. -/
def token (st : TokStatus) (code : BitVec 8) : TokenRec := { TokenRec.free with used := true, status := st, code := code }

/-- A core with tokens. -/
def tokens (l : List (Nat × TokenRec)) (b : Body) : Body := { b with r := { b.r with toks := { cells := l } } }

theorem test_hypotheses_WaitsAndFences :
    let s := lone [(1, 2 ^ 60 + 0x37FFF0), (2, 1)] (tokens [(63, token .fault 0x13)])
    let t := updCore (lone [] (tokens [(0, token .pending 0)])) 0 (fun k => { k with out := [4] })
    Ready s ∧ Ready t ∧ Ready (lone [] atCkpt) ∧
    (tokRec (settled s) 0 63).used = true ∧ (tokRec (settled s) 0 63).status = .fault ∧ (∀ n < 63, (tokRec (settled s) 0 n).used = false) ∧
    (tokRec (settled t) 0 0).used = true ∧ (tokRec (settled t) 0 0).status = .pending ∧
    access (settled s) (lead s) (sReg (settled s) (lead s) 1) 16 16 winSync false = .ok (.flat (spadKey 0 0x37FFF0)) ∧
    readNat (settled s) (.flat (spadKey 0 0x37FFF0)) 16 / 2 ^ 64 % 2 ^ 32 ≠ (sReg (settled s) (lead s) 2).toNat % 2 ^ 32 ∧
    readNat (settled s) (.flat (spadKey 0 0x37FFF0)) 16 / 2 ^ 64 % 2 ^ 32 = (sReg (settled s) (lead s) 3).toNat % 2 ^ 32 ∧
    (∀ q ∈ groupOf (settled s) (lead s), allPerformed (settled s) q = true ∧ liveToks (settled s) q = [] ∧ outLive (settled s) q = []) ∧ (settled s).packets = [] ∧
    (∃ q ∈ groupOf (settled t) (lead t), allPerformed (settled t) q = false ∧ outLive (settled t) q ≠ []) ∧
    (coreAt (settled s) (lead s)).b.hdrCkpt = false ∧ (coreAt (settled (lone [] atCkpt)) (lead (lone [] atCkpt))).b.hdrCkpt = true :=
  ⟨⟨by decide +kernel, by decide +kernel, by decide +kernel, by decide +kernel⟩, ⟨by decide +kernel, by decide +kernel, by decide +kernel, by decide +kernel⟩,
    ⟨by decide +kernel, by decide +kernel, by decide +kernel, by decide +kernel⟩, by decide +kernel⟩

/-- The core while a parity delta that it waits for is under way on a lane. -/
def owing (lane : Nat) : State := { lone [] id with packets := [{ ownStore with lane := lane, body := .delta 15 8 [1, 2] }] }

theorem test_hypotheses_WaitsAndFences_pending :
    let s := behind [(1, 2 ^ 60)]
    let asleep := updCore (lone [(1, 2 ^ 60)] id) 0 (fun k => { k with ready := 0 })
    Ready s ∧ Ready asleep ∧ (∀ lane ∈ [3, 4], Ready (owing lane)) ∧
    access (settled s) (lead s) (sReg (settled s) (lead s) 1) 16 16 winSync false = .ok (.flat (spadKey 0 0)) ∧ bankReady (settled s) (.flat (spadKey 0 0)) 16 = true ∧ pendingTo (settled s) 0 (.flat (spadKey 0 0)) 16 = true ∧
    access (settled asleep) (lead asleep) (sReg (settled asleep) (lead asleep) 1) 16 16 winSync false = .ok (.flat (spadKey 0 0)) ∧ bankReady (settled asleep) (.flat (spadKey 0 0)) 16 = false ∧
    (∀ lane ∈ [3, 4], (settled (owing lane)).packets.head?.map (fun p => (p.lane, p.core)) = some (lane, 0) ∧ (settled (owing lane)).degraded = false ∧ groupOf (settled (owing lane)) (lead (owing lane)) = [0]) ∧
    outLive (settled (updCore s 0 (fun k => { k with out := [0] }))) 0 = [0] :=
  ⟨⟨by decide +kernel, by decide +kernel, by decide +kernel, by decide +kernel⟩, ⟨by decide +kernel, by decide +kernel, by decide +kernel, by decide +kernel⟩,
    fun l h => ⟨by revert l; decide +kernel, by revert l; decide +kernel, by revert l; decide +kernel, by revert l; decide +kernel⟩, by decide +kernel⟩

theorem test_hypotheses_SystemRegistersSegmentsAndShapes :
    let s := lone [(1, 65535), (2, 65536)] atCkpt
    let late := lone [] (fun b => { b with r := { b.r with vcc := 1 } })
    let plain := lone [] (fun b => { b with task := b.task.map (fun t => { t with part := 1 }) })
    Ready s ∧ Ready late ∧ Ready plain ∧
    sysReg (settled s) (lead s) 0x62 = none ∧ sysReg (settled s) (lead s) 0x61 ≠ none ∧ sysReg (settled s) (lead s) 0x4A = none ∧ sysReg (settled s) (lead s) 0x49 ≠ none ∧
    isPriv (settled s) (lead s) = true ∧ isPriv (settled plain) (lead plain) = false ∧ (∀ q ∈ groupOf (settled s) (lead s), bufRefuse (settled s) q 15 (sReg (settled s) q 0) = none) ∧
    constEntry (settled s) (lead s) 0 = .ok 0 ∧ (coreAt (settled s) (lead s)).b.r.vcc - (coreAt (settled s) (lead s)).b.r.seg.vcc0 = 0 ∧
    constEntry (settled late) (lead late) 0 = .ok 0 ∧ (coreAt (settled late) (lead late)).b.r.vcc - (coreAt (settled late) (lead late)).b.r.seg.vcc0 ≠ 0 ∧
    (∀ t ∈ taskOf (settled s) (lead s), t.persist = false) ∧ isProv (settled s) (lead s) = false ∧ (∀ q ∈ groupOf (settled s) (lead s), allPerformed (settled s) q = true) ∧
    (sReg (settled s) (lead s) 1).toNat ≤ 65535 ∧ 65535 < (sReg (settled s) (lead s) 2).toNat ∧ (coreAt (settled plain) (lead plain)).b.hdrCkpt = false :=
  ⟨⟨by decide +kernel, by decide +kernel, by decide +kernel, by decide +kernel⟩, ⟨by decide +kernel, by decide +kernel, by decide +kernel, by decide +kernel⟩,
    ⟨by decide +kernel, by decide +kernel, by decide +kernel, by decide +kernel⟩, by decide +kernel⟩

/-! ### Engines -/

/-- A core whose engines' registers hold given words. -/
def staged (m x : List (Nat × Word)) (b : Body) : Body := { b with r := { b.r with liveM := { cells := m }, liveX := { cells := x } } }

/-- The shape of a region of 128 by 128 elements over one block. -/
def fullShape : Word := 128 + 128 * 2 ^ 16 + 32 * 2 ^ 32

theorem on_core_zero {P : Nat → Prop} {s : State} (h : issuers s = [0]) (p : P 0) : ∀ q ∈ issuers s, P q := by
  intro q hq; rw [h] at hq; simp only [List.mem_singleton] at hq; exact hq ▸ p

theorem test_hypotheses_EngineCommandsEnter_call :
    let s := lone [] (staged [(8, fullShape)] [])
    Ready s ∧ (∀ q ∈ issuers s, MxAccepts (settled s) q 1 .i8 63 false) ∧
    mxIllegal (coreAt (settled s) (lead s)).b 3 .i8 (snapM (coreAt (settled s) (lead s)).b.r false) = true :=
  ⟨⟨by decide +kernel, by decide +kernel, by decide +kernel, by decide +kernel⟩,
    on_core_zero (by decide +kernel) (by refine ⟨?_, ?_, ?_, ?_, ?_, ?_, ?_, ?_, ?_⟩ <;> decide +kernel), by decide +kernel⟩

theorem test_hypotheses_EngineCommandsEnter_words :
    let u := lone [] (staged [(11, 32 + 512 * 2 ^ 8 + 512 * 2 ^ 18 + 2 ^ 28)] [])
    let full := lone [] (tokens [(63, token .pending 0)])
    Ready u ∧ Ready full ∧ (∀ q ∈ issuers u, MxAccepts (settled u) q 9 .i8 0 false) ∧
    tokLive (settled full) (lead full) 63 = true ∧ (coreAt (settled full) (lead full)).b.check = none :=
  ⟨⟨by decide +kernel, by decide +kernel, by decide +kernel, by decide +kernel⟩, ⟨by decide +kernel, by decide +kernel, by decide +kernel, by decide +kernel⟩,
    on_core_zero (by decide +kernel) (by refine ⟨?_, ?_, ?_, ?_, ?_, ?_, ?_, ?_, ?_⟩ <;> decide +kernel), by decide +kernel⟩

theorem test_hypotheses_EngineCommandsEnter_region :
    let z := lone [] (staged [(8, 128 + 128 * 2 ^ 16)] [])
    Ready z ∧ ∀ x ∈ [(4, Fmt.i8), (5, .i8), (6, .f32), (7, .f32), (8, .bq8)], ∀ q ∈ issuers z, MxAccepts (settled z) q x.1 x.2 0 false := by
  refine ⟨⟨by decide +kernel, by decide +kernel, by decide +kernel, by decide +kernel⟩, fun x hx => on_core_zero (by decide +kernel) ⟨?_, ?_, ?_, ?_, ?_, ?_, ?_, ?_, ?_⟩⟩ <;>
    revert x <;> decide +kernel

theorem test_hypotheses_EngineCommandsEnter_join :
    let g := joined [] id
    Ready g ∧ ∀ q ∈ issuers g, ∀ op ∈ [2, 3], MxAccepts (settled g) q op .i8 0 false := by
  refine ⟨⟨by decide +kernel, by decide +kernel, by decide +kernel, by decide +kernel⟩, fun q hq op hop => ⟨?_, ?_, ?_, ?_, ?_, ?_, ?_, ?_, ?_⟩⟩ <;> revert q op <;> decide +kernel

theorem test_hypotheses_EngineCommandsEnter_copy :
    let s := lone [] (staged [] [(8, 64 + 2 ^ 24 + 2 ^ 40), (1, 2 ^ 60)])
    Ready s ∧ (∀ op ∈ [1, 2, 4, 5, 7, 11], ∀ q ∈ issuers s, XfAccepts (settled s) q op 63 false) ∧ xfIllegal 8 (snapX (coreAt (settled s) (lead s)).b.r false) = true := by
  refine ⟨⟨by decide +kernel, by decide +kernel, by decide +kernel, by decide +kernel⟩, fun op h => on_core_zero (by decide +kernel) ⟨?_, ?_, ?_, ?_, ?_, ?_⟩, by decide +kernel⟩ <;>
    revert op <;> decide +kernel

theorem test_hypotheses_EngineCommandsEnter_blocks :
    let r := lone [] (staged [] [(3, 10), (4, 2 ^ 16 * 4096), (8, 2 ^ 24 + 2 ^ 40)])
    let k := lone [] (staged [] [(4, 5 + 2 ^ 16), (8, 2 ^ 24 + 2 ^ 40)])
    Ready r ∧ Ready k ∧ (∀ q ∈ issuers r, XfAccepts (settled r) q 8 0 false) ∧ (∀ q ∈ issuers k, XfAccepts (settled k) q 6 0 false) := by
  refine ⟨⟨by decide +kernel, by decide +kernel, by decide +kernel, by decide +kernel⟩, ⟨by decide +kernel, by decide +kernel, by decide +kernel, by decide +kernel⟩,
    on_core_zero (by decide +kernel) ⟨?_, ?_, ?_, ?_, ?_, ?_⟩, on_core_zero (by decide +kernel) ⟨?_, ?_, ?_, ?_, ?_, ?_⟩⟩ <;> decide +kernel

theorem test_hypotheses_EngineCommandsEnter_fills :
    let d := lone [] (staged [] [(3, 2 ^ 16)])
    let w := lone [] (staged [] [(8, 262144 + 2 ^ 24 + 2 ^ 40)])
    Ready d ∧ Ready w ∧ (∀ q ∈ issuers d, XfAccepts (settled d) q 9 0 false) ∧ (∀ q ∈ issuers w, XfAccepts (settled w) q 3 0 false) ∧ (∀ q ∈ issuers w, XfAccepts (settled w) q 10 0 false) := by
  refine ⟨⟨by decide +kernel, by decide +kernel, by decide +kernel, by decide +kernel⟩, ⟨by decide +kernel, by decide +kernel, by decide +kernel, by decide +kernel⟩,
    on_core_zero (by decide +kernel) ⟨?_, ?_, ?_, ?_, ?_, ?_⟩, on_core_zero (by decide +kernel) ⟨?_, ?_, ?_, ?_, ?_, ?_⟩, on_core_zero (by decide +kernel) ⟨?_, ?_, ?_, ?_, ?_, ?_⟩⟩ <;> decide +kernel

/-- A routine's state. -/
def someMicro (rc : Nat) (mc : List Nat) (sync : Bool) : MicroState :=
  { upc := 1, mw := .empty, mc := mc, mc0 := [3, 1, 1, 1], g := 0, rc := rc, pa := [[1, 2], [3, 4]], pb := [[5, 6], [7, 8]], sa := [], sb := [], rot := false, sync := sync, bad := 0 }

/-- A running matrix command. -/
def someMx (snap : List Word) (st : Option MicroState) : MxCmd :=
  { op := 1, et := .i8, tok := 3, ins := [], snap := snap, pc := 0, vcc := 0, started := true, micro := st, after := [], orphan := false, fault := none, who := { launch := 7, part := 0, ctx := 0, slot := 0, pc := 0 } }

/-- The registers of a region of two rows and two columns in the last corner of the array; `joint` asks for a joint operation. -/
def corner (joint : Bool) : List Word := List.replicate 8 0 ++ [2 + 2 * 2 ^ 16 + 2 * 2 ^ 32, 126 + 126 * 2 ^ 8 + (if joint then 2 ^ 19 else 0), 0, 0]

/-- A core whose matrix engine runs a routine. -/
def routine (joint : Bool) (st : MicroState) : State := lone [] (fun b => { b with mxQ := [someMx (corner joint) (some st)] })

theorem test_hypotheses_RoutineControl :
    let st := someMicro 0 [2, 1, 1, 1] false
    let s := routine false st
    let sy := someMicro 0 [2, 1, 1, 1] true
    let j := updBody (updBody (updBody (routine true st) 1 (fun b => { b with mxQ := [someMx (corner true) (some sy)] })) 2 (fun b => { b with mxQ := [someMx (corner true) (some sy)] })) 3
      (fun b => { b with mxQ := [someMx (corner true) (some sy)] })
    Routine s (someMx (corner false) (some st)) st ∧ 2 ≤ nthD st.mc 0 0 ∧ nthD st.mc 1 0 < 2 ∧ mxJoint (corner false) = false ∧ mxJoint (corner true) = true ∧
    Routine j (someMx (corner true) (some st)) st ∧ (∀ k ∈ clusterCores 0, k ≠ 0 → microOf j k = some (someMx (corner true) (some sy), sy)) ∧
    (∀ k ∈ clusterCores 0, k ≠ 0 → microOf (routine true st) k = none) := by
  unfold Routine; decide +kernel

theorem test_hypotheses_RoutineLoadsAndAccumulates :
    let st := someMicro 0 [1, 1, 1, 1] false
    let s := routine false st
    let q := corner false
    Routine s (someMx q (some st)) st ∧ mxRow0 q + (st.rc + rowsOf q st.g) ≤ 128 ∧ mxCol0 q + mxN q ≤ 128 ∧
    (∀ i < rowsOf q st.g, ∀ j < mxN q, segGet (coreAt s 0).b 0 (126 + i) (126 + j) ≠ nanX ∧
      contribution .i8 (segGet (coreAt s 0).b 0 (126 + i) (126 + j)) ((panelVals .i8 st.pa st.sa i).zip (panelVals .i8 st.pb st.sb j)) ≠ none) ∧
    (match readRows 0 (someMx q (some st)).who (rotSrc 0 q st) 0 s ((panelRows 0 q st).map (fun i => (blockKs q st).map (fun k => reqA q .i8 (st.mw.get 0 0) false false i k))) with
      | .ok _ => true | _ => false) = true ∧
    (match readRows 0 (someMx q (some st)).who (rotSrc 0 q st) (mxWb q) s ((panelCols 0 q).map (fun j => (blockKs q st).map (fun k => reqB q .i8 (st.mw.get 0 0) false j k))) with
      | .ok _ => true | _ => false) = true := by
  unfold Routine; decide +kernel

/-! ### Stream contexts -/

/-- Context 0 runs the stream code of tensor 1 at offset 64, with given registers; tensor 2 holds given bytes. -/
def stream (q : List (Nat × Word)) (bytes : List Byte) (f : Ctx → Ctx) : State :=
  let s := updCtx base 0 (fun x => f { x with state := .running, run := true, code := globalPtr 1 0, pc := 64, q := { cells := q } })
  let s := updRec (updRec s 1 (fun r => { r with state := .hbm, bytes := 256 })) 2 (fun r => { r with state := .hbm, bytes := 4096 })
  { s with mem := s.mem.setBytes (globKey 2 0) bytes }

/-- The same within an expansion of a body of given length. -/
def expansion (len : Nat) (q : List (Nat × Word)) (f : Ctx → Ctx) : State :=
  { stream q [] (fun x => f { x with inmac := true, mret := true, mpos := 1 }) with mdirs := { cells := [(0, { start := 0, len := len, part := 0, valid := true })] } }

/-- An open bracket. -/
def someBracket (ids : List Nat) : Bracket := { out := 2, saved := [], start := 64, maxT := 0, ids := ids, inputs := [], cycles := 0, failed := false, num := 0 }

/-- Whether a result is good and is the value given. -/
def okIs {ε α : Type} [DecidableEq α] (r : Except ε α) (a : α) : Bool := match r with | .ok x => decide (x = a) | .error _ => false

theorem eq_of_okIs {ε α : Type} [DecidableEq α] {r : Except ε α} {a : α} (h : okIs r a = true) : r = .ok a := by
  cases r <;> simp_all [okIs]

/-- Whether a result is good. -/
def okSome {ε α : Type} (r : Except ε α) : Bool := match r with | .ok _ => true | .error _ => false

theorem exists_of_okSome {ε α : Type} {r : Except ε α} (h : okSome r = true) : ∃ a, r = .ok a := by
  cases r <;> simp_all [okSome]

theorem test_hypotheses_StreamsAdvanceAndFault :
    let s := stream [(1, 9)] [] id
    let h := stream [(1, 9)] [] (fun x => { x with handler := some 128 })
    let e := expansion 3 [] id
    let b := expansion 6 [] (fun x => { x with bracket := some (someBracket []) })
    Executes true true s ∧ Executes false false s ∧ expanding (ctx s 0) = false ∧ (qReg s 0 1).toNat % 8 ≠ 0 ∧ (ctx s 0).handler = none ∧
    Executes false false h ∧ (ctx h 0).handler = some 128 ∧ (ctx h 0).inh = false ∧
    Executes true true e ∧ expanding (ctx e 0) = true ∧ (ctx e 0).mpos.toNat + 1 < (mdir e 0 0).len ∧ (mdir e 0 0).len ≤ (ctx e 0).mpos.toNat + 2 ∧
    Executes true true b ∧ (ctx b 0).mpos.toNat + 4 < (mdir b 0 0).len := by
  refine ⟨⟨?_, ?_, ?_, ?_, ?_⟩, ⟨?_, ?_, ?_, ?_, ?_⟩, ?_, ?_, ?_, ⟨?_, ?_, ?_, ?_, ?_⟩, ?_, ?_, ⟨?_, ?_, ?_, ?_, ?_⟩, ?_, ?_, ?_, ⟨?_, ?_, ?_, ?_, ?_⟩, ?_⟩ <;> decide +kernel

theorem test_hypotheses_StreamTransfers :
    let s := stream [(1, 8), (2, 0xFFFFFFFFFFFFFFFF)] [] id
    let b := stream [] [] (fun x => { x with bracket := some (someBracket []) })
    let e := expansion 3 [] id
    let i := stream [] [] (fun x => { x with inh := true })
    let m := expansion 3 [] (fun x => { x with inh := true, mret := false, flen := 8 })
    Executes true true s ∧ expanding (ctx s 0) = false ∧ (ctx s 0).bracket = none ∧ (qReg s 0 2).toInt < (qReg s 0 1).toInt ∧ ¬ (qReg s 0 2).toNat < (qReg s 0 1).toNat ∧
    Executes true true b ∧ (someBracket []).start ≤ ((ctx b 0).pc + BitVec.ofInt 48 (8 * (0 : BitVec 32).toInt)).toNat ∧
    ((ctx b 0).pc + BitVec.ofInt 48 (8 * (0xFFFFFFFF : BitVec 32).toInt)).toNat < (someBracket []).start ∧
    Executes true true e ∧ (0 : Int) ≤ (ctx e 0).mpos.toNat + (1 : BitVec 32).toInt ∧ (ctx e 0).mpos.toNat + (1 : BitVec 32).toInt < ((mdir e 0 0).len : Int) ∧
    (ctx e 0).mpos.toNat + (0xFFFFFFFE : BitVec 32).toInt < 0 ∧ ((mdir e 0 0).len : Int) ≤ (ctx e 0).mpos.toNat + (2 : BitVec 32).toInt ∧
    Executes false false s ∧ (qReg s 0 1).toNat % 8 = 0 ∧ (ctx s 0).inh = false ∧ Executes false false i ∧ (ctx i 0).inh = true ∧ (ctx i 0).inmac = false ∧
    Executes false false m ∧ (ctx m 0).inh = true ∧ (ctx m 0).inmac = true ∧ (ctx m 0).mpos.toNat + (ctx m 0).flen / 8 < (mdir m 0 0).len := by
  refine ⟨⟨?_, ?_, ?_, ?_, ?_⟩, ?_, ?_, ?_, ?_, ⟨?_, ?_, ?_, ?_, ?_⟩, ?_, ?_, ⟨?_, ?_, ?_, ?_, ?_⟩, ?_, ?_, ?_, ?_, ⟨?_, ?_, ?_, ?_, ?_⟩, ?_, ?_, ⟨?_, ?_, ?_, ?_, ?_⟩, ?_, ?_, ⟨?_, ?_, ?_, ?_, ?_⟩, ?_, ?_, ?_⟩ <;>
    decide +kernel

theorem test_hypotheses_StreamArithmetic :
    let s := stream [] [] id
    Executes true true s ∧ (ctx s 0).bracket = none ∧ (ctx s 0).sub = none ∧ 16 < (17 : BitVec 6).toNat := by
  refine ⟨⟨?_, ?_, ?_, ?_, ?_⟩, ?_, ?_, ?_⟩ <;> decide +kernel

theorem test_hypotheses_StreamMemory :
    let s := stream [(1, globalPtr 2 4088), (2, 5)] [] id
    let bad := { s with poison := { cells := [(globKey 2 4088 / 32, true)] } }
    let busy := stream [] [] (fun x => { x with stores := [4] })
    let part := updPart s 0 (fun p => { p with veccount := 1 })
    Executes false true s ∧ streamAccess s 0 (qReg s 0 1) 8 false = .tensor 2 4088 ∧ streamAccess s 0 (qReg s 0 1) 8 true = .tensor 2 4088 ∧ (ctx s 0).stores = [] ∧
    poisoned s (.glob 2 4088) 8 = false ∧ poisoned bad (.glob 2 4088) 8 = true ∧ streamAccess s 0 (qReg s 0 1 + 8) 8 false = .fault codeBounds ∧
    streamAccess s 0 (qReg s 0 2) 1 true = .fault codeSpace ∧ isGlobal (qReg s 0 1) = true ∧ isGlobal (qReg s 0 2) = false ∧
    BitVec.ofNat 64 (leNat (readLoc s (.glob 2 4088) 8)) ≠ qReg s 0 2 ∧ BitVec.ofNat 64 (leNat (readLoc s (.glob 2 4088) 8)) = qReg s 0 3 ∧
    (qReg part 0 0 + (0 : BitVec 32).setWidth 64).toNat < (partOf part 0).veccount.toNat ∧ (partOf part 0).veccount.toNat ≤ (qReg part 0 0 + (1 : BitVec 32).setWidth 64).toNat ∧
    Executes true true busy ∧ (ctx busy 0).stores ≠ [] ∧ s.packets = [] := by
  refine ⟨⟨?_, ?_, ?_, ?_, ?_⟩, ?_, ?_, ?_, ?_, ?_, ?_, ?_, ?_, ?_, ?_, ?_, ?_, ?_, ⟨?_, ?_, ?_, ?_, ?_⟩, ?_, ?_⟩ <;> decide +kernel

theorem test_hypotheses_StreamEvents :
    let s := stream [(1, 1), (2, 63), (3, 64), (4, 65535), (5, 65536)] [] id
    Executes false true s ∧ ((ctx s 0).e.get 0 63 - (qReg s 0 0 + (0 : BitVec 32).signExtend 64).setWidth 32).msb = false ∧
    ((ctx s 0).e.get 0 63 - (qReg s 0 1 + (0 : BitVec 32).signExtend 64).setWidth 32).msb = true ∧ (qReg s 0 2).toNat < 64 ∧ (ctx s (qReg s 0 2).toNat).part = (ctx s 0).part ∧
    (ctx s 0).stores = [] ∧ 64 ≤ (qReg s 0 3).toNat ∧ fieldW (qReg s 0 4) 0 32 ≤ 65535 ∧ 65535 < fieldW (qReg s 0 5) 0 32 ∧ Executes true true s := by
  refine ⟨⟨?_, ?_, ?_, ?_, ?_⟩, ?_, ?_, ?_, ?_, ?_, ?_, ?_, ?_, ⟨?_, ?_, ?_, ?_, ?_⟩⟩ <;> decide +kernel

/-- A launch record of one operand, with eight bytes of arguments at offset 128 (R111, R112). -/
def recordBytes : List Byte :=
  leBytes (globalPtr 1 0).toNat 8 ++ leBytes 4 2 ++ leBytes 2 2 ++ leBytes 1 2 ++ [1, 0] ++ leBytes (globalPtr 2 128).toNat 8 ++ leBytes 8 2 ++ [0, 0] ++ leBytes 0 2 ++ leBytes 80 2 ++
  leBytes 0 8 ++ leBytes 1000 6 ++ List.replicate 18 0 ++ leBytes (globalPtr 2 0).toNat 8 ++ leBytes (4096 + 3 * 2 ^ 40) 8

/-- The inputs of a launch with one threshold in use. -/
def someInputs : LaunchIns :=
  let off : LaunchIn := { evt := 0, valid := 0, qt := 0 }
  { i0 := { evt := 63, valid := 1, qt := 3 }, i1 := off, i2 := off, i3 := off }

/-- A collective over two dies (R132). -/
def collBytes_ : List Byte :=
  [0, 0, 0, 0] ++ leBytes 2 2 ++ leBytes 1 2 ++ leBytes (globalPtr 2 1024).toNat 8 ++ leBytes (globalPtr 2 2048).toNat 8 ++ leBytes 256 5 ++ [0, 0, 0] ++ leBytes 0 4 ++ [3, 0, 0, 0] ++ leBytes 0 8 ++ List.replicate 16 0

/-- A queue without a free place: the eight places of the context and the die's shared ones. -/
def fullQueue (s : State) : State :=
  { s with launches := { cells := (List.range 600).map (fun i => (i, { Launch.zero with state := .waitEv, reserved := decide (i < 8) })) } }

theorem test_hypotheses_StreamLaunches :
    let s := stream [(1, globalPtr 2 0), (2, 4)] recordBytes id
    let known := { s with shapes := { cells := [(1023, 2 ^ 16 + 65535)] } }
    let pr : PredFields := { site := 255, mode := 1, dim := 0, pct := 0, slot := 1023, fixv := 0 }
    let l := recLaunch (readLoc s (.glob 2 0) 80) (readLoc s (.glob 2 128) 8) (launchInputs s someInputs) none
    let k := stream [(1, globalPtr 2 0)] collBytes_ id
    Executes true true s ∧ RecordStands s (qReg s 0 1) someInputs (readLoc s (.glob 2 0) 80) (readLoc s (.glob 2 128) 8) ∧ queueFree s 0 = true ∧ queueFree (fullQueue s) 0 = false ∧
    Executes false true s ∧ (∃ x, addPrediction 0 (fieldW (qReg s 0 2) 0 16) pr l s = .ok x) ∧ (∃ x, addPrediction 0 (fieldW (qReg s 0 2) 0 16) pr l known = .ok x) ∧
    Executes false true k ∧ recordRead k 0 (qReg k 0 1) 64 1 fieldInfo = .ok (readLoc k (.glob 2 0) 64) ∧ failing (collChecks k 0 (readLoc k (.glob 2 0) 64)) = none := by
  refine ⟨⟨?_, ?_, ?_, ?_, ?_⟩, ⟨readLoc (stream [(1, globalPtr 2 0), (2, 4)] recordBytes id) (.glob 2 0) 64, eq_of_okIs ?_, ?_, eq_of_okIs ?_, ?_, ?_, eq_of_okIs ?_⟩, ?_, ?_,
    ⟨?_, ?_, ?_, ?_, ?_⟩, exists_of_okSome ?_, exists_of_okSome ?_, ⟨?_, ?_, ?_, ?_, ?_⟩, eq_of_okIs ?_, ?_⟩ <;> decide +kernel

/-- A descriptor of 64 elements of four bytes on die 0 (R120). -/
def descBytes : List Byte := leBytes 64 4 ++ List.replicate 16 0 ++ [1, 0, 0, 0] ++ leBytes 256 8 ++ List.replicate 32 0

theorem test_hypotheses_StreamTensorsAndExpansions_tensors :
    let s := stream [(1, globalPtr 2 0), (2, 4096)] descBytes id
    let busy := updRec s 2 (fun r => { r with rhcnt := 1 })
    let pinned := updHasp s 0 (fun x => { x with pins := [{ ptr := globalPtr 2 0, len := 4096, llc := false }] })
    Executes false true s ∧ recordRead s 0 (qReg s 0 1) 64 64 (fun _ => 0) = .ok (readLoc s (.glob 2 0) 64) ∧ (∃ x, declareTensor (readLoc s (.glob 2 0) 64) 0 0 0 s = .ok x) ∧
    isGlobal (qReg s 0 1) = true ∧ declared s 0 (ptrH (qReg s 0 1)) = true ∧ freeWaits s 2 = false ∧ freeWaits busy 2 = true ∧ qReg s 0 2 ≠ 0 ∧
    ptrO (qReg s 0 1) + (qReg s 0 2).toNat ≤ (trec s 2).bytes ∧ (hasp s 0).pins.length < 4096 ∧ isReady s 2 = true ∧ llcPinned s 0 + (qReg s 0 2).toNat ≤ 64 * 2 ^ 20 ∧
    (∃ e ∈ (hasp pinned 0).pins, e.ptr = qReg pinned 0 1 ∧ e.len = (qReg pinned 0 2).toNat) ∧ isGlobal (qReg s 0 2) = false ∧ Executes false false s ∧ (trec s 2).rhcnt = 0 := by
  refine ⟨⟨?_, ?_, ?_, ?_, ?_⟩, eq_of_okIs ?_, exists_of_okSome ?_, ?_, ?_, ?_, ?_, ?_, ?_, ?_, ?_, ?_, ?_, ?_, ⟨?_, ?_, ?_, ?_, ?_⟩, ?_⟩ <;> decide +kernel

theorem test_hypotheses_StreamTensorsAndExpansions_brackets :
    let s := stream [] [] (fun x => { x with bracket := some (someBracket []) })
    let t := stream [] [] (fun x => { x with bracket := some (someBracket [5]) })
    let u := updRec s 2 (fun r => { r with recix := some 3 })
    Executes true false s ∧ (ctx s 0).sub = none ∧ (ctx s 0).bracket = some (someBracket []) ∧ Executes true false t ∧ (ctx t 0).bracket = some (someBracket [5]) ∧
    Executes true false (stream [] [] id) ∧ (ctx (stream [] [] id) 0).bracket = none ∧ Executes true false u ∧ (ctx u 0).bracket = some (someBracket []) ∧
    declared u 0 (someBracket []).out = true ∧ (someBracket []).maxT ≤ (ctx u 0).pc.toNat ∧ (bracketRecipe u 0 (someBracket [])).inputs.length ≤ 16 ∧ (trec u 2).recix = some 3 := by
  refine ⟨⟨?_, ?_, ?_, ?_, ?_⟩, ?_, ?_, ⟨?_, ?_, ?_, ?_, ?_⟩, ?_, ⟨?_, ?_, ?_, ?_, ?_⟩, ?_, ⟨?_, ?_, ?_, ?_, ?_⟩, ?_, ?_, ?_, ?_, ?_⟩ <;> decide +kernel

theorem test_hypotheses_StreamTensorsAndExpansions_expansions :
    let s := { stream [(1, globalPtr 2 0)] (leBytes (4094 + 2 * 2 ^ 12 + 255 * 2 ^ 24) 8 ++ leBytes 7 8 ++ leBytes 8 8 ++ leBytes 0x21 8) id with
      mdirs := { cells := [(7, { start := 0, len := 4094, part := 0, valid := true })] } }
    Executes false false s ∧ (8 : BitVec 4).toNat ≤ 8 ∧ (24 : BitVec 5).toNat + (8 : BitVec 4).toNat ≤ 32 ∧ (mdir s 0 7).valid = true ∧ (mdir s 0 7).part = (ctx s 0).part ∧
    (mdir s 0 255).valid = false ∧ recordRead s 0 (qReg s 0 1) 8 8 (fun _ => 0) = .ok (readLoc s (.glob 2 0) 8) ∧ leNat (readLoc s (.glob 2 0) 8) < 2 ^ 32 ∧
    bitsOf (leNat (readLoc s (.glob 2 0) 8)) 0 12 = 4094 ∧ bitsOf (leNat (readLoc s (.glob 2 0) 8)) 12 12 = 2 ∧ bitsOf (leNat (readLoc s (.glob 2 0) 8)) 24 8 = 255 ∧
    (∀ k < 256, k ≠ 255 → (mdir s 0 k).valid = true → 4094 + 2 ≤ (mdir s 0 k).start ∨ (mdir s 0 k).start + (mdir s 0 k).len ≤ 4094) ∧
    expands s 0 255 false = false ∧ expands s 0 255 true = false ∧ (ctx s 0).inmac = false ∧ recordRead s 0 (qReg s 0 1) (8 * (1 + 2 + (2 + 15) / 16)) 8 (fun _ => 0) = .ok (readLoc s (.glob 2 0) 32) := by
  refine ⟨⟨?_, ?_, ?_, ?_, ?_⟩, ?_, ?_, ?_, ?_, ?_, eq_of_okIs ?_, ?_, ?_, ?_, ?_, ?_, ?_, ?_, ?_, eq_of_okIs ?_⟩ <;> decide +kernel


theorem test_hypotheses_StreamMemory_host :
    let s := { stream [(1, 4 * 2 ^ 60)] [] id with routes := { cells := [(0, { base := 0, port := false, valid := true, write := true, limit := 0xFFFF })] } }
    (∃ x port, streamAccess s 0 (qReg s 0 1) 8 false = .host x port) ∧ (∃ x port, streamAccess s 0 (qReg s 0 1) 8 true = .host x port) ∧ (ctx s 0).stores = [] := by
  refine ⟨⟨0, false, ?_⟩, ⟨0, false, ?_⟩, ?_⟩ <;> decide +kernel

theorem test_hypotheses_StreamTensorsAndExpansions_unpinned :
    let s := stream [(1, globalPtr 2 0)] [] id
    let freed := updRec s 2 (fun r => { r with freeing := true })
    isGlobal (qReg s 0 1) = true ∧ (trec s 2).freeing = false ∧ declared s 0 2 = true ∧ (hasp s 0).pins = [] ∧ (trec freed 2).freeing = true ∧ (trec freed 2).part = (ctx freed 0).part := by decide +kernel

theorem test_hypotheses_StreamTransfers_bracket :
    let b := stream [] [] (fun x => { x with bracket := some (someBracket []) })
    let target := fun (imm : BitVec 32) => ((ctx b 0).pc.toNat : Int) + 8 * imm.toInt
    ((someBracket []).start : Int) ≤ target 0 ∧ target 0xFFFFFFFF < ((someBracket []).start : Int) ∧ target 0xFFFFFF00 < 0 := by decide +kernel
/-! ### The module -/

/-- The state after reset with other power registers. -/
def powered (f : Power → Power) : State := { base with mod := { base.mod with power := f base.mod.power } }

/-- An image that no signature covers. -/
def noImage : FwImage := { magic := 0, typ := 6, svn := 0, length := 0, digest := 0, ecdsa := 0, hss := [], body := [] }

/-- R78: the stock images pass the five checks. -/
theorem stock_accepted (t : Trust) (h : t.svnMin = .empty) (n : Nat) (hn : n < 7) : accepted t n (stockImage n) = true := by
  have e : leNat (sha384 []) = (0x5bb99848f1d21ad5fb656fe7bfde4e27dae1f663bfc70c4c4307be1411b7fd216ae3b1b17e32d94c3896ac51a760b038#384).toNat := by decide +kernel
  have d : leNat (sha384 (stockImage n).body) = (stockImage n).digest.toNat := e
  have g : genrekSigned (imageHead (stockImage n)) (stockImage n).ecdsa (stockImage n).hss = true := by simp [genrekSigned, stockImage, imageHead]
  have z : t.svnMin.get 0 n = 0 := by rw [h]; rfl
  have l : (stockImage n).typ.toNat = n := by simp [stockImage]; omega
  have m : (stockImage n).magic = 0x4B584946 := rfl
  simp [accepted, g, d, z, l, m]

theorem test_hypotheses_PowerAndResets_flash :
    let s := State.reset
    s.mod.power.boot ≠ .off ∧ (∀ i < 6, ∃ m, (nthD s.mod.trust.flash i (none, none)).1 = some m ∧ accepted s.mod.trust (i + 1) m = true) ∧ s.mod.trust.holdC = false ∧
    s.mod.trust.flash.length = 6 ∧ s.mod.trust.blocked = false := by
  refine ⟨by decide, fun i hi => ⟨stockImage (i + 1), ?_, stock_accepted _ rfl _ (by omega)⟩, rfl, rfl, rfl⟩
  match i, hi with
  | 0, _ | 1, _ | 2, _ | 3, _ | 4, _ | 5, _ => rfl

theorem test_hypotheses_PowerAndResets :
    let s := base
    let hot := fun (c : Nat) => hottest (readSensors 9 (BitVec.ofNat 64 (c * 16)) s.mod.power)
    let m2 := powered (fun p => { p with state := .m2, exiting := true })
    let busy := { s with ctxs := { cells := [(63, { Ctx.zero with run := true })] } }
    s.mod.power.boot ≠ .off ∧ { s.mod.trust with holdC := true }.holdC = true ∧
    (powered (fun p => { p with boot := .off })).mod.power.boot = .off ∧ (powered (fun p => { p with boot := .recovery })).mod.power.boot = .recovery ∧ s.mod.trust.blocked = false ∧
    accepted s.mod.trust 6 noImage = false ∧ 2800 < 2801 ∧ 100 * 2660 ≤ 95 * 2800 ∧ s.mod.power.hot = false ∧
    hot 100 = 1600 ∧ hot 109 < 1760 ∧ hot 110 = 1760 ∧ hot 115 = 1840 ∧ s.mod.power.boot = .up ∧ s.mod.power.state = .m1 ∧ mayRetain s = true ∧ s.mod.power.exiting = false ∧ mayRetain busy = false ∧ anyTask s = false ∧
    m2.mod.power.exiting = true ∧ m2.mod.power.held = [] ∧ (∀ q < 32, (port m2 q).inbox = []) ∧ (∀ k < 8, (partOf m2 k).hdreq = none) := by decide +kernel

theorem test_hypotheses_HostRegisters :
    let s := powered (fun p => { p with state := .m0 })
    let wake := updCore base 0 (fun k => { k with ready := 0x7FFFFFFF })
    s.mod.power.boot = .up ∧ s.mod.power.state = .m0 ∧ coreExists 479 = true ∧ (coreAt wake 0).gate.getLsbD 31 = false ∧ (coreAt wake 0).ready.getLsbD 31 = false ∧ llcPinned s 7 = 0 ∧
    (0xFFFE : BitVec 32).toNat % 2 ^ 16 ≠ 2 ^ 16 - 1 ∧ (0x1FFFF : BitVec 32).toNat % 2 ^ 16 = 2 ^ 16 - 1 ∧ mapRefused s 7 0x8B = none ∧ mapRefused s 7 0x8C = some 1 ∧
    rangeRefused s 7 64 1984 = none ∧ rangeRefused s 7 63 1 = some 5 ∧ rangeRefused s 7 64 1985 = some 5 ∧ (∀ c < 64, (ctx s c).part.toNat = 7 → canStart (ctx s c) = true) ∧
    (port s 31).enable = false ∧ (0x8000 : BitVec 32).getLsbD 16 = false := by decide +kernel

theorem test_hypotheses_HostContextsAndTensors_contexts :
    let at_ := fun (f : Ctx → Ctx) => updCtx base 63 f
    let s := at_ (fun x => { x with entry := globalPtr 1 8 })
    let stopping := at_ (fun x => { x with state := .stopping })
    let ending := at_ (fun x => { x with state := .running, run := true, ending := true })
    isLost s 7 = false ∧ (ctx s 63).state = .idle ∧ isGlobal (ctx s 63).entry = true ∧ (ctx s 63).entry.toNat % 8 = 0 ∧ partExists s 0 = true ∧ isGlobal (ctx base 63).entry = false ∧
    (ctx ending 63).state = .running ∧ (ctx stopping 63).killing = false ∧ hasLaunches stopping 63 = false ∧ (ctx stopping 63).stores = [] ∧ (ctx stopping 63).wait = none ∧
    (ctx (at_ (fun x => { x with state := .stopping, killing := true })) 63).killing = true ∧ hasLaunches ending 63 = false ∧ (ctx ending 63).fails = [] ∧ (ctx ending 63).ending = true ∧ (ctx stopping 63).woken = false ∧ (ctx stopping 63).ending = false := by decide +kernel

/-- A partition's registers with a descriptor and a result of HDCTL. -/
def hostPart (r : Word) : State :=
  let s := updPart (powered (fun p => { p with state := .m0 })) 0 (fun p => { p with hddesc := descBytes, hdres := r })
  let s := updRec s 2 (fun t => { t with state := .hbm, bytes := 4096 })
  { s with mod := { s.mod with apslots := { cells := [(0, 2 + 2 ^ 23 + 2 ^ 24)] } } }

theorem test_hypotheses_HostContextsAndTensors_tensors :
    let s := hostPart (globalPtr 2 0)
    let held := updPart s 0 (fun p => { p with heldW := [(2, 8, [1, 2])] })
    let waiting := updPart held 0 (fun p => { p with hdreq := some { free := true, owner := 0, ptr := 0, desc := [] } })
    let gone := updRec s 2 (fun t => { t with state := .spilled })
    let late := updPart s 0 (fun p => { p with heldR := [(4088, 8, 0)] })
    (1 : BitVec 64).getLsbD 0 = true ∧ (partOf s 0).hdreq = none ∧ (partOf s 0).heldW = [] ∧ s.mod.power.state ≠ .m2 ∧ (ctx s 0).part.toNat = 0 ∧
    okSome (declareTensor (partOf s 0).hddesc 0 0 0 (updPart (updPart s 0 (fun y => { y with hdop := false, hdowner := 0, hddone := y.hddone && true, hdrefused := y.hdrefused && true })) 0
      (fun y => { y with hdreq := some { free := false, owner := 0, ptr := (partOf s 0).hdres, desc := (partOf s 0).hddesc } }))) = true ∧
    isGlobal (partOf s 0).hdres = true ∧ declared s 0 2 = true ∧ freeWaits s 2 = false ∧ isGlobal (partOf (hostPart 0) 0).hdres = false ∧
    apValid s 0 4088 8 = true ∧ apHandle s 0 4088 = 2 ∧ apValid s 0 4089 8 = false ∧ isResident (trec s 2) = true ∧ (hasp s 0).bounce = [] ∧ (slotReg s (apSlot 0 4088)).getLsbD 24 = true ∧
    apReady s 2 4088 8 = true ∧ (partOf held 0).heldW = [(2, 8, [1, 2])] ∧ apReady held 2 8 2 = true ∧ (trec held 2).freeing = false ∧ dieGone held 0 = false ∧ (partOf held 0).hdreq = none ∧
    (partOf waiting 0).hdreq.isSome = true ∧ (partOf waiting 0).heldW ≠ [] ∧ readBlocked gone 0 4088 8 = true ∧ (trec s 2).state ≠ .dropped ∧
    (partOf late 0).heldR = [(4088, 8, 0)] ∧ readBlocked late 0 4088 8 = false ∧ apValid late 0 4088 8 = true ∧ (trec late 2).state ≠ .dropped ∧ clocksRun late = true := by decide +kernel

/-- The state after reset with another state of Escutcheon. -/
def trusting (f : Trust → Trust) : State := { base with mod := { base.mod with trust := f base.mod.trust } }

theorem test_hypotheses_TrustAndSnapshots :
    let open_ : Conn := { version := true, caps := true, algs := true }
    let w : Session := { tr := .doe, id := 3, key := 5, wait := true }
    let s := trusting (fun t => { t with booted := [some noImage], doe := open_, hss := 2 ^ 30 - 1, sessions := [w, { w with id := 4, wait := false }], challenge := some 7 })
    let held := fireTrig 4 0 { base with clk := 5 }
    s.mod.power.boot ≠ .off ∧ (nthD s.mod.trust.booted 0 none).isSome = true ∧ s.mod.power.boot = .up ∧ s.mod.power.state ≠ .m3 ∧ conn s.mod.trust .doe = open_ ∧ s.mod.trust.hss < 2 ^ 30 ∧
    (conn s.mod.trust .mctp).version = false ∧ (conn s.mod.trust .mctp).algs = false ∧ (∀ a ∈ spdmAlgs, a ∈ spdmAlgs) ∧ sessionOf s.mod.trust .doe 3 true = some w ∧
    sessionOf s.mod.trust .doe 4 false = some { w with id := 4, wait := false } ∧ sessionOf s.mod.trust .doe 5 false = none ∧ ¬ { s.mod.trust with hss := 2 ^ 30 }.hss < 2 ^ 30 ∧
    s.mod.trust.classB = false ∧ s.mod.trust.fused = false ∧ s.mod.trust.locked = false ∧ s.mod.trust.challenge = some 7 ∧ base.mod.trust.challenge = none ∧
    s.mod.snap.held = false ∧ held.mod.snap.held = true ∧ { held with clk := 6 }.mod.snap.at_ ≠ 6 ∧ held.mod.snap.lost.toNat < 65535 ∧ 560 ∈ held.mod.snap.todo := by decide +kernel

/-- A signature that Genrek made verifies (R85). -/
theorem test_hypotheses_TrustAndSnapshots_response (c : BitVec 256) :
    genrekSigned (leBytes c.toNat 32) (Config.genrekEcdsa (leBytes c.toNat 32)) (Config.genrekHss (leBytes c.toNat 32)) = true := by simp [genrekSigned]

/-! ### Links, packets and memory channels -/

/-- Port 31 in a given condition. -/
def atPort (f : Port → Port) : State := updPort base 31 (fun x => f { x with enable := true, state := .up })

/-- A flit of lane 0. -/
def someFlit : LinkFlit := { dest := 1, vl := 0, kind := 1, zxf := false, data := [1], cvl := 0, ccnt := 0 }

/-- A flit image whose CRC is right: kind 1 on lane 0, sequence number 0. -/
def goodFlit : List Byte :=
  let b := leBytes 1 2 ++ leBytes 4 4 ++ List.replicate 46 0 ++ [8] ++ List.replicate 7 0
  b ++ leBytes (crc32c b).toNat 4

theorem test_hypotheses_LinkPorts :
    let s := atPort (fun x => { x with naksIn := 8 })
    let worn := atPort (fun x => { x with naksIn := 8, fails := 2 })
    let cold := atPort (fun x => { x with state := .training, fails := 2 })
    let again := atPort (fun x => { x with again := 1, replay := [(0, someFlit)] })
    let ready := atPort (fun x => { x with flits := [someFlit], spent := { cells := [(0, 127)] } })
    let p : NetPacket := { dest := 1, vl := 0, bytes := [] }
    let held := { base with mod := { base.mod with routeHold := [(31, p)], lastRoute := { cells := [(31 * 4096 + 1, 1)] } } }
    let busy := updPort held 0 (fun x => { x with queue := [(31, p)] })
    (port (atPort (fun x => { x with state := .training })) 31).state = .training ∧ (port cold 31).state = .training ∧ 2 ≤ (port cold 31).fails ∧ (port cold 31).queue = [] ∧ (port base 31).fails < 2 ∧ (port s 31).state = .up ∧ mustRetrain s (port s 31) = true ∧ (port s 31).fails < 2 ∧ 2 ≤ (port worn 31).fails ∧ (port worn 31).queue = [] ∧
    0 < (port again 31).again ∧ (port again 31).replay[(port again 31).replay.length - (port again 31).again]? = some (0, someFlit) ∧
    (port ready 31).again = 0 ∧ (port ready 31).replay.length < 1024 ∧ chosenLane (port ready 31) 0 = 0 ∧ laneReady (port ready 31) 0 = true ∧ (port ready 31).flits.find? (fun g => g.vl == 0) = some someFlit ∧
    laneReady (port s 31) (chosenLane (port s 31) 7) = false ∧ goodFlit.length = 64 ∧ (crc32c (goodFlit.take 60)).toNat = leNat (goodFlit.drop 60) ∧ bitsOf 8 6 2 = 0 ∧ bitsOf 8 3 2 = 1 ∧
    (nthD goodFlit 52 0).toNat = 8 ∧ leNat ((goodFlit.drop 54).take 2) = (port s 31).expect.toNat ∧ (port s 31).ahead = [] ∧
    (crc32c ((List.replicate 64 1).take 60)).toNat ≠ leNat ((List.replicate 64 (1 : Byte)).drop 60) ∧
    routeBusy held 31 1 0 = false ∧ held.mod.routeHold = [(31, p)] ∧ held.mod.lastRoute.get 0 (31 * 4096 + 1) = 1 ∧ routeBusy busy 31 1 0 = true := by decide +kernel

/-- A packet under way from core 0 to die 0. -/
def somePacket (body : PBody) : Packet := { id := 3, lane := 0, src := .core 0, dst := .die 0, core := 0, after := [], lackUs := none, body := body }

/-- The state with one packet under way. -/
def sending (body : PBody) : State := { lone [] id with packets := [somePacket body] }

/-- A share of task 0 on cluster 0. -/
def someShare : Share := { launch := 7, cl := 0, todo := [(0, 0, 0, 0, false)], age := 0, agedAt := 0, cls := 2, step := 0, group := false, sub := false, since := 0, seq := 0 }

/-- A running copy command with token 3. -/
def someXf (op : Nat) (snap : List Word) (sent : List Nat) (us : Nat) : XfCmd :=
  { newXf { slot := 7, op := op, et := .i8, tok := 3, snap := snap, pc := 0, vcc := 0, who := { launch := 7, part := 0, ctx := 0, slot := 0, pc := 0 } } [] [] none false with
    started := true, sent := sent, sentUs := { cells := sent.map (fun i => (i, us)) } }

/-- Core 0 with one copy command, at 50 ms. -/
def copying (op : Nat) (snap : List Word) (sent : List Nat) : State := { lone [] (fun b => { b with xfQ := [someXf op snap sent 1] }) with us := 50000 }

/-- A read that left the storage port. -/
def someRead : PeerRead := { core := 0, tok := 3, vcc := 0, row := 0, lo := 0, n := 4, us := 0, data := [1] }

/-- The same with that read outstanding. -/
def reading (op : Nat) (snap : List Word) : State := let s := copying op snap []; { s with mod := { s.mod with peerReads := [someRead] } }

theorem test_hypotheses_PacketsAndChannels_performed :
    let e : CEntry := someEntry
    let bodies := [PBody.resp 5 9 false, .signal 63 63 65535, .share someShare 0, .access 0 (.glob 2 8) (.store [1] [true]) (some 0) e]
    (∀ b ∈ bodies, ((sending b).packets.filter (fun p => p.lane == 0 && p.src == .core 0 && p.dst == .die 0)).drop 0 = somePacket b :: [] ∧ (somePacket b).after.any (notDone (sending b)) = false ∧ (somePacket b).core < 512) ∧
    dieGone (sending (.signal 63 63 65535)) (ctxDie 63) = false ∧ dieGone { sending (.signal 63 63 65535) with mod := { base.mod with db := { base.mod.db with pendLoss := [7] } } } (ctxDie 63) = true ∧
    dieGone (sending (.share someShare 0)) 0 = false ∧ ((sending (.share someShare 0)).waiting.get [] 0).length < waitingLimit ∧
    (match homeAccess (sending (.access 0 (.glob 2 8) (.store [1] [true]) (some 0) e)) 0 (.glob 2 8) (.store [1] [true]) (some 0) with | .done _ _ => true | _ => false) = true := by decide +kernel

/-- Two stores of one core to different bytes under way: the second may perform first (R232). -/
theorem test_hypotheses_PacketsAndChannels_picked :
    let e := someEntry
    let p := somePacket (.access 0 (.glob 2 8) (.store [1] [true]) (some 0) e)
    let q := { somePacket (.access 0 (.glob 2 16) (.store [1] [true]) (some 0) e) with id := 4 }
    let s := { sending (.signal 0 0 0) with packets := [p, q] }
    let line := s.packets.filter (fun p => p.lane == 0 && p.src == .core 0 && p.dst == .die 0)
    line.drop 1 = q :: [] ∧ (line.take 1).any (fun z => blocksPacket z q) = false := by decide +kernel

theorem test_hypotheses_PacketsAndChannels_tokens :
    let s := copying 7 [] [0]
    let x := someXf 7 [] [0] 1
    let y := someXf 1 [4 * 2 ^ 60, 2 ^ 60] [] 1
    let t := reading 1 [4 * 2 ^ 60, 2 ^ 60]
    xfFind s 0 3 true = some x ∧ x.orphan = false ∧ (coreAt s 0).b.refetchWait.contains 3 = false ∧ 0 ∈ x.sent ∧ x.sentUs.get 0 0 ≠ 0 ∧ x.sentUs.get 0 0 + 99 ≤ s.us ∧
    xfFind t 0 3 true = some y ∧ (t.mod.peerReads.filter (fun r => r.core == 0 && r.tok == y.tok && r.vcc == y.vcc)).filter (fun r => decide (r.data.length < r.n)) = [someRead] ∧
    someRead.data.length < someRead.n ∧ someRead.us + 50000 ≤ t.us := by decide +kernel

theorem test_hypotheses_PacketsAndChannels_memories :
    let q := globKey 1 0 / 32
    let bad := fun (n : Nat) => { lone [] id with wrong := { cells := [(q, n)] } }
    (memBank base 15).dead.contains 31 = false ∧ (memBank base 15).period ≠ 0 ∧ bankHolds base 15 (32 * (globKey (7 * 2 ^ 20) 0 / 32)) = true ∧ isSpilledKey (bad 1) (32 * q) = false ∧ hbmDie (32 * q) = some 0 ∧
    (bad 1).poison.get false q = false ∧ deadSector (bad 1) (32 * q) = false ∧ (bad 1).wrong.get 0 q = 1 ∧ 1 < (bad 2).wrong.get 0 q := by decide +kernel

/-- A sector of die 0 that no spilled tensor holds lies in one of its stacks. -/
theorem test_hypotheses_PacketsAndChannels_stack (s : State) (k : Nat) (h : isSpilledKey s k = false) (d : hbmDie k = some 0) (z : isLost s 0 = false) : ∃ m, memOf s k = some m ∧ m < 16 := by
  have e : Config.channelOf (k / 32) % 64 / 32 = 0 ∨ Config.channelOf (k / 32) % 64 / 32 = 1 := by omega
  rcases e with e | e <;> simp [memOf, h, d, hostDie, z, stacksOf, nthD]

/-! ### Waits, launches and dispatch -/

theorem test_hypotheses_StreamWaits :
    let box := stream [] [] (fun x => { x with state := .running, wait := some (.mailbox 3 2 0 5) })
    let waits := fun (k : WaitKind) (lim : BitVec 32) => { stream [] [] (fun x => { x with wait := some k, limit := lim }) with us := 6 }
    let f : Failure := { step := 1, code := codeBounds, core := 3, chain := [] }
    let failed := stream [] [] (fun x => { x with fails := [f], inbox := [(63, 65535)] })
    (ctx box 0).wait = some (.mailbox 3 2 0 5) ∧ declared box 0 2 = true ∧ dieGone box 0 = false ∧ isReady box 2 = true ∧ BitVec.ofNat 64 (readNat box (.glob 2 0) 8) ≠ 5 ∧ BitVec.ofNat 64 (readNat box (.glob 2 0) 8) = 0 ∧
    poisoned box (.glob 2 0) 8 = false ∧ waitOver (waits (.event 63 1) 5) 0 (.event 63 1) = false ∧ waitOver (waits (.event 63 0) 5) 0 (.event 63 0) = true ∧ limited (waits (.event 63 1) 5) 0 (.event 63 1) = true ∧
    (ctx (waits (.event 63 1) 5) 0).limit ≠ 0 ∧ (ctx (waits (.event 63 1) 5) 0).limit.toNat < 6 - (ctx (waits (.event 63 1) 5) 0).waitUs ∧ limited (waits .queue 5) 0 .queue = false ∧
    (ctx failed 0).inbox = [(63, 65535)] ∧ (ctx failed 0).fails = [f] ∧ (ctx failed 0).wait = none ∧ (ctx failed 0).woken = false ∧ queueFree (waits .queue 0) 0 = true := by decide +kernel

/-- Launch 7 in a given condition. -/
def launching (f : Launch → Launch) : State :=
  updRec (updLaunch base 7 (fun x => f { x with gx := 4, gy := 2, gz := 1, plCount := 1, ops := [{ ptr := globalPtr 2 0, len := 8, rd := true, wr := false, retr := false }] })) 2
    (fun r => { r with state := .hbm, bytes := 4096 })

/-- Launch 7 waits to restore a tensor that its die has no room for and no victim to make room. -/
def roomless (f : Launch → Launch) : State :=
  let m : Move := { h := 2, restore := true, comp := false, page := 0, marked := [], pass := 0, lines := 0, staged := false, forced := false }
  updHasp (updRec { launching (fun x => f { x with state := .waitRes }) with us := 20000 } 2 (fun t => { t with state := .spilled, bytes := 2 ^ 40 })) 0 (fun x => { x with moves := [m] })

theorem test_hypotheses_LaunchesProceed_waits :
    let w := launching (fun x => { x with state := .waitEv, waits := [(63, 0)] })
    let none_ := launching (fun x => { x with state := .waitEv, gy := 0 })
    let zero : Pred := { site := 0, dim := 0, slot := 0, min := 1, maxe := 4, ext := 4, learn := true, truth := some 0, cut := none, trimmed := false }
    let known := launching (fun x => { x with state := .waitEv, pred := some zero })
    let g := withExtent (launchOf known 7) 0 0
    let r := { launching (fun x => { x with state := .waitRes }) with maps := { cells := [(0, 0x80)] } }
    (launchOf w 7).state = .waitEv ∧ (launchOf w 7).waits.all (fun y => evMet w 0 y.1 y.2) = true ∧ bracketFirst w 7 = true ∧ (neededTensors (launchOf w 7)).all (fun h => isResident (trec w h)) = true ∧
    (launchOf w 7).pred = none ∧ (launchOf w 7).gx * (launchOf w 7).gy * (launchOf w 7).gz ≠ 0 ∧ (launchOf none_ 7).what = .tasks ∧ (launchOf none_ 7).gx * (launchOf none_ 7).gy * (launchOf none_ 7).gz = 0 ∧
    (launchOf none_ 7).pred = none ∧ (launchOf known 7).pred = some zero ∧ g.gx * g.gy * g.gz = 0 ∧
    (launchOf r 7).state = .waitRes ∧ (launchOf r 7).fail = none ∧ allResident r (launchOf r 7) = true ∧ (launchOf r 7).bracket = none ∧ (launchOf r 7).what = .tasks ∧ (launchOf r 7).pred = none ∧
    (∀ k < 1, (mapEntry r 0 (0 + k)).getLsbD 7 = true) ∧ (launchOf r 7).plMode ≠ 1 ∧ (mapEntry (launching id) 0 0).getLsbD 7 = false := by decide +kernel

theorem test_hypotheses_LaunchesProceed :
    let free := roomless id
    let late := roomless (fun x => { x with roomUs := [(2, 10000, 0)] })
    let arr := { base with waiting := { cells := [(0, [someShare])] } }
    let p : Pred := { site := 0, dim := 0, slot := 0, min := 1, maxe := 4, ext := 4, learn := true, truth := some 2, cut := none, trimmed := false }
    let tr := launching (fun x => { x with state := .running, pred := some p })
    let done := launching (fun x => { x with state := .running, sig := some 63, fail := some (codeBounds, 3) })
    (launchOf free 7).state = .waitRes ∧ 2 ∈ neededTensors (launchOf free 7) ∧ noVictim free 2 = true ∧ (launchOf free 7).roomUs = [] ∧
    (launchOf late 7).roomUs.find? (fun r => r.1 == 2) = some (2, 10000, 0) ∧ 10000 + 10000 ≤ late.us ∧ (launchOf late 7).fail = none ∧
    arr.waiting.get [] 0 = [someShare] ∧ isRetired arr 0 = false ∧ (disp arr 0).shares.length < 16 ∧ (disp arr 0).shares.any (fun y => y.launch == 7) = false ∧
    (launchOf tr 7).pred = some p ∧ (launchOf tr 7).state = .running ∧ squashed 7 p 2 tr = [] ∧ taskOf tr 0 = none ∧
    tasksOver done 7 = true ∧ frozenIn done 7 = false ∧ drained done 7 = true ∧ (launchOf done 7).sub = none ∧ (launchOf done 7).bracket = none ∧ (launchOf done 7).what = .tasks := by decide +kernel

/-- An image of eight bytes of code at 64, whose checks pass where the checksum is the one given (R324, R325). -/
def imageBytes (crc : Nat) : List Byte :=
  leBytes 0x4954574C 4 ++ leBytes 1 4 ++ leBytes 64 4 ++ leBytes 8 4 ++ leBytes 0 8 ++ leBytes crc 4 ++ List.replicate 36 0 ++ leBytes 0x04304200B4000002 8

theorem test_hypotheses_TasksDispatched_image :
    let s := fun (crc : Nat) => updLaunch (stream [] (imageBytes crc) id) 7 (fun x => { x with entry := globalPtr 2 64 })
    let crc := (crc32c (leBytes 0x04304200B4000002 8)).toNat
    readImage (s crc) 2 64 = .ok { handle := 2, gen := 0, codeOff := 64, codeLen := 8, constOff := 0, constLen := 0 } ∧ readImage (s 0) 2 64 = .error codeDataUe ∧ dieGone (s crc) 0 = false ∧ isResident (trec (s crc) 2) = true := by
  decide +kernel

theorem test_hypotheses_TasksDispatched_dispatch :
    let s := { updDisp (launching (fun x => { x with state := .running })) 0 (fun d => { d with shares := [someShare] }) with maps := { cells := [(0, 0x80)] } }
    clusterExists 0 = true ∧ (∀ i < 4, (coreAt s (clusterCore 0 i)).frames = []) ∧ (disp s 0).reserved = none ∧ (disp s 0).shares = [someShare] ∧ someShare.cl = 0 ∧ isCancelled (launchOf s 7) (0, 0, 0, 0, false) = false ∧ dispatchable s someShare = true ∧ someShare.group = false ∧ 0 < someShare.cls ∧
    someShare.cls < 4 ∧ coresFor s someShare = [0, 1, 2, 3] ∧ someShare.todo = (0, 0, 0, 0, false) :: [] := by decide +kernel

theorem test_hypotheses_TasksDispatched_end :
    let task := fun (f : Task → Task) => lone [] (fun b => { b with task := b.task.map f })
    let s := task (fun t => { t with stage := .loading, image := none })
    let saving := task (fun t => { t with stage := .saving false })
    let slow := { task (fun t => { t with limit := 5 }) with clk := 6 }
    let halted := updPart (task id) 0 (fun p => { p with halted := true, overran := [0, 0] })
    let held := updDisp { updBody (task (fun t => { t with prov := true })) 0 (fun b => { b with pause := some { cause := 7, since := 0 }, stuck := some 0 }) with clk := 65536, maps := { cells := [(0, 0x80)] } } 0 (fun d => { d with shares := [someShare] })
    let full := [1, 2, 3].foldl (fun s c => updBody s c (fun b => { b with task := some placedTask })) held
    let sub := updDisp { full with us := 100 } 0 (fun d => { d with shares := [{ someShare with sub := true }] })
    (taskOf s 0).map (fun t => (t.stage, t.image)) = some (.loading, none) ∧ groupOf s 0 = [0] ∧ privAsleep s [0] = none ∧ (coreAt s 0).image = none ∧ (coreAt s 0).b.tendRegs = none ∧
    (taskOf saving 0).map (fun t => t.stage) = some (.saving false) ∧ saveReady saving 0 = true ∧ mayFreeze (task id) 0 = true ∧ (taskOf (task id) 0).map (fun t => (t.part, t.group)) = some (0, false) ∧
    (taskOf slow 0).map (fun t => overran slow t) = some true ∧ (partOf slow 0).halted = false ∧ (partOf halted 0).halted = true ∧ (overranTask halted (partOf halted 0)).isSome = true ∧ hasOverrun (partOf halted 0).overran ((groupOf halted 0).headD 0) 0 = true ∧ hasOverrun (partOf halted 0).overran 1 0 = false ∧ (launchOf halted 7).state ≠ .done ∧
    (launchOf halted 7).fail = none ∧ freeCores full 0 = [] ∧ (disp full 0).shares.any (dispatchable full) = true ∧ isProv full 0 = true ∧ mayFreeze full 0 = true ∧
    (∀ q ∈ (List.range 4).map (clusterCore 0), isProv full q = true → mayFreeze full q = true → q = 0) ∧ awaitsTruth full 0 = true ∧ (coreAt full 0).b.stuck = some 0 ∧ 0 + 65536 ≤ full.clk ∧
    (disp sub 0).shares = [{ someShare with sub := true }] ∧ dispatchable sub { someShare with sub := true } = true ∧ noCoreAnywhere sub 7 = true ∧ clusterSaving sub 0 = false ∧ (bestVictim sub (victims sub 0)).isSome = true := by
  decide +kernel

/-! ### Residency -/

/-- Tensor 2 of a terabyte on die 0, whose free memory lies below its low mark; it can be compressed, and nothing else. -/
def crowded (f : TRec → TRec) : State :=
  updRec (updHasp base 0 (fun x => { x with low := 0xFFFF, high := 0xFFFF })) 2 (fun r => f { r with state := .hbm, bytes := 2 ^ 40 })

/-- Tensor 2 of two pages with a move under way. -/
def moving (m : Move) : State := updHasp (updRec base 2 (fun r => { r with state := .spilled, busy := true, bytes := 131072 })) 0 (fun x => { x with moves := [m] })

/-- A move of tensor 2. -/
def someMove (page : Nat) (marked : List Nat) (pass : Nat) : Move :=
  { h := 2, restore := true, comp := false, page := page, marked := marked, pass := pass, lines := 0, staged := false, forced := false }

theorem test_only_compress : ∀ b, actOk (crowded id) 2 b = true ↔ b = .compress := by
  intro b; cases b <;> decide +kernel

/-- Tensor 2 is restored while tensor 3 is spilled, in swap pairs mode. -/
def swapping (f : Move → Move) : State :=
  let e : Move := { someMove 0 [] 0 with h := 3, restore := false }
  updRec (updHasp (moving (someMove 0 [] 0)) 0 (fun x => { x with moves := [f (someMove 0 [] 0), f e], defmode := true })) 3 (fun t => { t with state := .hbm, busy := true, bytes := 131072 })

theorem test_hypotheses_EvictionAndMoves :
    let s := crowded id
    let r := moving (someMove 0 [7] 0)
    (hasp s 0).moves.any (fun k => !k.restore) = false ∧ mustEvict base 0 = false ∧ mustEvict s 0 = true ∧ candidates s 0 = [2] ∧ (trec s 2).nuse = noUse ∧
    mustEvict (crowded (fun r => { r with pincnt := 1 })) 0 = true ∧ candidates (crowded (fun r => { r with pincnt := 1 })) 0 = [] ∧ freePages s 0 < lowPages s 0 ∧
    moveOf r 2 = some (someMove 0 [7] 0) ∧ moveOpen r (someMove 0 [7] 0) = true ∧ swapPartner r (someMove 0 [7] 0) = none ∧ ¬ Nat.max 1 (hasp r 0).retry.toNat ≤ 0 + 1 ∧ Nat.max 1 (hasp r 0).retry.toNat ≤ 2 + 1 ∧
    moveOpen (moving (someMove 0 [] 0)) (someMove 0 [] 0) = true ∧ 0 + 1 < pagesOf (trec r 2).bytes ∧
    (hasp s 0).hfBusy = false ∧ (0x4000002 : BitVec 64).getLsbD 26 = true ∧ bitsOf 0x4000002 0 23 = 2 ∧ isPageTable 2 = false ∧ isPinned s 2 = false ∧ (trec s 2).busy = false ∧ actOk s 2 .compress = true ∧
    (trec base 2).state = .free := by decide +kernel

theorem test_hypotheses_EvictionAndMoves_swap :
    let last := fun (m : Move) => { m with staged := true, lines := 511 }
    let p : Packet := { somePacket (.delta 15 8 [1, 2]) with lane := 3, src := .die 0, dst := .die 7 }
    let past := moving (someMove 2 [] 0)
    let under := { past with packets := [p], mod := { past.mod with db := { past.mod.db with slots := { cells := [(15, (2, 0))] } } } }
    moveOf (swapping id) 2 = some (someMove 0 [] 0) ∧ moveLeft (swapping id) (someMove 0 [] 0) = true ∧ (swapPartner (swapping id) (someMove 0 [] 0)).map (fun e => e.h) = some 3 ∧
    moveOf (swapping last) 2 = some (last (someMove 0 [] 0)) ∧ moveLeft (swapping last) (last (someMove 0 [] 0)) = true ∧ (swapPartner (swapping last) (last (someMove 0 [] 0))).isSome = true ∧ 511 ≤ (last (someMove 0 [] 0)).lines ∧
    moveOf past 2 = some (someMove 2 [] 0) ∧ pagesOf (trec past 2).bytes ≤ (someMove 2 [] 0).page ∧ deltaUnder past 2 = false ∧ (hasp past 0).bounce = [] ∧ deltaUnder under 2 = true := by decide +kernel

theorem test_hypotheses_RecipesAndTables :
    let r : Reissue := { h := 2, chain := [2], pinned := [1], asks := [], part := 0, cls := 2, sub := none, failed := false }
    let s0 := updRec (updRec base 1 (fun t => { t with state := .hbm, bytes := 256 })) 2 (fun t => { t with state := .dropped, bytes := 256, recix := some 5, rvalid := true })
    let s := { s0 with reissues := [r], recipes := { cells := [(recipeKey 0 5, { Recipe.zero with code := 1, inputs := [(1, 0)] })] } }
    let run := { s with reissues := [{ r with sub := some 64 }], ctxs := { cells := [(64, { Ctx.zero with state := .ended, sub := some 2 })] } }
    let w := updCtx (updRec { s with reissues := [] } 1 (fun t => { t with rhcnt := 1 })) 0 (fun x => { x with wait := some (.store 1) })
    s.reissues = [r] ∧ hostDie s (handleDie 2) = 0 ∧ dieGone s 0 = false ∧ mayStart s r = true ∧ (subCtxs 0).find? (fun k => (ctx s k).sub.isNone) = some 64 ∧ (recipeOf s 2).isSome = true ∧
    reissueOf run 2 = some { r with sub := some 64 } ∧ (ctx run 64).state = .ended ∧ run.launches.cells = [] ∧ (trec w 1).rhcnt ≠ 0 ∧ writerWaits w 1 = true ∧ dependents w 1 = [2] ∧ reissueOf w 2 = none ∧
    writerWaits s 1 = false ∧ coreExists 0 = true ∧ (taskOf (lone [] id) 0).map (fun k => k.launch) = some 7 ∧ (homeEntry (lone [] id) 7 1).isSome = true := by decide +kernel

theorem test_hypotheses_RecipesAndTables_bounced :
    let x : Bounced := { h := 2, o := 0, bytes := [1], bad := [false], tag := 0, line := 0 }
    let b := fun (f : TRec → TRec) => updHasp (updRec base 2 (fun t => f { t with state := .hbm, bytes := 256 })) 0 (fun y => { y with bounce := [x] })
    let s := b id
    let away := b (fun t => { t with state := .spilled })
    (hasp s 0).bounce = [x] ∧ handleDie 2 = 0 ∧ (trec s 2).state ≠ .free ∧ (trec s 2).freeing = false ∧ (trec (b (fun t => { t with lost := true })) 2).lost = true ∧ (trec s 2).lost = false ∧
    isResident (trec away 2) = false ∧ (trec away 2).state ≠ .free ∧ isResident (trec s 2) = true ∧ linkFits s 2 0 1 = true := by decide +kernel

/-- A byte written to a tensor makes the entry of its page valid. -/
theorem test_hypotheses_RecipesAndTables_walk : bitAt (walk (storeGlob (lone [] id) 1 0 [1] [true]) 0 0) 0 = true := by decide +kernel

/-! ### Core events, engines and Deadbolt -/

/-- The words of a bundle at the start of core 0's store. -/
def withBundle (l : List Nat) (s : State) : State := { s with mem := s.mem.setBytes (storeKey 0 0) (l.flatMap (fun w => leBytes w 4)) }

theorem test_hypotheses_CoreEvents_bundles :
    let s := withBundle [0xB4000002, 0x04304200] (lone [] id)
    groupOf s 0 = [0] ∧ fetchBundle s 0 = .ok (0xB4000002, [(1, 0x04304200)]) ∧ decodeSlot 1 0x04304200 = .ok (.add 3 1 2) ∧ fetchBundle (lone [] id) 0 = .error codeIllegal := by decide +kernel

theorem test_hypotheses_CoreEvents_errors :
    let at_ := fun (f : Body → Body) => withBundle [0xB4000002, 0x04304200] (lone [] f)
    let ck := withBundle [0xB4000202, 0x04304200] (lone [] (fun b => { b with pause := some { cause := 12, since := 0 } }))
    let moved := at_ (fun b => { b with pause := some { cause := 12, since := 0 } })
    let ended := { ck with clk := 5 }
    let past := { moved with clk := 5 }
    let bad := at_ (fun b => { b with detected := some (codePoison, 0, 0), ckpt := some b.r })
    let m : CheckMode := { rerun := 1, first := none, code := codePoison, pc0 := 8, next := 0, crcB := 0, slot := 0, entry := 0 }
    let again := at_ (fun b => { b with detected := some (codePoison, 0, 0), check := some m })
    (coreAt ck 0).b.pause = some { cause := 12, since := 0 } ∧ (coreAt ck 0).b.detected = none ∧ (coreAt ck 0).b.check = none ∧ pausedFor 12 [0] 0 (issueBundle 0 (unpause [0] ck)) = true ∧ pausedFor 12 [0] 0 (issueBundle 0 (unpause [0] moved)) = false ∧
    (coreAt ended 0).b.pause = some { cause := 12, since := 0 } ∧ inTend ended 0 = false ∧ pausedFor 12 [0] 0 (issueBundle 0 (unpause [0] ended)) = true ∧
    (coreAt past 0).b.pause = some { cause := 12, since := 0 } ∧ inTend past 0 = false ∧ pausedFor 12 [0] 0 (issueBundle 0 (unpause [0] past)) = false ∧ 0 < past.clk ∧
    (coreAt bad 0).b.detected = some (codePoison, 0, 0) ∧ rollable bad 0 = true ∧ (coreAt bad 0).b.check = none ∧ (coreAt bad 0).b.noroll = false ∧ (coreAt bad 0).b.ckpt.isSome = true ∧
    clusterExists 0 = true ∧ clusterCore 0 0 = 0 ∧ (coreAt again 0).b.check.isSome = true ∧ (coreAt again 0).b.detected.isSome = true ∧ repeatsPoison (coreAt again 0).b = false ∧
    2 ^ 17 - 1 < 2 ^ 17 ∧ (coreAt ck 0).ready.getLsbD ((2 ^ 17 - 1) / 2 ^ 12) = true := by decide +kernel

/-- A store that for 1 ms has found no room for its page: the memory of its die is all set aside for parity, and every tensor there is pinned. -/
def starved : State :=
  let pin := fun (h : Nat) (s : State) => updRec s h (fun r => { r with pincnt := 1 })
  let s := pin 1 (pin 2 (sending (.access 0 (.glob 2 8) (.store [1] [true]) (some 0) someEntry)))
  { s with packets := s.packets.map (fun p => { p with lackUs := some 0 }), us := 1000, mod := { base.mod with db := { base.mod.db with dbslots := 0xFFFFFF } } }

theorem test_hypotheses_CoreEvents_stores :
    let h : HingeRel := { flagH := 2, flagO := 0, value := 1, head := 2, count := 1, newown := 63 }
    let s := sending (.hinge h 0 0 someEntry)
    let bad := sending (.hinge { h with head := 0 } 0 0 someEntry)
    let chain := walkChain s 0 0 0 1 2 []
    starved.packets.find? (fun y => y.core == 0 && lacksPage starved y && (match y.lackUs with | some u => decide (u + 1000 ≤ starved.us) | none => false) &&
      (match packetSpan y with | some (.glob g _, _) => noRoomLeft starved (handleDie g) | _ => false)) = starved.packets.head? ∧ starved.packets ≠ [] ∧ landOf (.store [1] [true]) = none ∧
    firstHinge s 0 = some (somePacket (.hinge h 0 0 someEntry)) ∧ dieGone s 0 = false ∧ (trec s 2).owner.toNat = 0 ∧ (match chain with | .pages l => l == [2] | _ => false) = true ∧
    (newPages s 2 0 8).length ≤ freePages s 0 ∧ firstHinge bad 0 = some (somePacket (.hinge { h with head := 0 } 0 0 someEntry)) ∧ (match walkChain bad 0 0 0 1 0 [] with | .fail c => c == codeBounds | _ => false) = true := by decide +kernel

theorem test_hypotheses_EnginesAndDeadbolt_commands :
    let mx := fun (f : MxCmd → MxCmd) => lone [] (fun b => { b with mxQ := [f { someMx (corner false) none with op := 5 }] })
    let fresh_ := mx (fun m => { m with started := false })
    let bad := mx (fun m => { m with started := false, fault := some codeBounds })
    let snap : List Word := [2 ^ 60, 2 ^ 60 + 4096, 0, 0, 0, 0, 0, 0, 128 + 2 ^ 24 + 2 ^ 40, 0, 0, 0]
    let x : XfCmd := { someXf 1 snap [] 1 with started := false }
    let xf := lone [] (fun b => { b with xfQ := [x] })
    (∃ m ∈ mxHead fresh_ 0, m.tok = 3 ∧ m.started = false ∧ m.ins = [] ∧ m.op = 5 ∧ m.fault = none ∧ m.after = []) ∧ (∃ m ∈ mxHead bad 0, m.fault = some codeBounds ∧ m.orphan = false) ∧
    (coreAt bad 0).b.refetchWait.contains 3 = false ∧ mxHead xf 0 = none ∧ xfFind xf 0 3 false = some x ∧ x.ins = [] ∧ x.after = [] ∧ x.orphan = false ∧ x.op ≠ 8 ∧ x.op ≠ 11 ∧ locksFit xf (lockRanges xf x) = true ∧
    xfEmpty snap = false ∧ xfEmpty [0] = true ∧ (∃ m ∈ mxHead (mx id) 0, m.started = true ∧ m.micro = none ∧ m.op = 5) := by decide +kernel

theorem test_hypotheses_EnginesAndDeadbolt_lines :
    let snap : List Word := [2 ^ 60, 2 ^ 60 + 4096, 0, 0, 0, 0, 0, 0, 128 + 2 ^ 24 + 2 ^ 40, 0, 0, 0]
    let x := someXf 1 snap [] 1
    let s := lone [] (fun b => { b with xfQ := [x] })
    let span := xfSpan x 0 0
    let src := lineSource 0 x 0 span.1 span.2 s
    xfFind s 0 3 true = some x ∧ x.cancel = false ∧ hostSource x = false ∧ 0 < xfRows x ∧ x.line < xfLines x 0 ∧ 0 * 2 ^ 20 + x.line ∉ x.did ∧
    (match src with
      | .ok (u, bytes, bad) => (match lineSink 0 x 0 span.1 bytes bad u with | .ok u => (match syncUpdate 0 x span.2 u with | .ok _ => true | _ => false) | _ => false)
      | _ => false) = true := by decide +kernel

theorem test_hypotheses_EnginesAndDeadbolt_tables :
    let snap : List Word := [2 ^ 60, 0, 0, 2 ^ 7, 0, 0, 0, 0, 48 + 2 ^ 24 + 2 ^ 40, 0, 0, 0]
    let w : WBlock := { tok := 3, vcc := 0, idx := 0, table := some 1, src := List.replicate 48 0, pos := [] }
    let s := lone [] (fun b => { b with xfQ := [someXf 3 snap [] 1], wbQ := [w] })
    let t := { lone [] (fun b => { b with tab1 := { b.tab1 with loading := true, due := 6, bad := true } }) with clk := 6 }
    let p : Packet := { somePacket (.delta 15 8 [1, 2]) with lane := 3, dst := .die 7 }
    let d := { base with packets := [p] }
    let lost := { base with mod := { base.mod with db := { base.mod.db with lostdies := 1, pendLoss := [0], rebuilding := true } } }
    (coreAt s 0).b.wbQ.find? (wbReady (coreAt s 0).b) = some w ∧ (coreAt s 0).b.xfQ.find? (isCmd w.tok w.vcc) = some (someXf 3 snap [] 1) ∧ xfSync snap = 0 ∧
    (tabSlot (coreAt t 0).b 1).loading = true ∧ (tabSlot (coreAt t 0).b 1).due ≠ 0 ∧ (tabSlot (coreAt t 0).b 1).due ≤ t.clk ∧ (tabSlot (coreAt t 0).b 1).bad = true ∧ (coreAt t 0).b.task.isSome = true ∧
    isLost d 7 = false ∧ d.packets.find? (fun y => y.lane == 3 && y.dst == .die 7) = some p ∧ isUp d = true ∧ dieGone lost 0 = true ∧ isLost lost 0 = true ∧ (∀ y ∈ lost.packets, y.lane ≠ 3) ∧
    isUp { d with mod := { d.mod with db := { d.mod.db with group := 2 ^ 50 } } } = true ∧ (2 ^ 50 : BitVec 64).getLsbD 50 = true := by decide +kernel

/-! ### The step -/

/-- Core 0 with an ADD at its PC and a turn of it. -/
def turnOfCore : State := { withBundle [0xB4000002, 0x04304200] (lone [(1, 5), (2, 7)] id) with agenda := [{ us := 1, clks := 2, actor := .core 0 }] }

theorem test_hypotheses_StepRunsTheDecoded_core :
    let o := passTime 1 2 { turnOfCore with agenda := [] }
    clocksRun o = true ∧ (taskOf o 0).isSome = true ∧ (imageOf o 0).isSome = true ∧ fieldW (coreAt o 0).b.r.pc 0 40 = 0 ∧ leNat (o.mem.bytes (storeKey 0 0) 4) = 0xB4000002 ∧ leNat (o.mem.bytes (storeKey 0 4) 4) = 0x04304200 ∧
    headerOk 0xB4000002 = true ∧ slotsOf 0xB4000002 = [1] ∧ bundleLen 0xB4000002 = 8 ∧ 0 + bundleLen 0xB4000002 ≤ 64 ∧ soleSlot 1 = true ∧ decodeSlot 1 0x04304200 = .ok (.add 3 1 2) := by decide +kernel

theorem test_hypotheses_StepRunsTheDecoded_context :
    let s := { stream [] [] id with mem := Memory.empty.setBytes (globKey 1 64) (leBytes 0x2018820000000000 8), agenda := [{ us := 0, clks := 0, actor := .ctx 0 }] }
    let o := passTime 0 0 { s with agenda := [] }
    clocksRun o = true ∧ (ctx o 0).fails = [] ∧ executes (ctx o 0) = true ∧ (ctx o 0).sub = none ∧ expanding (ctx o 0) = false ∧ declared o 0 (ptrH (ctx o 0).code) = true ∧ isReady o 1 = true ∧ dieGone o 0 = false ∧
    readNat o (.glob 1 64) 8 = 0x2018820000000000 ∧ bitsOf 0x2018820000000000 56 2 = 0 ∧ (ctx o 0).pc.toNat + 8 ≤ (trec o 1).bytes ∧ poisoned o (.glob 1 64) 8 = false ∧
    decodeStream 0x2018820000000000 [] = .ok (.streamAdd 3 2 1) := by decide +kernel

theorem test_hypotheses_StepRunsTheDecoded_others :
    let s := placeMicro 0x1800000000000000 base
    clocksRun s = true ∧ microNow s 0 = some .mmac ∧ mayHappen (powered (fun p => { p with boot := .off })) (.checkpoint 0) = false ∧ mayHappen base .m1Exit = true ∧ base.mod.power.state ≠ .m2 := by decide +kernel

theorem test_hypotheses_SlotInstructionsAreTheirEffects : soleSlot 8 = true ∧ decodeSlot 8 0x3010C000 = .ok (.tbld 1 3) ∧ soleSlot 0 = true ∧ decodeSlot 0 0x44500010 = .ok (.sysr 5 0x10) := by decide +kernel

theorem test_hypotheses_MemoryStaysCanonical : State.reset.mem.wf = true ∧ turnOfCore.mem.wf = true := by decide +kernel

/-! ### The spec's worked examples -/

/-- 123456789 in characters: the published check value of CRC-32C. -/
theorem test_crc32c : crc32c [0x31, 0x32, 0x33, 0x34, 0x35, 0x36, 0x37, 0x38, 0x39] = 0xE3069283 := by decide +kernel

/-- The published digest of "abc" under SHA-384. -/
theorem test_sha384 : (sha384 [0x61, 0x62, 0x63]).take 4 = [0xcb, 0x00, 0x75, 0x3f] := by decide +kernel

/-- The 9-byte block of R313. -/
theorem test_lz4_example : lz4Block [0x42, 0x61, 0x62, 0x63, 0x64, 0x04, 0x00, 0x10, 0x65] =
    some [0x61, 0x62, 0x63, 0x64, 0x61, 0x62, 0x63, 0x64, 0x61, 0x62, 0x65] := by decide +kernel

/-- The 16-byte BF16 tile of R312. -/
theorem test_zx_example :
    let src : List Byte := [0x80, 0x3F, 0, 0, 0, 0, 0x00, 0x40, 0x80, 0xBF, 0, 0, 0x00, 0x3F, 0, 0]
    let t := zxTile 1 src
    t.take 4 = [0x10, 0x20, 0x17, 0x00] ∧ (t.drop 8).take 8 = List.replicate 8 0 ∧
      t.drop 16 = [0x59, 0x10, 0xFF, 0x00, 0x00, 0x80, 0x00] ∧ zxExpand t = some src := by decide +kernel

/-- The BQ8 block of R307 whose amax is 5.0. -/
theorem test_scale_example : scaleVal true (fdec (ffOf .f32) 0x40A00000) = (129, 121, false) := by decide +kernel

theorem test_pack_example :
    (packVal true 129 121 (fdec (ffOf .f32) 0x40A00000)).1 = 0x28 ∧ (packVal true 129 121 (fdec (ffOf .f32) 0xBF400000)).1 = 0x46 ∧
    (packVal true 129 121 (fdec (ffOf .f32) 0x3C23D70A)).1 = 0x94 ∧ (packVal true 129 121 (fdec (ffOf .f32) 0)).1 = 0 := by decide +kernel

/-- The CB3 words of R308: element 10 straddles two words, and its index is 6. -/
theorem test_cb3_example :
    ((expandCb3 (BitVec.ofNat 128 (0x4190 * 2 ^ 96)) ([0, 0, 0, 0x80, 1, 0, 0, 0] ++ List.replicate 40 0)).drop 20).take 2 = [0x90, 0x41] := by decide +kernel

/-- FRSQ of 4.0 and FEXP2 of 3.0 are exact (R413). -/
theorem test_function_examples :
    fnRsq (ffOf .f32) (fdec (ffOf .f32) 0x40800000) = { bits := 0x3F000000, flags := 0 } ∧
    fnExp2 (ffOf .f32) (fdec (ffOf .f32) 0x40400000) = { bits := 0x41000000, flags := 0 } := by decide +kernel

/-- The first two elements of the table of R414. -/
theorem test_rsqe_example :
    rsqe 0 (fdec (ffOf .f32) 0x40800000) (fdec (ffOf .f32) 0x3F800000) (fdec (ffOf .f32) 0x40400000) = .set { bits := 0x40200010, flags := fNX } ∧
    rsqe 0 (fdec (ffOf .f32) 0xAB800000) (fdec (ffOf .f32) 0x35800000) (fdec (ffOf .f32) 0x3F800000) = .set { bits := 0x3F700000, flags := 0 } := by decide +kernel

/-- The four elements of the merge of R404 that the first tie decides. -/
theorem test_merge_example :
    (mergeL .i64 32 [10, 20, 30, 40] [20, 40, 60, 80]).take 6 = [(10, false), (20, false), (20, true), (30, false), (40, false), (40, true)] := by decide +kernel

/-- The contributions of R317's example: exact, and with a fourth one by the tree. -/
theorem test_reduction_example :
    let c := [0x4B800000, 0x3F800000, 0x3F800000].map (fdec (ffOf .f32))
    sumBits (ffOf .f32) (exactSum c) = 0x4B800001 ∧ isTree (exactSum c) = false ∧
    isTree (exactSum (c ++ [fdec (ffOf .f32) 0x35800000])) = true ∧ sumBits (ffOf .f32) (exactSum (c ++ [fdec (ffOf .f32) 0x35800000])) = 0x4B800001 := by decide +kernel

/-- Words the spec writes out beside its examples (R332, R364, R382, R402, R404, R408, R415, and the counted loop). -/
theorem test_example_words :
    decodeS 0x40310040 = .ok (.addi 3 4 64) ∧ decodeS 0x40104008 = .ok (.addi 1 1 8) ∧ decodeS 0x04A28C00 = .ok (.add 10 10 12) ∧
    decodeLs 0x28510208 = .ok (.amoAdd 5 4 1 8) ∧ decodeLs 0x24312078 = .ok (.ldl 3 4 2 120) ∧
    decodeCtl 0x10004006 = .ok (.loop 0 4 6) ∧ decodeCtl 0x20000000 = .ok .tend ∧
    decodeV 0x04310523 = .ok (.vadd 3 4 5 2 .i64) ∧ decodeV 0x80A10513 = .ok (.vmergeLo 10 4 5 1 .i64) ∧ decodeV 0xA470A52A = .ok (.vcvt 7 2 .bf16 1 1 0 .f32) ∧
    decodeSf 0x2C118020 = .ok (.scld 1 6 2) ∧ decodeMx 0x0470C4B2 = .ok (.mxcall 7 3 4 .bq8 1) ∧ decodeXf 0x04504516 = .ok (.xcopy 5 1 5 5 1) := by decide +kernel

end Sys2Proof.Tests
end

section
/-! What each write of the host's registers does to the state. -/

namespace Sys2Proof.Machine

open Sys2Proof.Safety

/-! ### Bits and tables -/

theorem bitAt_eq_testBit (x i : Nat) : bitAt x i = x.testBit i := by
  rw [Nat.testBit_eq_decide_div_mod_eq]; rfl

theorem bitAt_toNat {w : Nat} (x : BitVec w) (i : Nat) : bitAt x.toNat i = x.getLsbD i := bitAt_eq_testBit _ _

/-- A packed list of bits holds the lowest bit of its element `i` at place `i`. -/
theorem testBit_packElems_one (l : List Nat) (i : Nat) : (packElems 1 l).testBit i = (l.getD i 0).testBit 0 := by
  induction l generalizing i with
  | nil => simp [packElems]
  | cons x t ih =>
    cases i with
    | zero => simp [packElems, Nat.testBit_zero, Nat.add_mod]
    | succ j =>
      have half : (x % 2 ^ 1 + 2 ^ 1 * packElems 1 t) / 2 = packElems 1 t := by omega
      rw [packElems, Nat.testBit_succ, half, ih]; rfl

/-- The bits of a word packed from a test of their places. -/
theorem testBit_packBits (f : Nat → Bool) {n i : Nat} (h : i < n) :
    (packElems 1 ((List.range n).map (fun j => if f j then 1 else 0))).testBit i = f i := by
  rw [testBit_packElems_one, List.getD_eq_getElem _ _ (by simpa using h)]
  cases hf : f i <;> simp [hf]

theorem land_fullMask {v : Nat} (h : v < 2 ^ 64) : Nat.land v fullMask = v :=
  (Nat.and_two_pow_sub_one_eq_mod v 64).trans (Nat.mod_eq_of_lt h)

/-- A write of every bit leaves nothing of the old value. -/
theorem lor_land_fullMask (old : Nat) {v : Nat} (h : v < 2 ^ 64) :
    Nat.lor (Nat.land old (fullMask - Nat.land fullMask fullMask)) (Nat.land v fullMask) = v := by
  rw [land_fullMask h, land_fullMask (by decide : fullMask < 2 ^ 64), Nat.sub_self]
  exact (congrArg (Nat.lor · v) (Nat.and_zero old)).trans (Nat.zero_or v)

theorem merge_fullMask (old : Nat) {v : Nat} (h : v < 2 ^ 64) : merge old fullMask v = v := by
  rw [merge, land_fullMask h]
  exact lor_land_fullMask old h

theorem Tab.get_keep {α : Type} (t : Tab α) (d : α) (p : Nat → Bool) (k : Nat) :
    (t.keep (fun i _ => p i)).get d k = if p k then t.get d k else d := by
  have found (l : List (Nat × α)) : findKey k (l.filter (fun c => p c.1)) = if p k then findKey k l else none := by
    induction l with
    | nil => simp [findKey]
    | cons c l ih =>
      obtain ⟨i, a⟩ := c
      by_cases hk : k = i
      · subst hk; cases hp : p k <;> simp [findKey, hp, ih]
      · cases hp : p i <;> simp [findKey, hp, hk, ih]
  simp only [Tab.get, Tab.keep, found]
  split <;> rfl

/-! ### Register writes through the window (R6, R62, R64) -/

/-- An aligned write of eight bytes touches one word, whole. -/
theorem granules_word {off v : Nat} (ho : off % 8 = 0) (hv : v < 2 ^ 64) : granules off 8 v = [(off, fullMask, v)] := by
  have hg : off / 8 * 8 = off := by omega
  simpa [granules, ho, hg, fullMask] using hv

/-- In M0 an aligned write of eight bytes reaches a listed register under the full mask, and counts where none is listed. -/
theorem writeBar0_word {s : State} {off : Nat} (v : Word) (ho : off % 8 = 0) (hb : s.mod.power.boot = .up) (hm : s.mod.power.state = .m0) :
    writeBar0 off 8 v s = if (regRead s off).isNone then countMiss off true s else regWrite false off fullMask v.toNat s := by
  simp [writeBar0, granules_word ho v.isLt, writeWord, reaches, hb, hm]

theorem ngself_writeBar0 {s : State} (v : Word) (hb : s.mod.power.boot = .up) (hm : s.mod.power.state = .m0) :
    (writeBar0 0x18 8 v s).mod.ngself = v.setWidth 12 := by
  rw [writeBar0_word v (by decide) hb hm]
  change BitVec.ofNat 12 (merge s.mod.ngself.toNat fullMask v.toNat) = v.setWidth 12
  rw [merge_fullMask _ v.isLt, BitVec.ofNat_toNat]

/-- RSVHIT after a miss: the count saturates, and the offset of the last one stands above it. -/
theorem rsvhit_countMiss (s : State) (off : Nat) (write : Bool) :
    fieldW (countMiss off write s).mod.rsvhit 0 32 = min (2 ^ 32 - 1) (fieldW s.mod.rsvhit 0 32 + 1) ∧
      fieldW (countMiss off write s).mod.rsvhit 32 24 = off % 2 ^ 24 := by
  have hn : Nat.min (2 ^ 32 - 1) (fieldW s.mod.rsvhit 0 32 + 1) < 2 ^ 32 := Nat.lt_of_le_of_lt (Nat.min_le_left _ _) (by decide)
  have hw : b1 write ≤ 1 := by cases write <;> decide
  simp only [countMiss]
  change _ = Nat.min (2 ^ 32 - 1) (fieldW s.mod.rsvhit 0 32 + 1) ∧ _
  generalize Nat.min (2 ^ 32 - 1) (fieldW s.mod.rsvhit 0 32 + 1) = n at hn ⊢
  simp only [fieldW, bitsOf, BitVec.toNat_ofNat]
  omega

theorem rsvhit_writeBar0 {s : State} (v : Word) (hb : s.mod.power.boot = .up) (hm : s.mod.power.state = .m0) :
    fieldW (writeBar0 0x48 8 v s).mod.rsvhit 0 32 = min (2 ^ 32 - 1) (fieldW s.mod.rsvhit 0 32 + 1) ∧
      fieldW (writeBar0 0x48 8 v s).mod.rsvhit 32 24 = 0x48 := by
  rw [writeBar0_word v (by decide) hb hm]
  exact rsvhit_countMiss s 0x48 true

/-! ### Scratchpad banks (R27) -/

/-- Whether a write of SPGATE gates a bank: it is asked for, and a bank not gated yet is not in use. -/
def gateTaken (s : State) (c : Nat) (x : Word) (b : Nat) : Bool := x.getLsbD b && !(!(coreAt s c).gate.getLsbD b && bankBusy s c b)

/-- The banks a write of SPGATE is refused. -/
def gateRefused (s : State) (c : Nat) (x : Word) : List Nat :=
  (List.range 32).filter (fun b => bitAt (x.toNat % 2 ^ 32) b && !(coreAt s c).gate.getLsbD b && bankBusy s c b)

/-- GATE as a write of SPGATE leaves it. -/
def gateNumber (s : State) (c : Nat) (x : Word) : Nat :=
  packElems 1 ((List.range 32).map (fun b => if bitAt (x.toNat % 2 ^ 32) b && !(gateRefused s c x).contains b then 1 else 0))

theorem bitAt_low {x : Word} {b : Nat} (hb : b < 32) : bitAt (x.toNat % 2 ^ 32) b = x.getLsbD b := by
  rw [bitAt_eq_testBit, Nat.testBit_mod_two_pow]; simp [hb, BitVec.getLsbD]

theorem mem_gateRefused {s : State} {c : Nat} {x : Word} {b : Nat} (hb : b < 32) :
    b ∈ gateRefused s c x ↔ x.getLsbD b = true ∧ gateTaken s c x b = false := by
  simp only [gateRefused, List.mem_filter, List.mem_range, hb, bitAt_low hb, gateTaken, true_and]
  cases x.getLsbD b <;> cases (coreAt s c).gate.getLsbD b <;> simp

theorem testBit_gateNumber (s : State) (c : Nat) (x : Word) {b : Nat} (hb : b < 32) : (gateNumber s c x).testBit b = gateTaken s c x b := by
  have refused : (gateRefused s c x).contains b = (x.getLsbD b && !gateTaken s c x b) := by
    rw [Bool.eq_iff_iff, List.contains_iff_mem, mem_gateRefused hb]; simp
  rw [gateNumber, testBit_packBits _ hb, refused, bitAt_low hb]
  simp only [gateTaken]
  cases x.getLsbD b <;> simp

theorem coreAt_foldl_dropBank (c : Nat) (l : List Nat) (s : State) (q : Nat) : coreAt (l.foldl (dropBank c) s) q = coreAt s q := by
  induction l generalizing s with
  | nil => rfl
  | cons b l ih => exact ih (dropBank c s b)

/-- A byte that reads zero, or lies in a bank that is dropped, reads zero afterwards. -/
theorem byte_foldl_dropBank (c : Nat) (l : List Nat) (s : State) {b a : Nat} (ha : a < 2 ^ 17)
    (h : b ∈ l ∨ s.mem.byte (spadKey c (b * 2 ^ 17 + a)) = 0) : (l.foldl (dropBank c) s).mem.byte (spadKey c (b * 2 ^ 17 + a)) = 0 := by
  induction l generalizing s with
  | nil => simpa using h
  | cons b' l ih =>
    refine ih (dropBank c s b') ?_
    have dropped : (dropBank c s b').mem.byte (spadKey c (b * 2 ^ 17 + a)) = _ := Memory.byte_zeroRange _ _ _ _
    rw [dropped]
    rcases h with hb | hz
    · rcases List.mem_cons.1 hb with rfl | hb
      · exact .inr (if_pos (by simp only [spadKey]; omega))
      · exact .inl hb
    · exact .inr (by rw [hz]; split <;> rfl)

/-- The core after a write of SPGATE. -/
theorem coreAt_writeSpgate (s : State) (c : Nat) (x : Word) :
    coreAt (writeSpgate s c x) c = { coreAt s c with
      gate := BitVec.ofNat 32 (gateNumber s c x),
      ready := BitVec.ofNat 32 (packElems 1 ((List.range 32).map (fun b => if (coreAt s c).ready.getLsbD b && !bitAt (gateNumber s c x) b then 1 else 0))),
      spstat := if gateRefused s c x = [] then (coreAt s c).spstat else (coreAt s c).spstat ||| 1 } :=
  (coreAt_foldl_dropBank c _ _ c).trans ((core_updCore s c _ c).trans (if_pos rfl))

theorem gate_writeSpgate (s : State) (c : Nat) (x : Word) {b : Nat} (hb : b < 32) :
    (coreAt (writeSpgate s c x) c).gate.getLsbD b = gateTaken s c x b := by
  rw [coreAt_writeSpgate, BitVec.getLsbD_ofNat, testBit_gateNumber s c x hb]
  simp [hb]

theorem ready_writeSpgate (s : State) (c : Nat) (x : Word) {b : Nat} (hb : b < 32) :
    (coreAt (writeSpgate s c x) c).ready.getLsbD b = ((coreAt s c).ready.getLsbD b && !gateTaken s c x b) := by
  rw [coreAt_writeSpgate, BitVec.getLsbD_ofNat, testBit_packBits _ hb, bitAt_eq_testBit, testBit_gateNumber s c x hb]
  simp [hb]

theorem spstat_writeSpgate {s : State} {c : Nat} {x : Word} {b : Nat} (hb : b < 32) (hx : x.getLsbD b = true) (hr : gateTaken s c x b = false) :
    (coreAt (writeSpgate s c x) c).spstat.getLsbD 0 = true := by
  have nonempty : gateRefused s c x ≠ [] := List.ne_nil_of_mem ((mem_gateRefused hb).2 ⟨hx, hr⟩)
  simp [coreAt_writeSpgate, nonempty]

theorem byte_writeSpgate {s : State} {c : Nat} {x : Word} {b a : Nat} (hb : b < 32) (ht : gateTaken s c x b = true)
    (hr : (coreAt s c).ready.getLsbD b = true) (ha : a < 2 ^ 17) : (writeSpgate s c x).mem.byte (spadKey c (b * 2 ^ 17 + a)) = 0 := by
  refine byte_foldl_dropBank c ((List.range 32).filter (fun b => bitAt (gateNumber s c x) b && (coreAt s c).ready.getLsbD b)) _ ha (.inl ?_)
  simp [hb, bitAt_eq_testBit, testBit_gateNumber, ht, hr]

/-- A bank that is woken becomes READY, and no other one does. -/
theorem ready_finishWake {s : State} {c bank : Nat} (hk : bank < 32) (hg : (coreAt s c).gate.getLsbD bank = false)
    (hr : (coreAt s c).ready.getLsbD bank = false) {b : Nat} (hb : b < 32) :
    (coreAt (finishWake c bank s) c).ready.getLsbD b = ((coreAt s c).ready.getLsbD b || decide (b = bank)) := by
  simp only [finishWake, hk, hg, hr, Bool.not_false, and_self, if_true, core_updCore, BitVec.getLsbD_or, BitVec.getLsbD_shiftLeft, hb, BitVec.getLsbD_one]
  congr 1
  rw [Bool.eq_iff_iff]
  simp only [decide_true, Bool.true_and, Bool.and_eq_true, Bool.not_eq_true', decide_eq_true_eq, decide_eq_false_iff_not]
  omega

/-! ### LLC ways (R29, R30) -/

/-- The part of a write of LLCWAY that clears REFUSED. -/
def clearLlcRefused (d v : Nat) (s : State) : State :=
  if bitAt fullMask 17 ∧ bitAt v 17 then { s with mod := { s.mod with llcRef := s.mod.llcRef.set false d false } } else s

theorem llc_clearLlcRefused (d v : Nat) (s : State) : (clearLlcRefused d v s).mod.llc = s.mod.llc := by
  unfold clearLlcRefused; split <;> rfl

theorem hasps_clearLlcRefused (d v : Nat) (s : State) : (clearLlcRefused d v s).hasps = s.hasps := by
  unfold clearLlcRefused; split <;> rfl

/-- Looking up the pinned ways changes no register. -/
theorem mod_pinnedWays (d : Nat) (s : State) : (pinnedWays d s).1.mod = s.mod := by
  unfold pinnedWays; split <;> rfl

/-- A die with no pinned lines has no pinned ways. -/
theorem pinnedWays_of_none {d : Nat} {s : State} (h : llcPinned s d = 0) : pinnedWays d s = (s, 0) := if_pos h

/-- A write of LLCWAY of a die with no pinned lines takes effect, unless it gates every way. -/
theorem llc_writeLlcway {s : State} {d : Nat} {x : BitVec 32} (hd : d < 8) (hp : llcPinned s d = 0) (hx : x.toNat % 2 ^ 16 ≠ 2 ^ 16 - 1) :
    (writeLlcway d fullMask x.toNat s).mod.llc.get 0 d = x.setWidth 16 := by
  have hnew : bitsOf x.toNat 0 16 = x.toNat % 2 ^ 16 := by simp [bitsOf]
  have none_pinned : llcPinned (clearLlcRefused d x.toNat s) d = 0 := by
    simpa only [llcPinned, hasp, hasps_clearLlcRefused] using hp
  simp only [writeLlcway, if_neg (Nat.not_le.2 hd), ← clearLlcRefused.eq_1, lor_land_fullMask _ (Nat.lt_trans x.isLt (by decide)), hnew,
    pinnedWays_of_none none_pinned]
  rw [if_neg (by simpa [Nat.land] using hx)]
  simp [← BitVec.toNat_inj]

theorem llc_writeLlcway_all {s : State} {d : Nat} {x : BitVec 32} (hd : d < 8) (hx : x.toNat % 2 ^ 16 = 2 ^ 16 - 1) :
    (writeLlcway d fullMask x.toNat s).mod.llc.get 0 d = s.mod.llc.get 0 d ∧ (writeLlcway d fullMask x.toNat s).mod.llcRef.get false d = true := by
  have hnew : bitsOf x.toNat 0 16 = 2 ^ 16 - 1 := by simpa [bitsOf] using hx
  simp only [writeLlcway, if_neg (Nat.not_le.2 hd), ← clearLlcRefused.eq_1, lor_land_fullMask _ (Nat.lt_trans x.isLt (by decide)), hnew,
    true_or, if_true, mod_pinnedWays, llc_clearLlcRefused, Tab.get_set, and_self]

/-! ### Cluster maps and vector ranges (R69, R70) -/

theorem maps_zeroCluster (cl : Nat) (s : State) : (zeroCluster cl s).maps = s.maps := rfl

theorem maps_writeMap {s : State} {p i : Nat} {v : BitVec 8} (hp : p < 8) (hi : i < 80) (h : mapRefused s p v = none) :
    (writeMap p i v s).maps.get 0 (p * 80 + i) = v := by
  have written : (writeMap p i v s).maps = s.maps.set 0 (p * 80 + i) v := by
    simp only [writeMap, h, if_neg (show ¬ (8 ≤ p ∨ 80 ≤ i) by omega)]
    split
    · exact maps_zeroCluster _ _
    · rfl
  simp [written]

theorem writeMap_refused {s : State} {p i why : Nat} {v : BitVec 8} (hp : p < 8) (hi : i < 80) (h : mapRefused s p v = some why) :
    writeMap p i v s = refusePart p why s := by
  simp only [writeMap, h, if_neg (show ¬ (8 ≤ p ∨ 80 ≤ i) by omega)]

theorem partOf_refusePart (p why : Nat) (s : State) :
    partOf (refusePart p why s) p = { partOf s p with refused := true, reason := BitVec.ofNat 3 why } := by
  simp [refusePart]

/-- A whole write of PARTCTL sets the range it names. -/
theorem writePartctl_accepted {p : Nat} {v : Word} {s : State} (hp : p < 8) (h : rangeRefused s p (fieldW v 1 11) (fieldW v 12 12) = none) :
    writePartctl p fullMask v.toNat s =
      updPart s p (fun x => { x with vecbase := BitVec.ofNat 11 (fieldW v 1 11), veccount := BitVec.ofNat 12 (fieldW v 12 12) }) := by
  simp only [fieldW] at h ⊢
  simp only [writePartctl, if_neg (Nat.not_le.2 hp), lor_land_fullMask _ v.isLt, h]

theorem writePartctl_refused {p why : Nat} {v : Word} {s : State} (hp : p < 8)
    (h : rangeRefused s p (fieldW v 1 11) (fieldW v 12 12) = some why) : writePartctl p fullMask v.toNat s = refusePart p why s := by
  simp only [fieldW] at h
  simp only [writePartctl, if_neg (Nat.not_le.2 hp), lor_land_fullMask _ v.isLt, h]

/-- A number taken from a field of a word fits a register of the field's width. -/
theorem toNat_ofNat_fieldW (v : Word) (lo n : Nat) : (BitVec.ofNat n (fieldW v lo n)).toNat = fieldW v lo n := by
  simp [fieldW, bitsOf]

/-! ### Interrupt masks (R76) -/

/-- The state with another MSI-X table. -/
def withMsix (t : Tab (BitVec 128)) (s : State) : State := { s with mod := { s.mod with msix := t } }

theorem pending_withMsix (t : Tab (BitVec 128)) (s : State) : (withMsix t s).mod.pending = s.mod.pending := rfl
theorem sent_withMsix (t : Tab (BitVec 128)) (s : State) : (withMsix t s).mod.sent = s.mod.sent := rfl

/-- The state with the Mask bit of an entry cleared. -/
def clearMask (e : Nat) (s : State) : State :=
  withMsix (s.mod.msix.upd msixReset e (fun x => BitVec.ofNat 128 (withBits x.toNat 96 1 0))) s

/-- Send the message of an entry if it is pending. -/
def sendPending (e : Nat) (s : State) : State :=
  if s.mod.pending.get false e then sendMsix e { s with mod := { s.mod with pending := s.mod.pending.set false e false } } else s

theorem unmask_eq (e : Nat) (s : State) : unmask e s = sendPending e (clearMask e s) := rfl

theorem testBit_maskCleared (n : Nat) : (withBits n 96 1 0).testBit 96 = false := by
  rw [← bitAt_eq_testBit]
  simp only [bitAt, withBits, bitsOf, beq_eq_false_iff_ne]
  omega

theorem mask_clearMask (e : Nat) (s : State) : ((clearMask e s).mod.msix.get msixReset e).getLsbD 96 = false := by
  have entry : (clearMask e s).mod.msix.get msixReset e = BitVec.ofNat 128 (withBits (s.mod.msix.get msixReset e).toNat 96 1 0) :=
    (Tab.get_upd _ _ _ _ _).trans (if_pos rfl)
  rw [entry, BitVec.getLsbD_ofNat, testBit_maskCleared, Bool.and_false]

/-- An unmasked entry has nothing pending afterwards, and has sent what was. -/
theorem sendPending_of_unmasked {e : Nat} {s : State} (h : (s.mod.msix.get msixReset e).getLsbD 96 = false) :
    (sendPending e s).mod.msix = s.mod.msix ∧ (sendPending e s).mod.pending.get false e = false ∧
      (sendPending e s).mod.sent = if s.mod.pending.get false e then e :: s.mod.sent else s.mod.sent := by
  cases hp : s.mod.pending.get false e
  · simp [sendPending, hp]
  · simp only [sendPending, hp, sendMsix, h, Bool.false_eq_true, ↓reduceIte, Tab.get_set, and_self]

theorem unmask_spec (e : Nat) (s : State) : ((unmask e s).mod.msix.get msixReset e).getLsbD 96 = false ∧
    (unmask e s).mod.pending.get false e = false ∧
    (unmask e s).mod.sent = if s.mod.pending.get false e then e :: s.mod.sent else s.mod.sent := by
  obtain ⟨hmsix, hpending, hsent⟩ := sendPending_of_unmasked (mask_clearMask e s)
  rw [unmask_eq, hmsix]
  exact ⟨mask_clearMask e s, hpending, by rw [hsent, clearMask, pending_withMsix, sent_withMsix]⟩

/-! ### Functions (R25, R73) -/

theorem foldl_killCtx_of_canStart {s : State} : ∀ {l : List Nat}, (∀ c ∈ l, canStart (ctx s c) = true) → l.foldl (fun s c => killCtx c s) s = s
  | [], _ => rfl
  | c :: l, h => by
    have kept : killCtx c s = s := if_pos (h c List.mem_cons_self)
    rw [List.foldl_cons, kept]
    exact foldl_killCtx_of_canStart (fun c' hc => h c' (List.mem_cons_of_mem c hc))

/-- A reset of a partition whose contexts are not active clears its slots and no others. -/
theorem apslots_resetPart {s : State} {p : Nat} (h : ∀ c < 64, (ctx s c).part.toNat = p → canStart (ctx s c) = true) (k : Nat) :
    (resetPart p s).mod.apslots.get 0 k = if k / 8 = p then 0 else s.mod.apslots.get 0 k := by
  have idle : ∀ c ∈ (List.range 64).filter (fun c => (ctx s c).part.toNat == p), canStart (ctx s c) = true := by
    intro c hc
    simp only [List.mem_filter, List.mem_range, beq_iff_eq] at hc
    exact h c hc.1 hc.2
  simp only [resetPart, foldl_killCtx_of_canStart idle]
  rw [Tab.get_keep]
  by_cases hk : k / 8 = p <;> simp [hk]

theorem configRequest_of_up {s : State} (en : Bool) (nv : BitVec 3) (hb : s.mod.power.boot = .up) (hm : s.mod.power.state ≠ .m3) :
    configRequest (some (en, nv)) s = answerHost .ok { s with mod := { s.mod with vfen := en, numvfs := nv } } := by
  simp [configRequest, hb, hm]

/-! ### Ports and record images (R48, R204) -/

theorem port_updPort (s : State) (q : Nat) (f : Port → Port) : port (updPort s q f) q = f (port s q) :=
  (Tab.get_upd _ _ _ _ _).trans (if_pos rfl)

/-- ENABLE set where it was clear starts the training of the port. -/
theorem port_writeNgport {s : State} {q : Nat} {v : Word} (hq : q < 32) (he : (port s q).enable = false) (hv : v.getLsbD 0 = true) :
    port (writeNgport q v s) q =
      { Port.zero with enable := true, zxen := v.getLsbD 1, state := .training, nakcnt := (port s q).nakcnt } := by
  simp [writeNgport, portExists, hq, he, bitAt_toNat, hv, port_updPort]

theorem hrqsel_latchRecord (d : Nat) (v : Word) (s : State) : (hasp (latchRecord d v s) d).hrqsel = v.setWidth 23 := by
  simp only [latchRecord, hasp_updHasp, if_true]
  simp [fieldW, bitsOf, ← BitVec.toNat_inj]

/-! ### The obligation -/

/-- Settles O49: each clause is the rule of its write, applied to the state that `exec` answers. -/
theorem hostRegisters : Obligations.HostRegisters := by
  unfold Obligations.HostRegisters
  intro s q bank d k p e fn v x m n c want base count
  refine ⟨?window, ?spgate, ?wake, ?llc, ?llcAll, ?drained, ?map, ?mapRefused, ?range, ?rangeRefused, ?unmask, ?reset, ?config, ?ngport,
    ?shape, ?hrqsel⟩
  case window => exact fun hb hm => ⟨⟨_, rfl, ngself_writeBar0 v hb hm⟩, ⟨_, rfl, rsvhit_writeBar0 v hb hm⟩⟩
  case spgate =>
    intro hq
    refine ⟨_, congrArg Host.Outcome.next (if_pos hq), fun b hb => ⟨gate_writeSpgate s q v hb, ready_writeSpgate s q v hb⟩, ?_, ?_⟩
    · rintro ⟨b, hb, hv, hw⟩
      exact spstat_writeSpgate hb hv hw
    · exact fun b hb hw hr a ha => byte_writeSpgate hb hw hr ha
  case wake => exact fun hk hg hr => ⟨_, rfl, fun b hb => ready_finishWake hk hg hr hb⟩
  case llc => exact fun hd hp hx => ⟨_, rfl, llc_writeLlcway hd hp hx⟩
  case llcAll => exact fun hd hx => ⟨_, rfl, llc_writeLlcway_all hd hx⟩
  case drained => exact fun hd => ⟨_, congrArg Host.Outcome.next (if_pos hd), by simp, rfl⟩
  case map => exact fun hp hk hr => ⟨_, rfl, maps_writeMap hp hk hr⟩
  case mapRefused =>
    intro hp hk why hr
    exact ⟨_, congrArg Host.Outcome.next (writeMap_refused hp hk hr), rfl, by simp [partOf_refusePart]⟩
  case range =>
    intro hp hr
    exact ⟨_, congrArg Host.Outcome.next (writePartctl_accepted hp hr), by simp only [partOf_updPart, if_true, toNat_ofNat_fieldW, base, count, and_self]⟩
  case rangeRefused =>
    intro hp why hr
    exact ⟨_, congrArg Host.Outcome.next (writePartctl_refused hp hr), by simp [partOf_refusePart]⟩
  case unmask => exact fun he => ⟨_, congrArg Host.Outcome.next (if_pos he), unmask_spec e s⟩
  case reset =>
    intro h0 h8 hc
    exact ⟨_, congrArg Host.Outcome.next ((if_neg (Nat.ne_of_gt h0)).trans (if_pos h8)), apslots_resetPart hc⟩
  case config => exact fun hb hm en nv => ⟨_, congrArg Host.Outcome.next (configRequest_of_up en nv hb hm), rfl, rfl, rfl⟩
  case ngport =>
    intro hq he hv
    exact ⟨_, rfl, by simp [port_writeNgport hq he hv]⟩
  case shape =>
    intro hp hn hx
    exact ⟨_, congrArg Host.Outcome.next ((if_neg (by omega)).trans (if_neg (by rw [hx]; decide))), by simp [unpublish]⟩
  case hrqsel => exact fun hd => ⟨_, congrArg Host.Outcome.next (if_pos hd), hrqsel_latchRecord d v s⟩

end Sys2Proof.Machine
end

section
/-! Resets, the boot, power states, clock steps and heat (R17-R25, R32, R33, R77-R80). -/

namespace Sys2Proof.Machine

open Sys2Proof.Safety

/-! ### Lists -/

theorem setAt_eq_set {α : Type} (l : List α) (i : Nat) (a : α) : setAt l i a = l.set i a := by
  induction l generalizing i with
  | nil => rfl
  | cons x t ih =>
    cases i with
    | zero => rfl
    | succ i => exact congrArg (x :: ·) (ih i)

theorem length_setAt {α : Type} (l : List α) (i : Nat) (a : α) : (setAt l i a).length = l.length := by
  rw [setAt_eq_set, List.length_set]

theorem nthD_setAt {α : Type} (l : List α) {i : Nat} (a d : α) {j : Nat} (hj : j < l.length) :
    nthD (setAt l i a) j d = if j = i then a else nthD l j d := by
  simp only [nthD, setAt_eq_set, List.getElem?_set, eq_comm (a := j)]
  split
  · next h => subst h; simp [hj]
  · rfl

/-! ### Reset -/

/-- Settles O10: every table is empty at reset, so that each entry reads as the value of an unlisted one. -/
theorem resetState : Obligations.ResetState := by
  unfold Obligations.ResetState
  have core : ∀ q, coreAt State.reset q = .zero := fun _ => rfl
  have record : ∀ h, trec State.reset h = .zero := fun _ => rfl
  have slice : ∀ d, hasp State.reset d = .zero := fun _ => rfl
  refine ⟨rfl, fun _ => rfl, fun q => ?_, fun _ => rfl, fun h => ?_, fun d => ?_, rfl, by decide, by decide, rfl, rfl, rfl⟩
  · rw [core]; exact ⟨rfl, rfl, rfl, rfl, rfl⟩
  · rw [record]; exact ⟨rfl, rfl⟩
  · rw [slice]; exact ⟨rfl, rfl, rfl, rfl, rfl, rfl, rfl, rfl, rfl, rfl⟩

/-! ### What the dies lose (R17, R33) -/

/-- Of memory only the host's own stands in a bare state. -/
theorem byte_bareState (m : Module) (t : Trust) (s : State) (k : Nat) :
    (bareState m t s).mem.byte k = if hostKey 0 ≤ k ∧ k < hostKey (2 ^ 60) then s.mem.byte k else 0 := by
  have kept := Tab.get_keep { cells := s.mem.cells } (0 : Byte) (fun i => decide (hostKey 0 ≤ i) && decide (i < hostKey (2 ^ 60))) k
  simp only [Bool.and_eq_true, decide_eq_true_eq] at kept
  exact kept

theorem bare_bareState (m : Module) (t : Trust) (s : State) : Bare (bareState m t s) := by
  refine ⟨fun _ => rfl, fun _ => rfl, rfl, rfl, fun k hk => ?_⟩
  rw [byte_bareState, if_neg (by omega)]

/-! ### Images (R78, R79) -/

/-- An image is accepted only for its own type, from the fused minimum on, and with the digest of its body. -/
theorem checks_of_accepted {t : Trust} {typ : Nat} {i : FwImage} (h : accepted t typ i = true) :
    i.typ.toNat = typ ∧ t.svnMin.get 0 typ ≤ i.svn.toNat ∧ leNat (sha384 i.body) = i.digest.toNat := by
  simp only [accepted, Bool.and_eq_true, beq_iff_eq, decide_eq_true_eq] at h
  obtain ⟨⟨⟨⟨-, htyp⟩, hsvn⟩, hdigest⟩, -⟩ := h
  exact ⟨htyp, hsvn, hdigest⟩

/-- Of Escutcheon's state the checks of an image look at the fused minimums alone. -/
theorem accepted_congr {t u : Trust} (h : u.svnMin = t.svnMin) (typ : Nat) (i : FwImage) : accepted u typ i = accepted t typ i := by
  simp only [accepted, h]

theorem verifyImage_some {t : Trust} (hb : t.blocked = false) (typ : Nat) (i : FwImage) :
    verifyImage typ (some i) t = if accepted t typ i then (t, true) else (imageAlarm t, false) := by
  simp only [verifyImage, hb, Bool.false_eq_true, if_false]

/-- What an image alarm leaves of Escutcheon's state, the verification of an image leaves. -/
theorem verifyImage_keeps {α : Type} {g : Trust → α} (halarm : ∀ t, g (imageAlarm t) = g t) (typ : Nat) (o : Option FwImage) (t : Trust) :
    g (verifyImage typ o t).1 = g t := by
  unfold verifyImage
  split
  · rfl
  · split
    · split
      · rfl
      · exact halarm t
    · exact halarm t

/-- What image alarms and the start of an image leave of Escutcheon's state, a step of the boot leaves. -/
theorem bootStep_keeps {α : Type} {g : Trust → α} (halarm : ∀ t, g (imageAlarm t) = g t) (htake : ∀ i o t, g (takeImage i o t) = g t)
    (r : Trust × Bool) (i : Nat) : g (bootStep r i).1 = g r.1 := by
  simp only [bootStep]
  split
  · rfl
  · split
    · rw [htake, verifyImage_keeps halarm]
    · split
      · rw [htake, verifyImage_keeps halarm, verifyImage_keeps halarm]
      · rw [verifyImage_keeps halarm, verifyImage_keeps halarm]

theorem foldl_bootStep_keeps {α : Type} {g : Trust → α} (halarm : ∀ t, g (imageAlarm t) = g t) (htake : ∀ i o t, g (takeImage i o t) = g t)
    (l : List Nat) (r : Trust × Bool) : g (l.foldl bootStep r).1 = g r.1 := by
  induction l generalizing r with
  | nil => rfl
  | cons i l ih => rw [List.foldl_cons, ih, bootStep_keeps halarm htake]

theorem flash_takeImage (i : Nat) (o : Option FwImage) (t : Trust) : (takeImage i o t).flash = t.flash := by cases o <;> rfl
theorem classB_takeImage (i : Nat) (o : Option FwImage) (t : Trust) : (takeImage i o t).classB = t.classB := by cases o <;> rfl

/-- Copy A of image `i`'s flash stands and is accepted. -/
def CopyAStands (t : Trust) (i : Nat) : Prop := ∃ m, (nthD t.flash i (none, none)).1 = some m ∧ accepted t (i + 1) m = true

theorem CopyAStands.congr {t u : Trust} {i : Nat} (hf : u.flash = t.flash) (hm : u.svnMin = t.svnMin) (h : CopyAStands t i) : CopyAStands u i := by
  obtain ⟨m, hcopy, hacc⟩ := h
  exact ⟨m, by rw [hf]; exact hcopy, by rw [accepted_congr hm]; exact hacc⟩

/-- A step of the boot takes copy A where it is accepted. -/
theorem bootStep_copyA {t : Trust} {i : Nat} {m : FwImage} (hb : t.blocked = false) (hcopy : (nthD t.flash i (none, none)).1 = some m)
    (hacc : accepted t (i + 1) m = true) : bootStep (t, true) i = (takeImage i (some m) t, true) := by
  simp only [bootStep, hcopy, verifyImage_some hb, hacc, Bool.not_true, Bool.false_eq_true, if_false, if_true]

/-- Where every copy A is accepted the boot goes on to its end, and copy A runs of each image that it came to. -/
theorem foldl_bootStep_copyA : ∀ {l : List Nat} {t : Trust}, t.blocked = false → (∀ i ∈ l, CopyAStands t i) →
    (l.foldl bootStep (t, true)).2 = true ∧
      ∀ j < t.booted.length, nthD (l.foldl bootStep (t, true)).1.booted j none = if j ∈ l then (nthD t.flash j (none, none)).1 else nthD t.booted j none
  | [], t, _, _ => ⟨rfl, fun j _ => by simp⟩
  | i :: l, t, hb, hl => by
    obtain ⟨m, hcopy, hacc⟩ := hl i List.mem_cons_self
    obtain ⟨hon, hrun⟩ := foldl_bootStep_copyA (l := l) (t := takeImage i (some m) t) hb
      (fun k hk => (hl k (List.mem_cons_of_mem i hk)).congr rfl rfl)
    rw [List.foldl_cons, bootStep_copyA hb hcopy hacc]
    refine ⟨hon, fun j hj => ?_⟩
    have booted : nthD (takeImage i (some m) t).booted j none = if j = i then some m else nthD t.booted j none := nthD_setAt _ _ _ hj
    rw [hrun j (by simpa [takeImage, length_setAt] using hj), booted]
    by_cases hjl : j ∈ l
    · rw [if_pos hjl, if_pos (List.mem_cons_of_mem i hjl)]; rfl
    · by_cases hji : j = i
      · subst hji; simp [hjl, hcopy]
      · simp [hjl, hji]

/-- In recovery an accepted image goes to its copy, and one that is not accepted is an alarm (R79, R83). -/
theorem trust_updateFlash {s : State} {img : FwImage} (copyB : Bool) (hr : s.mod.power.boot = .recovery) (hb : s.mod.trust.blocked = false)
    (h1 : 1 ≤ img.typ.toNat) (h6 : img.typ.toNat ≤ 6) :
    let old := nthD s.mod.trust.flash (img.typ.toNat - 1) (none, none)
    (updateFlash copyB img s).mod.trust =
      if accepted s.mod.trust img.typ.toNat img then
        { s.mod.trust with flash := setAt s.mod.trust.flash (img.typ.toNat - 1) (if copyB then (old.1, some img) else (some img, old.2)) }
      else imageAlarm s.mod.trust := by
  cases hacc : accepted s.mod.trust img.typ.toNat img <;>
    simp [updateFlash, updTrust, hr, verifyImage_some hb, hacc, h1, h6]

/-! ### The boot (R32, R79, R83) -/

/-- Escutcheon's state after the first six steps of the boot, and whether the boot goes on to step 7. -/
def bootImages (t : Trust) : Trust × Bool := (List.range 6).foldl bootStep (bootBegins t, true)

theorem flash_bootImages (t : Trust) : (bootImages t).1.flash = t.flash :=
  foldl_bootStep_keeps (g := Trust.flash) (fun _ => rfl) flash_takeImage _ _

theorem classB_bootImages (t : Trust) : (bootImages t).1.classB = t.classB :=
  foldl_bootStep_keeps (g := Trust.classB) (fun _ => rfl) classB_takeImage _ _

/-- Six accepted images in copies A bring the boot to its step 7, and run. -/
theorem bootImages_copyA {t : Trust} (h : ∀ i < 6, CopyAStands t i) :
    (bootImages t).2 = true ∧ ∀ i < 6, nthD (bootImages t).1.booted i none = (nthD t.flash i (none, none)).1 := by
  obtain ⟨hon, hrun⟩ := foldl_bootStep_copyA (l := List.range 6) (t := bootBegins t) rfl
    (fun i hi => (h i (List.mem_range.1 hi)).congr rfl rfl)
  refine ⟨hon, fun i hi => (hrun i hi).trans (if_pos (List.mem_range.2 hi))⟩

theorem bootWith_of_holdC {t : Trust} (h : t.holdC = true) (m : Module) (s : State) :
    bootWith m t s = bareState { m with power := { m.power with boot := .held, pwrgd := false, alert := true } } t s := if_pos h

theorem bootWith_of_not_holdC {t : Trust} (h : t.holdC = false) (m : Module) (s : State) :
    bootWith m t s = bareState { m with power := { m.power with state := .m1, boot := if (bootImages t).2 then .training else .recovery, pwrgd := false, alert := t.classB } }
      (bootImages t).1 s := if_neg (by simp [h])

theorem bare_bootWith (m : Module) (t : Trust) (s : State) : Bare (bootWith m t s) := by
  cases h : t.holdC
  · rw [bootWith_of_not_holdC h]; exact bare_bareState _ _ s
  · rw [bootWith_of_holdC h]; exact bare_bareState _ _ s

theorem errlog_bootWith (m : Module) (t : Trust) (s : State) : (bootWith m t s).mod.errlog = m.errlog := by
  cases h : t.holdC
  · rw [bootWith_of_not_holdC h]; rfl
  · rw [bootWith_of_holdC h]; rfl

theorem flash_bootWith (m : Module) (t : Trust) (s : State) : (bootWith m t s).mod.trust.flash = t.flash := by
  cases h : t.holdC
  · rw [bootWith_of_not_holdC h]; exact flash_bootImages t
  · rw [bootWith_of_holdC h]; rfl

theorem classB_bootWith (m : Module) (t : Trust) (s : State) : (bootWith m t s).mod.trust.classB = t.classB := by
  cases h : t.holdC
  · rw [bootWith_of_not_holdC h]; exact classB_bootImages t
  · rw [bootWith_of_holdC h]; rfl

/-- Boot step 7 is under way, and it ends in M1 with PWRGD, or in reset with ALERT_N asserted. -/
def Trains (t : State) : Prop :=
  t.mod.power.boot = .training ∧ t.mod.power.pwrgd = false ∧
    (let u := (happen (.bootEnd true) t).mod.power; u.boot = .up ∧ u.state = .m1 ∧ u.pwrgd = true) ∧
    (let u := (happen (.bootEnd false) t).mod.power; u.boot = .failed ∧ u.pwrgd = false ∧ u.alert = true)

theorem power_bootEnds_true {t : State} (h : t.mod.power.boot = .training) :
    (bootEnds true t).mod.power = { t.mod.power with boot := .up, pwrgd := true } := by
  simp [bootEnds, h, updPower, updTrust]

theorem power_bootEnds_false {t : State} (h : t.mod.power.boot = .training) :
    (bootEnds false t).mod.power = { t.mod.power with boot := .failed, alert := true } := by
  simp [bootEnds, h, updPower]

theorem trains_of_training {t : State} (hb : t.mod.power.boot = .training) (hm : t.mod.power.state = .m1) (hp : t.mod.power.pwrgd = false) : Trains t :=
  ⟨hb, hp, by simp [happen, power_bootEnds_true hb, hm], by simp [happen, power_bootEnds_false hb, hp]⟩

/-- With six accepted images and no class C alarm the boot comes to its step 7. -/
theorem trains_bootWith {t : Trust} (hc : t.holdC = false) (h : ∀ i < 6, CopyAStands t i) (m : Module) (s : State) : Trains (bootWith m t s) := by
  rw [bootWith_of_not_holdC hc]
  exact trains_of_training (if_pos (bootImages_copyA h).1) rfl rfl

theorem booted_bootWith {t : Trust} (hc : t.holdC = false) (h : ∀ i < 6, CopyAStands t i) (m : Module) (s : State) {i : Nat} (hi : i < 6) :
    nthD (bootWith m t s).mod.trust.booted i none = (nthD t.flash i (none, none)).1 := by
  rw [bootWith_of_not_holdC hc]
  exact (bootImages_copyA h).2 i hi

/-- A class C alarm keeps all dies in reset (R83). -/
theorem held_bootWith {t : Trust} (hc : t.holdC = true) (m : Module) (s : State) :
    (bootWith m t s).mod.power.boot = .held ∧ (bootWith m t s).mod.power.alert = true := by
  rw [bootWith_of_holdC hc]; exact ⟨rfl, rfl⟩

/-- What a module reset does to a module with power (R32, R33, R79, R83). -/
theorem resetModule_spec {s : State} (hb : s.mod.power.boot ≠ .off) :
    let t := resetModule s
    Bare t ∧ t.mod.trust.flash = s.mod.trust.flash ∧ t.mod.trust.classB = s.mod.trust.classB ∧ (∀ e, t.mod.errlog.get 0 e = 0) ∧
      ((∀ i < 6, CopyAStands s.mod.trust i) → s.mod.trust.holdC = false → Trains t) ∧
      (s.mod.trust.holdC = true → t.mod.power.boot = .held ∧ t.mod.power.alert = true) := by
  have boots : resetModule s = bootWith { Module.reset with trust := s.mod.trust } (resetTrust s.mod.trust) s := if_neg hb
  simp only [boots]
  refine ⟨bare_bootWith _ _ s, flash_bootWith _ _ s, classB_bootWith _ _ s, fun e => ?_, fun hstock hc => ?_, fun hc => held_bootWith (t := resetTrust s.mod.trust) hc _ s⟩
  · rw [errlog_bootWith]; rfl
  · exact trains_bootWith (t := resetTrust s.mod.trust) hc (fun i hi => (hstock i hi).congr rfl rfl) _ s

/-- What power-on does (R32, R79, R84): a class C alarm of before holds nothing. -/
theorem powerOn_spec {s : State} (hb : s.mod.power.boot = .off) :
    let t := powerOn s
    Bare t ∧ t.mod.trust.classB = false ∧
      ((∀ i < 6, CopyAStands s.mod.trust i) → Trains t ∧ ∀ i < 6, nthD t.mod.trust.booted i none = (nthD s.mod.trust.flash i (none, none)).1) := by
  have boots : powerOn s = bootWith Module.reset { resetTrust s.mod.trust with classB := false, acount := 0, locked := false, holdC := false } s :=
    if_neg (not_not.2 hb)
  simp only [boots]
  refine ⟨bare_bootWith _ _ s, classB_bootWith _ _ s, fun hstock => ?_⟩
  have stands : ∀ i < 6, CopyAStands { resetTrust s.mod.trust with classB := false, acount := 0, locked := false, holdC := false } i :=
    fun i hi => (hstock i hi).congr rfl rfl
  exact ⟨trains_bootWith rfl stands _ s, fun i hi => booted_bootWith rfl stands _ s hi⟩

/-! ### The power cap (R19) -/

/-- Above the cap the clock goes a step down. -/
theorem execPowerCapStepDown_of_above {s : State} {w : Nat} (hb : s.mod.power.boot = .up) (hw : capWatts s.mod.power < w) :
    execPowerCapStepDown w s = .next (updPower (fun p => { p with mhz := stepDown p.mhz, capped := true }) s) := by
  simp [execPowerCapStepDown, updPower, hb, hw]

/-- At least 5 % below the cap the clock goes a step up, unless heat holds it down. -/
theorem execPowerCapStepUp_of_below {s : State} {w : Nat} (hb : s.mod.power.boot = .up) (hw : 100 * w ≤ 95 * capWatts s.mod.power)
    (hh : s.mod.power.hot = false) :
    execPowerCapStepUp w s = .next (updPower (fun p => { p with mhz := stepUp p.mhz, capped := p.capped && stepUp p.mhz != 1800 }) s) := by
  simp [execPowerCapStepUp, updPower, hb, hw, hh]

/-! ### Heat (R21) -/

theorem isUp_of_up {s : State} (hb : s.mod.power.boot = .up) : isUp s = true := by simp [isUp, hb]

theorem onHeat_of_up {s : State} {die : Nat} (hd : die < 10) (hb : s.mod.power.boot = .up) (v : Word) (f : State → State) :
    onHeat die v f s = f (updPower (readSensors die v) s) := if_neg (by simp [isUp_of_up hb, hd])

theorem mhz_readSensors (die : Nat) (v : Word) (p : Power) : (readSensors die v p).mhz = p.mhz := by
  dsimp only [readSensors]
  split
  · rfl
  · split <;> rfl

theorem power_sendMsix (e : Nat) (s : State) : (sendMsix e s).mod.power = s.mod.power := by unfold sendMsix; split <;> rfl

/-- From 100 °C on and below 110 °C the clock goes a step down. -/
theorem execThermalStepDown_of_warm {s : State} {die : Nat} {v : Word} (hd : die < 10) (hb : s.mod.power.boot = .up)
    (hlow : celsius 100 ≤ hottest (readSensors die v s.mod.power)) (hhigh : hottest (readSensors die v s.mod.power) < celsius 110) :
    execThermalStepDown die v s =
      .next (updPower (fun p => { readSensors die v p with mhz := stepDown p.mhz, hot := true }) s) := by
  simp only [execThermalStepDown, onHeat_of_up hd hb, updPower, hlow, hhigh, and_self, if_true, mhz_readSensors]

/-- At 110 °C and above the clock is held at 900 MHz, with the alarm. -/
theorem power_thermalAlarm {s : State} (h : celsius 110 ≤ hottest s.mod.power) :
    (thermalAlarm s).mod.power = { s.mod.power with mhz := 900, hot := true, talarm := true, thermN := true } := by
  rw [thermalAlarm, if_neg (Int.not_lt.2 h)]
  dsimp only
  split
  · rfl
  · rw [power_sendMsix]; rfl

/-- From 115 °C on all dies are held in reset. -/
theorem execThermalTrip_of_hot {s : State} {die : Nat} {v : Word} (hd : die < 10) (hb : s.mod.power.boot = .up)
    (h : celsius 115 ≤ hottest (readSensors die v s.mod.power)) :
    execThermalTrip die v s = .next (holdDies .held false (updPower (fun p => { readSensors die v p with thermN := true }) s)) :=
  congrArg Host.Outcome.next ((onHeat_of_up hd hb v _).trans (if_pos h))

/-! ### Power states (R22, R23) -/

theorem bitsOf_withBits_high (v : Nat) : bitsOf (withBits v 1 1 0) 0 2 = v % 2 := by simp only [bitsOf, withBits]; omega

theorem bitsOf_withBits_low (v r : Nat) : bitsOf (withBits v 0 2 r) 0 2 = r % 4 := by simp only [bitsOf, withBits]; omega

/-- What a whole write of MODPWR does besides its request: it clears REFUSED, and sets the cap. -/
def setCap (v : Nat) (p : Power) : Power :=
  { p with refused := p.refused && !(bitAt fullMask 4 && bitAt v 4),
           cap := BitVec.ofNat 12 (bitsOf (Nat.lor (Nat.land (p.cap.toNat * 2 ^ 16) (fullMask - Nat.land fullMask fullMask)) (Nat.land v fullMask)) 16 12) }

theorem writeModpwr_of_up {s : State} (hb : s.mod.power.boot = .up) (i3c : Bool) (v : Nat) :
    writeModpwr i3c fullMask v s = askPower (bitsOf v 0 2) i3c (updPower (setCap v) s) :=
  (if_neg (not_not.2 hb)).trans (if_pos (by decide))

/-- A request for M2 or M3 is granted where state may be retained, and no exit from M2 goes on. -/
def granted (s : State) : Bool := mayRetain s && !s.mod.power.exiting

theorem askPower_of_granted {s : State} {r : Nat} (hb : s.mod.power.boot = .up) (hm : s.mod.power.state ≠ .m3) (hr : 2 ≤ r)
    (hg : granted s = true) (i3c : Bool) :
    askPower r i3c s = if r = 2 then updPower (fun p => { p with req := 2, state := .m2 }) s
      else standby (fun p => { p with req := 3, state := .m3, pwrgd := false }) s := by
  simp only [granted, Bool.and_eq_true, Bool.not_eq_true'] at hg
  obtain ⟨hretain, hexit⟩ := hg
  simp [askPower, hb, hm, Nat.not_lt.2 hr, hretain, hexit]

theorem askPower_of_not_granted {s : State} {r : Nat} (hb : s.mod.power.boot = .up) (hm : s.mod.power.state ≠ .m3) (hr : 2 ≤ r)
    (hg : granted s = false) (i3c : Bool) : askPower r i3c s = updPower (fun p => { p with req := 0, refused := true }) s := by
  simp only [granted, Bool.and_eq_false_iff, Bool.not_eq_false', or_comm] at hg
  simp [askPower, hb, hm, Nat.not_lt.2 hr, hg]

/-- A write of MODPWR whose REQ is read as 0 or 1 leaves the power state, and starts the exit from M2. -/
theorem power_writeModpwr_auto {s : State} (hb : s.mod.power.boot = .up) (hm : s.mod.power.state ≠ .m3) (i3c : Bool) (v : Nat) :
    (writeModpwr i3c fullMask (withBits v 1 1 0) s).mod.power =
      { setCap (withBits v 1 1 0) s.mod.power with
        req := BitVec.ofNat 2 (v % 2), exiting := s.mod.power.exiting || s.mod.power.state == .m2 } := by
  rw [writeModpwr_of_up hb, bitsOf_withBits_high]
  generalize withBits v 1 1 0 = x
  have asks : askPower (v % 2) i3c (updPower (setCap x) s) = updPower (fun p => { p with
      req := BitVec.ofNat 2 (v % 2), exiting := p.exiting || p.state == .m2 }) (updPower (setCap x) s) :=
    (if_neg (not_not.2 hb)).trans ((if_neg hm).trans (if_pos (Nat.mod_lt v (by decide))))
  exact congrArg (·.mod.power) asks

theorem writeModpwr_of_granted {s : State} {r : Nat} (hb : s.mod.power.boot = .up) (hm : s.mod.power.state ≠ .m3) (hr : 2 ≤ r ∧ r < 4)
    (hg : granted s = true) (i3c : Bool) (v : Nat) :
    writeModpwr i3c fullMask (withBits v 0 2 r) s =
      if r = 2 then updPower (fun p => { p with req := 2, state := .m2 }) (updPower (setCap (withBits v 0 2 r)) s)
      else standby (fun p => { p with req := 3, state := .m3, pwrgd := false }) (updPower (setCap (withBits v 0 2 r)) s) := by
  rw [writeModpwr_of_up hb, bitsOf_withBits_low, Nat.mod_eq_of_lt hr.2]
  exact askPower_of_granted (s := updPower (setCap _) s) hb hm hr.1 hg i3c

theorem writeModpwr_of_not_granted {s : State} {r : Nat} (hb : s.mod.power.boot = .up) (hm : s.mod.power.state ≠ .m3) (hr : 2 ≤ r ∧ r < 4)
    (hg : granted s = false) (i3c : Bool) (v : Nat) :
    writeModpwr i3c fullMask (withBits v 0 2 r) s =
      updPower (fun p => { p with req := 0, refused := true }) (updPower (setCap (withBits v 0 2 r)) s) := by
  rw [writeModpwr_of_up hb, bitsOf_withBits_low, Nat.mod_eq_of_lt hr.2]
  exact askPower_of_not_granted (s := updPower (setCap _) s) hb hm hr.1 hg i3c

theorem bare_standby (f : Power → Power) (s : State) : Bare (standby f s) := bare_bareState (standbyModule s.mod) s.mod.trust s

/-- M1_ENTRY where no core runs a task. -/
theorem execM1Entry_of_m0 {s : State} (hb : s.mod.power.boot = .up) (hm : s.mod.power.state = .m0) (ht : anyTask s = false) :
    execM1Entry s = .next (updPower (fun p => { p with state := .m1 }) s) := by
  simp [execM1Entry, isUp_of_up hb, hm, ht]

theorem execM1Exit_of_m1 {s : State} (hb : s.mod.power.boot = .up) (hm : s.mod.power.state = .m1) :
    execM1Exit s = .next (updPower (fun p => { p with state := .m0 }) s) := by
  simp [execM1Exit, isUp_of_up hb, hm]

/-! ### The exit from M2 (R24, R25) -/

theorem execM2ExitStart_of_m2 {s : State} (hb : s.mod.power.boot = .up) (hm : s.mod.power.state = .m2) (acc : HostAccess) :
    execM2ExitStart acc s = .next (holdAccess acc s) := by
  simp [execM2ExitStart, isUp_of_up hb, hm]

theorem port_updPort_eq (s : State) (q : Nat) (f : Port → Port) (k : Nat) : port (updPort s q f) k = if k = q then f (port s q) else port s k :=
  Tab.get_upd _ _ _ _ _

theorem deliverInbox_of_empty {s : State} {q : Nat} (h : (port s q).inbox = []) :
    deliverInbox s q = updPort s q (fun x => { x with inbox := [] }) := by
  rw [deliverInbox, h]; rfl

/-- Ports that hold no packets deliver nothing. -/
theorem foldl_deliverInbox_of_empty : ∀ {l : List Nat} {s : State}, (∀ q ∈ l, (port s q).inbox = []) →
    (l.foldl deliverInbox s).mod.power = s.mod.power ∧ (l.foldl deliverInbox s).mod.parts = s.mod.parts
  | [], _, _ => ⟨rfl, rfl⟩
  | q :: l, s, h => by
    rw [List.foldl_cons, deliverInbox_of_empty (h q List.mem_cons_self)]
    refine foldl_deliverInbox_of_empty (s := updPort s q (fun x => { x with inbox := [] })) (fun k hk => ?_)
    rw [port_updPort_eq]
    split
    · rfl
    · exact h k (List.mem_cons_of_mem q hk)

theorem hdRun_of_none {s : State} {p : Nat} (h : (partOf s p).hdreq = none) : hdRun p s = s := by
  simp only [hdRun, h]

theorem foldl_hdRun_of_none {s : State} : ∀ {l : List Nat}, (∀ p ∈ l, (partOf s p).hdreq = none) → l.foldl (fun s p => hdRun p s) s = s
  | [], _ => rfl
  | p :: l, h => by
    rw [List.foldl_cons, hdRun_of_none (h p List.mem_cons_self)]
    exact foldl_hdRun_of_none (fun k hk => h k (List.mem_cons_of_mem p hk))

/-- The exit from M2 with nothing held ends in M0. -/
theorem power_exitM2_of_idle {s : State} (hb : s.mod.power.boot = .up) (hm : s.mod.power.state = .m2) (he : s.mod.power.exiting = true)
    (hh : s.mod.power.held = []) (hq : ∀ q < 32, (port s q).inbox = []) (hk : ∀ k < 8, (partOf s k).hdreq = none) :
    (exitM2 s).mod.power = { s.mod.power with state := .m0, exiting := false, held := [] } := by
  let u := updPower (fun p => { p with state := .m0, exiting := false, held := [] }) s
  obtain ⟨hpower, hparts⟩ := foldl_deliverInbox_of_empty (l := List.range 32) (s := u) (fun q h => hq q (List.mem_range.1 h))
  have runs : (List.range 8).foldl (fun s p => hdRun p s) ((List.range 32).foldl deliverInbox u) = (List.range 32).foldl deliverInbox u := by
    refine foldl_hdRun_of_none (fun k h => ?_)
    rw [partOf, hparts]
    exact hk k (List.mem_range.1 h)
  have leaves : exitM2 s = (List.range 8).foldl (fun s p => hdRun p s) ((List.range 32).foldl deliverInbox u) := by
    simp only [exitM2, isUp_of_up hb, hm, he, hh, List.foldl_nil]
    exact if_neg (by decide)
  rw [leaves, runs, hpower]
  rfl

/-! ### The obligation -/

/-- Settles O48: each clause is the rule of its event, applied to the state that `exec` answers. -/
theorem powerAndResets : Obligations.PowerAndResets := by
  unfold Obligations.PowerAndResets
  intro s w die off n v i3c copyB img p tr stock cap hot down trains
  refine ⟨?reset, ?on, ?loss, rfl, ?flash, fun typ => checks_of_accepted, ?capDown, ?capUp, ?heat, ?modpwr, ?m1Entry, ?m1Exit, ?m2Exit⟩
  case reset =>
    intro hb i hi
    simp only [List.mem_cons, List.not_mem_nil, or_false] at hi
    obtain rfl | rfl := hi <;> exact ⟨_, rfl, resetModule_spec hb⟩
  case on => exact fun hb => ⟨_, rfl, powerOn_spec hb⟩
  case loss => exact fun hb => ⟨_, congrArg Host.Outcome.next (if_neg hb), bare_bareState _ _ s, rfl, rfl, rfl⟩
  case flash =>
    intro hb hblocked hlen h1 h6
    have slot : img.typ.toNat - 1 < tr.flash.length := Nat.lt_of_lt_of_eq (by omega) hlen.symm
    refine ⟨_, rfl, ?_⟩
    simp only [trust_updateFlash copyB hb hblocked h1 h6]
    cases hacc : accepted tr img.typ.toNat img
    · exact ⟨rfl, fun _ => rfl⟩
    · exact ⟨(nthD_setAt _ _ _ slot).trans (if_pos rfl), nofun⟩
  case capDown => exact fun hb hw => ⟨_, execPowerCapStepDown_of_above hb hw, rfl, rfl⟩
  case capUp => exact fun hb hw hh => ⟨_, execPowerCapStepUp_of_below hb hw hh, rfl⟩
  case heat =>
    intro hb hd
    refine ⟨fun hlow hhigh => ⟨_, execThermalStepDown_of_warm hd hb hlow hhigh, rfl, rfl⟩, fun h => ?alarm,
      fun h => ⟨_, execThermalTrip_of_hot hd hb h, bare_bareState _ _ _, rfl, rfl, rfl⟩⟩
    refine ⟨_, congrArg Host.Outcome.next (onHeat_of_up hd hb v thermalAlarm), ?_⟩
    simp only [power_thermalAlarm (s := updPower (readSensors die v) s) h, and_self]
  case modpwr =>
    intro hb hm
    refine ⟨⟨_, rfl, ?auto⟩, fun hretain hexit => ?granted, fun h i hi => ?refused⟩
    case auto =>
      simp only [power_writeModpwr_auto hb hm, BitVec.toNat_ofNat]
      exact ⟨by omega, rfl, fun h2 => by simp [show s.mod.power.state = .m2 from h2]⟩
    case granted =>
      have hg : granted s = true := by simp [granted, hretain, show s.mod.power.exiting = false from hexit]
      have m2 := (writeModpwr_of_granted hb hm (r := 2) (by decide) hg false v.toNat).trans (if_pos rfl)
      have m3 := (writeModpwr_of_granted hb hm (r := 3) (by decide) hg false v.toNat).trans (if_neg (by decide))
      exact ⟨⟨_, congrArg Host.Outcome.next m2, rfl, rfl⟩, ⟨_, congrArg Host.Outcome.next m3, rfl, rfl, rfl, bare_standby _ _⟩⟩
    case refused =>
      have hg : granted s = false := by
        rcases h with h | h
        · simp [granted, h]
        · simp [granted, show s.mod.power.exiting = true from h]
      simp only [List.mem_cons, List.not_mem_nil, or_false] at hi
      obtain rfl | rfl := hi <;>
        exact ⟨_, congrArg Host.Outcome.next (writeModpwr_of_not_granted hb hm (by decide) hg false _), rfl, rfl, rfl⟩
  case m1Entry => exact fun hb hm ht => ⟨_, execM1Entry_of_m0 hb hm ht, rfl⟩
  case m1Exit => exact fun hb hm => ⟨_, execM1Exit_of_m1 hb hm, rfl⟩
  case m2Exit =>
    intro hb hm
    refine ⟨⟨_, execM2ExitStart_of_m2 hb hm _, rfl⟩, fun he hh hq hk => ⟨_, rfl, ?_⟩⟩
    simp only [power_exitM2_of_idle hb hm he hh hq hk, and_self]

end Sys2Proof.Machine
end

section
/-! Link ports: training, retrains, the flits a port sends and receives, and changes of route (R38-R48). -/

namespace Sys2Proof.Machine

open Sys2Proof.Safety

/-- An event makes the state it is known to answer with. -/
theorem makes_of {i : Instr} {s t : State} {p : State → Prop} (h : exec i s = .next t) (hp : p t) : Makes i s p := ⟨t, h, hp⟩

/-! ### Training and retrains (R41, R48) -/

theorem portTrained_of_training {s : State} {q : Nat} (hq : q < 32) (ht : (port s q).state = .training) (lanes : BitVec 4) :
    portTrained q lanes s = updPort s q (fun x => { x with
      laneok := (port s q).laneok ||| lanes, state := if (port s q).laneok ||| lanes = 15 then .up else .training,
      fails := if (port s q).laneok ||| lanes = 15 then 0 else x.fails, ackUs := s.us }) := by
  simp [portTrained, portExists, hq, ht]

/-- Whether a port's retrain can fail now: it trains, or is up and must retrain. -/
def MayFail (s : State) (q : Nat) : Prop :=
  (port s q).state = .training ∨ (port s q).state = .up ∧ mustRetrain s (port s q) = true

theorem retrainPort_ok {s : State} {q : Nat} (hq : q < 32) (hup : (port s q).state = .up) (hm : mustRetrain s (port s q) = true) :
    retrainPort q true s = updPort s q (fun x => { x with
      again := x.replay.length, fails := 0, naksIn := 0, naksOut := 0, ackUs := s.us, nakOwed := false }) := by
  simp [retrainPort, portExists, hq, hup, hm]

theorem retrainPort_fail {s : State} {q : Nat} (hq : q < 32) (h : MayFail s q) :
    retrainPort q false s = if 3 ≤ (port s q).fails + 1 then failPort q s else updPort s q (fun x => { x with fails := x.fails + 1 }) := by
  rcases h with ht | ⟨hup, hm⟩
  · simp [retrainPort, portExists, hq, ht]
  · simp [retrainPort, portExists, hq, hup, hm]

/-- Before the third failure in succession a failed retrain is counted, and nothing else. -/
theorem port_retrainPort_fail {s : State} {q : Nat} (hq : q < 32) (h : MayFail s q) (hf : (port s q).fails < 2) :
    port (retrainPort q false s) q = { port s q with fails := (port s q).fails + 1 } := by
  rw [retrainPort_fail hq h, if_neg (by omega), port_updPort]

theorem port_sendMsix (e : Nat) (s : State) (q : Nat) : port (sendMsix e s) q = port s q := by
  unfold sendMsix; split <;> rfl

/-- The third failure in succession makes a port with nothing in its queue FAILED, and raises the alarm. -/
theorem failPort_of_no_queue {s : State} {q : Nat} (h : (port s q).queue = []) :
    (port (failPort q s) q).state = .failed ∧ (port (failPort q s) q).replay = [] ∧ (failPort q s).mod.power.alert = true := by
  simp only [failPort, h, List.foldl_nil, port_sendMsix, power_sendMsix]
  exact ⟨congrArg (·.state) (port_updPort s q _), congrArg (·.replay) (port_updPort s q _), trivial⟩

theorem retrainPort_third {s : State} {q : Nat} (hq : q < 32) (h : MayFail s q) (hf : 2 ≤ (port s q).fails) :
    retrainPort q false s = failPort q s := by
  rw [retrainPort_fail hq h, if_pos (by omega)]

/-! ### Flits sent (R39, R40, R43) -/

/-- What a port sends depends on the rest of the state only through the power state and the bounce buffers. -/
theorem withCredit_updPort (s : State) (q : Nat) (g : Port → Port) (x : Port) (f : LinkFlit) : withCredit (updPort s q g) x f = withCredit s x f := rfl

/-- A port after a flit has left it. -/
def emitted (f : LinkFlit) (seq : BitVec 16) (x : Port) : Port :=
  let y := { x with lastTx := flitImage f seq (ackOf x) x.nakOwed }
  if !x.nakOwed then y
  else
    { y with
      nakOwed := false, nakOut := x.expect, naksOut := if x.nakOut == x.expect && x.naksOut != 0 then x.naksOut + 1 else 1,
      nakcnt := if x.nakcnt = 0xFFFF then x.nakcnt else x.nakcnt + 1 }

theorem port_emitFlit (q : Nat) (f : LinkFlit) (seq : BitVec 16) (s : State) : port (emitFlit q f seq s) q = emitted f seq (port s q) :=
  port_updPort s q _

@[simp] theorem emitted_lastTx (f : LinkFlit) (n : BitVec 16) (x : Port) : (emitted f n x).lastTx = flitImage f n (ackOf x) x.nakOwed := by
  unfold emitted; dsimp only; split <;> rfl
@[simp] theorem emitted_seq (f : LinkFlit) (n : BitVec 16) (x : Port) : (emitted f n x).seq = x.seq := by unfold emitted; dsimp only; split <;> rfl
@[simp] theorem emitted_again (f : LinkFlit) (n : BitVec 16) (x : Port) : (emitted f n x).again = x.again := by unfold emitted; dsimp only; split <;> rfl
@[simp] theorem emitted_replay (f : LinkFlit) (n : BitVec 16) (x : Port) : (emitted f n x).replay = x.replay := by unfold emitted; dsimp only; split <;> rfl
@[simp] theorem emitted_spent (f : LinkFlit) (n : BitVec 16) (x : Port) : (emitted f n x).spent = x.spent := by unfold emitted; dsimp only; split <;> rfl
@[simp] theorem emitted_flits (f : LinkFlit) (n : BitVec 16) (x : Port) : (emitted f n x).flits = x.flits := by unfold emitted; dsimp only; split <;> rfl
@[simp] theorem emitted_tx (f : LinkFlit) (n : BitVec 16) (x : Port) : (emitted f n x).tx = x.tx := by unfold emitted; dsimp only; split <;> rfl

/-- A port whose lane has a flit at hand loads none. -/
theorem loadLane_of_flit {x : Port} {w : Nat} {f : LinkFlit} (h : x.flits.find? (fun g => g.vl == w) = some f) : loadLane w x = x :=
  if_pos (List.any_eq_true.2 ⟨f, List.mem_of_find?_eq_some h, List.find?_some (p := fun g : LinkFlit => g.vl == w) h⟩)

/-- FLIT_SEND with a flit asked for again. -/
theorem sendFlit_again {s : State} {q vl : Nat} {f : LinkFlit} {num : BitVec 16} (hq : q < 32) (hup : (port s q).state = .up) (hv : vl < 8)
    (ha : 0 < (port s q).again) (hr : (port s q).replay[(port s q).replay.length - (port s q).again]? = some (num, f)) :
    sendFlit q vl s = emitFlit q f num (updPort s q (fun x => { x with again := x.again - 1 })) := by
  simp [sendFlit, portExists, hq, hup, Nat.not_le.2 hv, ha, hr]

/-- FLIT_SEND with none asked for again. -/
theorem sendFlit_fresh {s : State} {q vl : Nat} (hq : q < 32) (hup : (port s q).state = .up) (hv : vl < 8) (ha : (port s q).again = 0) :
    sendFlit q vl s = if (port s q).replay.length < 1024 ∧ laneReady (port s q) (chosenLane (port s q) vl) = true
      then sendNew q (chosenLane (port s q) vl) s else sendIdle q s := by
  simp [sendFlit, portExists, hq, hup, Nat.not_le.2 hv, ha]

/-- A port after a new flit `f` of lane `w`, which leaves as `g` with its credit. -/
def sentNew (us w : Nat) (f g : LinkFlit) (x : Port) : Port :=
  emitted g x.seq (zxGate { x with
    owed := x.owed.upd 0 g.cvl (fun n => n - g.ccnt), flits := x.flits.erase f, spent := x.spent.upd 0 w (fun n => n + 1),
    replay := x.replay ++ [(x.seq, g)], ackUs := if x.replay = [] then us else x.ackUs, seq := x.seq + 1 })

theorem port_sendNew {s : State} {q w : Nat} {f : LinkFlit} (h : (port s q).flits.find? (fun g => g.vl == w) = some f) :
    port (sendNew q w s) q = sentNew s.us w f (withCredit s (port s q) f) (port s q) := by
  simp only [sendNew, port_updPort, loadLane_of_flit h, h, port_emitFlit, payCredit, withCredit_updPort]
  rfl

theorem port_sendIdle (s : State) (q : Nat) :
    port (sendIdle q s) q = emitted (withCredit s (port s q) idleFlit) (port s q).seq
      { port s q with owed := (port s q).owed.upd 0 (withCredit s (port s q) idleFlit).cvl (fun n => n - (withCredit s (port s q) idleFlit).ccnt) } := by
  rw [sendIdle, port_emitFlit, payCredit, port_updPort]

/-! ### Flits received (R24, R39, R40) -/

/-- What an acknowledgement or a NAK leaves of the receiver's side. -/
theorem applyAck_receiver (us : Nat) (ack : BitVec 15) (x : Port) :
    (applyAck us ack x).expect = x.expect ∧ (applyAck us ack x).ahead = x.ahead ∧ (applyAck us ack x).owed = x.owed := by
  unfold applyAck; split <;> exact ⟨rfl, rfl, rfl⟩

theorem applyNak_receiver (nak : Bool) (ack : BitVec 15) (x : Port) :
    (applyNak nak ack x).expect = x.expect ∧ (applyNak nak ack x).ahead = x.ahead ∧ (applyNak nak ack x).owed = x.owed := by
  unfold applyNak; split <;> exact ⟨rfl, rfl, rfl⟩

theorem port_stirs (b : List Byte) (s : State) (q : Nat) : port (stirs b s) q = port s q := by
  unfold stirs; split <;> rfl

/-- A flit of a packet begins the exit of a module in M2. -/
theorem exiting_stirs {b : List Byte} {s : State} (hm : s.mod.power.state = .m2) (hk : bitsOf (nthD b 52 0).toNat 3 2 ≠ 0) :
    (stirs b s).mod.power.exiting = true := by
  rw [stirs, if_pos ⟨hm, hk⟩]

/-- A flit whose CRC is wrong is refused. -/
theorem receiveFlit_of_bad_crc {s : State} {q : Nat} {b : List Byte} (hq : q < 32) (hup : (port s q).state = .up)
    (hcrc : (crc32c (b.take 60)).toNat ≠ leNat (b.drop 60)) : receiveFlit q b s = refuseFlit q s := by
  simp [receiveFlit, portExists, hq, hup, hcrc]

/-- A port that has taken the ACK and NAK of a flit. -/
def acked (us : Nat) (b : List Byte) (x : Port) : Port :=
  applyNak (bitAt (leNat ((b.drop 56).take 2)) 15) (BitVec.ofNat 15 (leNat ((b.drop 56).take 2)))
    (applyAck us (BitVec.ofNat 15 (leNat ((b.drop 56).take 2))) x)

theorem acked_receiver (us : Nat) (b : List Byte) (x : Port) :
    (acked us b x).expect = x.expect ∧ (acked us b x).ahead = x.ahead ∧ (acked us b x).owed = x.owed := by
  obtain ⟨he, ha, ho⟩ := applyAck_receiver us (BitVec.ofNat 15 (leNat ((b.drop 56).take 2))) x
  obtain ⟨he', ha', ho'⟩ := applyNak_receiver (bitAt (leNat ((b.drop 56).take 2)) 15) (BitVec.ofNat 15 (leNat ((b.drop 56).take 2)))
    (applyAck us (BitVec.ofNat 15 (leNat ((b.drop 56).take 2))) x)
  exact ⟨he'.trans he, ha'.trans ha, ho'.trans ho⟩

/-- A flit of a right CRC, no reserved bit and the next expected number is taken, after its ACK and NAK. -/
theorem receiveFlit_of_next {s : State} {q : Nat} {b : List Byte} (hq : q < 32) (hup : (port s q).state = .up) (hlen : b.length = 64)
    (hcrc : (crc32c (b.take 60)).toNat = leNat (b.drop 60)) (hres : bitsOf (nthD b 52 0).toNat 6 2 = 0)
    (hnum : leNat ((b.drop 54).take 2) = (port s q).expect.toNat) :
    receiveFlit q b s = takeFlit q b (stirs b (updPort s q (acked s.us b))) := by
  have expect : (port (updPort s q (acked s.us b)) q).expect = (port s q).expect := by
    rw [port_updPort]; exact (acked_receiver s.us b (port s q)).1
  have stays : ¬ leNat ((b.drop 54).take 2) ≠ (port (updPort s q (acked s.us b)) q).expect.toNat := by
    rw [expect]; exact not_not.2 hnum
  have valid : ¬ (b.length ≠ 64 ∨ (crc32c (b.take 60)).toNat ≠ leNat (b.drop 60) ∨ bitsOf (nthD b 52 0).toNat 6 2 ≠ 0) := by
    simp only [hlen, hcrc, hres, ne_eq, not_true_eq_false, or_self, not_false_eq_true]
  exact (if_neg (by simp [portExists, hq, hup])).trans ((if_neg valid).trans (if_neg stays))

/-- A header flit is accepted and begins a packet. -/
theorem takeFlit_of_header {s : State} {q : Nat} {b : List Byte} (hk : bitsOf (nthD b 52 0).toNat 3 2 = 1) :
    takeFlit q b s = updPort (acceptFlit q (bitsOf (nthD b 52 0).toNat 0 3) (bitsOf (nthD b 53 0).toNat 0 3) (bitsOf (nthD b 53 0).toNat 3 5) s) q
      (beginPacket (bitsOf (nthD b 52 0).toNat 0 3) (b.take flitBytes)) := by
  simp only [takeFlit, hk, one_ne_zero, if_false, if_true]

/-- Where no number has been accepted ahead, accepting a flit moves on by one. -/
theorem nextExpect_of_none_ahead (n : BitVec 16) : nextExpect 1 [] n = (n, []) := by simp [nextExpect]

theorem port_acceptFlit {s : State} {q : Nat} (h : (port s q).ahead = []) (vl cvl ccnt : Nat) :
    port (acceptFlit q vl cvl ccnt s) q = { port s q with
      expect := (port s q).expect + 1, ahead := [], owed := (port s q).owed.upd 0 vl (fun n => n + 1),
      spent := (port s q).spent.upd 0 cvl (fun n => n - ccnt), naksOut := 0 } := by
  rw [acceptFlit, port_updPort, h, List.length_nil, Nat.zero_add, nextExpect_of_none_ahead]

/-! ### Changes of route (R46) -/

theorem releaseRoute_of_busy {s : State} {q dest : Nat}
    (h : s.mod.lastRoute.get 0 (q * 4096 + dest) ≠ 0 ∧ routeBusy s q dest (s.mod.lastRoute.get 0 (q * 4096 + dest) - 1) = true) :
    releaseRoute q dest s = s := if_pos h

/-- The state in which a table's packets for a destination are released: it holds none, and has no route of before. -/
def released (q dest : Nat) (s : State) : State :=
  { s with mod := { s.mod with
      routeHold := s.mod.routeHold.filter (fun p => !(p.1 == q && p.2.dest == dest)), lastRoute := s.mod.lastRoute.set 0 (q * 4096 + dest) 0 } }

theorem releaseRoute_of_free {s : State} {q dest : Nat}
    (h : s.mod.lastRoute.get 0 (q * 4096 + dest) = 0 ∨ routeBusy s q dest (s.mod.lastRoute.get 0 (q * 4096 + dest) - 1) = false) :
    releaseRoute q dest s = (s.mod.routeHold.filter (fun p => p.1 == q && p.2.dest == dest)).foldl (fun s p => routeIn q p.2 s) (released q dest s) :=
  if_neg (by rcases h with h | h <;> simp [h])

/-- Where a table holds nothing for a destination, its release forgets the route of before alone. -/
theorem releaseRoute_of_none_held {s : State} {q dest : Nat}
    (h : s.mod.lastRoute.get 0 (q * 4096 + dest) = 0 ∨ routeBusy s q dest (s.mod.lastRoute.get 0 (q * 4096 + dest) - 1) = false)
    (hn : ∀ k ∈ s.mod.routeHold, ¬ (k.1 = q ∧ k.2.dest = dest)) :
    releaseRoute q dest s = { s with mod := { s.mod with lastRoute := s.mod.lastRoute.set 0 (q * 4096 + dest) 0 } } := by
  have none_mine : s.mod.routeHold.filter (fun p => p.1 == q && p.2.dest == dest) = [] :=
    List.filter_eq_nil_iff.2 (fun k hk => by simpa using hn k hk)
  have all_stay : s.mod.routeHold.filter (fun p => !(p.1 == q && p.2.dest == dest)) = s.mod.routeHold :=
    List.filter_eq_self.2 (fun k hk => by simpa [← not_and_or] using hn k hk)
  rw [releaseRoute_of_free h, none_mine, List.foldl_nil, released, all_stay]

/-! ### The obligation -/

/-- Settles O52: each clause is the rule of its event, read at the port the event names. -/
theorem linkPorts : Obligations.LinkPorts := by
  unfold Obligations.LinkPorts
  intro s q vl w dest f num b lanes p x up c old free
  refine ⟨?trained, ?retrained, ?untrained, ?send, ?receive, ?routeFree, ?routeOne, ?routeBusy⟩
  case trained =>
    refine fun hq ht => makes_of (congrArg Host.Outcome.next (portTrained_of_training hq ht lanes)) ?_
    rw [port_updPort]
    exact ⟨rfl, rfl⟩
  case retrained =>
    rintro ⟨hq, hup⟩ hm
    have mayFail : MayFail s q := .inr ⟨hup, hm⟩
    refine ⟨makes_of (congrArg Host.Outcome.next (retrainPort_ok hq hup hm)) ?ok, fun hf => makes_of rfl (port_retrainPort_fail hq mayFail hf),
      fun hf hn => makes_of (congrArg Host.Outcome.next (retrainPort_third hq mayFail hf)) (failPort_of_no_queue hn)⟩
    rw [port_updPort]
    exact ⟨hup, rfl, rfl⟩
  case untrained =>
    intro hq ht
    refine ⟨fun hf => makes_of rfl (port_retrainPort_fail hq (.inl ht) hf),
      fun hf hn => makes_of (congrArg Host.Outcome.next (retrainPort_third hq (.inl ht) hf)) ?_⟩
    obtain ⟨hfailed, -, halert⟩ := failPort_of_no_queue hn
    exact ⟨hfailed, halert⟩
  case send =>
    rintro ⟨hq, hup⟩ hv
    refine ⟨fun ha hr => makes_of rfl ?again, fun ha hlen hw hready hf => makes_of rfl ?new, fun ha hready => makes_of rfl ?idle⟩
    case again =>
      rw [sendFlit_again hq hup hv ha hr, port_emitFlit, port_updPort]
      exact ⟨emitted_again .., emitted_replay .., emitted_lastTx ..⟩
    case new =>
      rw [sendFlit_fresh hq hup hv ha, if_pos ⟨hlen, hw.symm ▸ hready⟩, show chosenLane (port s q) vl = w from hw, port_sendNew hf]
      refine ⟨emitted_seq .., emitted_replay .., ?_, emitted_flits .., emitted_tx .., emitted_lastTx ..⟩
      simp [sentNew, zxGate, x]
    case idle =>
      rw [sendFlit_fresh hq hup hv ha, if_neg (by simp [show laneReady (port s q) (chosenLane (port s q) vl) = false from hready]), port_sendIdle]
      exact ⟨emitted_seq .., emitted_replay .., emitted_lastTx ..⟩
  case receive =>
    rintro ⟨hq, hup⟩ hlen
    refine ⟨fun hcrc => makes_of rfl ?refused, fun hcrc hres hk hnum ha => makes_of rfl ?header⟩
    case refused => rw [receiveFlit_of_bad_crc hq hup hcrc, refuseFlit, port_updPort]
    case header =>
      obtain ⟨hexpect, hahead, howed⟩ := acked_receiver s.us b (port s q)
      have none_ahead : (port (stirs b (updPort s q (acked s.us b))) q).ahead = [] := by
        rw [port_stirs, port_updPort, hahead]; exact ha
      rw [receiveFlit_of_next hq hup hlen hcrc hres hnum, takeFlit_of_header hk]
      rw [port_updPort, port_acceptFlit none_ahead, port_stirs, port_updPort]
      refine ⟨congrArg (· + 1) hexpect, fun hm => exiting_stirs (s := updPort s q (acked s.us b)) hm (hk ▸ by decide), ?_, ?_⟩
      · simp only [beginPacket, Tab.get_upd, howed]; exact if_pos rfl
      · simp [beginPacket, flitBytes, List.take_take, List.drop_take, c]
  case routeFree =>
    refine fun hfree hn => makes_of rfl ?_
    rw [releaseRoute_of_none_held hfree hn]
    exact ⟨by simp, rfl⟩
  case routeOne =>
    intro hfree hheld hp
    refine congrArg Host.Outcome.next ?_
    rw [releaseRoute_of_free hfree]
    simp [released, hheld, hp]
  case routeBusy =>
    intro hbusy
    refine congrArg Host.Outcome.next (releaseRoute_of_busy ?_)
    simpa only [free, not_or, Bool.not_eq_false] using hbusy

end Sys2Proof.Machine
end

section
/-! Packets of the die fabric, the requests of engine commands to other modules and to storage peers, and the memory channels
(R35-R37, R46, R52-R60). -/

namespace Sys2Proof.Machine

open Sys2Proof.Safety

/-! ### Packets of the die fabric (R35, R37, R232) -/

/-- The packets under way on a lane from one block to another. -/
def laneLine (s : State) (lane : Nat) (src dst : Node) : List Packet :=
  s.packets.filter (fun p => p.lane == lane && p.src == src && p.dst == dst)

/-- The packet from which a delivery starts, with nothing before it on its lane that keeps it back. -/
def ComesFirst (s : State) (lane : Nat) (src dst : Node) (pick : Nat) (p : Packet) (rest : List Packet) : Prop :=
  (laneLine s lane src dst).drop pick = p :: rest ∧ p.after.any (notDone s) = false ∧
    ((laneLine s lane src dst).take pick).any (fun q => blocksPacket q p) = false

/-- The packet that comes first performs, if it can. -/
theorem deliverPacket_of_first {s t : State} {lane pick : Nat} {src dst : Node} {p : Packet} {rest : List Packet}
    (h : ComesFirst s lane src dst pick p rest) (hp : performPacket p s = some t) : deliverPacket lane src dst pick s = t := by
  obtain ⟨hdrop, hafter, hbefore⟩ := h
  have ready : packetReady s ((laneLine s lane src dst).take pick) p = true := by simp [packetReady, hafter, hbefore]
  change performFirst ((laneLine s lane src dst).take pick) s ((laneLine s lane src dst).drop pick) = t
  simp only [hdrop, performFirst, ready, if_true, hp]

theorem exec_delivery_of_first {s t : State} {lane pick : Nat} {src dst : Node} {p : Packet} {rest : List Packet}
    (h : ComesFirst s lane src dst pick p rest) (hp : performPacket p s = some t) :
    exec (.fabricPacketDelivery ⟨lane, pick⟩ src dst) s = .next t :=
  congrArg Host.Outcome.next (deliverPacket_of_first h hp)

theorem performPacket_resp {p : Packet} {land : Nat} {v : BitVec 1024} {bad : Bool} (h : p.body = .resp land v bad) (s : State) :
    performPacket p s = some (updLanding p.core land (fun x => { x with resp := some (v, bad) }) (dropPacket p.id s)) := by
  simp only [performPacket, h]

theorem performPacket_signal {p : Packet} {c ev n : Nat} (h : p.body = .signal c ev n) (s : State) :
    performPacket p s = some (if dieGone s (ctxDie c) then streamFault (p.core - 512) codeDieLost 0 0 [] (dropPacket p.id s)
      else updCtx (dropPacket p.id s) c (fun x => { x with inbox := x.inbox ++ [(ev, n)] })) := by
  simp only [performPacket, h]

theorem performPacket_share {p : Packet} {h : Share} {cl : Nat} (hb : p.body = .share h cl) {s : State} (hg : dieGone s (cl / 16) = false)
    (hroom : (s.waiting.get [] (cl / 16)).length < waitingLimit) :
    performPacket p s = some { dropPacket p.id s with waiting := (dropPacket p.id s).waiting.upd [] (cl / 16) (fun l => l ++ [h]) } := by
  simp only [performPacket, hb, hg, Bool.false_eq_true, if_false, if_neg (Nat.not_le.2 hroom)]

/-- A core's access that its home lets perform. -/
theorem performPacket_access {p : Packet} {ptr : Word} {l : Loc} {op : AccessOp} {own : Option Nat} {e : CEntry} (hc : p.core < 512)
    (hb : p.body = .access ptr l op own e) {s u : State} {r : Option (BitVec 1024 × Bool)} (hh : homeAccess s (coreDie p.core) l op own = .done u r) :
    performPacket p s = some (giveAnswer p op r (accessOver p (tagDeltas s.nextId p.core u))) := by
  simp only [performPacket, hb, hc, if_true, coreAccess, hh]

/-- The landings in force of a core, after a change of those with a number. -/
theorem lands_updLanding (c id : Nat) (f : Landing → Landing) (s : State) :
    (coreAt (updLanding c id f s) c).b.r.lands = (coreAt s c).b.r.lands.map (fun x => if x.id = id then f x else x) := by
  rw [updLanding, core_updCore, if_pos rfl]; rfl

/-! ### The tokens of engine commands (R46, R60) -/

@[simp] theorem tokRec_setTok (s : State) (c t : Nat) (f : TokenRec → TokenRec) (i : Nat) :
    tokRec (setTok s c t f) c i = if i = t then f (tokRec s c t) else tokRec s c i := by
  simp [tokRec]

/-- What leaves a core's registers leaves its tokens. -/
theorem tokRec_updBody (s : State) (c : Nat) (f : Body → Body) (hf : ∀ b, (f b).r = b.r) (i : Nat) :
    tokRec (updBody s c f) c i = tokRec s c i := by
  simp [tokRec, hf]

/-- A token that ends FAULT and that no rollback waits for keeps the code. -/
theorem tokRec_endTok_fault {s : State} {c t : Nat} (hw : (coreAt s c).b.refetchWait.contains t = false) (who : Issuer) (code : BitVec 8) (prog : Nat) :
    tokRec (endTok c t false who .fault code prog s) c t =
      { tokRec s c t with status := .fault, code := code, progress := BitVec.ofNat 48 prog } := by
  have nobody_waits (g : TokenRec → TokenRec) : (coreAt (setTok s c t g) c).b.refetchWait.contains t = false := by
    simpa only [core_setTok, if_true] using hw
  simp only [endTok, Bool.false_eq_true, if_false, nobody_waits, Bool.and_false, false_and]
  rw [tokRec_updBody, tokRec_setTok, if_pos rfl]
  exact fun _ => rfl

theorem coreAt_withMod (s : State) (m : Module) (c : Nat) : coreAt { s with mod := m } c = coreAt s c := rfl

/-- A copy command of a running task that ends FAULT, with no rollback waiting for it. -/
theorem tokRec_endXf_fault {s : State} {c : Nat} {x : XfCmd} (ho : x.orphan = false) (hw : (coreAt s c).b.refetchWait.contains x.tok = false)
    (code : BitVec 8) : (tokRec (endXf c x .fault code s) c x.tok).status = .fault ∧ (tokRec (endXf c x .fault code s) c x.tok).code = code := by
  simp only [endXf, ho, Bool.false_eq_true, if_false]
  rw [tokRec_endTok_fault]
  · exact ⟨rfl, rfl⟩
  · simpa only [coreAt_withMod, core_setTok, core_updBody, if_true] using hw

/-- The same, with the mark of a timeout. -/
theorem tokRec_tokTimeout {s : State} {c : Nat} {x : XfCmd} (ho : x.orphan = false) (hw : (coreAt s c).b.refetchWait.contains x.tok = false) :
    ((tokRec (tokTimeout c x s) c x.tok).status = .fault ∧ (tokRec (tokTimeout c x s) c x.tok).code = codeDataUe) ∧
      (tokRec (tokTimeout c x s) c x.tok).tout = true := by
  simp only [tokTimeout, ho, Bool.false_eq_true, if_false, tokRec_setTok, if_true, and_true]
  exact tokRec_endXf_fault ho hw codeDataUe

theorem tok_of_xfFind {s : State} {c tok : Nat} {b : Bool} {x : XfCmd} (h : xfFind s c tok b = some x) : x.tok = tok := by
  have found := List.find?_some h
  simp only [Bool.and_eq_true, beq_iff_eq] at found
  obtain ⟨⟨htok, -⟩, -⟩ := found
  exact htok

/-- A link request of a command that is late ends it. -/
theorem execRemoteRequestTimeout_of_late {s : State} {c tok : Nat} {x : XfCmd} (hx : xfFind s c tok true = some x) (hop : x.op = 7 ∨ x.op = 8)
    (hlate : ∃ i ∈ x.sent, x.sentUs.get 0 i ≠ 0 ∧ x.sentUs.get 0 i + 99 ≤ s.us) :
    execRemoteRequestTimeout c tok s = .next (tokTimeout c x s) := by
  obtain ⟨i, hi, hsent, hus⟩ := hlate
  have late : remoteLate s x = true := List.any_eq_true.2 ⟨i, hi, by simp [hsent, hus]⟩
  simp [execRemoteRequestTimeout, hx, hop, late]

/-- A peer read of a command that is late ends it. -/
theorem execPeerReadTimeout_of_late {s : State} {c tok : Nat} {x : XfCmd} (hx : xfFind s c tok true = some x)
    (hlate : ∃ r ∈ readsOf s c x, r.data.length < r.n ∧ r.us + 50000 ≤ s.us) :
    execPeerReadTimeout c tok s = .next (tokTimeout c x s) := by
  obtain ⟨r, hr, hopen, hus⟩ := hlate
  have late : peerLate s c x = true := List.any_eq_true.2 ⟨r, hr, by simp [isOpenRead, hopen, hus]⟩
  simp [execPeerReadTimeout, hx, late]

/-- A completion for an open request of a command, by its status. -/
theorem peerData_of_open {s : State} {c tok req : Nat} {x : XfCmd} {y : PeerRead} (hx : xfFind s c tok true = some x)
    (hy : ((readsOf s c x).filter isOpenRead)[req]? = some y) (data : List Byte) :
    peerData c tok req .success data s = { s with mod := { s.mod with peerReads := s.mod.peerReads.map (fun r =>
      if r = y then { r with data := r.data ++ data.take (r.n - r.data.length) } else r) } } ∧
    peerData c tok req .error data s = endXf c x .fault codeDataUe s ∧
    peerData c tok req .poisoned data s = endXf c x .fault codePoison s := by
  simp only [peerData, hx, hy, and_self]

/-! ### The error registers of a memory (R55-R58) -/

theorem memBank_updBank (m : Nat) (f : MemBank → MemBank) (s : State) : memBank (updBank m f s) m = f (memBank s m) := by
  by_cases h : m < 16 <;> simp [memBank, updBank, h]

theorem poison_updBank (m : Nat) (f : MemBank → MemBank) (s : State) : (updBank m f s).poison = s.poison := by
  unfold updBank; split <;> rfl

theorem memBank_sendMsix (e : Nat) (s : State) (m : Nat) : memBank (sendMsix e s) m = memBank s m := by unfold sendMsix; split <;> rfl

theorem poison_sendMsix (e : Nat) (s : State) : (sendMsix e s).poison = s.poison := by unfold sendMsix; split <;> rfl

/-- The error registers with one more entry in the log. -/
def withEntry (entry : BitVec 128) (b : MemBank) : MemBank :=
  { b with log := b.log.set 0 b.next entry, next := (b.next + 1) % 64, count := Nat.min 64 (b.count + 1), ovfl := b.ovfl || b.count == 64 }

theorem memBank_logMem (m addr kind symbol : Nat) (s : State) :
    memBank (logMem m addr kind symbol s) m = withEntry (memEntry addr kind symbol s.us) (memBank s m) := by
  rw [logMem, memBank_sendMsix, memBank_updBank]; rfl

theorem poison_logMem (m addr kind symbol : Nat) (s : State) : (logMem m addr kind symbol s).poison = s.poison := by
  rw [logMem, poison_sendMsix, poison_updBank]

theorem memBank_logOpen (m kind : Nat) (s : State) :
    memBank (logOpen m kind s) m = withEntry (memEntry (freeNat s).2 kind 0 s.us) (memBank s m) := memBank_logMem _ _ _ _ _

/-- The kind that an entry of a memory's log names (R56). -/
def kindAt (b : MemBank) (n : Nat) : Nat := (b.log.get 0 n).toNat / 2 ^ 48 % 256

theorem kindAt_withEntry (addr : Nat) {kind : Nat} (symbol us : Nat) (b : MemBank) (h : kind < 256) :
    kindAt (withEntry (memEntry addr kind symbol us) b) b.next = kind := by
  simp only [kindAt, withEntry, Tab.get_set, if_true, memEntry, BitVec.toNat_ofNat]
  omega

theorem memBank_freeNat (s : State) (m : Nat) : memBank (freeNat s).1 m = memBank s m := rfl
theorem memBank_mend (l : List Nat) (s : State) (m : Nat) : memBank (mend l s) m = memBank s m := rfl
theorem memBank_spoil (l : List Nat) (s : State) (m : Nat) : memBank (spoil l s) m = memBank s m := rfl
theorem memBank_sectorAddr (s : State) (k m : Nat) : memBank (sectorAddr s k).1 m = memBank s m := by unfold sectorAddr; split <;> rfl

theorem poison_foldl_set {q : Nat} : ∀ {l : List Nat} {t : Tab Bool}, q ∈ l ∨ t.get false q = true →
    (l.foldl (fun t q => t.set false q true) t).get false q = true
  | [], _, h => h.resolve_left List.not_mem_nil
  | k :: l, t, h => by
    refine poison_foldl_set (l := l) (t := t.set false k true) ?_
    rw [Tab.get_set]
    by_cases hk : q = k
    · exact .inr (if_pos hk)
    · rw [if_neg hk]
      exact h.imp_left (fun hm => (List.mem_cons.1 hm).resolve_left hk)

/-- Sectors written poisoned read poisoned. -/
theorem poison_spoil {q : Nat} {l : List Nat} (h : q ∈ l) (s : State) : (spoil l s).poison.get false q = true := poison_foldl_set (.inl h)

/-- A sector lies in its own unit of correction. -/
theorem mem_unitOf (m q : Nat) : q ∈ unitOf m q := by
  unfold unitOf
  split
  · exact List.mem_singleton.2 rfl
  · simp only [List.mem_cons, List.not_mem_nil, or_false]; omega

/-- A corrected error, counted and logged: the count is one more, and the entry at the log's old place names the kind. -/
theorem memBank_corrected {b : MemBank} {u : State} {m : Nat} (h : memBank u m = b) (addr symbol : Nat) {kind : Nat} (hk : kind < 256) :
    (memBank (logMem m addr kind symbol (updBank m (fun b => { b with ce := satAdd b.ce 1 }) u)) m).ce = satAdd b.ce 1 ∧
    kindAt (memBank (logMem m addr kind symbol (updBank m (fun b => { b with ce := satAdd b.ce 1 }) u)) m) b.next = kind := by
  rw [memBank_logMem, memBank_updBank, h]
  exact ⟨rfl, kindAt_withEntry addr symbol _ { b with ce := satAdd b.ce 1 } hk⟩

/-- An uncorrectable unit, poisoned, counted and logged. -/
theorem memBank_uncorrectable {b : MemBank} {u : State} {m : Nat} (h : memBank u m = b) (addr q : Nat) {kind : Nat} (hk : kind < 256) :
    (memBank (logMem m addr kind 0 (updBank m (fun b => { b with ue := satAdd b.ue 1 }) (spoil (unitOf m q) u))) m).ue = satAdd b.ue 1 ∧
    kindAt (memBank (logMem m addr kind 0 (updBank m (fun b => { b with ue := satAdd b.ue 1 }) (spoil (unitOf m q) u))) m) b.next = kind ∧
    (logMem m addr kind 0 (updBank m (fun b => { b with ue := satAdd b.ue 1 }) (spoil (unitOf m q) u))).poison.get false q = true := by
  rw [memBank_logMem, memBank_updBank, memBank_spoil, h, poison_logMem, poison_updBank]
  exact ⟨rfl, kindAt_withEntry addr 0 _ { b with ue := satAdd b.ue 1 } hk, poison_spoil (mem_unitOf m q) u⟩

/-! ### Channels that fail (R53, R57) -/

theorem retrainHbm_of_live {s : State} {st ch : Nat} (hst : st < 16) (hch : ch < 32) (hl : (memBank s st).dead.contains ch = false) (ok : Bool) :
    retrainHbm st ch ok s = if ok
      then logOpen st 6 (updBank st (fun b => { b with half := (b.half ++ [ch]).eraseDups }) (updBank st (fun b => { b with retry := satAdd b.retry 3 }) s))
      else logOpen st 7 (updBank st (fun b => { b with half := b.half.filter (fun c => c != ch), dead := b.dead ++ [ch] })
        (updBank st (fun b => { b with retry := satAdd b.retry 3 }) s)) :=
  if_neg (by simp only [Nat.not_le.2 hst, Nat.not_le.2 hch, hl, Bool.false_eq_true, or_self, not_false_eq_true])

theorem retrainLp_of_exists {s : State} {io ch : Nat} (hio : io < 2) (hch : ch < 16) :
    retrainLp io ch s = logOpen (16 + io) 6 (updBank (16 + io) (fun b => { b with
      retry := satAdd b.retry 3, half := (b.half ++ [ch]).eraseDups, grade := b.grade.upd 0 ch (fun n => n + 1) }) s) :=
  if_neg (by omega)

theorem memBank_retried {m n : Nat} (hm : m < 18) (h0 : 0 < n) (h4 : n < 4) (s : State) :
    memBank (retried m n s) m = { memBank s m with retry := satAdd (memBank s m).retry n } := by
  rw [retried, if_pos ⟨hm, h0, by omega⟩, memBank_updBank]

/-! ### Sectors read and scrubbed (R52, R54, R55) -/

/-- A read of a sector of a stack with one wrong symbol (R52). -/
theorem findOnRead_of_one {s : State} {q m : Nat} (hm : memOf s (32 * q) = some m) (hs : m < 16) (hp : s.poison.get false q = false)
    (hd : deadSector s (32 * q) = false) (hw : s.wrong.get 0 q = 1) :
    findOnRead q s = logMem m (sectorAddr s (32 * q)).2 1 (freeNat (sectorAddr s (32 * q)).1).2
      (updBank m (fun b => { b with ce := satAdd b.ce 1 }) (freeNat (sectorAddr s (32 * q)).1).1) := by
  simp [findOnRead, hm, hp, hd, hw, unitOf, hs]

/-- The same with more (R54). -/
theorem findOnRead_of_more {s : State} {q m : Nat} (hm : memOf s (32 * q) = some m) (hs : m < 16) (hp : s.poison.get false q = false)
    (hd : deadSector s (32 * q) = false) (hw : 1 < s.wrong.get 0 q) :
    findOnRead q s = logMem m (sectorAddr s (32 * q)).2 2 0
      (updBank m (fun b => { b with ue := satAdd b.ue 1 }) (spoil (unitOf m q) (sectorAddr s (32 * q)).1)) := by
  have h0 : s.wrong.get 0 q ≠ 0 := by omega
  have h1 : s.wrong.get 0 q ≠ 1 := by omega
  simp [findOnRead, hm, hp, hd, h0, h1, unitOf, hs]

/-- Patrol scrubbing of a sector that the memory holds (R55). -/
theorem patrol_of_held {s : State} {m q : Nat} (hper : (memBank s m).period ≠ 0) (hb : bankHolds s m (32 * q) = true) :
    patrol m q .clean s = s ∧
    patrol m q .corrected s = logMem m (sectorAddr s (32 * q)).2 4 (freeNat (sectorAddr s (32 * q)).1).2
      (updBank m (fun b => { b with ce := satAdd b.ce 1 })
        (if (memBank s m).nowb then (freeNat (sectorAddr s (32 * q)).1).1 else mend [q] (freeNat (sectorAddr s (32 * q)).1).1)) ∧
    patrol m q .uncorrectable s = logMem m (sectorAddr s (32 * q)).2 5 0
      (updBank m (fun b => { b with ue := satAdd b.ue 1 }) (spoil (unitOf m q) (sectorAddr s (32 * q)).1)) := by
  simp only [patrol, hper, hb, Bool.not_true, Bool.false_eq_true, or_self, if_false, and_self]

/-! ### The obligation -/

/-- Settles O53: packets by the packet that comes first on its lane, tokens by the end of their command, and memories by the entry that
their log gains. -/
theorem packetsAndChannels : Obligations.PacketsAndChannels := by
  unfold Obligations.PacketsAndChannels
  intro s s2 lane pick c tok req st ch io m q land ev n cl src dst p rest v bad x data ptr l op own e r h y line first reads kind toked lone
  have comes : first → ComesFirst s lane src dst pick p rest := id
  refine ⟨?resp, ?signal, ?signalLost, ?share, ?access, ?remote, ?peerLate, ?peer, ?hbm, ?lpddr, ?retries, ?demand, ?patrol⟩
  case resp =>
    refine fun hf hb => makes_of (exec_delivery_of_first (comes hf) (performPacket_resp hb s)) ⟨rfl, ?_⟩
    exact lands_updLanding _ _ _ _
  case signal =>
    refine fun hf hb hg => makes_of (exec_delivery_of_first (comes hf) (performPacket_signal hb s)) ?_
    rw [hg, if_neg Bool.false_ne_true, ctx_updCtx, if_pos rfl]
    rfl
  case signalLost =>
    refine fun hf hb hg => (exec_delivery_of_first (comes hf) (performPacket_signal hb s)).trans ?_
    rw [if_pos hg]; rfl
  case share =>
    refine fun hf hb hg hroom => makes_of (exec_delivery_of_first (comes hf) (performPacket_share hb hg hroom)) ?_
    exact (Tab.get_upd _ _ _ _ _).trans (if_pos rfl)
  case access => exact fun hf hc hb hh => exec_delivery_of_first (comes hf) (performPacket_access hc hb hh)
  case remote =>
    rintro ⟨hx, ho, hw⟩ hop hlate
    obtain rfl := tok_of_xfFind hx
    exact makes_of (execRemoteRequestTimeout_of_late hx hop hlate) (tokRec_tokTimeout ho hw)
  case peerLate =>
    rintro ⟨hx, ho, hw⟩ hlate
    obtain rfl := tok_of_xfFind hx
    exact makes_of (execPeerReadTimeout_of_late hx hlate) (tokRec_tokTimeout ho hw)
  case peer =>
    rintro ⟨hx, ho, hw⟩ hy
    obtain rfl := tok_of_xfFind hx
    obtain ⟨hsuccess, herror, hpoisoned⟩ := peerData_of_open hx hy data
    exact ⟨makes_of (congrArg Host.Outcome.next hsuccess) rfl, makes_of (congrArg Host.Outcome.next herror) (tokRec_endXf_fault ho hw codeDataUe),
      makes_of (congrArg Host.Outcome.next hpoisoned) (tokRec_endXf_fault ho hw codePoison)⟩
  case hbm =>
    intro hst hch hlive
    refine ⟨makes_of (congrArg Host.Outcome.next (retrainHbm_of_live hst hch hlive true)) ?_,
      makes_of (congrArg Host.Outcome.next (retrainHbm_of_live hst hch hlive false)) ?_⟩
    · simp only [if_true, kind, memBank_logOpen, memBank_updBank]
      exact ⟨rfl, rfl, kindAt_withEntry _ _ _ _ (by decide)⟩
    · simp only [Bool.false_eq_true, if_false, kind, memBank_logOpen, memBank_updBank]
      exact ⟨rfl, by simp [withEntry], kindAt_withEntry _ _ _ _ (by decide)⟩
  case lpddr =>
    intro hio hch
    refine makes_of (congrArg Host.Outcome.next (retrainLp_of_exists hio hch)) ?_
    simp only [kind, memBank_logOpen, memBank_updBank]
    exact ⟨rfl, kindAt_withEntry _ _ _ _ (by decide)⟩
  case retries => exact fun hm h0 h4 => memBank_retried hm h0 h4 s
  case demand =>
    intro hm hs hp hd
    have bank := memBank_sectorAddr s (32 * q) m
    refine ⟨fun hw => ?one, fun hw => ?two⟩
    case one =>
      rw [findOnRead_of_one hm hs hp hd hw]
      exact memBank_corrected ((memBank_freeNat _ m).trans bank) _ _ (kind := 1) (by decide)
    case two =>
      rw [findOnRead_of_more hm hs hp hd hw]
      exact memBank_uncorrectable bank _ q (kind := 2) (by decide)
  case patrol =>
    intro hper hb
    obtain ⟨hclean, hcorrected, huncorrectable⟩ := patrol_of_held hper hb
    have bank := memBank_sectorAddr s (32 * q) m
    refine ⟨congrArg Host.Outcome.next hclean, makes_of (congrArg Host.Outcome.next hcorrected) (memBank_corrected ?_ _ _ (kind := 4) (by decide)),
      makes_of (congrArg Host.Outcome.next huncorrectable) (memBank_uncorrectable bank _ q (kind := 5) (by decide))⟩
    split
    · exact (memBank_freeNat _ m).trans bank
    · exact (memBank_mend _ _ m).trans ((memBank_freeNat _ m).trans bank)

end Sys2Proof.Machine
end

section
/-! How the waits of stream contexts end, and what reaches a context between its instructions (R75, R90, R97, R108-R110, R114, R138). -/

namespace Sys2Proof.Machine

open Sys2Proof.Safety

/-! ### Contexts that go on -/

theorem ctx_wakeCtx (c : Nat) (s : State) : ctx (wakeCtx c s) c =
    { ctx s c with wait := none, woken := true, state := if (ctx s c).state = .waiting then .running else (ctx s c).state } := by
  simp [wakeCtx]

/-- Going on behind an instruction, in the code or in an expansion, begins no wait and changes no state. -/
theorem wait_state_advancePc (c words : Nat) (s : State) :
    (ctx (advancePc c words s) c).wait = (ctx s c).wait ∧ (ctx (advancePc c words s) c).state = (ctx s c).state := by
  simp only [advancePc, toBody]
  split
  · split <;> simp
  · simp

/-! ### WAITMB (R75, R106) -/

/-- A WAITMB whose tensor can be read looks at its word. -/
theorem wakeMailbox_of_readable {s : State} {c d h o : Nat} {old : Word} (hw : (ctx s c).wait = some (.mailbox d h o old))
    (hd : declared s (ctx s c).part.toNat h = true) (hg : dieGone s (handleDie h) = false) (hr : isReady s h = true) :
    wakeMailbox c s =
      let v : Word := BitVec.ofNat 64 (readNat s (.glob h o) 8)
      if v = old then s else if poisoned s (.glob h o) 8 then streamFault c codePoison (globalPtr h o) 8 [] s
      else advancePc c 1 (setQ c d v (wakeCtx c s)) := by
  simp only [wakeMailbox, hw, hd, hg, hr, Bool.not_true, Bool.false_eq_true, if_false]

/-! ### Other waits (R90, R109) -/

theorem wakeWait_of_not_over {s : State} {c : Nat} {k : WaitKind} (hw : (ctx s c).wait = some k) (ho : waitOver s c k = false) :
    wakeWait c s = s := by
  simp only [wakeWait, hw, ho, Bool.not_false, if_true]

/-- A WAITE completes. -/
theorem wakeWait_event {s : State} {c e : Nat} {thr : BitVec 32} (hw : (ctx s c).wait = some (.event e thr))
    (ho : waitOver s c (.event e thr) = true) : wakeWait c s = advancePc c 1 (wakeCtx c s) := by
  simp only [wakeWait, hw, ho, Bool.not_true, Bool.false_eq_true, if_false]

/-- A wait that is over ends, whatever it was for, and a context that waited runs. -/
theorem wait_state_wakeWait {s : State} {c : Nat} {k : WaitKind} (hw : (ctx s c).wait = some k) (ho : waitOver s c k = true) :
    (ctx (wakeWait c s) c).wait = none ∧ ((ctx s c).state = .waiting → (ctx (wakeWait c s) c).state = .running) := by
  have wakes : (ctx (wakeWait c s) c).wait = (ctx (wakeCtx c s) c).wait ∧ (ctx (wakeWait c s) c).state = (ctx (wakeCtx c s) c).state := by
    simp only [wakeWait, hw, ho, Bool.not_true, Bool.false_eq_true, if_false]
    split
    · exact wait_state_advancePc c 1 _
    · simp
    · exact ⟨rfl, rfl⟩
  obtain ⟨hwait, hstate⟩ := wakes
  rw [hwait, hstate, ctx_wakeCtx]
  exact ⟨rfl, fun h => if_pos h⟩

/-! ### The wait limit (R138) -/

theorem waitLimit_of_wait {s : State} {c : Nat} {k : WaitKind} (hw : (ctx s c).wait = some k) :
    waitLimit c s = if limited s c k ∧ (ctx s c).limit ≠ 0 ∧ (ctx s c).limit.toNat < s.us - (ctx s c).waitUs ∧ !waitOver s c k
      then streamFault c codeDeadline 1 8 [] s else s := by
  simp only [waitLimit, hw]

/-! ### Signals, failures and the launch queue -/

/-- The one signal that has reached a context counts at its event. -/
theorem takeSignals_single {s : State} {c ev n : Nat} (h : (ctx s c).inbox = [(ev, n)]) :
    takeSignals c s = addEvent c ev n (updCtx s c (fun x => { x with inbox := [] })) := by
  simp only [takeSignals, h, List.foldl_cons, List.foldl_nil]

/-- A single failure says in its FINFO that none came behind it. -/
theorem deliverFailure_single {s : State} {c : Nat} {f : Failure} (hf : (ctx s c).fails = [f]) (hs : (ctx s c).state = .running)
    (hw : (ctx s c).wait = none) (hk : (ctx s c).woken = false) :
    deliverFailure c s = streamFault c f.code (BitVec.ofNat 64 (fieldW f.step 0 32 + f.code.toNat * 2 ^ 32 + f.core % 512 * 2 ^ 40)) 0 f.chain
      (updCtx s c (fun y => { y with fails := [] })) := by
  simp [deliverFailure, lowestFailure, hf, hs, hw, hk]

/-! ### The obligation -/

/-- Settles O54: each clause is the rule of the event that ends the wait or reaches the context. -/
theorem streamWaits : Obligations.StreamWaits := by
  unfold Obligations.StreamWaits
  intro s c d h o ev n old v k f x box info
  refine ⟨?same, ?differs, ?goesOn, ?ends, ?late, ?early, ?signal, ?failure, ?queue⟩
  case same =>
    rintro ⟨hw, hd, hg, hr, hv⟩ heq
    exact congrArg Host.Outcome.next ((wakeMailbox_of_readable hw hd hg hr).trans (if_pos (hv ▸ heq)))
  case differs =>
    rintro ⟨hw, hd, hg, hr, rfl⟩ hne hp
    exact congrArg Host.Outcome.next ((wakeMailbox_of_readable hw hd hg hr).trans ((if_neg hne).trans (if_neg (by simp [hp]))))
  case goesOn => exact fun hw ho => congrArg Host.Outcome.next (wakeWait_of_not_over hw ho)
  case ends =>
    intro hw ho
    obtain ⟨hwait, hstate⟩ := wait_state_wakeWait hw ho
    refine makes_of rfl ⟨hwait, hstate, ?_⟩
    rintro e thr rfl
    exact wakeWait_event hw ho
  case late =>
    intro hw hl h0 hlate ho
    exact congrArg Host.Outcome.next ((waitLimit_of_wait hw).trans (if_pos ⟨hl, h0, hlate, by simp [ho]⟩))
  case early =>
    intro hw hearly
    refine congrArg Host.Outcome.next ((waitLimit_of_wait hw).trans (if_neg ?_))
    rintro ⟨hl, h0, hlate, -⟩
    rcases hearly with hfree | hnone | hin
    · simp [hfree] at hl
    · exact h0 hnone
    · exact Nat.not_le.2 hlate hin
  case signal =>
    intro hi
    refine makes_of (congrArg Host.Outcome.next (takeSignals_single hi)) ?_
    simp [addEvent, evCount]
  case failure => exact fun hf hs hw hk => congrArg Host.Outcome.next (deliverFailure_single hf hs hw hk)
  case queue => exact fun hw hq => congrArg Host.Outcome.next (if_pos ⟨hw, hq⟩)

end Sys2Proof.Machine
end

section
/-! Escutcheon's answers, alarms and debug, and snapshots (R80-R87). -/

namespace Sys2Proof.Machine

open Sys2Proof.Safety

/-! ### Requests on a connection (R81) -/

/-- Escutcheon runs: the module has power, and the image of Escutcheon's own has booted. -/
def EscutcheonRuns (s : State) : Prop := s.mod.power.boot ≠ .off ∧ (nthD s.mod.trust.booted 0 none).isSome = true

theorem escutcheonUp_of_runs {s : State} (h : EscutcheonRuns s) : escutcheonUp s = true := by
  obtain ⟨hb, himage⟩ := h
  simp [escutcheonUp, hb, himage]

theorem reachable_of_runs {s : State} {tr : Transport} (h : EscutcheonRuns s)
    (hdoe : tr = .doe → s.mod.power.boot = .up ∧ s.mod.power.state ≠ .m3) : reachable s tr = true := by
  cases tr with
  | doe =>
    obtain ⟨hb, hm⟩ := hdoe rfl
    simp [reachable, escutcheonUp_of_runs h, isUp_of_up hb, hm]
  | mctp => exact escutcheonUp_of_runs h

/-- A request that its connection allows is answered. -/
theorem exec_of_allowed {i : Instr} {s : State} {tr : Transport} {ok : Trust → Bool} {f : State → State}
    (he : exec i s = .next (spdm tr ok f s)) (hr : reachable s tr = true) (hk : ok s.mod.trust = true) : exec i s = .next (f s) := by
  simp only [he, spdm, hr, hk, Bool.not_true, Bool.false_eq_true, if_false, if_true]

/-- One that it does not allow gets an error. -/
theorem exec_of_not_allowed {i : Instr} {s : State} {tr : Transport} {ok : Trust → Bool} {f : State → State}
    (he : exec i s = .next (spdm tr ok f s)) (hr : reachable s tr = true) (hk : ok s.mod.trust = false) :
    exec i s = .next (reply (.error false) s) := by
  simp only [he, spdm, hr, hk, Bool.not_true, Bool.false_eq_true, if_false]

theorem conn_reply (r : SpdmReply) (s : State) (u : Transport) : conn (reply r s).mod.trust u = conn s.mod.trust u := rfl

theorem conn_updConn (tr u : Transport) (f : Conn → Conn) (s : State) :
    conn (updConn tr f s).mod.trust u = if u = tr then f (conn s.mod.trust tr) else conn s.mod.trust u := by
  cases tr <;> cases u <;> rfl

/-! ### Alarms of class B (R83) -/

theorem trust_sendMsix (e : Nat) (s : State) : (sendMsix e s).mod.trust = s.mod.trust := by unfold sendMsix; split <;> rfl

theorem trust_raiseAlarm (s : State) : (raiseAlarm s).mod.trust = s.mod.trust := trust_sendMsix _ _

theorem power_raiseAlarm (s : State) : (raiseAlarm s).mod.power = { s.mod.power with alert := true } := power_sendMsix _ _

theorem trust_alarmB (s : State) : (alarmB s).mod.trust =
    { s.mod.trust with classB := true, unlocked := false, locked := true, challenge := none, sessions := [], failUs := [] } :=
  trust_raiseAlarm _

theorem alert_alarmB (s : State) : (alarmB s).mod.power.alert = true := by rw [alarmB, power_raiseAlarm]

/-! ### Signed responses (R82) -/

/-- With a leaf left the response carries both signatures, and the leaf counter has advanced. -/
theorem exec_signed_of_leaf {i : Instr} {s : State} {f : Signed → SpdmReply} {g : State → State} (he : exec i s = .next (signedReply f g s))
    (hl : s.mod.trust.hss < 2 ^ 30) : exec i s = .next (g (reply (f (signTranscript s.mod.trust s.mod.trust.hss (Config.transcript s.free)))
      { updTrust (fun t => { t with hss := t.hss + 1 }) s with free := s.free + 1 })) := by
  rw [he, signedReply, if_neg (show ¬ hssLeaves ≤ s.mod.trust.hss from Nat.not_le.2 hl)]

/-- With none left it is the error Unspecified and an alarm of class B. -/
theorem makes_error_of_no_leaf {i : Instr} {s : State} {f : Signed → SpdmReply} {g : State → State} (he : exec i s = .next (signedReply f g s))
    (hl : ¬ s.mod.trust.hss < 2 ^ 30) : Makes i s (fun t => t.mod.trust.reply = .error true ∧ t.mod.trust.hss = s.mod.trust.hss ∧
      t.mod.trust.classB = true) := by
  refine makes_of (he.trans (congrArg Host.Outcome.next (if_pos (show hssLeaves ≤ s.mod.trust.hss from Nat.not_lt.1 hl)))) ?_
  rw [trust_alarmB]
  exact ⟨rfl, rfl, rfl⟩

/-! ### Sessions (R81) -/

theorem sessionOf_reply (r : SpdmReply) (s : State) (tr : Transport) (sess : Nat) (w : Bool) :
    sessionOf (reply r s).mod.trust tr sess w = sessionOf s.mod.trust tr sess w := rfl

/-- What a session of a transport and number is. -/
theorem fields_of_sessionOf {t : Trust} {tr : Transport} {sess : Nat} {w : Bool} {x : Session} (h : sessionOf t tr sess w = some x) :
    x.tr = tr ∧ x.id = sess := by
  have found := List.find?_some h
  simp only [Bool.and_eq_true, beq_iff_eq] at found
  exact found.1

/-- Of the sessions of a transport and number, none is left beside one that is put in their place. -/
theorem sessionOf_putSession {tr : Transport} {sess : Nat} {x : Option Session} (hx : ∀ y ∈ x, y.tr = tr ∧ y.id = sess) (s : State) (w : Bool) :
    sessionOf (putSession tr sess x s).mod.trust tr sess w = x.filter (fun y => y.wait == w) := by
  have others : (s.mod.trust.sessions.filter (fun y => y.tr != tr || y.id != sess)).find? (fun y => y.tr == tr && y.id == sess && y.wait == w) = none := by
    refine List.find?_eq_none.2 (fun y hy => ?_)
    simp only [List.mem_filter, Bool.or_eq_true, bne_iff_ne] at hy
    simp only [Bool.and_eq_true, beq_iff_eq]
    rintro ⟨⟨htr, hid⟩, -⟩
    exact hy.2.elim (· htr) (· hid)
  simp only [sessionOf, putSession, updTrust, List.find?_append, others, Option.or_none]
  cases x with
  | none => rfl
  | some y =>
    obtain ⟨htr, hid⟩ := hx y rfl
    cases hw : y.wait == w <;> simp [htr, hid, hw, Option.filter]

/-- A FINISH that authenticates establishes its session. -/
theorem exec_finish_of_right {s : State} {sess : Nat} {mac : BitVec 384} {x : Session} (hr : reachable s s.mod.trust.via = true)
    (hx : sessionOf s.mod.trust s.mod.trust.via sess true = some x) (hm : Config.macOk x.key mac = true) :
    exec (.finish sess mac) s = .next (reply (.finish sess) (putSession s.mod.trust.via sess (some { x with wait := false }) s)) := by
  have waits : (sessionOf s.mod.trust s.mod.trust.via sess true).isSome = true := by rw [hx]; rfl
  rw [exec_of_allowed (i := .finish sess mac) rfl hr waits]
  simp only [hx, hm, if_true]

/-! ### The requests for signed responses (R81, R82) -/

theorem exec_challenge_of_agreed {s : State} (hr : reachable s s.mod.trust.via = true) (hk : (conn s.mod.trust s.mod.trust.via).algs = true)
    (nonce : BitVec 256) : exec (.challenge nonce true) s = .next (signedReply (.challenge nonce) (fun s => s) s) :=
  exec_of_allowed rfl hr hk

theorem exec_getMeasurements_of_agreed {s : State} (hr : reachable s s.mod.trust.via = true) (hk : (conn s.mod.trust s.mod.trust.via).algs = true)
    {ix : Nat} (hix : ix ≤ 9) : exec (.getMeasurements ix false) s = .next (reply (.measurements (measBlocks s.mod.trust ix) none) s) ∧
      exec (.getMeasurements ix true) s = .next (signedReply (fun a => .measurements (measBlocks s.mod.trust ix) (some a)) (fun s => s) s) := by
  have named : ((conn s.mod.trust s.mod.trust.via).algs && (decide (ix ≤ 9) || ix == 255)) = true := by simp [hk, hix]
  have asked (sign : Bool) := exec_of_allowed (i := .getMeasurements ix sign) (s := s) rfl hr named
  exact ⟨asked false, asked true⟩

/-- The session that a KEY_EXCHANGE begins, with the key of a number. -/
def begunSession (tr : Transport) (sess n : Nat) : Session := { tr := tr, id := sess, key := Config.sessionKey n, wait := true }

theorem exec_keyExchange_of_agreed {s : State} (hr : reachable s s.mod.trust.via = true) (hk : (conn s.mod.trust s.mod.trust.via).algs = true)
    (sess : Nat) (pub : BitVec 768) : exec (.keyExchange sess pub true) s = .next (signedReply (.keyExchange sess)
      (fun u => putSession s.mod.trust.via sess (some (begunSession s.mod.trust.via sess u.free)) { u with free := u.free + 1 }) s) :=
  exec_of_allowed rfl hr hk

/-! ### Debug (R85) -/

/-- A running Escutcheon without alarm or lock serves a debugger. -/
theorem debugRefused_of_runs {s : State} (h : EscutcheonRuns s) (hB : s.mod.trust.classB = false) (hf : s.mod.trust.fused = false)
    (hl : s.mod.trust.locked = false) : debugRefused s = false := by
  simp [debugRefused, escutcheonUp_of_runs h, hB, hf, hl]

theorem giveChallenge_of_served {s : State} (h : debugRefused s = false) : giveChallenge s =
    { updTrust (fun t => { t with challenge := some (Config.debugChallenge s.free) }) s with free := s.free + 1 } := if_neg (by simp [h])

/-- The state in which a debugger's challenge has been used up. -/
def withoutChallenge (s : State) : State := updTrust (fun t => { t with challenge := none }) s

theorem debugUnlock_of_right {s : State} {sig : BitVec 768} {hss : List Byte} {ch : BitVec 256} (h : debugRefused s = false)
    (hc : s.mod.trust.challenge = some ch) (hg : genrekSigned (leBytes ch.toNat 32) sig hss = true) :
    debugUnlock sig hss s = updTrust (fun t => { t with unlocked := true }) (withoutChallenge s) := by
  simp only [debugUnlock, h, hc, hg, Bool.false_eq_true, if_false, if_true, withoutChallenge]

/-- A response that is wrong, or that answers no challenge, raises the alarm. -/
theorem debugUnlock_of_wrong {s : State} {sig : BitVec 768} {hss : List Byte} (h : debugRefused s = false)
    (hw : ∀ ch, s.mod.trust.challenge = some ch → genrekSigned (leBytes ch.toNat 32) sig hss = false) :
    debugUnlock sig hss s = alarmB (withoutChallenge s) := by
  simp only [debugUnlock, h, Bool.false_eq_true, if_false, withoutChallenge]
  cases hc : s.mod.trust.challenge with
  | none => rfl
  | some ch => simp only [hw ch hc, Bool.false_eq_true, if_false]

/-! ### Measurement extends (R80) -/

theorem bitAt_withBits_go (n : Nat) : bitAt (withBits n 4 1 1) 4 = true := by
  simp only [bitAt, withBits, bitsOf, beq_iff_eq]
  omega

theorem index_withBits_go (v : Word) : (BitVec.ofNat 3 (withBits v.toNat 4 1 1)).toNat = fieldW v 0 3 := by
  simp only [BitVec.toNat_ofNat, fieldW, withBits, bitsOf]
  omega

/-- GO extends the register that INDEX names, if it is one of the last two, and is refused for another. -/
theorem trust_writeMeasext_go (v : Word) (s : State) :
    let t := (writeMeasext fullMask (withBits v.toNat 4 1 1) s).mod.trust
    (6 ≤ fieldW v 0 3 → t.meas = s.mod.trust.meas.upd 0 (fieldW v 0 3) (fun x => measExtendWith x s.mod.trust.measData)) ∧
    (fieldW v 0 3 < 6 → t.meas = s.mod.trust.meas ∧ t.measRef = true) := by
  simp only [writeMeasext, bitAt_withBits_go, show bitAt fullMask 0 = true by decide, show bitAt fullMask 4 = true by decide, Bool.and_self, if_true,
    updTrust, index_withBits_go]
  refine ⟨fun h => ?_, fun h => ?_⟩
  · rw [if_neg (Nat.not_lt.2 h)]
  · rw [if_pos h]; exact ⟨rfl, rfl⟩

/-! ### Tamper (R83, R84) -/

theorem tamper_of_powered {s : State} (hb : s.mod.power.boot ≠ .off) : tamper s = holdDies .held s.mod.power.pwrgd
    (updTrust (fun t => { t with fused := true, keys := false, holdC := true, sessions := [] }) (raiseAlarm s)) := if_neg hb

theorem bare_holdDies (b : BootState) (pwrgd : Bool) (s : State) : Bare (holdDies b pwrgd s) := bare_bareState _ _ s

/-! ### Snapshots (R86, R87) -/

theorem snap_fireTrig_of_free {s : State} (h : s.mod.snap.held = false) (cause : Nat) (code : BitVec 8) : (fireTrig cause code s).mod.snap =
    { s.mod.snap with held := true, cause := BitVec.ofNat 3 cause, fcode := code, at_ := s.clk, todo := snapBlocks } := by
  simp only [fireTrig, h, Bool.false_eq_true, if_false]

/-- While a snapshot of an earlier clock is held, a trigger only counts. -/
theorem snap_fireTrig_of_held {s : State} (h : s.mod.snap.held = true) (hat : s.mod.snap.at_ ≠ s.clk) (hl : s.mod.snap.lost.toNat < 65535)
    (cause : Nat) (code : BitVec 8) : (fireTrig cause code s).mod.snap = { s.mod.snap with lost := s.mod.snap.lost + 1 } := by
  have room : s.mod.snap.lost ≠ 0xFFFF := by
    intro hfull
    simp [hfull] at hl
  simp only [fireTrig, h, hat, room, if_true, if_false, false_and]

/-- A block that has still to latch. -/
theorem snap_latchBlock_of_due {s : State} {block : Nat} (h : block ∈ s.mod.snap.todo) : (latchBlock block s).mod.snap =
    { s.mod.snap with todo := s.mod.snap.todo.filter (fun b => b != block), latch := s.mod.snap.latch.set [] block (snapRegs s block),
                      times := s.mod.snap.times.set 0 block s.us } := by
  simp only [latchBlock, List.contains_iff_mem.2 h, Bool.not_true, Bool.false_eq_true, if_false]

/-! ### The obligation -/

/-- Settles O51: each request by what its connection allows, the rest by the rule of its event. -/
theorem trustAndSnapshots : Obligations.TrustAndSnapshots := by
  unfold Obligations.TrustAndSnapshots
  intro s u offered nonce ix sess block pub mac sig hss v t0 tr k up leaf S replies signed refuses
  refine ⟨fun hup htr => ?spdm, fun hup hB hf hl => ?debug, ?measext, ?tamper, ?fire, ?count, ?latch, ⟨_, rfl, rfl⟩⟩
  case spdm =>
    have reach : reachable s tr = true := reachable_of_runs hup htr
    refine ⟨?version, ?capabilities, ?early, ?algorithms, fun hk => ?agreed, ?refused, ?finish, ?session, ?noSession⟩
    case version =>
      refine makes_of (exec_of_allowed rfl reach rfl) ⟨rfl, ?_, fun hu => ?_⟩
      · exact (conn_updConn ..).trans (if_pos rfl)
      · exact (conn_updConn ..).trans (if_neg hu)
    case capabilities => exact fun hk => makes_of (exec_of_allowed rfl reach hk) ⟨rfl, (conn_updConn ..).trans (if_pos rfl)⟩
    case early => exact fun hk => makes_of (exec_of_not_allowed rfl reach hk) rfl
    case algorithms =>
      intro hk ha
      have offers : (spdmAlgs.all fun a => offered.contains a) = true := List.all_eq_true.2 (fun a h => List.contains_iff_mem.2 (ha a h))
      exact makes_of (exec_of_allowed rfl reach (by rw [offers, Bool.and_true]; exact hk)) ⟨rfl, (conn_updConn ..).trans (if_pos rfl)⟩
    case agreed =>
      refine ⟨makes_of (exec_of_allowed rfl reach hk) rfl, makes_of (exec_of_allowed rfl reach (Bool.and_eq_true_iff.2 ⟨hk, rfl⟩)) rfl,
        fun hl => ?signs, fun hl => ?exhausted, fun hix => ?measurements⟩
      case signs =>
        have exchanged := exec_signed_of_leaf (exec_keyExchange_of_agreed reach hk sess pub) hl
        refine ⟨makes_of (exec_signed_of_leaf (exec_challenge_of_agreed reach hk nonce) hl) ⟨rfl, rfl⟩, makes_of exchanged ⟨rfl, rfl⟩,
          makes_of exchanged ⟨_, sessionOf_putSession (x := some (begunSession tr sess (s.free + 1))) ?_ _ true⟩⟩
        rintro y ⟨⟩
        exact ⟨rfl, rfl⟩
      case exhausted =>
        exact ⟨makes_error_of_no_leaf (exec_challenge_of_agreed reach hk nonce) hl,
          makes_error_of_no_leaf (exec_keyExchange_of_agreed reach hk sess pub) hl,
          makes_error_of_no_leaf (exec_getMeasurements_of_agreed reach hk (Nat.le_refl 9)).2 hl⟩
      case measurements =>
        obtain ⟨hplain, hsigned⟩ := exec_getMeasurements_of_agreed reach hk hix
        exact ⟨makes_of hplain rfl, fun hl => makes_of (exec_signed_of_leaf hsigned hl) ⟨rfl, rfl⟩⟩
    case refused =>
      intro hk i hi
      simp only [List.mem_cons, List.not_mem_nil, or_false] at hi
      have also (b : Bool) : (k.algs && b) = false := by rw [hk, Bool.false_and]
      obtain rfl | rfl | rfl | rfl | rfl := hi
      · exact makes_of (exec_of_not_allowed rfl reach hk) rfl
      · exact makes_of (exec_of_not_allowed rfl reach (also _)) rfl
      · exact makes_of (exec_of_not_allowed rfl reach hk) rfl
      · exact makes_of (exec_of_not_allowed rfl reach (also _)) rfl
      · exact makes_of (exec_of_not_allowed rfl reach hk) rfl
    case finish =>
      intro x hx hm
      have own : ∀ y ∈ some { x with wait := false }, y.tr = tr ∧ y.id = sess := by
        rintro y ⟨⟩
        exact fields_of_sessionOf (x := x) hx
      exact makes_of (exec_finish_of_right reach hx hm) ⟨rfl, sessionOf_putSession own s false, sessionOf_putSession own s true⟩
    case session =>
      intro x hx
      have established : (sessionOf t0 tr sess false).isSome = true := by rw [hx]; rfl
      exact ⟨makes_of (exec_of_allowed rfl reach established) rfl,
        makes_of (exec_of_allowed rfl reach established) ⟨rfl, sessionOf_putSession (x := none) (by simp) s false⟩⟩
    case noSession =>
      intro hx
      have absent : (sessionOf t0 tr sess false).isSome = false := by rw [hx]; rfl
      exact ⟨makes_of (exec_of_not_allowed rfl reach absent) rfl, makes_of (exec_of_not_allowed rfl reach absent) rfl⟩
  case debug =>
    intro wrong
    have served : debugRefused s = false := debugRefused_of_runs hup hB hf hl
    have alarmed (hw : ∀ ch, t0.challenge = some ch → genrekSigned (leBytes ch.toNat 32) sig hss = false) : wrong := by
      refine makes_of (congrArg Host.Outcome.next (debugUnlock_of_wrong served hw)) ?_
      rw [trust_alarmB]
      exact ⟨rfl, rfl, rfl, rfl, alert_alarmB _⟩
    refine ⟨rfl, congrArg (·.mod.trust.challenge) (giveChallenge_of_served served), fun hnone => alarmed ?_, fun ch hc => ⟨fun hg => ?_, fun hg => alarmed ?_⟩⟩
    · simp [hnone]
    · exact makes_of (congrArg Host.Outcome.next (debugUnlock_of_right served hc hg)) ⟨rfl, rfl⟩
    · intro ch' hc'
      rw [Option.some.inj (hc'.symm.trans hc)]
      exact hg
  case measext =>
    obtain ⟨hextends, hrefuses⟩ := trust_writeMeasext_go v s
    refine makes_of rfl ⟨fun h => ?_, hrefuses⟩
    rw [hextends h]
    exact ⟨(Tab.get_upd ..).trans (if_pos rfl), fun i hi => (Tab.get_upd ..).trans (if_neg hi)⟩
  case tamper =>
    intro hb
    refine makes_of (congrArg Host.Outcome.next (tamper_of_powered hb)) ⟨bare_holdDies _ _ _, rfl, ?_, rfl, rfl, rfl, rfl⟩
    exact congrArg Power.alert (power_raiseAlarm s)
  case fire => exact fun h => makes_of rfl (by rw [snap_fireTrig_of_free h]; exact ⟨rfl, rfl, rfl, rfl⟩)
  case count => exact fun h hat hl => makes_of rfl (snap_fireTrig_of_held h hat hl 4 0)
  case latch =>
    intro h
    refine makes_of rfl ?_
    rw [snap_latchBlock_of_due h]
    simp

end Sys2Proof.Machine
end

section
/-! The host's contexts, tensor declarations and aperture (R67-R74, R100, R137). -/

namespace Sys2Proof.Machine

open Sys2Proof.Safety

/-! ### What leaves the registers of the partitions -/

/-- What every step of a fold leaves, the fold leaves. -/
theorem foldl_keeps {σ α β : Type} {g : σ → α} {f : σ → β → σ} (h : ∀ s b, g (f s b) = g s) (l : List β) (s : σ) : g (l.foldl f s) = g s := by
  induction l generalizing s with
  | nil => rfl
  | cons b l ih => rw [List.foldl_cons, ih, h]

theorem mod_requestRestore (h : Nat) (s : State) : (requestRestore h s).mod = s.mod := by
  unfold requestRestore; dsimp only; split <;> rfl

/-- A leaf entry of the Hasp's own changes translations, stored entries and the marks of stored entries. -/
theorem writeLeaf_changes (die p : Nat) (s : State) : ∃ tlb mem ptw, writeLeaf die p s = { s with tlb := tlb, mem := mem, ptw := ptw } := by
  simp only [writeLeaf]
  split
  · split <;> exact ⟨_, _, _, rfl⟩
  · exact ⟨_, _, _, rfl⟩

theorem mod_installPage (h page : Nat) (s : State) : (installPage h page s).mod = s.mod := by
  unfold installPage
  split
  · rfl
  · obtain ⟨tlb, mem, ptw, changed⟩ := writeLeaf_changes (handleDie h) (pageOf (((trec s h).iapage + page) * 2 ^ 16))
      { s with mem := s.mem.zeroRange (globKey h (65536 * page)) 65536 }
    rw [changed]

theorem mod_takePages (h : Nat) (l : List Nat) (s : State) : (takePages h l s).mod = s.mod :=
  foldl_keeps (g := State.mod) (fun s i => mod_installPage h i { s with pages := s.pages.set false (pageKey s h i) true }) l s

theorem mod_writeEntries (s : State) (l : Loc) (n : Nat) : (writeEntries s l n).mod = s.mod := by
  cases l with
  | glob h o =>
    simp only [writeEntries]
    split
    · rfl
    · refine foldl_keeps (g := State.mod) (fun t i => ?_) _ s
      split <;> rfl
  | flat k => rfl
  | host a p => rfl

theorem mod_writeMasked (l : Loc) : ∀ (bytes : List Byte) (mask : List Bool) (i : Nat) (s : State), (writeMasked s l i bytes mask).mod = s.mod
  | [], _, _, _ => by rw [writeMasked]; nofun
  | _ :: _, [], _, _ => by rw [writeMasked]; nofun
  | b :: t, m :: ms, i, s => by rw [writeMasked, mod_writeMasked l t ms]; split <;> rfl

theorem mod_clearPoison (s : State) (l : Loc) (n : Nat) (mask : List Bool) : (clearPoison s l n mask).mod = s.mod := by
  refine foldl_keeps (g := State.mod) (fun t i => ?_) _ s
  dsimp only
  split <;> rfl

theorem mod_dropCounts (s : State) (h o n : Nat) : (dropCounts s h o n).mod = s.mod := by
  refine foldl_keeps (g := State.mod) (fun t d => ?_) _ s
  refine foldl_keeps (g := State.mod) (fun u k => ?_) _ t
  rfl

theorem mod_markMove (h o n : Nat) (s : State) : (markMove h o n s).mod = s.mod := by unfold markMove; split <;> rfl

theorem parts_netRoute (q : Nat) (p : NetPacket) (s : State) : (netRoute q p s).1.mod.parts = s.mod.parts := by
  dsimp only [netRoute]
  repeat' split
  all_goals rfl

theorem parts_sendMdelta (d j off : Nat) (bytes : List Byte) (s : State) : (sendMdelta d j off bytes s).mod.parts = s.mod.parts := by
  have routes : (netSend (mdelta (fresh s).2 d (fresh s).1 j off bytes) (fresh s).2).1.mod.parts = s.mod.parts := parts_netRoute ..
  dsimp only [sendMdelta]
  split <;> exact routes

/-- Of the module, parity deltas change the links alone. -/
theorem parts_pageDelta (s : State) (h page off : Nat) (bytes : List Byte) : (pageDelta s h page off bytes).mod.parts = s.mod.parts := by
  have dieLevel (u : State) : (dieDelta h page off bytes u).mod.parts = u.mod.parts := by
    unfold dieDelta
    split
    · split <;> rfl
    · rfl
  have moduleLevel (u : State) : (modDelta h page off bytes u).mod.parts = u.mod.parts := by
    unfold modDelta
    split
    · exact parts_sendMdelta ..
    · rfl
  rw [pageDelta, moduleLevel, dieLevel]

theorem parts_survDelta (s : State) (h o : Nat) (d : List Byte) : (survDelta s h o d).mod.parts = s.mod.parts := by
  unfold survDelta
  split
  · rfl
  · exact foldl_keeps (g := fun s => s.mod.parts) (fun t i => parts_pageDelta ..) _ s

/-- A write of a tensor's bytes leaves the registers of the partitions. -/
theorem parts_storeGlob (s : State) (h o : Nat) (bytes : List Byte) (mask : List Bool) : (storeGlob s h o bytes mask).mod.parts = s.mod.parts := by
  rw [storeGlob, parts_survDelta, mod_markMove, mod_dropCounts, mod_clearPoison, mod_writeMasked, mod_writeEntries, mod_takePages]

theorem partOf_apPut (h o : Nat) (b : List Byte) (s : State) (p : Nat) : partOf (apPut h o b s) p = partOf s p := by
  rw [apPut, partOf, updRec_mod, parts_storeGlob]; rfl

/-! ### What reads of memory look at -/

/-- The state with another module around the package. -/
def withMod (m : Module) (s : State) : State := { s with mod := m }

section

variable (m : Module) (s : State)

theorem trec_withMod (h : Nat) : trec (withMod m s) h = trec s h := rfl
theorem ownEntry_withMod (d off : Nat) : ownEntry (withMod m s) d off = ownEntry s d off := rfl
theorem physKey_withMod (d tier pa : Nat) : physKey (withMod m s) d tier pa = physKey s d tier pa := rfl

theorem pte_withMod (d pa : Nat) : pte (withMod m s) d pa = pte s d pa := by
  simp only [pte, ownEntry_withMod, physKey_withMod]; rfl

theorem leafAddr_withMod (d ia : Nat) : leafAddr (withMod m s) d ia = leafAddr s d ia := by simp only [leafAddr, pte_withMod]

theorem leafOf_withMod (d ia : Nat) : leafOf (withMod m s) d ia = leafOf s d ia := by
  simp only [leafOf, walk, leafAddr_withMod, pte_withMod]; rfl

theorem leafWritten_withMod (d ia : Nat) : leafWritten (withMod m s) d ia = leafWritten s d ia := by
  simp only [leafWritten, leafAddr_withMod]; rfl

theorem byteKey_withMod (h o : Nat) : byteKey (withMod m s) h o = byteKey s h o := by
  dsimp only [byteKey]
  rw [trec_withMod, leafOf_withMod, leafWritten_withMod, physKey_withMod]

theorem locKey_withMod (l : Loc) (i : Nat) : locKey (withMod m s) l i = locKey s l i := by
  cases l with
  | glob h o => exact byteKey_withMod m s h (o + i)
  | flat k => rfl
  | host a p => rfl

theorem byteAt_withMod (l : Loc) (i : Nat) : byteAt (withMod m s) l i = byteAt s l i := by
  cases l <;> simp only [byteAt, locKey_withMod, ownEntry_withMod] <;> rfl

theorem readLoc_withMod (l : Loc) (n : Nat) : readLoc (withMod m s) l n = readLoc s l n :=
  List.map_congr_left (fun i _ => byteAt_withMod m s l i)

end

theorem readLoc_updPart (s : State) (p : Nat) (f : Part → Part) (l : Loc) (n : Nat) : readLoc (updPart s p f) l n = readLoc s l n :=
  readLoc_withMod _ s l n

/-- Poison lies in memory and in the channels, not in the registers of a partition. -/
theorem poisoned_updPart (s : State) (p : Nat) (f : Part → Part) (l : Loc) (n : Nat) : poisoned (updPart s p f) l n = poisoned s l n := by
  have key (i : Nat) : locKey (updPart s p f) l i = locKey s l i := locKey_withMod _ s l i
  simp only [poisoned, key]
  rfl

/-! ### Words with some bits written -/

theorem bitAt_fullMask {i : Nat} (h : i < 64) : bitAt fullMask i = true := by
  rw [bitAt_eq_testBit, fullMask, Nat.testBit_two_pow_sub_one, decide_eq_true h]

/-- What RUN and KILL of CTXCTL are read as leaves the fields behind them. -/
theorem fields_withBits_run (n r : Nat) : bitsOf (withBits n 0 2 r) 2 3 = bitsOf n 2 3 ∧ bitsOf (withBits n 0 2 r) 5 2 = bitsOf n 5 2 := by
  simp only [bitsOf, withBits]; omega

theorem bits_withBits_run (n : Nat) {r : Nat} (hr : r < 2) : bitAt (withBits n 0 2 r) 0 = (r == 1) ∧ bitAt (withBits n 0 2 r) 1 = false := by
  simp only [bitAt, withBits, bitsOf, beq_eq_beq, beq_eq_false_iff_ne]; omega

theorem bitAt_withBits_kill (n : Nat) : bitAt (withBits n 1 1 1) 1 = true := by
  simp only [bitAt, withBits, bitsOf, beq_iff_eq]; omega

/-- What OP of HDCTL is read as leaves the other fields. -/
theorem fields_withBits_op (v : Word) (op : Nat) : bitAt (withBits v.toNat 1 1 op) 0 = v.getLsbD 0 ∧ bitsOf (withBits v.toNat 1 1 op) 2 6 = fieldW v 2 6 ∧
    bitAt (withBits v.toNat 1 1 op) 9 = v.getLsbD 9 ∧ bitAt (withBits v.toNat 1 1 op) 10 = v.getLsbD 10 := by
  simp only [← bitAt_toNat, fieldW, bitAt, bitsOf, withBits, beq_eq_beq]; omega

theorem bitAt_withBits_op (n op : Nat) : bitAt (withBits n 1 1 op) 1 = bitAt op 0 := by
  simp only [bitAt, withBits, bitsOf, beq_eq_beq]; omega

/-! ### Starts, stops and kills (R71-R73) -/

theorem canStart_iff (x : Ctx) : canStart x = true ↔ x.state = .idle ∨ x.state = .ended ∨ x.state = .faulted := by
  simp [canStart, or_assoc]

/-- The fields of CTXCTL beside RUN and KILL, as a whole write sets them. -/
def setCtxctl (c v : Nat) (s : State) : State :=
  updCtx (updCtx s c (fun x => { x with
    part := if x.state = .idle then BitVec.ofNat 3 (bitsOf v 2 3) else x.part, prio := BitVec.ofNat 2 (bitsOf v 5 2), irqend := bitAt v 7,
    vec := BitVec.ofNat 11 (withBits x.vec.toNat 0 8 (bitsOf v 8 8)) })) c
    (fun x => { x with vec := BitVec.ofNat 11 (withBits x.vec.toNat 8 3 (bitsOf v 16 3)) })

theorem ctx_setCtxctl (c v : Nat) (s : State) : (ctx (setCtxctl c v s) c).state = (ctx s c).state ∧ (ctx (setCtxctl c v s) c).entry = (ctx s c).entry ∧
    (ctx (setCtxctl c v s) c).part = (if (ctx s c).state = .idle then BitVec.ofNat 3 (bitsOf v 2 3) else (ctx s c).part) ∧
    (ctx (setCtxctl c v s) c).prio = BitVec.ofNat 2 (bitsOf v 5 2) := by
  simp [setCtxctl]

/-- A whole write of CTXCTL of a die that is not lost: KILL acts before RUN. -/
theorem writeCtxctl_of_live {s : State} {c : Nat} (hc : c < 64) (hl : isLost s (c / 8) = false) (v : Nat) : writeCtxctl c fullMask v s =
    if bitAt v 1 && !canStart (ctx (setCtxctl c v s) c) then killCtx c (setCtxctl c v s)
    else if bitAt v 0 then (if canStart (ctx (setCtxctl c v s) c) then startCtx c (setCtxctl c v s) else setCtxctl c v s)
    else stopCtx c (setCtxctl c v s) := by
  simp [writeCtxctl, Nat.not_le.2 hc, hl, bitAt_fullMask, setCtxctl]

theorem canStart_setCtxctl (c v : Nat) (s : State) : canStart (ctx (setCtxctl c v s) c) = canStart (ctx s c) := by
  obtain ⟨hstate, -⟩ := ctx_setCtxctl c v s
  simp only [canStart, hstate]

/-- Where RUN comes without KILL a context that may start does. -/
theorem execCtxctlRun_of_idle {s : State} {c : Nat} (hc : c < 64) (hl : isLost s (c / 8) = false) (hi : canStart (ctx s c) = true) (v : Word) :
    exec (.ctxctlRun c v) s = .next (startCtx c (setCtxctl c (withBits v.toNat 0 2 1) s)) := by
  obtain ⟨hrun, hkill⟩ := bits_withBits_run v.toNat (r := 1) (by decide)
  refine congrArg Host.Outcome.next ((writeCtxctl_of_live hc hl _).trans ?_)
  simp only [hrun, hkill, canStart_setCtxctl, hi, Bool.false_and, Bool.false_eq_true, BEq.rfl, if_false, if_true]

theorem execCtxctlStop_of_live {s : State} {c : Nat} (hc : c < 64) (hl : isLost s (c / 8) = false) (v : Word) :
    exec (.ctxctlStop c v) s = .next (stopCtx c (setCtxctl c (withBits v.toNat 0 2 0) s)) := by
  obtain ⟨hrun, hkill⟩ := bits_withBits_run v.toNat (r := 0) (by decide)
  refine congrArg Host.Outcome.next ((writeCtxctl_of_live hc hl _).trans ?_)
  simp only [hrun, hkill, Bool.false_and, Nat.reduceBEq, Bool.false_eq_true, if_false]

theorem execCtxctlKill_of_active {s : State} {c : Nat} (hc : c < 64) (hl : isLost s (c / 8) = false) (hi : canStart (ctx s c) = false) (v : Word) :
    exec (.ctxctlKill c v) s = .next (killCtx c (setCtxctl c (withBits v.toNat 1 1 1) s)) := by
  refine congrArg Host.Outcome.next ((writeCtxctl_of_live hc hl _).trans (if_pos ?_))
  rw [bitAt_withBits_kill, canStart_setCtxctl, hi]
  rfl

/-- A start at a code address of a partition that exists. -/
theorem ctx_startCtx_of_code {s : State} {c : Nat} (hg : isGlobal (ctx s c).entry = true) (h8 : (ctx s c).entry.toNat % 8 = 0)
    (hp : partExists s (ctx s c).part.toNat = true) : ctx (startCtx c s) c = { ctx s c with
      run := true, state := .running, pc := BitVec.ofNat 48 (ptrO (ctx s c).entry), code := globalPtr (ptrH (ctx s c).entry) 0, cls := (ctx s c).prio,
      handler := none, inh := false, bracket := none, wait := none, woken := false, ending := false, killing := false, mret := (ctx s c).inmac } := by
  simp [startCtx, hg, h8, hp]

/-- A start anywhere else is refused. -/
theorem ctx_startCtx_refused {s : State} {c : Nat} (h : isGlobal (ctx s c).entry = false ∨ (ctx s c).entry.toNat % 8 ≠ 0) :
    ctx (startCtx c s) c = { ctx s c with refused := true, run := false } := by
  rcases h with hglobal | haligned
  · simp [startCtx, hglobal]
  · simp [startCtx, haligned]

theorem ctx_stopCtx_of_running {s : State} {c : Nat} (h : (ctx s c).state = .running) :
    (ctx (stopCtx c s) c).state = .stopping ∧ (ctx (stopCtx c s) c).run = false := by
  simp only [stopCtx, h]
  split
  · contradiction
  · split <;> simp

theorem ctx_killCtx_of_active {s : State} {c : Nat} (h : canStart (ctx s c) = false) : (ctx (killCtx c s) c).state = .stopping ∧
    (ctx (killCtx c s) c).killing = true ∧ (ctx (killCtx c s) c).run = false ∧ (ctx (killCtx c s) c).wait = none := by
  simp [killCtx, h]

theorem ptrH_globalPtr (h o : Nat) : ptrH (globalPtr h o) = h % 2 ^ 23 := by
  simp only [ptrH, globalPtr, fieldW, bitsOf, BitVec.toNat_ofNat]; omega

theorem ptrH_lt (p : Word) : ptrH p < 2 ^ 23 := Nat.mod_lt _ (by decide)
theorem ptrO_lt (p : Word) : ptrO p < 2 ^ 40 := Nat.mod_lt _ (by decide)

/-! ### The ends of contexts (R72, R73, R100) -/

theorem ctx_sendVec (part v : Nat) (s : State) (c : Nat) : ctx (sendVec part v s) c = ctx s c := by
  dsimp only [sendVec]
  split
  · unfold sendMsix; split <;> rfl
  · rfl

theorem ctx_endDone {s : State} {c : Nat} (he : (ctx s c).ending = true) (hl : hasLaunches s c = false) (hf : (ctx s c).fails = []) :
    (ctx (endDone c s) c).state = .ended ∧ (ctx (endDone c s) c).run = false ∧ (ctx (endDone c s) c).ending = false := by
  simp only [endDone, he, hl, hf, Bool.not_true, Bool.false_eq_true, ne_eq, not_true_eq_false, or_self, if_false]
  split
  · simp [ctx_sendVec]
  · simp

/-- A stopping context that is in no instruction any more, with no launch and no store of its own under way. -/
def Finished (s : State) (c : Nat) : Prop :=
  (ctx s c).state = .stopping ∧ (ctx s c).killing = false ∧ (ctx s c).ending = false ∧ (ctx s c).wait = none ∧ (ctx s c).woken = false ∧
    hasLaunches s c = false ∧ (ctx s c).stores = []

theorem stopDone_of_finished {s : State} {c : Nat} (h : Finished s c) : stopDone c s = updCtx s c (fun x => { x with state := .idle, mret := false }) := by
  obtain ⟨hstate, hkill, hend, hwait, hwoken, hlaunches, hstores⟩ := h
  simp [stopDone, hstate, hkill, hend, hwait, hwoken, hlaunches, hstores]

/-- A 0 written to INMAC of a context that is not active (R137). -/
theorem writeMacstat_of_inactive {s : State} {c : Nat} {v : Word} (hc : c < 64) (hl : isLost s (c / 8) = false) (hi : canStart (ctx s c) = true)
    (hv : v.getLsbD 0 = false) :
    writeMacstat c fullMask v.toNat s = updCtx s c (fun x => { x with inmac := false, mret := false, mpos := 0, mparams := [] }) := by
  have cleared : bitAt v.toNat 0 = false := (bitAt_toNat v 0).trans hv
  simp [writeMacstat, Nat.not_le.2 hc, hl, hi, bitAt_fullMask, cleared]

/-! ### Host declarations (R69, R74) -/

theorem updPart_congr {s : State} {p : Nat} {f g : Part → Part} (h : f (partOf s p) = g (partOf s p)) : updPart s p f = updPart s p g := by
  simp only [partOf] at h
  simp only [updPart, Tab.upd, h]

/-- The fields of HDCTL beside GO, as a whole write sets them. -/
def setHdctl (p : Nat) (free : Bool) (v : Word) (s : State) : State :=
  updPart s p (fun y => { y with hdop := free, hdowner := BitVec.ofNat 6 (fieldW v 2 6), hddone := y.hddone && !v.getLsbD 9, hdrefused := y.hdrefused && !v.getLsbD 10 })

theorem writeHdctl_full (p op : Nat) (v : Word) (s : State) : writeHdctl p fullMask (withBits v.toNat 1 1 op) s =
    let u := setHdctl p (bitAt op 0) v s
    hdRun p (if v.getLsbD 0 ∧ (partOf u p).hdreq.isNone then updPart u p (fun x => { x with hdreq := some { free := x.hdop, owner := x.hdowner, ptr := x.hdres, desc := x.hddesc } }) else u) := by
  obtain ⟨hgo, howner, hdone, hrefused⟩ := fields_withBits_op v op
  simp [writeHdctl, hgo, howner, hdone, hrefused, bitAt_withBits_op, bitAt_fullMask, setHdctl]

/-- The request that a GO of a partition makes. -/
def hostRequest (s : State) (p : Nat) (free : Bool) (v : Word) : HdReq :=
  { free := free, owner := BitVec.ofNat 6 (fieldW v 2 6), ptr := (partOf s p).hdres, desc := (partOf s p).hddesc }

/-- The state in which it is under way. -/
def hostAsks (p : Nat) (free : Bool) (v : Word) (s : State) : State :=
  updPart (setHdctl p free v s) p (fun y => { y with hdreq := some (hostRequest s p free v) })

theorem ctx_hostAsks (p : Nat) (free : Bool) (v : Word) (s : State) (c : Nat) : ctx (hostAsks p free v s) c = ctx s c := rfl

theorem declared_hostAsks (p : Nat) (free : Bool) (v : Word) (s : State) (part h : Nat) :
    declared (hostAsks p free v s) part h = declared s part h := rfl

theorem freeWaits_hostAsks (p : Nat) (free : Bool) (v : Word) (s : State) (h : Nat) : freeWaits (hostAsks p free v s) h = freeWaits s h := rfl

/-- A GO with no request under way. -/
theorem writeHdctl_go {s : State} {p : Nat} {v : Word} (hgo : v.getLsbD 0 = true) (hn : (partOf s p).hdreq = none) (op : Nat) :
    writeHdctl p fullMask (withBits v.toNat 1 1 op) s = hdRun p (hostAsks p (bitAt op 0) v s) := by
  have idle : (partOf (setHdctl p (bitAt op 0) v s) p).hdreq.isNone = true := by simp [setHdctl, hn]
  rw [writeHdctl_full]
  simp only [hgo, idle, and_self, if_true]
  exact congrArg (hdRun p) (updPart_congr (by simp [setHdctl, hostRequest]))

/-- A write while a request is under way. -/
theorem writeHdctl_busy {s : State} {p : Nat} {r : HdReq} (hr : (partOf s p).hdreq = some r) (v : Word) (op : Nat) :
    writeHdctl p fullMask (withBits v.toNat 1 1 op) s = hdRun p (setHdctl p (bitAt op 0) v s) := by
  have busy : (partOf (setHdctl p (bitAt op 0) v s) p).hdreq.isNone = false := by simp [setHdctl, hr]
  rw [writeHdctl_full]
  simp only [busy, Bool.false_eq_true, and_false, if_false]

/-- A request waits for the earlier aperture writes of its function. -/
theorem hdRun_of_held {s : State} {p : Nat} (hw : (partOf s p).heldW ≠ []) : hdRun p s = s := by
  cases hr : (partOf s p).hdreq with
  | none => exact hdRun_of_none hr
  | some r => simp only [hdRun, hr, hw, ne_eq, not_false_eq_true, true_or, if_true]

/-- Nothing keeps the request of a partition from being performed. -/
def HostActs (s : State) (p : Nat) (q : HdReq) : Prop := (partOf s p).hdreq = some q ∧ (partOf s p).heldW = [] ∧ s.mod.power.state ≠ .m2

theorem hostActs_hostAsks {s : State} {p : Nat} (hw : (partOf s p).heldW = []) (hm : s.mod.power.state ≠ .m2) (free : Bool) (v : Word) :
    HostActs (hostAsks p free v s) p (hostRequest s p free v) := by
  refine ⟨?_, ?_, hm⟩ <;> simp [hostAsks, setHdctl, hw]

theorem hdRun_declares {s s' : State} {p h : Nat} {q : HdReq} (ha : HostActs s p q) (hq : q.free = false) (hp : (ctx s q.owner.toNat).part.toNat = p)
    (hd : declareTensor q.desc p q.owner.toNat (ctx s q.owner.toNat).step s = .ok (s', h)) :
    hdRun p s = hdDone p (updPart s' p (fun x => { x with hdres := globalPtr h 0 })) := by
  obtain ⟨hreq, hw, hm⟩ := ha
  simp [hdRun, hreq, hw, hm, hq, hp, hd]

theorem hdRun_frees {s : State} {p : Nat} {q : HdReq} (ha : HostActs s p q) (hq : q.free = true) (hg : isGlobal q.ptr = true)
    (hd : declared s p (ptrH q.ptr) = true) (hf : freeWaits s (ptrH q.ptr) = false) : hdRun p s = hdDone p (freeTensor (ptrH q.ptr) s) := by
  obtain ⟨hreq, hw, hm⟩ := ha
  simp [hdRun, hreq, hw, hm, hq, hg, hd, hf]

theorem hdRun_free_refused {s : State} {p : Nat} {q : HdReq} (ha : HostActs s p q) (hq : q.free = true) (hg : isGlobal q.ptr = false) :
    hdRun p s = hdRefuse p codeUndeclared s := by
  obtain ⟨hreq, hw, hm⟩ := ha
  simp [hdRun, hreq, hw, hm, hq, hg]

/-! ### Aperture reads (R67, R68) -/

theorem partOf_answerHost (a : HostAnswer) (s : State) (p : Nat) : partOf (answerHost a s) p = partOf s p := rfl

theorem readBlocked_of_resident {s : State} {fn x : Nat} (hr : isResident (trec s (apHandle s fn x)) = true)
    (hb : (hasp s (handleDie (apHandle s fn x))).bounce = []) (n : Nat) : readBlocked s fn x n = false := by
  simp [readBlocked, hr, bounceHeld, hb]

theorem readBlocked_of_invalid {s : State} {fn x n : Nat} (h : apValid s fn x n = false) : readBlocked s fn x n = false := by
  simp [readBlocked, h]

theorem apServe_of_valid {s : State} {fn x n : Nat} (hv : apValid s fn x n = true) (hd : (trec s (apHandle s fn x)).state ≠ .dropped) :
    apServe fn x n s = answerHost (if poisoned s (.glob (apHandle s fn x) (apOff s fn x)) n then .poisoned
      else .data (readLoc s (.glob (apHandle s fn x) (apOff s fn x)) n)) s := by
  simp only [apServe, hv, hd, Bool.not_true, Bool.false_eq_true, or_self, if_false]
  split <;> rfl

/-- A valid read is served the same whatever the registers of the partition hold. -/
theorem apServe_updPart {s : State} {fn x n : Nat} (f : Part → Part) (hv : apValid s fn x n = true)
    (hd : (trec s (apHandle s fn x)).state ≠ .dropped) : apServe fn x n (updPart s fn f) =
      answerHost (if poisoned s (.glob (apHandle s fn x) (apOff s fn x)) n then .poisoned
        else .data (readLoc s (.glob (apHandle s fn x) (apOff s fn x)) n)) (updPart s fn f) := by
  rw [apServe_of_valid (s := updPart s fn f) hv hd, poisoned_updPart, readLoc_updPart]
  rfl

theorem apServe_of_invalid {s : State} {fn x n : Nat} (hv : apValid s fn x n = false) : apServe fn x n s = answerHost .ur s := by
  simp [apServe, hv]

theorem apRead_of_free {s : State} {fn x n : Nat} (hw : (partOf s fn).heldW = []) (hb : readBlocked s fn x n = false) :
    apRead fn x n s = apServe fn x n s := by
  simp [apRead, hw, hb]

/-- A read that something keeps back is held behind the writes that the function holds. -/
theorem apRead_of_kept {s : State} {fn x n : Nat} (h : (partOf s fn).heldW ≠ [] ∨ readBlocked s fn x n = true) :
    apRead fn x n s = answerHost .held (askRead fn x n
      (updPart s fn (fun p => { p with heldR := p.heldR ++ [(x, n, (partOf s fn).heldW.length)] }))) := by
  refine if_pos (h.imp_left (fun hw => ?_))
  simpa using hw

theorem partOf_askRead (fn x n : Nat) (s : State) (p : Nat) : partOf (askRead fn x n s) p = partOf s p := by
  unfold askRead
  split
  · rw [partOf, mod_requestRestore]; rfl
  · rfl

/-- The only held read of a function, with nothing before it. -/
theorem apServeHeld_of_free {s : State} {fn x n : Nat} (hr : (partOf s fn).heldR = [(x, n, 0)]) (hb : readBlocked s fn x n = false) :
    apServeHeld fn 0 s = apServe fn x n (updPart s fn (fun p => { p with heldR := p.heldR.eraseIdx 0 })) := by
  simp [apServeHeld, hr, hb]

/-- The only held read is served once nothing keeps it back. -/
theorem happen_servedRead {s : State} {fn x n : Nat} (hc : clocksRun s = true) (hr : (partOf s fn).heldR = [(x, n, 0)])
    (hb : readBlocked s fn x n = false) (hv : apValid s fn x n = true) (hd : (trec s (apHandle s fn x)).state ≠ .dropped) :
    happen (.servedRead fn 0) s = answerHost (if poisoned s (.glob (apHandle s fn x) (apOff s fn x)) n then .poisoned
      else .data (readLoc s (.glob (apHandle s fn x) (apOff s fn x)) n)) (updPart s fn (fun p => { p with heldR := p.heldR.eraseIdx 0 })) :=
  (if_pos hc).trans ((apServeHeld_of_free hr hb).trans (apServe_updPart _ hv hd))

/-! ### Aperture writes (R67, R68) -/

theorem apWrite_of_ready {s : State} {fn x : Nat} {b : List Byte} (hw : (partOf s fn).heldW = []) (hv : apValid s fn x b.length = true)
    (hs : (slotReg s (apSlot fn x)).getLsbD 24 = true) (hd : (trec s (apHandle s fn x)).state ≠ .dropped)
    (hr : apReady s (apHandle s fn x) (apOff s fn x) b.length = true) :
    apWrite fn x b s = apPut (apHandle s fn x) (apOff s fn x) b s := by
  simp [apWrite, hw, hv, bitAt_toNat, hs, hd, hr]

theorem apWrite_of_invalid {s : State} {fn x : Nat} {b : List Byte} (hv : apValid s fn x b.length = false) :
    apWrite fn x b s = apErr (apSlot fn x / 8) s := by
  simp [apWrite, hv]

/-- A written tensor is no longer what its recipe makes. -/
theorem rvalid_apPut (h o : Nat) (b : List Byte) (s : State) : (trec (apPut h o b s) h).rvalid = false := by simp [apPut]

/-- The oldest held write of a function goes out, and each held read waits for one less. -/
def popHeldW (p : Nat) (s : State) : State :=
  updPart s p (fun x => { x with heldW := x.heldW.drop 1, heldR := x.heldR.map (fun r => (r.1, r.2.1, r.2.2 - 1)) })

/-- The oldest held write performs, and a request of HDCTL behind it goes on. -/
theorem apHeld_of_ready {s : State} {p h o : Nat} {b : List Byte} {more : List (Nat × Nat × List Byte)} (hw : (partOf s p).heldW = (h, o, b) :: more)
    (hs : (trec s h).state = .hbm) (hf : (trec s h).freeing = false) (hg : dieGone s (handleDie h) = false) (hr : apReady s h o b.length = true) :
    apHeld p s = hdRun p (apPut h o b (popHeldW p s)) := by
  simp [apHeld, hw, hs, isResident, hf, hg, hr, popHeldW]

/-! ### The obligation -/

/-- Settles O50: contexts by the write of CTXCTL and the rule of each end, tensors by the request under way, and the aperture by what
keeps an access back. -/
theorem hostContextsAndTensors : Obligations.HostContextsAndTensors := by
  unfold Obligations.HostContextsAndTensors
  intro s s' c p fn x n h v b k idle part d a o P go
  refine ⟨fun hc hl => ?control, fun hc => ?ends, ?declares, ?frees, ?undeclared, ?busy, ?read, ?kept, ?served, ?unread, ?write, ?unwritten, ?performs⟩
  case control =>
    have startable : idle → canStart k = true := (canStart_iff k).2
    refine ⟨?run, ?refused, ?stop, ?kill, ?macstat⟩
    case run =>
      intro hi hg h8 hp
      refine makes_of (execCtxctlRun_of_idle hc hl (startable hi) v) ?_
      obtain ⟨-, hentry, hpart, hprio⟩ := ctx_setCtxctl c (withBits v.toNat 0 2 1) s
      obtain ⟨hpartBits, hprioBits⟩ := fields_withBits_run v.toNat 1
      rw [hpartBits] at hpart
      rw [hprioBits] at hprio
      rw [ctx_startCtx_of_code (by rw [hentry]; exact hg) (by rw [hentry]; exact h8) (by rw [hpart]; exact hp), hentry, hpart, hprio]
      refine ⟨rfl, rfl, ?_, ?_, rfl, rfl, rfl, rfl⟩
      · exact Nat.mod_eq_of_lt (Nat.lt_trans (ptrO_lt _) (by decide))
      · exact (ptrH_globalPtr _ _).trans (Nat.mod_eq_of_lt (ptrH_lt _))
    case refused =>
      intro hi hbad
      obtain ⟨hstate, hentry, -⟩ := ctx_setCtxctl c (withBits v.toNat 0 2 1) s
      refine makes_of (execCtxctlRun_of_idle hc hl (startable hi) v) ?_
      rw [ctx_startCtx_refused (by rw [hentry]; exact hbad)]
      exact ⟨hstate, rfl⟩
    case stop =>
      intro hrun
      obtain ⟨hstate, -⟩ := ctx_setCtxctl c (withBits v.toNat 0 2 0) s
      exact makes_of (execCtxctlStop_of_live hc hl v) (ctx_stopCtx_of_running (hstate.trans hrun))
    case kill =>
      intro hi
      have active : canStart k = false := Bool.eq_false_iff.2 (fun h => hi ((canStart_iff k).1 h))
      exact makes_of (execCtxctlKill_of_active hc hl active v) (ctx_killCtx_of_active ((canStart_setCtxctl c _ s).trans active))
    case macstat =>
      intro hi hv
      refine makes_of (congrArg Host.Outcome.next (writeMacstat_of_inactive hc hl (startable hi) hv)) ?_
      simp
  case ends =>
    refine ⟨fun hs hk hl hstores hw hwk he => ?stopped, fun hk => ?killed, fun he hl hf => ?ended⟩
    case stopped =>
      refine makes_of (congrArg Host.Outcome.next ((if_pos (decide_eq_true hc)).trans (stopDone_of_finished ⟨hs, hk, he, hw, hwk, hl, hstores⟩))) ?_
      simp
    case killed =>
      refine makes_of (congrArg Host.Outcome.next (if_pos ⟨decide_eq_true hc, hk⟩)) ?_
      simp
    case ended => exact makes_of (congrArg Host.Outcome.next (if_pos (decide_eq_true hc))) (ctx_endDone he hl hf)
  case declares =>
    rintro hp ⟨hgo, hreq, hw, hm⟩ hpart hd
    have owner := toNat_ofNat_fieldW v 2 6
    have runs := hdRun_declares (hostActs_hostAsks hw hm false v) rfl (by simp only [hostRequest, owner, ctx_hostAsks]; exact hpart)
      (by simp only [hostRequest, owner, ctx_hostAsks]; exact hd)
    refine makes_of (congrArg Host.Outcome.next ((if_pos hp).trans ((writeHdctl_go hgo hreq 0).trans runs))) ?_
    simp [hdDone]
  case frees =>
    rintro hp ⟨hgo, hreq, hw, hm⟩ hg hd hf
    have runs := hdRun_frees (hostActs_hostAsks hw hm true v) rfl hg ((declared_hostAsks ..).trans hd) ((freeWaits_hostAsks ..).trans hf)
    refine makes_of (congrArg Host.Outcome.next ((if_pos hp).trans ((writeHdctl_go hgo hreq 1).trans runs))) ?_
    simp [hdDone]
  case undeclared =>
    rintro hp ⟨hgo, hreq, hw, hm⟩ hg
    have runs := hdRun_free_refused (hostActs_hostAsks hw hm true v) rfl hg
    refine makes_of (congrArg Host.Outcome.next ((if_pos hp).trans ((writeHdctl_go hgo hreq 1).trans runs))) ?_
    simp [hdRefuse]
  case busy =>
    intro hp hgo r hr hw
    have waits : hdRun p (setHdctl p false v s) = setHdctl p false v s := hdRun_of_held (by simpa [setHdctl] using hw)
    refine makes_of (congrArg Host.Outcome.next ((if_pos hp).trans ((writeHdctl_busy hr v 0).trans waits))) ?_
    simpa [setHdctl] using hr
  case read =>
    intro hw hv hr hd hb
    exact makes_of (congrArg Host.Outcome.next ((apRead_of_free hw (readBlocked_of_resident hr hb n)).trans (apServe_of_valid hv hd))) rfl
  case kept =>
    intro hk
    refine makes_of (congrArg Host.Outcome.next (apRead_of_kept hk)) ⟨rfl, ?_⟩
    rw [partOf_answerHost, partOf_askRead, partOf_updPart, if_pos rfl]
  case served =>
    intro hr hb hv hd hc
    rw [happen_servedRead hc hr hb hv hd]
    refine ⟨?_, rfl⟩
    rw [partOf_answerHost, partOf_updPart, if_pos rfl, show (partOf s fn).heldR = _ from hr]
    rfl
  case unread =>
    intro hw hv
    exact makes_of (congrArg Host.Outcome.next ((apRead_of_free hw (readBlocked_of_invalid hv)).trans (apServe_of_invalid hv))) rfl
  case write => exact fun hw hv hs hd hr => congrArg Host.Outcome.next (apWrite_of_ready hw hv hs hd hr)
  case unwritten =>
    intro hv
    refine makes_of (congrArg Host.Outcome.next (apWrite_of_invalid hv)) ⟨?_, rfl⟩
    simp [apErr]
  case performs =>
    intro hp hw hreq hs hr hf hg hready
    have popped : partOf (apPut h n b (popHeldW p s)) p = partOf (popHeldW p s) p := partOf_apPut ..
    have idle : (partOf (apPut h n b (popHeldW p s)) p).hdreq = none := by rw [popped]; simpa [popHeldW] using hreq
    refine makes_of (congrArg Host.Outcome.next ((if_pos hp).trans ((apHeld_of_ready hw hs hf hg hready).trans (hdRun_of_none idle)))) ⟨?_, rvalid_apPut ..⟩
    rw [popped]
    simp [popHeldW, show (partOf s p).heldW = _ from hw]

end Sys2Proof.Machine
end

section
/-! The words of stream instructions, read back (R91-R94). -/

namespace Sys2Proof.Machine

open Sys2Proof.Safety

/-! ### Words put together field by field -/

/-- The word with field `f` in its lowest bits and `r` above it. -/
def onto {m : Nat} (f : BitVec m) (r : Nat) : Nat := r * 2 ^ m + f.toNat

/-- A run of bits is its low part and its high part. -/
theorem num_add (w lo a b : Nat) : num w lo (a + b) = num w lo a + 2 ^ a * num w (lo + a) b := by
  simp only [num, Nat.pow_add, Nat.mod_mul, Nat.div_div_eq_div_mul]

/-- A field's top bits, where the whole field is known. -/
theorem num_top (w lo a b : Nat) : num w (lo + a) b = num w lo (a + b) / 2 ^ a := by
  simp only [num, Nat.pow_add, Nat.mod_mul_right_div_self, Nat.div_div_eq_div_mul]

theorem num_of_lt {x n : Nat} (h : x < 2 ^ n) : num x 0 n = x := by rw [num, pow_zero, Nat.div_one, Nat.mod_eq_of_lt h]

theorem num_zero (lo n : Nat) : num 0 lo n = 0 := by simp [num]

section

variable {m : Nat} (f : BitVec m) (r : Nat) {lo n : Nat}

theorem onto_div : onto f r / 2 ^ m = r := by
  rw [onto, Nat.mul_comm, Nat.mul_add_div (Nat.two_pow_pos m), Nat.div_eq_of_lt f.isLt, Nat.add_zero]

theorem onto_mod : onto f r % 2 ^ m = f.toNat := by rw [onto, Nat.mul_comm, Nat.mul_add_mod, Nat.mod_eq_of_lt f.isLt]

theorem fld_onto_above (h : m ≤ lo) : fld (onto f r) lo n = fld r (lo - m) n := by
  obtain ⟨k, rfl⟩ := Nat.exists_eq_add_of_le h
  rw [fld, fld, Nat.pow_add, ← Nat.div_div_eq_div_mul, onto_div, Nat.add_sub_cancel_left]

theorem fld_onto_self : fld (onto f r) 0 m = f := by
  rw [fld, pow_zero, Nat.div_one, ← BitVec.toNat_inj, BitVec.toNat_ofNat, onto_mod]

theorem num_onto_above (h : m ≤ lo) : num (onto f r) lo n = num r (lo - m) n := by
  obtain ⟨k, rfl⟩ := Nat.exists_eq_add_of_le h
  rw [num, num, Nat.pow_add, ← Nat.div_div_eq_div_mul, onto_div, Nat.add_sub_cancel_left]

theorem num_onto_within (h : lo + n ≤ m) : num (onto f r) lo n = num f.toNat lo n := by
  have low (w : Nat) : num w lo n = w % 2 ^ m % 2 ^ (lo + n) / 2 ^ lo := by
    rw [Nat.mod_mod_of_dvd _ (Nat.pow_dvd_pow 2 h), num, Nat.pow_add, Nat.mod_mul_right_div_self]
  rw [low, low, onto_mod, Nat.mod_eq_of_lt f.isLt]

theorem num_onto_across (h : lo < m) (h' : m < lo + n) :
    num (onto f r) lo n = num f.toNat lo (m - lo) + 2 ^ (m - lo) * num r 0 (n - (m - lo)) := by
  have parts := num_add (onto f r) lo (m - lo) (n - (m - lo))
  have above : num (onto f r) (lo + (m - lo)) (n - (m - lo)) = num r 0 (n - (m - lo)) := by
    rw [num_onto_above f r (by omega), show lo + (m - lo) - m = 0 by omega]
  rwa [num_onto_within f r (show lo + (m - lo) ≤ m by omega), above, show m - lo + (n - (m - lo)) = n by omega] at parts

end

/-! ### Instructions of one word -/

/-- The words of an instruction read back: they fit, the primary word counts the others, and they decode to it. -/
def ReadsBack (i : Instr) : Prop := ∀ w xs, i.wf = true → encodeStream i = some (w :: xs) →
  w < 2 ^ 64 ∧ (∀ x ∈ xs, x < 2 ^ 64) ∧ num w 56 2 = xs.length ∧ decodeStream w xs = .ok i

theorem withOperands_of_wf {i : Instr} (h : i.wf = true) : withOperands (.ok i) = .ok i := if_pos h

/-- A word that is no hint, with the extension words its opcode takes, is decoded by its row of the map (R92, R93). -/
theorem decodeStream_of_row {i : Instr} {w : Nat} {xs : List Nat} (hwf : i.wf = true) (hop : num w 58 6 / 8 ≠ 6)
    (hx : num w 56 2 = extWords (num w 58 6)) (hl : num w 56 2 = xs.length) (row : rawStream w xs = .ok i) : decodeStream w xs = .ok i := by
  have hint : ¬ isStreamHint w = true := by
    rw [isStreamHint, num_top w 58 3 3]
    exact fun h => hop (eq_of_beq h)
  rw [decodeStream, if_neg hint, if_pos hx, hl, List.take_length, row, withOperands_of_wf hwf]

/-- An instruction of one word reads back. `layout` is its word with the fields that R93 gives it, from bit 0 up; by default each
condition on it is computed. -/
theorem readsBack_of_layout {i : Instr} (layout : Nat)
    (value : encodeStream i = some [layout] := by
      refine congrArg (fun w => some [w]) (?_ : _ = _); simp only [put, onto, BitVec.toNat_ofNat]; omega)
    (fits : layout < 2 ^ 64 := by simp only [onto, BitVec.toNat_ofNat]; omega)
    (head : num layout 58 6 / 8 ≠ 6 ∧ extWords (num layout 58 6) = 0 ∧ num layout 56 2 = 0 := by
      simp [num_onto_above, num_onto_within, num_of_lt, num_zero, extWords])
    (row : rawStream layout [] = .ok i := by
      rw [rawStream.eq_def]; simp [num_onto_above, num_onto_within, num_onto_across, num_of_lt, num_zero, fld_onto_above, fld_onto_self]) :
    ReadsBack i := by
  intro w xs hwf h
  obtain ⟨rfl, rfl⟩ := List.cons.inj (Option.some.inj (h.symm.trans value))
  obtain ⟨hop, hx, hl⟩ := head
  exact ⟨fits, nofun, hl, decodeStream_of_row hwf hop (hl.trans hx.symm) hl row⟩

theorem condOf_code (cc : BrCond) : condOf cc.code = some cc := by cases cc <;> rfl

theorem code_lt (cc : BrCond) : cc.code < 8 := by cases cc <;> decide

/-- BRC carries its condition in the flags (R99). -/
theorem readsBack_brc (cc : BrCond) (a b : BitVec 5) (imm : BitVec 32) : ReadsBack (.brc cc a b imm) := by
  have hcode := code_lt cc
  refine readsBack_of_layout (onto imm (onto (BitVec.ofNat 3 cc.code) (onto 0#6 (onto b (onto a (onto 0#7 2)))))) (row := ?_)
  rw [rawStream.eq_def]
  simp [num_onto_above, num_onto_within, num_of_lt, fld_onto_above, fld_onto_self, Nat.mod_eq_of_lt hcode, condOf_code, hcode]

/-- A register operation carries its function code in EV (R101). -/
theorem readsBack_register {i : Instr} (f : BitVec 6) (d a b : BitVec 5)
    (value : encodeStream i = some [onto 0#35 (onto f (onto b (onto a (onto d (onto 0#2 8)))))] := by
      refine congrArg (fun w => some [w]) (?_ : _ = _); simp only [put, onto, BitVec.toNat_ofNat]; omega)
    (row : rawStream (onto 0#35 (onto f (onto b (onto a (onto d (onto 0#2 8)))))) [] = .ok i := by
      rw [rawStream.eq_def]; simp [num_onto_above, num_onto_within, num_of_lt, fld_onto_above, fld_onto_self]) : ReadsBack i :=
  readsBack_of_layout _ (value := value) (row := row)

/-- The register operations, in the order of their function codes (R101). -/
theorem readsBack_registers (d a b : BitVec 5) :
    ∀ i ∈ [Instr.streamAdd d a b, .streamSub d a b, .streamMul d a b, .streamMulhu d a b, .streamAnd d a b, .streamOr d a b, .streamXor d a b, .streamShl d a b,
      .streamShr d a b, .streamSar d a b, .streamSlt d a b, .streamSltu d a b, .streamSeq d a b, .streamMin d a b, .streamMax d a b, .streamMinu d a b,
      .streamMaxu d a b], ReadsBack i := by
  simp only [List.forall_mem_cons]
  exact ⟨readsBack_register 0#6 d a b, readsBack_register 1#6 d a b, readsBack_register 2#6 d a b, readsBack_register 3#6 d a b,
    readsBack_register 4#6 d a b, readsBack_register 5#6 d a b, readsBack_register 6#6 d a b, readsBack_register 7#6 d a b,
    readsBack_register 8#6 d a b, readsBack_register 9#6 d a b, readsBack_register 10#6 d a b, readsBack_register 11#6 d a b,
    readsBack_register 12#6 d a b, readsBack_register 13#6 d a b, readsBack_register 14#6 d a b, readsBack_register 15#6 d a b,
    readsBack_register 16#6 d a b, List.forall_mem_nil _⟩

/-- An immediate operation does too, and its second operand is the immediate (R101). -/
theorem readsBack_immediate {i : Instr} (f : BitVec 6) (d a : BitVec 5) (imm : BitVec 32)
    (value : encodeStream i = some [onto imm (onto 0#3 (onto f (onto 0#5 (onto a (onto d (onto 0#2 9))))))] := by
      refine congrArg (fun w => some [w]) (?_ : _ = _); simp only [put, onto, BitVec.toNat_ofNat]; omega)
    (row : rawStream (onto imm (onto 0#3 (onto f (onto 0#5 (onto a (onto d (onto 0#2 9))))))) [] = .ok i := by
      rw [rawStream.eq_def]; simp [num_onto_above, num_onto_within, num_onto_across, num_of_lt, num_zero, fld_onto_above, fld_onto_self]) : ReadsBack i :=
  readsBack_of_layout _ (value := value) (row := row)

/-- A shift by an immediate has the amount in its low six bits (R101). -/
theorem readsBack_shift {i : Instr} (f : BitVec 6) (d a : BitVec 5) (sh : BitVec 6)
    (value : encodeStream i = some [onto sh (onto 0#29 (onto f (onto 0#5 (onto a (onto d (onto 0#2 9))))))] := by
      refine congrArg (fun w => some [w]) (?_ : _ = _); simp only [put, onto, BitVec.toNat_ofNat]; omega)
    (row : rawStream (onto sh (onto 0#29 (onto f (onto 0#5 (onto a (onto d (onto 0#2 9))))))) [] = .ok i := by
      rw [rawStream.eq_def]; simp [num_onto_above, num_onto_within, num_onto_across, num_of_lt, num_zero, fld_onto_above, fld_onto_self]) : ReadsBack i :=
  readsBack_of_layout _ (value := value) (row := row)

/-- The immediate operations, in the order of their function codes (R101). -/
theorem readsBack_immediates (d a : BitVec 5) (imm : BitVec 32) (sh : BitVec 6) :
    ∀ i ∈ [Instr.streamAddi d a imm, .streamSubi d a imm, .streamMuli d a imm, .streamMulhui d a imm, .streamAndi d a imm, .streamOri d a imm, .streamXori d a imm,
      .streamShli d a sh, .streamShri d a sh, .streamSari d a sh, .streamSlti d a imm, .streamSltui d a imm, .streamSeqi d a imm, .streamMini d a imm,
      .streamMaxi d a imm, .streamMinui d a imm, .streamMaxui d a imm], ReadsBack i := by
  simp only [List.forall_mem_cons]
  exact ⟨readsBack_immediate 0#6 d a imm, readsBack_immediate 1#6 d a imm, readsBack_immediate 2#6 d a imm, readsBack_immediate 3#6 d a imm,
    readsBack_immediate 4#6 d a imm, readsBack_immediate 5#6 d a imm, readsBack_immediate 6#6 d a imm, readsBack_shift 7#6 d a sh,
    readsBack_shift 8#6 d a sh, readsBack_shift 9#6 d a sh, readsBack_immediate 10#6 d a imm, readsBack_immediate 11#6 d a imm,
    readsBack_immediate 12#6 d a imm, readsBack_immediate 13#6 d a imm, readsBack_immediate 14#6 d a imm, readsBack_immediate 15#6 d a imm,
    readsBack_immediate 16#6 d a imm, List.forall_mem_nil _⟩

/-! ### Hints and launches (R94, R114, R116) -/

/-- The opcodes from 48 to 55 are the hints. -/
theorem rawStream_hint {w : Nat} (h : num w 61 3 = 6) (xs : List Nat) : rawStream w xs = .ok (.streamHint (fld w 58 3) (fld w 56 2) (fld w 0 56)) := by
  have hop : num w 58 6 = num w 58 3 + 2 ^ 3 * num w 61 3 := num_add w 58 3 3
  have hlt : num w 58 3 < 8 := Nat.mod_lt _ (by decide)
  rw [h] at hop
  generalize num w 58 3 = k at hop hlt
  interval_cases k <;> simp only [rawStream, hop, Nat.reducePow, Nat.reduceMul, Nat.reduceAdd]

theorem readsBack_streamHint (k : BitVec 3) (xn : BitVec 2) (rest : BitVec 56) : ReadsBack (.streamHint k xn rest) := by
  intro w xs hwf h
  let layout := onto rest (onto xn (onto k 6))
  have value : encodeStream (.streamHint k xn rest) = some (layout :: List.replicate xn.toNat 0) := by
    refine congrArg (fun w => some (w :: List.replicate xn.toNat 0)) (?_ : _ = _)
    simp only [put, layout, onto]
    omega
  obtain ⟨rfl, rfl⟩ := List.cons.inj (Option.some.inj (h.symm.trans value))
  have hint : num layout 61 3 = 6 := by simp [layout, num_onto_above, num_of_lt]
  have count : num layout 56 2 = xn.toNat := by simp [layout, num_onto_above, num_onto_within, num_of_lt xn.isLt]
  refine ⟨by simp only [layout, onto]; omega, fun x hx => by simp [List.eq_of_mem_replicate hx], by rw [count, List.length_replicate], ?_⟩
  rw [decodeStream, if_pos (show isStreamHint layout = true from beq_iff_eq.2 hint), rawStream_hint hint, withOperands_of_wf rfl]
  simp [layout, fld_onto_above, fld_onto_self]

/-- An input entry, its reserved bits included, in front of what lies above it. -/
def inOnto (x : LaunchIn) (r : Nat) : Nat := onto x.evt (onto x.valid (onto 0#1 (onto x.qt (onto 0#3 r))))

theorem insWord_eq (x : LaunchIns) : insWord x = inOnto x.i0 (inOnto x.i1 (inOnto x.i2 (inOnto x.i3 0))) := by
  simp only [insWord, inWord, put, inOnto, onto, BitVec.toNat_ofNat]
  omega

theorem insWord_lt (x : LaunchIns) : insWord x < 2 ^ 64 := by
  simp only [insWord_eq, inOnto, onto, BitVec.toNat_ofNat]
  omega

theorem insOf_insWord (x : LaunchIns) : insOf (insWord x) = x := by
  simp [insWord_eq, insOf, inAt, inOnto, fld_onto_above, fld_onto_self]

theorem insClear_insWord (x : LaunchIns) : insClear (insWord x) = true := by
  simp [insWord_eq, insClear, inOnto, num_onto_above, num_onto_within, num_zero]

theorem predWord_eq (p : PredFields) : predWord p = onto p.site (onto p.mode (onto p.dim (onto p.pct (onto p.slot (onto p.fixv 0))))) := by
  simp only [predWord, put, onto]
  omega

theorem predWord_lt (p : PredFields) : predWord p < 2 ^ 64 := by
  simp only [predWord_eq, onto]
  omega

theorem predOf_predWord (p : PredFields) : predOf (predWord p) = p := by simp [predWord_eq, predOf, fld_onto_above, fld_onto_self]

theorem predWord_clear (p : PredFields) : num (predWord p) 46 18 = 0 := by simp [predWord_eq, num_onto_above, num_zero]

theorem readsBack_launch (a : BitVec 5) (ev : BitVec 6) (sig : BitVec 1) (ins : LaunchIns) : ReadsBack (.launch a ev sig ins) := by
  intro w xs hwf h
  let layout := onto 0#32 (onto sig (onto 0#2 (onto ev (onto 0#5 (onto a (onto 0#5 (onto 1#2 24)))))))
  have value : encodeStream (.launch a ev sig ins) = some [layout, insWord ins] := by
    refine congrArg (fun w => some [w, insWord ins]) (?_ : _ = _)
    simp only [put, layout, onto, BitVec.toNat_ofNat]
    omega
  obtain ⟨rfl, rfl⟩ := List.cons.inj (Option.some.inj (h.symm.trans value))
  have op : num layout 58 6 = 24 := by simp [layout, num_onto_above, num_of_lt]
  have xn : num layout 56 2 = 1 := by simp [layout, num_onto_above, num_onto_within, num_of_lt]
  refine ⟨by simp only [layout, onto, BitVec.toNat_ofNat]; omega, by simpa using insWord_lt ins, xn,
    decodeStream_of_row rfl (by simp [op]) (by simp [op, xn, extWords]) xn ?_⟩
  rw [rawStream.eq_def, op]
  simp [layout, insClear_insWord, insOf_insWord, num_onto_above, num_onto_within, num_zero, fld_onto_above, fld_onto_self]

theorem readsBack_launchp (a b : BitVec 5) (ev : BitVec 6) (sig : BitVec 1) (ins : LaunchIns) (pred : PredFields) :
    ReadsBack (.launchp a b ev sig ins pred) := by
  intro w xs hwf h
  let layout := onto 0#32 (onto sig (onto 0#2 (onto ev (onto b (onto a (onto 0#5 (onto 2#2 25)))))))
  have value : encodeStream (.launchp a b ev sig ins pred) = some [layout, insWord ins, predWord pred] := by
    refine congrArg (fun w => some [w, insWord ins, predWord pred]) (?_ : _ = _)
    simp only [put, layout, onto, BitVec.toNat_ofNat]
    omega
  obtain ⟨rfl, rfl⟩ := List.cons.inj (Option.some.inj (h.symm.trans value))
  have op : num layout 58 6 = 25 := by simp [layout, num_onto_above, num_of_lt]
  have xn : num layout 56 2 = 2 := by simp [layout, num_onto_above, num_onto_within, num_of_lt]
  refine ⟨by simp only [layout, onto, BitVec.toNat_ofNat]; omega, by simpa using ⟨insWord_lt ins, predWord_lt pred⟩, xn,
    decodeStream_of_row hwf (by simp [op]) (by simp [op, xn, extWords]) xn ?_⟩
  rw [rawStream.eq_def, op]
  simp [layout, insClear_insWord, insOf_insWord, predWord_clear, predOf_predWord, num_onto_above, num_onto_within, num_zero, fld_onto_above,
    fld_onto_self]

/-! ### The obligation -/

/-- Settles O4: each instruction's word is the row of fields that R93 gives it. -/
theorem streamEncodingsRoundTrip : Obligations.StreamEncodingsRoundTrip := by
  unfold Obligations.StreamEncodingsRoundTrip
  intro i w xs hwf h
  suffices back : ReadsBack i from back w xs hwf h
  cases i
  case streamBr imm => exact readsBack_of_layout (onto imm (onto 0#26 1))
  case streamCall d imm => exact readsBack_of_layout (onto imm (onto 0#19 (onto d (onto 0#2 3))))
  case streamRet a => exact readsBack_of_layout (onto 0#46 (onto a (onto 0#7 4)))
  case streamEnd => exact readsBack_of_layout (onto 0#58 5)
  case seth imm => exact readsBack_of_layout (onto imm (onto 0#26 6))
  case sethRemove => exact readsBack_of_layout (onto 0#32 (onto 1#3 (onto 0#23 6)))
  case streamEret => exact readsBack_of_layout (onto 0#58 7)
  case streamEretSkip => exact readsBack_of_layout (onto 0#32 (onto 1#3 (onto 0#23 7)))
  case streamMovi d imm => exact readsBack_of_layout (onto imm (onto 0#19 (onto d (onto 0#2 10))))
  case streamMovhi d imm => exact readsBack_of_layout (onto imm (onto 0#19 (onto d (onto 0#2 11))))
  case srd d idx => exact readsBack_of_layout (onto 0#35 (onto idx (onto 0#10 (onto d (onto 0#2 12)))))
  case nop => exact readsBack_of_layout (onto 0#58 13)
  case brc cc a b imm => exact readsBack_brc cc a b imm
  case streamAdd d a b | streamSub d a b | streamMul d a b | streamMulhu d a b | streamAnd d a b | streamOr d a b | streamXor d a b | streamShl d a b |
      streamShr d a b | streamSar d a b | streamSlt d a b | streamSltu d a b | streamSeq d a b | streamMin d a b | streamMax d a b | streamMinu d a b |
      streamMaxu d a b =>
    exact readsBack_registers d a b _ (by simp)
  case streamAddi d a imm | streamSubi d a imm | streamMuli d a imm | streamMulhui d a imm | streamAndi d a imm | streamOri d a imm | streamXori d a imm |
      streamSlti d a imm | streamSltui d a imm | streamSeqi d a imm | streamMini d a imm |
      streamMaxi d a imm | streamMinui d a imm | streamMaxui d a imm =>
    exact readsBack_immediates d a imm 0 _ (by simp)
  case streamShli d a sh | streamShri d a sh | streamSari d a sh => exact readsBack_immediates d a 0 sh _ (by simp)
  case ldq d a sz sgn imm => exact readsBack_of_layout (onto imm (onto sz (onto sgn (onto 0#11 (onto a (onto d (onto 0#2 16)))))))
  case stq a b sz imm => exact readsBack_of_layout (onto imm (onto sz (onto 0#7 (onto b (onto a (onto 0#7 17))))))
  case fence scope sv md => exact readsBack_of_layout (onto 0#32 (onto sv (onto md (onto 0#1 (onto scope (onto 0#20 18))))))
  case waitmb d a b => exact readsBack_of_layout (onto 0#41 (onto b (onto a (onto d (onto 0#2 19)))))
  case irq a imm => exact readsBack_of_layout (onto imm (onto 0#14 (onto a (onto 0#7 20))))
  case coll a ev sig => exact readsBack_of_layout (onto 0#32 (onto sig (onto 0#2 (onto ev (onto 0#5 (onto a (onto 0#7 29)))))))
  case deadline a pct => exact readsBack_of_layout (onto pct (onto 0#38 (onto a (onto 0#7 30))))
  case prio cl => exact readsBack_of_layout (onto cl (onto 0#56 31))
  case waite a ev imm => exact readsBack_of_layout (onto imm (onto 0#3 (onto ev (onto 0#5 (onto a (onto 0#7 26))))))
  case sige d a ev n => exact readsBack_of_layout (onto n (onto 0#16 (onto 0#3 (onto ev (onto 0#5 (onto a (onto d (onto 0#2 27))))))))
  case sigeRemote a ev n => exact readsBack_of_layout (onto n (onto 0#16 (onto 1#3 (onto ev (onto 0#5 (onto a (onto 0#7 27)))))))
  case shpub a slot => exact readsBack_of_layout (onto slot (onto 0#22 (onto 0#14 (onto a (onto 0#7 28)))))
  case shpubClr slot => exact readsBack_of_layout (onto slot (onto 0#22 (onto 1#3 (onto 0#23 28))))
  case tdecl d a => exact readsBack_of_layout (onto 0#46 (onto a (onto d (onto 0#2 32))))
  case tfree a => exact readsBack_of_layout (onto 0#46 (onto a (onto 0#7 33)))
  case tpin a b llc => exact readsBack_of_layout (onto 0#32 (onto llc (onto 0#8 (onto b (onto a (onto 0#7 34))))))
  case tunpin a b => exact readsBack_of_layout (onto 0#41 (onto b (onto a (onto 0#7 35))))
  case trecOpen a mask => exact readsBack_of_layout (onto 0#1 (onto mask (onto 0#14 (onto a (onto 0#7 36)))))
  case trecClose => exact readsBack_of_layout (onto 0#58 37)
  case tuse a b => exact readsBack_of_layout (onto 0#41 (onto b (onto a (onto 0#7 38))))
  case tprot a flags => exact readsBack_of_layout (onto flags (onto 0#42 (onto a (onto 0#7 39))))
  case streamMacro m n a => exact readsBack_of_layout (onto m (onto n (onto 0#34 (onto a (onto 0#7 40)))))
  case mload a => exact readsBack_of_layout (onto 0#46 (onto a (onto 0#7 41)))
  case streamHint k xn rest => exact readsBack_streamHint k xn rest
  case launch a ev sig ins => exact readsBack_launch a ev sig ins
  case launchp a b ev sig ins pred => exact readsBack_launchp a b ev sig ins pred
  all_goals exact fun w xs _ h => nomatch h

end Sys2Proof.Machine
end

section
/-! How a stream instruction runs: where control goes behind it, how it waits and how it faults (R90-R98), and the transfers and the
arithmetic of stream code (R99-R102). -/

namespace Sys2Proof.Machine

open Sys2Proof.Safety

/-! ### Contexts and their registers -/

/-- Two changes of a context are one where they agree on the context as it stands. -/
theorem updCtx_congr {s : State} {c : Nat} {f g : Ctx → Ctx} (h : f (ctx s c) = g (ctx s c)) : updCtx s c f = updCtx s c g := by
  unfold ctx at h
  simp only [updCtx, Tab.upd, h]

theorem ctx_updCtx_same (s : State) (c : Nat) (f : Ctx → Ctx) : ctx (updCtx s c f) c = f (ctx s c) := (ctx_updCtx s c f c).trans (if_pos rfl)

theorem ctx_updCtx_other (s : State) {c n : Nat} (f : Ctx → Ctx) (h : n ≠ c) : ctx (updCtx s c f) n = ctx s n := (ctx_updCtx s c f n).trans (if_neg h)

/-- A register reads what was last written to it; q0 reads zero (R89). -/
theorem qReg_setQ (c d n : Nat) (v : Word) (s : State) : qReg (setQ c d v s) c n = if n = d ∧ n ≠ 0 then v else qReg s c n := by
  unfold setQ
  split
  · next h => subst h; simp only [ne_eq, and_not_self, if_false]
  · next h =>
    simp only [qReg, ctx_updCtx_same, Tab.get_set]
    by_cases h0 : n = 0 <;> simp [h0]

/-- The registers of a context are all that `qReg` reads of it. -/
theorem qReg_congr {s t : State} {c : Nat} (h : (ctx t c).q = (ctx s c).q) (n : Nat) : qReg t c n = qReg s c n := by simp only [qReg, h]

/-! ### Behind an instruction (R92, R136) -/

/-- Behind an instruction in the code PC rises by its words. -/
theorem advancePc_of_code {s : State} {c : Nat} (h : expanding (ctx s c) = false) (words : Nat) :
    advancePc c words s = updCtx s c (fun x => { x with pc := x.pc + BitVec.ofNat 48 (8 * words), woken := false }) := by
  simp only [advancePc, h, Bool.false_eq_true, if_false]

/-- Behind an instruction of an expansion control is at a word of its body, or past it. -/
theorem advancePc_of_expanding {s : State} {c : Nat} (h : expanding (ctx s c) = true) (words : Nat) :
    advancePc c words s = toBody c ((ctx s c).mpos.toNat + words) s := by
  simp only [advancePc, h, if_true]

theorem toBody_of_lt {s : State} {c pos : Nat} (h : pos < (mdir s (ctxDie c) (ctx s c).mindex.toNat).len) :
    toBody c pos s = updCtx s c (fun x => { x with mpos := BitVec.ofNat 12 pos, woken := false }) := if_pos h

theorem toBody_of_ge {s : State} {c pos : Nat} (h : (mdir s (ctxDie c) (ctx s c).mindex.toNat).len ≤ pos) :
    toBody c pos s = updCtx s c (fun x => { x with inmac := false, mret := false, mpos := 0, mparams := [], pc := x.pc + 8, woken := false }) :=
  if_neg (Nat.not_lt.2 h)

/-- Going on behind an instruction changes its context alone, and there only where control stands. -/
theorem advancePc_eq_updCtx (c words : Nat) (s : State) : ∃ f : Ctx → Ctx, advancePc c words s = updCtx s c f ∧
    ∀ x, (f x).q = x.q ∧ (f x).e = x.e ∧ (f x).bracket = x.bracket := by
  simp only [advancePc, toBody]
  split
  · split
    · exact ⟨_, rfl, fun _ => ⟨rfl, rfl, rfl⟩⟩
    · exact ⟨_, rfl, fun _ => ⟨rfl, rfl, rfl⟩⟩
  · exact ⟨_, rfl, fun _ => ⟨rfl, rfl, rfl⟩⟩

/-- Going on behind an instruction leaves all that does not look at the contexts. -/
theorem advancePc_keeps {α : Type} (g : State → α) (hg : ∀ (t : State) (x : Tab Ctx), g { t with ctxs := x } = g t) (c words : Nat) (s : State) :
    g (advancePc c words s) = g s := by
  obtain ⟨f, hf, -⟩ := advancePc_eq_updCtx c words s
  rw [hf]
  exact hg s _

theorem mem_advancePc (c words : Nat) (s : State) : (advancePc c words s).mem = s.mem := advancePc_keeps State.mem (fun _ _ => rfl) c words s

theorem core_advancePc (c words : Nat) (s : State) (q : Nat) : coreAt (advancePc c words s) q = coreAt s q :=
  advancePc_keeps (coreAt · q) (fun _ _ => rfl) c words s

theorem ctx_advancePc_other {c n : Nat} (words : Nat) (s : State) (h : n ≠ c) : ctx (advancePc c words s) n = ctx s n := by
  obtain ⟨f, hf, -⟩ := advancePc_eq_updCtx c words s
  rw [hf, ctx_updCtx_other s f h]

theorem qReg_advancePc (c words : Nat) (s : State) (n : Nat) : qReg (advancePc c words s) c n = qReg s c n := by
  obtain ⟨f, hf, keeps⟩ := advancePc_eq_updCtx c words s
  exact qReg_congr (by rw [hf, ctx_updCtx_same, (keeps _).1]) n

/-! ### What an instruction that executes comes to (R90, R96) -/

/-- The state after an instruction of a number of words that executes on a context, by what it does there. -/
def afterwards (c words : Nat) : SRes → State
  | .next t => advancePc c words t
  | .jump t d => branch c words true d t
  | .pass t d => branch c words false d t
  | .goto_ t pc => updCtx t c (fun x => { x with pc := pc, woken := false })
  | .stay t => t
  | .wait t k => askWait c k (updCtx (beginWait c k t) c (fun x => { x with wlen := 8 * words }))
  | .fault t code info => streamFault c code info (8 * words) [] t

theorem runStream_of_executes {w : Where} {s : State} (h : Executes w.bracket w.body s) (words : Nat) (g : State → SRes) :
    runStream words w s.curCtx g s = afterwards s.curCtx words (g s) := by
  obtain ⟨hstate, hwait, hend, hbody, hbracket⟩ := h
  have runs : executes (ctx s s.curCtx) = true := by simp [executes, hstate, hwait, hend]
  have mayInBody : ¬ (expanding (ctx s s.curCtx) = true ∧ (!w.body) = true) := by
    rintro ⟨hx, hb⟩
    simp [hbody hx] at hb
  have mayInBracket : ¬ (((ctx s s.curCtx).bracket.isSome = true ∨ (ctx s s.curCtx).sub.isSome = true) ∧ (!w.bracket) = true) := by
    rintro ⟨hx, hb⟩
    simp [hbracket hx] at hb
  simp only [runStream, runs, Bool.not_true, Bool.false_eq_true, if_false, if_neg mayInBody, if_neg mayInBracket]
  cases g s <;> rfl

/-- An instruction that executes is what its function says of its context. -/
theorem exec_of_executes {i : Instr} {words : Nat} {w : Where} {g : State → SRes} {s : State} {r : SRes} (h : Executes w.bracket w.body s)
    (he : exec i s = .next (runStream words w s.curCtx g s)) (hg : g s = r) : exec i s = .next (afterwards s.curCtx words r) := by
  rw [he, ← hg, runStream_of_executes h words g]

section

variable {i : Instr} {words : Nat} {w : Where} {g : State → SRes} {s : State} (h : Executes w.bracket w.body s)
  (he : exec i s = .next (runStream words w s.curCtx g s))

include h he

/-- An instruction goes on behind itself with the state it makes. -/
theorem does_of_executes {t : State} (hg : g s = .next t) : Does i words s t := exec_of_executes h he hg

theorem jumps_of_executes {t : State} {d : Int} (hg : g s = .jump t d) : exec i s = .next (branch s.curCtx words true d t) :=
  exec_of_executes h he hg

theorem passes_of_executes {t : State} {d : Int} (hg : g s = .pass t d) : exec i s = .next (branch s.curCtx words false d t) :=
  exec_of_executes h he hg

theorem goesTo_of_executes {t : State} {pc : BitVec 48} (hg : g s = .goto_ t pc) :
    exec i s = .next (updCtx t s.curCtx (fun x => { x with pc := pc, woken := false })) := exec_of_executes h he hg

theorem stays_of_executes {t : State} (hg : g s = .stay t) : exec i s = .next t := exec_of_executes h he hg

/-- An instruction that cannot be executed faults. -/
theorem faults_of_executes {code : BitVec 8} {info : Word} (hg : g s = .fault s code info) : Faults i words code info s :=
  exec_of_executes h he hg

/-- An instruction that waits for nothing the Hasp is asked for leaves its context waiting (R90). -/
theorem waits_of_executes {k : WaitKind} (hg : g s = .wait s k) (hk : ∀ t, askWait s.curCtx k t = t) : Waits i words k s := by
  have running : (ctx s s.curCtx).state = .running := h.1
  refine (exec_of_executes h he hg).trans (congrArg Host.Outcome.next ((hk _).trans ?_))
  rw [beginWait, updCtx_congr (s := s)]
  simp [running]

end

/-! ### Stream faults (R96, R98) -/

theorem ctx_sendMsix (e : Nat) (s : State) (n : Nat) : ctx (sendMsix e s) n = ctx s n := by
  unfold sendMsix
  split <;> rfl

theorem ctx_logErr (e : BitVec 128) (s : State) (n : Nat) : ctx (logErr e s) n = ctx s n := ctx_sendMsix _ _ _

theorem ctx_snapFault (code : BitVec 8) (s : State) (n : Nat) : ctx (snapFault code s) n = ctx s n := by
  simp only [snapFault, fireTrig]
  split
  · split
    · split <;> rfl
    · rfl
  · rfl

/-- A context that reaches FAULTED stops running with its code. -/
theorem ctx_ctxFaulted (c : Nat) (code : BitVec 8) (s : State) : ctx (ctxFaulted c code s) c =
    { ctx s c with run := false, fault := code, state := .faulted, wait := none, bracket := none, ending := false } := by
  simp only [ctxFaulted, ctx_logErr, ctx_sendVec]
  exact ctx_updCtx_same _ _ _

/-- What a stream fault writes of its context before a handler is looked for. -/
def faultRecorded (code : BitVec 8) (info : Word) (len : Nat) (x : Ctx) : Ctx :=
  { x with fcode := code, finfo := info, fpc := x.pc, flen := len, bracket := none, wait := none, woken := false, mret := false, ending := false }

section

variable {s : State} {c : Nat} (hs : (ctx s c).sub = none) (code : BitVec 8) (info : Word) (len : Nat)

include hs

/-- A fault of a context with a handler enters it, where none runs. -/
theorem ctx_streamFault_of_handler {p : BitVec 48} (hh : (ctx s c).handler = some p) (hi : (ctx s c).inh = false) :
    ctx (streamFault c code info len [] s) c =
      { faultRecorded code info len (ctx s c) with inh := true, pc := p, state := if (ctx s c).state = .stopping then .stopping else .running } := by
  simp only [streamFault, hs, hh, hi, setChain, if_true, ctx_updCtx_same, ctx_snapFault, faultRecorded]

/-- A fault without a handler, or in one, leaves the context FAULTED. -/
theorem ctx_streamFault_of_none (hh : (ctx s c).handler = none ∨ (ctx s c).inh = true) :
    ctx (streamFault c code info len [] s) c =
      { faultRecorded code info len (ctx s c) with run := false, fault := code, state := .faulted, wait := none, bracket := none, ending := false } := by
  have faulted : streamFault c code info len [] s = ctxFaulted c code (updCtx (snapFault code s) c (faultRecorded code info len)) := by
    simp only [streamFault, hs, setChain, if_true]
    split
    · next hp hf => simp [hp, hf] at hh
    · rfl
  rw [faulted, ctx_ctxFaulted, ctx_updCtx_same, ctx_snapFault]

end

/-! ### O41 -/

/-- An instruction that may not run in a bracket nor in a sub-stream runs in none. -/
theorem no_bracket_of_executes {inBody : Bool} {s : State} (h : Executes false inBody s) :
    (ctx s s.curCtx).bracket = none ∧ (ctx s s.curCtx).sub = none := by
  obtain ⟨-, -, -, -, hout⟩ := h
  simp only [Bool.false_eq_true, imp_false, not_or, Option.not_isSome_iff_eq_none] at hout
  exact hout

/-- Settles O41: what goes on moves the control of its own context alone, and a fault is recorded before a handler is looked for. -/
theorem streamsAdvanceAndFault : Obligations.StreamsAdvanceAndFault := by
  unfold Obligations.StreamsAdvanceAndFault
  intro s k xn z a
  refine ⟨fun h w hw => ?goOn, fun h hodd => ?fault⟩
  case goOn =>
    have does : Does w.1 w.2 s s := by
      simp only [List.mem_cons, List.not_mem_nil, or_false] at hw
      obtain rfl | rfl := hw
      · exact does_of_executes (w := anywhere) h rfl rfl
      · exact does_of_executes (w := anywhere) h rfl rfl
    refine ⟨_, does, mem_advancePc _ _ s, fun n hn => ctx_advancePc_other _ s hn, core_advancePc _ _ s, qReg_advancePc _ _ s,
      fun hx => ?_, fun hx hpos _ => ?_, fun hx hpos => ?_⟩
    · rw [advancePc_of_code hx, ctx_updCtx_same]
    · rw [advancePc_of_expanding hx, toBody_of_lt hpos, ctx_updCtx_same, BitVec.ofNat_add, BitVec.ofNat_toNat, BitVec.setWidth_eq]
    · rw [advancePc_of_expanding hx, toBody_of_ge hpos, ctx_updCtx_same]
  case fault =>
    have noSub := (no_bracket_of_executes h).2
    have running : (ctx s s.curCtx).state = .running := h.1
    have faults : Faults (.streamRet a) 1 codeAlign 0 s := faults_of_executes (w := plainOnly) h rfl (if_pos hodd)
    refine ⟨_, faults, ?_⟩
    by_cases handled : (ctx s s.curCtx).handler ≠ none ∧ (ctx s s.curCtx).inh = false
    · obtain ⟨hh, hi⟩ := handled
      obtain ⟨p, hp⟩ := Option.ne_none_iff_exists'.1 hh
      rw [ctx_streamFault_of_handler noSub _ _ _ hp hi]
      simp [faultRecorded, hp, hi, running]
    · have unhandled : (ctx s s.curCtx).handler = none ∨ (ctx s s.curCtx).inh = true := by
        rwa [not_and_or, not_ne_iff, Bool.not_eq_false] at handled
      rw [ctx_streamFault_of_none noSub _ _ _ unhandled]
      refine ⟨rfl, rfl, rfl, rfl, fun p hp hi => ?_, fun _ => ⟨rfl, rfl, rfl⟩⟩
      simp [hp, hi] at unhandled

end Sys2Proof.Machine
end

section
/-! Transfers of stream code: branches, calls, END, handlers and ERET (R96, R99, R100, R128, R136). -/

namespace Sys2Proof.Machine

open Sys2Proof.Safety

/-- A write of a register changes no other field of the context. -/
theorem ctx_setQ (c d : Nat) (v : Word) (s : State) : ∃ q, ctx (setQ c d v s) c = { ctx s c with q := q } := by
  unfold setQ
  split
  · exact ⟨(ctx s c).q, rfl⟩
  · exact ⟨_, ctx_updCtx_same _ _ _⟩

theorem no_expansion_of_executes {inBracket : Bool} {s : State} (h : Executes inBracket false s) : expanding (ctx s s.curCtx) = false := by
  obtain ⟨-, -, -, hbody, -⟩ := h
  simpa using hbody

/-! ### Branches (R99, R128, R136) -/

/-- The PC of a taken branch by a number of words outside an expansion. -/
def branched (c : Nat) (d : Int) (s : State) : State :=
  updCtx s c (fun x => { x with pc := x.pc + BitVec.ofInt 48 (8 * d), woken := false })

/-- What a bracket keeps of the target of a branch (R128). -/
def targetNoted (c : Nat) (b : Bracket) (t : Int) (s : State) : State :=
  updCtx s c (fun x => { x with bracket := some { b with maxT := Nat.max b.maxT t.toNat } })

section

variable {s : State} {c words : Nat} {taken : Bool} {d : Int}

theorem branch_of_plain (hx : expanding (ctx s c) = false) (hb : (ctx s c).bracket = none) :
    branch c words taken d s = if taken then branched c d s else advancePc c words s := by
  simp only [branch, hx, hb, Bool.false_eq_true, if_false]
  rfl

/-- In a bracket a target at or after its start is noted. -/
theorem branch_of_bracket {b : Bracket} (hx : expanding (ctx s c) = false) (hb : (ctx s c).bracket = some b)
    (hd : (b.start : Int) ≤ (ctx s c).pc.toNat + 8 * d) :
    branch c words taken d s =
      let t := targetNoted c b ((ctx s c).pc.toNat + 8 * d) s
      if taken then branched c d t else advancePc c words t := by
  simp only [branch, hx, hb, Bool.false_eq_true, if_false, bracketTarget, if_neg (not_lt.2 hd)]
  rfl

/-- In a bracket a target before its start faults. -/
theorem branch_of_bracket_left {b : Bracket} (hx : expanding (ctx s c) = false) (hb : (ctx s c).bracket = some b)
    (hd : (ctx s c).pc.toNat + 8 * d < (b.start : Int)) : branch c words taken d s = streamFault c codeRecipeInvalid 0 (8 * words) [] s := by
  simp only [branch, hx, hb, Bool.false_eq_true, if_false, bracketTarget, if_pos hd]

theorem branch_of_body_not_taken (hx : expanding (ctx s c) = true) : branch c words false d s = advancePc c words s := by
  simp only [branch, hx, Bool.not_false, if_true]

theorem branch_of_body (hx : expanding (ctx s c) = true) (h0 : 0 ≤ ((ctx s c).mpos.toNat : Int) + d)
    (hl : ((ctx s c).mpos.toNat : Int) + d < (mdir s (ctxDie c) (ctx s c).mindex.toNat).len) :
    branch c words true d s = updCtx s c (fun x => { x with mpos := BitVec.ofNat 12 ((ctx s c).mpos.toNat + d).toNat, woken := false }) := by
  have inside : ¬ (((ctx s c).mpos.toNat : Int) + d < 0 ∨ ((mdir s (ctxDie c) (ctx s c).mindex.toNat).len : Int) ≤ (ctx s c).mpos.toNat + d) := by omega
  simp only [branch, hx, Bool.not_true, Bool.false_eq_true, if_true, if_false, if_neg inside]
  exact toBody_of_lt (by omega)

theorem branch_of_body_left (hx : expanding (ctx s c) = true)
    (hl : ((ctx s c).mpos.toNat : Int) + d < 0 ∨ ((mdir s (ctxDie c) (ctx s c).mindex.toNat).len : Int) ≤ (ctx s c).mpos.toNat + d) :
    branch c words true d s = streamFault c codeIllegal 0 (8 * words) [] s := by
  simp only [branch, hx, Bool.not_true, Bool.false_eq_true, if_true, if_false, if_pos hl]

end

/-! ### ERET (R96) -/

/-- The state in which the instruction at FPC goes on, outside the handler. -/
def returned (c : Nat) (s : State) : State := updCtx (updCtx s c (fun x => { x with inh := false })) c (fun x => { x with mret := true, pc := x.fpc })

theorem ctx_returned (s : State) (c : Nat) : ctx (returned c s) c = { ctx s c with inh := false, mret := true, pc := (ctx s c).fpc } := by
  simp only [returned, ctx_updCtx_same]

theorem streamEret_outside {s : State} {c : Nat} (h : (ctx s c).inh = false) (skip : Bool) : streamEret skip c s = .fault s codeIllegal 0 := by
  simp only [streamEret, h, Bool.not_false, if_true]

/-- ERET to the code goes to FPC, or past the instruction there. -/
theorem streamEret_of_code {s : State} {c : Nat} (h : (ctx s c).inh = true) (hm : (ctx s c).inmac = false) (skip : Bool) :
    streamEret skip c s =
      .goto_ (updCtx s c (fun x => { x with inh := false })) ((ctx s c).fpc + BitVec.ofNat 48 (if skip then (ctx s c).flen else 0)) := by
  simp [streamEret, h, hm]

/-- ERET to an expansion held goes on there. -/
theorem streamEret_of_expansion {s : State} {c : Nat} (h : (ctx s c).inh = true) (hm : (ctx s c).inmac = true) (skip : Bool) :
    streamEret skip c s = .stay (toBody c ((ctx s c).mpos.toNat + (if skip then (ctx s c).flen else 0) / 8) (returned c s)) := by
  simp [streamEret, returned, h, hm]

theorem ctx_toBody_other {s : State} {c n : Nat} (h : n ≠ c) (pos : Nat) : ctx (toBody c pos s) n = ctx s n := by
  simp only [toBody]
  split <;> exact ctx_updCtx_other s _ h

/-! ### O42 -/

/-- Settles O42, by the three places a branch may stand in: the code, a bracket and an expansion. -/
theorem streamTransfers : Obligations.StreamTransfers := by
  unfold Obligations.StreamTransfers
  intro s imm a b d cc c x u v target noted goes falls holds
  have taken : ∀ i, exec i s = .next (branch c 1 true imm.toInt s) → goes i := by
    intro i hi
    refine ⟨fun hx hb => ?_, fun r hx hb hr => ?_, fun r hx hb hr => ?_, fun hx h0 hl => ?_, fun hx hl => ?_⟩ <;>
      refine hi.trans (congrArg Host.Outcome.next ?_)
    · exact branch_of_plain hx hb
    · exact branch_of_bracket hx hb hr
    · exact branch_of_bracket_left hx hb hr
    · exact branch_of_body hx h0 hl
    · exact branch_of_body_left hx hl
  have passed : ∀ i, exec i s = .next (branch c 1 false imm.toInt s) → falls i := by
    intro i hi
    refine ⟨fun hx => ?_, fun r hx hb hr => ?_, fun r hx hb hr => ?_⟩ <;> refine hi.trans (congrArg Host.Outcome.next ?_)
    · cases he : expanding x with
      | true => exact branch_of_body_not_taken he
      | false => exact branch_of_plain he (hx.resolve_left (by simp [he]))
    · exact branch_of_bracket hx hb hr
    · exact branch_of_bracket_left hx hb hr
  have condition : holds ↔ brHolds cc u v = true := by cases cc <;> simp [holds, brHolds]
  refine ⟨fun h => ⟨taken _ (jumps_of_executes (w := anywhere) h rfl rfl), fun hc => taken _ ?brcTaken, fun hc => passed _ ?brcPassed⟩,
    fun h => ⟨?call, fun ha => ?ret, stays_of_executes (w := plainOnly) h rfl rfl, does_of_executes (w := plainOnly) h rfl rfl,
      does_of_executes (w := plainOnly) h rfl rfl, fun hi => ?eretOutside, fun hi skip => ?eret⟩⟩
  case brcTaken => exact jumps_of_executes (w := anywhere) h rfl (if_pos (condition.1 hc))
  case brcPassed => exact passes_of_executes (w := anywhere) h rfl (if_neg (mt condition.2 hc))
  case call =>
    obtain ⟨q, hq⟩ := ctx_setQ c d.toNat ((x.pc + 8).setWidth 64) s
    refine (jumps_of_executes (w := plainOnly) h rfl rfl).trans (congrArg Host.Outcome.next ?_)
    refine branch_of_plain (taken := true) ?_ ?_ <;> refine (congrArg _ hq).trans ?_
    · exact no_expansion_of_executes h
    · exact (no_bracket_of_executes h).1
  case ret => exact goesTo_of_executes (w := plainOnly) h rfl (if_neg (not_not.2 ha))
  case eretOutside =>
    exact ⟨faults_of_executes (w := plainOnly) h rfl (streamEret_outside hi false), faults_of_executes (w := plainOnly) h rfl (streamEret_outside hi true)⟩
  case eret =>
    have runs : exec (if skip then .streamEretSkip else .streamEret) s = .next (afterwards c 1 (streamEret skip c s)) := by
      cases skip
      · exact exec_of_executes (w := plainOnly) h rfl rfl
      · exact exec_of_executes (w := plainOnly) h rfl rfl
    refine ⟨_, runs, ?_⟩
    obtain hm | hm := Bool.eq_false_or_eq_true x.inmac
    · rw [streamEret_of_expansion hi hm]
      refine ⟨fun n hn => ?_, fun hx => absurd (hm.symm.trans hx) (by decide), fun _ hl => ?_⟩
      · exact (ctx_toBody_other hn _).trans ((ctx_updCtx_other _ _ hn).trans (ctx_updCtx_other _ _ hn))
      · rw [afterwards, toBody_of_lt, ctx_updCtx_same, ctx_returned]
        rw [ctx_returned]
        exact hl
    · rw [streamEret_of_code hi hm]
      refine ⟨fun n hn => ?_, fun _ => ?_, fun hx => absurd (hm.symm.trans hx) (by decide)⟩
      · exact (ctx_updCtx_other _ _ hn).trans (ctx_updCtx_other _ _ hn)
      · simp only [afterwards, ctx_updCtx_same]
        rfl

end Sys2Proof.Machine
end

section
/-! Arithmetic of stream code and its special registers (R95, R101, R102). -/

namespace Sys2Proof.Machine

open Sys2Proof.Safety

/-- An instruction that writes a register anywhere writes the value its function comes to. -/
theorem writes_of_executes {i : Instr} {g : State → SRes} {s : State} {d : Nat} {v v' : Word} (h : Executes true true s)
    (he : exec i s = .next (runStream 1 anywhere s.curCtx g s)) (hg : g s = .next (setQ s.curCtx d v s)) (hv : v = v') :
    Does i 1 s (setQ s.curCtx d v' s) := hv ▸ does_of_executes (w := anywhere) h he hg

section

variable (x y : Word)

/-- The upper half of an unsigned product. -/
theorem fMulhu_eq : fMulhu x y = (x.setWidth 128 * y.setWidth 128).extractLsb' 64 64 := by
  have hx := x.isLt
  have hy := y.isLt
  have inside : x.toNat * y.toNat < 2 ^ 128 := calc
    x.toNat * y.toNat < 2 ^ 64 * 2 ^ 64 := Nat.mul_lt_mul'' hx hy
    _ = 2 ^ 128 := by norm_num
  apply BitVec.eq_of_toNat_eq
  rw [fMulhu, BitVec.toNat_ofNat, BitVec.extractLsb'_toNat, BitVec.toNat_mul, BitVec.toNat_setWidth_of_le (by decide), BitVec.toNat_setWidth_of_le (by decide),
    Nat.mod_eq_of_lt inside, Nat.shiftRight_eq_div_pow]

theorem fSlt_eq : fSlt x y = if x.slt y = true then 1 else 0 := by simp only [fSlt, BitVec.slt_eq_decide, decide_eq_true_eq]

theorem fSltu_eq : fSltu x y = if x.ult y = true then 1 else 0 := by simp only [fSltu, BitVec.ult_eq_decide, decide_eq_true_eq]

theorem fMin_eq : fMin x y = if y.slt x then y else x := by
  simp only [fMin, BitVec.slt_eq_decide, decide_eq_true_eq, ← Int.not_lt, ite_not]

theorem fMax_eq : fMax x y = if x.slt y then y else x := by
  simp only [fMax, BitVec.slt_eq_decide, decide_eq_true_eq]
  rcases lt_trichotomy x.toInt y.toInt with hlt | heq | hgt
  · rw [if_pos hlt.le, if_pos hlt]
  · rw [BitVec.eq_of_toInt_eq heq, ite_self, ite_self]
  · rw [if_neg (not_le.2 hgt), if_neg (not_lt.2 hgt.le)]

theorem fMinu_eq : fMinu x y = if y.ult x then y else x := by
  simp only [fMinu, BitVec.ult_eq_decide, decide_eq_true_eq, ← Nat.not_lt, ite_not]

theorem fMaxu_eq : fMaxu x y = if x.ult y then y else x := by
  simp only [fMaxu, BitVec.ult_eq_decide, decide_eq_true_eq]
  rcases lt_trichotomy x.toNat y.toNat with hlt | heq | hgt
  · rw [if_pos hlt.le, if_pos hlt]
  · rw [BitVec.eq_of_toNat_eq heq, ite_self, ite_self]
  · rw [if_neg (not_le.2 hgt), if_neg (not_lt.2 hgt.le)]

end

/-- A shift amount in an immediate is itself modulo 64. -/
theorem sx_shift_mod (sh : BitVec 6) : (sx (sh.setWidth 32)).toNat % 64 = sh.toNat := by
  have nonneg : (sh.setWidth 32).msb = false := by simp [BitVec.msb_setWidth]
  have hsh := sh.isLt
  rw [sx, BitVec.signExtend_eq_setWidth_of_msb_false nonneg]
  simp only [BitVec.toNat_setWidth]
  omega

/-- MOVHI puts the immediate over the lower half. -/
theorem movhi_eq (x : Word) (imm : BitVec 32) : BitVec.ofNat 64 (withBits x.toNat 32 32 imm.toNat) = imm ++ x.setWidth 32 := by
  have hx := x.isLt
  have himm := imm.isLt
  apply BitVec.eq_of_toNat_eq
  rw [BitVec.toNat_append, ← Nat.shiftLeft_add_eq_or_of_lt (BitVec.isLt _), BitVec.toNat_setWidth, BitVec.toNat_ofNat, Nat.shiftLeft_eq]
  simp only [withBits, bitsOf]
  omega

/-- The special registers from 9 on are the chain of a recipe fault (R95, R98). -/
theorem srdValue_chain (s : State) (c n : Nat) : srdValue s c (9 + n) = BitVec.ofNat 64 (nthD (ctx s c).chain n 0) := by
  rw [Nat.add_comm]
  rfl

/-- A context outside brackets and sub-streams executes what may not run there too. -/
theorem executes_outside {inBracket inBody : Bool} {s : State} (h : Executes inBracket inBody s) (hb : (ctx s s.curCtx).bracket = none)
    (hs : (ctx s s.curCtx).sub = none) (b : Bool) : Executes b inBody s := by
  obtain ⟨hstate, hwait, hend, hbody, -⟩ := h
  exact ⟨hstate, hwait, hend, hbody, by simp [hb, hs]⟩

/-! ### O43 -/

/-- Settles O43: each operation writes the function that R101 gives it, and a special register reads its field. -/
theorem streamArithmetic : Obligations.StreamArithmetic := by
  unfold Obligations.StreamArithmetic
  refine ⟨fun s d a b h => ?registers, fun s d a imm sh h => ?immediates⟩
  case registers =>
    exact ⟨does_of_executes (w := anywhere) h rfl rfl, does_of_executes (w := anywhere) h rfl rfl, does_of_executes (w := anywhere) h rfl rfl,
      writes_of_executes h rfl rfl (fMulhu_eq _ _), does_of_executes (w := anywhere) h rfl rfl, does_of_executes (w := anywhere) h rfl rfl,
      does_of_executes (w := anywhere) h rfl rfl, does_of_executes (w := anywhere) h rfl rfl, does_of_executes (w := anywhere) h rfl rfl,
      does_of_executes (w := anywhere) h rfl rfl, writes_of_executes h rfl rfl (fSlt_eq _ _), writes_of_executes h rfl rfl (fSltu_eq _ _),
      does_of_executes (w := anywhere) h rfl rfl, writes_of_executes h rfl rfl (fMin_eq _ _), writes_of_executes h rfl rfl (fMax_eq _ _),
      writes_of_executes h rfl rfl (fMinu_eq _ _), writes_of_executes h rfl rfl (fMaxu_eq _ _), fun v n => qReg_setQ _ _ n v s⟩
  case immediates =>
    refine ⟨does_of_executes (w := anywhere) h rfl rfl, does_of_executes (w := anywhere) h rfl rfl, does_of_executes (w := anywhere) h rfl rfl,
      writes_of_executes h rfl rfl (fMulhu_eq _ _), does_of_executes (w := anywhere) h rfl rfl, does_of_executes (w := anywhere) h rfl rfl,
      does_of_executes (w := anywhere) h rfl rfl, writes_of_executes h rfl rfl (congrArg _ (sx_shift_mod sh)),
      writes_of_executes h rfl rfl (congrArg _ (sx_shift_mod sh)), writes_of_executes h rfl rfl (congrArg _ (sx_shift_mod sh)),
      writes_of_executes h rfl rfl (fSlt_eq _ _), writes_of_executes h rfl rfl (fSltu_eq _ _), does_of_executes (w := anywhere) h rfl rfl,
      writes_of_executes h rfl rfl (fMin_eq _ _), writes_of_executes h rfl rfl (fMax_eq _ _), writes_of_executes h rfl rfl (fMinu_eq _ _),
      writes_of_executes h rfl rfl (fMaxu_eq _ _), does_of_executes (w := anywhere) h rfl rfl, writes_of_executes h rfl rfl (movhi_eq _ _),
      does_of_executes (w := anywhere) h rfl rfl, fun hb hs => ?special⟩
    have reads : ∀ n : BitVec 6, n.toNat ≤ 16 → Does (.srd d n) 1 s (setQ s.curCtx d.toNat (srdValue s s.curCtx n.toNat) s) := fun n hn =>
      does_of_executes (w := ⟨n == 0, true⟩) (executes_outside h hb hs _) rfl (if_neg (not_lt.2 hn))
    refine ⟨reads 1 (by decide), reads 2 (by decide), reads 3 (by decide), reads 4 (by decide), reads 5 (by decide), reads 6 (by decide),
      reads 7 (by decide), reads 8 (by decide), fun n hn => ?chain, fun n hn => ?above⟩
    case chain =>
      have index : (BitVec.ofNat 6 (9 + n)).toNat = 9 + n := Nat.mod_eq_of_lt (by omega)
      have read := reads (BitVec.ofNat 6 (9 + n)) (by omega)
      rwa [index, srdValue_chain] at read
    case above => exact faults_of_executes (w := ⟨n == 0, true⟩) (executes_outside h hb hs _) rfl (if_pos hn)

end Sys2Proof.Machine
end

section
/-! The memory instructions of stream code: LDQ, STQ, FENCE, WAITMB and IRQ (R103-R107). -/

namespace Sys2Proof.Machine

open Sys2Proof.Safety

/-! ### Values and their bytes -/

theorem leBytes_eq_map (n : Nat) : ∀ x, leBytes x n = (List.range n).map (fun j => BitVec.ofNat 8 (x >>> (8 * j))) := by
  induction n with
  | zero => exact fun _ => rfl
  | succ n ih =>
    intro x
    have shifted (j : Nat) : (x / 256) >>> (8 * j) = x >>> (8 * (j + 1)) := by
      rw [show x / 256 = x >>> 8 from (Nat.shiftRight_eq_div_pow x 8).symm, ← Nat.shiftRight_add, Nat.mul_succ, Nat.add_comm]
    rw [leBytes, ih, List.range_succ_eq_map, List.map_cons, List.map_map]
    simp only [shifted, Nat.mul_zero, Nat.shiftRight_zero]
    rfl

theorem leBytes_word (v : Word) (n : Nat) : leBytes v.toNat n = (List.range n).map (fun j => v.extractLsb' (8 * j) 8) := leBytes_eq_map n v.toNat

/-- A signed reading is the one of a word of that width. -/
theorem signed_eq_toInt {w : Nat} (hw : 0 < w) (x : Nat) : signed w x = (BitVec.ofNat w x).toInt := by
  obtain ⟨k, rfl⟩ := Nat.exists_eq_add_of_lt hw
  have halves : 2 ^ (k + 1) = 2 * 2 ^ k := Nat.pow_succ'
  rw [signed, BitVec.toInt_eq_toNat_cond, BitVec.toNat_ofNat, Nat.zero_add, Nat.add_sub_cancel, halves]
  by_cases hx : 2 ^ k ≤ x % (2 * 2 ^ k)
  · rw [if_pos hx, if_neg (by omega), ← halves]
    push_cast
    rfl
  · rw [if_neg hx, if_pos (by omega), ← halves]
    push_cast
    rfl

/-- A loaded value is extended from the bytes of its size (R103). -/
theorem extended_eq {n : Nat} (hn : 0 < n) (sg : BitVec 1) (b : List Byte) :
    extended sg n b = if sg = 1 then (BitVec.ofNat (8 * n) (leNat b)).signExtend 64 else BitVec.ofNat 64 (leNat b) := by
  rw [extended, signed_eq_toInt (by omega)]
  rfl

/-! ### Reads of a context (R103, R104) -/

section

variable {s : State} {c n h o : Nat} {p : Word}

theorem streamRead_of_tensor (ha : streamAccess s c p n false = .tensor h o) (hs : (ctx s c).stores = []) (hp : poisoned s (.glob h o) n = false) :
    streamRead s c p n = .ok (s, readLoc s (.glob h o) n) := by
  simp only [streamRead, ha, hs, hp, ne_eq, not_true_eq_false, Bool.false_eq_true, if_false]

theorem streamRead_of_poisoned (ha : streamAccess s c p n false = .tensor h o) (hs : (ctx s c).stores = []) (hp : poisoned s (.glob h o) n = true) :
    streamRead s c p n = .error (.fault s codePoison p) := by
  simp only [streamRead, ha, hs, hp, ne_eq, not_true_eq_false, if_false, if_true]

theorem streamRead_of_host {x : Nat} {port : Bool} (ha : streamAccess s c p n false = .host x port) (hs : (ctx s c).stores = []) :
    streamRead s c p n = .ok (freeBytes s n) := by
  simp only [streamRead, ha, hs, ne_eq, not_true_eq_false, if_false]

theorem streamRead_of_fault {code : BitVec 8} (ha : streamAccess s c p n false = .fault code) : streamRead s c p n = .error (.fault s code p) := by
  simp only [streamRead, ha]

end

/-! ### LDQ, STQ and WAITMB -/

section

variable {s : State} (h : Executes false true s)

include h

theorem ldq_of_read {d a : BitVec 5} {sz : BitVec 2} {sg : BitVec 1} {imm : BitVec 32} {t : State} {b : List Byte}
    (hr : streamRead s s.curCtx (qReg s s.curCtx a.toNat + sx imm) (sizeBytes sz) = .ok (t, b)) :
    Does (.ldq d a sz sg imm) 1 s
      (setQ s.curCtx d.toNat (if sg = 1 then (BitVec.ofNat (8 * sizeBytes sz) (leNat b)).signExtend 64 else BitVec.ofNat 64 (leNat b)) t) := by
  rw [← extended_eq (n := sizeBytes sz) (Nat.two_pow_pos _)]
  refine does_of_executes (w := inBody) h rfl ?_
  simp only [hr]

theorem ldq_of_fault {d a : BitVec 5} {sz : BitVec 2} {sg : BitVec 1} {imm : BitVec 32} {code : BitVec 8} {p : Word}
    (hr : streamRead s s.curCtx (qReg s s.curCtx a.toNat + sx imm) (sizeBytes sz) = .error (.fault s code p)) : Faults (.ldq d a sz sg imm) 1 code p s := by
  refine faults_of_executes (w := inBody) h rfl ?_
  simp only [hr]

theorem stq_of_tensor {a b : BitVec 5} {sz : BitVec 2} {imm : BitVec 32} {k o : Nat}
    (ha : streamAccess s s.curCtx (qReg s s.curCtx a.toNat + sx imm) (sizeBytes sz) true = .tensor k o) :
    Does (.stq a b sz imm) 1 s
      (sendStq s.curCtx (qReg s s.curCtx a.toNat + sx imm) (.glob k o) (leBytes (qReg s s.curCtx b.toNat).toNat (sizeBytes sz)) s) := by
  refine does_of_executes (w := inBody) h rfl ?_
  simp only [ha]

theorem stq_of_host {a b : BitVec 5} {sz : BitVec 2} {imm : BitVec 32} {x : Nat} {port : Bool}
    (ha : streamAccess s s.curCtx (qReg s s.curCtx a.toNat + sx imm) (sizeBytes sz) true = .host x port) :
    Does (.stq a b sz imm) 1 s
      (sendStq s.curCtx (qReg s s.curCtx a.toNat + sx imm) (.host x port) (leBytes (qReg s s.curCtx b.toNat).toNat (sizeBytes sz)) s) := by
  refine does_of_executes (w := inBody) h rfl ?_
  simp only [ha]

theorem stq_of_fault {a b : BitVec 5} {sz : BitVec 2} {imm : BitVec 32} {code : BitVec 8}
    (ha : streamAccess s s.curCtx (qReg s s.curCtx a.toNat + sx imm) (sizeBytes sz) true = .fault code) :
    Faults (.stq a b sz imm) 1 code (qReg s s.curCtx a.toNat + sx imm) s := by
  refine faults_of_executes (w := inBody) h rfl ?_
  simp only [ha]

/-- WAITMB of a word that can be read looks at it. -/
theorem waitmb_of_read {d a b : BitVec 5} {v : List Byte} (hg : isGlobal (qReg s s.curCtx a.toNat) = true)
    (hr : streamRead s s.curCtx (qReg s s.curCtx a.toNat) 8 = .ok (s, v)) :
    (BitVec.ofNat 64 (leNat v) ≠ qReg s s.curCtx b.toNat → Does (.waitmb d a b) 1 s (setQ s.curCtx d.toNat (BitVec.ofNat 64 (leNat v)) s)) ∧
    (BitVec.ofNat 64 (leNat v) = qReg s s.curCtx b.toNat →
      Waits (.waitmb d a b) 1 (.mailbox d.toNat (ptrH (qReg s s.curCtx a.toNat)) (ptrO (qReg s s.curCtx a.toNat)) (qReg s s.curCtx b.toNat)) s) := by
  constructor <;> intro hv
  · refine does_of_executes (w := inBody) h rfl ?_
    simp only [hg, Bool.not_true, Bool.false_eq_true, if_false, hr, if_neg hv]
  · refine waits_of_executes (w := inBody) h rfl ?_ (fun _ => rfl)
    simp only [hg, Bool.not_true, Bool.false_eq_true, if_false, hr, if_pos hv]

end

/-! ### FENCE and IRQ -/

/-- FENCE's conditions hold of a context without stores and without deltas on their way. -/
theorem fenceOver_of_idle {s : State} {c : Nat} (hs : (ctx s c).stores = []) (hd : ∀ k ∈ s.packets, k.core = 512 + c → ∀ i m e, k.body ≠ .delta i m e)
    (sv md : Bool) : fenceOver s c sv md = true := by
  simp only [fenceOver, hs]
  rw [List.any_eq_false.2 ?_, List.any_eq_false.2 ?_]
  · simp
  all_goals
    intro k hk
    split
    · next i m e hb => simp [show k.core ≠ 512 + c from fun hc => hd k hk hc i m e hb]
    · exact Bool.false_ne_true

theorem fenceOver_of_stores {s : State} {c : Nat} (hs : (ctx s c).stores ≠ []) (sv md : Bool) : fenceOver s c sv md = false := by
  have busy : ((ctx s c).stores == []) = false := beq_false_of_ne hs
  simp only [fenceOver, busy, Bool.false_and]

/-! ### O44 -/

/-- Settles O44, by what the checks of an access give. -/
theorem streamMemory : Obligations.StreamMemory := by
  unfold Obligations.StreamMemory
  intro s d a b sz sg sv md imm sc h o code
  refine ⟨fun he => ⟨fun ha hi hp => ?load, fun x port ha hi => ?loadHost, fun ha hi hp => ?loadPoisoned, fun ha => ?loadFault, fun ha => stq_of_fault he ha,
    fun ha => ?store, fun x port ha => ?storeHost, fun hg ha hi hp => ?mailbox, fun hg => ?noMailbox, fun hv => ?irq, fun hv => ?irqBounds⟩,
    fun he => ⟨fun hi hd => ?fence, fun hi => ?fenceWaits⟩⟩
  case load => exact ldq_of_read he (streamRead_of_tensor ha hi hp)
  case loadHost => exact ⟨_, _, ldq_of_read he (streamRead_of_host ha hi)⟩
  case loadPoisoned => exact ldq_of_fault he (streamRead_of_poisoned ha hi hp)
  case loadFault => exact ldq_of_fault he (streamRead_of_fault ha)
  case store =>
    rw [← leBytes_word]
    exact stq_of_tensor he ha
  case storeHost =>
    rw [← leBytes_word]
    exact stq_of_host he ha
  case mailbox => exact waitmb_of_read he hg (streamRead_of_tensor ha hi hp)
  case noMailbox =>
    refine faults_of_executes (w := inBody) he rfl ?_
    simp only [hg, Bool.not_false, if_true]
  case irq =>
    refine does_of_executes (w := inBody) he rfl ((if_neg (not_le.2 hv)).trans ?_)
    rw [sendVec, if_pos hv]
  case irqBounds => exact faults_of_executes (w := inBody) he rfl (if_pos hv)
  case fence => exact does_of_executes (w := anywhere) he rfl (if_pos (fenceOver_of_idle hi hd _ _))
  case fenceWaits =>
    refine waits_of_executes (w := anywhere) he rfl (if_neg ?_) (fun _ => rfl)
    rw [fenceOver_of_stores hi]
    decide

end Sys2Proof.Machine
end

section
/-! Events, remote signals, shape slots, deadlines and classes of stream code (R108-R110, R117, R138, R139). -/

namespace Sys2Proof.Machine

open Sys2Proof.Safety

/-! ### Events and shape slots -/

/-- The events of a context stand where only its registers and its control move. -/
theorem e_advancePc_setQ (c words d : Nat) (v : Word) (s : State) : (ctx (advancePc c words (setQ c d v s)) c).e = (ctx s c).e := by
  obtain ⟨f, hf, keeps⟩ := advancePc_eq_updCtx c words (setQ c d v s)
  obtain ⟨q, hq⟩ := ctx_setQ c d v s
  rw [hf, ctx_updCtx_same, (keeps _).2.1, hq]

/-- An addition to an event count is modulo 2^32 and leaves the other counts. -/
theorem e_addEvent (c e : Nat) (n : BitVec 16) (s : State) (k : Nat) :
    (ctx (addEvent c e n.toNat s) c).e.get 0 k = if k = e then (ctx s c).e.get 0 e + n.setWidth 32 else (ctx s c).e.get 0 k := by
  rw [addEvent, ctx_updCtx_same, Tab.get_upd, BitVec.ofNat_toNat]

theorem shapes_advancePc (c words : Nat) (s : State) : (advancePc c words s).shapes = s.shapes := advancePc_keeps State.shapes (fun _ _ => rfl) c words s

theorem shapes_meetTruth (v : Nat) (s : State) (l : Nat) : (meetTruth v s l).shapes = s.shapes := by
  simp only [meetTruth]
  split
  · rfl
  · rw [updLaunch_shapes]
    split <;> rfl

/-- A truth is published into a slot that holds none (R117). -/
theorem shapes_publish (s : State) (part slot v : Nat) : ((publish s part slot v).shapes.get 0 (part * 1024 + slot)).toNat =
    if bitAt (s.shapes.get 0 (part * 1024 + slot)).toNat 16 then (s.shapes.get 0 (part * 1024 + slot)).toNat else v % 2 ^ 16 + 2 ^ 16 := by
  simp only [publish]
  split
  · rfl
  · rw [foldl_keeps (g := State.shapes) (fun t l => shapes_meetTruth _ t l), Tab.get_set, if_pos rfl, BitVec.toNat_ofNat]
    omega

/-! ### O45 -/

/-- Settles O45, by both sides of each threshold. -/
theorem streamEvents : Obligations.StreamEvents := by
  unfold Obligations.StreamEvents
  intro s d a ev imm n slot pct cl
  refine ⟨fun h => ⟨fun hm => ?waite, fun hm => ?waits, ?sige, fun ht hp => ?remote, fun ht => ?noContext, fun ht hp => ?foreign,
    fun hv => ?publish, fun hv => ?tooGreat, ?clear⟩, fun h => ⟨?deadline, ?prio⟩⟩
  case waite => exact does_of_executes (w := inBody) h rfl (if_pos (congrArg not hm))
  case waits =>
    exact waits_of_executes (w := inBody) h rfl (if_neg (Bool.not_eq_true _ ▸ congrArg not hm)) (fun _ => rfl)
  case sige =>
    have does : Does (.sige d a ev n) 1 s (setQ s.curCtx d.toNat ((evCount (addEvent s.curCtx ev.toNat n.toNat s) s.curCtx ev.toNat).setWidth 64)
        (addEvent s.curCtx ev.toNat n.toNat s)) := does_of_executes (w := inBody) h rfl rfl
    refine ⟨_, does, ?_, fun hd => ?_, fun k hk => ?_⟩
    · rw [e_advancePc_setQ, e_addEvent, if_pos rfl]
    · have hd' : d.toNat ≠ 0 := fun h0 => hd (BitVec.eq_of_toNat_eq h0)
      rw [qReg_advancePc, qReg_setQ, if_pos ⟨rfl, hd'⟩, evCount, e_addEvent, if_pos rfl]
    · rw [e_advancePc_setQ, e_addEvent, if_neg hk]
  case remote => exact does_of_executes (w := inBody) h rfl ((if_neg (not_le.2 ht)).trans (if_neg (not_not.2 hp)))
  case noContext => exact faults_of_executes (w := inBody) h rfl (if_pos ht)
  case foreign => exact faults_of_executes (w := inBody) h rfl ((if_neg (not_le.2 ht)).trans (if_pos hp))
  case publish =>
    refine ⟨_, does_of_executes (w := inBody) h rfl (if_neg (not_lt.2 hv)), ?_⟩
    rw [shapes_advancePc, shapes_publish, Nat.mod_eq_of_lt (show fieldW (qReg s s.curCtx a.toNat) 0 32 < 2 ^ 16 from Nat.lt_succ_of_le hv)]
  case tooGreat => exact faults_of_executes (w := inBody) h rfl (if_pos hv)
  case clear =>
    have does : Does (.shpubClr slot) 1 s (unpublish s (ctx s s.curCtx).part.toNat slot.toNat) := does_of_executes (w := inBody) h rfl rfl
    refine ⟨_, does, ?_⟩
    rw [shapes_advancePc, unpublish, Tab.get_set, if_pos rfl]
  case deadline => exact does_of_executes (w := anywhere) h rfl rfl
  case prio => exact does_of_executes (w := anywhere) h rfl rfl

end Sys2Proof.Machine
end

section
/-! Launches of stream code: LAUNCH, LAUNCHP and COLL (R111-R118, R132, R140). -/

namespace Sys2Proof.Machine

open Sys2Proof.Safety

/-! ### What the end of a page move leaves (R189, R193) -/

/-- The contexts, the launches and the pins of two states are the same. -/
structure MovesLeave (s t : State) : Prop where
  ctxs : t.ctxs = s.ctxs
  launches : t.launches = s.launches
  pins : ∀ d, (hasp t d).pins = (hasp s d).pins

theorem MovesLeave.refl (s : State) : MovesLeave s s := ⟨rfl, rfl, fun _ => rfl⟩

theorem MovesLeave.after {s t u : State} (h' : MovesLeave t u) (h : MovesLeave s t) : MovesLeave s u :=
  ⟨h'.ctxs.trans h.ctxs, h'.launches.trans h.launches, fun d => (h'.pins d).trans (h.pins d)⟩

theorem movesLeave_updHasp (s : State) (d : Nat) (f : Hasp → Hasp) (hf : ∀ x, (f x).pins = x.pins) : MovesLeave s (updHasp s d f) := by
  refine ⟨rfl, rfl, fun k => ?_⟩
  rw [hasp_updHasp]
  split
  · next h => rw [hf, h]
  · rfl

theorem movesLeave_sendMsix (e : Nat) (s : State) : MovesLeave s (sendMsix e s) := by
  unfold sendMsix
  split <;> exact ⟨rfl, rfl, fun _ => rfl⟩

theorem movesLeave_writeLeaf (die p : Nat) (s : State) : MovesLeave s (writeLeaf die p s) := by
  obtain ⟨tlb, mem, ptw, changed⟩ := writeLeaf_changes die p s
  rw [changed]
  exact ⟨rfl, rfl, fun _ => rfl⟩

theorem movesLeave_bytes (s : State) (m : Memory) (q : Tab Bool) : MovesLeave s { s with mem := m, poison := q } := ⟨rfl, rfl, fun _ => rfl⟩

theorem movesLeave_settlePage (h page : Nat) (s : State) : MovesLeave s (settlePage h page s) := by
  refine (movesLeave_writeLeaf _ _ _).after ?_
  split
  · exact .refl s
  · exact movesLeave_bytes s _ _

theorem movesLeave_hforceEnd (d why : Nat) (s : State) : MovesLeave s (hforceEnd d why s) :=
  (movesLeave_sendMsix 3 _).after (movesLeave_updHasp s d _ fun _ => rfl)

theorem movesLeave_nextPage (h : Nat) (s : State) : MovesLeave s (nextPage h s) := movesLeave_updHasp s (handleDie h) _ fun _ => rfl

theorem movesLeave_dropMove (h : Nat) (s : State) : MovesLeave s (dropMove h s) := movesLeave_updHasp s (handleDie h) _ fun _ => rfl

theorem movesLeave_updRec (h : Nat) (f : TRec → TRec) (s : State) : MovesLeave s (updRec s h f) := ⟨rfl, rfl, fun _ => rfl⟩

/-- The page of an exchange that has begun comes in. -/
theorem movesLeave_exchanged (x : Move) (s : State) :
    MovesLeave s (nextPage x.h (settlePage x.h x.page { s with pages := s.pages.set false (pageKey s x.h x.page) true })) :=
  (movesLeave_nextPage _ _).after ((movesLeave_settlePage _ _ _).after ⟨rfl, rfl, fun _ => rfl⟩)

theorem movesLeave_abandonMove (h : Nat) (s : State) : MovesLeave s (abandonMove h s) := by
  have dropped (t : State) (ht : MovesLeave s t) : MovesLeave s (updRec (dropMove h t) h (fun r => { r with busy := false })) :=
    (movesLeave_updRec _ _ _).after ((movesLeave_dropMove h t).after ht)
  simp only [abandonMove]
  split
  · next m _ =>
    split
    · exact .refl s
    · cases inExchange s m with
      | none =>
        split
        · exact (movesLeave_hforceEnd _ _ _).after (dropped s (.refl s))
        · exact dropped s (.refl s)
      | some x =>
        split
        · exact (movesLeave_hforceEnd _ _ _).after (dropped _ (movesLeave_exchanged x s))
        · exact dropped _ (movesLeave_exchanged x s)
  · exact .refl s

theorem movesLeave_pin (h : Nat) (s : State) : MovesLeave s (pin h s) := (movesLeave_updRec _ _ _).after (movesLeave_abandonMove h s)

theorem movesLeave_pins (l : List Nat) (s : State) : MovesLeave s (l.foldl (fun s h => pin h s) s) := by
  induction l generalizing s with
  | nil => exact .refl s
  | cons h l ih => exact (ih _).after (movesLeave_pin h s)

/-! ### Entries of the launch queue (R114, R140) -/

/-- The entry a launch takes in the queue, where `s` is the state it is issued in. -/
structure Entered (s : State) (c : Nat) (l e : Launch) : Prop where
  state : e.state = .waitEv
  step : e.step = (ctx s c).step + 1
  ops : e.ops = l.ops
  args : e.args = l.args
  waits : e.waits = l.waits
  part : e.part = (ctx s c).part.toNat
  actor : e.ctx = actsFor s c
  sig : e.sig = l.sig

/-- The state in which a launch takes its entry: STEP has risen and a number is taken. -/
def stepped (c : Nat) (s : State) : State := { updCtx s c (fun x => { x with step := x.step + 1 }) with nextId := s.nextId + 1 }

theorem ctx_stepped (c : Nat) (s : State) : ctx (stepped c s) c = { ctx s c with step := (ctx s c).step + 1 } := ctx_updCtx_same _ _ _

/-- What an entry of the queue pins (R144). -/
def pinsOf (l : Launch) : List Nat :=
  (l.ops.map opHandle ++ (if l.plMode = 1 then [ptrH l.plTable] else []) ++ (if l.what = .tasks then [ptrH l.entry] else [])).filter (fun h => !isPageTable h)

/-- A launch as its context enters it, where STEP has risen. -/
def queueEntry (c : Nat) (l : Launch) (s : State) : Launch :=
  { l with
    die := ctxDie c, ctx := actsFor s c, part := (ctx s c).part.toNat, cls := queueClass s c, step := (ctx s c).step, state := .waitEv,
    margin := (ctx s c).margin.toNat, reserved := (ctx s c).sub.isNone && decide (queueHeld s c < 8), bracket := (ctx s c).bracket.map (fun b => b.num),
    sub := (ctx s c).sub, pins := pinsOf l }

/-- What a bracket counts of a launch. -/
def counted (n : Nat) (l : Launch) (x : Ctx) : Ctx :=
  { x with bracket := x.bracket.map (fun b => { b with ids := b.ids ++ [n], cycles := Nat.min (2 ^ 48 - 1) (b.cycles + l.dlcyc * (l.gx * l.gy * l.gz)) }) }

/-- A launch is entered under the next number, what it names is pinned, and a bracket of its context counts it. -/
theorem enqueue_eq (c : Nat) (l : Launch) (s : State) : enqueue c l s =
    updCtx ((pinsOf l).foldl (fun s h => pin h s) { stepped c s with launches := s.launches.set .zero s.nextId (queueEntry c l (stepped c s)) }) c
      (counted s.nextId l) := rfl

theorem queueEntry_stepped (c : Nat) (l : Launch) (s : State) : Entered s c l (queueEntry c l (stepped c s)) := by
  constructor <;> simp only [queueEntry, actsFor, ctx_stepped]
  rfl

/-- STEP rises by one, and the entry stands under its number. -/
theorem enqueue_enters (c : Nat) (l : Launch) (s : State) :
    (ctx (enqueue c l s) c).step = (ctx s c).step + 1 ∧ Entered s c l (launchOf (enqueue c l s) s.nextId) := by
  obtain ⟨hctxs, hlaunches, -⟩ := movesLeave_pins (pinsOf l) { stepped c s with launches := s.launches.set .zero s.nextId (queueEntry c l (stepped c s)) }
  rw [enqueue_eq, ctx_updCtx_same]
  constructor
  · exact (congrArg (fun t : Tab Ctx => (t.get .zero c).step) hctxs).trans (congrArg Ctx.step (ctx_stepped c s))
  · rw [launchOf_updCtx, launchOf, hlaunches, Tab.get_set, if_pos rfl]
    exact queueEntry_stepped c l s

/-! ### Records that stand (R114-R116) -/

/-- A record that stands is issued as its launch, as more checks and changes leave it. -/
theorem issueLaunch_of_record {s : State} {p : Word} {ins : LaunchIns} {b args : List Byte} (h : RecordStands s p ins b args) {sig : Option Nat}
    {more : List Byte → Launch → State → Except (BitVec 8 × Nat) (Launch × State)} {l : Launch} {t : State}
    (hm : more b (recLaunch b args (launchInputs s ins) sig) s = .ok (l, t)) :
    issueLaunch s.curCtx p ins sig more s = if queueFree s s.curCtx then .next (enqueue s.curCtx l t) else .wait s .queue := by
  obtain ⟨hdr, hhdr, header, hb, record, bracket, hargs⟩ := h
  have inputs : thresholds s s.curCtx ins = launchInputs s ins := rfl
  simp only [issueLaunch, hhdr, header, hb, record, inputs, bracket, Bool.not_true, Bool.false_eq_true, if_false, hargs, hm]

theorem extentOn_withExtent (l : Launch) (pr : Option Pred) (dim n : Nat) : extentOn { withExtent l dim n with pred := pr } dim = n := by
  simp only [extentOn, withExtent]
  split
  · rfl
  · split <;> rfl

/-- LAUNCHP's extent is the slot's truth within the record's, or a prediction between the least extent and the record's (R116). -/
theorem extent_of_addPrediction {c min : Nat} {pr : PredFields} {l l' : Launch} {s t : State} (h : addPrediction c min pr l s = .ok (l', t)) :
    let slot := (s.shapes.get 0 ((ctx s c).part.toNat * 1024 + pr.slot.toNat)).toNat
    (bitAt slot 16 = true → extentOn l' pr.dim.toNat = Nat.min (slot % 2 ^ 16) (extentOn l pr.dim.toNat)) ∧
    (bitAt slot 16 = false → min ≤ extentOn l' pr.dim.toNat ∧ extentOn l' pr.dim.toNat ≤ extentOn l pr.dim.toNat) := by
  simp only [addPrediction] at h
  split at h
  · cases h
  · next within =>
    cases h
    refine ⟨fun known => ?_, fun unknown => ?_⟩
    · rw [extentOn_withExtent, if_pos known, bitsOf, pow_zero, Nat.div_one]
    · rw [extentOn_withExtent, if_neg (by rw [unknown]; decide)]
      have low := Nat.le_max_left min (predict s (ctxDie c) (ctx s c).part.toNat pr).1
      exact ⟨Nat.le_min.2 ⟨Nat.not_lt.1 within, low⟩, Nat.min_le_left _ _⟩

/-! ### O46 -/

/-- What waits for a free entry waits, and what finds one enters it. -/
theorem queues_of_executes {i : Instr} {words : Nat} {w : Where} {g : State → SRes} {s t : State} (h : Executes w.bracket w.body s)
    (he : exec i s = .next (runStream words w s.curCtx g s)) (hg : g s = if queueFree s s.curCtx then .next t else .wait s .queue) :
    (queueFree s s.curCtx = true → Does i words s t) ∧ (queueFree s s.curCtx = false → Waits i words .queue s) :=
  ⟨fun free => does_of_executes h he (hg.trans (if_pos free)), fun full => waits_of_executes h he (hg.trans (if_neg (by rw [full]; decide))) fun _ => rfl⟩

/-- Settles O46: a record that stands is issued as its launch, which enters the queue or waits for a place in it. -/
theorem streamLaunches : Obligations.StreamLaunches := by
  unfold Obligations.StreamLaunches
  intro s a b ev sig ins pr rec_ args desc
  refine ⟨fun h stands => ?launch, fun h => ⟨fun stands hdim l' s' hl => ?launchp, fun hdim => ?dimension, fun hdesc hchecks => ?coll⟩⟩
  case launch =>
    have ⟨enters, waits⟩ := queues_of_executes (i := .launch a ev sig ins) (words := 2) (w := anywhere) h rfl (issueLaunch_of_record stands rfl)
    refine ⟨fun free => ⟨enters free, ?_⟩, waits⟩
    obtain ⟨hstep, entered⟩ := enqueue_enters s.curCtx (recLaunch rec_ args (launchInputs s ins) (if sig = 1 then some ev.toNat else none)) s
    exact ⟨hstep, entered.state, entered.step, entered.ops, entered.args, entered.waits, entered.part, entered.actor, entered.sig⟩
  case launchp =>
    have notThree : ¬ pr.dim = 3 := fun h3 => by rw [h3] at hdim; exact absurd hdim (by decide)
    have ⟨enters, waits⟩ := queues_of_executes (i := .launchp a b ev sig ins pr) (words := 3) (w := inBody) h rfl
      ((if_neg notThree).trans (issueLaunch_of_record stands hl))
    exact ⟨enters, waits, extent_of_addPrediction hl⟩
  case dimension => exact faults_of_executes (w := inBody) h rfl (if_pos (BitVec.eq_of_toNat_eq hdim))
  case coll =>
    refine queues_of_executes (w := inBody) h rfl ?_
    simp only [hdesc, hchecks]

end Sys2Proof.Machine
end

section
/-! Tensors, recipes and expansions of stream code (R121-R129, R134-R136). -/

namespace Sys2Proof.Machine

open Sys2Proof.Safety

/-! ### Tensors a context names (R122) -/

theorem namedTensor_of_named {s : State} {c : Nat} {p : Word} (h : isGlobal p = true ∧ declared s (ctx s c).part.toNat (ptrH p) = true) :
    namedTensor s c p = some (ptrH p) := if_pos h

theorem namedTensor_of_not_named {s : State} {c : Nat} {p : Word} (h : ¬ (isGlobal p = true ∧ declared s (ctx s c).part.toNat (ptrH p) = true)) :
    namedTensor s c p = none := if_neg h

/-- A tensor that has been freed is declared no more. -/
theorem not_freeing_of_declared {s : State} {part h : Nat} (hd : declared s part h = true) : (trec s h).freeing = false := by
  simp only [declared, Bool.and_eq_true, Bool.not_eq_true'] at hd
  exact hd.1.1.2

theorem globalPtr_start (h : Nat) : globalPtr h 0 = BitVec.ofNat 64 (2 ^ 63 + h % 2 ^ 23 * 2 ^ 40) := by rw [globalPtr, Nat.zero_mod, Nat.add_zero]

/-- Every instruction that names no tensor of the partition faults with UNDECLARED. -/
theorem undeclared_of_executes {s : State} (h : Executes false true s) {a : BitVec 5} (hn : namedTensor s s.curCtx (qReg s s.curCtx a.toNat) = none)
    (b : BitVec 5) (llc : BitVec 1) (fl : BitVec 4) :
    ∀ i ∈ [Instr.tfree a, .tpin a b llc, .tuse a b, .tprot a fl], Faults i 1 codeUndeclared 0 s := by
  intro i hi
  simp only [List.mem_cons, List.not_mem_nil, or_false] at hi
  obtain rfl | rfl | rfl | rfl := hi
  all_goals
    refine faults_of_executes (w := inBody) h rfl ?_
    simp only [hn]

theorem hasp_advancePc (c words : Nat) (s : State) (d : Nat) : hasp (advancePc c words s) d = hasp s d :=
  advancePc_keeps (hasp · d) (fun _ _ => rfl) c words s

theorem trec_advancePc (c words : Nat) (s : State) (h : Nat) : trec (advancePc c words s) h = trec s h :=
  advancePc_keeps (trec · h) (fun _ _ => rfl) c words s

theorem mdir_advancePc (c words : Nat) (s : State) (d i : Nat) : mdir (advancePc c words s) d i = mdir s d i :=
  advancePc_keeps (mdir · d i) (fun _ _ => rfl) c words s

theorem mwords_advancePc (c words : Nat) (s : State) : (advancePc c words s).mwords = s.mwords := advancePc_keeps State.mwords (fun _ _ => rfl) c words s

theorem mtags_advancePc (c words : Nat) (s : State) : (advancePc c words s).mtags = s.mtags := advancePc_keeps State.mtags (fun _ _ => rfl) c words s

/-! ### TPIN and TUNPIN (R123) -/

/-- A tensor pinned: what moves of it ends, and its entry is the last of its die's. -/
def pinned (h : Nat) (e : PinEntry) (s : State) : State :=
  let t := updHasp (abandonMove h s) (handleDie h) (fun x => { x with pins := x.pins ++ [e] })
  if e.llc then updRec t h (fun r => { r with state := .llcpin }) else t

theorem pins_pinned (h : Nat) (e : PinEntry) (s : State) : (hasp (pinned h e s) (handleDie h)).pins = (hasp s (handleDie h)).pins ++ [e] := by
  have entered : (hasp (updHasp (abandonMove h s) (handleDie h) (fun x => { x with pins := x.pins ++ [e] })) (handleDie h)).pins =
      (hasp s (handleDie h)).pins ++ [e] := by
    rw [hasp_updHasp, if_pos rfl, (movesLeave_abandonMove h s).pins]
  rw [pinned]
  split
  · exact entered
  · exact entered

theorem state_pinned {h : Nat} {e : PinEntry} (s : State) (he : e.llc = true) : (trec (pinned h e s) h).state = .llcpin := by
  rw [pinned, if_pos he, trec_updRec, if_pos rfl]

/-- A tensor whose entry has gone: a pinned LLC tensor without another such entry is in HBM4E again. -/
def unpinned (h : Nat) (e : PinEntry) (s : State) : State :=
  let t := pinDropped h (updHasp s (handleDie h) (fun x => { x with pins := x.pins.erase e }))
  if (trec t h).state = .llcpin ∧ !(hasp t (handleDie h)).pins.any (fun q => q.llc && ptrH q.ptr == h) then updRec t h (fun r => { r with state := .hbm })
  else t

theorem pins_unpinned (h : Nat) (e : PinEntry) (s : State) : (hasp (unpinned h e s) (handleDie h)).pins = (hasp s (handleDie h)).pins.erase e := by
  have erased : (hasp (pinDropped h (updHasp s (handleDie h) (fun x => { x with pins := x.pins.erase e }))) (handleDie h)).pins =
      (hasp s (handleDie h)).pins.erase e := congrArg Hasp.pins ((hasp_updHasp s _ _ _).trans (if_pos rfl))
  rw [unpinned]
  split
  · exact erased
  · exact erased

section

variable {s : State} (h : Executes false true s) {a b : BitVec 5} {llc : BitVec 1} {p : Word} {n : Nat} (hp : qReg s s.curCtx a.toNat = p)
  (hn : (qReg s s.curCtx b.toNat).toNat = n)

include h hp hn

/-- TPIN of bytes of a tensor that is there, where entries and the LLC have room. -/
theorem tpin_of_named (hnamed : namedTensor s s.curCtx p = some (ptrH p)) (h0 : n ≠ 0) (hin : ptrO p + n ≤ (trec s (ptrH p)).bytes)
    (hroom : (hasp s (handleDie (ptrH p))).pins.length < 4096) (hready : isReady s (ptrH p) = true)
    (hllc : llc = 1 → llcPinned s (handleDie (ptrH p)) + n ≤ 64 * 2 ^ 20) :
    Does (.tpin a b llc) 1 s (pinned (ptrH p) { ptr := p, len := n, llc := llc == 1 } s) := by
  have roomy : ¬ (4096 ≤ (hasp s (handleDie (ptrH p))).pins.length ∨ llc = 1 ∧ 64 * 2 ^ 20 < llcPinned s (handleDie (ptrH p)) + n) := by
    rintro (full | ⟨h1, much⟩)
    · exact absurd hroom (Nat.not_lt.2 full)
    · exact absurd (hllc h1) (Nat.not_le.2 much)
  refine does_of_executes (w := inBody) h rfl ?_
  simp only [hp, hn, hnamed]
  rw [if_neg (by omega), if_neg roomy, hready]
  simp only [pinned, beq_iff_eq]
  rfl

/-- TUNPIN takes away the first entry with its pointer and length. -/
theorem tunpin_of_found {e : PinEntry} (hnamed : namedTensor s s.curCtx p = some (ptrH p))
    (hfreed : ¬ (isGlobal p = true ∧ (trec s (ptrH p)).freeing = true ∧ (trec s (ptrH p)).part = (ctx s s.curCtx).part))
    (hf : (hasp s (handleDie (ptrH p))).pins.find? (fun e => e.ptr == p && e.len == n) = some e) :
    Does (.tunpin a b) 1 s (unpinned (ptrH p) e s) := by
  refine does_of_executes (w := inBody) h rfl ?_
  simp only [hp, hn, hnamed, Option.bind_some, hf]
  exact if_neg hfreed

/-- TUNPIN of no entry is BOUNDS. -/
theorem tunpin_of_absent (hfreed : ¬ (isGlobal p = true ∧ (trec s (ptrH p)).freeing = true ∧ (trec s (ptrH p)).part = (ctx s s.curCtx).part))
    (hf : (namedTensor s s.curCtx p).bind (fun h => (hasp s (handleDie h)).pins.find? (fun e => e.ptr == p && e.len == n)) = none) :
    Faults (.tunpin a b) 1 codeBounds 0 s := by
  refine faults_of_executes (w := inBody) h rfl ?_
  simp only [hp, hn, hf]
  exact if_neg hfreed

end

/-! ### Recipe brackets (R127-R129) -/

section

variable {s : State} {c h i : Nat} {r : Bracket}

/-- A bracket records its recipe under the index of its output. -/
theorem closeBracket_of_recorded (hids : r.ids = []) (hd : declared s (ctx s c).part.toNat r.out = true) (ht : r.maxT ≤ (ctx s c).pc.toNat)
    (hfailed : r.failed = false) (hin : (bracketRecipe s c r).inputs.length ≤ 16) (hi : (trec s r.out).recix = some i) :
    closeBracket c r s = .next (updRec (updCtx { s with recipes := s.recipes.set .zero (recipeKey (handleDie r.out) i) (bracketRecipe s c r) } c
      (fun x => { x with bracket := none })) r.out (fun t => { t with recix := some i, rvalid := true })) := by
  simp only [closeBracket, hids, ne_eq, not_true_eq_false, if_false, hd, Bool.not_true, Bool.false_eq_true, if_neg (Nat.not_lt.2 ht), hfailed,
    if_neg (Nat.not_lt.2 hin), hi]

/-- TREC.CLOSE of a bracket whose launches have gone, outside a sub-stream. -/
theorem trecClose_of_bracket {t : State} (he : Executes true false s) (hsub : (ctx s s.curCtx).sub = none) (hb : (ctx s s.curCtx).bracket = some r)
    (hc : closeBracket s.curCtx r s = .next t) : Does .trecClose 1 s t := by
  refine does_of_executes (w := ⟨!(ctx s s.curCtx).sub.isSome, false⟩) (by rwa [hsub]) rfl ?_
  simp only [hb, hc]

theorem recipes_advancePc (c words : Nat) (s : State) : (advancePc c words s).recipes = s.recipes := advancePc_keeps State.recipes (fun _ _ => rfl) c words s

theorem bracket_advancePc (c words : Nat) (s : State) : (ctx (advancePc c words s) c).bracket = (ctx s c).bracket := by
  obtain ⟨f, hf, keeps⟩ := advancePc_eq_updCtx c words s
  rw [hf, ctx_updCtx_same, (keeps _).2.2]

end

/-! ### Expansions (R134-R136) -/

/-- The words of a body and their tags, as MLOAD enters them one by one. -/
theorem words_entered (base : Nat) (u : Nat → Word) (v : Nat → BitVec 4) (s : State) (n : Nat) :
    let t := (List.range n).foldl (fun s k => { s with mwords := s.mwords.set 0 (base + k) (u k), mtags := s.mtags.set 0 (base + k) (v k) }) s
    ∀ k < n, t.mwords.get 0 (base + k) = u k ∧ t.mtags.get 0 (base + k) = v k := by
  induction n with
  | zero => exact fun k hk => absurd hk (Nat.not_lt_zero k)
  | succ n ih =>
    intro t k hk
    simp only [t, List.range_succ, List.foldl_append, List.foldl_cons, List.foldl_nil, Tab.get_set, Nat.add_right_inj]
    rcases Nat.lt_succ_iff_lt_or_eq.1 hk with hlt | rfl
    · rw [if_neg (Nat.ne_of_lt hlt), if_neg (Nat.ne_of_lt hlt)]
      exact ih k hlt
    · rw [if_pos rfl, if_pos rfl]
      exact ⟨rfl, rfl⟩

theorem leNat_lt (b : List Byte) : leNat b < 256 ^ b.length := by
  induction b with
  | nil => exact Nat.one_pos
  | cons x b ih =>
    have hx := x.isLt
    rw [leNat, List.length_cons, Nat.pow_succ]
    omega

theorem fieldB_lt (b : List Byte) (off : Nat) : fieldB b off 8 < 2 ^ 64 := calc
  fieldB b off 8 < 256 ^ ((b.drop off).take 8).length := leNat_lt _
  _ ≤ 256 ^ 8 := Nat.pow_le_pow_right (by decide) (List.length_take_le 8 _)
  _ = 2 ^ 64 := by norm_num

/-- The words and tags of a body that MLOAD reads. -/
def bodyWords (d start len : Nat) (body : List Byte) (s : State) : State :=
  let word := fun (k : Nat) => BitVec.ofNat 64 (fieldB body (8 * k) 8)
  (List.range len).foldl (fun s k => { s with
    mwords := s.mwords.set 0 (d * 4096 + start + k) (word (1 + k)),
    mtags := s.mtags.set 0 (d * 4096 + start + k) (BitVec.ofNat 4 (fieldW (word (1 + len + k / 16)) (4 * (k % 16)) 4)) }) s

theorem ctx_bodyWords (d start len : Nat) (body : List Byte) (s : State) (c : Nat) : ctx (bodyWords d start len body s) c = ctx s c := by
  have kept : (bodyWords d start len body s).ctxs = s.ctxs := by
    refine foldl_keeps (g := State.ctxs) (fun _ _ => ?_) _ s
    rfl
  exact congrArg (fun t : Tab Ctx => t.get .zero c) kept

/-- The state MLOAD leaves: the body's words and its entry of the directory. -/
def bodyLoaded (d i start len : Nat) (part : BitVec 3) (body : List Byte) (s : State) : State :=
  let t := bodyWords d start len body s
  { t with mdirs := t.mdirs.set .zero (d * 256 + i) { start := start, len := len, part := part, valid := true } }

theorem mdir_bodyLoaded (d i start len : Nat) (part : BitVec 3) (body : List Byte) (s : State) :
    mdir (bodyLoaded d i start len part body s) d i = { start := start, len := len, part := part, valid := true } := by
  rw [mdir, bodyLoaded, Tab.get_set, if_pos rfl]

theorem words_bodyLoaded (d i start len : Nat) (part : BitVec 3) (body : List Byte) (s : State) {k : Nat} (hk : k < len) :
    ((bodyLoaded d i start len part body s).mwords.get 0 (d * 4096 + start + k)).toNat = fieldB body (8 * (1 + k)) 8 ∧
    ((bodyLoaded d i start len part body s).mtags.get 0 (d * 4096 + start + k)).toNat =
      fieldB body (8 * (1 + len + k / 16)) 8 / 2 ^ (4 * (k % 16)) % 16 := by
  have value (off : Nat) : (BitVec.ofNat 64 (fieldB body off 8)).toNat = fieldB body off 8 := Nat.mod_eq_of_lt (fieldB_lt body off)
  obtain ⟨hword, htag⟩ := words_entered (d * 4096 + start) (fun k => BitVec.ofNat 64 (fieldB body (8 * (1 + k)) 8))
    (fun k => BitVec.ofNat 4 (fieldW (BitVec.ofNat 64 (fieldB body (8 * (1 + len + k / 16)) 8)) (4 * (k % 16)) 4)) s len k hk
  refine ⟨(congrArg BitVec.toNat hword).trans (value _), (congrArg BitVec.toNat htag).trans ?_⟩
  rw [toNat_ofNat_fieldW, fieldW, value, bitsOf]
  rfl

section

variable {s : State} (h : Executes false false s)

include h

/-- MACRO of an entry of the partition (R136): the parameters that are not given are open. -/
theorem streamMacro_of_valid {m : BitVec 8} {n : BitVec 4} {a : BitVec 5} (hn : n.toNat ≤ 8) (ha : a.toNat + n.toNat ≤ 32)
    (hv : (mdir s (ctxDie s.curCtx) m.toNat).valid = true) (hp : (mdir s (ctxDie s.curCtx) m.toNat).part = (ctx s s.curCtx).part) :
    ∃ unset, exec (.streamMacro m n a) s = .next (updCtx { s with free := s.free + 8 } s.curCtx (fun x => { x with
      inmac := true, mret := true, mindex := m, mpos := 0, mparams := (List.range n.toNat).map (fun i => qReg s s.curCtx (a.toNat + i)) ++ unset,
      woken := false })) := by
  have usable : ¬ (8 < n.toNat ∨ 32 < a.toNat + n.toNat ∨ (!(mdir s (ctxDie s.curCtx) m.toNat).valid) = true) := by
    rw [hv]
    simp [hn, ha]
  exact ⟨_, stays_of_executes (w := plainOnly) h rfl ((if_neg usable).trans (if_neg (not_not.2 hp)))⟩

/-- MLOAD of a body that fits the code memory beside the other entries (R135). -/
theorem mload_of_body {a : BitVec 5} {hdr body : List Byte} {start len i : Nat} (hs : bitsOf (leNat hdr) 0 12 = start)
    (hl : bodyLen (bitsOf (leNat hdr) 12 12) = len) (hi : bitsOf (leNat hdr) 24 8 = i)
    (hhdr : recordRead s s.curCtx (qReg s s.curCtx a.toNat) 8 8 (fun _ => 0) = .ok hdr) (hw : leNat hdr < 2 ^ 32) (hend : start + len ≤ 4096)
    (hfree : ∀ k < 256, k ≠ i → (mdir s (ctxDie s.curCtx) k).valid = true →
      start + len ≤ (mdir s (ctxDie s.curCtx) k).start ∨ (mdir s (ctxDie s.curCtx) k).start + (mdir s (ctxDie s.curCtx) k).len ≤ start)
    (hpart : (mdir s (ctxDie s.curCtx) i).valid = true → (mdir s (ctxDie s.curCtx) i).part = (ctx s s.curCtx).part)
    (hheld : expands s s.curCtx i false = false) (hruns : expands s s.curCtx i true = false)
    (hown : (ctx s s.curCtx).inmac = true → (ctx s s.curCtx).mindex.toNat ≠ i)
    (hbody : recordRead s s.curCtx (qReg s s.curCtx a.toNat) (8 * (1 + len + (len + 15) / 16)) 8 (fun _ => 0) = .ok body) :
    Does (.mload a) 1 s (bodyLoaded (ctxDie s.curCtx) i start len (ctx s s.curCtx).part body s) := by
  have noHigh : ¬ leNat hdr / 2 ^ 32 ≠ 0 := not_not.2 (Nat.div_eq_of_lt hw)
  have noMeet : ¬ (List.range 256).any (fun k => k != i && (mdir s (ctxDie s.curCtx) k).valid &&
      rangesMeet start len (mdir s (ctxDie s.curCtx) k).start (mdir s (ctxDie s.curCtx) k).len) = true := by
    simp only [List.any_eq_true, List.mem_range, Bool.and_eq_true, bne_iff_ne, rangesMeet, decide_eq_true_eq]
    rintro ⟨k, hk, ⟨hne, hvalid⟩, hmeet⟩
    have := hfree k hk hne hvalid
    omega
  have samePart : ¬ ((mdir s (ctxDie s.curCtx) i).valid = true ∧ (mdir s (ctxDie s.curCtx) i).part ≠ (ctx s s.curCtx).part) :=
    fun ⟨hvalid, hne⟩ => hne (hpart hvalid)
  have notHeld : ¬ (expands s s.curCtx i false = true ∨ (ctx s s.curCtx).inmac = true ∧ (ctx s s.curCtx).mindex.toNat = i) := by
    rw [hheld]
    simpa using hown
  have notRun : ¬ expands s s.curCtx i true = true := by simp [hruns]
  refine does_of_executes (w := plainOnly) h rfl ?_
  simp only [hhdr, hs, hl, hi, if_neg noHigh, if_neg (Nat.not_lt.2 hend), if_neg noMeet, if_neg samePart, if_neg notHeld, if_neg notRun, hbody]
  rw [← congrArg Ctx.part (ctx_bodyWords (ctxDie s.curCtx) start len body s s.curCtx)]
  rfl

end

/-! ### O47 -/

/-- Settles O47, by whether the pointer names a tensor of the partition, by the state of the bracket, and by the directory of expansions. -/
theorem streamTensorsAndExpansions : Obligations.StreamTensorsAndExpansions := by
  unfold Obligations.StreamTensorsAndExpansions
  refine ⟨fun s s' d a b llc fl mask rec_ h => ⟨fun he => ⟨fun hrec hdecl => ?tdecl, fun hn => ⟨fun hfree => ?tfree, fun hwait => ?tfreeWaits⟩,
      fun hn hv hin hroom hready hllc => ?tpin, fun hn hentry => ?tunpin, fun hn => ?tuse, fun hn => ?tprot,
      fun hn => undeclared_of_executes he (namedTensor_of_not_named hn) b llc fl, fun hf => ?freed, fun hf habsent => ?absent⟩,
    fun he hn => ?recOpen, fun he hsub => ⟨fun hb => ?noBracket, fun r hb => ⟨fun hids => ?closeWaits, fun hids hd ht hfailed hin i hi => ?recClose⟩⟩⟩,
    fun s m n a hdr body he => ⟨fun hn ha hv hp => ?expansionBegins, fun hbad => ?expansionIllegal, fun hhdr hw hend hfree hpart hheld hruns hown hbody => ?mload⟩⟩
  case tdecl =>
    rw [← globalPtr_start]
    refine does_of_executes (w := inBody) he rfl ?_
    simp only [hrec, hdecl]
  case tfree =>
    refine does_of_executes (w := inBody) he rfl ?_
    simp only [namedTensor_of_named hn, hfree, Bool.false_eq_true, if_false]
  case tfreeWaits =>
    refine waits_of_executes (w := inBody) he rfl ?_ fun _ => rfl
    simp only [namedTensor_of_named hn, hwait, if_true]
  case tpin =>
    have positive : (qReg s s.curCtx b.toNat).toNat ≠ 0 := fun hz => hv (BitVec.eq_of_toNat_eq hz)
    refine ⟨_, tpin_of_named he rfl rfl (namedTensor_of_named hn) positive hin hroom hready hllc, ?_, fun hl => ?_⟩
    · rw [hasp_advancePc, pins_pinned]
    · rw [trec_advancePc, state_pinned s (beq_iff_eq.2 hl)]
  case tunpin =>
    have notFreed := not_freeing_of_declared hn.2
    have found : ((hasp s (handleDie (ptrH (qReg s s.curCtx a.toNat)))).pins.find?
        (fun e => e.ptr == qReg s s.curCtx a.toNat && e.len == (qReg s s.curCtx b.toNat).toNat)).isSome = true := by
      simpa [List.find?_isSome] using hentry
    obtain ⟨e, hfind⟩ := Option.isSome_iff_exists.1 found
    have member := List.mem_of_find?_eq_some hfind
    have matching := List.find?_some hfind
    simp only [Bool.and_eq_true, beq_iff_eq] at matching
    refine ⟨_, tunpin_of_found he rfl rfl (namedTensor_of_named hn) (by simp [notFreed]) hfind, ?_, e, member, matching.1, matching.2, ?_⟩
    · rw [hasp_advancePc, pins_unpinned, List.length_erase_of_mem member]
      have := List.length_pos_of_mem member
      omega
    · rw [hasp_advancePc, pins_unpinned]
  case tuse =>
    refine does_of_executes (w := inBody) he rfl ?_
    simp only [namedTensor_of_named hn]
  case tprot =>
    refine does_of_executes (w := inBody) he rfl ?_
    simp only [namedTensor_of_named hn]
  case freed => exact faults_of_executes (w := inBody) he rfl (if_pos hf)
  case absent =>
    refine tunpin_of_absent he rfl rfl hf ?_
    by_cases hn : isGlobal (qReg s s.curCtx a.toNat) = true ∧ declared s (ctx s s.curCtx).part.toNat (ptrH (qReg s s.curCtx a.toNat)) = true
    · rw [namedTensor_of_named hn, Option.bind_some, List.find?_eq_none]
      have others := habsent.resolve_left (not_not.2 hn)
      simpa using others
    · rw [namedTensor_of_not_named hn, Option.bind_none]
  case recOpen =>
    refine does_of_executes (w := plainOnly) he rfl ?_
    simp only [namedTensor_of_named hn]
    rfl
  case noBracket =>
    refine faults_of_executes (w := ⟨!(ctx s s.curCtx).sub.isSome, false⟩) (by rwa [hsub]) rfl ?_
    simp only [hb]
  case closeWaits =>
    refine waits_of_executes (w := ⟨!(ctx s s.curCtx).sub.isSome, false⟩) (by rwa [hsub]) rfl ?_ fun _ => rfl
    simp only [hb]
    exact if_pos hids
  case recClose =>
    refine ⟨_, trecClose_of_bracket he hsub hb (closeBracket_of_recorded hids hd ht hfailed hin hi), ?_⟩
    rw [bracket_advancePc, trec_advancePc, recipes_advancePc, ctx_updRec, ctx_updCtx_same, trec_updRec, if_pos rfl, updRec_recipes, updCtx_recipes,
      Tab.get_set, if_pos rfl]
    exact ⟨rfl, rfl, rfl, rfl⟩
  case expansionBegins =>
    obtain ⟨rest, hm⟩ := streamMacro_of_valid he hn ha hv hp
    refine ⟨_, hm, ?_⟩
    rw [ctx_updCtx_same]
    refine ⟨rfl, rfl, rfl, rfl, rfl, fun i hi => ?_⟩
    simp [nthD, List.getElem?_append, hi]
  case expansionIllegal =>
    refine faults_of_executes (w := plainOnly) he rfl (if_pos ?_)
    simpa using hbad
  case mload =>
    refine ⟨_, mload_of_body he rfl rfl rfl hhdr hw hend hfree hpart hheld hruns hown hbody, (mdir_advancePc ..).trans (mdir_bodyLoaded ..), fun k hk => ?_⟩
    rw [mwords_advancePc, mtags_advancePc]
    exact words_bodyLoaded _ _ _ _ _ _ _ hk

end Sys2Proof.Machine
end

section
/-! Recipe sub-streams, dependents, page walks, range tables and bounced data (R131, R168, R175, R176, R182, R196, R197). -/

namespace Sys2Proof.Machine

open Sys2Proof.Safety

/-! ### Recipe sub-streams (R131, R168, R197) -/

/-- The first waiting re-issue that may start takes the first free place of its die, with its recipe's registers. -/
theorem startSub_of_free {s : State} {d c : Nat} {r : Reissue} {p : Recipe} (hr : s.reissues = [r]) (hd : hostDie s (handleDie r.h) = d)
    (hg : dieGone s (handleDie r.h) = false) (hm : mayStart s r = true) (hc : (subCtxs d).find? (fun k => (ctx s k).sub.isNone) = some c)
    (hp : recipeOf s r.h = some p) :
    startSub d s = updReissue r.h (fun r => { r with sub := some c }) (updCtx s c (fun _ => { Ctx.zero with
      q := p.saved.foldl (fun q x => q.set 0 x.1 x.2) .empty, pc := BitVec.ofNat 48 p.lo, code := globalPtr p.code 0, cls := BitVec.ofNat 2 r.cls,
      part := BitVec.ofNat 3 r.part, state := .running, sub := some r.h })) := by
  simp only [startSub, hr, List.find?_cons, hd, hg, hm, hc, hp, BEq.rfl, Bool.not_false, Bool.and_self]

/-- A sub-stream that has ended and whose launches have gone ends its re-issue. -/
theorem endSub_of_ended {s : State} {h c : Nat} {r : Reissue} (hr : reissueOf s h = some r) (hc : r.sub = some c) (he : (ctx s c).state = .ended)
    (hl : ∀ l ∈ s.launches.cells, l.2.sub ≠ some h) :
    endSub h s = (if r.failed then reissueFailed h else reissueDone h) { s with ctxs := s.ctxs.set .zero c .zero } := by
  have gone : ¬ ((ctx s c).state ≠ .ended ∨ s.launches.cells.any (fun l => l.2.sub == some h) = true) := by
    rintro (hne | hany)
    · exact hne he
    · obtain ⟨l, hmem, hsub⟩ := List.any_eq_true.1 hany
      exact hl l hmem (beq_iff_eq.1 hsub)
  simp only [endSub, hr, hc, if_neg gone]
  split <;> rfl

/-! ### Address-range tables (R175) -/

/-- The entry of the home slice names its tensor with its size and place. -/
theorem homeEntry_fields {s : State} {launch h : Nat} {u : RangeEntry} (hu : homeEntry s launch h = some u) :
    u.h = h ∧ u.bytes = tensorBytes s h ∧ u.iapage = (trec s h).iapage := by
  simp only [homeEntry] at hu
  split at hu
  · cases hu
  · cases hu
    exact ⟨rfl, rfl, rfl⟩

theorem fillRange_of_entry {s : State} {c h : Nat} {u : RangeEntry} (hu : (taskOf s c).bind (fun t => homeEntry s t.launch h) = some u) :
    fillRange c h s = updCore s c (fun k => { k with artab := (u :: k.artab.filter (fun x => !(x.h == h && x.launch == u.launch))).take 256 }) := by
  simp only [fillRange, hu]

/-! ### Bounced data (R182) -/

theorem updHasp_congr {s : State} {d : Nat} {f g : Hasp → Hasp} (h : f (hasp s d) = g (hasp s d)) : updHasp s d f = updHasp s d g := by
  unfold hasp at h
  simp only [updHasp, Tab.upd, h]

section

variable {s : State} {h d : Nat} {x : Bounced} (hb : (hasp s d).bounce = [x]) (hx : x.h = h)

include hb hx

/-- The pager serves the one tensor that a die's bounce buffer holds data for. -/
theorem applyBounce_of_single : applyBounce d s = serveBounced h s := by
  rw [applyBounce, hb, List.map_singleton, hx]
  rfl

/-- Data of a resident tensor with room is written, and its sender is answered. -/
theorem applyBounced_of_single (hd : handleDie h = d) (hr : isResident (trec s h) = true) (hf : linkFits s h x.o x.bytes.length = true) :
    applyBounced h s = answerLine x.tag x.line none (linkWritten h (markPoison (storeGlob (updHasp s d (fun y => { y with bounce := [] })) h x.o x.bytes
      (allMask x.bytes.length)) (.glob h x.o) x.bad)) := by
  have mine : (x.h == h) = true := beq_iff_eq.2 hx
  have emptied : updHasp s d (fun y => { y with bounce := y.bounce.erase x }) = updHasp s d (fun y => { y with bounce := [] }) :=
    updHasp_congr (by rw [hb, List.erase_cons_head])
  simp only [applyBounced, hd, hb, List.filter_cons, mine, if_true, List.filter_nil, List.foldl_cons, List.foldl_nil, applyOne, List.find?_cons, hr, hf,
    Bool.not_true, Bool.false_eq_true, or_self, if_false, emptied]

end

/-! ### O58 -/

/-- Settles O58: each event takes the one re-issue, entry or bounced data that its hypotheses leave. -/
theorem recipesAndTables : Obligations.RecipesAndTables := by
  unfold Obligations.RecipesAndTables
  intro s h d c ia x k u r p rest
  refine ⟨fun hd hr hdie hg hm hc hp => ?start, fun hr hc he hl => ?complete, fun hheld hw hdep hre => ?dependent, fun hnone => ?noDependent,
    fun hd hv => ?walk, fun hc hk hu => ?fill, fun hd hb hx hdie hstate hfreeing => ⟨fun hlost => ?lost, fun hlost hres => ?absent, fun hlost hres hfits => ?apply⟩⟩
  case start =>
    refine makes_of (congrArg Host.Outcome.next ((if_pos hd).trans (startSub_of_free hr hdie hg hm hc hp))) ?_
    simp [updReissue, ctx, updCtx, hr]
  case complete => exact congrArg Host.Outcome.next (endSub_of_ended hr hc he hl)
  case dependent =>
    refine congrArg Host.Outcome.next ?_
    simp only [materialiseDependent, hw, Bool.not_true, Bool.false_eq_true, or_false, if_neg hheld, hdep, List.head?_cons, hre, Option.isSome_none, if_false]
  case noDependent =>
    refine congrArg Host.Outcome.next (if_pos ?_)
    rwa [Bool.not_eq_true']
  case walk =>
    refine makes_of (congrArg Host.Outcome.next ((if_pos hd).trans (if_pos hv))) ?_
    rw [Tab.get_set, if_pos rfl]
  case fill =>
    obtain ⟨hh, hbytes, hpage⟩ := homeEntry_fields hu
    have entry : (taskOf s c).bind (fun t => homeEntry s t.launch h) = some u := by rw [hk, Option.bind_some, hu]
    refine ⟨hh, hbytes, hpage, makes_of (congrArg Host.Outcome.next ((if_pos hc).trans (fillRange_of_entry entry))) ?_⟩
    rw [core_updCore, if_pos rfl]
    exact ⟨rfl, List.length_take_le _ _⟩
  case lost =>
    refine congrArg Host.Outcome.next ((if_pos hd).trans ((applyBounce_of_single hb hx).trans ?_))
    simp only [serveBounced, hstate, hfreeing, hlost, Bool.false_eq_true, or_self, if_false, if_true]
  case absent =>
    refine congrArg Host.Outcome.next ((if_pos hd).trans ((applyBounce_of_single hb hx).trans ?_))
    simp only [serveBounced, hstate, hfreeing, hlost, hres, Bool.not_false, Bool.false_eq_true, or_self, if_false, if_true]
  case apply =>
    refine congrArg Host.Outcome.next ((if_pos hd).trans ((applyBounce_of_single hb hx).trans ?_))
    rw [← applyBounced_of_single hb hx hdie hres hfits]
    simp only [serveBounced, hstate, hfreeing, hlost, hres, Bool.not_true, Bool.false_eq_true, or_self, if_false]

end Sys2Proof.Machine
end

section
/-! The machine never stops, words of the encoding tables, and what a step runs (R90-R93, R273, R320-R323, R437). -/

namespace Sys2Proof.Machine

open Sys2Proof.Safety

/-! ### O1 -/

/-- Settles O1: the meaning of each instruction and of each event is a next state by its definition, whatever the state. -/
theorem nothingStops : Obligations.NothingStops := by
  unfold Obligations.NothingStops
  intro i s
  cases i
  all_goals exact ⟨_, rfl⟩

/-! ### O5 -/

/-- Settles O5: nine words of the slot maps, of the microcode and of the stream map, and five that they refuse. -/
theorem wordsDecode : Obligations.WordsDecode := by
  unfold Obligations.WordsDecode
  exact ⟨rfl, rfl, rfl, rfl, rfl, rfl, rfl, rfl, rfl, rfl, rfl, rfl, rfl, rfl⟩

/-! ### What an actor runs -/

section

variable {s : State} {c : Nat} {i : Instr}

/-- The bundle at a core's PC with a single slot (R320, R321). -/
theorem fetchBundle_of_single {im : ImageInfo} {off hdr p w : Nat} (him : imageOf s c = some im)
    (hoff : fieldW (coreAt s c).b.r.pc 0 40 - im.codeOff = off) (hhdr : leNat (s.mem.bytes (storeKey c off) 4) = hdr)
    (hw : leNat (s.mem.bytes (storeKey c (off + 4)) 4) = w) (hok : headerOk hdr = true) (hp : slotsOf hdr = [p])
    (hlen : off + bundleLen hdr ≤ im.codeLen) (h8 : 8 ≤ bundleLen hdr) : fetchBundle s c = .ok (hdr, [(p, w)]) := by
  have slot : ((List.range 9).zip [p]).map (fun x => (x.2, leNat (s.mem.bytes (storeKey c (off + 4 * (x.1 + 1))) 4))) = [(p, w)] := by
    rw [← hw]
    rfl
  simp only [fetchBundle, him, hoff, Nat.mul_zero, Nat.add_zero, hhdr, hok, hp, Bool.not_true, Bool.false_eq_true, if_false]
  rw [if_neg (by omega), if_neg (by omega), slot]

/-- A core whose bundle has one slot runs the instruction of its word. -/
theorem coreTurn_of_single {hdr p w : Nat} (ht : (taskOf s c).isSome = true) (hf : fetchBundle s ((groupOf s c).headD c) = .ok (hdr, [(p, w)]))
    (hp : soleSlot p = true) (hi : decodeSlot p w = .ok i) :
    coreTurn c s = (setHeader (groupOf s c) hdr [w] { s with curCore := c }, some i) := by
  have task : ¬ (taskOf s c).isNone = true :=
    fun hn => Option.isSome_iff_ne_none.1 ht (Option.isNone_iff_eq_none.1 hn)
  simp only [coreTurn, if_neg task, hf, hi, hp, if_true]

/-- The instruction of the words at a context's PC (R92). -/
theorem fetchCode_of_words {w n : Nat} (hd : declared s (ctx s c).part.toNat (ptrH (ctx s c).code) = true)
    (hr : isReady s (ptrH (ctx s c).code) = true) (hg : dieGone s (handleDie (ptrH (ctx s c).code)) = false)
    (hw : readNat s (.glob (ptrH (ctx s c).code) (ctx s c).pc.toNat) 8 = w) (hn : bitsOf w 56 2 = n)
    (hin : (ctx s c).pc.toNat + 8 * (1 + n) ≤ (trec s (ptrH (ctx s c).code)).bytes)
    (hp : poisoned s (.glob (ptrH (ctx s c).code) (ctx s c).pc.toNat) (8 * (1 + n)) = false)
    (hp8 : poisoned s (.glob (ptrH (ctx s c).code) (ctx s c).pc.toNat) 8 = false)
    (hi : decodeStream w ((List.range n).map (fun j => readNat s (.glob (ptrH (ctx s c).code) ((ctx s c).pc.toNat + 8 + 8 * j)) 8)) = .ok i) :
    fetchCode s c = .instr i := by
  simp only [fetchCode, hd, hr, hg, hw, hn, hp, hp8, Bool.not_true, Bool.false_eq_true, if_false]
  rw [if_neg (by omega), if_neg (by omega), fetchedOf, hi]

/-- A context with no launch failure to take runs what it fetches (R90, R97). -/
theorem ctxTurn_of_instr (hc : c < 64) (hfails : (ctx s c).fails = []) (he : executes (ctx s c) = true) (hsub : (ctx s c).sub = none)
    (hf : fetchStream s c = .instr i) :
    ctxTurn c s = ({ (if (ctx s c).woken then s else dropHolds (fun _ => false) c s) with curCtx := c }, some i) := by
  simp only [ctxTurn, if_neg (show ¬ 96 ≤ c by omega), hfails, ne_eq, not_true_eq_false, false_and, if_false, he, Bool.not_true, Bool.false_eq_true, hsub,
    hf, onFetched]

end

/-! ### O6 -/

theorem step_of_runs {s t : State} {turn : Turn} {rest : List Turn} {i : Instr} (ha : s.agenda = turn :: rest)
    (ht : actorTurn turn.actor (passTime turn.us turn.clks (observe { s with agenda := rest })) = (t, some i)) : step s = exec i t := by
  simp only [step, ha, ht]

theorem step_of_rests {s t : State} {turn : Turn} {rest : List Turn} (ha : s.agenda = turn :: rest)
    (ht : actorTurn turn.actor (passTime turn.us turn.clks (observe { s with agenda := rest })) = (t, none)) : step s = .next t := by
  simp only [step, ha, ht]

/-- Settles O6, by the actor the turn names. -/
theorem stepRunsTheDecoded : Obligations.StepRunsTheDecoded := by
  unfold Obligations.StepRunsTheDecoded
  intro s turn rest c hdr p w n i im
  refine ⟨fun ha => ?idle, fun ha => ⟨fun hact hclk htask him hhdr hw hok hp hlen h8 hsole hi => ?core,
    fun hact hclk hc hfails he hsub hx hd hr hg hw hn hin hpoison hp8 hi => ?ctx, fun hact hclk hi => ?micro, fun hact hmay hm2 => ?event,
    fun hact hmay => ?held, fun v hact => ?world, fun via off m hact => ?read⟩⟩
  case idle => simp only [step, ha]
  case core =>
    refine step_of_runs ha ?_
    rw [hact]
    exact (if_pos hclk).trans (coreTurn_of_single htask (fetchBundle_of_single him rfl hhdr.symm hw.symm hok hp hlen h8) hsole hi)
  case ctx =>
    refine step_of_runs ha ?_
    rw [hact]
    refine (if_pos hclk).trans (ctxTurn_of_instr hc hfails he hsub ((if_neg (by rw [hx]; decide)).trans ?_))
    exact fetchCode_of_words hd hr hg hw.symm hn.symm hin hpoison hp8 hi
  case micro =>
    refine step_of_runs ha ?_
    rw [hact]
    exact (if_pos hclk).trans (congrArg (Prod.mk _) hi)
  case event =>
    refine step_of_runs ha ?_
    rw [hact]
    refine congrArg (Prod.mk _) ((if_neg (by rw [hmay]; decide)).trans (if_neg hm2))
  case held =>
    refine step_of_rests ha ?_
    rw [hact]
    exact congrArg (Prod.mk _) (if_pos (by rw [hmay]; rfl))
  case world =>
    refine step_of_rests ha ?_
    rw [hact]
    rfl
  case read =>
    refine step_of_rests ha ?_
    rw [hact]
    rfl

end Sys2Proof.Machine
end

section
/-! Launches from their queue to their end (R141-R169). -/

namespace Sys2Proof.Machine

open Sys2Proof.Safety

/-! ### The trim of a launch (R165) -/

section

variable {s : State} {l tr : Nat} {p : Pred}

/-- The shares are cut without a change to any core where the truth squashes no running task. -/
theorem cores_cutShares_of_none_squashed (h : squashed l p tr s = []) : (cutShares l p tr s).cores = s.cores := by
  show ((squashed l p tr s).foldl (fun s c => killTask c s) _).cores = s.cores
  rw [h]
  rfl

/-- The cut does not mark the trim applied. -/
theorem trimmed_cutShares (l : Nat) (p : Pred) (tr : Nat) (s : State) : (launchOf (cutShares l p tr s) l).pred.map Pred.trimmed = some p.trimmed := by
  unfold cutShares
  rw [launchOf_updLaunch, if_pos rfl]
  rfl

/-- The trim stops behind the cut while any listed cell of the core table holds a task past the truth that is being saved. -/
theorem trim_of_saving (hp : (launchOf s l).pred = some p) (ht : p.truth = some tr) (hn : p.trimmed = false) (hr : (launchOf s l).state = .running)
    (hq : squashed l p tr s = []) {y : Nat × Core} {k : Task} (hy : y ∈ s.cores.cells) (hk : y.2.b.task = some k)
    (hpast : (k.launch == l && k.prov && isSaving k && isPast p tr (taskCoord k p.dim)) = true) : trim l s = cutShares l p tr s := by
  simp only [trim, hp, ht, hn, hr, cores_cutShares_of_none_squashed hq]
  rw [if_neg (by simp), if_pos (Or.inr (List.any_eq_true.2 ⟨y, hy, by simp only [hk, hpast]⟩))]

end

/-- A prediction whose truth is zero. -/
def zeroTruth : Pred :=
  { site := 0, dim := 0, slot := 0, min := 0, maxe := 1, ext := 1, learn := false, truth := some 0, cut := none, trimmed := false }

/-- A provisional task of launch 0 that is being saved. -/
def savedTask : Task :=
  { launch := 0, part := 0, ctx := 0, cls := 0, step := 0, lin := 0, x := 0, y := 0, z := 0, slot := 0, group := false, prov := true, tail := false,
    persist := false, limit := 0, start := 0, excl := 0, savedAt := 0, stage := .saving false, image := none }

/-- A core table that lists core 0 twice: without a task, which is what every read of core 0 finds, and then with the saved task. -/
def coreListedTwice : State :=
  { State.reset with
    launches := { cells := [(0, { Launch.zero with state := .running, pred := some zeroTruth })] },
    cores := { cells := [(0, .zero), (0, { Core.zero with b := { Body.zero with task := some savedTask } })] } }

theorem taskOf_coreListedTwice (c : Nat) : taskOf coreListedTwice c = none := by
  by_cases h : c = 0
  · subst h; rfl
  · simp [taskOf, coreAt, coreListedTwice, Tab.get, findKey, h, Core.zero, Body.zero]

/-- Refutes O55: the clause on the end of a trim asks about saved tasks through `taskOf`, which reads the first cell of a core, while TRIM looks at
every listed cell; in a state whose table lists core 0 twice, the trim waits for a task that no read of a core finds. The statement ranges over such
states too: it does not ask that the keys of a table rise strictly. -/
theorem not_launchesProceed : ¬ Obligations.LaunchesProceed := by
  unfold Obligations.LaunchesProceed
  intro h
  obtain ⟨-, -, -, -, -, htrim, -⟩ := h coreListedTwice 0 0 0 0
    { launch := 0, cl := 0, todo := [], age := 0, agedAt := 0, cls := 0, step := 0, group := false, sub := false, since := 0, seq := 0 } [] zeroTruth
  obtain ⟨-, htrim⟩ := htrim rfl rfl rfl rfl
  obtain ⟨t, hexec, hdone⟩ := htrim rfl (fun i hi => absurd hi List.not_mem_nil)
    (fun c k hk => absurd ((taskOf_coreListedTwice c).symm.trans hk) nofun)
  have waits : trim 0 coreListedTwice = cutShares 0 zeroTruth 0 coreListedTwice :=
    trim_of_saving rfl rfl rfl rfl rfl (List.mem_cons_of_mem _ List.mem_cons_self) rfl rfl
  have reached : t = cutShares 0 zeroTruth 0 coreListedTwice := (Host.Outcome.next.inj hexec).symm.trans waits
  have untrimmed := trimmed_cutShares 0 zeroTruth 0 coreListedTwice
  rw [← reached, hdone] at untrimmed
  exact absurd untrimmed (by decide)

end Sys2Proof.Machine
end

section
/-! Dispatch, image loads, saves, pre-emption and deadlines of tasks (R147-R168, R325). -/

namespace Sys2Proof.Machine

open Sys2Proof.Safety

/-! ### A dispatcher with one share (R147, R151) -/

theorem resumeCore_of_no_frames {cl c : Nat} {s : State} (h : (coreAt s c).frames = []) : resumeCore cl s c = s := by
  simp [resumeCore, h, bestFrame]

/-- Where no core of a cluster holds a saved task, none is resumed. -/
theorem resumeSaved_of_no_frames {cl : Nat} {s : State} (h : ∀ i < 4, (coreAt s (clusterCore cl i)).frames = []) : resumeSaved cl s = s := by
  simp only [resumeSaved, show List.range 4 = [0, 1, 2, 3] from rfl, List.map_cons, List.map_nil, List.foldl_cons, List.foldl_nil,
    resumeCore_of_no_frames (h 0 (by decide)), resumeCore_of_no_frames (h 1 (by decide)), resumeCore_of_no_frames (h 2 (by decide)),
    resumeCore_of_no_frames (h 3 (by decide))]

theorem nextRoundRobin_single (d : Dispatcher) (h : Share) (c : Nat) : nextRoundRobin d [h] c = some h := by
  by_cases turn : nthD d.rr c 0 ≤ h.seq <;> simp [nextRoundRobin, turn]

/-- The choice rule picks the only candidate, by its age, its sub-stream or its turn. -/
theorem pickShare_single {h : Share} (d : Dispatcher) (h0 : 0 < h.cls) (h4 : h.cls < 4) : ∃ rr, pickShare d [h] = some (h, rr) := by
  have ordinary : h.cls ≠ 0 := by omega
  have lowest : Nat.min 3 h.cls = h.cls := Nat.min_eq_right (by omega)
  by_cases aged : 4 ≤ h.age
  · exact ⟨false, by simp [pickShare, ordinary, aged, earliestAged]⟩
  · by_cases sub : h.sub = true
    · exact ⟨false, by simp [pickShare, ordinary, aged, lowest, sub, lowestStep]⟩
    · exact ⟨true, by simp [pickShare, ordinary, aged, lowest, sub, nextRoundRobin_single]⟩

theorem coresFor_updDisp (s : State) (cl : Nat) (f : Dispatcher → Dispatcher) (h : Share) : coresFor (updDisp s cl f) h = coresFor s h := rfl

section

variable {s : State} {cl c : Nat} {h : Share} {rest : List Nat}

/-- A dispatcher that reserves its cluster for no share. -/
def unreserved (cl : Nat) (s : State) : State := updDisp s cl (fun d => { d with reserved := none })

theorem shares_unreserved (cl : Nat) (s : State) : (disp (unreserved cl s) cl).shares = (disp s cl).shares := by simp [unreserved]

/-- The state in which a dispatcher of one share starts its task: nothing is reserved, and the share's age is zero. -/
def picked (cl : Nat) (h : Share) (rr : Bool) (s : State) : State := updDisp (unreserved cl s) cl (ageShares [h] h rr)

theorem shares_picked (hsh : (disp s cl).shares = [h]) (rr : Bool) : (disp (picked cl h rr s) cl).shares = [{ h with age := 0 }] := by
  simp [picked, unreserved, ageShares, hsh]

/-- A dispatcher that holds one share, dispatchable and not of a lockstep group, starts its next task on its first usable core. -/
theorem chooseShare_single (hres : (disp s cl).reserved = none) (hsh : (disp s cl).shares = [h]) (hcl : h.cl = cl) (hd : dispatchable s h = true)
    (hg : h.group = false) (h0 : 0 < h.cls) (h4 : h.cls < 4) (hc : coresFor s h = c :: rest) :
    ∃ rr, chooseShare cl s = startTask [c] h (picked cl h rr s) := by
  have free : freeCores (unreserved cl s) cl ≠ [] := by
    intro hn
    have noCores : freeCores s cl = [] := hn
    simp [coresFor, hcl, noCores] at hc
  have cores : coresFor (unreserved cl s) h = c :: rest := hc
  have all : (disp (unreserved cl s) cl).shares.filter (dispatchable (unreserved cl s)) = [h] := by
    rw [shares_unreserved, hsh]
    exact List.filter_eq_self.2 fun y hy => (List.mem_singleton.1 hy) ▸ hd
  have cand : [h].filter (fun y => y.group || coresFor (unreserved cl s) y != []) = [h] := List.filter_eq_self.2 (by simp [cores])
  obtain ⟨rr, pick⟩ := pickShare_single (disp (unreserved cl s) cl) h0 h4
  have unheld : reservedShare s cl = none := by rw [reservedShare, hres]; rfl
  refine ⟨rr, ?_⟩
  rw [chooseShare, unheld]
  show (if _ then _ else _) = _
  rw [← unreserved, all, cand, if_neg (by simp [free]), pick]
  simp only [picked, hg, Bool.false_eq_true, if_false, coresFor_updDisp, cores, List.take_succ_cons, List.take_zero]

end

/-! ### The start of a task (R149, R150) -/

theorem taskOf_startCore (s : State) (c : Nat) (h : Share) (it : TaskItem) :
    taskOf (startCore h it s c) c = some (newTask s h it (freeSlotOf s c)) := by
  simp only [startCore, taskOf, core_updBody, if_pos]
  rfl

theorem regs_startCore (s : State) (c : Nat) (h : Share) (it : TaskItem) : (coreAt (startCore h it s c) c).b.r =
    startRegs (launchOf s h.launch) it (startsProv (launchOf s h.launch) it) c (freeSlotOf s c) (coreAt s c).b.r.bufs := by
  simp only [startCore, core_updBody, core_updCore, if_pos]

/-- The first register of a task holds its coordinates: the pointers that follow are for the registers from s1 on. -/
theorem s0_startRegs (x : Launch) (it : TaskItem) (prov : Bool) (c slot : Nat) (bufs : Tab Word) :
    (startRegs x it prov c slot bufs).s.get 0 0 = coordWord it prov := by
  refine (foldl_keeps (g := fun t : Tab Word => t.get 0 0) (fun t i => ?_) _ _).trans ?_
  · split
    · rw [Tab.get_set, if_neg (by omega)]
    · rfl
  · rw [Tab.get_set, if_neg (by decide), Tab.get_set, if_pos rfl]

/-- The launch of a starting task counts one task more. -/
def oneMore (l : Nat) (s : State) : State := updLaunch s l (fun x => { x with live := x.live + 1 })

theorem launchOf_oneMore (l : Nat) (s : State) : launchOf (oneMore l s) l = { launchOf s l with live := (launchOf s l).live + 1 } := by
  simp [oneMore]

section

variable {s : State} {cl c : Nat} {h y : Share} {it : TaskItem} {more : List TaskItem}

/-- The next task of a share, where it is not cancelled, leaves the share. -/
theorem startTask_of_next (ht : h.todo = it :: more) (hx : isCancelled (launchOf s h.launch) it = false) : startTask [c] h s =
    updDisp (startCore h it (oneMore h.launch s) c) h.cl (fun d => { d with
      shares := (d.shares.map (fun y => if y.launch = h.launch then { y with todo := more, since := s.us } else y)).filter (fun y => y.todo != []) }) := by
  have next : todoOf s h = it :: more.filter (fun i => !isCancelled (launchOf s h.launch) i) := by simp [todoOf, ht, hx]
  simp only [startTask, next, ht, List.erase_cons_head]
  rfl

theorem shares_startTask (ht : h.todo = it :: more) (hx : isCancelled (launchOf s h.launch) it = false) (hcl : h.cl = cl)
    (hs : (disp s cl).shares = [y]) (hy : y.launch = h.launch) :
    (disp (startTask [c] h s) cl).shares = [{ y with todo := more, since := s.us }].filter (fun y => y.todo != []) := by
  subst hcl
  rw [startTask_of_next ht hx, disp_updDisp, if_pos rfl]
  show ((disp s h.cl).shares.map _).filter _ = _
  rw [hs]
  simp [hy]

theorem coreAt_startTask (ht : h.todo = it :: more) (hx : isCancelled (launchOf s h.launch) it = false) (q : Nat) :
    coreAt (startTask [c] h s) q = coreAt (startCore h it (oneMore h.launch s) c) q := by
  rw [startTask_of_next ht hx, core_updDisp]

end

/-- A dispatcher none of whose shares is real-time pre-empts nothing. -/
theorem realtimePreempt_of_none {s : State} {cl : Nat} (h : ∀ y ∈ (disp s cl).shares, y.cls ≠ 0) : realtimePreempt cl s = s := by
  have calm : (disp s cl).shares.find? (fun h => h.cls == 0 && dispatchable s h &&
      (if h.group then decide ((coresFor s h).length < 4) else coresFor s h == [])) = none :=
    List.find?_eq_none.2 fun y hy => by simp [h y hy]
  rw [realtimePreempt, calm]

section

variable {s : State} {cl c : Nat} {h : Share} {rest : List Nat} {it : TaskItem} {more : List TaskItem}

/-- A round of a dispatcher with one share: no task resumes, the share's next task starts, and nothing is pre-empted. -/
theorem dispatchRound_single (hf : ∀ i < 4, (coreAt s (clusterCore cl i)).frames = []) (hres : (disp s cl).reserved = none)
    (hsh : (disp s cl).shares = [h]) (hcl : h.cl = cl) (hd : dispatchable s h = true) (hg : h.group = false) (h0 : 0 < h.cls) (h4 : h.cls < 4)
    (hc : coresFor s h = c :: rest) (ht : h.todo = it :: more) (hx : isCancelled (launchOf s h.launch) it = false) :
    ∃ rr, dispatchRound cl s = startTask [c] h (picked cl h rr s) := by
  obtain ⟨rr, chosen⟩ := chooseShare_single hres hsh hcl hd hg h0 h4 hc
  refine ⟨rr, ?_⟩
  rw [dispatchRound, resumeSaved_of_no_frames hf, chosen]
  refine realtimePreempt_of_none fun y hy => ?_
  rw [shares_startTask (s := picked cl h rr s) ht hx hcl (shares_picked hsh rr) rfl] at hy
  obtain rfl := List.mem_singleton.1 (List.mem_filter.1 hy).1
  exact Nat.ne_of_gt h0

end

/-! ### The image of a task (R325) -/

theorem writeMasked_changes (l : Loc) : ∀ (bytes : List Byte) (mask : List Bool) (i : Nat) (s : State),
    ∃ mem, writeMasked s l i bytes mask = { s with mem := mem }
  | [], _, _, s => ⟨s.mem, by rw [writeMasked]; nofun⟩
  | _ :: _, [], _, s => ⟨s.mem, by rw [writeMasked]; nofun⟩
  | b :: t, m :: ms, i, s => by
    rw [writeMasked]
    obtain ⟨mem, rest⟩ := writeMasked_changes l t ms (i + 1) (if m then { s with mem := s.mem.setByte (locKey s l i) b } else s)
    refine ⟨mem, rest.trans ?_⟩
    split <;> rfl

/-- A write of bytes changes no core and not the clock. -/
theorem cores_clk_writeLoc (s : State) (l : Loc) (b : List Byte) : (writeLoc s l b).cores = s.cores ∧ (writeLoc s l b).clk = s.clk := by
  obtain ⟨mem, written⟩ := writeMasked_changes l b (b.map (fun _ => true)) 0 s
  have keeps : ∀ {α : Type} (g : State → α), (∀ (t : State) p w, g { t with poison := p, wrong := w } = g t) →
      g (writeLoc s l b) = g (writeMasked s l 0 b (b.map (fun _ => true))) := by
    intro α g hg
    refine foldl_keeps (g := g) (fun t i => ?_) _ _
    dsimp only
    split
    · exact hg t _ _
    · rfl
  exact ⟨(keeps State.cores fun _ _ _ => rfl).trans (by rw [written]), (keeps State.clk fun _ _ _ => rfl).trans (by rw [written])⟩

theorem coreAt_congr {s t : State} (h : t.cores = s.cores) (c : Nat) : coreAt t c = coreAt s c := by rw [coreAt, coreAt, h]

section

variable {s : State} {c : Nat} {k : Task} {im : ImageInfo}

/-- An image that a core's bundle store does not hold enters it. -/
theorem coreAt_fillStore_of_empty (hi : (coreAt s c).image = none) : coreAt (fillStore im s c) c = { coreAt s c with image := some im } := by
  simp only [fillStore, storeHolds, hi, Bool.false_eq_true, if_false, core_updCore, if_pos]
  rfl

theorem clk_fillStore (im : ImageInfo) (s : State) (c : Nat) : (fillStore im s c).clk = s.clk := by
  unfold fillStore
  split <;> rfl

/-- A new task runs from now on. -/
theorem coreAt_beginRun_of_new (ht : taskOf s c = some k) (hk : k.image = none) : coreAt (beginRun [c] im s) c =
    { coreAt s c with b := { (coreAt s c).b with task := some { k with image := some im, start := s.clk, stage := .running } } } := by
  obtain ⟨cores, clk⟩ := cores_clk_writeLoc s (.flat (spadKey c (privOff k.slot))) (launchOf s k.launch).args
  simp only [beginRun, List.foldl_cons, List.foldl_nil, ht, hk, Option.isSome_none, Bool.false_eq_true, if_false, core_updBody, if_pos,
    coreAt_congr cores, clk]

theorem resumeTend_of_none (h : (coreAt s c).b.tendRegs = none) : resumeTend [c] s = s := by simp [resumeTend, h]

/-- The image of a new task is there: it stands in the bundle store, and the task runs. -/
theorem coreAt_loaded_of_new (ht : taskOf s c = some k) (hk : k.image = none) (hi : (coreAt s c).image = none) (hn : (coreAt s c).b.tendRegs = none) :
    coreAt (loaded [c] im s) c =
      { coreAt s c with image := some im, b := { (coreAt s c).b with task := some { k with image := some im, start := s.clk, stage := .running } } } := by
  have filled := coreAt_fillStore_of_empty (im := im) hi
  have task : taskOf (fillStore im s c) c = some k := by rw [taskOf, filled]; exact ht
  have begun := coreAt_beginRun_of_new (im := im) task hk
  rw [filled, clk_fillStore] at begun
  rw [loaded, List.foldl_cons, List.foldl_nil, resumeTend_of_none (by rw [begun]; exact hn), begun]

/-- A new task on a core whose bundle store is empty loads its image from the tensor. -/
theorem loadImage_of_new (ht : taskOf s c = some k) (hs : k.stage = .loading) (hk : k.image = none) (hg : groupOf s c = [c])
    (ha : privAsleep s [c] = none) (hi : (coreAt s c).image = none) : loadImage c s =
      loadImage.load [c] k (ptrH (launchOf s k.launch).entry) (ptrO (launchOf s k.launch).entry) s := by
  simp only [loadImage, ht, hs, hg, hk, ha, hi, List.headD_cons, ne_eq, not_true_eq_false, if_false]

section

variable {g : List Nat} {h entry : Nat} (hd : dieGone s (handleDie h) = false) (hr : isResident (trec s h) = true)

include hd hr

theorem load_of_read (hi : readImage s h entry = .ok im) : loadImage.load g k h entry s = loaded g im s := by
  simp only [loadImage.load, hd, hr, hi, Bool.not_true, Bool.false_eq_true, if_false]

theorem load_of_failed {code : BitVec 8} (hi : readImage s h entry = .error code) : loadImage.load g k h entry s = endFaulted g code s := by
  simp only [loadImage.load, hd, hr, hi, Bool.not_true, Bool.false_eq_true, if_false]

end

end

/-! ### Pauses, saves and pre-emption (R153-R155) -/

/-- The end of a pause leaves of a core all but the pause and its count. -/
theorem core_clearPause_keeps {α : Type} {f : Core → α} (hf : ∀ (k : Core) p n l, f { k with b := { k.b with pause := p, pauseCnt := n, lastPause := l } } = f k)
    (g : List Nat) (s : State) (q : Nat) : f (coreAt (clearPause g s) q) = f (coreAt s q) := by
  refine foldl_keeps (g := fun s => f (coreAt s q)) (fun t c => ?_) g s
  rw [core_updBody]
  split
  · next hq =>
    subst hq
    dsimp only
    split
    · split <;> exact hf _ _ _ _
    · rfl
  · rfl

theorem taskOf_clearPause (g : List Nat) (s : State) (q : Nat) : taskOf (clearPause g s) q = taskOf s q :=
  core_clearPause_keeps (f := fun k => k.b.task) (fun _ _ _ _ => rfl) g s q

theorem frames_clearPause (g : List Nat) (s : State) (q : Nat) : (coreAt (clearPause g s) q).frames = (coreAt s q).frames :=
  core_clearPause_keeps (f := Core.frames) (fun _ _ _ _ => rfl) g s q

theorem slots_clearPause (g : List Nat) (s : State) (q : Nat) : (coreAt (clearPause g s) q).slots = (coreAt s q).slots :=
  core_clearPause_keeps (f := Core.slots) (fun _ _ _ _ => rfl) g s q

theorem softs_clearPause (g : List Nat) (s : State) : (clearPause g s).softs = s.softs :=
  foldl_keeps (g := State.softs) (fun t c => updCore_softs t c _) g s

theorem softs_setStage (g : List Nat) (st : TaskStage) (s : State) : (setStage g st s).softs = s.softs :=
  foldl_keeps (g := State.softs) (fun t c => updCore_softs t c _) g s

theorem frames_setStage (g : List Nat) (st : TaskStage) (s : State) (q : Nat) : (coreAt (setStage g st s) q).frames = (coreAt s q).frames := by
  refine foldl_keeps (g := fun s => (coreAt s q).frames) (fun t c => ?_) g s
  rw [core_updBody]
  split
  · next hq => rw [hq]
  · rfl

/-- A stage is set on every core of the list, and on no other. -/
theorem taskOf_setStage (st : TaskStage) (q : Nat) : ∀ (g : List Nat) (s : State),
    taskOf (setStage g st s) q = if q ∈ g then (taskOf s q).map (fun t => { t with stage := st }) else taskOf s q
  | [], s => by simp [setStage, onCores]
  | c :: g, s => by
    refine (taskOf_setStage st q g _).trans ?_
    by_cases hq : q = c
    · subst hq
      by_cases hg : q ∈ g <;> simp [hg, taskOf, Function.comp_def]
    · by_cases hg : q ∈ g <;> simp [hg, hq, taskOf]

/-- A freeze sets the stage of the task's group, behind the end of its pause where there is one to end. -/
theorem freezeTask_sets (c : Nat) (s : State) : ∃ b, freezeTask c s = setStage (groupOf s c) (.saving b) s ∨
    freezeTask c s = setStage (groupOf s c) (.saving b) (clearPause (groupOf s c) s) := by
  unfold freezeTask
  dsimp only
  split_ifs
  · exact ⟨_, .inl rfl⟩
  · exact ⟨_, .inr rfl⟩

/-- Frozen, a task is being saved on each core of its group; no other core's task changes. -/
theorem taskOf_freezeTask (c : Nat) (s : State) : ∃ b, ∀ q,
    taskOf (freezeTask c s) q = if q ∈ groupOf s c then (taskOf s q).map (fun t => { t with stage := .saving b }) else taskOf s q := by
  obtain ⟨b, h | h⟩ := freezeTask_sets c s
  · exact ⟨b, fun q => by rw [h, taskOf_setStage]⟩
  · exact ⟨b, fun q => by rw [h, taskOf_setStage, taskOf_clearPause]⟩

theorem frames_freezeTask (c : Nat) (s : State) (q : Nat) : (coreAt (freezeTask c s) q).frames = (coreAt s q).frames := by
  obtain ⟨b, h | h⟩ := freezeTask_sets c s
  · rw [h, frames_setStage]
  · rw [h, frames_setStage, frames_clearPause]

theorem softs_freezeTask (c : Nat) (s : State) : (freezeTask c s).softs = s.softs := by
  obtain ⟨b, h | h⟩ := freezeTask_sets c s
  · rw [h, softs_setStage]
  · rw [h, softs_setStage, softs_clearPause]

theorem softs_preemptTask (c : Nat) (s : State) : (preemptTask c s).softs = s.softs := by
  unfold preemptTask
  split
  · exact softs_freezeTask c s
  · rfl

/-- A core's task is being saved. -/
def Saving (s : State) (q : Nat) : Prop := ∃ u b, taskOf s q = some u ∧ u.stage = .saving b

/-- A core's task and its saved tasks stand as they did. -/
def Untouched (s t : State) (q : Nat) : Prop := taskOf t q = taskOf s q ∧ (coreAt t q).frames = (coreAt s q).frames

theorem saving_freezeTask {s : State} {c q : Nat} {k : Task} (hk : taskOf s q = some k) (hq : q ∈ groupOf s c) : Saving (freezeTask c s) q := by
  obtain ⟨b, frozen⟩ := taskOf_freezeTask c s
  exact ⟨{ k with stage := .saving b }, b, by rw [frozen, if_pos hq, hk]; rfl, rfl⟩

/-- A pre-emption of a core saves the task of another core too, or does not touch it. -/
theorem preemptTask_saves_or_spares {s : State} {q : Nat} {k : Task} (hk : taskOf s q = some k) (c : Nat) :
    Saving (preemptTask c s) q ∨ Untouched s (preemptTask c s) q := by
  unfold preemptTask
  split
  · by_cases hq : q ∈ groupOf s c
    · exact .inl (saving_freezeTask hk hq)
    · obtain ⟨b, frozen⟩ := taskOf_freezeTask c s
      exact .inr ⟨by rw [frozen, if_neg hq], frames_freezeTask c s q⟩
  · exact .inr ⟨rfl, rfl⟩

theorem saving_preemptTask {s : State} {q : Nat} (h : Saving s q) (c : Nat) : Saving (preemptTask c s) q := by
  obtain ⟨u, b, hu, hb⟩ := h
  rcases preemptTask_saves_or_spares hu c with hs | ⟨task, -⟩
  · exact hs
  · exact ⟨u, b, task.trans hu, hb⟩

theorem saving_preempts {q : Nat} : ∀ (l : List Nat) {s : State}, Saving s q → Saving (l.foldl (fun s c => preemptTask c s) s) q
  | [], _, h => h
  | c :: l, _, h => saving_preempts l (saving_preemptTask h c)

theorem groupOf_of_single {s : State} {c : Nat} {k : Task} (hk : taskOf s c = some k) (hg : k.group = false) : groupOf s c = [c] := by
  simp [groupOf, isGroup, hk, hg]

theorem mayFreeze_congr {s t : State} {c : Nat} {k : Task} (hk : taskOf s c = some k) (hg : k.group = false) (h : Untouched s t c) :
    mayFreeze t c = mayFreeze s c := by
  obtain ⟨task, frames⟩ := h
  simp only [mayFreeze, task, hk, groupOf_of_single hk hg, groupOf_of_single (task.trans hk) hg, List.all_cons, List.all_nil, frames]

/-- Pre-emptions of a list of cores save a task that may be frozen and stands alone on one of them. -/
theorem saving_of_mem {c : Nat} {k : Task} (hg : k.group = false) {l : List Nat} {s : State} (hc : c ∈ l) (hk : taskOf s c = some k)
    (hm : mayFreeze s c = true) : Saving (l.foldl (fun s c => preemptTask c s) s) c := by
  induction l generalizing s with
  | nil => exact absurd hc List.not_mem_nil
  | cons d l ih =>
    rw [List.foldl_cons]
    rcases preemptTask_saves_or_spares hk d with hs | hu
    · exact saving_preempts l hs
    · rcases List.mem_cons.1 hc with rfl | hl
      · refine saving_preempts l ?_
        rw [preemptTask, if_pos hm]
        exact saving_freezeTask hk (by simp [groupOf_of_single hk hg])
      · exact ih hl (hu.1.trans hk) ((mayFreeze_congr hk hg hu).trans hm)

section

variable {s : State} {c : Nat} {k : Task} {b : Bool}

/-- A task whose outstanding work is done goes to a save frame of its core. -/
theorem completeSave_of_ready (hk : taskOf s c = some k) (hs : k.stage = .saving b) (hg : groupOf s c = [c]) (hr : saveReady s c = true) :
    completeSave c s = updCore (clearPause [c] s) c (fun k =>
      { k with frames := k.frames ++ [settled_ (clearPause [c] s) (frameOf (clearPause [c] s) c)], b := coreKeep k.b }) := by
  simp only [completeSave, hk, hs, hg, hr, List.all_cons, List.all_nil, Bool.and_true, Bool.not_true, Bool.false_eq_true, if_false, List.foldl_cons,
    List.foldl_nil]

/-- A saved task leaves its core: its frame joins those of the core, and its slot stays. -/
theorem core_completeSave (hk : taskOf s c = some k) (hs : k.stage = .saving b) (hg : groupOf s c = [c]) (hr : saveReady s c = true) :
    taskOf (completeSave c s) c = none ∧ (coreAt (completeSave c s) c).frames.length = (coreAt s c).frames.length + 1 ∧
      (coreAt (completeSave c s) c).slots = (coreAt s c).slots := by
  rw [completeSave_of_ready hk hs hg hr, taskOf, core_updCore, if_pos rfl]
  exact ⟨rfl, by rw [List.length_append, frames_clearPause]; rfl, slots_clearPause _ _ _⟩

end

/-! ### PREEMPT (R154) -/

/-- The value under a key stands in the list. -/
theorem mem_of_findKey {α : Type} {k : Nat} {a : α} : ∀ {l : List (Nat × α)}, findKey k l = some a → (k, a) ∈ l
  | (k', a') :: t, h => by
    rw [findKey] at h
    split at h
    · next hk =>
      obtain rfl := Option.some.inj h
      exact hk ▸ List.mem_cons_self
    · exact List.mem_cons_of_mem _ (mem_of_findKey h)

theorem mem_leadsOf {s : State} {c : Nat} {k : Task} {p : Nat → Task → Bool} (hk : taskOf s c = some k) (hg : k.group = false) (hp : p c k = true) :
    c ∈ leadsOf p s := by
  cases hf : findKey c s.cores.cells with
  | none => simp [taskOf, coreAt, Tab.get, hf, Core.zero, Body.zero] at hk
  | some x =>
    have task : x.b.task = some k := by simpa [taskOf, coreAt, Tab.get, hf] using hk
    exact List.mem_map.2 ⟨(c, x), List.mem_filter.2 ⟨mem_of_findKey hf, by simp [task, hp, hg]⟩, rfl⟩

/-- A single bit that is replaced. -/
theorem bitAt_withBits_self (x p v : Nat) : bitAt (withBits x p 1 v) p = bitAt v 0 := by
  have pos : 0 < 2 ^ p := Nat.two_pow_pos p
  have parts : x = x / 2 ^ p * 2 ^ p + x % 2 ^ p := (Nat.div_add_mod' x (2 ^ p)).symm
  have bit : withBits x p 1 v = x % 2 ^ p + 2 ^ p * (x / 2 ^ p - x / 2 ^ p % 2 + v % 2) := by
    have le : x / 2 ^ p % 2 * 2 ^ p ≤ x / 2 ^ p * 2 ^ p := Nat.mul_le_mul_right _ (Nat.mod_le _ _)
    rw [withBits, bitsOf, pow_one, Nat.mul_comm (2 ^ p), Nat.add_mul, Nat.sub_mul]
    omega
  rw [bitAt, bit, Nat.add_mul_div_left _ _ pos, Nat.div_eq_of_lt (Nat.mod_lt _ pos), bitAt, pow_zero, Nat.div_one]
  congr 1
  omega

/-- The soft bit of a partition as a write of PREEMPT leaves it. -/
def softsSet (p : Nat) (v : Word) (s : State) : State := { s with softs := BitVec.ofNat 8 (withBits s.softs.toNat p 1 (fieldW v 0 1)) }

theorem getLsbD_softsSet {p : Nat} (hp : p < 8) (v : Word) (s : State) : (softsSet p v s).softs.getLsbD p = v.getLsbD 0 := by
  rw [← bitAt_toNat v 0]
  simp only [softsSet, BitVec.getLsbD_ofNat, hp, decide_true, Bool.true_and, ← bitAt_eq_testBit, bitAt_withBits_self]
  simp [fieldW, bitsOf, bitAt]

theorem writePreempt_soft {p : Nat} (hp : p < 8) {v : Word} (hv : v.getLsbD 1 = false) (s : State) : writePreempt p v s = softsSet p v s := by
  rw [writePreempt, if_neg (by omega)]
  exact if_neg (by rw [bitAt_toNat, hv]; exact Bool.false_ne_true)

theorem writePreempt_hard {p : Nat} (hp : p < 8) {v : Word} (hv : v.getLsbD 1 = true) (s : State) : writePreempt p v s =
    (leadsOf (fun _ t => t.part == p) s).foldl (fun s c => preemptTask c s) (softsSet p v s) := by
  rw [writePreempt, if_neg (by omega)]
  exact if_pos ((bitAt_toNat v 1).trans hv)

/-! ### Deadlines (R158-R160) -/

theorem partOf_sendMsix (e : Nat) (s : State) (p : Nat) : partOf (sendMsix e s) p = partOf s p := by
  unfold sendMsix
  split <;> rfl

theorem partOf_logErr (e : BitVec 128) (s : State) (p : Nat) : partOf (logErr e s) p = partOf s p := partOf_sendMsix _ _ _

section

variable {s : State} {c : Nat} {k : Task}

/-- The first overrun in a partition halts it, with the code and step of its task. -/
theorem haltPartition_of_running (hk : taskOf s c = some k) (ho : overran s k = true) (hh : (partOf s k.part).halted = false) :
    (partOf (haltPartition c s) k.part).halted = true ∧ (partOf (haltPartition c s) k.part).hcode = (if k.persist then codeSegDeadline else codeDeadline) ∧
      (partOf (haltPartition c s) k.part).hstep = BitVec.ofNat 32 k.step := by
  simp only [haltPartition, hk, ho, hh, Bool.not_true, Bool.false_eq_true, if_false, partOf_logErr, partOf_sendMsix, partOf_updPart, if_true, and_self]

/-- A later overrun is noted for its task, and counts as a lost trigger. -/
theorem haltPartition_of_halted (hk : taskOf s c = some k) (ho : overran s k = true) (hh : (partOf s k.part).halted = true)
    (hn : hasOverrun (partOf s k.part).overran ((groupOf s c).headD c) k.slot = false) :
    (haltPartition c s).mod.snap.lost = (if s.mod.snap.lost = 0xFFFF then 0xFFFF else s.mod.snap.lost + 1) ∧ (haltPartition c s).cores = s.cores := by
  simp only [haltPartition, hk, ho, hh, hn, Bool.not_true, Bool.false_eq_true, if_false, if_true]
  exact ⟨rfl, rfl⟩

/-- An overrun that has been noted changes nothing. -/
theorem haltPartition_of_noted (hk : taskOf s c = some k) (ho : overran s k = true) (hh : (partOf s k.part).halted = true)
    (hn : hasOverrun (partOf s k.part).overran ((groupOf s c).headD c) k.slot = true) : haltPartition c s = s := by
  simp only [haltPartition, hk, ho, hh, hn, Bool.not_true, Bool.false_eq_true, if_false, if_true]

end

/-! ### What the end of a task leaves of a launch (R73, R160) -/

/-- The state of a launch and its failure. -/
def verdict (l : Nat) (s : State) : LaunchState × Option (BitVec 8 × Nat) := ((launchOf s l).state, (launchOf s l).fail)

theorem verdict_updLaunch (l : Nat) (s : State) (n : Nat) {f : Launch → Launch} (hf : ∀ x, (f x).state = x.state ∧ (f x).fail = x.fail) :
    verdict l (updLaunch s n f) = verdict l s := by
  by_cases h : l = n
  · subst h; simp [verdict, hf]
  · simp [verdict, h]

theorem verdict_freeCore (l c : Nat) (s : State) : verdict l (freeCore c s) = verdict l s := by
  unfold freeCore
  split
  · rfl
  · exact verdict_updLaunch l (dropBehind c s) _ fun x => ⟨rfl, rfl⟩

theorem verdict_leaveTask (l : Nat) (g : List Nat) (s : State) : verdict l (leaveTask g s) = verdict l s := by
  unfold leaveTask
  split
  · rfl
  · split
    · rfl
    · exact (foldl_keeps (g := verdict l) (fun t q => verdict_freeCore l q t) g _).trans (verdict_updLaunch l s _ fun x => ⟨rfl, rfl⟩)

theorem verdict_killCmds (l c : Nat) (s : State) : verdict l (killCmds c s) = verdict l s := rfl

theorem verdict_killTask (l c : Nat) (s : State) : verdict l (killTask c s) = verdict l s :=
  (verdict_leaveTask l _ _).trans (foldl_keeps (g := verdict l) (fun t q => verdict_killCmds l q t) _ s)

theorem verdict_dropFrames (l : Nat) (p : Task → Bool) (c : Nat) (s : State) : verdict l (dropFrames p c s) = verdict l s := by
  unfold dropFrames
  dsimp only
  refine (foldl_keeps (g := verdict l) (fun t k => ?_) _ _).trans ?_
  · exact verdict_updLaunch l t _ fun x => ⟨rfl, rfl⟩
  · rw [verdict, launchOf_updCore, verdict]

theorem verdict_dropSaved (l : Nat) (p : Task → Bool) (s : State) : verdict l (dropSaved p s) = verdict l s :=
  foldl_keeps (g := verdict l) (fun t c => verdict_dropFrames l p c t) _ s

/-- A launch that has neither failed nor ended fails with the code and the core given. -/
theorem fail_failLaunch {s : State} {l : Nat} (hd : (launchOf s l).state ≠ .done) (hf : (launchOf s l).fail = none) (code : BitVec 8) (who : Nat) :
    (launchOf (failLaunch l code who s) l).fail = some (code, who) := by
  simp [failLaunch, hd, hf]

section

variable {s : State} {p : Nat} {k : Task}

theorem releasePart_of_halted (hh : (partOf s p).halted = true) :
    (partOf (releasePart p s) p).halted = false ∧ (partOf (releasePart p s) p).frozen = [] := by
  simp [releasePart, hh]

/-- RELEASE fails the launch of the task that overran. -/
theorem fail_releasePart (hh : (partOf s p).halted = true) (hk : overranTask s (partOf s p) = some k) (hd : (launchOf s k.launch).state ≠ .done)
    (hf : (launchOf s k.launch).fail = none) :
    (launchOf (releasePart p s) k.launch).fail = some ((partOf s p).hcode, (partOf s p).hcore.toNat) := by
  have kept : verdict k.launch (dropSaved (sameTask k) ((leadsOf (fun _ u => sameTask k u) s).foldl (fun s c => killTask c s) s)) = verdict k.launch s :=
    (verdict_dropSaved _ _ _).trans (foldl_keeps (g := verdict k.launch) (fun t c => verdict_killTask _ c t) _ s)
  obtain ⟨state, fail⟩ := Prod.mk.inj kept
  simp only [releasePart, hh, hk, Bool.not_true, Bool.false_eq_true, if_false]
  exact fail_failLaunch (state ▸ hd) (fail.trans hf) _ _

end

/-! ### Pre-emption after a timeout (R167, R168) -/

section

variable {s : State} {cl c z : Nat} {h : Share}

/-- The only member of a list is its highest, by any measure. -/
theorem find?_highest_of_only {l : List Nat} (f : Nat → Nat) (hc : c ∈ l) (hone : ∀ q ∈ l, q = c) :
    l.find? (fun c => l.all (fun d => decide (f d ≤ f c))) = some c := by
  have highest : l.all (fun d => decide (f d ≤ f c)) = true :=
    List.all_eq_true.2 fun q hq => decide_eq_true (Nat.le_of_eq (congrArg f (hone q hq)))
  obtain ⟨d, hd⟩ := Option.isSome_iff_exists.1 (List.find?_isSome (p := fun c => l.all (fun d => decide (f d ≤ f c))).2 ⟨c, hc, highest⟩)
  rw [hd, hone d (List.mem_of_find?_eq_some hd)]

/-- After 65,536 cycles the only provisional task that may be frozen makes room. -/
theorem holdTimeout_of_single (hfree : freeCores s cl = []) (hd : (disp s cl).shares.any (dispatchable s) = true)
    (hc : c ∈ (List.range 4).map (clusterCore cl)) (hp : isProv s c = true) (hm : mayFreeze s c = true)
    (hone : ∀ q ∈ (List.range 4).map (clusterCore cl), isProv s q = true → mayFreeze s q = true → q = c) (ha : awaitsTruth s c = true)
    (hz : (coreAt s c).b.stuck = some z) (hlate : z + 65536 ≤ s.clk) : holdTimeout cl s = freezeTask c s := by
  have full : isFull s cl = true := by simp [isFull, hfree, hd]
  have only : ∀ q ∈ ((List.range 4).map (clusterCore cl)).filter (fun c => isProv s c && mayFreeze s c), q = c := by
    intro q hq
    obtain ⟨hq, hboth⟩ := List.mem_filter.1 hq
    obtain ⟨hprov, hfreeze⟩ := Bool.and_eq_true_iff.1 hboth
    exact hone q hq hprov hfreeze
  have mine : c ∈ ((List.range 4).map (clusterCore cl)).filter (fun c => isProv s c && mayFreeze s c) :=
    List.mem_filter.2 ⟨hc, by simp [hp, hm]⟩
  refine (if_neg (not_or.2 ⟨?_, by simp [full]⟩)).trans ?_
  · rw [Bool.not_eq_true', Bool.not_eq_false, List.any_eq_true]
    exact ⟨c, hc, by simp [ha, hz, hlate]⟩
  · rw [find?_highest_of_only _ mine only]
    exact if_pos hm

theorem mem_of_bestVictim : ∀ {l : List Nat} {c : Nat}, bestVictim s l = some c → c ∈ l
  | d :: l, c, h => by
    rw [bestVictim] at h
    split at h
    · next e he =>
      split at h
      · exact List.mem_cons_of_mem _ (mem_of_bestVictim (he.trans h))
      · exact Option.some.inj h ▸ List.mem_cons_self
    · exact Option.some.inj h ▸ List.mem_cons_self

/-- A sub-stream's share that has waited for 100 µs freezes the task that is pre-empted first. -/
theorem subTimeout_of_single (hs : (disp s cl).shares = [h]) (hsub : h.sub = true) (hd : dispatchable s h = true) (hw : h.since + 100 ≤ s.us)
    (hn : noCoreAnywhere s h.launch = true) (hcs : clusterSaving s cl = false) (hg : h.group = false) (hb : bestVictim s (victims s cl) = some c) :
    subTimeout cl s = freezeTask c s := by
  have victim := (List.mem_filter.1 (mem_of_bestVictim hb)).2
  rw [Bool.and_eq_true] at victim
  simp [subTimeout, hs, hsub, hd, hw, hn, preemptFor, hcs, hg, hb, preemptTask, victim.1]

end

/-! ### The obligation -/

/-- Settles O56: each clause is the rule of the event that dispatches, loads, saves, pre-empts, halts or releases. -/
theorem tasksDispatched : Obligations.TasksDispatched := by
  unfold Obligations.TasksDispatched
  intro s cl c p h it more rest k im code v x entry on n
  refine ⟨?dispatch, ?image, ?save, ?preempt, ?overrun, ?release, ?hold, ?sub⟩
  case dispatch =>
    intro hcl hf hres hsh heq hd hg h0 h4 hc ht hx
    obtain ⟨rr, round⟩ := dispatchRound_single hf hres hsh heq hd hg h0 h4 hc ht hx
    have next : isCancelled (launchOf (picked cl h rr s) h.launch) it = false := hx
    have launch : launchOf (oneMore h.launch (picked cl h rr s)) h.launch = { x with live := x.live + 1 } := launchOf_oneMore _ _
    have core := coreAt_startTask (c := c) ht next c
    have regs := regs_startCore (oneMore h.launch (picked cl h rr s)) c h it
    refine makes_of (congrArg Host.Outcome.next ((if_pos hcl).trans round))
      ⟨newTask (oneMore h.launch (picked cl h rr s)) h it (freeSlotOf (oneMore h.launch (picked cl h rr s)) c), ?_, rfl, rfl, rfl, rfl, rfl, rfl, ?_, ?_, ?_⟩
    · rw [taskOf, core]
      exact taskOf_startCore _ _ _ _
    · rw [sReg, core, regs, s0_startRegs, launch]
      rfl
    · rw [core, regs, launch]
      rfl
    · rw [shares_startTask ht next heq (shares_picked hsh rr) rfl]
      by_cases hm : more = [] <;> simp [hm]
  case image =>
    intro hk hs hn hg ha hi hd hr
    have loads := loadImage_of_new hk hs hn hg ha hi
    refine ⟨fun hread htend => ?_, fun hread => ?_⟩
    · refine makes_of (congrArg Host.Outcome.next (loads.trans (load_of_read hd hr hread))) ?_
      rw [taskOf, coreAt_loaded_of_new hk hn hi htend]
      exact ⟨rfl, rfl⟩
    · exact congrArg Host.Outcome.next (loads.trans (load_of_failed hd hr hread))
  case save =>
    rintro hk ⟨b, hs⟩ hg hr
    exact makes_of rfl (core_completeSave hk hs hg hr)
  case preempt =>
    intro hp i hi
    have runs : exec i s = .next (writePreempt p v s) := by
      rcases List.mem_pair.1 hi with rfl | rfl <;> rfl
    refine makes_of runs ?_
    cases hv : v.getLsbD 1 with
    | false =>
      rw [writePreempt_soft hp hv]
      exact ⟨getLsbD_softsSet hp v s, fun _ => rfl, nofun⟩
    | true =>
      rw [writePreempt_hard hp hv]
      refine ⟨?_, nofun, fun _ hk hpart hg _ hm => ?_⟩
      · rw [foldl_keeps (g := State.softs) (fun t c => softs_preemptTask c t)]
        exact getLsbD_softsSet hp v s
      · exact saving_of_mem hg (mem_leadsOf hk hg (by simp [hpart])) hk hm
  case overrun =>
    intro hk ho
    exact ⟨fun hh => makes_of rfl (haltPartition_of_running hk ho hh), fun hh hn => makes_of rfl (haltPartition_of_halted hk ho hh hn),
      fun hh hn => congrArg Host.Outcome.next (haltPartition_of_noted hk ho hh hn)⟩
  case release =>
    intro hp hv hh
    refine makes_of (congrArg Host.Outcome.next (if_pos ⟨hp, (bitAt_toNat v 1).trans hv⟩)) ?_
    obtain ⟨halted, frozen⟩ := releasePart_of_halted hh
    exact ⟨halted, frozen, fail_releasePart hh⟩
  case hold =>
    rintro hcl hfree hd hc hp hm hone ha ⟨z, hz, hlate⟩
    exact congrArg Host.Outcome.next ((if_pos hcl).trans (holdTimeout_of_single hfree hd hc hp hm hone ha hz hlate))
  case sub =>
    intro hcl hs hsub hd hw hn hcs hg hb
    exact congrArg Host.Outcome.next ((if_pos hcl).trans (subTimeout_of_single hs hsub hd hw hn hcs hg hb))

end Sys2Proof.Machine
end

section
/-! Evictions, page moves, restores and HFORCE (R184, R186, R191-R194, R463). -/

namespace Sys2Proof.Machine

open Sys2Proof.Safety

/-! ### What leaves the tensor records and the Hasp slices -/

/-- The tensor records and the Hasp slices of a state. -/
def residency (s : State) : Tab TRec × Tab Hasp := (s.recs, s.hasps)

theorem trec_of_residency {s t : State} (h : residency t = residency s) (i : Nat) : trec t i = trec s i :=
  congrArg (fun r : Tab TRec × Tab Hasp => r.1.get .zero i) h

theorem hasp_of_residency {s t : State} (h : residency t = residency s) (d : Nat) : hasp t d = hasp s d :=
  congrArg (fun r : Tab TRec × Tab Hasp => r.2.get .zero d) h

theorem moveOf_of_residency {s t : State} (h : residency t = residency s) (i : Nat) : moveOf t i = moveOf s i := by
  rw [moveOf, moveOf, hasp_of_residency h]

theorem residency_sendMsix (e : Nat) (s : State) : residency (sendMsix e s) = residency s := by unfold sendMsix; split <;> rfl

theorem residency_updBank (m : Nat) (f : MemBank → MemBank) (s : State) : residency (updBank m f s) = residency s := by
  unfold updBank; split <;> rfl

theorem residency_logMem (m addr kind symbol : Nat) (s : State) : residency (logMem m addr kind symbol s) = residency s :=
  (residency_sendMsix _ _).trans (residency_updBank _ _ _)

theorem residency_sectorAddr (s : State) (k : Nat) : residency (sectorAddr s k).1 = residency s := by unfold sectorAddr; split <;> rfl

/-- What a read of a sector finds is logged, counted and poisoned. -/
theorem residency_findOnRead (q : Nat) (s : State) : residency (findOnRead q s) = residency s := by
  have addr := residency_sectorAddr s (32 * q)
  simp only [findOnRead]
  split
  · rfl
  · split
    · exact (residency_logMem ..).trans addr
    · split
      · rfl
      · split
        · exact (residency_logMem ..).trans ((residency_updBank ..).trans addr)
        · exact (residency_logMem ..).trans ((residency_updBank ..).trans addr)

theorem residency_pagerRead (k n : Nat) (s : State) : residency (pagerRead k n s) = residency s :=
  foldl_keeps (g := residency) (fun t q => residency_findOnRead q t) _ s

theorem residency_writeLeaf (die p : Nat) (s : State) : residency (writeLeaf die p s) = residency s := by
  obtain ⟨tlb, mem, ptw, changed⟩ := writeLeaf_changes die p s
  rw [changed]
  rfl

theorem residency_bytes (s : State) (m : Memory) (q : Tab Bool) : residency { s with mem := m, poison := q } = residency s := rfl

theorem residency_settlePage (h page : Nat) (s : State) : residency (settlePage h page s) = residency s := by
  refine (residency_writeLeaf ..).trans ?_
  split
  · rfl
  · exact residency_bytes s _ _

/-! ### Parity (R262, R265) -/

theorem residency_netRoute (q : Nat) (p : NetPacket) (s : State) : residency (netRoute q p s).1 = residency s := by
  dsimp only [netRoute]
  repeat' split
  all_goals rfl

theorem residency_sendMdelta (d j off : Nat) (bytes : List Byte) (s : State) : residency (sendMdelta d j off bytes s) = residency s := by
  have routes : residency (netSend (mdelta (fresh s).2 d (fresh s).1 j off bytes) (fresh s).2).1 = residency s := residency_netRoute ..
  dsimp only [sendMdelta]
  split <;> exact routes

theorem residency_dieDelta (h page off : Nat) (bytes : List Byte) (s : State) : residency (dieDelta h page off bytes s) = residency s := by
  unfold dieDelta
  split
  · split <;> rfl
  · rfl

theorem residency_modDelta (h page off : Nat) (bytes : List Byte) (s : State) : residency (modDelta h page off bytes s) = residency s := by
  unfold modDelta
  split
  · exact residency_sendMdelta ..
  · rfl

/-- A slot newly assigned to a page takes the page's contents as a delta. -/
theorem residency_assignPage (h i : Nat) (s : State) : residency (assignPage h i s) = residency s := by
  unfold assignPage
  extract_lets r
  split
  · rfl
  · next d b send _ _ t _ _ _ =>
    have sent (f : State → State) (hf : ∀ u, residency (f u) = residency u) (u : State) : residency (send f u) = residency u := by
      dsimp only [send]
      split
      · rfl
      · exact hf u
    have first : residency t = residency s := by
      dsimp only [t]
      split
      · exact sent _ (residency_dieDelta h i 0 b) _
      · rfl
    clear_value t
    split
    · exact first
    · split
      · exact (sent _ (residency_modDelta h i 0 b) _).trans first
      · exact first

/-- The bytes of a page go over, and the records and the slices stand. -/
theorem residency_carryPage (m : Move) (s : State) : residency (carryPage m s) = residency s := by
  have read (u : State) (hu : residency u = residency (settlePage m.h m.page s)) : residency (pagerRead (globKey m.h (65536 * m.page)) 65536 u) = residency s :=
    (residency_pagerRead ..).trans (hu.trans (residency_settlePage ..))
  simp only [carryPage]
  split
  · refine (residency_assignPage ..).trans (read _ ?_)
    split <;> rfl
  · refine read _ ?_
    split <;> rfl

/-! ### Moves of tensors (R193, R194) -/

theorem h_of_moveOf {s : State} {h : Nat} {m : Move} (hm : moveOf s h = some m) : m.h = h := beq_iff_eq.1 (List.find?_some (p := fun x : Move => x.h == h) hm)

/-- A change that leaves the tensors of the moves changes the move of one tensor. -/
theorem moveOf_updMove {s : State} {h : Nat} {m : Move} {f : Move → Move} (hf : ∀ x, (f x).h = x.h) (hm : moveOf s h = some m) :
    moveOf (updMove h f s) h = some (f m) := by
  have names : (fun x : Move => x.h == h) ∘ (fun x => if x.h = h then f x else x) = fun x => x.h == h := by
    funext x
    by_cases hx : x.h = h <;> simp [hx, hf]
  rw [moveOf, updMove, hasp_updHasp, if_pos rfl]
  dsimp only
  rw [List.find?_map, names, show (hasp s (handleDie h)).moves.find? (fun x => x.h == h) = some m from hm, Option.map_some, if_pos (h_of_moveOf hm)]

theorem moveOf_dropMove (s : State) (h : Nat) : moveOf (dropMove h s) h = none := by
  rw [moveOf, dropMove, hasp_updHasp, if_pos rfl]
  exact List.find?_eq_none.2 fun m hm named => absurd (beq_iff_eq.1 named) (bne_iff_ne.1 (List.mem_filter.1 hm).2)

section

variable {s : State} {h : Nat} {m : Move} (hm : moveOf s h = some m)

include hm

section

variable (ho : moveOpen s m = true) (hp : swapPartner s m = none)

include ho hp

theorem copyPass_of_open : copyPass h s =
    if m.marked ≠ [] then
      if max 1 (hasp s (handleDie h)).retry.toNat ≤ m.pass + 1 then abandonMove h s else updMove h (fun x => { x with marked := [], pass := x.pass + 1 }) s
    else movePage m s := by
  simp only [copyPass, hm]
  exact if_neg (by simp [ho, hp])

/-- The next page of a tensor follows a page that no store spoiled. -/
theorem moveOf_copyPass_of_clean (hc : m.marked = []) (hmore : m.page + 1 < pagesOf (trec s h).bytes) :
    moveOf (copyPass h s) h = some { m with page := m.page + 1, marked := [], pass := 0, lines := 0, staged := false } := by
  obtain rfl := h_of_moveOf hm
  have carried := residency_carryPage m s
  have more : m.page + 1 < pagesOf (trec (carryPage m s) m.h).bytes := by rwa [trec_of_residency carried]
  rw [copyPass_of_open hm ho hp, if_neg (not_not.2 hc), movePage, pageMoved, if_pos (.inr more), nextPage]
  exact moveOf_updMove (fun _ => rfl) ((moveOf_of_residency carried m.h).trans hm)

end

/-- A pair exchanges line by line through the staging buffer, and with the last line page by page (R194). -/
theorem swapPass_of_partner {n : Move} (hl : moveLeft s m = true) (hp : swapPartner s m = some n) : swapPass h s =
    if m.staged = false then updMove n.h (fun y => { y with staged := true }) (updMove m.h (fun y => { y with staged := true }) s)
    else if m.lines + 1 < 512 then
      updMove n.h (fun y => { y with staged := false, lines := y.lines + 1 }) (updMove m.h (fun y => { y with staged := false, lines := y.lines + 1 }) s)
    else if m.restore then movePage m (movePage n s) else movePage n (movePage m s) := by
  simp only [swapPass, hm, hp, hl, Bool.not_true, Bool.false_eq_true, if_false, Bool.not_eq_true']

theorem endRestore_of_arrived (hr : m.restore = true) (hlast : pagesOf (trec s h).bytes ≤ m.page) : endRestore h s =
    if deltaUnder s h = true then s else applyBounced h (updRec (dropMove h s) h (fun r => { r with state := .hbm, busy := false, ckib := 0, loc := 0 })) := by
  have left : moveLeft s m = false := decide_eq_false (by rw [h_of_moveOf hm]; exact not_lt.2 hlast)
  simp only [endRestore, hm, hr, left, Bool.not_true, Bool.false_eq_true, false_or]

end

theorem applyBounced_of_none {s : State} {h : Nat} (hb : ∀ b ∈ (hasp s (handleDie h)).bounce, b.h ≠ h) : applyBounced h s = s := by
  have none : (hasp s (handleDie h)).bounce.filter (fun b => b.h == h) = [] := List.filter_eq_nil_iff.2 fun b hmem named => hb b hmem (beq_iff_eq.1 named)
  rw [applyBounced, none, List.foldl_nil]

theorem bounce_dropMove (s : State) (h d : Nat) : (hasp (dropMove h s) d).bounce = (hasp s d).bounce := by
  rw [dropMove, hasp_updHasp]
  split
  · next hd => rw [hd]
  · rfl

/-! ### Actions (R186, R187) -/

/-- What an action leaves of its tensor: it is dropped, or its pages begin to move. -/
def Taken (h d : Nat) (a : Act) (forced : Bool) (t : State) : Prop :=
  (a = .drop → (trec t h).state = .dropped) ∧
  (a ≠ .drop → (trec t h).busy = true ∧ ∃ k ∈ (hasp t d).moves, k.h = h ∧ k.restore = false ∧ k.page = 0 ∧ k.forced = forced ∧ (k.comp = true ↔ a = .compress))

theorem trec_hforceEnd (d why : Nat) (s : State) (h : Nat) : trec (hforceEnd d why s) h = trec s h := trec_of_residency (residency_sendMsix 3 _) h

theorem state_dropTensor (h : Nat) (s : State) : (trec (dropTensor h s) h).state = .dropped := by rw [dropTensor, trec_updRec, if_pos rfl]

theorem begun_beginMove (h : Nat) (restore comp forced : Bool) (s : State) :
    (trec (beginMove h restore comp forced s) h).busy = true ∧ ∃ k ∈ (hasp (beginMove h restore comp forced s) (handleDie h)).moves,
      k.h = h ∧ k.restore = restore ∧ k.page = 0 ∧ k.forced = forced ∧ k.comp = comp := by
  rw [beginMove, trec_updRec, hasp_updRec, hasp_updHasp, if_pos rfl, if_pos rfl]
  exact ⟨rfl, _, List.mem_append_right _ (List.mem_singleton_self _), rfl, rfl, rfl, rfl, rfl⟩

theorem taken_perform {h d : Nat} (hd : handleDie h = d) (a : Act) (forced : Bool) (s : State) : Taken h d a forced (perform h forced a s) := by
  subst hd
  cases a with
  | drop =>
    refine ⟨fun _ => ?_, fun hne => absurd rfl hne⟩
    cases forced with
    | false => exact state_dropTensor h s
    | true => exact (congrArg TRec.state (trec_hforceEnd ..)).trans (state_dropTensor h s)
  | compress =>
    obtain ⟨busy, k, hmem, hh, hr, hp, hf, hc⟩ := begun_beginMove h false true forced s
    exact ⟨nofun, fun _ => ⟨busy, k, hmem, hh, hr, hp, hf, by simp [hc]⟩⟩
  | spill =>
    obtain ⟨busy, k, hmem, hh, hr, hp, hf, hc⟩ := begun_beginMove h false false forced s
    exact ⟨nofun, fun _ => ⟨busy, k, hmem, hh, hr, hp, hf, by simp [hc]⟩⟩

/-- What a change of a slice leaves alone does not decide which actions a tensor may take. -/
theorem actOk_updHasp (s : State) (d : Nat) {f : Hasp → Hasp} (hf : ∀ x, (f x).hdepth = x.hdepth) (h : Nat) (b : Act) :
    actOk (updHasp s d f) h b = actOk s h b := by
  have depth (k : Nat) : (hasp (updHasp s d f) k).hdepth = (hasp s k).hdepth := by
    rw [hasp_updHasp]
    split
    · next hk => rw [hf, hk]
    · rfl
  cases b with
  | drop => simp only [actOk, depth]; rfl
  | compress => rfl
  | spill => rfl

theorem isPinned_updHasp (s : State) (d : Nat) {f : Hasp → Hasp} (hf : ∀ x, (f x).pins = x.pins) (h : Nat) : isPinned (updHasp s d f) h = isPinned s h := by
  rw [isPinned, (movesLeave_updHasp s d f hf).pins]
  rfl

theorem actOrder_of_only {s : State} {h : Nat} {a : Act} (hone : ∀ b, actOk s h b = true ↔ b = a) : actOrder s h = [a] := by
  have eligible : [Act.drop, .compress, .spill].filter (actOk s h) = [a] := by
    rw [show actOk s h = fun b => decide (b = a) from funext fun b => Bool.eq_iff_iff.2 ((hone b).trans decide_eq_true_iff.symm)]
    cases a <;> rfl
  simp only [actOrder, eligible, List.foldl_cons, List.foldl_nil, List.filter_nil, List.nil_append]

/-! ### Eviction runs (R184, R186) -/

theorem handleDie_of_mem_candidates {s : State} {d h : Nat} (hc : h ∈ candidates s d) : handleDie h = d := by
  obtain ⟨x, hx, rfl⟩ := List.mem_map.1 hc
  have conditions := (List.mem_filter.1 hx).2
  simp only [Bool.and_eq_true, beq_iff_eq] at conditions
  exact conditions.1.1.1.1

theorem refreshUse_of_noUse {s : State} {h : Nat} (hn : (trec s h).nuse = noUse) : refreshUse h s = s := by
  simp only [refreshUse, hn, true_or, if_true]

/-- A bit of HSTAT that is set is set. -/
theorem hstat_setHstat {d bit : Nat} (hb : bit < 64) (s : State) : (hasp (setHstat d bit s) d).hstat.getLsbD bit = true := by
  unfold setHstat
  split
  · next hset => rwa [← bitAt_toNat]
  · rw [hasp_of_residency (residency_sendMsix ..), hasp_updHasp, if_pos rfl, BitVec.getLsbD_or, BitVec.getLsbD_ofNat, Nat.testBit_two_pow_self]
    simp [hb]

section

variable {s : State} {d : Nat} (ho : (hasp s d).moves.any (fun k => !k.restore) = false)

include ho

theorem evictOne_of_room (hn : mustEvict s d = false) : evictOne d s = updHasp s d (fun x => { x with tried := [] }) := by
  simp only [evictOne, ho, hn, Bool.false_eq_true, if_false, Bool.not_false, if_true]

/-- A run whose one candidate has one eligible action takes it. -/
theorem evictOne_of_single {h : Nat} {a : Act} (hn : mustEvict s d = true) (hc : candidates s d = [h]) (hu : (trec s h).nuse = noUse)
    (hone : ∀ b, actOk s h b = true ↔ b = a) : evictOne d s = perform h false a (updHasp s d (fun x => { x with tried := x.tried ++ [h] })) := by
  have order : actOrder (updHasp s d (fun x => { x with tried := x.tried ++ [h] })) h = [a] := 

    actOrder_of_only fun b => by rw [actOk_updHasp s d (f := fun x => { x with tried := x.tried ++ [h] }) (fun _ => rfl), hone]
  simp only [evictOne, ho, hn, hc, Bool.false_eq_true, if_false, Bool.not_true, List.foldl_cons, List.foldl_nil, refreshUse_of_noUse hu, victim, order]

/-- A run without a candidate ends. -/
theorem evictOne_of_none (hn : mustEvict s d = true) (hc : candidates s d = []) :
    evictOne d s = updHasp (if freePages s d < lowPages s d then setHstat d 2 s else s) d (fun x => { x with tried := [] }) := by
  simp only [evictOne, ho, hn, hc, Bool.false_eq_true, if_false, Bool.not_true, List.foldl_nil, victim]

end

/-! ### HFORCE (R463) -/

/-- The instruction that asks for an action. The compiler takes no constructor whose tag is as great as these have. -/
noncomputable def forceInstr (d : Nat) (v : Word) : Act → Instr
  | .spill => .hforceSpill d v
  | .compress => .hforceCompress d v
  | .drop => .hforceDrop d v

/-- The number by which ACTION names an action. -/
def actCode : Act → Nat
  | .spill => 1
  | .compress => 2
  | .drop => 3

/-- The word of HFORCE that asks for an action. -/
def forceWord (v : Word) (a : Act) : Word := BitVec.ofNat 64 (withBits v.toNat 24 2 (actCode a))

theorem exec_forceInstr {d : Nat} (hd : d < 8) (v : Word) (a : Act) (s : State) :
    exec (forceInstr d v a) s = .next (writeHforce d (some a) (forceWord v a) s) := by
  cases a <;> exact congrArg Host.Outcome.next (if_pos hd)

/-- ACTION stands apart from START and from the handle. -/
theorem fields_forceWord (v : Word) (a : Act) : bitAt (forceWord v a).toNat 26 = v.getLsbD 26 ∧ bitsOf (forceWord v a).toNat 0 23 = bitsOf v.toNat 0 23 := by
  have := v.isLt
  rw [← bitAt_toNat]
  simp only [forceWord, BitVec.toNat_ofNat, bitAt, bitsOf, withBits, beq_eq_beq]
  omega

/-- A slice with the ends of a former request that a write of HFORCE clears. -/
def endsCleared (w : Word) (x : Hasp) : Hasp := { x with hfDone := x.hfDone && !bitAt w.toNat 28, hfRef := x.hfRef && !bitAt w.toNat 29 }

/-- A slice with the handle and the action that a write of HFORCE names. -/
def requestNamed (w : Word) (x : Hasp) : Hasp := { x with hfH := BitVec.ofNat 23 w.toNat, hfAct := BitVec.ofNat 2 (bitsOf w.toNat 24 2) }

/-- The state in which a request of HFORCE is decided. -/
def asked (d : Nat) (w : Word) (s : State) : State := updHasp (updHasp s d (endsCleared w)) d (requestNamed w)

theorem writeHforce_of_request {s : State} {d : Nat} {w : Word} (a : Act) (hb : (hasp s d).hfBusy = false) (hw : bitAt w.toNat 26 = true) :
    writeHforce d (some a) w s = forceOn d (bitsOf w.toNat 0 23) a (asked d w s) := by
  simp only [writeHforce, hasp_updHasp, if_true, hb, hw, Bool.false_eq_true, and_false, if_false]
  rfl

theorem isPinned_asked (d : Nat) (w : Word) (s : State) (h : Nat) : isPinned (asked d w s) h = isPinned s h :=
  (isPinned_updHasp _ d (f := requestNamed w) (fun _ => rfl) h).trans (isPinned_updHasp s d (f := endsCleared w) (fun _ => rfl) h)

theorem actOk_asked (d : Nat) (w : Word) (s : State) (h : Nat) (b : Act) : actOk (asked d w s) h b = actOk s h b :=
  (actOk_updHasp _ d (f := requestNamed w) (fun _ => rfl) h b).trans (actOk_updHasp s d (f := endsCleared w) (fun _ => rfl) h b)

/-- An eligible tensor takes the action. -/
theorem forceOn_of_eligible {s : State} {d h : Nat} {a : Act} (hd : handleDie h = d) (ht : isPageTable h = false) (hs : (trec s h).state = .hbm)
    (hp : isPinned s h = false) (hb : (trec s h).busy = false) (ha : actOk s h a = true) :
    forceOn d h a s = perform h true a (updHasp s d (fun x => { x with hfBusy := true })) := by
  simp [forceOn, hd, ht, hs, hp, hb, ha]

/-- A handle of another die or without a tensor is refused with reason 1. -/
theorem forceOn_of_foreign {s : State} {d h : Nat} (a : Act) (hx : handleDie h ≠ d ∨ (trec s h).state = .free) : forceOn d h a s = hforceEnd d 1 s :=
  if_pos (hx.elim (fun away => .inr (.inl away)) .inl)

theorem refused_hforceEnd (d : Nat) (s : State) : (hasp (hforceEnd d 1 s) d).hfRef = true ∧ (hasp (hforceEnd d 1 s) d).hfWhy = 1 := by
  rw [hforceEnd, hasp_of_residency (residency_sendMsix ..), hasp_updHasp, if_pos rfl]
  exact ⟨Bool.or_true _, rfl⟩

/-! ### O57 -/

/-- Settles O57: each event takes the one branch that its hypotheses leave, and the copy of a page leaves the records and the moves alone. -/
theorem evictionAndMoves : Obligations.EvictionAndMoves := by
  unfold Obligations.EvictionAndMoves
  intro s h d a m n v
  refine ⟨fun hd ho => ⟨fun hn => ?room, fun hn hc hu hone => ?single, fun hn hc => ?noCandidate⟩,
    fun hm hopen hp => ⟨fun hmk hl => ?again, fun hmk hl => ?abandon, fun hmk hmore => ?next⟩,
    fun hm hleft hp => ⟨fun hst => ?stage, fun hst hl => ?land, fun hst hl => ?exchange⟩,
    fun hm hr hlast => ⟨fun hu => ?under, fun hu hb => ?resident⟩,
    fun hd hbusy hstart hname => ⟨fun hdie ht hs hp hb ha => (?force : Makes (forceInstr d v a) s _), fun hx => (?refuse : Makes (forceInstr d v a) s _)⟩⟩
  case room =>
    refine makes_of (congrArg Host.Outcome.next ((if_pos hd).trans (evictOne_of_room ho hn))) ?_
    rw [hasp_updHasp, if_pos rfl]
  case single =>
    have home : handleDie h = d := handleDie_of_mem_candidates (hc ▸ List.mem_singleton_self h)
    exact makes_of (congrArg Host.Outcome.next ((if_pos hd).trans (evictOne_of_single ho hn hc hu hone))) (taken_perform home a false _)
  case noCandidate =>
    refine makes_of (congrArg Host.Outcome.next ((if_pos hd).trans (evictOne_of_none ho hn hc))) ?_
    rw [hasp_updHasp, if_pos rfl]
    exact ⟨rfl, fun low => by rw [if_pos low]; exact hstat_setHstat (by decide) s⟩
  case again =>
    refine makes_of (congrArg Host.Outcome.next ((copyPass_of_open hm hopen hp).trans ((if_pos hmk).trans (if_neg hl)))) ?_
    exact moveOf_updMove (fun _ => rfl) hm
  case abandon => exact congrArg Host.Outcome.next ((copyPass_of_open hm hopen hp).trans ((if_pos hmk).trans (if_pos hl)))
  case next => exact makes_of rfl (moveOf_copyPass_of_clean hm hopen hp hmk hmore)
  case stage => exact congrArg Host.Outcome.next ((swapPass_of_partner hm hleft hp).trans (if_pos hst))
  case land => exact congrArg Host.Outcome.next ((swapPass_of_partner hm hleft hp).trans ((if_neg (by rw [hst]; decide)).trans (if_pos hl)))
  case exchange =>
    exact congrArg Host.Outcome.next ((swapPass_of_partner hm hleft hp).trans ((if_neg (by rw [hst]; decide)).trans (if_neg (by omega))))
  case under => exact congrArg Host.Outcome.next ((endRestore_of_arrived hm hr hlast).trans (if_pos hu))
  case resident =>
    have ended := (endRestore_of_arrived hm hr hlast).trans ((if_neg (by rw [hu]; decide)).trans (applyBounced_of_none (by
      rw [hasp_updRec, bounce_dropMove]
      exact hb)))
    refine makes_of (congrArg Host.Outcome.next ended) ?_
    rw [trec_updRec, if_pos rfl]
    exact ⟨rfl, rfl, moveOf_dropMove s h⟩
  case force =>
    obtain ⟨start, named⟩ := fields_forceWord v a
    have runs : writeHforce d (some a) (forceWord v a) s = perform h true a (updHasp (asked d (forceWord v a) s) d (fun x => { x with hfBusy := true })) := by
      rw [writeHforce_of_request a hbusy (start.trans hstart), named, hname]
      exact forceOn_of_eligible hdie ht hs ((isPinned_asked ..).trans hp) hb ((actOk_asked ..).trans ha)
    exact makes_of ((exec_forceInstr hd v a s).trans (congrArg Host.Outcome.next runs)) (taken_perform hdie a true _)
  case refuse =>
    obtain ⟨start, named⟩ := fields_forceWord v a
    have runs : writeHforce d (some a) (forceWord v a) s = hforceEnd d 1 (asked d (forceWord v a) s) := by
      rw [writeHforce_of_request a hbusy (start.trans hstart), named, hname]
      exact forceOn_of_foreign a hx
    obtain ⟨refused, why⟩ := refused_hforceEnd d (asked d (forceWord v a) s)
    exact makes_of ((exec_forceInstr hd v a s).trans (congrArg Host.Outcome.next runs)) ⟨refused, why, trec_hforceEnd ..⟩

end Sys2Proof.Machine
end

section
/-! What leaves memory as it stands: of every function of the model that writes no byte, the bytes of the state it gives. -/

namespace Sys2Proof.Machine
open Sys2Proof.Safety

@[simp] theorem mem_ite (c : Prop) [Decidable c] (s t : State) : (if c then s else t).mem = if c then s.mem else t.mem := apply_ite ..

/-- A step that leaves memory as it stands. A name of its own lets `simp` discharge it for the function of a fold. -/
def KeepsMem (f : State → State) : Prop := ∀ s, (f s).mem = s.mem

@[simp] theorem keepsMem_iff (f : State → State) : KeepsMem f ↔ ∀ s, (f s).mem = s.mem := Iff.rfl

@[simp] theorem mem_foldl {α : Type} {f : State → α → State} (h : ∀ x, KeepsMem (fun s => f s x)) (l : List α) (s : State) :
    (l.foldl f s).mem = s.mem := by
  induction l generalizing s with
  | nil => rfl
  | cons x l ih => rw [List.foldl_cons, ih, h x]

theorem mem_withMod (s : State) (m : Module) : ({ s with mod := m } : State).mem = s.mem := rfl

/-! ### Control unit -/

@[simp] theorem mem_onCores {f : Nat → State → State} (h : ∀ q, KeepsMem (f q)) (l : List Nat) (s : State) :
    (onCores f l s).mem = s.mem := mem_foldl h l s

/-! ### Operations -/

@[simp] theorem mem_fresh (s : State) : (fresh s).2.mem = s.mem := by simp [fresh]

@[simp] theorem mem_result (c : Nat) (dst : Dst) (val : BitVec 1024) (lat : Nat) (s : State) :
    (result c dst val lat s).mem = s.mem := by simp [result]

@[simp] theorem mem_resultS (c n : Nat) (x : Word) (lat : Nat) (s : State) : (resultS c n x lat s).mem = s.mem := by simp [resultS]

@[simp] theorem mem_resultV (c n : Nat) (x : Vec) (lat : Nat) (s : State) : (resultV c n x lat s).mem = s.mem := by simp [resultV]

@[simp] theorem mem_resultK (c n : Nat) (x : Mask) (lat : Nat) (s : State) : (resultK c n x lat s).mem = s.mem := by simp [resultK]

@[simp] theorem mem_setFlags (c flags : Nat) (s : State) : (setFlags c flags s).mem = s.mem := by simp [setFlags]

@[simp] theorem mem_addNan (c n : Nat) (s : State) : (addNan c n s).mem = s.mem := by simp [addNan]

@[simp] theorem mem_clearPoison (s : State) (l : Loc) (n : Nat) (mask : List Bool) : (clearPoison s l n mask).mem = s.mem := by simp [clearPoison]

@[simp] theorem mem_poisonLoc (s : State) (l : Loc) (n : Nat) : (poisonLoc s l n).mem = s.mem := by simp [poisonLoc]

@[simp] theorem mem_detectPtr (p pc : Word) (c : Nat) (code : BitVec 8) (s : State) : (detectPtr p pc c code s).mem = s.mem := by simp [detectPtr]

@[simp] theorem mem_detectAt (pc : Word) (c : Nat) (code : BitVec 8) (s : State) : (detectAt pc c code s).mem = s.mem := by simp [detectAt]

@[simp] theorem mem_detect (c : Nat) (code : BitVec 8) (s : State) : (detect c code s).mem = s.mem := by simp [detect]

@[simp] theorem mem_countErr (c field : Nat) (s : State) : (countErr c field s).mem = s.mem := by simp [countErr]

@[simp] theorem mem_wakeBank (s : State) (l : Loc) (n : Nat) : (wakeBank s l n).mem = s.mem := by
  unfold wakeBank
  split <;> simp

@[simp] theorem mem_mapLanes (c : Nat) (o s : State) (d : Nat) (k : BitVec 4) (e : Fmt) (lat : Nat) (f : Nat → Rnd) :
    (mapLanes c o s d k e lat f).mem = s.mem := by simp [mapLanes]

@[simp] theorem mem_mapExact (c : Nat) (o s : State) (d : Nat) (k : BitVec 4) (e : Fmt) (lat : Nat) (f : Nat → Nat) :
    (mapExact c o s d k e lat f).mem = s.mem := by simp [mapExact]

/-! ### Memory sectors -/

@[simp] theorem mem_sendMsix (e : Nat) (s : State) : (sendMsix e s).mem = s.mem := by simp [sendMsix]

@[simp] theorem mem_updBank (m : Nat) (f : MemBank → MemBank) (s : State) : (updBank m f s).mem = s.mem := by simp [updBank]

@[simp] theorem mem_logMem (m addr kind symbol : Nat) (s : State) : (logMem m addr kind symbol s).mem = s.mem := by simp [logMem]

@[simp] theorem mem_freeNat (s : State) : (freeNat s).1.mem = s.mem := by simp [freeNat]

@[simp] theorem mem_logOpen (m kind : Nat) (s : State) : (logOpen m kind s).mem = s.mem := by simp [logOpen]

@[simp] theorem mem_sectorAddr (s : State) (k : Nat) : (sectorAddr s k).1.mem = s.mem := by
  unfold sectorAddr
  split <;> simp

@[simp] theorem mem_mend (l : List Nat) (s : State) : (mend l s).mem = s.mem := by simp [mend]

@[simp] theorem mem_spoil (l : List Nat) (s : State) : (spoil l s).mem = s.mem := by simp [spoil]

@[simp] theorem mem_findOnRead (q : Nat) (s : State) : (findOnRead q s).mem = s.mem := by
  unfold findOnRead
  split <;> simp

@[simp] theorem mem_demandRead (l : Loc) (n : Nat) (s : State) : (demandRead l n s).mem = s.mem := by simp [demandRead]

@[simp] theorem mem_demandWrite (l : Loc) (n : Nat) (mask : List Bool) (s : State) : (demandWrite l n mask s).mem = s.mem := by simp [demandWrite]

@[simp] theorem mem_pagerRead (k n : Nat) (s : State) : (pagerRead k n s).mem = s.mem := by simp [pagerRead]

/-! ### Load/store unit -/

@[simp] theorem mem_dropCounts (s : State) (h o n : Nat) : (dropCounts s h o n).mem = s.mem := by simp [dropCounts]

@[simp] theorem mem_dirtyLines (s : State) (die h o n : Nat) : (dirtyLines s die h o n).mem = s.mem := by simp [dirtyLines]

@[simp] theorem mem_countRead (s : State) (die h o n : Nat) : (countRead s die h o n).mem = s.mem := by simp [countRead]

@[simp] theorem mem_acqRead (c : Nat) (l : Loc) (n : Nat) (s : State) : (acqRead c l n s).mem = s.mem := by
  unfold acqRead
  split <;> simp

@[simp] theorem mem_post (c : Nat) (s : State) (ptr : Word) (l : Loc) (op : AccessOp) (own : Option Nat) (e : CEntry) (after : List Nat) :
    (post c s ptr l op own e after).mem = s.mem := by simp [post]

@[simp] theorem mem_clearWhole (ls : List Nat) (s : State) : (clearWhole ls s).mem = s.mem := by simp [clearWhole]

@[simp] theorem mem_giveBuf (s : State) (hold idx own : Nat) : (giveBuf s hold idx own).mem = s.mem := by simp [giveBuf]

@[simp] theorem mem_prefLine (s : State) (die h o n : Nat) : (prefLine s die h o n).mem = s.mem := by simp [prefLine]

/-! ### Control unit -/

@[simp] theorem mem_resultAll (c : Nat) (o : State) (n : Nat) (x : Word) (lat : Nat) (s : State) :
    (resultAll c o n x lat s).mem = s.mem := by simp [resultAll]

@[simp] theorem mem_dropTlb (s : State) (dies : List Nat) : (dropTlb s dies).mem = s.mem := by simp [dropTlb]

@[simp] theorem mem_meetTruth (v : Nat) (s : State) (l : Nat) : (meetTruth v s l).mem = s.mem := by
  unfold meetTruth
  dsimp only
  split <;> simp

@[simp] theorem mem_publish (s : State) (part slot v : Nat) : (publish s part slot v).mem = s.mem := by simp [publish]

@[simp] theorem mem_unpublish (s : State) (part slot : Nat) : (unpublish s part slot).mem = s.mem := by simp [unpublish]

/-! ### Issue -/

@[simp] theorem mem_logErr (e : BitVec 128) (s : State) : (logErr e s).mem = s.mem := by simp [logErr]

@[simp] theorem mem_fireTrig (cause : Nat) (code : BitVec 8) (s : State) : (fireTrig cause code s).mem = s.mem := by simp [fireTrig]

@[simp] theorem mem_snapFault (code : BitVec 8) (s : State) : (snapFault code s).mem = s.mem := by simp [snapFault]

@[simp] theorem mem_snapVcc (c v v' : Nat) (s : State) : (snapVcc c v v' s).mem = s.mem := by simp [snapVcc]

@[simp] theorem mem_sendFrom (c : Nat) (dst : Node) (after : List Nat) (body : PBody) (s : State) :
    (sendFrom c dst after body s).mem = s.mem := by simp [sendFrom]

@[simp] theorem mem_unhold (c : Nat) (ids : List Nat) (s : State) : (unhold c ids s).mem = s.mem := by simp [unhold]

theorem mem_releaseEntry (c : Nat) (r : Release) (e : CEntry) : (releaseEntry c r e).s.mem = r.s.mem := by
  unfold releaseEntry; split <;> simp

@[simp] theorem mem_foldl_releaseEntry (c : Nat) (l : List CEntry) (r : Release) : (l.foldl (releaseEntry c) r).s.mem = r.s.mem :=
  foldl_keeps (g := fun r : Release => r.s.mem) (mem_releaseEntry c) l r

@[simp] theorem mem_releaseQueue (c : Nat) (s : State) : (releaseQueue c s).mem = s.mem := by simp [releaseQueue]

@[simp] theorem mem_dropBehind (c : Nat) (s : State) : (dropBehind c s).mem = s.mem := by simp [dropBehind]

@[simp] theorem mem_releaseHeld (c : Nat) (l : List CEntry) (s : State) : (releaseHeld c l s).mem = s.mem := by simp [releaseHeld]

@[simp] theorem mem_failLaunch (l : Nat) (code : BitVec 8) (who : Nat) (s : State) : (failLaunch l code who s).mem = s.mem := by simp [failLaunch]

@[simp] theorem mem_freeCore (c : Nat) (s : State) : (freeCore c s).mem = s.mem := by
  unfold freeCore
  split <;> simp

@[simp] theorem mem_leaveTask (g : List Nat) (s : State) : (leaveTask g s).mem = s.mem := by
  unfold leaveTask
  (repeat' split) <;> simp

@[simp] theorem mem_endFaulted (g : List Nat) (code : BitVec 8) (s : State) : (endFaulted g code s).mem = s.mem := by
  unfold endFaulted
  (repeat' split) <;> simp

@[simp] theorem mem_takeFault (g : List Nat) (f : FaultInfo) (s : State) : (takeFault g f s).mem = s.mem := by
  unfold takeFault
  split <;> simp

@[simp] theorem mem_markRolled (m : CheckMode) (s : State) : (markRolled m s).mem = s.mem := by simp [markRolled]

@[simp] theorem mem_judgePhase (g : List Nat) (s : State) : (judgePhase g s).1.mem = s.mem := by
  unfold judgePhase
  dsimp only
  (repeat' split) <;> simp

@[simp] theorem mem_setPause (g : List Nat) (cause : Nat) (s : State) : (setPause g cause s).mem = s.mem := by simp [setPause]

@[simp] theorem mem_wake (w : Option (Nat × Nat)) (s : State) : (wake w s).mem = s.mem := by
  unfold wake
  split <;> simp

@[simp] theorem mem_clearPause (g : List Nat) (s : State) : (clearPause g s).mem = s.mem := by simp [clearPause]

@[simp] theorem mem_tendFree (g : List Nat) (s : State) : (tendFree g s).mem = s.mem := by
  unfold tendFree
  dsimp only
  rw [mem_leaveTask, mem_foldl]
  · (repeat' split) <;> simp
  · intro q t
    dsimp only
    split <;> rfl

@[simp] theorem mem_setStage (g : List Nat) (st : TaskStage) (s : State) : (setStage g st s).mem = s.mem := by simp [setStage]

@[simp] theorem mem_tendLand (g : List Nat) (s : State) : (tendLand g s).mem = s.mem := by simp [tendLand]

@[simp] theorem mem_tendFault (g : List Nat) (q t : Nat) (s : State) : (tendFault g q t s).mem = s.mem := by simp [tendFault]

@[simp] theorem mem_tendGo (g : List Nat) (s : State) : (tendGo g s).mem = s.mem := by
  unfold tendGo
  dsimp only
  (repeat' split) <;> simp

@[simp] theorem mem_finishBundle (g : List Nat) (o s : State) : (finishBundle g o s).mem = s.mem := by
  unfold finishBundle
  split <;> simp

@[simp] theorem mem_takeDeferred (g : List Nat) (s : State) : (takeDeferred g s).mem = s.mem := by
  unfold takeDeferred
  split <;> simp

@[simp] theorem mem_dropCheck (g : List Nat) (s : State) : (dropCheck g s).mem = s.mem := by simp [dropCheck]

/-! ### Engines -/

@[simp] theorem mem_enterCmd (c : Nat) (o s : State) (ext int sw : Bool) (f : Refetch) (toks : List Nat) (engine : BitVec 4) (push : List Nat → Option (BitVec 8) → Body → Body) :
    (enterCmd c o s ext int sw f toks engine push).mem = s.mem := by simp [enterCmd]

@[simp] theorem mem_endTok (c t : Nat) (orphan : Bool) (who : Issuer) (st : TokStatus) (code : BitVec 8) (prog : Nat) (s : State) :
    (endTok c t orphan who st code prog s).mem = s.mem := by simp [endTok]

/-! ### The home of an access -/

@[simp] theorem mem_freeBytes (s : State) (n : Nat) : (freeBytes s n).1.mem = s.mem := by simp [freeBytes]

@[simp] theorem mem_freeTensorPages (s : State) (h : Nat) : (freeTensorPages s h).mem = s.mem := by simp [freeTensorPages]

@[simp] theorem mem_sendDelta (src stripe off : Nat) (bytes : List Byte) (s : State) :
    (sendDelta src stripe off bytes s).mem = s.mem := by simp [sendDelta]

@[simp] theorem mem_updPort (s : State) (q : Nat) (f : Port → Port) : (updPort s q f).mem = s.mem := by simp [updPort]

@[simp] theorem mem_putPort (q port : Nat) (p : NetPacket) (s : State) : (putPort q port p s).mem = s.mem := by simp [putPort]

@[simp] theorem mem_toLocal (p : NetPacket) (s : State) : (toLocal p s).mem = s.mem := by simp [toLocal]

@[simp] theorem mem_netRoute (q : Nat) (p : NetPacket) (s : State) : (netRoute q p s).1.mem = s.mem := by
  unfold netRoute
  dsimp only
  (repeat' split) <;> simp

@[simp] theorem mem_netSend (p : NetPacket) (s : State) : (netSend p s).1.mem = s.mem := by simp [netSend]

@[simp] theorem mem_sendMdelta (d j off : Nat) (bytes : List Byte) (s : State) : (sendMdelta d j off bytes s).mem = s.mem := by simp [sendMdelta]

@[simp] theorem mem_tagDeltas (old who : Nat) (s : State) : (tagDeltas old who s).mem = s.mem := by simp [tagDeltas]

@[simp] theorem mem_dieDelta (h page off : Nat) (bytes : List Byte) (s : State) : (dieDelta h page off bytes s).mem = s.mem := by
  unfold dieDelta
  split <;> simp

@[simp] theorem mem_modDelta (h page off : Nat) (bytes : List Byte) (s : State) : (modDelta h page off bytes s).mem = s.mem := by
  unfold modDelta
  split <;> simp

@[simp] theorem mem_pageDelta (s : State) (h page off : Nat) (bytes : List Byte) : (pageDelta s h page off bytes).mem = s.mem := by simp [pageDelta]

@[simp] theorem mem_survDelta (s : State) (h o : Nat) (d : List Byte) : (survDelta s h o d).mem = s.mem := by simp [survDelta]

@[simp] theorem mem_hforceEnd (d why : Nat) (s : State) : (hforceEnd d why s).mem = s.mem := by simp [hforceEnd]

@[simp] theorem mem_dropMove (h : Nat) (s : State) : (dropMove h s).mem = s.mem := by simp [dropMove]

@[simp] theorem mem_updMove (h : Nat) (f : Move → Move) (s : State) : (updMove h f s).mem = s.mem := by simp [updMove]

@[simp] theorem mem_nextPage (h : Nat) (s : State) : (nextPage h s).mem = s.mem := by simp [nextPage]

@[simp] theorem mem_markMove (h o n : Nat) (s : State) : (markMove h o n s).mem = s.mem := by
  unfold markMove
  split <;> simp

@[simp] theorem mem_atHbm (l : Loc) (op : AccessOp) (s : State) : (atHbm l op s).mem = s.mem := by simp [atHbm]

@[simp] theorem mem_spoilRecipe (h : Nat) (s : State) : (spoilRecipe h s).mem = s.mem := by simp [spoilRecipe]

@[simp] theorem mem_linkWritten (h : Nat) (s : State) : (linkWritten h s).mem = s.mem := by simp [linkWritten]

/-! ### The copy engine -/

@[simp] theorem mem_endXf (c : Nat) (x : XfCmd) (st : TokStatus) (code : BitVec 8) (s : State) : (endXf c x st code s).mem = s.mem := by simp [endXf]

@[simp] theorem mem_updXf (c : Nat) (x : XfCmd) (f : XfCmd → XfCmd) (s : State) : (updXf c x f s).mem = s.mem := by simp [updXf]

@[simp] theorem mem_markPoison (s : State) (l : Loc) (bad : List Bool) : (markPoison s l bad).mem = s.mem := by simp [markPoison]

@[simp] theorem mem_afterLine (c : Nat) (x : XfCmd) (s : State) : (afterLine c x s).mem = s.mem := by simp [afterLine]

@[simp] theorem mem_lineDone (c : Nat) (x : XfCmd) (id : Nat) (s : State) : (lineDone c x id s).mem = s.mem := by simp [lineDone]

@[simp] theorem mem_lineStop (c : Nat) (x : XfCmd) (e : EngStop) (s : State) : (lineStop c x e s).mem = s.mem := by
  unfold lineStop
  split <;> simp

@[simp] theorem mem_cancelCmds (c : Nat) (names : List Nat) (s : State) : (cancelCmds c names s).mem = s.mem := by simp [cancelCmds]

@[simp] theorem mem_askPeer (c : Nat) (x : XfCmd) (row : Nat) (p : Word) (n hi f i : Nat) (s : State) :
    (askPeer c x row p n hi f i s).mem = s.mem := by
  induction f generalizing i s with
  | zero => rfl
  | succ f ih => unfold askPeer; dsimp only; (repeat' split) <;> simp [ih]

@[simp] theorem mem_forgetReads (c : Nat) (x : XfCmd) (row hi : Nat) (s : State) : (forgetReads c x row hi s).mem = s.mem := by simp [forgetReads]

@[simp] theorem mem_askBlock (c : Nat) (x : XfCmd) (s : State) : (askBlock c x s).mem = s.mem := by
  unfold askBlock
  (repeat' split) <;> simp

@[simp] theorem mem_redMismatch (l : List (Nat × XfCmd)) (s : State) : (redMismatch l s).mem = s.mem := by simp [redMismatch]

@[simp] theorem mem_peerData (c tok req : Nat) (st : PeerStatus) (data : List Byte) (s : State) : (peerData c tok req st data s).mem = s.mem := by
  unfold peerData
  (repeat' split) <;> simp

@[simp] theorem mem_tokTimeout (c : Nat) (x : XfCmd) (s : State) : (tokTimeout c x s).mem = s.mem := by simp [tokTimeout]

/-! ### The matrix engine -/

@[simp] theorem mem_updHead (c : Nat) (f : MxCmd → MxCmd) (s : State) : (updHead c f s).mem = s.mem := by simp [updHead]

@[simp] theorem mem_endMx (c : Nat) (st : TokStatus) (code : BitVec 8) (prog : Nat) (s : State) : (endMx c st code prog s).mem = s.mem := by
  unfold endMx
  split <;> simp

@[simp] theorem mem_failMx (c : Nat) (joint : Bool) (code : BitVec 8) (prog : Nat) (s : State) :
    (failMx c joint code prog s).mem = s.mem := by simp [failMx]

@[simp] theorem mem_setMicro (c : Nat) (st : MicroState) (s : State) : (setMicro c st s).mem = s.mem := by simp [setMicro]

@[simp] theorem mem_runMac (causalMask : Bool) (c : Nat) (s : State) : (runMac causalMask c s).mem = s.mem := by
  unfold runMac
  split <;> simp

@[simp] theorem mem_runMbcast (c : Nat) (s : State) : (runMbcast c s).mem = s.mem := by
  unfold runMbcast
  split <;> simp

@[simp] theorem mem_runMskip (x : BitVec 16) (c : Nat) (s : State) : (runMskip x c s).mem = s.mem := by
  unfold runMskip
  split <;> simp

@[simp] theorem mem_runMnext (ra rb : BitVec 3) (c : Nat) (s : State) : (runMnext ra rb c s).mem = s.mem := by
  unfold runMnext
  split <;> simp

@[simp] theorem mem_runMloop (ct : BitVec 2) (x : BitVec 16) (c : Nat) (s : State) : (runMloop ct x c s).mem = s.mem := by
  unfold runMloop
  split <;> simp

@[simp] theorem mem_runMnorm (x : BitVec 8) (c : Nat) (s : State) : (runMnorm x c s).mem = s.mem := by
  unfold runMnorm
  split <;> simp

@[simp] theorem mem_runMend (c : Nat) (s : State) : (runMend c s).mem = s.mem := by
  unfold runMend
  split <;> simp

@[simp] theorem mem_runMsync (c : Nat) (s : State) : (runMsync c s).mem = s.mem := by
  have step : ∀ q, KeepsMem (fun t => match microOf t q with | some (_, m) => setMicro q (nextU { m with sync := false }) t | none => t) := by
    intro q t
    dsimp only
    split <;> simp
  unfold runMsync
  dsimp only
  split
  · rfl
  split
  · simp
  split
  · exact (mem_foldl step _ _).trans (mem_setMicro ..)
  · simp

@[simp] theorem mem_startMx (c : Nat) (m : MxCmd) (s : State) : (startMx c m s).mem = s.mem := by simp [startMx]

@[simp] theorem mem_beginMx (c tok : Nat) (s : State) : (beginMx c tok s).mem = s.mem := by
  have step : ∀ q, KeepsMem (fun t => match mxHead t q with | some m => startMx q m t | none => t) := by
    intro q t
    dsimp only
    split <;> simp
  unfold beginMx
  split
  · rfl
  · simp only [mem_ite]
    split
    · rfl
    · split
      · rfl
      · split
        · rfl
        · split
          · simp
          · exact mem_foldl step _ _

/-! ### Bundles -/

@[simp] theorem mem_setHeader (g : List Nat) (hdr : Nat) (words : List Nat) (s : State) : (setHeader g hdr words s).mem = s.mem := by simp [setHeader]

@[simp] theorem mem_unpause (g : List Nat) (s : State) : (unpause g s).mem = s.mem := by simp [unpause]

/-! ### Tasks -/

@[simp] theorem mem_killCmds (c : Nat) (s : State) : (killCmds c s).mem = s.mem := by simp [killCmds]

@[simp] theorem mem_killTask (c : Nat) (s : State) : (killTask c s).mem = s.mem := by simp [killTask]

@[simp] theorem mem_dropFrames (p : Task → Bool) (c : Nat) (s : State) : (dropFrames p c s).mem = s.mem := by simp [dropFrames]

@[simp] theorem mem_dropSaved (p : Task → Bool) (s : State) : (dropSaved p s).mem = s.mem := by simp [dropSaved]

@[simp] theorem mem_killLaunch (l : Nat) (s : State) : (killLaunch l s).mem = s.mem := by simp [killLaunch]

@[simp] theorem mem_dropShares (p : Share → Bool) (s : State) : (dropShares p s).mem = s.mem := by simp [dropShares]

@[simp] theorem mem_unmapCluster (cl : Nat) (s : State) : (unmapCluster cl s).mem = s.mem := by simp [unmapCluster]

@[simp] theorem mem_retireCluster (cl : Nat) (s : State) : (retireCluster cl s).mem = s.mem := by simp [retireCluster]

@[simp] theorem mem_freezeTask (c : Nat) (s : State) : (freezeTask c s).mem = s.mem := by simp [freezeTask]

@[simp] theorem mem_preemptTask (c : Nat) (s : State) : (preemptTask c s).mem = s.mem := by simp [preemptTask]

/-! ### Events of a core -/

@[simp] theorem mem_updLanding (c id : Nat) (f : Landing → Landing) (s : State) : (updLanding c id f s).mem = s.mem := by simp [updLanding]

@[simp] theorem mem_rollBack (c : Nat) (s : State) : (rollBack c s).mem = s.mem := by
  unfold rollBack
  dsimp only
  (repeat' split) <;> simp

@[simp] theorem mem_retireAfterRerun (cl : Nat) (s : State) : (retireAfterRerun cl s).mem = s.mem := by
  unfold retireAfterRerun
  dsimp only
  (repeat' split) <;> simp

@[simp] theorem mem_scrubSector (c sector : Nat) (found : ScrubFind) (s : State) : (scrubSector c sector found s).mem = s.mem := by
  unfold scrubSector
  dsimp only
  (repeat' split) <;> simp

@[simp] theorem mem_finishWake (c bank : Nat) (s : State) : (finishWake c bank s).mem = s.mem := by simp [finishWake]

@[simp] theorem mem_finishTable (c ts : Nat) (s : State) : (finishTable c ts s).mem = s.mem := by simp [finishTable]

/-! ### Contexts -/

@[simp] theorem mem_sendVec (part v : Nat) (s : State) : (sendVec part v s).mem = s.mem := by simp [sendVec]

@[simp] theorem mem_setChain (c : Nat) (chain : List Nat) (s : State) : (setChain c chain s).mem = s.mem := by simp [setChain]

@[simp] theorem mem_ctxFaulted (c : Nat) (code : BitVec 8) (s : State) : (ctxFaulted c code s).mem = s.mem := by simp [ctxFaulted]

@[simp] theorem mem_failSub (h : Nat) (s : State) : (failSub h s).mem = s.mem := by simp [failSub]

@[simp] theorem mem_streamFault (c : Nat) (code : BitVec 8) (info : Word) (len : Nat) (chain : List Nat) (s : State) :
    (streamFault c code info len chain s).mem = s.mem := by
  unfold streamFault
  dsimp only
  (repeat' split) <;> simp

/-! ### Residency -/

@[simp] theorem mem_dropEntries (h : Nat) (s : State) : (dropEntries h s).mem = s.mem := by simp [dropEntries]

@[simp] theorem mem_markLost (h : Nat) (s : State) : (markLost h s).mem = s.mem := by simp [markLost]

@[simp] theorem mem_freeRecipe (h : Nat) (s : State) : (freeRecipe h s).mem = s.mem := by
  unfold freeRecipe
  split <;> simp

@[simp] theorem mem_pageContents (h page : Nat) (s : State) : (pageContents h page s).mem = s.mem := by simp [pageContents]

@[simp] theorem mem_assignPage (h i : Nat) (s : State) : (assignPage h i s).mem = s.mem := by
  unfold assignPage
  dsimp only
  (repeat' split) <;> simp

@[simp] theorem mem_assignParity (h : Nat) (s : State) : (assignParity h s).mem = s.mem := by simp [assignParity]

@[simp] theorem mem_releaseParity (h : Nat) (s : State) : (releaseParity h s).mem = s.mem := by simp [releaseParity]

@[simp] theorem mem_dropLines (h : Nat) (s : State) : (dropLines h s).mem = s.mem := by simp [dropLines]

@[simp] theorem mem_answerLine (tag line : Nat) (code : Option (BitVec 8)) (s : State) : (answerLine tag line code s).mem = s.mem := by
  unfold answerLine
  dsimp only
  (repeat' split) <;> simp

@[simp] theorem mem_discardBounced (h : Nat) (code : BitVec 8) (s : State) : (discardBounced h code s).mem = s.mem := by simp [discardBounced]

@[simp] theorem mem_pinDropped (h : Nat) (s : State) : (pinDropped h s).mem = s.mem := by simp [pinDropped]

@[simp] theorem mem_setHstat (d bit : Nat) (s : State) : (setHstat d bit s).mem = s.mem := by simp [setHstat]

@[simp] theorem mem_refreshUse (h : Nat) (s : State) : (refreshUse h s).mem = s.mem := by
  unfold refreshUse
  dsimp only
  (repeat' split) <;> simp

@[simp] theorem mem_setUses (h : Nat) (list base : Word) (s : State) : (setUses h list base s).mem = s.mem := by simp [setUses]

@[simp] theorem mem_beginMove (h : Nat) (restore comp forced : Bool) (s : State) :
    (beginMove h restore comp forced s).mem = s.mem := by simp [beginMove]

@[simp] theorem mem_placedAt (h : Nat) (s : State) : (placedAt h s).mem = s.mem := by simp [placedAt]

@[simp] theorem mem_endSpill (h : Nat) (forced : Bool) (s : State) : (endSpill h forced s).mem = s.mem := by simp [endSpill]

@[simp] theorem mem_allocTensor (h : Nat) (s : State) : (allocTensor h s).mem = s.mem := by simp [allocTensor]

@[simp] theorem mem_requestRestore (h : Nat) (s : State) : (requestRestore h s).mem = s.mem := by simp [requestRestore]

@[simp] theorem mem_updReissue (h : Nat) (f : Reissue → Reissue) (s : State) : (updReissue h f s).mem = s.mem := by simp [updReissue]

@[simp] theorem mem_failRes (l : Nat) (code : BitVec 8) (chain : List Nat) (s : State) : (failRes l code chain s).mem = s.mem := by simp [failRes]

@[simp] theorem mem_refuseCtx (c h : Nat) (code : BitVec 8) (chain : List Nat) (s : State) : (refuseCtx c h code chain s).mem = s.mem := by
  unfold refuseCtx
  dsimp only
  (repeat' split) <;> simp

/-! ### Events of a Hasp slice -/

@[simp] theorem mem_latchRecord (d : Nat) (v : BitVec 64) (s : State) : (latchRecord d v s).mem = s.mem := by simp [latchRecord]

@[simp] theorem mem_writeHforce_hforceEndBusy (d : Nat) (s : State) :
    (writeHforce.hforceEndBusy d s).mem = s.mem := by simp [writeHforce.hforceEndBusy]

@[simp] theorem mem_startSub (d : Nat) (s : State) : (startSub d s).mem = s.mem := by
  unfold startSub
  dsimp only
  (repeat' split) <;> simp

@[simp] theorem mem_walkPage (d ia : Nat) (s : State) : (walkPage d ia s).mem = s.mem := by simp [walkPage]

@[simp] theorem mem_fillRange (c h : Nat) (s : State) : (fillRange c h s).mem = s.mem := by
  unfold fillRange
  split <;> simp

/-! ### Stream instructions -/

@[simp] theorem mem_setQ (c n : Nat) (v : Word) (s : State) : (setQ c n v s).mem = s.mem := by simp [setQ]

@[simp] theorem mem_addEvent (c e n : Nat) (s : State) : (addEvent c e n s).mem = s.mem := by simp [addEvent]

@[simp] theorem mem_toBody (c pos : Nat) (s : State) : (toBody c pos s).mem = s.mem := by simp [toBody]

@[simp] theorem mem_branch (c words : Nat) (taken : Bool) (d : Int) (s : State) : (branch c words taken d s).mem = s.mem := by
  unfold branch; dsimp only; (repeat' split) <;> simp [mem_advancePc]

@[simp] theorem mem_beginWait (c : Nat) (k : WaitKind) (s : State) : (beginWait c k s).mem = s.mem := by simp [beginWait]

@[simp] theorem mem_sendStq (c : Nat) (p : Word) (l : Loc) (bytes : List Byte) (s : State) : (sendStq c p l bytes s).mem = s.mem := by
  unfold sendStq
  dsimp only
  split <;> simp

/-! ### Launches by a stream -/

@[simp] theorem mem_predict (s : State) (d part : Nat) (p : PredFields) : (predict s d part p).2.mem = s.mem := by
  unfold predict
  dsimp only
  (repeat' split) <;> simp

/-! ### Launches -/

@[simp] theorem mem_wakeCtx (c : Nat) (s : State) : (wakeCtx c s).mem = s.mem := by simp [wakeCtx]

@[simp] theorem mem_wakeWait (c : Nat) (s : State) : (wakeWait c s).mem = s.mem := by
  unfold wakeWait; (repeat' split) <;> simp [mem_advancePc]

@[simp] theorem mem_waitLimit (c : Nat) (s : State) : (waitLimit c s).mem = s.mem := by
  unfold waitLimit
  dsimp only
  split <;> simp

@[simp] theorem mem_takeSignals (c : Nat) (s : State) : (takeSignals c s).mem = s.mem := by simp [takeSignals]

@[simp] theorem mem_deliverFailure (c : Nat) (s : State) : (deliverFailure c s).mem = s.mem := by
  unfold deliverFailure
  dsimp only
  split <;> simp

@[simp] theorem mem_queueWaitEnd (c : Nat) (s : State) : (queueWaitEnd c s).mem = s.mem := by simp [queueWaitEnd]

@[simp] theorem mem_passBy (l : Nat) (s : State) : (passBy l s).mem = s.mem := by simp [passBy]

@[simp] theorem mem_restoreTimeout (l : Nat) (s : State) : (restoreTimeout l s).mem = s.mem := by simp [restoreTimeout]

@[simp] theorem mem_sendShares (l : Nat) (tasks : List TaskItem) (s : State) : (sendShares l tasks s).mem = s.mem := by simp [sendShares]

@[simp] theorem mem_trimDone (l : Nat) (p : Pred) (t : Nat) (s : State) : (trimDone l p t s).mem = s.mem := by simp [trimDone]

@[simp] theorem mem_releaseFor (l : Nat) (s : State) (h : Nat × Nat × CEntry) : (releaseFor l s h).mem = s.mem := by
  unfold releaseFor
  split <;> simp

@[simp] theorem mem_confirmCore (s : State) (c : Nat) : (confirmCore s c).mem = s.mem := by simp [confirmCore]

@[simp] theorem mem_cutShares (l : Nat) (p : Pred) (t : Nat) (s : State) : (cutShares l p t s).mem = s.mem := by simp [cutShares]

@[simp] theorem mem_noteInputs (x : Launch) (s : State) : (noteInputs x s).mem = s.mem := by simp [noteInputs]

@[simp] theorem mem_failEarly (l : Nat) (code : BitVec 8) (s : State) : (failEarly l code s).mem = s.mem := by simp [failEarly]

@[simp] theorem mem_failColl (l : Nat) (code : BitVec 8) (s : State) : (failColl l code s).mem = s.mem := by simp [failColl]

@[simp] theorem mem_sendColl (l : Nat) (x : Launch) (b : List Byte) (s : State) : (sendColl l x b s).mem = s.mem := by
  unfold sendColl
  dsimp only
  split
  · rfl
  · rw [mem_ite, mem_failColl, foldl_keeps (g := fun a : State × Bool => a.1.mem), ite_self]
    intro a i
    split <;> simp

@[simp] theorem mem_giveShare (h : Share) (s : State) : (giveShare h s).mem = s.mem := by simp [giveShare]

@[simp] theorem mem_shareArrival (d : Nat) (s : State) : (shareArrival d s).mem = s.mem := by
  unfold shareArrival
  split <;> simp

@[simp] theorem mem_noteWrites (x : Launch) (s : State) : (noteWrites x s).mem = s.mem := by simp [noteWrites]

@[simp] theorem mem_writeShape (part slot : Nat) (v : BitVec 32) (s : State) : (writeShape part slot v s).mem = s.mem := by simp [writeShape]

/-! ### Dispatchers -/

@[simp] theorem mem_startCore (h : Share) (it : TaskItem) (s : State) (c : Nat) : (startCore h it s c).mem = s.mem := by simp [startCore]

@[simp] theorem mem_startTask (g : List Nat) (h : Share) (s : State) : (startTask g h s).mem = s.mem := by
  unfold startTask
  split <;> simp

@[simp] theorem mem_preemptFor (group : Bool) (cl : Nat) (s : State) : (preemptFor group cl s).mem = s.mem := by
  unfold preemptFor
  (repeat' split) <;> simp

@[simp] theorem mem_realtimePreempt (cl : Nat) (s : State) : (realtimePreempt cl s).mem = s.mem := by
  unfold realtimePreempt
  split <;> simp

@[simp] theorem mem_chooseShare (cl : Nat) (s : State) : (chooseShare cl s).mem = s.mem := by
  unfold chooseShare
  dsimp only
  (repeat' split) <;> simp

@[simp] theorem mem_holdTimeout (cl : Nat) (s : State) : (holdTimeout cl s).mem = s.mem := by
  unfold holdTimeout
  dsimp only
  (repeat' split) <;> simp

@[simp] theorem mem_subTimeout (cl : Nat) (s : State) : (subTimeout cl s).mem = s.mem := by
  unfold subTimeout
  split <;> simp

@[simp] theorem mem_resumeTend (g : List Nat) (s : State) : (resumeTend g s).mem = s.mem := by simp [resumeTend]

@[simp] theorem mem_completeSave (c : Nat) (s : State) : (completeSave c s).mem = s.mem := by
  unfold completeSave
  dsimp only
  (repeat' split) <;> simp

@[simp] theorem mem_writePreempt (p : Nat) (v : Word) (s : State) : (writePreempt p v s).mem = s.mem := by simp [writePreempt]

@[simp] theorem mem_freezeEnd (part : Nat) (code : BitVec 8) (c : Nat) (t : Task) (s : State) :
    (freezeOrEnd.freezeEnd part code c t s).mem = s.mem := by
  simp [freezeOrEnd.freezeEnd]

@[simp] theorem mem_freezeOrEnd (part : Nat) (code : BitVec 8) (s : State) (c : Nat) : (freezeOrEnd part code s c).mem = s.mem := by
  unfold freezeOrEnd; (repeat' split) <;> simp

@[simp] theorem mem_haltPartition (c : Nat) (s : State) : (haltPartition c s).mem = s.mem := by
  unfold haltPartition
  split <;> simp

@[simp] theorem mem_releasePart (p : Nat) (s : State) : (releasePart p s).mem = s.mem := by
  unfold releasePart
  dsimp only
  (repeat' split) <;> simp

/-! ### The fabric -/

@[simp] theorem mem_dropPacket (id : Nat) (s : State) : (dropPacket id s).mem = s.mem := by simp [dropPacket]

@[simp] theorem mem_accessOver (p : Packet) (s : State) : (accessOver p s).mem = s.mem := by simp [accessOver]

@[simp] theorem mem_storeFails (p : Packet) (e : CEntry) (cause : BitVec 8) (s : State) : (storeFails p e cause s).mem = s.mem := by
  unfold storeFails
  dsimp only
  (repeat' split) <;> simp

@[simp] theorem mem_dropLanding (c id : Nat) (s : State) : (dropLanding c id s).mem = s.mem := by simp [dropLanding]

@[simp] theorem mem_loadFails (p : Packet) (ptr : Word) (e : CEntry) (code : BitVec 8) (s : State) :
    (loadFails p ptr e code s).mem = s.mem := by simp [loadFails]

@[simp] theorem mem_answer (p : Packet) (body : PBody) (s : State) : (answer p body s).mem = s.mem := by simp [answer]

@[simp] theorem mem_giveAnswer (p : Packet) (op : AccessOp) (r : Option (BitVec 1024 × Bool)) (s : State) : (giveAnswer p op r s).mem = s.mem := by
  unfold giveAnswer
  split <;> simp

@[simp] theorem mem_netAnswer (b : List Byte) (vl kind arg line : Nat) (s : State) :
    (netAnswer b vl kind arg line s).mem = s.mem := by simp [netAnswer]

@[simp] theorem mem_refusePacket (b : List Byte) (s : State) : (refusePacket b s).mem = s.mem := by simp [refusePacket]

@[simp] theorem mem_netDone (b : List Byte) (s : State) : (netDone b s).mem = s.mem := by
  unfold netDone
  split <;> simp

@[simp] theorem mem_netLanded (b : List Byte) (s : State) : (netLanded b s).mem = s.mem := by
  unfold netLanded
  split <;> simp

@[simp] theorem mem_netFault (b : List Byte) (s : State) : (netFault b s).mem = s.mem := by
  unfold netFault
  (repeat' split) <;> simp

@[simp] theorem mem_netRed (b : List Byte) (s : State) : (netRed b s).mem = s.mem := by simp [netRed]

@[simp] theorem mem_netDeltaDone (b : List Byte) (s : State) : (netDeltaDone b s).mem = s.mem := by simp [netDeltaDone]

@[simp] theorem mem_markLack (p : Packet) (s : State) : (markLack p s).mem = s.mem := by simp [markLack]

/-! ### Links -/

@[simp] theorem mem_emitFlit (q : Nat) (f : LinkFlit) (seq : BitVec 16) (s : State) : (emitFlit q f seq s).mem = s.mem := by simp [emitFlit]

@[simp] theorem mem_payCredit (q : Nat) (f : LinkFlit) (s : State) : (payCredit q f s).mem = s.mem := by simp [payCredit]

@[simp] theorem mem_sendIdle (q : Nat) (s : State) : (sendIdle q s).mem = s.mem := by simp [sendIdle]

@[simp] theorem mem_sendNew (q vl : Nat) (s : State) : (sendNew q vl s).mem = s.mem := by
  unfold sendNew
  dsimp only
  split <;> simp

@[simp] theorem mem_sendFlit (q vl : Nat) (s : State) : (sendFlit q vl s).mem = s.mem := by
  unfold sendFlit
  dsimp only
  (repeat' split) <;> simp

@[simp] theorem mem_routeIn (q : Nat) (p : NetPacket) (s : State) : (routeIn q p s).mem = s.mem := by simp [routeIn]

@[simp] theorem mem_packetIn (q : Nat) (p : NetPacket) (s : State) : (packetIn q p s).mem = s.mem := by simp [packetIn]

@[simp] theorem mem_stirs (b : List Byte) (s : State) : (stirs b s).mem = s.mem := by simp [stirs]

@[simp] theorem mem_refuseFlit (q : Nat) (s : State) : (refuseFlit q s).mem = s.mem := by simp [refuseFlit]

@[simp] theorem mem_acceptFlit (q vl cvl ccnt : Nat) (s : State) : (acceptFlit q vl cvl ccnt s).mem = s.mem := by simp [acceptFlit]

@[simp] theorem mem_takeFlit (q : Nat) (b : List Byte) (s : State) : (takeFlit q b s).mem = s.mem := by
  unfold takeFlit
  dsimp only
  (repeat' split) <;> simp

@[simp] theorem mem_receiveFlit (q : Nat) (b : List Byte) (s : State) : (receiveFlit q b s).mem = s.mem := by simp [receiveFlit]

@[simp] theorem mem_failPort (q : Nat) (s : State) : (failPort q s).mem = s.mem := by simp [failPort]

@[simp] theorem mem_retrainPort (q : Nat) (ok : Bool) (s : State) : (retrainPort q ok s).mem = s.mem := by simp [retrainPort]

@[simp] theorem mem_writeNgport (q : Nat) (v : Word) (s : State) : (writeNgport q v s).mem = s.mem := by simp [writeNgport]

@[simp] theorem mem_portTrained (q : Nat) (lanes : BitVec 4) (s : State) : (portTrained q lanes s).mem = s.mem := by simp [portTrained]

@[simp] theorem mem_releaseRoute (q dest : Nat) (s : State) : (releaseRoute q dest s).mem = s.mem := by simp [releaseRoute]

/-! ### Memory channels -/

@[simp] theorem mem_retrainHbm (st ch : Nat) (ok : Bool) (s : State) : (retrainHbm st ch ok s).mem = s.mem := by simp [retrainHbm]

@[simp] theorem mem_retrainLp (io ch : Nat) (s : State) : (retrainLp io ch s).mem = s.mem := by simp [retrainLp]

@[simp] theorem mem_retried (m n : Nat) (s : State) : (retried m n s).mem = s.mem := by simp [retried]

@[simp] theorem mem_upset (q : Nat) (two : Bool) (s : State) : (upset q two s).mem = s.mem := by simp [upset]

@[simp] theorem mem_patrol (m q : Nat) (found : ScrubFind) (s : State) : (patrol m q found s).mem = s.mem := by
  unfold patrol
  split <;> simp

/-! ### The host port -/

@[simp] theorem mem_answerHost (a : HostAnswer) (s : State) : (answerHost a s).mem = s.mem := by simp [answerHost]

@[simp] theorem mem_apErr (part : Nat) (s : State) : (apErr part s).mem = s.mem := by simp [apErr]

@[simp] theorem mem_apServe (fn x n : Nat) (s : State) : (apServe fn x n s).mem = s.mem := by simp [apServe]

@[simp] theorem mem_askRead (fn x n : Nat) (s : State) : (askRead fn x n s).mem = s.mem := by simp [askRead]

@[simp] theorem mem_apRead (fn x n : Nat) (s : State) : (apRead fn x n s).mem = s.mem := by simp [apRead]

@[simp] theorem mem_apServeHeld (fn i : Nat) (s : State) : (apServeHeld fn i s).mem = s.mem := by
  unfold apServeHeld
  split <;> simp

@[simp] theorem mem_holdWrite (fn h o : Nat) (b : List Byte) (s : State) : (holdWrite fn h o b s).mem = s.mem := by simp [holdWrite]

@[simp] theorem mem_hdDone (p : Nat) (s : State) : (hdDone p s).mem = s.mem := by simp [hdDone]

@[simp] theorem mem_hdRefuse (p : Nat) (code : BitVec 8) (s : State) : (hdRefuse p code s).mem = s.mem := by simp [hdRefuse]

@[simp] theorem mem_refusePart (p why : Nat) (s : State) : (refusePart p why s).mem = s.mem := by simp [refusePart]

@[simp] theorem mem_writePartctl (p m v : Nat) (s : State) : (writePartctl p m v s).mem = s.mem := by
  unfold writePartctl
  dsimp only
  (repeat' split) <;> simp

@[simp] theorem mem_startCtx (c : Nat) (s : State) : (startCtx c s).mem = s.mem := by simp [startCtx]

@[simp] theorem mem_stopCtx (c : Nat) (s : State) : (stopCtx c s).mem = s.mem := by simp [stopCtx]

@[simp] theorem mem_dropAsks (p : Ask → Bool) (s : State) : (dropAsks p s).mem = s.mem := by simp [dropAsks]

@[simp] theorem mem_stopDone (c : Nat) (s : State) : (stopDone c s).mem = s.mem := by simp [stopDone]

@[simp] theorem mem_endDone (c : Nat) (s : State) : (endDone c s).mem = s.mem := by simp [endDone]

@[simp] theorem mem_writeMacstat (c m v : Nat) (s : State) : (writeMacstat c m v s).mem = s.mem := by simp [writeMacstat]

@[simp] theorem mem_clearMask (e : Nat) (s : State) : (clearMask e s).mem = s.mem := by
  unfold clearMask; exact mem_withMod s _

@[simp] theorem mem_sendPending (e : Nat) (s : State) : (sendPending e s).mem = s.mem := by
  unfold sendPending; split <;> simp

@[simp] theorem mem_unmask (e : Nat) (s : State) : (unmask e s).mem = s.mem := by
  rw [unmask_eq, mem_sendPending, mem_clearMask]

@[simp] theorem mem_configRequest (w : Option (Bool × BitVec 3)) (s : State) : (configRequest w s).mem = s.mem := by
  unfold configRequest
  split <;> simp

/-! ### Power -/

@[simp] theorem mem_updPower (f : Power → Power) (s : State) : (updPower f s).mem = s.mem := by simp [updPower]

@[simp] theorem mem_updTrust (f : Trust → Trust) (s : State) : (updTrust f s).mem = s.mem := by simp [updTrust]

@[simp] theorem mem_bootEnds (ok : Bool) (s : State) : (bootEnds ok s).mem = s.mem := by simp [bootEnds]

@[simp] theorem mem_updateFlash (copyB : Bool) (i : FwImage) (s : State) : (updateFlash copyB i s).mem = s.mem := by simp [updateFlash]

@[simp] theorem mem_thermalAlarm (s : State) : (thermalAlarm s).mem = s.mem := by simp [thermalAlarm]

@[simp] theorem mem_pinnedWays (d : Nat) (s : State) : (pinnedWays d s).1.mem = s.mem := by
  unfold pinnedWays
  split <;> simp

@[simp] theorem mem_writeLlcway (d m v : Nat) (s : State) : (writeLlcway d m v s).mem = s.mem := by simp [writeLlcway]

/-! ### Trust -/

@[simp] theorem mem_raiseAlarm (s : State) : (raiseAlarm s).mem = s.mem := by simp [raiseAlarm]

@[simp] theorem mem_alarmB (s : State) : (alarmB s).mem = s.mem := by simp [alarmB]

@[simp] theorem mem_writeMeasext (m v : Nat) (s : State) : (writeMeasext m v s).mem = s.mem := by simp [writeMeasext]

@[simp] theorem mem_updConn (tr : Transport) (f : Conn → Conn) (s : State) : (updConn tr f s).mem = s.mem := by simp [updConn]

@[simp] theorem mem_requestsVia (tr : Transport) (s : State) : (requestsVia tr s).mem = s.mem := by simp [requestsVia]

@[simp] theorem mem_reply (r : SpdmReply) (s : State) : (reply r s).mem = s.mem := by simp [reply]

@[simp] theorem mem_spdmFailed (s : State) : (spdmFailed s).mem = s.mem := by simp [spdmFailed]

@[simp] theorem mem_putSession (tr : Transport) (sess : Nat) (x : Option Session) (s : State) :
    (putSession tr sess x s).mem = s.mem := by simp [putSession]

@[simp] theorem mem_giveChallenge (s : State) : (giveChallenge s).mem = s.mem := by simp [giveChallenge]

@[simp] theorem mem_debugUnlock (ecdsa : BitVec 768) (hss : List Byte) (s : State) : (debugUnlock ecdsa hss s).mem = s.mem := by
  unfold debugUnlock
  dsimp only
  (repeat' split) <;> simp

/-! ### Snapshots -/

@[simp] theorem mem_latchBlock (block : Nat) (s : State) : (latchBlock block s).mem = s.mem := by simp [latchBlock]

@[simp] theorem mem_rearm (s : State) : (rearm s).mem = s.mem := by simp [rearm]

/-! ### Loss of a die -/

@[simp] theorem mem_updDb (f : Deadbolt → Deadbolt) (s : State) : (updDb f s).mem = s.mem := by simp [updDb]

@[simp] theorem mem_logDie (src d : Nat) (fence : Bool) (s : State) : (logDie src d fence s).mem = s.mem := by simp [logDie]

@[simp] theorem mem_loseHasp (d : Nat) (s : State) : (loseHasp d s).mem = s.mem := by simp [loseHasp]

@[simp] theorem mem_retireLost (d k : Nat) (s : State) : (retireLost d k s).mem = s.mem := by simp [retireLost]

@[simp] theorem mem_writeDbctl (m v : Nat) (s : State) : (writeDbctl m v s).mem = s.mem := by simp [writeDbctl]

@[simp] theorem mem_logStep (d : Nat) (s : State) : (logStep d s).mem = s.mem := by simp [logStep]

@[simp] theorem mem_rebuildRec (h : Nat) (r : TRec) (recipe : Option Recipe) (s : State) : (rebuildRec h r recipe s).mem = s.mem := by
  unfold rebuildRec
  dsimp only
  (repeat' split) <;> simp

/-! ### Registers -/

@[simp] theorem mem_msixWrite (e i m v : Nat) (s : State) : (msixWrite e i m v s).mem = s.mem := by
  unfold msixWrite; dsimp only; rw [mem_ite, mem_unmask, ite_self, mem_withMod]

@[simp] theorem mem_snapctlWrite (i m v : Nat) (s : State) : (snapctlWrite i m v s).mem = s.mem := by simp [snapctlWrite]

@[simp] theorem mem_countMiss (off : Nat) (write : Bool) (s : State) : (countMiss off write s).mem = s.mem := by
  unfold countMiss; exact mem_withMod s _

@[simp] theorem mem_holdAccess (acc : HostAccess) (s : State) : (holdAccess acc s).mem = s.mem := by simp [holdAccess]

@[simp] theorem mem_readWord (i3c : Bool) (off : Nat) (r : State × Nat) (w : Nat × Nat × Nat) : (readWord i3c off r w).1.mem = r.1.mem := by
  unfold readWord; dsimp only; (repeat' split) <;> simp

@[simp] theorem mem_readBytes (i3c : Bool) (off n : Nat) (s : State) : (readBytes i3c off n s).mem = s.mem := by
  unfold readBytes
  dsimp only
  rw [mem_answerHost, foldl_keeps (g := fun r : State × Nat => r.1.mem) (mem_readWord i3c off)]

@[simp] theorem mem_readBar0 (off n : Nat) (s : State) : (readBar0 off n s).mem = s.mem := by simp [readBar0]

@[simp] theorem mem_registerRead (via : Via) (off n : Nat) (s : State) : (registerRead via off n s).mem = s.mem := by
  cases via <;> simp only [registerRead, mem_readBar0, mem_readBytes]
  split
  · simp
  · split <;> simp

@[simp] theorem mem_deliverInbox (s : State) (q : Nat) : (deliverInbox s q).mem = s.mem := by simp [deliverInbox]

/-! ### The world outside -/

@[simp] theorem mem_coreError (c : Nat) (s : State) : (coreError c s).mem = s.mem := by simp [coreError]

@[simp] theorem mem_cacheError (die : Nat) (llc : Bool) (h line : Nat) (s : State) : (cacheError die llc h line s).mem = s.mem := by simp [cacheError]

@[simp] theorem mem_tileError (h tile : Nat) (s : State) : (tileError h tile s).mem = s.mem := by simp [tileError]

/-! ### Turns -/

@[simp] theorem mem_coreTurn (c : Nat) (s : State) : (coreTurn c s).1.mem = s.mem := by
  unfold coreTurn
  dsimp only
  (repeat' split) <;> simp

@[simp] theorem mem_observeRooms (s : State) : (observeRooms s).mem = s.mem := by simp [observeRooms]

@[simp] theorem mem_observeCores (s : State) : (observeCores s).mem = s.mem := by simp [observeCores]

@[simp] theorem mem_observeShares (s : State) : (observeShares s).mem = s.mem := by simp [observeShares]

end Sys2Proof.Machine
end

section
/-! The canonical form of memory (R217, R220) through the accesses of a core and the issue of its slots. -/

namespace Sys2Proof.Machine
open Sys2Proof.Safety

@[simp] theorem wf_ite (c : Prop) [Decidable c] (m n : Memory) : (if c then m else n).wf = if c then m.wf else n.wf := apply_ite ..

/-- A step that keeps memory in its canonical form. -/
def KeepsWf (f : State → State) : Prop := ∀ s, s.mem.wf = true → (f s).mem.wf = true

@[simp] theorem keepsWf_iff (f : State → State) : KeepsWf f ↔ ∀ s, s.mem.wf = true → (f s).mem.wf = true := Iff.rfl

@[simp] theorem wf_foldl {α : Type} {f : State → α → State} (hf : ∀ x, KeepsWf (fun s => f s x)) (l : List α) {s : State} (h : s.mem.wf = true) :
    (l.foldl f s).mem.wf = true := by
  induction l generalizing s with
  | nil => exact h
  | cons x l ih => exact ih (hf x s h)

@[simp] theorem wf_onCores {f : Nat → State → State} (hf : ∀ q, KeepsWf (f q)) (l : List Nat) {s : State} (h : s.mem.wf = true) :
    (onCores f l s).mem.wf = true := wf_foldl hf l h

/-- Memory in its canonical form, as a property of a state. -/
def WfMem (s : State) : Prop := s.mem.wf = true

@[simp] theorem wfMem_iff (s : State) : WfMem s ↔ s.mem.wf = true := Iff.rfl

/-- What holds of a result that is not an error. -/
def Yields {ε α : Type} (P : α → Prop) : Except ε α → Prop
  | .ok a => P a
  | .error _ => True

section

variable {ε α β : Type} {P : α → Prop} {Q : β → Prop}

@[simp] theorem yields_ok (a : α) : Yields P (.ok a : Except ε α) ↔ P a := Iff.rfl

@[simp] theorem yields_error (e : ε) : Yields P (.error e : Except ε α) ↔ True := Iff.rfl

@[simp] theorem yields_ite (c : Prop) [Decidable c] (x y : Except ε α) : Yields P (if c then x else y) ↔ if c then Yields P x else Yields P y := by
  split <;> rfl

theorem Yields.ite {c : Prop} [Decidable c] {x y : Except ε α} (hx : Yields P x) (hy : Yields P y) : Yields P (if c then x else y) := by
  split
  · exact hx
  · exact hy

theorem Yields.ok {a : α} (h : P a) : Yields P (.ok a : Except ε α) := h

theorem Yields.error (e : ε) : Yields P (.error e : Except ε α) := trivial

theorem Yields.of_eq {x : Except ε α} {a : α} (h : Yields P x) (e : x = .ok a) : P a := by
  rw [e] at h; exact h

@[simp] theorem yields_bind (x : Except ε β) (f : β → Except ε α) : Yields P (x >>= f) ↔ ∀ b, x = .ok b → Yields P (f b) := by
  cases x <;> simp [bind, Except.bind]

theorem Yields.bind {x : Except ε β} {f : β → Except ε α} (hx : Yields Q x) (hf : ∀ b, Q b → Yields P (f b)) : Yields P (x >>= f) :=
  (yields_bind x f).2 fun _ e => hf _ (hx.of_eq e)

theorem Yields.after {x : Except ε β} {f : β → Except ε α} (hf : ∀ b, Yields P (f b)) : Yields P (x >>= f) :=
  (yields_bind x f).2 fun b _ => hf b

end

section

variable {α : Type} {P : α → Prop}

@[simp] theorem yields_flt (code : BitVec 8) : Yields P (flt code) ↔ True := Iff.rfl

@[simp] theorem yields_fltAt (code : BitVec 8) (p : Word) : Yields P (fltAt code p) ↔ True := Iff.rfl

@[simp] theorem yields_pauseFor (cause : Nat) : Yields P (pauseFor cause) ↔ True := Iff.rfl

@[simp] theorem yields_pauseWake (s : State) (l : Loc) (n : Nat) : Yields P (pauseWake s l n) ↔ True := Iff.rfl

end

/-- A slot's operation that keeps memory in its canonical form whenever it neither faults nor pauses. -/
def EffKeepsWf (f : Eff) : Prop := ∀ q o s, s.mem.wf = true → Yields WfMem (f q o s)

/-! ### Operations -/

@[simp] theorem wf_writeEntries (l : Loc) (n : Nat) {s : State} (h : s.mem.wf = true) : (writeEntries s l n).mem.wf = true := by
  unfold writeEntries
  split
  · split
    · exact h
    · exact wf_foldl (fun _ t ht => by dsimp only; split <;> simp [ht]) _ h
  · exact h

@[simp] theorem wf_writeMasked (l : Loc) (i : Nat) (bytes : List Byte) (mask : List Bool) {s : State} (h : s.mem.wf = true) :
    (writeMasked s l i bytes mask).mem.wf = true := by
  induction bytes generalizing s i mask with
  | nil => exact h
  | cons b t ih =>
    cases mask with
    | nil => exact h
    | cons m ms => exact ih _ _ (by split <;> simp [h])

@[simp] theorem wf_writeLoc (l : Loc) (bytes : List Byte) {s : State} (h : s.mem.wf = true) :
    (writeLoc s l bytes).mem.wf = true := by simp [writeLoc, h]

@[simp] theorem wf_injected (src reader : Nat) (pc : Word) (l : Loc) (n : Nat) {s : State} (h : s.mem.wf = true) :
    (injected src reader pc l n s).mem.wf = true := by
  unfold injected
  split <;> simp [h]

@[simp] theorem wf_commit (c : Nat) (o : State) (body : CBody) {s : State} (h : s.mem.wf = true) : Yields WfMem (commit c o s body) := by
  unfold commit; split <;> simp [pauseFor, h]

@[simp] theorem wf_holdIn (c : Nat) (o : State) (body : CBody) {s : State} (h : s.mem.wf = true) : Yields WfMem (holdIn c o s body) := by
  unfold holdIn; split <;> simp [pauseFor, h]

@[simp] theorem wf_transfer (c : Nat) (o : State) (t : Word) {s : State} (h : s.mem.wf = true) : Yields WfMem (transfer c o s t) := by
  unfold transfer; split <;> simp [fltAt, h]

/-! ### Vector unit -/

theorem wf_effVInt (f : Fmt → Nat → Nat → Nat) (d a b : BitVec 6) (k : BitVec 4) (e : Fmt) :
    EffKeepsWf (effVInt f d a b k e) := fun q o s h => by simp [effVInt, h]

theorem wf_effVabs (d a : BitVec 6) (k : BitVec 4) (e : Fmt) : EffKeepsWf (effVabs d a k e) := fun q o s h => by simp [effVabs, h]

theorem wf_effVcmp (rel : ℤ → Bool) (ne ordered : Bool) (d : BitVec 4) (a b : BitVec 6) (k : BitVec 4) (e : Fmt) :
    EffKeepsWf (effVcmp rel ne ordered d a b k e) := fun q o s h => by simp [effVcmp, h]

theorem wf_effVsel (d a b : BitVec 6) (k : BitVec 4) (e : Fmt) : EffKeepsWf (effVsel d a b k e) := fun q o s h => by simp [effVsel, h]

theorem wf_effVbcast (d a : BitVec 6) (k : BitVec 4) (e : Fmt) : EffKeepsWf (effVbcast d a k e) := fun q o s h => by simp [effVbcast, h]

theorem wf_effVextr (d a b : BitVec 6) (e : Fmt) : EffKeepsWf (effVextr d a b e) := fun q o s h => by simp [effVextr, h]

theorem wf_effVinsr (d a b : BitVec 6) (e : Fmt) : EffKeepsWf (effVinsr d a b e) := fun q o s h => by simp [effVinsr, h]

theorem wf_effVclmul (hi : Bool) (d a b : BitVec 6) (k : BitVec 4) (e : Fmt) :
    EffKeepsWf (effVclmul hi d a b k e) := fun q o s h => by simp [effVclmul, h]

theorem wf_effVscan (p : ScanOp) (d a : BitVec 6) (k : BitVec 4) (e : Fmt) : EffKeepsWf (effVscan p d a k e) := fun q o s h => by simp [effVscan, h]

theorem wf_effVreduce (p : ScanOp) (d a : BitVec 6) (k : BitVec 4) (e : Fmt) :
    EffKeepsWf (effVreduce p d a k e) := fun q o s h => by simp [effVreduce, h]

theorem wf_effVperm (d a b : BitVec 6) (k : BitVec 4) (e : Fmt) : EffKeepsWf (effVperm d a b k e) := fun q o s h => by simp [effVperm, h]

theorem wf_effVcompress (d a : BitVec 6) (k : BitVec 4) (e : Fmt) : EffKeepsWf (effVcompress d a k e) := fun q o s h => by simp [effVcompress, h]

theorem wf_effVexpand (d a : BitVec 6) (k : BitVec 4) (e : Fmt) : EffKeepsWf (effVexpand d a k e) := fun q o s h => by simp [effVexpand, h]

theorem wf_effVmerge (hi : Bool) (d a b : BitVec 6) (m : BitVec 2) (e : Fmt) :
    EffKeepsWf (effVmerge hi d a b m e) := fun q o s h => by simp [effVmerge, h]

theorem wf_effVmergekv (d a b : BitVec 6) (m : BitVec 2) (_e : Fmt) : EffKeepsWf (effVmergekv d a b m _e) := fun q o s h => by simp [effVmergekv, h]

theorem wf_effVFlt (f : FFmt → FV → FV → Rnd) (d a b : BitVec 6) (k : BitVec 4) (e : Fmt) :
    EffKeepsWf (effVFlt f d a b k e) := fun q o s h => by simp [effVFlt, h]

theorem wf_effVfma (d a b : BitVec 6) (k : BitVec 4) (e : Fmt) : EffKeepsWf (effVfma d a b k e) := fun q o s h => by simp [effVfma, h]

theorem wf_effVfminmax (mx : Bool) (d a b : BitVec 6) (k : BitVec 4) (e : Fmt) :
    EffKeepsWf (effVfminmax mx d a b k e) := fun q o s h => by simp [effVfminmax, h]

theorem wf_effVcvt (d a : BitVec 6) (t : Fmt) (r : BitVec 2) (p : BitVec 3) (sat : BitVec 1) (e : Fmt) :
    EffKeepsWf (effVcvt d a t r p sat e) := fun q o s h => by simp [effVcvt, h]

theorem wf_effVamax (d a p : BitVec 6) (k : BitVec 4) (e : Fmt) : EffKeepsWf (effVamax d a p k e) := fun q o s h => by simp [effVamax, h]

theorem wf_effVbqpack (d a : BitVec 6) (sc : BitVec 3) (blk : BitVec 6) (e : Fmt) :
    EffKeepsWf (effVbqpack d a sc blk e) := fun q o s h => by simp [effVbqpack, h]

theorem wf_effVbqunpk (d a : BitVec 6) (sc : BitVec 3) (blk : BitVec 6) (e : Fmt) :
    EffKeepsWf (effVbqunpk d a sc blk e) := fun q o s h => by simp [effVbqunpk, h]

theorem wf_effKbin (f : Mask → Mask → Mask) (d a b : BitVec 4) : EffKeepsWf (effKbin f d a b) := fun q o s h => by simp [effKbin, h]

theorem wf_effKnot (d a : BitVec 4) : EffKeepsWf (effKnot d a) := fun q o s h => by simp [effKnot, h]

theorem wf_effKpop (d : BitVec 6) (a : BitVec 4) (e : Fmt) : EffKeepsWf (effKpop d a e) := fun q o s h => by simp [effKpop, h]

theorem wf_effKset (d : BitVec 4) (a b : BitVec 6) : EffKeepsWf (effKset d a b) := fun q o s h => by simp [effKset, h]

theorem wf_effVmov (d a : BitVec 6) (k : BitVec 4) (e : Fmt) : EffKeepsWf (effVmov d a k e) := fun q o s h => by simp [effVmov, h]

theorem wf_effVmovFromMg (d : BitVec 6) (a : BitVec 2) : EffKeepsWf (effVmovFromMg d a) := fun q o s h => by simp [effVmovFromMg, h]

theorem wf_effVmovToMg (d : BitVec 2) (a : BitVec 6) : EffKeepsWf (effVmovToMg d a) := fun q o s h => by simp [effVmovToMg, h]

theorem wf_effVmovMask (hi : Bool) (d : BitVec 6) (a : BitVec 4) : EffKeepsWf (effVmovMask hi d a) := fun q o s h => by simp [effVmovMask, h]

theorem wf_effHint : EffKeepsWf (effHint) := fun q o s h => by simp [effHint, h]

/-! ### Load/store unit -/

theorem wf_applyOp (l : Loc) (op : AccessOp) {put : State → List Byte → List Bool → State} {s : State} (h : s.mem.wf = true)
    (hput : ∀ bs mk, (put s bs mk).mem.wf = true) : (applyOp s l op put).1.mem.wf = true := by
  cases op <;> simp only [applyOp, hput, h]
  case cas => split <;> simp [hput, h]

@[simp] theorem wf_applyOp_putFlat (l l2 : Loc) (op : AccessOp) {s : State} (h : s.mem.wf = true) : (applyOp s l op (putFlat l2)).1.mem.wf = true :=
  wf_applyOp l op h fun bs mk => by simp [putFlat, h]

theorem wf_readOwn (src c : Nat) (o : State) (p : Word) (l : Loc) (n : Nat) {s : State} (h : s.mem.wf = true) :
    Yields (fun r => r.2.mem.wf = true) (readOwn src c o s p l n) := by
  unfold readOwn
  split
  · simp [pauseWake]
  · exact wf_injected _ _ _ _ _ (by split <;> simp [h])

@[simp] theorem wf_ownAccess (c : Nat) (o : State) (p : Word) (l : Loc) (op : AccessOp) {s : State} (h : s.mem.wf = true) :
    (ownAccess c o s p l op).mem.wf = true := by simp [ownAccess, h]

@[simp] theorem wf_land (c : Nat) (o : State) (dst : Dst) (ptr : Word) (l : Loc) (n due : Nat) (op : Nat → AccessOp) (held : Bool) {s : State} (h : s.mem.wf = true) :
    Yields WfMem (land c o s dst ptr l n due op held) := by
  have performed : ∀ (b : Bool) (f : Regs → Regs),
      (updRegs (if b then (applyOp (fresh s).2 l (op (fresh s).1) (putFlat l)).1 else (fresh s).2) c f).mem.wf = true := by
    intro b f
    cases b <;> simp [h]
  exact Yields.ite trivial <| Yields.ite trivial <| Yields.ite (wf_holdIn _ _ _ (performed _ _)) <| Yields.ite (performed _ _) <|
    (congrArg Memory.wf (mem_post ..)).trans (performed _ _)

@[simp] theorem wf_storeTo (c : Nat) (o : State) (p : Word) (l : Loc) (bytes : List Byte) (mask : List Bool) {s : State} (h : s.mem.wf = true) :
    Yields WfMem (storeTo c o s p l bytes mask) := by
  simp [storeTo, fltAt, pauseWake, h]

theorem wf_effLd (d a : BitVec 6) (z : BitVec 2) (x : BitVec 1) (i : BitVec 11) : EffKeepsWf (effLd d a z x i) := fun q o s h =>
  Yields.after fun l => Yields.bind (wf_readOwn 1 q o _ l _ h) fun r hr => by simpa using hr

theorem wf_effSt (b a : BitVec 6) (z : BitVec 2) (i : BitVec 11) : EffKeepsWf (effSt b a z i) := fun q o s h => by simp [effSt, h]

theorem wf_effVld (d a : BitVec 6) (i : BitVec 10) : EffKeepsWf (effVld d a i) := fun q o s h =>
  Yields.after fun l => Yields.bind (wf_readOwn 1 q o _ l _ h) fun r hr => by simpa using hr

theorem wf_effVst (b a : BitVec 6) (k : BitVec 4) (i : BitVec 10) : EffKeepsWf (effVst b a k i) := fun q o s h => by simp [effVst, h]

theorem wf_gather (d : BitVec 6) (k : BitVec 4) (e : Fmt) (addr : Nat → State → Nat → Word) : EffKeepsWf (gather d k e addr) := fun q o s h =>
  Yields.after fun ls => (wfMem_iff _).2 <| (congrArg Memory.wf (mem_resultV ..)).trans <|
    wf_foldl (fun x t ht => wf_injected _ _ _ _ _ ht) ls (by split <;> simp [h])

theorem wf_scatter (b : BitVec 6) (k : BitVec 4) (e : Fmt) (addr : Nat → State → Nat → Word) : EffKeepsWf (scatter b k e addr) := fun q o s h =>
  Yields.after fun ls => by
    have stored := wf_foldl (f := fun t (x : Nat × Loc) => ownAccess q o t (addr q o x.1) x.2 (.store (leBytes (vElem o q b.toNat e x.1) (e.width / 8)) (allMask (e.width / 8))))
      (fun x t ht => by simp [ht]) ls h
    simp only [yields_ok, wfMem_iff]
    split <;> simp [stored]

theorem wf_effLdl (d a : BitVec 6) (f : BitVec 2) (r : BitVec 12) : EffKeepsWf (effLdl d a f r) := fun q o s h => by simp [effLdl, h]

@[simp] theorem wf_globalAmo (c : Nat) (o : State) (n : Nat) (ptr : Word) (l : Loc) (size due : Nat) (op : Nat → AccessOp) (held : Bool) {s : State} (h : s.mem.wf = true) :
    Yields WfMem (globalAmo c o s n ptr l size due op held) := by
  unfold globalAmo
  split
  · simp [h]
  · exact Yields.bind (wf_land _ _ _ _ _ _ _ _ _ h) fun t ht => by simpa using ht

theorem wf_effAmo (opc : Nat) (d a : BitVec 6) (w : BitVec 1) (q : BitVec 9) : EffKeepsWf (effAmo opc d a w q) := fun q o s h => by simp [effAmo, h]

theorem wf_effCas (d a : BitVec 6) (w : BitVec 1) (r : BitVec 12) : EffKeepsWf (effCas d a w r) := fun q o s h => by simp [effCas, h]

theorem wf_effRed (opc : Nat) (a b : BitVec 6) (w : BitVec 1) : EffKeepsWf (effRed opc a b w) := fun q o s h => by simp [effRed, h]

theorem wf_effLdAcq (d a : BitVec 6) (z : BitVec 1) (_sc : BitVec 3) : EffKeepsWf (effLdAcq d a z _sc) := fun q o s h => by simp [effLdAcq, h]

theorem wf_effStRel (b a : BitVec 6) (z : BitVec 1) (sc : BitVec 3) : EffKeepsWf (effStRel b a z sc) := fun q o s h => by simp [effStRel, h]

theorem wf_effHingeRel (x a b : BitVec 6) : EffKeepsWf (effHingeRel x a b) := fun q o s h => by simp [effHingeRel, h]

theorem wf_effHingeAcq (d a b : BitVec 6) : EffKeepsWf (effHingeAcq d a b) := fun q o s h => by simp [effHingeAcq, h]

theorem wf_effBgive (h : BitVec 2) (i : BitVec 4) (n : BitVec 2) : EffKeepsWf (effBgive h i n) := fun q o s h => by simp [effBgive, h]

theorem wf_effSyncarm (a b : BitVec 6) : EffKeepsWf (effSyncarm a b) := fun q o s h => by simp [effSyncarm, h]

theorem wf_effSpill (b : BitVec 6) (v : BitVec 1) (j : BitVec 10) : EffKeepsWf (effSpill b v j) := fun q o s h => by simp [effSpill, h]

theorem wf_effFill (d : BitVec 6) (v : BitVec 1) (j : BitVec 10) : EffKeepsWf (effFill d v j) := fun q o s h => by simp [effFill, h]

theorem wf_effPref (a : BitVec 6) (n : BitVec 4) : EffKeepsWf (effPref a n) := fun q o s h => by simp [effPref, h]

/-! ### Scalar unit -/

theorem wf_effBin (f : Word → Word → Word) (lat : Nat) (d a b : BitVec 6) : EffKeepsWf (effBin f lat d a b) := fun q o s h => by simp [effBin, h]

theorem wf_effImm (f : Word → Word → Word) (d a : BitVec 6) (i : BitVec 14) : EffKeepsWf (effImm f d a i) := fun q o s h => by simp [effImm, h]

theorem wf_effShi (f : Word → Word → Word) (d a i : BitVec 6) : EffKeepsWf (effShi f d a i) := fun q o s h => by simp [effShi, h]

theorem wf_effUn (f : Word → Word) (d a : BitVec 6) : EffKeepsWf (effUn f d a) := fun q o s h => by simp [effUn, h]

theorem wf_effSel (d a b x : BitVec 6) : EffKeepsWf (effSel d a b x) := fun q o s h => by simp [effSel, h]

theorem wf_effMovi (d : BitVec 6) (i : BitVec 20) : EffKeepsWf (effMovi d i) := fun q o s h => by simp [effMovi, h]

theorem wf_effMovhi (d : BitVec 6) (p : BitVec 2) (i : BitVec 16) : EffKeepsWf (effMovhi d p i) := fun q o s h => by simp [effMovhi, h]

theorem wf_effSptest (d a : BitVec 6) : EffKeepsWf (effSptest d a) := fun q o s h => by simp [effSptest, h]

theorem wf_effSpcast (cl : Bool) (d a : BitVec 6) : EffKeepsWf (effSpcast cl d a) := fun q o s h => by simp [effSpcast, h]

theorem wf_effGptr (h : Bool) (d a b : BitVec 6) : EffKeepsWf (effGptr h d a b) := fun q o s h => by simp [effGptr, h]

theorem wf_effPadd (d a b : BitVec 6) : EffKeepsWf (effPadd d a b) := wf_effBin _ _ _ _ _

theorem wf_effStg (r p : BitVec 3) (a : BitVec 6) : EffKeepsWf (effStg r p a) := fun q o s h => by simp [effStg, h]

theorem wf_effShf (r p : BitVec 3) (a : BitVec 6) : EffKeepsWf (effShf r p a) := fun q o s h => by simp [effShf, h]

theorem wf_effMpw (r p : BitVec 3) (a : BitVec 6) : EffKeepsWf (effMpw r p a) := fun q o s h => by simp [effMpw, h]

/-! ### Control unit -/

theorem wf_effBr (i : BitVec 26) : EffKeepsWf (effBr i) := fun q o s h => by simp [effBr, h]

theorem wf_effBrz (nz : Bool) (a : BitVec 6) (i : BitVec 20) : EffKeepsWf (effBrz nz a i) := fun q o s h => by simp [effBrz, h]

@[simp] theorem wf_loopWith (c : Nat) (o : State) (lc1 : Bool) (n : Nat) (e : BitVec 12) {s : State} (h : s.mem.wf = true) :
    Yields WfMem (loopWith c o s lc1 n e) := by
  simp [loopWith, h]

theorem wf_effLoop (l : BitVec 1) (n e : BitVec 12) : EffKeepsWf (effLoop l n e) := fun q o s h => by simp [effLoop, h]

theorem wf_effLoopReg (l : BitVec 1) (a : BitVec 6) (e : BitVec 12) : EffKeepsWf (effLoopReg l a e) := fun q o s h => by simp [effLoopReg, h]

theorem wf_effCall (d : BitVec 6) (i : BitVec 20) : EffKeepsWf (effCall d i) := fun q o s h => by simp [effCall, h]

theorem wf_effCallr (d a : BitVec 6) : EffKeepsWf (effCallr d a) := fun q o s h => by simp [effCallr, h]

theorem wf_effRet (a : BitVec 6) : EffKeepsWf (effRet a) := fun q o s h => by simp [effRet, h]

theorem wf_effTend : EffKeepsWf (effTend) := fun q o s h => by simp [effTend, h]

theorem wf_effTrap (i : BitVec 20) : EffKeepsWf (effTrap i) := fun _ _ _ _ => by simp [effTrap]

theorem wf_effEret (skip : Bool) : EffKeepsWf (effEret skip) := fun q o s h => by simp [effEret, h]

theorem wf_effWaitt (x y z : BitVec 6) : EffKeepsWf (effWaitt x y z) := fun q o s h => by
  simp [effWaitt]
  (repeat' split) <;> simp [h]

theorem wf_effWaitg (a b : BitVec 6) : EffKeepsWf (effWaitg a b) := fun q o s h => by simp [effWaitg, h]

theorem wf_effDrain (sc : BitVec 3) : EffKeepsWf (effDrain sc) := fun q o s h => by simp [effDrain, h]

theorem wf_effFenceT (sc : BitVec 3) : EffKeepsWf (effFenceT sc) := fun q o s h => by simp [effFenceT, h]

theorem wf_effFenceSv (module : Bool) : EffKeepsWf (effFenceSv module) := fun q o s h => by simp [effFenceSv, h]

theorem wf_effSegchk (i : BitVec 12) : EffKeepsWf (effSegchk i) := fun q o s h => by simp [effSegchk, h]

theorem wf_effSysr (d : BitVec 6) (i : BitVec 12) : EffKeepsWf (effSysr d i) := fun q o s h => by
  simp [effSysr]
  (repeat' split) <;> simp [h]

@[simp] theorem wf_dropBank (c b : Nat) {s : State} (h : s.mem.wf = true) : (dropBank c s b).mem.wf = true := by simp [dropBank, h]

@[simp] theorem wf_writeSpgate (c : Nat) (x : Word) {s : State} (h : s.mem.wf = true) : (writeSpgate s c x).mem.wf = true :=
  wf_foldl (fun b _ ht => wf_dropBank c b ht) _ h

@[simp] theorem wf_sysWrite (i : Nat) (x : Word) (c : Nat) {s : State} (h : s.mem.wf = true) :
    (sysWrite i x c s).mem.wf = true := by simp [sysWrite, h]

theorem wf_effSysw (a : BitVec 6) (i : BitVec 12) : EffKeepsWf (effSysw a i) := fun q o s h => by
  have written : (onCores (sysWrite i.toNat (sReg o q a.toNat)) (groupOf o q) s).mem.wf = true := wf_onCores (fun c _ ht => wf_sysWrite _ _ c ht) _ h
  unfold effSysw
  refine Yields.ite trivial <| Yields.ite trivial <| Yields.ite ?_ written
  split <;> simp [h]

theorem wf_effYieldp : EffKeepsWf (effYieldp) := fun q o s h => by
  simp [effYieldp]
  (repeat' split) <;> simp [h]

theorem wf_effShapepub (a : BitVec 6) (slot : BitVec 10) : EffKeepsWf (effShapepub a slot) := fun q o s h => by simp [effShapepub, h]

theorem wf_effShapepubClr (slot : BitVec 10) : EffKeepsWf (effShapepubClr slot) := fun q o s h => by simp [effShapepubClr, h]

/-! ### Special functions -/

theorem wf_effFn (f : FFmt → FV → Rnd) (lat : Nat) (d a : BitVec 6) (k : BitVec 4) (e : Fmt) :
    EffKeepsWf (effFn f lat d a k e) := fun q o s h => by simp [effFn, h]

theorem wf_effFrsqe (d a b : BitVec 6) (x : BitVec 4) : EffKeepsWf (effFrsqe d a b x) := fun q o s h => by simp [effFrsqe, h]

theorem wf_effScalegen (sc : BitVec 3) (a : BitVec 6) (h : BitVec 1) (k : BitVec 4) (e : Fmt) :
    EffKeepsWf (effScalegen sc a h k e) := fun q o s h => by simp [effScalegen, h]

theorem wf_effScld (sc : BitVec 3) (a : BitVec 6) (d : BitVec 10) : EffKeepsWf (effScld sc a d) := fun q o s h =>
  Yields.after fun l => Yields.bind (wf_readOwn 3 q o _ l _ h) fun r hr => by simpa using hr

theorem wf_effTbld (ts : BitVec 1) (a : BitVec 6) : EffKeepsWf (effTbld ts a) := fun q o s h => by simp [effTbld, h]

/-! ### Issue -/

theorem wf_evalSlots (g : List Nat) {slots : List (Nat × Eff)} (hf : ∀ x ∈ slots, EffKeepsWf x.2) {o : State} (h : o.mem.wf = true) :
    (evalSlots g slots o).1.mem.wf = true := by
  refine List.foldlRecOn (motive := fun acc : State × List (Nat × Nat × Stop) => acc.1.mem.wf = true) g _ h fun acc ha q _ => ?_
  refine List.foldlRecOn (motive := fun acc : State × List (Nat × Nat × Stop) => acc.1.mem.wf = true) slots _ ha fun acc ha x hx => ?_
  split
  · exact ha
  split
  case h_1 t e => exact (hf x hx q o acc.1 ha).of_eq e
  case h_2 => exact ha

theorem wf_issueSlots (c : Nat) {slots : List (Nat × Eff)} (hf : ∀ x ∈ slots, EffKeepsWf x.2) (extra : Option (BitVec 8 × Nat)) {s : State} (h : s.mem.wf = true) :
    (issueSlots c slots extra s).mem.wf = true := by
  have eval := wf_evalSlots (groupOf s c) hf (o := onCores (fun q t => updBody t q settle) (groupOf s c) s) (by simp [h])
  unfold issueSlots
  dsimp only
  split
  · exact h
  split
  · simp [h]
  · simp [h]
  · simp [h]
  split
  · split <;> simp [h]
  split
  · (repeat' split) <;> simp [h]
  split
  · simp [h]
  split
  · simp [h]
  · simpa using eval

end Sys2Proof.Machine
end

section
/-! The canonical form of memory through the engines, the homes of accesses and bundles. -/

namespace Sys2Proof.Machine
open Sys2Proof.Safety

/-! ### Engines -/

@[simp] theorem wf_engRead (src : Nat) (consume : Bool) (c : Nat) (pc : Word) (l : Loc) (n : Nat) {s : State} (h : s.mem.wf = true) :
    (engRead src consume s c pc l n).1.mem.wf = true := by simp [engRead, h]

theorem wf_behindTable {f : Eff} (hf : EffKeepsWf f) : EffKeepsWf (behindTable f) := fun q o s h => by
  unfold behindTable
  split
  · trivial
  · exact Yields.ite trivial (hf q o s h)

/-! ### The home of an access -/

@[simp] theorem wf_writeLeaf (die p : Nat) {s : State} (h : s.mem.wf = true) : (writeLeaf die p s).mem.wf = true := by
  unfold writeLeaf; dsimp only; (repeat' split) <;> simp [h]

@[simp] theorem wf_installPage (h' page : Nat) {s : State} (h : s.mem.wf = true) : (installPage h' page s).mem.wf = true := by
  unfold installPage
  split
  · exact h
  · exact wf_writeLeaf _ _ (Memory.zeroRange_wf _ _ h)

@[simp] theorem wf_takePages (h' : Nat) (l : List Nat) {s : State} (h : s.mem.wf = true) : (takePages h' l s).mem.wf = true :=
  wf_foldl (fun i t ht => by exact wf_installPage h' i (s := { t with pages := t.pages.set false (pageKey t h' i) true }) ht) l h

@[simp] theorem wf_settlePage (h' page : Nat) {s : State} (h : s.mem.wf = true) : (settlePage h' page s).mem.wf = true :=
  wf_writeLeaf _ _ (by split <;> simp [h])

@[simp] theorem wf_abandonMove (h' : Nat) {s : State} (h : s.mem.wf = true) : (abandonMove h' s).mem.wf = true := by
  unfold abandonMove
  dsimp only
  split
  · split
    · exact h
    · split <;> split <;> simp [h]
  · exact h

@[simp] theorem wf_storeGlob (h' o : Nat) (bytes : List Byte) (mask : List Bool) {s : State} (h : s.mem.wf = true) :
    (storeGlob s h' o bytes mask).mem.wf = true := by
  have entered := wf_writeEntries (.glob h' o) bytes.length (wf_takePages h' (newPages s h' o bytes.length) h)
  simp [storeGlob, entered]

/-- An access performed at its home has kept the canonical form. -/
def HomeRes.Wf : HomeRes → Prop
  | .done s _ => s.mem.wf = true
  | _ => True

@[simp] theorem HomeRes.wf_done (s : State) (r : Option (BitVec 1024 × Bool)) : (HomeRes.done s r).Wf ↔ s.mem.wf = true := Iff.rfl

theorem HomeRes.wf_ite {c : Prop} [Decidable c] {a b : HomeRes} (ha : a.Wf) (hb : b.Wf) : (if c then a else b).Wf := by
  split
  · exact ha
  · exact hb

theorem wf_homeAccess (die : Nat) (l : Loc) (op : AccessOp) (own : Option Nat) {s : State} (h : s.mem.wf = true) :
    (homeAccess s die l op own).Wf := by
  cases l with
  | glob h' o =>
    have performed : ∀ t : State, t.mem.wf = true →
        (applyOp (atHbm (.glob h' o) op t) (.glob h' o) op (fun s bs mk => storeGlob s h' o bs mk)).1.mem.wf = true :=
      fun t ht => wf_applyOp _ _ (by simp [ht]) fun bs mk => wf_storeGlob _ _ _ _ (by simp [ht])
    have begun : ∀ b : Bool, (if b then s else takePages h' (pagesClear s h' o (opSpan op)) s).mem.wf = true := by
      intro b
      cases b <;> simp [h]
    have done := performed _ (begun (opWrites op))
    unfold homeAccess
    refine HomeRes.wf_ite trivial <| HomeRes.wf_ite trivial <| HomeRes.wf_ite trivial <| HomeRes.wf_ite (HomeRes.wf_ite trivial h) <| HomeRes.wf_ite (HomeRes.wf_ite h trivial) ?_
    show Memory.wf (State.mem _) = true
    split
    · exact (congrArg Memory.wf (mem_dirtyLines ..)).trans done
    · exact (congrArg Memory.wf (mem_countRead ..)).trans done
    · exact (congrArg Memory.wf (mem_countRead ..)).trans done
    · exact done
  | flat k =>
    simp only [homeAccess]
    split
    · trivial
    · exact wf_applyOp_putFlat _ _ _ h
  | host a port =>
    simp only [homeAccess]
    split
    · exact (congrArg Memory.wf (mem_freeBytes ..)).trans h
    · exact wf_applyOp _ _ h fun _ _ => wf_writeMasked _ _ _ _ h

/-- A write by a link, performed or bounced, has kept the canonical form. -/
def LinkRes.Wf : LinkRes → Prop
  | .done s => s.mem.wf = true
  | .bounced s => s.mem.wf = true
  | _ => True

theorem wf_linkWrite (part : Nat) (b : Bounced) {s : State} (h : s.mem.wf = true) : (linkWrite s part b).Wf := by
  unfold linkWrite
  dsimp only
  split
  · trivial
  split
  · trivial
  split
  · trivial
  split
  · split
    · trivial
    · exact h
  split
  · trivial
  · exact (congrArg Memory.wf (mem_linkWritten ..)).trans (wf_storeGlob _ _ _ _ h)

/-! ### The copy engine -/

/-- Memory in its canonical form in the state a result begins with. -/
def WfFst {α : Type} (r : State × α) : Prop := r.1.mem.wf = true

@[simp] theorem wfFst_mk {α : Type} (s : State) (a : α) : WfFst (s, a) ↔ s.mem.wf = true := Iff.rfl

theorem WfMem.ite {c : Prop} [Decidable c] {s t : State} (hs : s.mem.wf = true) (ht : t.mem.wf = true) : (if c then s else t).mem.wf = true := by
  split
  · exact hs
  · exact ht

theorem wf_engFetch (c : Nat) (x : XfCmd) (p : Word) (n : Nat) (win : Windows) {s : State} (h : s.mem.wf = true) :
    Yields WfFst (engFetch c x p n win s) := by
  unfold engFetch
  refine .ite h ?_
  split
  · trivial
  · dsimp only
    split
    · exact .ite trivial (by simp [h])
    · trivial
    · simp [h]
    · exact wf_injected _ _ _ _ _ h

/-- An engine's access that keeps memory in its canonical form when it neither fails nor stalls. -/
def EngKeepsWf (f : State → Except EngStop State) : Prop := ∀ s, s.mem.wf = true → Yields WfMem (f s)

theorem wf_engPut (c : Nat) (x : XfCmd) (p : Word) (bytes : List Byte) (bad : List Bool) (win : Windows) {s : State} (h : s.mem.wf = true) :
    Yields WfMem (engPut c x p bytes bad win s) := by
  unfold engPut
  refine .ite h ?_
  split
  · trivial
  next l _ =>
    have home := wf_homeAccess (coreDie c) l (.store bytes (allMask bytes.length)) (some x.who.ctx) h
    split
    next heq => rw [heq] at home; simpa using home
    · trivial
    · split <;> trivial

@[simp] theorem engPut_keepsWf (c : Nat) (x : XfCmd) (p : Word) (bytes : List Byte) (bad : List Bool) (win : Windows) :
    EngKeepsWf (engPut c x p bytes bad win) := fun _ => wf_engPut _ _ _ _ _ _

theorem wf_syncUpdate (c : Nat) (x : XfCmd) (n : Nat) {s : State} (h : s.mem.wf = true) : Yields WfMem (syncUpdate c x n s) := by
  unfold syncUpdate
  refine .ite h ?_
  split
  · trivial
  · exact wf_writeLoc _ _ h

@[simp] theorem syncUpdate_keepsWf (c : Nat) (x : XfCmd) (n : Nat) : EngKeepsWf (syncUpdate c x n) := fun _ => wf_syncUpdate _ _ _

theorem Yields.foldlM {ε α : Type} {f : State → α → Except ε State} (hf : ∀ x s, s.mem.wf = true → Yields WfMem (f s x)) (l : List α) {s : State}
    (h : s.mem.wf = true) : Yields WfMem (l.foldlM f s) := by
  induction l generalizing s with
  | nil => exact h
  | cons x l ih => exact Yields.bind (hf x s h) fun _ ht => ih ht

theorem wf_syncRun (c : Nat) (x : XfCmd) (start n : Nat) {s : State} (h : s.mem.wf = true) : Yields WfMem (syncRun c x start n s) :=
  .ite h (.foldlM (fun _ _ ht => wf_syncUpdate _ _ _ ht) _ h)

theorem wf_of_syncRun {c : Nat} {x : XfCmd} {start n : Nat} {s t : State} (e : syncRun c x start n s = .ok t) (h : s.mem.wf = true) :
    t.mem.wf = true :=
  (wf_syncRun c x start n h).of_eq e

theorem wf_effXf (op : Nat) (tout t0 t1 t2 : BitVec 6) (sw : BitVec 1) : EffKeepsWf (effXf op tout t0 t1 t2 sw) := fun q o s h => by simp [effXf, h]

theorem wf_hostRun (c : Nat) (x : XfCmd) (row : Nat) (p : Word) (n hi f i : Nat) {s : State} (h : s.mem.wf = true) :
    Yields WfFst (hostRun c x row p n hi f i s) := by
  induction f generalizing i s with
  | zero => exact h
  | succ f ih =>
    unfold hostRun
    refine .ite h ?_
    dsimp only
    split
    · trivial
    next r heq =>
      have read : r.1.mem.wf = true := by
        split at heq
        · split at heq <;> cases heq
          exact h
        · split at heq <;> cases heq
          exact (congrArg Memory.wf (mem_freeBytes ..)).trans h
      split
      · trivial
      next t e => exact (show WfFst t from (ih _ read).of_eq e)

theorem wf_engSeq (l : List (State → Except EngStop State)) (hl : ∀ f ∈ l, EngKeepsWf f) {s : State} (h : s.mem.wf = true) :
    WfFst (engSeq s l) := by
  induction l generalizing s with
  | nil => exact h
  | cons f l ih =>
    unfold engSeq
    split
    next heq => exact ih (fun g hg => hl g (List.mem_cons_of_mem _ hg)) ((hl f List.mem_cons_self s h).of_eq heq)
    · exact h

theorem engSeq_wf {l : List (State → Except EngStop State)} {s t : State} {e : Option EngStop} (heq : engSeq s l = (t, e)) (h : s.mem.wf = true)
    (hl : ∀ f ∈ l, EngKeepsWf f) : t.mem.wf = true := by
  simpa [heq] using wf_engSeq l hl h

theorem Yields.map {ε α β : Type} {P : α → Prop} {Q : β → Prop} {x : Except ε α} {f : α → β} (hx : Yields P x) (hf : ∀ a, P a → Q (f a)) :
    Yields Q (x.map f) := by
  cases x with
  | error e => trivial
  | ok a => exact hf a hx

theorem wf_lineSource (c : Nat) (x : XfCmd) (row lo n : Nat) {s : State} (h : s.mem.wf = true) : Yields WfFst (lineSource c x row lo n s) := by
  unfold lineSource
  dsimp only
  split
  · exact h
  · exact .after fun l => .ite h (wf_engFetch _ _ _ _ _ h)
  · exact wf_engFetch _ _ _ _ _ h
  · exact .ite ((wf_hostRun _ _ _ _ _ _ _ _ h).map fun _ hr => hr) (wf_engFetch _ _ _ _ _ h)

theorem wf_lineSink (c : Nat) (x : XfCmd) (row lo : Nat) (bytes : List Byte) (bad : List Bool) {s : State} (h : s.mem.wf = true) :
    Yields WfMem (lineSink c x row lo bytes bad s) :=
  .ite (.ite trivial (Memory.setBytes_wf _ _ h)) (wf_engPut _ _ _ _ _ _ h)

@[simp] theorem lineSink_keepsWf (c : Nat) (x : XfCmd) (row lo : Nat) (bytes : List Byte) (bad : List Bool) :
    EngKeepsWf (lineSink c x row lo bytes bad) :=
  fun _ => wf_lineSink _ _ _ _ _ _

theorem wf_xkvNext (c : Nat) (x : XfCmd) {s : State} (h : s.mem.wf = true) : Yields WfFst (xkvNext c x s) :=
  .ite h (.bind (wf_engFetch _ _ _ _ _ h) fun _ hr => .ite hr hr)

@[simp] theorem wf_plainLine (c : Nat) (x : XfCmd) (row k : Nat) {s : State} (h : s.mem.wf = true) : (plainLine c x row k s).mem.wf = true := by
  unfold plainLine
  refine WfMem.ite h ?_
  have asked : (if (hostSource x && !x.cancel) = true then askPeer c x row (xfRowSrc x row) (xfLen x)
      ((xfSpan x row k).1 + (xfSpan x row k).2) ((xfSpan x row k).2 + 1) (xfSpan x row k).1 s else s).mem.wf = true := by simp [h]
  revert asked
  generalize (if (hostSource x && !x.cancel) = true then askPeer c x row (xfRowSrc x row) (xfLen x)
      ((xfSpan x row k).1 + (xfSpan x row k).2) ((xfSpan x row k).2 + 1) (xfSpan x row k).1 s else s) = s
  intro asked
  refine WfMem.ite asked ?_
  split
  · simp [asked]
  · exact asked
  · split
    · simp [asked]
    next src heq =>
      have read := (wf_lineSource c x row (xfSpan x row k).1 (xfSpan x row k).2 asked).of_eq heq
      split
      next e => simpa using engSeq_wf e read (by simp)
      next e =>
        have wrote := engSeq_wf e read (by simp)
        refine WfMem.ite ?_ (by simpa using wrote)
        dsimp only
        split
        · simpa using wrote
        next e => simpa using (wf_xkvNext _ _ wrote).of_eq e

theorem wf_transByte (c : Nat) (x : XfCmd) (col j : Nat) {s : State} (h : s.mem.wf = true) : Yields WfFst (transByte c x col j s) :=
  .ite h (.bind (wf_engFetch _ _ _ _ _ h) fun _ hr => hr)

theorem wf_transBytes (c : Nat) (x : XfCmd) (col lo n : Nat) {s : State} (h : s.mem.wf = true) : Yields WfFst (transBytes c x col lo n s) := by
  induction n generalizing lo s with
  | zero => exact h
  | succ n ih => exact .bind (wf_transByte _ _ _ _ h) fun _ hb => .bind (ih _ hb) fun _ hr => hr

theorem wf_transElem (c : Nat) (x : XfCmd) (r col : Nat) {s : State} (h : s.mem.wf = true) : Yields WfFst (transElem c x r col s) :=
  .ite h (.bind (wf_engFetch _ _ _ _ _ h) fun _ he => .bind (wf_engFetch _ _ _ _ _ he) fun _ hk => hk)

theorem wf_transElems (c : Nat) (x : XfCmd) (col r0 n : Nat) {s : State} (h : s.mem.wf = true) : Yields WfFst (transElems c x col r0 n s) := by
  induction n generalizing r0 s with
  | zero => exact h
  | succ n ih => exact .bind (wf_transElem _ _ _ _ h) fun _ he => .bind (ih _ he) fun _ ht => ht

@[simp] theorem wf_transLine (c : Nat) (x : XfCmd) (row k : Nat) {s : State} (h : s.mem.wf = true) : (transLine c x row k s).mem.wf = true := by
  unfold transLine
  refine WfMem.ite h (WfMem.ite ?_ ?_)
  · dsimp only
    split
    · simp [h]
    next r heq =>
      have read := (wf_transElems _ _ _ _ _ h).of_eq heq
      split
      next e => simpa using engSeq_wf e read (by simp)
      next e => simpa using engSeq_wf e read (by simp)
  · dsimp only
    split
    · simp [h]
    next r heq =>
      have read := (wf_transBytes _ _ _ _ _ h).of_eq heq
      split
      next e => simpa using engSeq_wf e read (by simp)
      next e => simpa using engSeq_wf e read (by simp)

@[simp] theorem wf_weightLine (c : Nat) (x : XfCmd) (n : Nat) {s : State} (h : s.mem.wf = true) : (weightLine c x n s).mem.wf = true := by
  unfold weightLine
  refine WfMem.ite h ?_
  dsimp only
  split
  · simp [h]
  · exact WfMem.ite (by simp [h]) (by simp [h])
  next t src pos heq =>
    have read : WfFst (t, src, pos) := by
      refine Yields.of_eq ?_ heq
      exact .bind (wf_engFetch _ _ _ _ _ h) fun _ hr => .ite (.bind (wf_engFetch _ _ _ _ _ hr) fun _ hp => .ite (.error _) hp) (.ite (.error _) hr)
    simpa using read

@[simp] theorem wf_expandWeight (c : Nat) {s : State} (h : s.mem.wf = true) : (expandWeight c s).mem.wf = true := by
  unfold expandWeight
  dsimp only
  split
  · exact h
  · split
    · simp [h]
    next w _ _ x _ =>
      split
      · simp [h]
      next heq =>
        have expanded := wf_of_syncRun heq (Memory.setBytes_wf _ _ h)
        exact WfMem.ite (by simpa using expanded) (WfMem.ite (by simpa using expanded) (by simpa using expanded))

theorem linkWrite_wf_done {s t : State} {part : Nat} {b : Bounced} (e : linkWrite s part b = .done t) (h : s.mem.wf = true) : t.mem.wf = true := by
  have home := wf_linkWrite part b h
  rw [e] at home
  exact home

theorem linkWrite_wf_bounced {s t : State} {part : Nat} {b : Bounced} (e : linkWrite s part b = .bounced t) (h : s.mem.wf = true) :
    t.mem.wf = true := by
  have home := wf_linkWrite part b h
  rw [e] at home
  exact home

@[simp] theorem wf_sendLine (c : Nat) (x : XfCmd) (row k : Nat) {s : State} (h : s.mem.wf = true) : (sendLine c x row k s).mem.wf = true := by
  unfold sendLine
  dsimp only
  refine WfMem.ite h (WfMem.ite (by simp [h]) ?_)
  split
  · simp [h]
  next heq =>
    have read := (wf_engFetch c x (ptrAdd (xfRowSrc x row) (xfSpan x row k).1) (xfSpan x row k).2 winNear h).of_eq heq
    refine WfMem.ite ?_ ?_
    · split
      next e => simpa using linkWrite_wf_done e read
      next e => simpa using linkWrite_wf_bounced e read
      · exact read
      · simpa using read
    · exact WfMem.ite (by simpa using read) (by simpa using read)

theorem wf_fetchRun (c : Nat) (x : XfCmd) (win : Windows) (f : Nat) (p : Word) (n : Nat) {s : State} (h : s.mem.wf = true) :
    Yields WfFst (fetchRun c x win f p n s) := by
  induction f generalizing p n s with
  | zero => exact h
  | succ f ih => exact .ite h (.bind (wf_engFetch _ _ _ _ _ h) fun _ hr => .bind (ih _ _ hr) fun _ ht => ht)

theorem wf_startBlock (c : Nat) (x : XfCmd) {s : State} (h : s.mem.wf = true) : Yields WfFst (startBlock c x s) := by
  unfold startBlock
  refine .after fun l => .ite (.error _) (.ite (.bind (Q := WfFst) ((wf_hostRun _ _ _ _ _ _ _ _ h).map fun _ hr => hr) fun r hr => .ite (.error _) ?_)
    (.bind (wf_fetchRun _ _ _ _ _ _ h) fun r hr => .ite (.error _) ?_))
  all_goals
    split
    · trivial
    · exact (congrArg Memory.wf (mem_forgetReads ..)).trans hr

@[simp] theorem wf_decompLine (c : Nat) (x : XfCmd) {s : State} (h : s.mem.wf = true) : (decompLine c x s).mem.wf = true := by
  have asked : (askBlock c x s).mem.wf = true := by simp [h]
  unfold decompLine
  dsimp only
  split
  · simpa using asked
  next heq =>
    have read := Yields.of_eq (P := WfFst) (.ite (wf_startBlock _ _ asked) (.ok (show WfFst (askBlock c x s, x) from asked))) heq
    split
    next e => simpa using engSeq_wf e read (by simp)
    next e => simpa using engSeq_wf e read (by simp)
    next e =>
      have wrote := engSeq_wf e read (by simp)
      refine WfMem.ite (by simpa using wrote) ?_
      split
      · simpa using wrote
      · simpa using wrote

theorem wf_redRead (c : Nat) (x : XfCmd) {s : State} (h : s.mem.wf = true) : Yields WfFst (redRead c x s) :=
  .bind (wf_fetchRun _ _ _ _ _ _ h) fun _ hr =>
    .ite (.bind (wf_fetchRun _ _ _ _ _ _ hr) fun _ hk => .ite (.error _) hk) (.ite (.error _) hr)

@[simp] theorem wf_putRun (c : Nat) (x : XfCmd) (win : Windows) (f : Nat) (p : Word) (bs : List Byte) (n : Nat) {s : State} (h : s.mem.wf = true) :
    (putRun c x win f p bs n s).1.mem.wf = true := by
  induction f generalizing p bs n s with
  | zero => exact h
  | succ f ih =>
    unfold putRun
    split
    · exact h
    · dsimp only
      split
      next e => exact engSeq_wf e h (by simp)
      next e => exact ih _ _ _ (engSeq_wf e h (by simp))

@[simp] theorem wf_redPut (c : Nat) (x : XfCmd) (r : Contrib) {s : State} (h : s.mem.wf = true) : (redPut c x r s).1.mem.wf = true := by
  have data := wf_putRun c x (xfDstWin 8) (r.data.length / 128 + 2) (xfDst x.snap) r.data 0 h
  unfold redPut
  split
  next e =>
    rw [e] at data
    split
    · exact wf_putRun _ _ _ _ _ _ _ data
    · exact data
  · exact data

@[simp] theorem wf_redFinish (c : Nat) (x : XfCmd) (r : Contrib × Bool) {s : State} (h : s.mem.wf = true) : (redFinish c x r s).mem.wf = true := by
  have flagged : (if r.2 then setFlags c fOVER s else s).mem.wf = true := by simp [h]
  have put := wf_redPut c x r.1 flagged
  unfold redFinish
  refine WfMem.ite (by simpa using h) ?_
  split
  next e => rw [e] at put; simpa using put
  next e => rw [e] at put; simpa using put

theorem wf_redMods (c : Nat) (x : XfCmd) {s : State} (h : s.mem.wf = true) : Yields WfFst (redMods c x s) :=
  .bind (wf_fetchRun _ _ _ _ _ _ h) fun _ hr => hr

theorem wf_foldl_fst {α β : Type} {f : State × β → α → State × β} (hf : ∀ a x, a.1.mem.wf = true → (f a x).1.mem.wf = true) (l : List α) {a : State × β}
    (h : a.1.mem.wf = true) : (l.foldl f a).1.mem.wf = true := by
  induction l generalizing a with
  | nil => exact h
  | cons x l ih => exact ih (hf a x h)

@[simp] theorem wf_redLine (c : Nat) (x : XfCmd) {s : State} (h : s.mem.wf = true) : (redLine c x s).mem.wf = true := by
  unfold redLine
  refine WfMem.ite (by simp [h]) (WfMem.ite (WfMem.ite h ?_) (WfMem.ite ?_ (WfMem.ite (wf_redFinish _ _ _ h) (WfMem.ite ?_ (WfMem.ite (by simp [h]) h)))))
  · refine WfMem.ite ?_ ?_
    on_goal 2 => dsimp only; split
    on_goal 2 => rw [mem_lineStop]
    on_goal 3 => refine wf_foldl (fun p t ht => wf_redFinish _ _ _ ht) _ ?_
    all_goals
      refine wf_foldl_fst (fun a p ha => ?_) _ h
      split
      next e => exact (wf_redRead _ _ ha).of_eq e
      · simpa using ha
  · split
    · simp [h]
    next t mods k e =>
      have read : WfFst (t, mods, k) := by
        refine Yields.of_eq ?_ e
        exact .bind (wf_redMods _ _ h) fun _ hm => .bind (wf_redRead _ _ hm) fun _ hk => hk
      refine WfMem.ite ?_ ?_
      on_goal 1 => rw [mem_updXf]
      on_goal 2 => rw [mem_endXf]
      all_goals
        refine wf_foldl_fst (fun a p ha => by simpa using ha) _ ?_
        simpa using read
  · dsimp only
    split
    · simp [h]
    · exact wf_redFinish _ _ _ h

@[simp] theorem wf_beginXf (c : Nat) (x : XfCmd) {s : State} (h : s.mem.wf = true) : (beginXf c x s).mem.wf = true := by
  unfold beginXf
  refine WfMem.ite h ?_
  split
  · simp [h]
  · have left : ∀ l : List (Nat × Nat × Nat), (l.foldl (fun s r => abandonMove r.1 s) s).mem.wf = true := fun l => wf_foldl (fun x t ht => by simp [ht]) l h
    refine WfMem.ite (WfMem.ite h (by simp [h])) (WfMem.ite h (WfMem.ite (WfMem.ite ?_ ?_) (WfMem.ite ?_ ?_)))
    all_goals simpa using left _

@[simp] theorem wf_performXf (c tok id : Nat) {s : State} (h : s.mem.wf = true) : (performXf c tok id s).mem.wf = true := by
  unfold performXf
  split
  · exact h
  · refine WfMem.ite h ?_
    split
    · exact WfMem.ite (wf_plainLine _ _ _ _ h) (wf_weightLine _ _ _ h)
    · exact wf_transLine _ _ _ _ h
    · exact wf_sendLine _ _ _ _ h
    · exact wf_redLine _ _ h
    · exact wf_decompLine _ _ h
    · exact h
    · exact wf_plainLine _ _ _ _ h

/-! ### The matrix engine -/

theorem wf_effMx (op : Nat) (et : Fmt) (tout t0 t1 : BitVec 6) (sw : BitVec 1) :
    EffKeepsWf (effMx op et tout t0 t1 sw) := fun q o s h => by simp [effMx, h]

theorem wf_readReq (c : Nat) (who : Issuer) (rot : Option Nat) (wb : Nat) (r : Req) {s : State} (h : s.mem.wf = true) :
    Yields WfFst (readReq c who rot wb s r) := by
  cases r with
  | zero => exact h
  | wb off n => exact .ite (.error _) (.ok h)
  | mem p n =>
    cases rot with
    | none =>
      unfold readReq
      exact .after fun l => wf_engRead _ _ _ _ l _ h
    | some src =>
      unfold readReq
      exact .after fun l => wf_engRead _ _ _ _ l _ h

theorem wf_readReqs (c : Nat) (who : Issuer) (rot : Option Nat) (wb : Nat) (l : List Req) {s : State} (h : s.mem.wf = true) :
    Yields WfFst (readReqs c who rot wb s l) := by
  induction l generalizing s with
  | nil => exact h
  | cons r l ih =>
    unfold readReqs
    split
    · trivial
    next e =>
      have rest := ih ((wf_readReq _ _ _ _ _ h).of_eq e)
      split
      · trivial
      next t xs e => exact (show WfFst (t, xs) from rest.of_eq e)

theorem wf_readRows (c : Nat) (who : Issuer) (rot : Option Nat) (wb : Nat) (l : List (List Req)) {s : State} (h : s.mem.wf = true) :
    Yields WfFst (readRows c who rot wb s l) := by
  induction l generalizing s with
  | nil => exact h
  | cons r l ih =>
    unfold readRows
    split
    · trivial
    next e =>
      have rest := ih ((wf_readReqs _ _ _ _ _ h).of_eq e)
      split
      · trivial
      next t xs e => exact (show WfFst (t, xs) from rest.of_eq e)

@[simp] theorem wf_fetched {α : Type} (c : Nat) (m : MxCmd) {s : State} {r : Except EngStop (State × α)} (f : α → MicroState) (h : s.mem.wf = true)
    (hr : Yields WfFst r) : (fetched c m s r f).mem.wf = true := by
  cases r with
  | ok r => exact (congrArg Memory.wf (mem_setMicro ..)).trans hr
  | error e => cases e <;> simpa [fetched] using h

@[simp] theorem wf_runMloada (ra : BitVec 3) (tr ic : BitVec 1) (c : Nat) {s : State} (h : s.mem.wf = true) :
    (runMloada ra tr ic c s).mem.wf = true := by
  unfold runMloada
  split
  · exact h
  · exact wf_fetched _ _ _ h (wf_readRows _ _ _ _ _ h)

@[simp] theorem wf_runMloadb (ra : BitVec 3) (tr : BitVec 1) (c : Nat) {s : State} (h : s.mem.wf = true) : (runMloadb ra tr c s).mem.wf = true := by
  unfold runMloadb
  split
  · exact h
  · exact wf_fetched _ _ _ h (wf_readRows _ _ _ _ _ h)

@[simp] theorem wf_runMscale (ra rb : BitVec 3) (c : Nat) {s : State} (h : s.mem.wf = true) : (runMscale ra rb c s).mem.wf = true := by
  unfold runMscale
  split
  · exact h
  · exact WfMem.ite (by simp [h]) (wf_fetched _ _ _ h (wf_readRows _ _ _ _ _ h))

theorem wf_engWrite (c : Nat) (who : Issuer) (p : Word) (bytes : List Byte) (win : Windows) {s : State} (h : s.mem.wf = true) :
    Yields WfMem (engWrite s c who p bytes win) :=
  .after fun _ => .ok (wf_writeLoc _ _ h)

@[simp] theorem wf_rowWrites (c : Nat) (who : Issuer) (win : Windows) (l : List (Word × List Byte)) {s : State} (h : s.mem.wf = true) :
    (rowWrites c who win s l).1.mem.wf = true := by
  induction l generalizing s with
  | nil => exact h
  | cons x l ih =>
    unfold rowWrites
    split
    next e => exact ih ((wf_engWrite _ _ _ _ _ h).of_eq e)
    · exact h

@[simp] theorem wf_engWrites (c : Nat) (who : Issuer) (win : Windows) (n : Nat) (l : List (List (Word × List Byte))) {s : State} (h : s.mem.wf = true) :
    (engWrites c who win s n l).1.mem.wf = true := by
  induction l generalizing s n with
  | nil => exact h
  | cons x l ih =>
    have row := wf_rowWrites c who win x h
    unfold engWrites
    split
    next e => rw [e] at row; exact ih _ row
    next e => rw [e] at row; exact row

@[simp] theorem wf_afterRows (c : Nat) {r : State × Nat × Option EngStop} {f : State → State} (hf : KeepsMem f) (h : r.1.mem.wf = true) :
    (afterRows c r f).mem.wf = true := by
  unfold afterRows
  split
  · simpa [hf _] using h
  · simpa using h
  · simpa using h

@[simp] theorem wf_runMxrda (c : Nat) (m : MxCmd) {s : State} (h : s.mem.wf = true) : (runMxrda c m s).mem.wf = true := by
  unfold runMxrda
  exact wf_afterRows c (fun t => by dsimp only; split <;> simp) (wf_engWrites _ _ _ _ _ h)

@[simp] theorem wf_rowsUntil (c : Nat) (who : Issuer) (l : List (List Req)) {s : State} (h : s.mem.wf = true) :
    (rowsUntil c who s l).1.mem.wf = true := by
  induction l generalizing s with
  | nil => exact h
  | cons r l ih =>
    unfold rowsUntil
    split
    · exact h
    next e => exact ih ((wf_readReqs _ _ _ _ _ h).of_eq e)

theorem rowsUntil_wf {c : Nat} {who : Issuer} {l : List (List Req)} {s t : State} {r : List (List Nat) × Option EngStop}
    (e : rowsUntil c who s l = (t, r)) (h : s.mem.wf = true) : t.mem.wf = true := by
  simpa [e] using wf_rowsUntil c who l h

@[simp] theorem wf_runMxwra (c : Nat) (m : MxCmd) {s : State} (h : s.mem.wf = true) : (runMxwra c m s).mem.wf = true := by
  unfold runMxwra
  dsimp only
  split
  next e => simpa using rowsUntil_wf e h
  next e =>
    have rows := rowsUntil_wf e h
    split <;> simpa using rows

@[simp] theorem wf_runMxwb (c : Nat) (m : MxCmd) {s : State} (h : s.mem.wf = true) : (runMxwb c m s).mem.wf = true := by
  unfold runMxwb
  exact wf_afterRows c (fun _ => rfl) (wf_engWrites _ _ _ _ _ h)

@[simp] theorem wf_wordsUntil (c : Nat) (m : MxCmd) (l : List Nat) {s : State} (h : s.mem.wf = true) : (wordsUntil c m s l).1.mem.wf = true := by
  induction l generalizing s with
  | nil => exact h
  | cons i l ih =>
    unfold wordsUntil
    split
    · exact h
    · exact ih (wf_engRead _ _ _ _ _ _ h)

@[simp] theorem wf_runMxucw (c : Nat) (m : MxCmd) {s : State} (h : s.mem.wf = true) : (runMxucw c m s).mem.wf = true := by
  have read := wf_wordsUntil c m (List.range (mxUcount m.snap)) h
  unfold runMxucw
  dsimp only
  split
  next e => simpa [e] using read
  next e =>
    rw [e] at read
    refine WfMem.ite (by simpa using read) ?_
    split
    · simpa using read
    · exact WfMem.ite (by simpa using read) (WfMem.ite (by simpa using read) (by simpa using read))

@[simp] theorem wf_runUpdate (c : Nat) (m : MxCmd) {s : State} (h : s.mem.wf = true) : (runUpdate c m s).mem.wf = true := by
  unfold runUpdate
  dsimp only
  split
  next e => simpa using rowsUntil_wf e h
  next e =>
    have rows := rowsUntil_wf e h
    split <;> simpa using rows

@[simp] theorem wf_finishMx (c : Nat) {s : State} (h : s.mem.wf = true) : (finishMx c s).mem.wf = true := by
  unfold finishMx
  split
  · exact h
  · refine WfMem.ite h ?_
    dsimp only
    split
    · exact wf_runUpdate _ _ h
    · exact WfMem.ite (by simp [h]) h
    · simp [h]
    · simp [h]
    · simp [h]
    · exact wf_runMxrda _ _ h
    · exact wf_runMxwra _ _ h
    · exact wf_runMxwb _ _ h
    · exact wf_runMxucw _ _ h

/-! ### Bundles -/

theorem wf_slotEff (i : Instr) : EffKeepsWf (slotEff i) := by
  cases i with
  | br => exact wf_effBr _
  | brz | brnz => exact wf_effBrz _ _ _
  | loop => exact wf_effLoop _ _ _
  | loopReg => exact wf_effLoopReg _ _ _
  | call => exact wf_effCall _ _
  | callr => exact wf_effCallr _ _
  | ret => exact wf_effRet _
  | tend => exact wf_effTend
  | trap => exact wf_effTrap _
  | eret | eretSkip => exact wf_effEret _
  | waitt => exact wf_effWaitt _ _ _
  | waitg => exact wf_effWaitg _ _
  | drain => exact wf_effDrain _
  | fenceT => exact wf_effFenceT _
  | fenceSvDie | fenceSvModule => exact wf_effFenceSv _
  | segchk => exact wf_effSegchk _
  | sysr => exact wf_effSysr _ _
  | sysw => exact wf_effSysw _ _
  | yieldp => exact wf_effYieldp
  | shapepub => exact wf_effShapepub _ _
  | shapepubClr => exact wf_effShapepubClr _
  | ctlHint | sHint | lsHint | vHint | sfHint | mxHint | xfHint => exact wf_effHint
  | add | sub | and_ | or_ | xor_ | shl | shr | sar | slt | sltu | seq | min | max | minu | maxu | mul | mulh | mulhu | clmul | clmulh => exact wf_effBin _ _ _ _ _
  | sel => exact wf_effSel _ _ _ _
  | movi => exact wf_effMovi _ _
  | movhi => exact wf_effMovhi _ _ _
  | clz | ctz | popc => exact wf_effUn _ _ _
  | sptest => exact wf_effSptest _ _
  | spcastSp | spcastCl => exact wf_effSpcast _ _ _
  | gptr | gptrH => exact wf_effGptr _ _ _ _
  | padd => exact wf_effPadd _ _ _
  | stg => exact wf_effStg _ _ _
  | shf => exact wf_effShf _ _ _
  | mpw => exact wf_effMpw _ _ _
  | addi | andi | ori | xori | slti | sltui | seqi => exact wf_effImm _ _ _ _
  | shli | shri | sari => exact wf_effShi _ _ _ _
  | ld => exact wf_effLd _ _ _ _ _
  | st => exact wf_effSt _ _ _ _
  | vld => exact wf_effVld _ _ _
  | vst => exact wf_effVst _ _ _ _
  | vlds | vldx => exact wf_gather _ _ _ _
  | vsts | vstx => exact wf_scatter _ _ _ _
  | ldl => exact wf_effLdl _ _ _ _
  | amoAdd | amoAnd | amoOr | amoXor | amoMin | amoMax | amoMinu | amoMaxu | amoSwap | amoFadd => exact wf_effAmo _ _ _ _ _
  | cas => exact wf_effCas _ _ _ _
  | redAdd | redAnd | redOr | redXor | redMin | redMax | redMinu | redMaxu | redFadd => exact wf_effRed _ _ _ _
  | ldAcq d a z s => exact wf_effLdAcq d a z s
  | stRel => exact wf_effStRel _ _ _ _
  | hingeRel => exact wf_effHingeRel _ _ _
  | hingeAcq => exact wf_effHingeAcq _ _ _
  | bgive => exact wf_effBgive _ _ _
  | syncarm => exact wf_effSyncarm _ _
  | spill => exact wf_effSpill _ _ _
  | fill => exact wf_effFill _ _ _
  | pref => exact wf_effPref _ _
  | vadd | vsub | vmul | vmulh | vmin | vmax | vand | vor | vxor | vandn | vshl | vshr | vsar | vadds | vsubs => exact wf_effVInt _ _ _ _ _ _
  | vabs => exact wf_effVabs _ _ _ _
  | vcmpeq | vcmpne | vcmplt | vcmple => exact wf_effVcmp _ _ _ _ _ _ _ _
  | vsel => exact wf_effVsel _ _ _ _ _
  | vbcast => exact wf_effVbcast _ _ _ _
  | vextr => exact wf_effVextr _ _ _ _
  | vinsr => exact wf_effVinsr _ _ _ _
  | vclmulLo | vclmulHi => exact wf_effVclmul _ _ _ _ _ _
  | vscanAdd | vscanMin | vscanMax | vscanXor | vscanAnd | vscanOr => exact wf_effVscan _ _ _ _ _
  | vreduceAdd | vreduceMin | vreduceMax | vreduceXor | vreduceAnd | vreduceOr => exact wf_effVreduce _ _ _ _ _
  | vperm => exact wf_effVperm _ _ _ _ _
  | vcompress => exact wf_effVcompress _ _ _ _
  | vexpand => exact wf_effVexpand _ _ _ _
  | vmergeLo d a b m e => exact wf_effVmerge false d a b m e
  | vmergeHi d a b m e => exact wf_effVmerge true d a b m e
  | vmergekv d a b m e => exact wf_effVmergekv d a b m e
  | vfadd | vfsub | vfmul => exact wf_effVFlt _ _ _ _ _ _
  | vfma => exact wf_effVfma _ _ _ _ _
  | vfmin | vfmax => exact wf_effVfminmax _ _ _ _ _ _
  | vcvt => exact wf_effVcvt _ _ _ _ _ _ _
  | vamax => exact wf_effVamax _ _ _ _ _
  | vbqpack => exact wf_effVbqpack _ _ _ _ _
  | vbqunpk => exact wf_effVbqunpk _ _ _ _ _
  | kand | kor | kxor => exact wf_effKbin _ _ _ _
  | knot => exact wf_effKnot _ _
  | kpop => exact wf_effKpop _ _ _
  | kset => exact wf_effKset _ _ _
  | vmov => exact wf_effVmov _ _ _ _
  | vmovFromMg => exact wf_effVmovFromMg _ _
  | vmovToMg => exact wf_effVmovToMg _ _
  | vmovMaskLo | vmovMaskHi => exact wf_effVmovMask _ _ _
  | fexp2 | flog2 | frcp | frsq | fsqrt | ftanh | fsig | ferf => exact wf_behindTable (wf_effFn _ _ _ _ _ _)
  | frsqe => exact wf_behindTable (wf_effFrsqe _ _ _ _)
  | scalegen => exact wf_behindTable (wf_effScalegen _ _ _ _ _)
  | scld => exact wf_behindTable (wf_effScld _ _ _)
  | tbld => exact wf_behindTable (wf_effTbld _ _)
  | mxcall | mxjoin | mxpart | mxnorm | mxzero | mxrda | mxwra | mxwb | mxucw => exact wf_behindTable (wf_effMx _ _ _ _ _ _)
  | xcopy | xstore | xweight | xtrans | xgather | xkv | xsend | xred | xdecomp | xfill | xcancel => exact wf_effXf _ _ _ _ _ _
  | _ => exact fun _ _ _ _ => trivial

theorem bundleEffs_keepWf {l : List (Nat × Nat)} {x : Nat × Eff} (hx : x ∈ bundleEffs l) : EffKeepsWf x.2 := by
  obtain ⟨y, -, hy⟩ := List.mem_filterMap.1 hx
  split at hy
  · cases hy
    exact wf_slotEff _
  · cases hy

@[simp] theorem wf_issueBundle (c : Nat) {s : State} (h : s.mem.wf = true) : (issueBundle c s).mem.wf = true := by
  unfold issueBundle
  dsimp only
  split
  · exact wf_issueSlots c (fun _ hx => absurd hx List.not_mem_nil) _ h
  · exact wf_issueSlots c (fun _ => bundleEffs_keepWf) _ (by simp [h])

@[simp] theorem wf_takeCheckpoint (c : Nat) {s : State} (h : s.mem.wf = true) : (takeCheckpoint c s).mem.wf = true := by simp [takeCheckpoint, h]

@[simp] theorem wf_endPause (c : Nat) {s : State} (h : s.mem.wf = true) : (endPause c s).mem.wf = true := by
  have tried := wf_issueBundle c (s := unpause (groupOf s c) s) (by simp [h])
  unfold endPause
  dsimp only
  split
  · exact h
  · exact WfMem.ite (WfMem.ite (by simp [h]) (by simp [h])) (WfMem.ite (by simp [tried]) (by simp [h]))

end Sys2Proof.Machine
end

section
/-! The canonical form of memory through tasks, residency, streams and launches. -/

namespace Sys2Proof.Machine
open Sys2Proof.Safety

/-! ### Events of a core -/

@[simp] theorem wf_startCommand (c tok : Nat) {s : State} (h : s.mem.wf = true) : (startCommand c tok s).mem.wf = true := by
  unfold startCommand
  (repeat' split) <;> simp [h]

/-! ### Residency -/

@[simp] theorem wf_pin (h : Nat) {s : State} (hs : s.mem.wf = true) : (pin h s).mem.wf = true := by simp [pin, hs]

@[simp] theorem wf_zeroTensor (h : Nat) {s : State} (hs : s.mem.wf = true) : (zeroTensor h s).mem.wf = true :=
  wf_foldl (fun _ _ ht => Memory.zeroRange_wf _ _ ht) _ hs

@[simp] theorem wf_releaseRecord (h : Nat) {s : State} (hs : s.mem.wf = true) : (releaseRecord h s).mem.wf = true := by simp [releaseRecord, hs]

@[simp] theorem wf_unpin (h : Nat) {s : State} (hs : s.mem.wf = true) : (unpin h s).mem.wf = true := by
  unfold unpin
  exact WfMem.ite (by simp [hs]) (by simp [hs])

@[simp] theorem wf_freeTensor (h : Nat) {s : State} (hs : s.mem.wf = true) : (freeTensor h s).mem.wf = true := by
  have left := wf_abandonMove h hs
  unfold freeTensor
  exact WfMem.ite (by simp [left]) (by simp [left])

@[simp] theorem wf_dropTensor (h : Nat) {s : State} (hs : s.mem.wf = true) : (dropTensor h s).mem.wf = true := by
  have zeroed : ∀ t : State, t.mem.wf = true → (zeroTensor h (releaseParity h t)).mem.wf = true := fun _ ht => wf_zeroTensor _ (by simp [ht])
  unfold dropTensor
  simpa using zeroed _ (by simp [hs])

@[simp] theorem wf_perform (h : Nat) (forced : Bool) (a : Act) {s : State} (hs : s.mem.wf = true) : (perform h forced a s).mem.wf = true := by
  cases a with
  | drop =>
    have dropped := wf_dropTensor h hs
    exact WfMem.ite (by simp [dropped]) dropped
  | compress => simp [perform, hs]
  | spill => simp [perform, hs]

@[simp] theorem wf_evictOne (d : Nat) {s : State} (h : s.mem.wf = true) : (evictOne d s).mem.wf = true := by
  unfold evictOne
  refine WfMem.ite h (WfMem.ite (by simp [h]) ?_)
  dsimp only
  split
  · rw [updHasp_mem]
    exact WfMem.ite (by simp [h]) (by simp [h])
  · split
    · simp [h]
    · exact wf_perform _ _ _ (by simp [h])

@[simp] theorem wf_endCompress (h : Nat) (forced : Bool) {s : State} (hs : s.mem.wf = true) : (endCompress h forced s).mem.wf = true := by
  unfold endCompress
  refine WfMem.ite (by simp [hs]) (WfMem.ite (by simp [hs]) ?_)
  split
  · exact wf_perform _ _ _ (by simp [hs])
  · simp [hs]

@[simp] theorem wf_pageMoved (m : Move) {s : State} (h : s.mem.wf = true) : (pageMoved m s).mem.wf = true :=
  WfMem.ite (by simp [h]) (WfMem.ite (wf_endCompress _ _ h) (by simp [h]))

@[simp] theorem wf_carryPage (m : Move) {s : State} (h : s.mem.wf = true) : (carryPage m s).mem.wf = true := by simp [carryPage, h]

@[simp] theorem wf_movePage (m : Move) {s : State} (h : s.mem.wf = true) : (movePage m s).mem.wf = true := wf_pageMoved _ (wf_carryPage _ h)

@[simp] theorem wf_copyPass (h : Nat) {s : State} (hs : s.mem.wf = true) : (copyPass h s).mem.wf = true := by
  unfold copyPass
  split
  · exact hs
  · exact WfMem.ite hs (WfMem.ite (WfMem.ite (wf_abandonMove _ hs) (by simp [hs])) (wf_movePage _ hs))

@[simp] theorem wf_swapPass (h : Nat) {s : State} (hs : s.mem.wf = true) : (swapPass h s).mem.wf = true := by
  unfold swapPass
  split
  · exact hs
  · split
    · exact hs
    · exact WfMem.ite hs (WfMem.ite (by simp [hs]) (WfMem.ite (by simp [hs]) (WfMem.ite (wf_movePage _ (wf_movePage _ hs)) (wf_movePage _ (wf_movePage _ hs)))))

@[simp] theorem wf_applyOne (h : Nat) {s : State} (hs : s.mem.wf = true) : (applyOne h s).mem.wf = true := by
  unfold applyOne
  split
  · exact hs
  · exact WfMem.ite hs (by simp [hs])

@[simp] theorem wf_applyBounced (h : Nat) {s : State} (hs : s.mem.wf = true) : (applyBounced h s).mem.wf = true :=
  wf_foldl (fun _ _ ht => wf_applyOne _ ht) _ hs

@[simp] theorem wf_endRestore (h : Nat) {s : State} (hs : s.mem.wf = true) : (endRestore h s).mem.wf = true := by
  unfold endRestore
  split
  · exact hs
  · exact WfMem.ite hs (wf_applyBounced _ (by simp [hs]))

@[simp] theorem wf_materialise (f : Nat) (op : MatOp) {s : State} (h : s.mem.wf = true) : (materialise f op s).mem.wf = true := by
  induction f generalizing op s with
  | zero => exact h
  | succ f ih =>
    cases op with
    | request t ask above part cls =>
      simp only [materialise]
      refine WfMem.ite (ih _ h) (WfMem.ite (ih _ h) ?_)
      split
      · exact WfMem.ite h (by simp [h])
      · exact ih _ (by simp [h])
    | advance t =>
      simp only [materialise]
      split
      · exact h
      · split
        · exact h
        · exact WfMem.ite (ih _ h) (ih _ (by simp [h]))
    | fail t code chain =>
      simp only [materialise]
      split
      · exact h
      next r _ =>
        refine wf_foldl (fun a t ht => ih _ ht) _ ?_
        exact (congrArg Memory.wf (updRec_mem ..)).trans (wf_foldl (fun i t ht => wf_unpin i ht) _ h)
    | refuse ask t code chain =>
      cases ask with
      | parent p => simpa [materialise] using ih _ h
      | launch l => simp [materialise, h]
      | ctx c => simp [materialise, h]
      | dep => simp [materialise, h]
      | bounce => simp [materialise, h]

@[simp] theorem wf_requestResident (h : Nat) (ask : Ask) (part cls : Nat) {s : State} (hs : s.mem.wf = true) :
    (requestResident h ask part cls s).mem.wf = true :=
  WfMem.ite (wf_materialise _ _ hs) (by simp [hs])

@[simp] theorem wf_reissueDone (h : Nat) {s : State} (hs : s.mem.wf = true) : (reissueDone h s).mem.wf = true := by
  unfold reissueDone
  split
  · exact hs
  next r _ =>
    refine WfMem.ite ?_ ?_
    on_goal 1 => rw [mem_beginMove]
    all_goals
      refine wf_foldl (fun a t ht => ?_) _ (wf_applyBounced _ ?_)
      · dsimp only
        split
        · exact wf_materialise _ _ (by simp [ht])
        · exact WfMem.ite (by simp [ht]) ht
        · exact ht
      · rw [mem_assignParity, updRec_mem, mem_dropEntries]
        exact wf_foldl (fun i t ht => wf_unpin i ht) _ hs

@[simp] theorem wf_reissueFailed (h : Nat) {s : State} (hs : s.mem.wf = true) : (reissueFailed h s).mem.wf = true := by
  unfold reissueFailed
  split
  · exact hs
  · exact wf_materialise _ _ (by simp [hs])

/-! ### Events of a Hasp slice -/

theorem mem_declareTensor (b : List Byte) (part owner : Nat) (base : Word) (s : State) :
    Yields (fun r => r.1.mem = s.mem) (declareTensor b part owner base s) := by
  unfold declareTensor
  split
  · trivial
  · refine .ite (.error _) ?_
    split
    · exact (mem_assignParity ..).trans ((mem_setUses ..).trans rfl)
    · trivial

@[simp] theorem wf_forceOn (d h : Nat) (a : Act) {s : State} (hs : s.mem.wf = true) : (forceOn d h a s).mem.wf = true :=
  WfMem.ite (by simp [hs]) (WfMem.ite (by simp [hs]) (WfMem.ite (by simp [hs]) (WfMem.ite (by simp [hs]) (wf_perform _ _ _ (by simp [hs])))))

@[simp] theorem wf_writeHforce (d : Nat) (act : Option Act) (v : BitVec 64) {s : State} (h : s.mem.wf = true) :
    (writeHforce d act v s).mem.wf = true := by
  unfold writeHforce
  split <;> simp [h]

@[simp] theorem wf_endSub (h : Nat) {s : State} (hs : s.mem.wf = true) : (endSub h s).mem.wf = true := by
  unfold endSub
  split
  · exact hs
  · split
    · exact hs
    · exact WfMem.ite hs (WfMem.ite (wf_reissueFailed _ hs) (wf_reissueDone _ hs))

@[simp] theorem wf_materialiseDependent (h : Nat) {s : State} (hs : s.mem.wf = true) : (materialiseDependent h s).mem.wf = true := by
  unfold materialiseDependent
  refine WfMem.ite hs ?_
  split
  · exact hs
  · exact WfMem.ite hs (wf_requestResident _ _ _ _ hs)

@[simp] theorem wf_serveBounced (h : Nat) {s : State} (hs : s.mem.wf = true) : (serveBounced h s).mem.wf = true :=
  WfMem.ite (by simp [hs]) (WfMem.ite (by simp [hs]) (WfMem.ite (wf_requestResident _ _ _ _ hs) (wf_applyBounced _ hs)))

@[simp] theorem wf_applyBounce (d : Nat) {s : State} (h : s.mem.wf = true) :
    (applyBounce d s).mem.wf = true := wf_foldl (fun _ _ ht => wf_serveBounced _ ht) _ h

/-! ### Stream instructions -/

@[simp] theorem wf_askWait (c : Nat) (k : WaitKind) {s : State} (h : s.mem.wf = true) : (askWait c k s).mem.wf = true := by
  cases k
  case fetch | tensor | pin => exact wf_requestResident _ _ _ _ h
  all_goals exact h

/-- Whatever a stream instruction does next, memory is in its canonical form. -/
def SRes.Wf : SRes → Prop
  | .next s | .jump s _ | .pass s _ | .goto_ s _ | .stay s | .wait s _ | .fault s _ _ => s.mem.wf = true

section

variable (s : State)

@[simp] theorem SRes.wf_next : (SRes.next s).Wf ↔ s.mem.wf = true := Iff.rfl

@[simp] theorem SRes.wf_jump (d : Int) : (SRes.jump s d).Wf ↔ s.mem.wf = true := Iff.rfl

@[simp] theorem SRes.wf_pass (d : Int) : (SRes.pass s d).Wf ↔ s.mem.wf = true := Iff.rfl

@[simp] theorem SRes.wf_goto_ (pc : BitVec 48) : (SRes.goto_ s pc).Wf ↔ s.mem.wf = true := Iff.rfl

@[simp] theorem SRes.wf_stay : (SRes.stay s).Wf ↔ s.mem.wf = true := Iff.rfl

@[simp] theorem SRes.wf_wait (k : WaitKind) : (SRes.wait s k).Wf ↔ s.mem.wf = true := Iff.rfl

@[simp] theorem SRes.wf_fault (code : BitVec 8) (info : Word) : (SRes.fault s code info).Wf ↔ s.mem.wf = true := Iff.rfl

end

theorem SRes.Wf.ite {c : Prop} [Decidable c] {a b : SRes} (ha : a.Wf) (hb : b.Wf) : (if c then a else b).Wf := by
  split
  · exact ha
  · exact hb

@[simp] theorem SRes.wf_ite (c : Prop) [Decidable c] (a b : SRes) : (if c then a else b).Wf ↔ if c then a.Wf else b.Wf := by
  split <;> rfl

theorem wf_runStream (words : Nat) (w : Where) (c : Nat) {f : State → SRes} {s : State} (h : s.mem.wf = true) (hf : (f s).Wf) :
    (runStream words w c f s).mem.wf = true := by
  unfold runStream
  refine WfMem.ite h (WfMem.ite (by simp [h]) (WfMem.ite (by simp [h]) ?_))
  split
  next e => rw [e] at hf; simpa [mem_advancePc] using hf
  next e => rw [e] at hf; simpa using hf
  next e => rw [e] at hf; simpa using hf
  next e => rw [e] at hf; simpa using hf
  next e => rw [e] at hf; simpa using hf
  next t k e =>
    rw [e] at hf
    exact wf_askWait _ _ (by simpa using hf)
  next e => rw [e] at hf; simpa using hf

/-- A stream's read has kept the canonical form, in its result and where it ends the instruction. -/
def ReadsWf {α : Type} : Except SRes (State × α) → Prop
  | .ok r => r.1.mem.wf = true
  | .error e => e.Wf

theorem ReadsWf.ite {α : Type} {c : Prop} [Decidable c] {x y : Except SRes (State × α)} (hx : ReadsWf x) (hy : ReadsWf y) :
    ReadsWf (if c then x else y) := by
  split
  · exact hx
  · exact hy

theorem readsWf_streamRead (c : Nat) (p : Word) (n : Nat) {s : State} (h : s.mem.wf = true) : ReadsWf (streamRead s c p n) := by
  unfold streamRead
  split
  · exact h
  · exact h
  · exact .ite h ((congrArg Memory.wf (mem_freeBytes ..)).trans h)
  · exact .ite h (.ite h h)

/-! ### Launches by a stream -/

@[simp] theorem wf_enqueue (c : Nat) (l : Launch) {s : State} (h : s.mem.wf = true) : (enqueue c l s).mem.wf = true := by
  unfold enqueue
  exact (congrArg Memory.wf (updCtx_mem ..)).trans (wf_foldl (fun h' t ht => wf_pin h' ht) _ (by simp [h]))

theorem wf_addPrediction (c min : Nat) (p : PredFields) (l : Launch) {s : State} (h : s.mem.wf = true) :
    Yields (fun r : Launch × State => r.2.mem.wf = true) (addPrediction c min p l s) := by
  unfold addPrediction
  refine .ite (.error _) ?_
  show Memory.wf (State.mem (Prod.snd _)) = true
  split
  · exact h
  · simp [h]

/-! ### Launches -/

@[simp] theorem wf_wakeMailbox (c : Nat) {s : State} (h : s.mem.wf = true) : (wakeMailbox c s).mem.wf = true := by
  unfold wakeMailbox
  dsimp only
  split
  · exact WfMem.ite (by simp [h]) (WfMem.ite (by simp [h]) (WfMem.ite (wf_requestResident _ _ _ _ h)
      (WfMem.ite h (WfMem.ite (by simp [h]) (by simp [mem_advancePc, h])))))
  · exact h

@[simp] theorem wf_thresholdsMet (l : Nat) {s : State} (h : s.mem.wf = true) : (thresholdsMet l s).mem.wf = true := by
  unfold thresholdsMet
  refine WfMem.ite h (WfMem.ite (by simp [h]) (wf_foldl (fun x t ht => ?_) _ (by simp [h])))
  exact WfMem.ite ht (wf_requestResident _ _ _ _ ht)

@[simp] theorem wf_retract (h t : Nat) {s : State} (hs : s.mem.wf = true) : (retract h t s).mem.wf = true := by
  unfold retract
  refine (congrArg Memory.wf (updRec_mem ..)).trans (wf_foldl (fun i t ht => ?_) _ hs)
  have stored := fun o b m => wf_storeGlob h o b m ht
  exact WfMem.ite ht (WfMem.ite ht (WfMem.ite (stored _ _ _) (stored _ _ _)))

@[simp] theorem wf_retractAll (x : Launch) (t : Nat) {s : State} (h : s.mem.wf = true) : (retractAll x t s).mem.wf = true :=
  wf_foldl (fun _ _ ht => wf_retract _ _ ht) _ h

@[simp] theorem wf_settleTrim (l : Nat) (p : Pred) (t : Nat) {s : State} (h : s.mem.wf = true) :
    (settleTrim l p t s).mem.wf = true := by simp [settleTrim, h]

@[simp] theorem wf_trim (l : Nat) {s : State} (h : s.mem.wf = true) : (trim l s).mem.wf = true := by
  unfold trim
  dsimp only
  split
  · exact h
  · split
    · exact h
    · exact WfMem.ite h (WfMem.ite (by simp [h]) (wf_settleTrim _ _ _ (by simp [h])))

@[simp] theorem wf_firstShares (l : Nat) {s : State} (h : s.mem.wf = true) : (firstShares l s).mem.wf = true := by
  unfold firstShares
  dsimp only
  split
  · simp [h]
  · split
    · simp [h]
    · simp [wf_retractAll _ _ h]

@[simp] theorem wf_becomeReady (l : Nat) {s : State} (h : s.mem.wf = true) : (becomeReady l s).mem.wf = true := by
  have noted : (noteInputs (launchOf s l) s).mem.wf = true := by simp [h]
  unfold becomeReady
  refine WfMem.ite h ?_
  dsimp only
  split
  · have left : ∀ k : List (Nat × Nat × Nat), (k.foldl (fun s r => abandonMove r.1 s) (noteInputs (launchOf s l) s)).mem.wf = true :=
      fun k => wf_foldl (fun x t ht => by simp [ht]) k noted
    exact WfMem.ite noted (by simpa using left _)
  · refine WfMem.ite (by simp [h]) ?_
    split
    · simp [h]
    · exact wf_firstShares _ (by simp [h])

@[simp] theorem wf_collWrite (l : Nat) (b : List Byte) (r : Contrib × Bool) {s : State} (h : s.mem.wf = true) :
    (collWrite l b r s).mem.wf = true := by simp [collWrite, h]

@[simp] theorem wf_runColl (l : Nat) {s : State} (h : s.mem.wf = true) : (runColl l s).mem.wf = true := by
  have failed : ∀ (a : List (Nat × List Byte)) (code : BitVec 8), (a.foldl (fun s p => failColl p.1 code s) s).mem.wf = true :=
    fun a code => wf_foldl (fun p t ht => by simp [ht]) a h
  unfold runColl
  dsimp only
  split
  · exact h
  · refine WfMem.ite (failed _ _) (WfMem.ite (WfMem.ite h (WfMem.ite (failed _ _) ?_)) (WfMem.ite (failed _ _) (WfMem.ite ?_ (WfMem.ite (failed _ _) h))))
    · exact wf_foldl (fun p t ht => wf_collWrite _ _ _ ht) _ h
    · exact wf_collWrite _ _ _ h

@[simp] theorem wf_freeLaunch (l : Nat) {s : State} (h : s.mem.wf = true) : (freeLaunch l s).mem.wf = true :=
  wf_foldl (fun _ _ ht => wf_unpin _ ht) _ h

@[simp] theorem wf_finishLaunch (l : Nat) {s : State} (h : s.mem.wf = true) : (finishLaunch l s).mem.wf = true := by
  unfold finishLaunch
  dsimp only
  (repeat' split) <;> simp [h]

@[simp] theorem wf_completeLaunch (l : Nat) {s : State} (h : s.mem.wf = true) : (completeLaunch l s).mem.wf = true := by
  have ran : (if launchIn s l .running then
      (match (launchOf s l).what with
      | .coll _ => runColl l s
      | .tasks => if tasksOver s l ∧ !frozenIn s l then updLaunch s l (fun x => { x with state := .drain }) else s)
      else s).mem.wf = true := by
    refine WfMem.ite ?_ h
    split
    · exact wf_runColl _ h
    · exact WfMem.ite h h
  exact WfMem.ite (WfMem.ite (wf_finishLaunch _ h) h) (WfMem.ite (wf_finishLaunch _ ran) ran)

/-! ### Dispatchers -/

@[simp] theorem wf_restoreFrame (f : Frame) (i c : Nat) {s : State} (h : s.mem.wf = true) :
    (restoreFrame f i s c).mem.wf = true := by simp [restoreFrame, h]

@[simp] theorem wf_resumeOn (t : Task) (g : List Nat) {s : State} (h : s.mem.wf = true) : (resumeOn t g s).mem.wf = true := by
  refine wf_foldl (fun c u hu => ?_) _ h
  dsimp only
  split
  · split
    · exact wf_restoreFrame _ _ _ hu
    · exact hu
  · exact hu

@[simp] theorem wf_resumeCore (cl c : Nat) {s : State} (h : s.mem.wf = true) : (resumeCore cl s c).mem.wf = true := by
  unfold resumeCore
  refine WfMem.ite h ?_
  split
  · exact h
  · split
    · exact h
    · exact WfMem.ite h (WfMem.ite (WfMem.ite (wf_resumeOn _ _ h) h) (wf_resumeOn _ _ h))

@[simp] theorem wf_resumeSaved (cl : Nat) {s : State} (h : s.mem.wf = true) : (resumeSaved cl s).mem.wf = true :=
  wf_foldl (fun _ _ ht => wf_resumeCore _ _ ht) _ h

@[simp] theorem wf_dispatchRound (cl : Nat) {s : State} (h : s.mem.wf = true) : (dispatchRound cl s).mem.wf = true := by simp [dispatchRound, h]

@[simp] theorem wf_fillStore (im : ImageInfo) (c : Nat) {s : State} (h : s.mem.wf = true) : (fillStore im s c).mem.wf = true :=
  WfMem.ite h (Memory.setBytes_wf _ _ (Memory.setBytes_wf _ _ (Memory.zeroRange_wf _ _ h)))

@[simp] theorem wf_beginRun (g : List Nat) (im : ImageInfo) {s : State} (h : s.mem.wf = true) : (beginRun g im s).mem.wf = true := by
  refine wf_foldl (fun c t ht => ?_) _ h
  dsimp only
  split
  · exact ht
  · exact WfMem.ite (by simp [ht]) (by simp [ht])

@[simp] theorem wf_loaded (g : List Nat) (im : ImageInfo) {s : State} (h : s.mem.wf = true) : (loaded g im s).mem.wf = true :=
  (congrArg Memory.wf (mem_resumeTend ..)).trans (wf_beginRun _ _ (wf_foldl (fun _ _ ht => wf_fillStore _ _ ht) _ h))

@[simp] theorem wf_awaitImage (g : List Nat) (t : Task) (h : Nat) {s : State} (hs : s.mem.wf = true) : (awaitImage g t h s).mem.wf = true := by
  unfold awaitImage
  refine WfMem.ite (by simp [hs]) (WfMem.ite (by simp [hs]) ?_)
  split
  · exact WfMem.ite (by simp [hs]) (wf_requestResident _ _ _ _ hs)
  · exact wf_requestResident _ _ _ _ hs

@[simp] theorem wf_loadImage_load (g : List Nat) (t : Task) (h entry : Nat) {s : State} (hs : s.mem.wf = true) :
    (loadImage.load g t h entry s).mem.wf = true := by
  unfold loadImage.load
  refine WfMem.ite (by simp [hs]) (WfMem.ite (wf_awaitImage _ _ _ hs) ?_)
  split
  · exact wf_loaded _ _ hs
  · simp [hs]

@[simp] theorem wf_loadImage (c : Nat) {s : State} (h : s.mem.wf = true) : (loadImage c s).mem.wf = true := by
  unfold loadImage
  split
  · exact h
  · refine WfMem.ite h ?_
    dsimp only
    split
    · refine WfMem.ite (wf_loaded _ _ h) (WfMem.ite (by simp [h]) (WfMem.ite (by simp [h]) (WfMem.ite (wf_awaitImage _ _ _ h) ?_)))
      split
      · exact wf_loaded _ _ h
      · simp [h]
    · simp [h]
    · split
      · exact WfMem.ite (WfMem.ite (wf_loaded _ _ h) (by simp [h])) (wf_loadImage_load _ _ _ _ h)
      · exact wf_loadImage_load _ _ _ _ h

end Sys2Proof.Machine
end

section
/-! The canonical form of memory through the fabric, the host port, power, lost dies and the turns. -/

namespace Sys2Proof.Machine
open Sys2Proof.Safety

/-! ### The fabric -/

/-- Memory in its canonical form where there is a result. -/
def OptWf : Option State → Prop
  | some s => s.mem.wf = true
  | none => True

@[simp] theorem optWf_some (s : State) : OptWf (some s) ↔ s.mem.wf = true := Iff.rfl

theorem OptWf.none : OptWf none := trivial

theorem OptWf.of_eq {x : Option State} {s : State} (h : OptWf x) (e : x = some s) : s.mem.wf = true := by
  rw [e] at h
  exact h

theorem OptWf.ite {c : Prop} [Decidable c] {x y : Option State} (hx : OptWf x) (hy : OptWf y) : OptWf (if c then x else y) := by
  split
  · exact hx
  · exact hy

theorem homeAccess_wf {die : Nat} {l : Loc} {op : AccessOp} {own : Option Nat} {s t : State} {r : Option (BitVec 1024 × Bool)}
    (e : homeAccess s die l op own = .done t r) (h : s.mem.wf = true) : t.mem.wf = true := by
  have home := wf_homeAccess die l op own h
  rw [e] at home
  exact home

theorem wf_coreAccess (p : Packet) (ptr : Word) (l : Loc) (op : AccessOp) (own : Option Nat) (e : CEntry) {s : State} (h : s.mem.wf = true) :
    OptWf (coreAccess p ptr l op own e s) := by
  unfold coreAccess
  split
  · trivial
  next heq => simpa using homeAccess_wf heq h
  · split
    · simpa using h
    · simpa using h
    · simp only [optWf_some, mem_storeFails]
      split
      · simpa using h
      · exact h

@[simp] theorem wf_storeOver (p : Packet) {s : State} (h : s.mem.wf = true) : (storeOver p s).mem.wf = true :=
  wf_foldl (fun _ _ ht => wf_unpin _ ht) _ (by simp [h])

theorem wf_ctxAccess (p : Packet) (ptr : Word) (l : Loc) (op : AccessOp) {s : State} (h : s.mem.wf = true) : OptWf (ctxAccess p ptr l op s) := by
  have ended := wf_storeOver p h
  have stored : ∀ t : State, t.mem.wf = true → (storeOver p (tagDeltas s.nextId p.core t)).mem.wf = true := fun t ht => wf_storeOver p (by simpa using ht)
  cases l with
  | glob h' o =>
    refine .ite ?_ (.ite ended (.ite (wf_requestResident _ _ _ _ h) (.ite trivial ?_)))
    all_goals
      dsimp only
      split
      · trivial
      · simpa using ended
      next heq => simpa using stored _ (homeAccess_wf heq h)
  | flat k | host a port =>
    simp only [ctxAccess]
    split
    · trivial
    · simpa using ended
    next heq => exact stored _ (homeAccess_wf heq h)

theorem wf_netWrite (b : List Byte) {s : State} (h : s.mem.wf = true) : OptWf (netWrite b s) := by
  unfold netWrite
  dsimp only
  split
  · trivial
  next heq => simpa using linkWrite_wf_done heq h
  next heq => simpa using linkWrite_wf_bounced heq h
  · simpa using h

@[simp] theorem wf_xorInto (k : Nat) (bytes : List Byte) {s : State} (h : s.mem.wf = true) : (xorInto k bytes s).mem.wf = true := by simp [xorInto, h]

theorem wf_netDelta (b : List Byte) {s : State} (h : s.mem.wf = true) : OptWf (netDelta b s) :=
  .ite (by simp [h]) (.ite trivial (by simp [h]))

theorem wf_netDeliver (b : List Byte) {s : State} (h : s.mem.wf = true) : OptWf (netDeliver b s) := by
  unfold netDeliver
  split
  · exact wf_netWrite _ h
  · simpa using h
  · simpa using h
  · simpa using h
  · simpa using h
  · exact wf_netDelta _ h
  · simpa using h
  · exact h

theorem wf_performPacket (p : Packet) {s : State} (h : s.mem.wf = true) : OptWf (performPacket p s) := by
  unfold performPacket
  split
  · exact .ite (wf_coreAccess _ _ _ _ _ _ h) (wf_ctxAccess _ _ _ _ h)
  · simp [h]
  · simp [h]
  · simp [h]
  · exact WfMem.ite (by simp [h]) (by simp [h])
  · exact .ite (by simp [h]) (.ite trivial (by simp [h]))
  · exact wf_netDeliver _ (by simp [h])
  · trivial
  · trivial

@[simp] theorem wf_performFirst (before l : List Packet) {s : State} (h : s.mem.wf = true) : (performFirst before s l).mem.wf = true := by
  induction l generalizing before with
  | nil => exact h
  | cons p l ih =>
    unfold performFirst
    split
    next e => exact OptWf.of_eq (.ite (wf_performPacket p h) OptWf.none) e
    · exact WfMem.ite (by simp [h]) (ih _)

@[simp] theorem wf_deliverPacket (lane : Nat) (src dst : Node) (pick : Nat) {s : State} (h : s.mem.wf = true) :
    (deliverPacket lane src dst pick s).mem.wf = true :=
  wf_performFirst _ _ h

@[simp] theorem wf_storeUnresolved (c : Nat) {s : State} (h : s.mem.wf = true) : (storeUnresolved c s).mem.wf = true := by
  unfold storeUnresolved
  split
  · exact h
  · split
    · refine WfMem.ite ?_ (by simp [h])
      rw [mem_storeFails]
      split
      · simpa using h
      · exact h
    · simp [h]
    · exact h

@[simp] theorem wf_bringPage (p : Packet) (e : CEntry) (h : Nat) {s : State} (hs : s.mem.wf = true) : (bringPage p e h s).mem.wf = true := by
  unfold bringPage
  refine WfMem.ite (by simp [hs]) (WfMem.ite (by simp [hs]) ?_)
  split
  · exact WfMem.ite (by simp [hs]) (wf_requestResident _ _ _ _ hs)
  · exact wf_requestResident _ _ _ _ hs

@[simp] theorem wf_performHinge (p : Packet) (h : HingeRel) (own part : Nat) (e : CEntry) {s : State} (hs : s.mem.wf = true) :
    (performHinge p h own part e s).mem.wf = true := by
  unfold performHinge
  refine WfMem.ite (by simp [hs]) (WfMem.ite (by simp [hs]) ?_)
  split
  · simp [hs]
  · exact wf_bringPage _ _ _ hs
  · exact WfMem.ite (WfMem.ite (by simp [hs]) hs) (by simp [hs])

@[simp] theorem wf_hingeRelease (c : Nat) {s : State} (h : s.mem.wf = true) : (hingeRelease c s).mem.wf = true := by
  unfold hingeRelease
  split
  · exact h
  · split
    · exact wf_performHinge _ _ _ _ _ h
    · exact h

@[simp] theorem wf_applyDelta (d : Nat) {s : State} (h : s.mem.wf = true) : (applyDelta d s).mem.wf = true := by
  unfold applyDelta
  refine WfMem.ite h ?_
  split
  · exact h
  · split
    · simp [h]
    · exact h

/-! ### The host port -/

@[simp] theorem wf_apPut (h o : Nat) (b : List Byte) {s : State} (hs : s.mem.wf = true) : (apPut h o b s).mem.wf = true := by simp [apPut, hs]

@[simp] theorem wf_apWrite (fn x : Nat) (b : List Byte) {s : State} (h : s.mem.wf = true) : (apWrite fn x b s).mem.wf = true := by simp [apWrite, h]

@[simp] theorem wf_hdRun (p : Nat) {s : State} (h : s.mem.wf = true) : (hdRun p s).mem.wf = true := by
  unfold hdRun
  dsimp only
  split
  · exact h
  · refine WfMem.ite h (WfMem.ite ?_ ?_)
    · exact WfMem.ite (by simp [h]) (WfMem.ite h ((congrArg Memory.wf (mem_hdDone ..)).trans (wf_freeTensor _ h)))
    · refine WfMem.ite (by simp [h]) ?_
      split
      · simp [h]
      next e =>
        have declared := (congrArg Memory.wf ((mem_declareTensor ..).of_eq e)).trans h
        simpa using declared

@[simp] theorem wf_writeHdctl (p m v : Nat) {s : State} (h : s.mem.wf = true) : (writeHdctl p m v s).mem.wf = true := by
  unfold writeHdctl
  exact wf_hdRun _ (WfMem.ite (by simp [h]) (by simp [h]))

@[simp] theorem wf_apHeld (p : Nat) {s : State} (h : s.mem.wf = true) : (apHeld p s).mem.wf = true := by
  unfold apHeld
  split
  · exact h
  · exact WfMem.ite (wf_hdRun _ (by simp [h])) (WfMem.ite (by simp [h]) (WfMem.ite (wf_hdRun _ (wf_apPut _ _ _ h)) h))

@[simp] theorem wf_zeroCore (c : Nat) {s : State} (h : s.mem.wf = true) : (zeroCore c s).mem.wf = true := by simp [zeroCore, h]

@[simp] theorem wf_zeroCluster (cl : Nat) {s : State} (h : s.mem.wf = true) : (zeroCluster cl s).mem.wf = true :=
  wf_foldl (fun _ _ ht => wf_zeroCore _ ht) _ h

@[simp] theorem wf_writeMap (p i : Nat) (v : BitVec 8) {s : State} (h : s.mem.wf = true) : (writeMap p i v s).mem.wf = true := by
  unfold writeMap
  (repeat' split) <;> simp [h]

@[simp] theorem wf_endLaunches (ls : List Nat) {s : State} (h : s.mem.wf = true) : (endLaunches ls s).mem.wf = true := by
  have freed : ((ls.foldl (fun s l => freeLaunch l (killLaunch l s)) (dropShares (fun h => ls.contains h.launch) s))).mem.wf = true :=
    wf_foldl (fun l t ht => wf_freeLaunch l (by simp [ht])) _ (by simp [h])
  simpa [endLaunches] using freed

@[simp] theorem wf_clearCtx (c : Nat) {s : State} (h : s.mem.wf = true) : (clearCtx c s).mem.wf = true := by simp [clearCtx, h]

@[simp] theorem wf_killCtx (c : Nat) {s : State} (h : s.mem.wf = true) : (killCtx c s).mem.wf = true := by simp [killCtx, h]

@[simp] theorem wf_writeCtxctl (c m v : Nat) {s : State} (h : s.mem.wf = true) : (writeCtxctl c m v s).mem.wf = true := by simp [writeCtxctl, h]

@[simp] theorem wf_resetPart (p : Nat) {s : State} (h : s.mem.wf = true) : (resetPart p s).mem.wf = true :=
  wf_foldl (fun _ _ ht => wf_killCtx _ ht) _ h

/-! ### Power -/

@[simp] theorem wf_bareState (m : Module) (t : Trust) {s : State} (h : s.mem.wf = true) : (bareState m t s).mem.wf = true := Memory.filter_wf _ h

@[simp] theorem wf_bootWith (m : Module) (t : Trust) {s : State} (h : s.mem.wf = true) : (bootWith m t s).mem.wf = true :=
  WfMem.ite (wf_bareState _ _ h) (wf_bareState _ _ h)

@[simp] theorem wf_resetModule {s : State} (h : s.mem.wf = true) : (resetModule s).mem.wf = true := WfMem.ite h (wf_bootWith _ _ h)

@[simp] theorem wf_powerOn {s : State} (h : s.mem.wf = true) : (powerOn s).mem.wf = true := WfMem.ite h (wf_bootWith _ _ h)

@[simp] theorem wf_holdDies (b : BootState) (pwrgd : Bool) {s : State} (h : s.mem.wf = true) :
    (holdDies b pwrgd s).mem.wf = true := wf_bareState _ _ h

@[simp] theorem wf_onHeat (die : Nat) (v : Word) {f : State → State} (hf : KeepsWf f) {s : State} (h : s.mem.wf = true) :
    (onHeat die v f s).mem.wf = true :=
  WfMem.ite h (hf _ (by simp [h]))

@[simp] theorem wf_standby (f : Power → Power) {s : State} (h : s.mem.wf = true) : (standby f s).mem.wf = true :=
  wf_bareState { standbyModule s.mod with power := f (standbyModule s.mod).power } s.mod.trust h

@[simp] theorem wf_askPower (r : Nat) (i3c : Bool) {s : State} (h : s.mem.wf = true) : (askPower r i3c s).mem.wf = true :=
  have left := wf_bootWith { standbyModule s.mod with power := { (standbyModule s.mod).power with req := BitVec.ofNat 2 r } } s.mod.trust h
  WfMem.ite h (WfMem.ite (WfMem.ite left h)
    (WfMem.ite (by simp [h]) (WfMem.ite (by simp [h]) (WfMem.ite (by simp [h]) (wf_standby _ h)))))

@[simp] theorem wf_writeModpwr (i3c : Bool) (m v : Nat) {s : State} (h : s.mem.wf = true) : (writeModpwr i3c m v s).mem.wf = true :=
  WfMem.ite h (WfMem.ite (wf_askPower _ _ (by simp [h])) (by simp [h]))

/-! ### Trust -/

@[simp] theorem wf_tamper {s : State} (h : s.mem.wf = true) : (tamper s).mem.wf = true := WfMem.ite h (wf_holdDies _ _ (by simp [h]))

@[simp] theorem wf_spdm (tr : Transport) (ok : Trust → Bool) {f : State → State} (hf : KeepsWf f) {s : State} (h : s.mem.wf = true) :
    (spdm tr ok f s).mem.wf = true :=
  WfMem.ite h (WfMem.ite (hf _ h) (by simp [h]))

@[simp] theorem wf_signedReply (f : Signed → SpdmReply) {g : State → State} (hg : KeepsWf g) {s : State} (h : s.mem.wf = true) :
    (signedReply f g s).mem.wf = true :=
  WfMem.ite (by simp [h]) (hg _ (by simp [h]))

/-! ### Loss of a die -/

@[simp] theorem wf_loseCtx (c : Nat) {s : State} (h : s.mem.wf = true) : (loseCtx c s).mem.wf = true := by simp [loseCtx, h]

@[simp] theorem wf_loseSub (c : Nat) {s : State} (h : s.mem.wf = true) : (loseSub c s).mem.wf = true := by
  unfold loseSub
  split
  · exact h
  · exact (congrArg Memory.wf (mem_updReissue ..)).trans (wf_endLaunches _ h)

@[simp] theorem wf_fenceDie (d : Nat) {s : State} (h : s.mem.wf = true) : (fenceDie d s).mem.wf = true := by
  unfold fenceDie
  refine WfMem.ite h ?_
  dsimp only
  rw [mem_sendMsix, mem_loseHasp, mem_foldl (fun k t => mem_retireLost d k t)]
  exact wf_foldl (fun c t ht => wf_loseSub c ht) _ (wf_foldl (fun c t ht => wf_loseCtx c ht) _ (by simp [h]))

@[simp] theorem wf_putPage (h i : Nat) (bytes : List Byte) (bad : Nat → Bool) {s : State} (hs : s.mem.wf = true) :
    (putPage s h i bytes bad).mem.wf = true :=
  Memory.setBytes_wf _ _ hs

@[simp] theorem wf_rebuildPage (d h i : Nat) {s : State} (hs : s.mem.wf = true) : (rebuildPage d s h i).mem.wf = true := by
  unfold rebuildPage
  split
  · exact hs
  · exact wf_putPage _ _ _ _ hs

@[simp] theorem wf_rebuildFar (h i : Nat) {s : State} (hs : s.mem.wf = true) : (rebuildFar s h i).mem.wf = true := by
  unfold rebuildFar
  split
  · exact hs
  · refine wf_foldl (fun p t ht => ?_) _ hs
    dsimp only
    split
    · have drawn : (freeNat t).1.mem.wf = true := by simp [ht]
      exact WfMem.ite (WfMem.ite drawn (Memory.setBytes_wf _ _ drawn)) ht
    · exact ht

@[simp] theorem wf_makeRoom (d need f : Nat) {s : State} (h : s.mem.wf = true) : (makeRoom d need f s).mem.wf = true := by
  induction f generalizing s with
  | zero => exact h
  | succ f ih =>
    unfold makeRoom
    refine WfMem.ite h ?_
    dsimp only
    split
    · simp [h]
    · refine ih ?_
      split
      · exact wf_dropTensor _ (by simp [h])
      · exact wf_endCompress _ _ (by simp [h])
      · simp [h]
      · simp [h]

theorem wf_foldl_storeGlob (h : Nat) (o : Nat → Nat) (b : Nat → List Byte) (m : List Bool) (l : List Nat) {s : State} (hs : s.mem.wf = true) :
    (l.foldl (fun t k => storeGlob t h (o k) (b k) m) s).mem.wf = true :=
  wf_foldl (fun _ _ ht => wf_storeGlob _ _ _ _ ht) l hs

@[simp] theorem wf_applyHeld (h : Nat) (before : State) {s : State} (hs : s.mem.wf = true) : (applyHeld h before s).mem.wf = true :=
  wf_foldl_storeGlob h _ _ _ _ hs

@[simp] theorem wf_loseTensor (h : Nat) {s : State} (hs : s.mem.wf = true) : (loseTensor h s).mem.wf = true := by
  have zeroed := wf_zeroTensor h (s := updRec s h (fun r => { r with state := .dropped, lost := true, busy := false })) hs
  simpa [loseTensor] using zeroed

theorem wf_rebuildPages (d h : Nat) (l : List Nat) {s : State} (hs : s.mem.wf = true) :
    (l.foldl (fun s i => if oneLost s then rebuildPage d s h i else rebuildFar s h i) s).mem.wf = true :=
  wf_foldl (fun _ _ ht => WfMem.ite (wf_rebuildPage _ _ _ ht) (wf_rebuildFar _ _ ht)) l hs

@[simp] theorem wf_rebuildTensor (d : Nat) (before : State) (h : Nat) {s : State} (hs : s.mem.wf = true) :
    (rebuildTensor d before h s).mem.wf = true := by
  have room := fun need => wf_makeRoom (handleDie h) need s.recs.cells.length hs
  have pages := fun need l => wf_rebuildPages d h l (room need)
  unfold rebuildTensor
  simp [room, pages]

@[simp] theorem wf_dropLost (ok : Bool) (h : Nat) {s : State} (hs : s.mem.wf = true) : (dropLost ok h s).mem.wf = true :=
  WfMem.ite (wf_dropTensor _ hs) (wf_loseTensor _ hs)

@[simp] theorem wf_dealTensor (d : Nat) (before : State) (h : Nat) {s : State} (hs : s.mem.wf = true) : (dealTensor d before s h).mem.wf = true :=
  WfMem.ite (WfMem.ite hs (by simp [hs])) (WfMem.ite (wf_rebuildTensor _ _ _ hs) (wf_dropLost _ _ hs))

@[simp] theorem wf_askAgain (hs : List Nat) {s : State} (h : s.mem.wf = true) : (askAgain hs s).mem.wf = true :=
  wf_foldl (fun _ _ ht => WfMem.ite ht (wf_foldl (fun _ _ hu => WfMem.ite hu (wf_requestResident _ _ _ _ hu)) _ ht)) _ h

@[simp] theorem wf_rebuildDie (d : Nat) {s : State} (h : s.mem.wf = true) : (rebuildDie d s).mem.wf = true := by
  unfold rebuildDie
  refine WfMem.ite h (wf_askAgain _ ?_)
  rw [mem_updDb]
  exact wf_foldl (fun x t ht => wf_dealTensor _ _ _ ht) _ (by simp [h])

@[simp] theorem wf_rebuildSlot (h i : Nat) (bytes : List Byte) {s : State} (hs : s.mem.wf = true) : (rebuildSlot h i bytes s).mem.wf = true := by
  have put := wf_putPage h i bytes (fun _ => false) (s := { s with pages := s.pages.set false (pageKey s h i) true }) hs
  exact WfMem.ite hs (by simpa using put)

@[simp] theorem wf_endMrebuild {s : State} (h : s.mem.wf = true) : (endMrebuild s).mem.wf = true := by
  unfold endMrebuild
  refine WfMem.ite h ?_
  rw [mem_logStep, mem_updDb]
  exact wf_foldl (fun x t ht => WfMem.ite (wf_loseTensor _ ht) (WfMem.ite (by simp [ht]) ht)) _ h

@[simp] theorem wf_ioDieError {s : State} (h : s.mem.wf = true) : (ioDieError s).mem.wf = true := WfMem.ite (wf_holdDies _ _ (by simp [h])) h

/-! ### Registers -/

@[simp] theorem wf_haspWrite (d o m v : Nat) {s : State} (h : s.mem.wf = true) : (haspWrite d o m v s).mem.wf = true := by simp [haspWrite, h]

@[simp] theorem wf_controlWrite (i3c : Bool) (o m v : Nat) {s : State} (h : s.mem.wf = true) :
    (controlWrite i3c o m v s).mem.wf = true := by simp [controlWrite, h]

@[simp] theorem wf_partWrite (p o m v : Nat) {s : State} (h : s.mem.wf = true) : (partWrite p o m v s).mem.wf = true := by
  have maps : ∀ l : List (Nat × BitVec 8), (l.foldl (fun s b => writeMap p (o - 0x40 + b.1) b.2 s) s).mem.wf = true :=
    fun l => wf_foldl (fun b t ht => wf_writeMap _ _ _ ht) l h
  simp [partWrite, h, maps]

@[simp] theorem wf_ctxWrite (c o m v : Nat) {s : State} (h : s.mem.wf = true) : (ctxWrite c o m v s).mem.wf = true := by simp [ctxWrite, h]

@[simp] theorem wf_coreWrite (c o m v : Nat) {s : State} (h : s.mem.wf = true) : (coreWrite c o m v s).mem.wf = true := by simp [coreWrite, h]

@[simp] theorem wf_blockWrite (g m v : Nat) {s : State} (h : s.mem.wf = true) : (blockWrite g m v s).mem.wf = true := by simp [blockWrite, h]

@[simp] theorem wf_regWrite (i3c : Bool) (g m v : Nat) {s : State} (h : s.mem.wf = true) :
    (regWrite i3c g m v s).mem.wf = true := by simp [regWrite, h]

@[simp] theorem wf_writeWord (i3c : Bool) (off : Nat) (w : Nat × Nat × Nat) {s : State} (h : s.mem.wf = true) :
    (writeWord i3c off s w).mem.wf = true :=
  WfMem.ite h (WfMem.ite (by simp [h]) (wf_regWrite _ _ _ _ h))

@[simp] theorem wf_writeBar0 (off n : Nat) (v : Word) {s : State} (h : s.mem.wf = true) : (writeBar0 off n v s).mem.wf = true :=
  WfMem.ite (by simp [h]) (wf_foldl (fun _ _ ht => wf_writeWord _ _ _ ht) _ h)

@[simp] theorem wf_registerWrite (via : Via) (off n : Nat) (v : Word) {s : State} (h : s.mem.wf = true) :
    (registerWrite via off n v s).mem.wf = true := by
  cases via with
  | bar0 => exact wf_writeBar0 _ _ _ h
  | i3c => exact wf_foldl (fun _ _ ht => wf_writeWord _ _ _ ht) _ h
  | page p =>
    refine WfMem.ite (by simp [h]) (wf_foldl (fun w t ht => ?_) _ h)
    dsimp only
    split
    · exact WfMem.ite (wf_regWrite _ _ _ _ ht) ht
    · exact ht

@[simp] theorem wf_performAccess (acc : HostAccess) {s : State} (h : s.mem.wf = true) : (performAccess s acc).mem.wf = true := by
  unfold performAccess
  split
  · simp [h]
  · exact wf_writeBar0 _ _ _ h
  · simp [h]
  · exact wf_apWrite _ _ _ h
  · exact wf_registerWrite _ _ _ _ h
  · simp [h]
  · exact h

@[simp] theorem wf_exitM2 {s : State} (h : s.mem.wf = true) : (exitM2 s).mem.wf = true := by
  unfold exitM2
  exact WfMem.ite h (wf_foldl (fun _ _ ht => wf_hdRun _ ht) _ (wf_foldl (fun _ _ ht => wf_performAccess _ ht) _ (by simp [h])))

/-! ### The world outside -/

@[simp] theorem wf_happen (w : World) {s : State} (h : s.mem.wf = true) : (happen w s).mem.wf = true := by
  cases w with
  | ioDieError => exact wf_ioDieError h
  | rebuiltPage t i b => exact WfMem.ite (wf_rebuildSlot _ _ _ h) h
  | rebuildEnd => exact WfMem.ite (wf_endMrebuild h) h
  | _ => simp [happen, h]

/-! ### Turns -/

theorem wf_subEnds (c h : Nat) {s : State} (hs : s.mem.wf = true) : OptWf (subEnds c h s) := by
  unfold subEnds
  split
  · simp [hs]
  · exact .ite (by simp [hs]) (.ite (by simp [hs]) trivial)

@[simp] theorem wf_dropHolds (keep : Nat → Bool) (c : Nat) {s : State} (h : s.mem.wf = true) : (dropHolds keep c s).mem.wf = true :=
  WfMem.ite h (wf_foldl (fun _ _ ht => wf_unpin _ ht) _ h)

@[simp] theorem wf_onFetched (c : Nat) (f : Fetched) {s : State} (h : s.mem.wf = true) : (onFetched c s f).1.mem.wf = true := by
  cases f with
  | instr i => exact WfMem.ite h (wf_dropHolds _ _ h)
  | fault code info len => simp [onFetched, h]
  | wait t => exact wf_askWait _ _ (by simp [h])

@[simp] theorem wf_ctxTurn (c : Nat) {s : State} (h : s.mem.wf = true) : (ctxTurn c s).1.mem.wf = true := by
  unfold ctxTurn
  dsimp only
  split
  · exact h
  split
  · exact h
  split
  · exact h
  split
  · exact wf_onFetched _ _ h
  · split
    next e => exact (wf_subEnds _ _ h).of_eq e
    · exact wf_onFetched _ _ h

@[simp] theorem wf_actorTurn (a : Actor) {s : State} (h : s.mem.wf = true) : (actorTurn a s).1.mem.wf = true := by
  cases a with
  | event i => exact h
  | read via off n => simp [actorTurn, h]
  | world w => exact wf_happen w h
  | core c =>
    simp only [actorTurn]
    split
    · simp [h]
    · exact h
  | ctx c =>
    simp only [actorTurn]
    split
    · exact wf_ctxTurn c h
    · exact h
  | micro c =>
    simp only [actorTurn]
    split
    · exact h
    · exact h

@[simp] theorem wf_observeHost {s : State} (h : s.mem.wf = true) : (observeHost s).mem.wf = true :=
  wf_foldl (fun _ _ ht => WfMem.ite (wf_hdRun _ ht) ht) _ h

@[simp] theorem wf_observe {s : State} (h : s.mem.wf = true) : (observe s).mem.wf = true := by
  have dropped : ∀ l : List Nat, (l.foldl (fun s c => if (ctx s c).holds = [] then s else dropHolds (stillUses (ctx s c)) c s) (observeHost s)).mem.wf = true :=
    fun l => wf_foldl (fun _ _ ht => WfMem.ite ht (wf_dropHolds _ _ ht)) l (wf_observeHost h)
  simpa [observe] using dropped _

end Sys2Proof.Machine
end

section
/-! The canonical form of memory through every instruction and step. -/

namespace Sys2Proof.Machine
open Sys2Proof.Safety

/-- An instruction's next state has its memory in canonical form. -/
def NextWf (o : Host.Outcome State Fault Refusal) : Prop := ∀ t, o = .next t → t.mem.wf = true

theorem NextWf.of {s : State} (h : s.mem.wf = true) : NextWf (.next s) := fun _ e => by
  cases e
  exact h

theorem nextWf_exec_slot {i : Instr} {p : Nat} {s : State} (e : exec i s = runSlot p (slotEff i) s) (h : s.mem.wf = true) : NextWf (exec i s) := by
  rw [e]
  exact .of (wf_issueSlots _ (by simpa using wf_slotEff i) _ h)

theorem nextWf_streamDo {words : Nat} {w : Where} {f : Nat → State → SRes} {s : State} (h : s.mem.wf = true) (hf : (f s.curCtx s).Wf) :
    NextWf (streamDo words w f s) := .of (wf_runStream _ _ _ h hf)

section

variable {α : Type}

/-- The result that ends a stream instruction early has its memory in canonical form. -/
def StopWf : Except SRes α → Prop
  | .ok _ => True
  | .error r => r.Wf

theorem StopWf.ite {c : Prop} [Decidable c] {x y : Except SRes α} (hx : StopWf x) (hy : StopWf y) : StopWf (if c then x else y) := by
  split
  · exact hx
  · exact hy

theorem StopWf.of_eq {x : Except SRes α} {r : SRes} (h : StopWf x) (e : x = .error r) : r.Wf := by
  rw [e] at h
  exact h

theorem ReadsWf.of_ok {x : Except SRes (State × α)} {r : State × α} (h : ReadsWf x) (e : x = .ok r) : r.1.mem.wf = true := by
  rw [e] at h
  exact h

theorem ReadsWf.of_error {x : Except SRes (State × α)} {r : SRes} (h : ReadsWf x) (e : x = .error r) : r.Wf := by
  rw [e] at h
  exact h

end

theorem stopWf_recordRead (c : Nat) (p : Word) (n align : Nat) (info : Nat → Word) {s : State} (h : s.mem.wf = true) :
    StopWf (recordRead s c p n align info) :=
  .ite h (.ite h (.ite h (.ite h (.ite h (.ite h (.ite h (.ite h trivial)))))))

theorem wf_issueLaunch (c : Nat) (p : Word) (ins : LaunchIns) (sig : Option Nat) {more : List Byte → Launch → State → Except (BitVec 8 × Nat) (Launch × State)}
    {s : State} (h : s.mem.wf = true) (hm : ∀ b l, Yields (fun r => r.2.mem.wf = true) (more b l s)) : (issueLaunch c p ins sig more s).Wf := by
  have read := fun p n align info => stopWf_recordRead c p n align info h
  unfold issueLaunch
  split
  next e => exact (read _ _ _ _).of_eq e
  split
  · exact h
  split
  next e => exact (read _ _ _ _).of_eq e
  split
  · exact h
  refine .ite h ?_
  split
  next e => exact (StopWf.ite (x := .ok []) trivial (read _ _ _ _)).of_eq e
  split
  · exact h
  next e => exact .ite (wf_enqueue _ _ ((hm _ _).of_eq e)) h

theorem wf_closeBracket (c : Nat) (b : Bracket) {s : State} (h : s.mem.wf = true) : (closeBracket c b s).Wf := by
  unfold closeBracket
  refine .ite h (.ite h (.ite h (.ite ?_ (.ite h ?_))))
  · simp [h]
  · split
    · exact h
    · exact h

theorem wf_streamEret (skip : Bool) (c : Nat) {s : State} (h : s.mem.wf = true) : (streamEret skip c s).Wf :=
  .ite h (.ite (by simp [h]) h)

theorem nextWf_ldq (d a : BitVec 5) (sz : BitVec 2) (sgn : BitVec 1) (imm : BitVec 32) {s : State} (h : s.mem.wf = true) :
    NextWf (execLdq d a sz sgn imm s) := by
  refine nextWf_streamDo h ?_
  have read := fun p n => readsWf_streamRead s.curCtx p n h
  split
  next e => exact (read _ _).of_error e
  next e =>
    have done := (read _ _).of_ok e
    simpa using done

theorem nextWf_stq (a b : BitVec 5) (sz : BitVec 2) (imm : BitVec 32) {s : State} (h : s.mem.wf = true) : NextWf (execStq a b sz imm s) := by
  refine nextWf_streamDo h ?_
  dsimp only
  split
  · exact h
  · exact h
  · simp [h]
  · simp [h]

theorem nextWf_waitmb (d a b : BitVec 5) {s : State} (h : s.mem.wf = true) : NextWf (execWaitmb d a b s) := by
  refine nextWf_streamDo h (.ite h ?_)
  have read := readsWf_streamRead s.curCtx (qReg s s.curCtx a.toNat) 8 h
  split
  next t _ _ e => exact (show t.mem.wf = true from read.of_error e)
  next e => exact read.of_error e
  next e =>
    have done := read.of_ok e
    exact .ite done (by simpa using done)

theorem nextWf_launchp (a b : BitVec 5) (ev : BitVec 6) (sig : BitVec 1) (ins : LaunchIns) (pred : PredFields) {s : State} (h : s.mem.wf = true) :
    NextWf (execLaunchp a b ev sig ins pred s) :=
  nextWf_streamDo h (.ite h (wf_issueLaunch _ _ _ _ h fun _ _ => wf_addPrediction _ _ _ _ h))

theorem nextWf_coll (a : BitVec 5) (ev : BitVec 6) (sig : BitVec 1) {s : State} (h : s.mem.wf = true) : NextWf (execColl a ev sig s) := by
  refine nextWf_streamDo h ?_
  split
  next e => exact (stopWf_recordRead _ _ _ _ _ h).of_eq e
  · split
    · exact h
    · exact .ite (wf_enqueue _ _ h) h

theorem nextWf_tdecl (d a : BitVec 5) {s : State} (h : s.mem.wf = true) : NextWf (execTdecl d a s) := by
  refine nextWf_streamDo h ?_
  split
  next e => exact (stopWf_recordRead _ _ _ _ _ h).of_eq e
  · split
    · exact h
    next e =>
      have declared := (congrArg Memory.wf ((mem_declareTensor ..).of_eq e)).trans h
      simpa using declared

theorem nextWf_tfree (a : BitVec 5) {s : State} (h : s.mem.wf = true) : NextWf (execTfree a s) := by
  refine nextWf_streamDo h ?_
  split
  · exact h
  · exact .ite h (wf_freeTensor _ h)

theorem nextWf_tpin (a b : BitVec 5) (llc : BitVec 1) {s : State} (h : s.mem.wf = true) : NextWf (execTpin a b llc s) := by
  refine nextWf_streamDo h ?_
  dsimp only
  split
  · exact h
  next t _ =>
    have left := wf_abandonMove t h
    exact .ite h (.ite h (.ite h (by simp [left])))

theorem nextWf_tunpin (a b : BitVec 5) {s : State} (h : s.mem.wf = true) : NextWf (execTunpin a b s) := by
  refine nextWf_streamDo h (.ite h ?_)
  split
  · exact h
  · simp [h]

theorem nextWf_tuse (a b : BitVec 5) {s : State} (h : s.mem.wf = true) : NextWf (execTuse a b s) := by
  refine nextWf_streamDo h ?_
  split
  · exact h
  · simp [h]

theorem nextWf_tprot (a : BitVec 5) (flags : BitVec 4) {s : State} (h : s.mem.wf = true) : NextWf (execTprot a flags s) := by
  refine nextWf_streamDo h ?_
  split
  · exact h
  · exact h

theorem nextWf_trecOpen (a : BitVec 5) (mask : BitVec 31) {s : State} (h : s.mem.wf = true) : NextWf (execTrecOpen a mask s) := by
  refine nextWf_streamDo h ?_
  dsimp only
  split
  · exact h
  · exact h

theorem nextWf_trecClose {s : State} (h : s.mem.wf = true) : NextWf (execTrecClose s) := by
  refine nextWf_streamDo h ?_
  split
  · exact h
  · exact wf_closeBracket _ _ h

theorem nextWf_mload (a : BitVec 5) {s : State} (h : s.mem.wf = true) : NextWf (execMload a s) := by
  refine nextWf_streamDo h ?_
  dsimp only
  split
  next e => exact (stopWf_recordRead _ _ _ _ _ h).of_eq e
  · refine .ite h (.ite h (.ite h (.ite h (.ite h (.ite h ?_)))))
    split
    next e => exact (stopWf_recordRead _ _ _ _ _ h).of_eq e
    · simp [h]

theorem nextWf_finish (sess : Nat) (mac : BitVec 384) {s : State} (h : s.mem.wf = true) : NextWf (execFinish sess mac s) := by
  refine .of (wf_spdm _ _ (fun t ht => ?_) h)
  split
  · exact WfMem.ite (by simp [ht]) (by simp [ht])
  · exact ht

theorem nextWf_keyExchange (sess : Nat) (pub : BitVec 768) (established : Bool) {s : State} (h : s.mem.wf = true) :
    NextWf (execKeyExchange sess pub established s) :=
  .of (wf_spdm _ _ (fun _ ht => WfMem.ite (by simp [ht]) (wf_signedReply _ (fun _ hu => by simp [hu]) ht)) h)

theorem nextWf_challenge (nonce : BitVec 256) (verified : Bool) {s : State} (h : s.mem.wf = true) : NextWf (execChallenge nonce verified s) :=
  .of (wf_spdm _ _ (fun _ ht => wf_signedReply _ (fun _ hu => WfMem.ite hu (by simp [hu])) ht) h)

theorem nextWf_getMeasurements (index : Nat) (sign : Bool) {s : State} (h : s.mem.wf = true) : NextWf (execGetMeasurements index sign s) :=
  .of (wf_spdm _ _ (fun _ ht => WfMem.ite (wf_signedReply _ (fun _ hu => hu) ht) (by simp [ht])) h)

theorem nextWf_thermalTrip (die : Nat) (v : BitVec 64) {s : State} (h : s.mem.wf = true) : NextWf (execThermalTrip die v s) :=
  .of (wf_onHeat _ _ (fun _ ht => WfMem.ite (wf_holdDies _ _ (by simp [ht])) ht) h)

theorem nextWf_peerReadTimeout (c tok : Nat) {s : State} (h : s.mem.wf = true) : NextWf (execPeerReadTimeout c tok s) := by
  refine .of ?_
  split
  · exact WfMem.ite (by simp [h]) h
  · exact h

theorem nextWf_remoteRequestTimeout (c tok : Nat) {s : State} (h : s.mem.wf = true) : NextWf (execRemoteRequestTimeout c tok s) := by
  refine .of ?_
  split
  · exact WfMem.ite (by simp [h]) h
  · exact h

theorem nextWf_functionLevelReset (fn : Nat) {s : State} (h : s.mem.wf = true) : NextWf (execFunctionLevelReset fn s) :=
  .of (WfMem.ite (wf_foldl (fun _ _ ht => wf_resetPart _ ht) _ h) (WfMem.ite (wf_resetPart _ h) h))

theorem nextWf_exec (i : Instr) {s : State} (h : s.mem.wf = true) : NextWf (exec i s) := by
  cases i with
  | br | brz | brnz | loop | loopReg | call | callr | ret | trap | waitt | waitg | drain | fenceT | segchk | sysr | sysw | shapepub | shapepubClr
    | ctlHint | add | sub | and_ | or_ | xor_ | shl | shr | sar | slt | sltu | seq | min | max | minu | maxu | mul | mulh | mulhu | clmul | clmulh | sel
    | movi | movhi | clz | ctz | popc | sptest | spcastSp | spcastCl | gptr | gptrH | padd | stg | shf | mpw | addi | andi | ori | xori | shli | shri
    | sari | slti | sltui | seqi | sHint | ld | st | vld | vst | vlds | vsts | vldx | vstx | ldl | amoAdd | amoAnd | amoOr | amoXor | amoMin | amoMax
    | amoMinu | amoMaxu | amoSwap | amoFadd | cas | redAdd | redAnd | redOr | redXor | redMin | redMax | redMinu | redMaxu | redFadd | ldAcq | stRel
    | hingeRel | hingeAcq | bgive | syncarm | spill | fill | pref | lsHint | vadd | vsub | vmul | vmulh | vmin | vmax | vabs | vand | vor | vxor | vandn
    | vshl | vshr | vsar | vadds | vsubs | vcmpeq | vcmpne | vcmplt | vcmple | vsel | vbcast | vextr | vinsr | vclmulLo | vclmulHi | vscanAdd | vscanMin
    | vscanMax | vscanXor | vscanAnd | vscanOr | vreduceAdd | vreduceMin | vreduceMax | vreduceXor | vreduceAnd | vreduceOr | vperm | vcompress
    | vexpand | vmergeLo | vmergeHi | vmergekv | vfadd | vfsub | vfmul | vfma | vfmin | vfmax | vcvt | vamax | vbqpack | vbqunpk | kand | kor | kxor
    | knot | kpop | kset | vmov | vmovFromMg | vmovToMg | vmovMaskLo | vmovMaskHi | vHint | fexp2 | flog2 | frcp | frsq | fsqrt | frsqe | ftanh | fsig
    | ferf | scalegen | scld | tbld | sfHint | mxcall | mxjoin | mxpart | mxnorm | mxzero | mxrda | mxwra | mxwb | mxucw | mxHint | xcopy | xstore
    | xweight | xtrans | xgather | xkv | xsend | xred | xdecomp | xfill | xcancel | xfHint | tend | eret | eretSkip | fenceSvDie | fenceSvModule
    | yieldp => exact nextWf_exec_slot rfl h
  | streamAdd | streamSub | streamMul | streamMulhu | streamAnd | streamOr | streamXor | streamShl | streamShr | streamSar | streamSlt | streamSltu
    | streamSeq | streamMin | streamMax | streamMinu | streamMaxu | streamAddi | streamSubi | streamMuli | streamMulhui | streamAndi | streamOri
    | streamXori | streamShli | streamShri | streamSari | streamSlti | streamSltui | streamSeqi | streamMini | streamMaxi | streamMinui | streamMaxui
    | streamBr | streamCall | seth | streamMovi | streamMovhi | streamHint | shpubClr | deadline | prio | streamEnd | sethRemove | nop | streamMacro
    | sigeRemote | streamRet | srd | fence | irq | waite | shpub | brc | sige => exact .of (wf_runStream _ _ _ h (by simp [h]))
  | launch => exact .of (wf_runStream _ _ _ h (wf_issueLaunch _ _ _ _ h fun _ _ => .ok h))
  | streamEret | streamEretSkip => exact .of (wf_runStream _ _ _ h (wf_streamEret _ _ h))
  | ldq => exact nextWf_ldq _ _ _ _ _ h
  | stq => exact nextWf_stq _ _ _ _ h
  | waitmb => exact nextWf_waitmb _ _ _ h
  | launchp => exact nextWf_launchp _ _ _ _ _ _ h
  | coll => exact nextWf_coll _ _ _ h
  | tdecl => exact nextWf_tdecl _ _ h
  | tfree => exact nextWf_tfree _ h
  | tpin => exact nextWf_tpin _ _ _ h
  | tunpin => exact nextWf_tunpin _ _ h
  | tuse => exact nextWf_tuse _ _ h
  | tprot => exact nextWf_tprot _ _ h
  | trecOpen => exact nextWf_trecOpen _ _ h
  | trecClose => exact nextWf_trecClose h
  | mload => exact nextWf_mload _ h
  | finish => exact nextWf_finish _ _ h
  | challenge => exact nextWf_challenge _ _ h
  | getMeasurements => exact nextWf_getMeasurements _ _ h
  | thermalTrip => exact nextWf_thermalTrip _ _ h
  | peerReadTimeout => exact nextWf_peerReadTimeout _ _ h
  | remoteRequestTimeout => exact nextWf_remoteRequestTimeout _ _ h
  | functionLevelReset => exact nextWf_functionLevelReset _ h
  | keyExchange sess pub established => exact nextWf_keyExchange sess pub established h
  | negotiateAlgorithms | getCertificate | endSession | heartbeat | getVersion | getCapabilities | getDigests | m2ExitStart | spgateWrite
    | llcWayDrained | apertureHeldWritePerform | contextStopComplete | contextKillComplete | contextEndComplete | hostDeclare | hostFree | msixUnmask
    | dispatchRound | partschedRelease | holdQueuePauseTimeout | substreamPreemptTimeout | evict | substreamStart | pageWalk | rangeTableFill
    | bounceApply | hforceSpill | hforceCompress | hforceDrop | hrqselWrite | hingeReleasePerform | deltaApply | powerLoss | m1Entry | m1Exit | mloada
    | mloadb | mscale | mskip | mnext | mloop | mnorm | flashImageUpdate | pcieConfigRequest | powerCapStepDown | powerCapStepUp | thermalStepDown
    | thermalAlarm | modpwrReqAuto | modpwrReqM2 | modpwrReqM3 | registerWrite | bankWakeComplete | llcwayWrite | fabricPacketDelivery | flitSend
    | flitReceive | portRetrain | ngportWrite | portTrainingComplete | routeSwitchRelease | hbmChannelRetrain | patrolScrub | lpddrChannelRetrain
    | peerReadCompletion | apertureRead | apertureWrite | clusterMapWrite | partctlWrite | ctxctlRun | ctxctlStop | ctxctlKill | macstatClear
    | measExtend | debugUnlock | snapshotTriggerArrival | waitmbWake | remoteSignalArrival | streamWaitWake | streamWaitLimit | launchFailureDelivery
    | launchQueueWaitEnd | launchThresholdsMet | launchResident | restoreWaitTimeout | shareArrival | taskImageLoad | taskSaveComplete | launchComplete
    | preemptSoft | preemptHard | deadlineOverrun | shapeSlotWrite | trim | optimisticCopyPass | swapPairExchange | restoreComplete | substreamComplete
    | dependentMaterialisation | bundleIssue | checkpoint | pauseEnd | landingArrival | rollback | clusterRetirement | scratchpadScrub
    | storeFaultUnresolved | engineCommandStart | engineLinePerform | weightBlockExpand | dieFence | dieRebuild | dbctlMrebuild | matrixCommandEnd
    | decodeTableComplete | powerOn | moduleReset | hostPerst | storagePerst | m2ExitComplete | tamperAlarm | snapshotFire | snapshotRearm | mmac
    | mmact | mbcast | mend | msync => exact .of (by simp [h])

/-- Settles O11: every part of a step that can change memory writes it through the byte operations that keep the canonical form. -/
theorem memoryStaysCanonical : Obligations.MemoryStaysCanonical := by
  unfold Obligations.MemoryStaysCanonical
  intro s t h e
  unfold step at e
  split at e
  · cases e
    exact wf_observe h
  next a rest _ =>
    have turned := wf_actorTurn a.actor (s := passTime a.us a.clks (observe { s with agenda := rest })) (wf_observe h)
    split at e
    next e' =>
      rw [e'] at turned
      exact nextWf_exec _ turned _ e
    next e' =>
      rw [e'] at turned
      cases e
      exact turned

end Sys2Proof.Machine
end

section
/-!
PROOFS. The stores that wait: a store to global space or the host window is queued, one to the cluster window is posted, and one to the
core's own storages follows its earlier accesses there.
-/

namespace Sys2Proof.Machine

open Sys2Proof.Safety

/-! ### Bundles of one slot whose operation depends on its own core -/

/-- No core issues twice in one bundle. -/
theorem issuers_nodup (s : State) : (issuers s).Nodup := by
  unfold issuers groupOf
  split
  · exact List.Nodup.map (fun i j e => by simpa [clusterCore] using e) List.nodup_range
  · exact List.nodup_singleton _

/-- What the issuers answer, where the operation needs a property of its own core that the operations of the other cores keep. -/
theorem evalSlots_own (P : Nat → State → Prop) {pos : Nat} (hp : pos ≠ 0) {f : Eff} {k : Nat → State → State → State} {g : List Nat} {o : State}
    (hg : g.Nodup) (h0 : ∀ q ∈ g, P q o) (hf : ∀ q ∈ g, ∀ t, P q t → f q o t = .ok (k q o t))
    (hkeep : ∀ q c t, c ≠ q → P c t → P c (k q o t)) :
    evalSlots g [(pos, f)] o = (g.foldl (fun t q => k q o t) o, []) := by
  have turns : ∀ (h : Option Nat) (l : List Nat) (u : State), l.Nodup → (∀ q ∈ l, P q u) → (∀ q ∈ l, ∀ t, P q t → f q o t = .ok (k q o t)) →
      l.foldl (fun acc q => [(pos, f)].foldl (fun acc x =>
        if x.1 = 0 ∧ h ≠ some q then acc
        else match x.2 q o acc.1 with
          | .ok s => (s, acc.2)
          | .error e => (acc.1, acc.2 ++ [(q, x.1, e)])) acc) (u, ([] : List (Nat × Nat × Stop))) = (l.foldl (fun t q => k q o t) u, []) := by
    intro h l
    induction l with
    | nil => exact fun _ _ _ _ => rfl
    | cons q l ih =>
      intro u hl hu hf
      obtain ⟨hq, hl⟩ := List.nodup_cons.1 hl
      have here := hf q List.mem_cons_self u (hu q List.mem_cons_self)
      have later := ih (k q o u) hl (fun c hc => hkeep q c u (fun e => hq (e ▸ hc)) (hu c (List.mem_cons_of_mem q hc)))
        (fun c hc => hf c (List.mem_cons_of_mem q hc))
      simpa [hp, here] using later
  exact turns g.head? g o hg h0 hf

/-- A bundle of one slot that no issuer stops and in which none meets an error ends as its bundle does. -/
theorem runSlot_of_evalSlots {s u : State} (h : Ready s) {pos : Nat} {f : Eff} (he : evalSlots (issuers s) [(pos, f)] (settled s) = (u, []))
    (hd : ∀ q ∈ issuers s, (coreAt u q).b.detected = none) : runSlot pos f s = .next (finishBundle (issuers s) (settled s) u) := by
  obtain ⟨can, clear, ckpt, -⟩ := h
  have noPoison : (issuers s).find? (fun q => repeatsPoison (coreAt u q).b) = none :=
    List.find?_eq_none.2 (fun q hq => by simp [repeatsPoison, hd q hq])
  have noCkpt : ((coreAt s (lead s)).b.hdrCkpt && !(coreAt s (lead s)).b.ckptDone) = false := by
    cases hc : (coreAt s (lead s)).b.hdrCkpt <;> simp_all
  simp only [issuers, lead, settled] at clear he noPoison noCkpt ⊢
  simp only [runSlot, issueSlots, can, clear, he, noCkpt, noPoison, Bool.not_true, Bool.false_eq_true, if_false, firstFault, firstPause]

/-- A slot instruction of any slot but CTL whose operation needs a property of its own core, and meets no error. -/
theorem issues_own {s : State} (h : Ready s) {i : Instr} {pos : Nat} {f : Eff} {k : Nat → State → State → State} (P : Nat → State → Prop)
    (hi : exec i s = runSlot pos f s) (hp : pos ≠ 0) (h0 : ∀ q ∈ issuers s, P q (settled s))
    (hf : ∀ q ∈ issuers s, ∀ t, P q t → f q (settled s) t = .ok (k q (settled s) t))
    (hkeep : ∀ q c t, c ≠ q → P c t → P c (k q (settled s) t))
    (hk : ∀ q t c, (coreAt (k q (settled s) t) c).b.detected = (coreAt t c).b.detected) : exec i s = .next (issued k s) := by
  have kept : ∀ (l : List Nat) (t : State) (c : Nat),
      (coreAt (l.foldl (fun t q => k q (settled s) t) t) c).b.detected = (coreAt t c).b.detected := by
    intro l
    induction l with
    | nil => exact fun _ _ => rfl
    | cons q l ih => exact fun t c => (ih _ c).trans (hk q t c)
  exact hi.trans (runSlot_of_evalSlots h (evalSlots_own P hp (issuers_nodup s) h0 hf hkeep) (fun q hq => (kept _ _ q).trans (h.2.2.2 q hq)))

/-! ### Entries of the commit queue and packets -/

theorem commit_of_room {c : Nat} {o s : State} {body : CBody} (h : (coreAt s c).b.commitQ.length < 256) :
    commit c o s body = .ok (queued c o body s) := if_neg (Nat.not_le.2 h)

/-- A change of one core leaves what it does not touch of any core. -/
theorem body_updBody {α : Type} (g : Body → α) {f : Body → Body} (hf : ∀ b, g (f b) = g b) (s : State) (c q : Nat) :
    g (coreAt (updBody s c f) q).b = g (coreAt s q).b := by
  rw [core_updBody]
  split
  next e => rw [e]; exact hf _
  next => rfl

theorem detected_updBody {f : Body → Body} (hf : ∀ b, (f b).detected = b.detected) (s : State) (c q : Nat) :
    (coreAt (updBody s c f) q).b.detected = (coreAt s q).b.detected := body_updBody Body.detected hf s c q

@[simp] theorem detected_queued (c : Nat) (o : State) (body : CBody) (s : State) (q : Nat) :
    (coreAt (queued c o body s) q).b.detected = (coreAt s q).b.detected := by
  rw [queued, detected_updBody]
  exact fun _ => rfl

theorem core_queued_of_ne {c q : Nat} (h : q ≠ c) (o : State) (body : CBody) (s : State) : coreAt (queued c o body s) q = coreAt s q := by
  rw [queued, core_updBody, if_neg h]

@[simp] theorem detected_post (c : Nat) (s : State) (p : Word) (l : Loc) (op : AccessOp) (own : Option Nat) (e : CEntry) (after : List Nat) (q : Nat) :
    (coreAt (post c s p l op own e after) q).b.detected = (coreAt s q).b.detected := by
  rw [post, core_updCore]
  split
  next e => rw [e]; rfl
  next => rfl

/-- An operation that enters the commit queue of each issuer, where each has a place (R223). -/
theorem issues_queued {s : State} (h : Ready s) {i : Instr} {pos : Nat} {f : Eff} {body : Nat → State → CBody} (hi : exec i s = runSlot pos f s)
    (hp : pos ≠ 0) (room : ∀ q ∈ issuers s, (coreAt (settled s) q).b.commitQ.length < 256)
    (hf : ∀ q ∈ issuers s, ∀ t, f q (settled s) t = commit q (settled s) t (body q (settled s))) :
    exec i s = .next (issued (fun q o t => queued q o (body q o) t) s) :=
  issues_own h (fun q t => (coreAt t q).b.commitQ.length < 256) hi hp room (fun q hq t ht => (hf q hq t).trans (commit_of_room ht))
    (fun q c t hc ht => by rwa [core_queued_of_ne hc]) (fun _ _ _ => detected_queued _ _ _ _ _)

/-! ### Where a store goes -/

theorem not_isHeldWin_of_window {p : Word} {n : Nat} (hw : winOf p = n) (hn : n < 3) : isHeldWin p = false := by
  rw [isHeldWin, hw]
  interval_cases n <;> rfl

theorem storeTo_held {c : Nat} {o s : State} {p : Word} {l : Loc} {bytes : List Byte} {mask : List Bool} (hw : isHeldWin p = true)
    (hr : (isProv o c && !locRetr o c l bytes.length) = false) :
    storeTo c o s p l bytes mask = commit c o s (.access p l (.store bytes mask)) := by
  rw [storeTo, if_pos hw, hr]
  rfl

theorem storeTo_cluster {c : Nat} {o s : State} {p : Word} {l : Loc} {bytes : List Byte} {mask : List Bool} (hw : winOf p = 2) :
    storeTo c o s p l bytes mask = .ok (post c s p l (.store bytes mask) none (entryNow o c (.access p l (.store bytes mask))) []) := by
  simp [storeTo, not_isHeldWin_of_window hw, hw]

theorem storeTo_own {c : Nat} {o s : State} {p : Word} {l : Loc} {bytes : List Byte} {mask : List Bool} (hw : winOf p < 2)
    (hb : bankReady o l bytes.length = true) : storeTo c o s p l bytes mask = .ok (ownAccess c o s p l (.store bytes mask)) := by
  simp [storeTo, not_isHeldWin_of_window rfl (Nat.lt_succ_of_lt hw), hb, Nat.ne_of_lt hw]

theorem ownAccess_behind {c : Nat} {o s : State} {p : Word} {l : Loc} {op : AccessOp} (hp : ownPend o c ≠ []) :
    ownAccess c o s p l op = post c s p l op none (entryNow o c (.access p l op)) (behindOwn o c) := by
  simp [ownAccess, hp]

/-! ### A store of one run of bytes -/

section
variable {s : State} (h : Ready s) {i : Instr} {f : Eff} {n align : Nat} {p : Nat → State → Word} {l : Nat → Loc}
  {bytes : Nat → State → List Byte} {mask : Nat → State → List Bool}
  (hi : exec i s = runSlot 3 f s) (hlen : ∀ q o, (bytes q o).length = n)
  (hf : ∀ q o t, f q o t = (do let l ← access o q (p q o) n align winAll true; storeTo q o t (p q o) l (bytes q o) (mask q o)))
  (hr : ∀ q ∈ issuers s, Reaches (settled s) q (p q (settled s)) n align winAll true (l q))
include h hi hf hr

/-- A store to the cluster window is posted (R376). -/
theorem store_posts (hw : ∀ q ∈ issuers s, winOf (p q (settled s)) = 2) :
    exec i s = .next (issued (fun q o t => post q t (p q o) (l q) (.store (bytes q o) (mask q o)) none
      (entryNow o q (.access (p q o) (l q) (.store (bytes q o) (mask q o)))) []) s) := by
  refine issues_ok h hi (by decide) (fun q hq t => ?_) (fun _ _ _ => detected_post ..)
  rw [hf, hr q hq]
  exact storeTo_cluster (hw q hq)

include hlen

/-- A store that each issuer may hold enters its commit queue (R223). -/
theorem store_queues
    (hheld : ∀ q ∈ issuers s, isHeldWin (p q (settled s)) = true ∧ (isProv (settled s) q && !locRetr (settled s) q (l q) n) = false ∧
      (coreAt (settled s) q).b.commitQ.length < 256) :
    exec i s = .next (issued (fun q o t => queued q o (.access (p q o) (l q) (.store (bytes q o) (mask q o))) t) s) := by
  refine issues_queued h hi (by decide) (fun q hq => (hheld q hq).2.2) (fun q hq t => ?_)
  obtain ⟨window, retractable, -⟩ := hheld q hq
  rw [hf, hr q hq]
  exact storeTo_held window ((hlen q _).symm ▸ retractable)

/-- A store to the core's own storages follows its accesses there that are under way (R230). -/
theorem store_follows
    (hown : ∀ q ∈ issuers s, winOf (p q (settled s)) < 2 ∧ bankReady (settled s) (l q) n = true ∧ ownPend (settled s) q ≠ []) :
    exec i s = .next (issued (fun q o t => post q t (p q o) (l q) (.store (bytes q o) (mask q o)) none
      (entryNow o q (.access (p q o) (l q) (.store (bytes q o) (mask q o)))) (behindOwn o q)) s) := by
  refine issues_ok h hi (by decide) (fun q hq t => ?_) (fun _ _ _ => detected_post ..)
  obtain ⟨window, ready, pending⟩ := hown q hq
  rw [hf, hr q hq]
  exact (storeTo_own window ((hlen q _).symm ▸ ready)).trans (congrArg _ (ownAccess_behind pending))

end

theorem leBytes_eq_div (v n : Nat) : leBytes v n = (List.range n).map (fun j => BitVec.ofNat 8 (v / 2 ^ (8 * j))) := by
  simp only [leBytes_eq_map, Nat.shiftRight_eq_div_pow]

theorem length_leBytes (v n : Nat) : (leBytes v n).length = n := by
  rw [leBytes_eq_div, List.length_map, List.length_range]

/-- Settles O26: where a store goes is the window of its pointer, for a scalar and for a vector alike. -/
theorem heldAndPostedStores : Obligations.HeldAndPostedStores := by
  unfold Obligations.HeldAndPostedStores
  intro s b a k l h
  simp only [← leBytes_eq_div]
  refine ⟨fun z i hr => ?_, fun i hr => ?_⟩
  · have hi : exec (.st b a z i) s = runSlot 3 (effSt b a z i) s := rfl
    have hlen (q : Nat) (o : State) := length_leBytes (sReg o q b.toNat).toNat (2 ^ z.toNat)
    exact ⟨fun held => store_queues h hi hlen (fun _ _ _ => rfl) hr held, fun w => store_posts h hi (fun _ _ _ => rfl) hr w,
      fun own => store_follows h hi hlen (fun _ _ _ => rfl) hr own⟩
  · have hi : exec (.vst b a k i) s = runSlot 3 (effVst b a k i) s := rfl
    have hlen (q : Nat) (o : State) := length_leBytes (vReg o q b.toNat).toNat 128
    exact ⟨fun held => store_queues h hi hlen (fun _ _ _ => rfl) hr held, fun w => store_posts h hi (fun _ _ _ => rfl) hr w,
      fun own => store_follows h hi hlen (fun _ _ _ => rfl) hr own⟩

end Sys2Proof.Machine
end

section
/-!
PROOFS. The entries of the buffer table, sync words, prefetches, and the spill slots of the accumulator.
-/

namespace Sys2Proof.Machine

open Sys2Proof.Safety

/-! ### Buffers (R211) -/

/-- Giving an entry outside a lockstep group is held in the owner's commit queue. -/
theorem effBgive_alone {h : BitVec 2} {x : BitVec 4} {n : BitVec 2} {c : Nat} {o s : State} (hg : isGroup o c = false)
    (hv : ((coreAt o (clusterCore (coreCluster c) h.toNat)).b.r.bufs.get 0 x.toNat).getLsbD 0 = true)
    (ho : fieldW ((coreAt o (clusterCore (coreCluster c) h.toNat)).b.r.bufs.get 0 x.toNat) 1 2 = coreCic c) :
    effBgive h x n c o s = commit c o s (.bgive (clusterCore (coreCluster c) h.toNat) x.toNat n.toNat) := by
  simp only [effBgive, bitAt_toNat, hg, hv, ho, Bool.true_eq_false, Bool.false_eq_true, if_false, ne_eq, not_true_eq_false]

/-- Giving an entry in a lockstep group is a write of the entry two cycles later, by its owner alone. -/
theorem effBgive_group {h : BitVec 2} {x : BitVec 4} {n : BitVec 2} {c : Nat} {o s : State} (hg : isGroup o c = true)
    (hv : ((coreAt o (clusterCore (coreCluster c) h.toNat)).b.r.bufs.get 0 x.toNat).getLsbD 0 = true) :
    effBgive h x n c o s = .ok (if fieldW ((coreAt o (clusterCore (coreCluster c) h.toNat)).b.r.bufs.get 0 x.toNat) 1 2 = coreCic c then
      updRegs s (clusterCore (coreCluster c) h.toNat) (fun r =>
        { r with res := r.res ++ [{ dst := .buf x.toNat, val := BitVec.ofNat 1024 n.toNat, due := (coreAt o c).b.r.vcc + 2 }] })
      else s) := by
  simp only [effBgive, bitAt_toNat, hg, hv, Bool.true_eq_false, if_false, if_true]
  split <;> rfl

@[simp] theorem detected_updRegs (s : State) (c : Nat) (f : Regs → Regs) (q : Nat) :
    (coreAt (updRegs s c f) q).b.detected = (coreAt s q).b.detected := by
  rw [updRegs, detected_updBody]
  exact fun _ => rfl

/-! ### Sync words (R214) -/

/-- The bytes SYNCARM writes: TARGET, and a COUNT of zero. -/
theorem leBytes_target (v : Word) : leBytes (v.toNat % 2 ^ 32) 8 = (List.range 4).map (fun j => v.extractLsb' (8 * j) 8) ++ [0, 0, 0, 0] := by
  rw [leBytes_eq_div, show List.range 8 = List.range 4 ++ [4, 5, 6, 7] from rfl, List.map_append]
  congr 1
  · refine List.map_congr_left (fun j hj => BitVec.eq_of_toNat_eq ?_)
    have hj := List.mem_range.1 hj
    simp only [BitVec.toNat_ofNat, BitVec.extractLsb'_toNat, Nat.shiftRight_eq_div_pow]
    interval_cases j <;> omega
  · have high (j : Nat) (hj : 4 ≤ j) : v.toNat % 2 ^ 32 / 2 ^ (8 * j) = 0 :=
      Nat.div_eq_of_lt ((Nat.mod_lt _ (Nat.two_pow_pos 32)).trans_le (Nat.pow_le_pow_right Nat.two_pos (by omega)))
    simp only [List.map_cons, List.map_nil, high _ (Nat.le_refl 4), high 5 (by decide), high 6 (by decide), high 7 (by decide)]
    rfl

theorem putFlat_eq_writeLoc (l : Loc) (s : State) (bytes : List Byte) {n : Nat} (hn : bytes.length = n) :
    putFlat l s bytes (List.replicate n true) = writeLoc s l bytes := by
  subst hn
  simp [putFlat, writeLoc, List.map_const']

theorem ownAccess_store_alone {c : Nat} {o s : State} {p : Word} {l : Loc} {bytes : List Byte} {mask : List Bool} (hp : ownPend o c = []) :
    ownAccess c o s p l (.store bytes mask) = putFlat l s bytes mask := by
  simp [ownAccess, hp, applyOp]

theorem effSyncarm_eq {a b : BitVec 6} {c : Nat} {o s : State} {l : Loc} (hp : isProv o c = false) (hr : Reaches o c (sReg o c a.toNat) 16 16 winSync true l)
    (hb : winOf (sReg o c a.toNat) = 2 ∨ bankReady o l 8 = true) :
    effSyncarm a b c o s = .ok (
      let op : AccessOp := .store (leBytes ((sReg o c b.toNat).toNat % 2 ^ 32) 8) (List.replicate 8 true)
      if winOf (sReg o c a.toNat) = 2 ∨ ownPend o c ≠ [] then
        post c s (sReg o c a.toNat) l op none (entryNow o c (.access (sReg o c a.toNat) l op)) (if winOf (sReg o c a.toNat) = 2 then [] else behindOwn o c)
      else putFlat l s (leBytes ((sReg o c b.toNat).toNat % 2 ^ 32) 8) (List.replicate 8 true)) := by
  have reached : access o c (sReg o c a.toNat) 16 16 winSync true = .ok l := hr
  have unfolded : effSyncarm a b c o s = (
      let op : AccessOp := .store (leBytes ((sReg o c b.toNat).toNat % 2 ^ 32) 8) (allMask 8)
      if winOf (sReg o c a.toNat) = 2 then .ok (post c s (sReg o c a.toNat) l op none (entryNow o c (.access (sReg o c a.toNat) l op)) [])
      else if !bankReady o l 8 then pauseWake o l 8
      else .ok (ownAccess c o s (sReg o c a.toNat) l op)) := by
    simp only [effSyncarm, reached, notProv, need, hp]
    rfl
  rw [unfolded]
  by_cases hw : winOf (sReg o c a.toNat) = 2
  · simp [hw, allMask]
  · have ready := hb.resolve_left hw
    by_cases pending : ownPend o c = []
    · simp [hw, ready, pending, ownAccess_store_alone, allMask]
    · simp [hw, ready, pending, ownAccess_behind pending, allMask]

/-! ### Prefetch (R218) -/

theorem prefLine_eq (s : State) (die h o : Nat) (x : BitVec 4) : prefLine s die h o x.toNat =
    if x ≠ 0 ∧ s.l2Dirty.get false (l2Key die h o) = false then { s with l2 := s.l2.set 0 (l2Key die h o) (x.toNat + 1) } else s := by
  have count : x.toNat = 0 ↔ x = 0 := ⟨fun e => BitVec.eq_of_toNat_eq e, fun e => e ▸ rfl⟩
  by_cases hx : x = 0 <;> cases hd : s.l2Dirty.get false (l2Key die h o) <;> simp [prefLine, count, hx, hd]

theorem effPref_eq (a : BitVec 6) (x : BitVec 4) (c : Nat) (o s : State) :
    let p := sReg o c a.toNat
    let line := l2Key (coreDie c) (fieldW p 40 23) (fieldW p 0 40)
    effPref a x c o s = .ok (if winOf p = 8 ∧ rangeMap o c (fieldW p 40 23) (fieldW p 0 40) 1 false = none ∧ x ≠ 0 ∧ s.l2Dirty.get false line = false then
      { s with l2 := s.l2.set 0 line (x.toNat + 1) } else s) := by
  simp only [effPref, prefLine_eq, Option.isNone_iff_eq_none]
  split
  next mapped => simp only [mapped, true_and]
  next unmapped => rw [if_neg (fun w => unmapped ⟨w.1, w.2.1⟩)]

/-! ### Changes of several entries -/

/-- One change of each of several entries of a table: another entry stands. -/
theorem Tab.get_foldl_upd_of_not_mem {α : Type} [DecidableEq α] {d : α} {key : Nat → Nat} {f : Nat → α → α} {l : List Nat} {t : Tab α} {k : Nat}
    (hk : ∀ i ∈ l, k ≠ key i) : (l.foldl (fun t i => t.upd d (key i) (f i)) t).get d k = t.get d k := by
  induction l generalizing t with
  | nil => rfl
  | cons a l ih =>
    rw [List.foldl_cons, ih (fun i hi => hk i (List.mem_cons_of_mem a hi)), Tab.get_upd, if_neg (hk a List.mem_cons_self)]

/-- One change of each of several entries of a table: each changes once. -/
theorem Tab.get_foldl_upd_of_mem {α : Type} [DecidableEq α] {d : α} {key : Nat → Nat} {f : Nat → α → α} {l : List Nat} {t : Tab α} {i : Nat}
    (hkey : ∀ {i j}, key i = key j → i = j) (hl : l.Nodup) (hi : i ∈ l) :
    (l.foldl (fun t i => t.upd d (key i) (f i)) t).get d (key i) = f i (t.get d (key i)) := by
  induction l generalizing t with
  | nil => cases hi
  | cons a l ih =>
    obtain ⟨ha, hl⟩ := List.nodup_cons.1 hl
    rw [List.foldl_cons]
    rcases List.mem_cons.1 hi with rfl | hi
    · have others (j : Nat) (hj : j ∈ l) (e : key i = key j) : False := ha (hkey e ▸ hj)
      rw [Tab.get_foldl_upd_of_not_mem others, Tab.get_upd, if_pos rfl]
    · have other (e : key i = key a) : False := ha (hkey e ▸ hi)
      rw [ih hl hi, Tab.get_upd, if_neg other]

/-- The listed cores each change once. -/
theorem body_onCores_of_mem {f : Nat → Body → Body} {l : List Nat} (hl : l.Nodup) {q : Nat} (hq : q ∈ l) (s : State) :
    (coreAt (onCores (fun q s => updBody s q (f q)) l s) q).b = f q (coreAt s q).b := by
  have cores : ∀ (l : List Nat) (s : State), (onCores (fun q s => updBody s q (f q)) l s).cores =
      l.foldl (fun t q => t.upd .zero q (fun k => { k with b := f q k.b })) s.cores := by
    intro l
    induction l with
    | nil => exact fun _ => rfl
    | cons a l ih => exact fun s => ih _
  have once := Tab.get_foldl_upd_of_mem (d := Core.zero) (key := fun q => q) (f := fun q k => { k with b := f q k.b }) (t := s.cores) id hl hq
  exact congrArg Core.b ((congrArg (Tab.get · .zero q) (cores l s)).trans once)

/-! ### Bundles that end -/

/-- Changes of several cores leave what none of them touches. -/
theorem body_onCores {α : Type} (g : Body → α) {f : Nat → Body → Body} (hf : ∀ q b, g (f q b) = g b) (l : List Nat) (s : State) (c : Nat) :
    g (coreAt (onCores (fun q s => updBody s q (f q)) l s) c).b = g (coreAt s c).b :=
  foldl_keeps (g := fun s => g (coreAt s c).b) (fun s q => body_updBody g (hf q) s q c) l s

theorem inTend_congr {s t : State} {c : Nat} (h : (coreAt t c).b.task = (coreAt s c).b.task) : inTend t c = inTend s c := by
  rw [inTend, inTend, taskOf, taskOf, h]

/-- No core that may issue stands in TEND. -/
theorem not_inTend_of_ready {s : State} (h : Ready s) {q : Nat} (hq : q ∈ issuers s) : inTend s q = false := by
  obtain ⟨can, -⟩ := h
  have here := List.all_eq_true.1 can q hq
  simp only [Bool.and_eq_true] at here
  obtain ⟨⟨⟨runs, -⟩, -⟩, -⟩ := here
  unfold inTend taskOf
  cases ht : (coreAt s q).b.task with
  | none => rfl
  | some t =>
    rw [ht] at runs
    dsimp only
    rw [eq_of_beq runs]

/-- The end of a bundle keeps what its step forward keeps, on a group that is not in TEND. -/
theorem body_finishBundle {α : Type} (g : Body → α) (hg : ∀ old taken b, g (advance old taken b) = g b) {l : List Nat} {o s : State}
    (ht : ∀ q ∈ l, inTend s q = false) (c : Nat) : g (coreAt (finishBundle l o s) c).b = g (coreAt s c).b := by
  cases l with
  | nil => rfl
  | cons a l =>
    have advanced {β : Type} (g : Body → β) (hg : ∀ old taken b, g (advance old taken b) = g b) (u : State) (q : Nat) :=
      body_onCores g (f := fun q => advance (coreAt o q).b (coreAt s a).b.taken) (fun q b => hg _ _ b) (a :: l) u q
    have snapped (u : State) (q : Nat) : coreAt (onCores (fun q s => snapVcc q (coreAt o q).b.r.vcc (coreAt s q).b.r.vcc s) (a :: l) u) q = coreAt u q := by
      refine coreAt_congr (foldl_keeps (g := State.cores) (fun s q => ?_) (a :: l) u) q
      unfold snapVcc fireTrig
      dsimp only
      split_ifs <;> rfl
    simp only [finishBundle, List.head?_cons]
    rw [if_neg, snapped]
    · exact advanced g hg s c
    · rw [inTend_congr (s := s), ht a List.mem_cons_self]
      · exact Bool.false_ne_true
      · rw [snapped]
        exact advanced Body.task (fun _ _ _ => rfl) s a

theorem spill_countLoops (old new : Regs) (back : Bool) : (countLoops old new back).spill = new.spill := by
  unfold countLoops
  dsimp only
  split_ifs <;> rfl

theorem spill_advance (old : Body) (taken : Option Word) (b : Body) : (advance old taken b).r.spill = b.r.spill := by
  unfold advance
  dsimp only
  split_ifs
  · exact spill_countLoops _ _ _
  · rfl

/-- What a bundle leaves on an issuer, where its operation changes each issuer's own state and the task goes on. -/
theorem body_issued {α : Type} (g : Body → α) (hg : ∀ old taken b, g (advance old taken b) = g b) {s : State} (h : Ready s) (f : Nat → State → Body → Body)
    (hf : ∀ q o b, (f q o b).task = b.task) {q : Nat} (hq : q ∈ issuers s) :
    g (coreAt (issued (fun q o t => updBody t q (f q o)) s) q).b = g (f q (settled s) (coreAt (settled s) q).b) := by
  refine (body_finishBundle g hg (fun c hc => ?_) q).trans (congrArg g (body_onCores_of_mem (issuers_nodup s) hq (settled s)))
  have stands : inTend (slotDone (fun q o t => updBody t q (f q o)) s) c = inTend s c :=
    inTend_congr ((body_onCores Body.task (fun q b => hf q (settled s) b) (issuers s) (settled s) c).trans
      (body_onCores Body.task (f := fun _ => settle) (fun _ _ => rfl) (issuers s) s c))
  rw [stands, not_inTend_of_ready h hc]

/-! ### Spill slots of the accumulator (R284, R387) -/

theorem spillElem_inj {slot i j : Nat} (h : spillElem slot i = spillElem slot j) : i = j := by
  simp only [spillElem] at h; omega

theorem elem_vec (x : Vec) (i : Nat) : elem x.toNat 32 i = (x.extractLsb' (32 * i) 32).toNat := by
  rw [elem, BitVec.extractLsb'_toNat, Nat.shiftRight_eq_div_pow]

/-- A mantissa word written under the guard bits of its cell. -/
theorem toNat_withMantissa (a : BitVec 40) (w : BitVec 32) : (BitVec.ofNat 40 (withBits a.toNat 0 32 w.toNat)).toNat = a.toNat / 2 ^ 32 * 2 ^ 32 + w.toNat := by
  simp only [withBits, bitsOf, BitVec.toNat_ofNat]
  omega

section
variable (b : Body) (slot : Nat) (x : Vec)

/-- The mantissa words of a spill slot are those written, and their guard words stand. -/
theorem acc_spillWrite_word {i : Nat} (hi : i < 32) :
    ((spillWrite b slot x).acc.get 0 (spillElem slot i)).toNat = (b.acc.get 0 (spillElem slot i)).toNat / 2 ^ 32 * 2 ^ 32 + (x.extractLsb' (32 * i) 32).toNat := by
  rw [spillWrite, Tab.get_foldl_upd_of_mem spillElem_inj List.nodup_range (List.mem_range.2 hi), elem_vec, toNat_withMantissa]

/-- Every other cell of the accumulator stands. -/
theorem acc_spillWrite_other {k : Nat} (hk : ∀ i < 32, k ≠ spillElem slot i) : (spillWrite b slot x).acc.get 0 k = b.acc.get 0 k :=
  Tab.get_foldl_upd_of_not_mem (fun i hi => hk i (List.mem_range.1 hi))

theorem spill_spillWrite {i : Nat} (hi : i < 1024) : (spillWrite b slot x).r.spill.getLsbD i = (b.r.spill.getLsbD i || decide (i = slot)) := by
  have bit : ((1#1024 <<< slot).getLsbD i) = decide (i = slot) := by
    simp only [BitVec.getLsbD_shiftLeft, BitVec.getLsbD_one, hi]
    grind
  rw [spillWrite, BitVec.getLsbD_or, bit]

end

/-- The core's state with the slot of a SPILL written from its operand. -/
def spilled (r : BitVec 6) (v : BitVec 1) (j : BitVec 10) (q : Nat) (o : State) (b : Body) : Body :=
  spillWrite b j.toNat (if v = 1 then vReg o q r.toNat else (sReg o q r.toNat).setWidth 1024)

theorem exec_spill {s : State} (h : Ready s) (r : BitVec 6) (v : BitVec 1) {j : BitVec 10} (free : ∀ q ∈ issuers s, slotBusy (settled s) q j.toNat = false) :
    exec (.spill r v j) s = .next (issued (fun q o t => updBody t q (spilled r v j q o)) s) := by
  refine issues_ok h (f := effSpill r v j) rfl (by decide) (fun q hq t => ?_) (fun q t c => detected_updBody (f := spilled r v j q _) (fun _ => rfl) t q c)
  rw [effSpill, free q hq]
  rfl

theorem effFill_eq (d : BitVec 6) (v : BitVec 1) {j : BitVec 10} {c : Nat} {o : State} (s : State) (free : slotBusy o c j.toNat = false) :
    effFill d v j c o s = .ok (if v = 1 then resultV c d.toNat (spillRead o c j.toNat) 3 s else resultS c d.toNat ((spillRead o c j.toNat).setWidth 64) 3 s) := by
  rw [effFill, free]
  rfl

/-- The accumulator is no register, so that the end of an earlier bundle leaves it. -/
theorem acc_settled (s : State) (q : Nat) : (coreAt (settled s) q).b.acc = (coreAt s q).b.acc :=
  body_onCores Body.acc (f := fun _ => settle) (fun _ _ => rfl) (issuers s) s q

/-! ### The obligation -/

/-- Settles O31: each clause is the rule of its operation, on the issuers of the bundle. -/
theorem buffersSpillsAndPrefetch : Obligations.BuffersSpillsAndPrefetch := by
  unfold Obligations.BuffersSpillsAndPrefetch
  refine ⟨fun s a b h x o2 z l ready _ => ⟨fun alone => ?_, fun group => ?_, fun sync => ?_, ?_, ?_⟩, fun s r j ready free => ⟨fun v => ?_, ?_, ?_⟩⟩
  · refine issues_queued ready (f := effBgive h x o2) rfl (by decide) (fun q hq => (alone q hq).2.2.2) (fun q hq t => ?_)
    obtain ⟨single, valid, own, -⟩ := alone q hq
    exact effBgive_alone single valid own
  · refine issues_ok ready (f := effBgive h x o2) rfl (by decide) (fun q hq t => effBgive_group (group q hq).1 (group q hq).2) (fun q t c => ?_)
    dsimp only
    split
    · exact detected_updRegs _ _ _ _
    · rfl
  · simp only [← leBytes_target]
    refine issues_ok ready (f := effSyncarm a b) rfl (by decide) (fun q hq t => ?_) (fun q t c => ?_)
    · obtain ⟨sure, reached, bank⟩ := sync q hq
      exact effSyncarm_eq sure reached bank
    · split
      · exact detected_post ..
      · rw [putFlat_eq_writeLoc _ _ _ (length_leBytes _ 8), coreAt_congr (cores_clk_writeLoc _ _ _).1]
  · refine issues_ok ready (f := effPref a x) rfl (by decide) (fun q _ t => effPref_eq a x q (settled s) t) (fun q t c => ?_)
    dsimp only
    split <;> rfl
  · exact issues_ok ready (f := effHint) rfl (by decide) (fun _ _ _ => rfl) (fun _ _ _ => rfl)
  · refine ⟨_, exec_spill ready r v free, fun q hq => ?_⟩
    have acc := body_issued Body.acc (fun _ _ _ => rfl) ready (spilled r v j) (fun _ _ _ => rfl) hq
    have spill := body_issued (fun b => b.r.spill) spill_advance ready (spilled r v j) (fun _ _ _ => rfl) hq
    dsimp only at spill ⊢
    rw [acc, spill, ← acc_settled s q]
    exact ⟨fun i hi => acc_spillWrite_word _ _ _ hi, fun k hk => acc_spillWrite_other _ _ _ hk, fun i hi => spill_spillWrite _ _ _ hi⟩
  · exact givesV_of ready (f := effFill r 1 j) rfl (by decide) (fun q hq t => effFill_eq r 1 t (free q hq))
  · exact givesS_of ready (f := effFill r 0 j) rfl (by decide) (fun q hq t => effFill_eq r 0 t (free q hq))

end Sys2Proof.Machine
end

section
/-!
PROOFS. TRAP: the precise fault it raises at its bundle, taken by a handler or ending the task (R245, R246).
-/

namespace Sys2Proof.Machine

open Sys2Proof.Safety

/-! ### The group that takes a fault -/

theorem head?_issuers (s : State) : (issuers s).head? = some (lead s) := by
  obtain ⟨l, hl, -⟩ := issuers_eq s
  rw [hl]
  rfl

/-- A task runs on every core that may issue. -/
theorem taskOf_ne_none_of_ready {s : State} (h : Ready s) {q : Nat} (hq : q ∈ issuers s) : taskOf s q ≠ none := by
  obtain ⟨can, -⟩ := h
  have here := List.all_eq_true.1 can q hq
  simp only [Bool.and_eq_true] at here
  obtain ⟨⟨⟨runs, -⟩, -⟩, -⟩ := here
  intro idle
  rw [show (coreAt s q).b.task = none from idle] at runs
  cases runs

/-- A snapshot trigger is the module's alone. -/
theorem coreAt_snapFault (code : BitVec 8) (s : State) (c : Nat) : coreAt (snapFault code s) c = coreAt s c := by
  refine coreAt_congr ?_ c
  unfold snapFault fireTrig
  dsimp only
  split_ifs <;> rfl

theorem isCodeAddr_congr {s t : State} {c : Nat} (h : coreAt t c = coreAt s c) (a : Word) : isCodeAddr t c a = isCodeAddr s c a := by
  rw [isCodeAddr, isCodeAddr, imageOf, imageOf, taskOf, taskOf, h]

/-! ### What becomes of a fault (R246) -/

/-- The fault registers of a core after a fault. -/
def faulted (f : FaultInfo) (b : Body) : Body := recordFault b f.code f.slot f.tok f.cause f.pc f.addr f.vcc

/-- A fault of the CTL slot that no token reports leaves its code alone in FLTSTAT (R245). -/
theorem fltstat_faulted (s : State) (c : Nat) (code : BitVec 8) (addr : Word) (b : Body) :
    (faulted (faultHere s c code 0 none addr) b).fltstat = BitVec.ofNat 64 code.toNat := by
  simp [faulted, faultHere, recordFault]

/-- The state in which each core of a group has recorded a fault. -/
def recorded (g : List Nat) (f : FaultInfo) (s : State) : State := onCores (fun q s => updBody s q (faulted f)) g (snapFault f.code s)

theorem body_recorded {g : List Nat} (hg : g.Nodup) {q : Nat} (hq : q ∈ g) (f : FaultInfo) (s : State) :
    (coreAt (recorded g f s) q).b = faulted f (coreAt s q).b := by
  rw [recorded, body_onCores_of_mem (f := fun _ => faulted f) hg hq, coreAt_snapFault]

/-- A core after the fault has entered the handler. -/
def handling (vec : Word) (f : FaultInfo) (b : Body) : Body := enterHandler vec f.code f.slot f.tok f.cause f.pc f.addr f.vcc f.resume b

section
variable {g : List Nat} {c : Nat} {f : FaultInfo} {s : State} (hc : g.head? = some c)
include hc

/-- A fault that a handler may take enters the handler on every core of the group. -/
theorem takeFault_of_handler (hcode : noHandler f.code = false) (hvec : (coreAt s c).b.trapvec ≠ 0) (hout : (coreAt s c).b.inHandler = false)
    (haddr : isCodeAddr s c (coreAt s c).b.trapvec = true) :
    takeFault g f s = onCores (fun q u => updBody u q (handling (coreAt s c).b.trapvec f)) g (snapFault f.code s) := by
  have stays : (noHandler f.code || (coreAt s c).b.trapvec == 0 || (coreAt s c).b.inHandler) = false := by
    rw [hcode, hout, beq_eq_false_iff_ne.2 hvec]
    rfl
  have inCode : isCodeAddr (snapFault f.code s) c (coreAt s c).b.trapvec = true := (isCodeAddr_congr (coreAt_snapFault _ s c) _).trans haddr
  simp only [takeFault, hc, stays, inCode, Bool.not_true, Bool.false_eq_true, if_false]
  rfl

/-- Without a handler, and in one, a fault ends the task. -/
theorem takeFault_of_no_handler (h : (coreAt s c).b.trapvec = 0 ∨ (coreAt s c).b.inHandler = true) :
    takeFault g f s = endFaulted g f.code (recorded g f s) := by
  have ends : (noHandler f.code || (coreAt s c).b.trapvec == 0 || (coreAt s c).b.inHandler) = true := by
    rcases h with h | h <;> simp [h]
  rw [takeFault, hc]
  exact if_pos ends

end

/-! ### The end of a task at its fault (R246, R97) -/

/-- A core that has left its task, which keeps its fault registers. -/
def LeftTask (old new : Body) : Prop :=
  new.task = none ∧ new.commitQ = [] ∧ new.holdQ = [] ∧ new.fltstat = old.fltstat ∧ new.fltpc = old.fltpc

theorem core_dropBehind_of_ne {c q : Nat} (h : q ≠ c) (s : State) : coreAt (dropBehind c s) q = coreAt s q := by
  rw [dropBehind, core_updCore, if_neg h]
  rfl

theorem body_dropBehind (c q : Nat) (s : State) : (coreAt (dropBehind c s) q).b = (coreAt s q).b := by
  rw [dropBehind, core_updCore]
  split
  next e => rw [e]; rfl
  next => rfl

theorem freeCore_of_idle {c : Nat} {s : State} (h : taskOf s c = none) : freeCore c s = s := by
  rw [freeCore, h]

theorem core_freeCore_of_ne {c q : Nat} (h : q ≠ c) (s : State) : coreAt (freeCore c s) q = coreAt s q := by
  unfold freeCore
  split
  · rfl
  · rw [core_updCore, if_neg h, core_updLaunch, core_dropBehind_of_ne h]

/-- A core that runs a task leaves it with its commit queue and its held effects (R246). -/
theorem leftTask_freeCore {c : Nat} {s : State} (h : taskOf s c ≠ none) : LeftTask (coreAt s c).b (coreAt (freeCore c s) c).b := by
  obtain ⟨t, runs⟩ := Option.ne_none_iff_exists'.1 h
  simp only [freeCore, runs, core_updCore, core_updLaunch, if_true, ← body_dropBehind c c s]
  exact ⟨rfl, rfl, rfl, rfl, rfl⟩

theorem core_foldl_freeCore_of_idle {q : Nat} : ∀ (l : List Nat) {s : State}, taskOf s q = none →
    coreAt (l.foldl (fun s c => freeCore c s) s) q = coreAt s q := by
  intro l
  induction l with
  | nil => exact fun _ => rfl
  | cons a l ih =>
    intro s idle
    have here : coreAt (freeCore a s) q = coreAt s q := by
      by_cases e : q = a
      · rw [← e, freeCore_of_idle idle]
      · exact core_freeCore_of_ne e s
    exact (ih (by rwa [taskOf, here])).trans here

/-- Each listed core that runs a task leaves it. -/
theorem leftTask_foldl_freeCore {q : Nat} : ∀ {l : List Nat} {s : State}, q ∈ l → taskOf s q ≠ none →
    LeftTask (coreAt s q).b (coreAt (l.foldl (fun s c => freeCore c s) s) q).b := by
  intro l
  induction l with
  | nil => exact fun hq => absurd hq List.not_mem_nil
  | cons a l ih =>
    intro s hq runs
    rw [List.foldl_cons]
    by_cases e : q = a
    · subst e
      have left := leftTask_freeCore runs
      rwa [core_foldl_freeCore_of_idle l left.1]
    · have here := core_freeCore_of_ne e s
      rw [← here]
      exact ih ((List.mem_cons.1 hq).resolve_left e) (by rwa [taskOf, here])

/-- Where the leading core runs a task, a fault that ends it takes every core of the group out of its own. -/
theorem leftTask_endFaulted {g : List Nat} {c q : Nat} {s : State} (hc : g.head? = some c) (lead : taskOf s c ≠ none) (hq : q ∈ g)
    (runs : taskOf s q ≠ none) (code : BitVec 8) : LeftTask (coreAt s q).b (coreAt (endFaulted g code s) q).b := by
  obtain ⟨t, ht⟩ := Option.ne_none_iff_exists'.1 lead
  simp only [endFaulted, leaveTask, hc, ht, failLaunch, core_updLaunch]
  exact leftTask_foldl_freeCore (s := updLaunch s t.launch _) hq runs

/-- A fault that no handler takes leaves every issuer without its task, with the fault recorded. -/
theorem leftTask_takeFault {s : State} (h : Ready s) (f : FaultInfo)
    (hn : (coreAt s (lead s)).b.trapvec = 0 ∨ (coreAt s (lead s)).b.inHandler = true) {q : Nat} (hq : q ∈ issuers s) :
    LeftTask (faulted f (coreAt s q).b) (coreAt (takeFault (issuers s) f s) q).b := by
  have runs {c : Nat} (hc : c ∈ issuers s) : taskOf (recorded (issuers s) f s) c ≠ none := by
    rw [taskOf, body_recorded (issuers_nodup s) hc]
    exact taskOf_ne_none_of_ready h hc
  rw [takeFault_of_no_handler (head?_issuers s) hn, ← body_recorded (issuers_nodup s) hq]
  exact leftTask_endFaulted (head?_issuers s) (runs (lead_mem s)) hq (runs hq) f.code

/-! ### The obligation -/

/-- TRAP takes its fault at its bundle, with its immediate as the address. -/
theorem exec_trap {s : State} (h : Ready s) (i : BitVec 20) :
    exec (.trap i) s = .next (takeFault (issuers s) (faultHere s (lead s) codeTrap 0 none (i.setWidth 64)) s) :=
  runSlot_lead_fault (f := effTrap i) h rfl

/-- Settles O35: the fault of TRAP is taken by the handler on each issuer, or it ends the task that each of them runs. -/
theorem trapEntersHandler : Obligations.TrapEntersHandler := by
  unfold Obligations.TrapEntersHandler
  intro s i ready
  refine ⟨fun vec out addr => ⟨_, exec_trap ready i, mem_takeFault _ _ _, fun q hq => ?_⟩, fun closed => ⟨_, exec_trap ready i, fun q hq => ?_⟩⟩
  · rw [takeFault_of_handler (head?_issuers s) rfl vec out addr, body_onCores_of_mem (f := fun _ => handling _ _) (issuers_nodup s) hq,
      coreAt_snapFault]
    exact ⟨fltstat_faulted s (lead s) codeTrap _ (latch (coreAt s q).b), rfl, rfl, rfl, rfl, rfl, rfl, rfl, rfl, rfl, rfl, rfl, rfl, rfl⟩
  · obtain ⟨task, commits, held, stat, pc⟩ := leftTask_takeFault ready (faultHere s (lead s) codeTrap 0 none (i.setWidth 64)) closed hq
    have code : fieldW (BitVec.ofNat 64 codeTrap.toNat) 0 8 = codeTrap.toNat := by decide
    exact ⟨task, commits, held, by rw [stat, fltstat_faulted, code], pc⟩

end Sys2Proof.Machine
end

section
/-!
PROOFS. Results and landings in flight: the cycle from which they stand in their registers (R274, R278).
-/

namespace Sys2Proof.Machine

open Sys2Proof.Safety

/-! ### Results that fall due (R274, R278) -/

@[simp] theorem vcc_writeDst (r : Regs) (d : Dst) (x : BitVec 1024) : (writeDst r d x).vcc = r.vcc := by cases d <;> rfl
@[simp] theorem res_writeDst (r : Regs) (d : Dst) (x : BitVec 1024) : (writeDst r d x).res = r.res := by cases d <;> rfl
@[simp] theorem lands_writeDst (r : Regs) (d : Dst) (x : BitVec 1024) : (writeDst r d x).lands = r.lands := by cases d <;> rfl

/-- What waits beyond the VCC is kept. -/
theorem settle_of_nothing_due {b : Body} (h : dueNow b.r = []) (hres : ∀ x ∈ b.r.res, b.r.vcc < x.due) (hlands : ∀ x ∈ b.r.lands, b.r.vcc < x.due) :
    settle b = b := by
  have res : b.r.res.filter (fun x => decide (b.r.vcc < x.due)) = b.r.res := List.filter_eq_self.2 (fun x hx => decide_eq_true (hres x hx))
  have lands : b.r.lands.filter (fun x => decide (b.r.vcc < x.due)) = b.r.lands := List.filter_eq_self.2 (fun x hx => decide_eq_true (hlands x hx))
  simp only [settle, h, byDue, List.foldl_nil, res, lands, List.find?_nil]

/-- One value that falls due is written, and taken off its list; poison is detected with it (R256). -/
theorem settle_of_one_due {b : Body} {x : Due} (h : dueNow b.r = [x]) (hres : ∀ x ∈ b.r.res, x.due ≤ b.r.vcc) (hlands : ∀ x ∈ b.r.lands, x.due ≤ b.r.vcc) :
    settle b = { b with r := { writeDst b.r x.dst x.val with res := [], lands := [] },
                        detected := if x.bad = true then some (b.detected.getD (codePoison, b.r.pc, x.ptr)) else b.detected } := by
  have res : b.r.res.filter (fun x => decide (b.r.vcc < x.due)) = [] := List.filter_eq_nil_iff.2 (fun x hx => by simp [hres x hx])
  have lands : b.r.lands.filter (fun x => decide (b.r.vcc < x.due)) = [] := List.filter_eq_nil_iff.2 (fun x hx => by simp [hlands x hx])
  cases hb : x.bad <;> simp [settle, h, byDue, insDue, res, lands, hb]

theorem dueNow_of_result {r : Regs} {x : Res} (hr : r.res = [x]) (hl : r.lands = []) :
    dueNow r = if x.due ≤ r.vcc then [{ dst := x.dst, val := x.val, due := x.due, bad := false, ptr := 0 }] else [] := by
  by_cases h : x.due ≤ r.vcc <;> simp [dueNow, hr, hl, h]

theorem dueNow_of_landing {r : Regs} {l : Landing} {v : BitVec 1024} {bad : Bool} (hr : r.res = []) (hl : r.lands = [l]) (hd : l.data = some (v, bad)) :
    dueNow r = if l.due ≤ r.vcc then [{ dst := l.dst, val := v, due := l.due, bad := bad, ptr := l.ptr }] else [] := by
  by_cases h : l.due ≤ r.vcc <;> simp [dueNow, hr, hl, hd, h]

/-- Settles O9: one value falls due at the VCC of its cycle, and before that nothing does. -/
theorem resultsFallDue : Obligations.ResultsFallDue := by
  unfold Obligations.ResultsFallDue
  refine fun b x l v bad => ⟨fun hr hl => ⟨fun due => ?_, fun early => ?_⟩, fun hr hl hd => ⟨fun due => ?_, fun early => ?_⟩⟩
  · rw [settle_of_one_due ((dueNow_of_result hr hl).trans (if_pos due)) (by simp [hr, due]) (by simp [hl])]
  · exact settle_of_nothing_due ((dueNow_of_result hr hl).trans (if_neg (Nat.not_le.2 early))) (by simp [hr, early]) (by simp [hl])
  · rw [settle_of_one_due ((dueNow_of_landing hr hl hd).trans (if_pos due)) (by simp [hr]) (by simp [hl, due])]
    exact ⟨rfl, fun poisoned clean => by simp [poisoned, clean], fun good => by simp [good]⟩
  · exact settle_of_nothing_due ((dueNow_of_landing hr hl hd).trans (if_neg (Nat.not_le.2 early))) (by simp [hr]) (by simp [hl, early])

end Sys2Proof.Machine
end

section
/-!
PROOFS. Bundles of one result: what they leave as it was (R272, R274, R281).
-/

namespace Sys2Proof.Machine

open Sys2Proof.Safety

/-! ### Changes of the bodies of some cores -/

/-- From the first state to the second nothing changes but the bodies of the listed cores and the module's registers. -/
structure OnlyBodies (l : List Nat) (s t : State) : Prop where
  state : { t with cores := s.cores, mod := s.mod } = s
  others : ∀ q, q ∉ l → coreAt t q = coreAt s q
  core : ∀ q, { coreAt t q with b := (coreAt s q).b } = coreAt s q

theorem OnlyBodies.refl (l : List Nat) (s : State) : OnlyBodies l s s := ⟨rfl, fun _ _ => rfl, fun _ => rfl⟩

theorem OnlyBodies.trans {l : List Nat} {s t u : State} (h : OnlyBodies l s t) (h' : OnlyBodies l t u) : OnlyBodies l s u where
  state := (congrArg (fun x : State => { x with cores := s.cores, mod := s.mod }) h'.state).trans h.state
  others q hq := (h'.others q hq).trans (h.others q hq)
  core q := (congrArg (fun k : Core => { k with b := (coreAt s q).b }) (h'.core q)).trans (h.core q)

theorem onlyBodies_updBody {l : List Nat} {c : Nat} (hc : c ∈ l) (f : Body → Body) (s : State) : OnlyBodies l s (updBody s c f) where
  state := rfl
  others q hq := by rw [core_updBody, if_neg (ne_of_mem_of_not_mem hc hq).symm]
  core q := by
    rw [core_updBody]
    split
    next e => rw [e]
    next => rfl

theorem coreAt_snapVcc (c v v' : Nat) (s : State) (q : Nat) : coreAt (snapVcc c v v' s) q = coreAt s q := by
  refine coreAt_congr ?_ q
  unfold snapVcc fireTrig
  dsimp only
  split_ifs <;> rfl

/-- A snapshot trigger is the module's alone. -/
theorem onlyBodies_snapVcc (l : List Nat) (c v v' : Nat) (s : State) : OnlyBodies l s (snapVcc c v v' s) where
  state := by
    unfold snapVcc fireTrig
    dsimp only
    split_ifs <;> rfl
  others q _ := coreAt_snapVcc c v v' s q
  core q := by rw [coreAt_snapVcc]

/-- Changes one after another, each of a listed core, are a change of the listed cores. -/
theorem onlyBodies_foldl {f : State → Nat → State} {l : List Nat} (hf : ∀ q ∈ l, ∀ s, OnlyBodies l s (f s q)) (s : State) :
    OnlyBodies l s (l.foldl f s) :=
  List.foldlRecOn l f (OnlyBodies.refl l s) (fun u hu q hq => hu.trans (hf q hq u))

theorem onlyBodies_settled (s : State) : OnlyBodies (issuers s) s (settled s) :=
  onlyBodies_foldl (fun _ hq u => onlyBodies_updBody hq settle u) s

/-- The end of a bundle whose leading core is not in TEND: each core goes on to its next bundle, and a VCC match may trigger a snapshot (R86). -/
theorem finishBundle_of_running {a : Nat} {l : List Nat} {o s : State} (ht : inTend s a = false) :
    finishBundle (a :: l) o s = onCores (fun q s => snapVcc q (coreAt o q).b.r.vcc (coreAt s q).b.r.vcc s) (a :: l)
      (onCores (fun q u => updBody u q (advance (coreAt o q).b (coreAt s a).b.taken)) (a :: l) s) := by
  have snapped (u : State) : coreAt (onCores (fun q s => snapVcc q (coreAt o q).b.r.vcc (coreAt s q).b.r.vcc s) (a :: l) u) a = coreAt u a :=
    foldl_keeps (g := fun s => coreAt s a) (fun s q => coreAt_snapVcc ..) (a :: l) u
  have task := body_onCores Body.task (f := fun q => advance (coreAt o q).b (coreAt s a).b.taken) (fun _ _ => rfl) (a :: l) s a
  refine if_neg ?_
  rw [inTend_congr (s := s) ((congrArg (fun k => k.b.task) (snapped _)).trans task), ht]
  exact Bool.false_ne_true

/-- The end of a bundle on a group that is not in TEND changes the bodies of the group alone. -/
theorem onlyBodies_finishBundle {l : List Nat} (o : State) {s : State} (ht : ∀ q ∈ l, inTend s q = false) : OnlyBodies l s (finishBundle l o s) := by
  cases l with
  | nil => exact .refl _ s
  | cons a l =>
    rw [finishBundle_of_running (ht a List.mem_cons_self)]
    exact (onlyBodies_foldl (fun _ hq u => onlyBodies_updBody hq _ u) s).trans (onlyBodies_foldl (fun _ _ u => onlyBodies_snapVcc ..) _)

/-! ### Bundles of one result -/

/-- A core's state with a result in flight. -/
def owing (dst : Dst) (lat : Nat) (v : Nat → State → BitVec 1024) (q : Nat) (o : State) (b : Body) : Body :=
  { b with r := { b.r with res := b.r.res ++ [{ dst := dst, val := v q o, due := b.r.vcc + lat }] } }

/-- No issuer of a bundle of one result stands in TEND behind it. -/
theorem not_inTend_of_owing {s : State} (h : Ready s) (dst : Dst) (lat : Nat) (v : Nat → State → BitVec 1024) {q : Nat} (hq : q ∈ issuers s) :
    inTend (slotDone (fun q o t => updBody t q (owing dst lat v q o)) s) q = false :=
  (inTend_congr ((body_onCores Body.task (f := fun q => owing dst lat v q (settled s)) (fun _ _ => rfl) (issuers s) (settled s) q).trans
    (body_onCores Body.task (f := fun _ => settle) (fun _ _ => rfl) (issuers s) s q))).trans (not_inTend_of_ready h hq)

theorem onlyBodies_owing {s : State} (h : Ready s) (dst : Dst) (lat : Nat) (v : Nat → State → BitVec 1024) :
    OnlyBodies (issuers s) s (issued (fun q o t => updBody t q (owing dst lat v q o)) s) :=
  ((onlyBodies_settled s).trans (onlyBodies_foldl (fun _ hq u => onlyBodies_updBody hq _ u) (settled s))).trans
    (onlyBodies_finishBundle (settled s) (fun _ hq => not_inTend_of_owing h dst lat v hq))

/-- A core's state without what the end of a bundle changes: where issue stands, the loops, the running sums, and the results in flight. -/
def standing (b : Body) : Body :=
  { b with r := { b.r with pc := 0, vcc := 0, lc0 := .zero, lc1 := .zero, seg := .zero, res := [] }, taken := none, ckptDone := false, check := none }

theorem standing_advance (old : Body) (taken : Option Word) (b : Body) : standing (advance old taken b) = standing b := by
  unfold advance countLoops
  dsimp only
  split_ifs <;> rfl

/-- A bundle of one result leaves an issuer as its earlier results had made it. -/
theorem standing_owing {s : State} (h : Ready s) (dst : Dst) (lat : Nat) (v : Nat → State → BitVec 1024) {q : Nat} (hq : q ∈ issuers s) :
    standing (coreAt (issued (fun q o t => updBody t q (owing dst lat v q o)) s) q).b = standing (coreAt (settled s) q).b :=
  body_issued standing standing_advance h (owing dst lat v) (fun _ _ _ => rfl) hq

/-- Settles O8: the bundle changes the bodies of its issuers alone, and of those what its end changes and the results in flight. -/
theorem resultsLeaveTheRest : Obligations.ResultsLeaveTheRest := by
  unfold Obligations.ResultsLeaveTheRest
  intro i s t d lat v ready ht gives
  obtain rfl : t = issued (fun q o t => updBody t q (owing d lat v q o)) s := Host.Outcome.next.inj (ht.symm.trans gives)
  have rest := onlyBodies_owing ready d lat v
  have around {α : Type} (g : State → α) := congrArg g rest.state
  refine ⟨fun k => around (·.mem.byte k), around (·.poison), around (·.ctxs), around (·.launches), around (·.recs), around (·.packets),
    rest.others, fun q hq => ?_⟩
  have kept {α : Type} (g : Body → α) := congrArg g (standing_owing ready d lat v hq)
  have outer {α : Type} (g : Core → α) := congrArg g (rest.core q)
  exact ⟨kept (·.r.s), kept (·.r.v), kept (·.r.k), kept (·.r.sc), kept (·.r.mg), kept (·.r.liveX), kept (·.r.liveM), kept (·.r.shadX), kept (·.r.shadM),
    kept (·.r.toks), kept (·.r.bufs), kept (·.acc), kept (·.accX), kept (·.numstat), kept (·.fltstat), kept (·.fltpc), kept (·.fltvcc), kept (·.fltaddr),
    kept (·.trapvec), kept (·.commitQ), kept (·.holdQ), kept (·.mxQ), kept (·.xfQ), kept (·.task), outer (·.frames), outer (·.gate)⟩

end Sys2Proof.Machine
end

section
/-!
PROOFS. Landing loads: answered from the core's own storages at issue, or sent out (R277, R379).
-/

namespace Sys2Proof.Machine

open Sys2Proof.Safety

/-! ### Landing loads (R277, R379) -/

theorem isOwn_spadKey {c off : Nat} (h : off < 2 ^ 51) : isOwn c (.flat (spadKey c off)) = true := by
  rw [isOwn, beq_iff_eq, spadKey]
  omega

/-- A dereference that passes has passed each of its checks. -/
theorem need_bind_eq_ok {α : Type} {b : Bool} {code : BitVec 8} {p : Word} {f : Unit → Except Stop α} {l : α} :
    (need b code p >>= f) = .ok l ↔ b = true ∧ f () = .ok l := by
  cases b
  · exact ⟨nofun, nofun⟩
  · exact ⟨fun h => ⟨rfl, h⟩, fun h => h.2⟩

/-- Windows 0 and 1 of a pointer lead to the core's own storages (R206, R208). -/
theorem isOwn_of_reaches {o : State} {c : Nat} {p : Word} {n align : Nat} {win : Windows} {wr : Bool} {l : Loc}
    (h : Reaches o c p n align win wr l) (hw : winOf p < 2) : isOwn c l = true := by
  have reached : accessAs o c (issuerOf o c) p n align win wr = .ok l := h
  have near : bitAt p.toNat 63 = false := by
    by_contra far
    rw [winOf, if_pos (Bool.of_not_eq_false far)] at hw
    omega
  simp only [winOf, accessAs, near, Bool.false_eq_true, if_false] at hw reached
  generalize bitsOf p.toNat 60 4 = w at hw reached
  interval_cases w
  · simp only [need_bind_eq_ok, Except.ok.injEq, Bool.and_eq_true, beq_iff_eq, decide_eq_true_eq] at reached
    obtain ⟨-, ⟨-, slot⟩, bounds, -, rfl⟩ := reached
    have few : bitsOf p.toNat 46 5 < 2 ^ 5 := Nat.mod_lt _ (by decide)
    exact isOwn_spadKey (by rw [← slot, privOff]; omega)
  · simp only [need_bind_eq_ok, Except.ok.injEq] at reached
    obtain ⟨-, -, -, -, -, rfl⟩ := reached
    exact isOwn_spadKey ((Nat.mod_lt _ (by decide)).trans (by decide : 2 ^ 22 < 2 ^ 51))

@[simp] theorem detected_awaiting (c : Nat) (dst : Dst) (p : Word) (n due : Nat) (resp : Option (BitVec 1024 × Bool)) (held : Bool) (t : State) (q : Nat) :
    (coreAt (awaiting c dst p n due resp held t) q).b.detected = (coreAt t q).b.detected :=
  detected_updRegs { t with nextId := t.nextId + 1 } c _ q

@[simp] theorem detected_requested (c : Nat) (o : State) (dst : Dst) (p : Word) (l : Loc) (n due : Nat) (op : Nat → AccessOp) (after : List Nat) (t : State)
    (q : Nat) : (coreAt (requested c o dst p l n due op after t) q).b.detected = (coreAt t q).b.detected :=
  (detected_post ..).trans (detected_awaiting ..)

/-- What becomes of the landing request of a load (R277): answered from the core's own storages, or sent out. -/
theorem land_load (c : Nat) (o s : State) (dst : Dst) (p : Word) (l : Loc) (n due : Nat) (held : List (Option Byte)) :
    land c o s dst p l n due (fun id => .load n id held) false =
      if landLimit ≤ landEntries o c ∨ 8192 ≤ outstanding o c then pauseFor 8
      else if decide (winOf p < 2) && !bankReady o l n then pauseWake o l n
      else if isOwn c l && bankReady o l n then
        .ok (awaiting c dst p n due (some (BitVec.ofNat 1024 (readNat (seen o c) l n), poisoned (seen o c) l n)) false s)
      else .ok (requested c o dst p l n due (fun id => .load n id held) (if winOf p < 2 then behindOwn o c else []) s) := by
  refine if_congr Iff.rfl rfl (if_congr Iff.rfl rfl ?_)
  cases l with
  | glob h a => rfl
  | host a port => rfl
  | flat k =>
    dsimp only
    rw [show isOwn c (.flat k) = isOwnKey c k from rfl]
    generalize (isOwnKey c k && bankReady o (.flat k) n) = here
    cases here <;> rfl

/-- The operation of LDL where a landing request has a place and the banks of the core's own storages serve it: through
windows 0 and 1 a load never leaves them. -/
theorem effLdl_eq {d a : BitVec 6} {f : BitVec 2} {r : BitVec 12} {c : Nat} {o : State} {l : Loc} {n : Nat} {dst : Dst}
    (hn : (if f = 0 then 8 else if f = 1 then 4 else 128) = n) (hdst : (if f = 2 then .v d.toNat else .s d.toNat) = dst)
    (reached : Reaches o c (sReg o c a.toNat) n (if n = 128 then 8 else n) winAll false l) (room : CanLand o c)
    (bank : winOf (sReg o c a.toNat) < 2 → bankReady o l n = true) (s : State) :
    effLdl d a f r c o s = .ok (
      if isOwn c l = true ∧ bankReady o l n = true then
        awaiting c dst (sReg o c a.toNat) n ((coreAt o c).b.r.vcc + r.toNat) (some (BitVec.ofNat 1024 (readNat (seen o c) l n), poisoned (seen o c) l n)) false s
      else requested c o dst (sReg o c a.toNat) l n ((coreAt o c).b.r.vcc + r.toNat) (fun id => .load n id (heldBytes o c l n)) [] s) := by
  have place : access o c (sReg o c a.toNat) n (if n = 128 then 8 else n) winAll false = .ok l := reached
  have landed : effLdl d a f r c o s = land c o s dst (sReg o c a.toNat) l n ((coreAt o c).b.r.vcc + r.toNat) (fun id => .load n id (heldBytes o c l n)) false := by
    simp only [effLdl, hn, hdst, place]
    rfl
  obtain ⟨places, requests⟩ := room
  rw [landed, land_load, if_neg (by omega)]
  by_cases near : winOf (sReg o c a.toNat) < 2
  · have own := isOwn_of_reaches reached near
    have ready := bank near
    rw [if_neg (by simp [ready]), if_pos (by simp [own, ready]), if_pos ⟨own, ready⟩]
  · rw [if_neg (by simp [near]), if_neg near]
    simp only [Bool.and_eq_true]
    split <;> rfl

/-- Settles O27: the access of an LDL reaches the core's own storages, or it goes out. -/
theorem landingLoads : Obligations.LandingLoads := by
  unfold Obligations.LandingLoads
  intro s d a f r l ready wf n dst hr
  have legal : (f != 3 && r != 0) = true := wf
  have format : f ≠ 3 := bne_iff_ne.1 (Bool.and_eq_true_iff.1 legal).1
  have align : (if f = 2 then 8 else n) = if n = 128 then 8 else n := by
    have formats : ∀ f : BitVec 2, f ≠ 3 → (if f = 2 then 8 else if f = 0 then 8 else if f = 1 then 4 else 128) =
        if (if f = 0 then 8 else if f = 1 then 4 else 128) = 128 then 8 else if f = 0 then 8 else if f = 1 then 4 else 128 := by decide
    exact formats f format
  refine issues_ok ready (f := effLdl d a f r) rfl (by decide) (fun q hq t => ?_) (fun q t c => ?_)
  · obtain ⟨reached, room, bank⟩ := hr q hq
    exact effLdl_eq rfl rfl (align ▸ reached) room bank t
  · split
    · exact detected_awaiting ..
    · exact detected_requested ..

end Sys2Proof.Machine
end

section
/-! The words of the slots and of the microcode, in both directions: the word of an instruction decodes to it, and a word that decodes is the
word of its instruction (R329-R337, R437-R440). -/

namespace Sys2Proof.Machine

open Sys2Proof.Safety

/-! ### Element types in a word -/

/-- The four bits of an element type (R330). -/
def fmtBits (e : Fmt) : BitVec 4 := BitVec.ofNat 4 e.code

theorem code_eq (e : Fmt) : e.code = (fmtBits e).toNat := by cases e <;> rfl

theorem ofCode_code (e : Fmt) : Fmt.ofCode e.code = e := by cases e <;> rfl

theorem code_ofCode {n : Nat} (h : n < 16) : (Fmt.ofCode n).code = n := by interval_cases n <;> rfl

theorem code_fmtAt (w lo : Nat) : (fmtAt w lo).code = num w lo 4 := code_ofCode (Nat.mod_lt _ (by decide))

theorem fmtAt_onto_above {m : Nat} (f : BitVec m) (r : Nat) {lo : Nat} (h : m ≤ lo) : fmtAt (onto f r) lo = fmtAt r (lo - m) := by
  rw [fmtAt, fmtAt, num_onto_above f r h]

theorem fmtAt_onto_self (e : Fmt) (r : Nat) : fmtAt (onto (fmtBits e) r) 0 = e := by
  rw [fmtAt, num_onto_within _ _ (Nat.le_refl 4), num_of_lt (fmtBits e).isLt, ← code_eq, ofCode_code]

/-! ### From an instruction to its word and back -/

/-- The word that an encoder gives a well-formed instruction has the width of the map, and the map's row gives the instruction back. -/
def ReadsBackIn (bits : Nat) (enc : Instr → Option Nat) (raw : Nat → Except DecodeError Instr) (i : Instr) : Prop :=
  ∀ w, i.wf = true → enc i = some w → w < 2 ^ bits ∧ withOperands (raw w) = .ok i

namespace ReadsBackIn

/-- An instruction whose word is `layout`, put together from the fields of its row from bit 0 up, reads back. By default each condition on the
layout is computed, with the row of whichever map `raw` is. -/
theorem of_fields {bits : Nat} {enc : Instr → Option Nat} {raw : Nat → Except DecodeError Instr} {i : Instr} (layout : Nat)
    (value : enc i = some layout := by
      refine congrArg some (?_ : _ = _); simp only [put, onto, code_eq, BitVec.toNat_ofNat]; omega)
    (fits : layout < 2 ^ bits := by simp only [onto, BitVec.toNat_ofNat]; omega)
    (row : raw layout = .ok i := by
      simp only [rawCtl.eq_def, rawS.eq_def, rawLs.eq_def, rawV.eq_def, rawSf.eq_def, rawMx.eq_def, rawXf.eq_def, rawMicro.eq_def, num_onto_above,
        num_onto_within, num_onto_across, num_of_lt, num_zero, fld_onto_above, fld_onto_self, fmtAt_onto_above, fmtAt_onto_self, BitVec.toNat_ofNat,
        Nat.reduceLeDiff, Nat.reduceSub, Nat.reduceAdd, Nat.reduceMul, Nat.reducePow, Nat.reduceLT, Nat.reduceMod, Nat.reduceEqDiff, le_refl, zero_add,
        mul_zero, add_zero, and_self, false_and, and_false, ↓reduceIte]) :
    ReadsBackIn bits enc raw i := by
  intro w hwf h
  obtain rfl := Option.some.inj (h.symm.trans value)
  exact ⟨fits, by rw [row, withOperands_of_wf hwf]⟩

/-- The opcodes from 56 to 59 are the hints of every slot (R329). -/
theorem hint_opcode {w : Nat} (h : num w 28 4 = 14) : num w 26 6 = 56 ∨ num w 26 6 = 57 ∨ num w 26 6 = 58 ∨ num w 26 6 = 59 := by
  have op : num w 26 6 = num w 26 2 + 2 ^ 2 * num w 28 4 := num_add w 26 2 4
  have low : num w 26 2 < 2 ^ 2 := Nat.mod_lt _ (by decide)
  omega

/-- A hint reads back in every map whose rows 56 to 59 are one hint with two operands. -/
theorem of_hint {enc : Instr → Option Nat} {raw : Nat → Except DecodeError Instr} {hint : BitVec 2 → BitVec 26 → Instr} (h : BitVec 2) (x : BitVec 26)
    (value : enc (hint h x) = some (0xe0000000 + put h.toNat 26 + x.toNat))
    (rows : ∀ w, num w 26 6 = 56 ∨ num w 26 6 = 57 ∨ num w 26 6 = 58 ∨ num w 26 6 = 59 → raw w = .ok (hint (fld w 26 2) (fld w 0 26))) :
    ReadsBackIn 32 enc raw (hint h x) := by
  have word : 0xe0000000 + put h.toNat 26 + x.toNat = onto x (onto h 14) := by
    simp only [put, onto]
    omega
  refine of_fields (onto x (onto h 14)) (value := word ▸ value) (row := ?_)
  rw [rows _ (hint_opcode (by simp [num_onto_above, num_of_lt]))]
  simp [fld_onto_above, fld_onto_self]

/-! The instructions of one layout are read back together. -/

/-- The operations on two scalar registers (R364): their function code stands below the operands. -/
theorem registers (d a b : BitVec 6) :
    ∀ j ∈ [Instr.add d a b, .sub d a b, .and_ d a b, .or_ d a b, .xor_ d a b, .shl d a b, .shr d a b, .sar d a b, .slt d a b, .sltu d a b, .seq d a b,
      .min d a b, .max d a b, .minu d a b, .maxu d a b, .mul d a b, .mulh d a b, .mulhu d a b, .clmul d a b, .clmulh d a b, .gptr d a b, .gptrH d a b,
      .padd d a b],
      ReadsBackIn 32 encodeS rawS j := by
  simp only [List.forall_mem_cons]
  exact ⟨of_fields (onto 0#8 (onto b (onto a (onto d 1)))), of_fields (onto 1#8 (onto b (onto a (onto d 1)))),
    of_fields (onto 2#8 (onto b (onto a (onto d 1)))), of_fields (onto 3#8 (onto b (onto a (onto d 1)))),
    of_fields (onto 4#8 (onto b (onto a (onto d 1)))), of_fields (onto 5#8 (onto b (onto a (onto d 1)))),
    of_fields (onto 6#8 (onto b (onto a (onto d 1)))), of_fields (onto 7#8 (onto b (onto a (onto d 1)))),
    of_fields (onto 8#8 (onto b (onto a (onto d 1)))), of_fields (onto 9#8 (onto b (onto a (onto d 1)))),
    of_fields (onto 10#8 (onto b (onto a (onto d 1)))), of_fields (onto 11#8 (onto b (onto a (onto d 1)))),
    of_fields (onto 12#8 (onto b (onto a (onto d 1)))), of_fields (onto 13#8 (onto b (onto a (onto d 1)))),
    of_fields (onto 14#8 (onto b (onto a (onto d 1)))), of_fields (onto 0#8 (onto b (onto a (onto d 2)))),
    of_fields (onto 1#8 (onto b (onto a (onto d 2)))), of_fields (onto 2#8 (onto b (onto a (onto d 2)))),
    of_fields (onto 0#8 (onto b (onto a (onto d 3)))), of_fields (onto 0#8 (onto b (onto a (onto d 4)))),
    of_fields (onto 0#8 (onto b (onto a (onto d 11)))), of_fields (onto 1#8 (onto b (onto a (onto d 11)))),
    of_fields (onto 0#8 (onto b (onto a (onto d 12)))), List.forall_mem_nil _⟩

/-- The operations on a register and an immediate (R364). -/
theorem immediates (d a : BitVec 6) (i : BitVec 14) :
    ∀ j ∈ [Instr.addi d a i, .andi d a i, .ori d a i, .xori d a i, .slti d a i, .sltui d a i, .seqi d a i],
      ReadsBackIn 32 encodeS rawS j := by
  simp only [List.forall_mem_cons]
  exact ⟨of_fields (onto i (onto a (onto d 16))), of_fields (onto i (onto a (onto d 17))), of_fields (onto i (onto a (onto d 18))),
    of_fields (onto i (onto a (onto d 19))), of_fields (onto i (onto a (onto d 23))), of_fields (onto i (onto a (onto d 24))),
    of_fields (onto i (onto a (onto d 25))), List.forall_mem_nil _⟩

/-- The integer atomics (R374). -/
theorem atomics (d a : BitVec 6) (w : BitVec 1) (q : BitVec 9) :
    ∀ j ∈ [Instr.amoAdd d a w q, .amoAnd d a w q, .amoOr d a w q, .amoXor d a w q, .amoMin d a w q, .amoMax d a w q, .amoMinu d a w q,
      .amoMaxu d a w q, .amoSwap d a w q],
      ReadsBackIn 32 encodeLs rawLs j := by
  simp only [List.forall_mem_cons]
  exact ⟨of_fields (onto q (onto w (onto 0#4 (onto a (onto d 10))))), of_fields (onto q (onto w (onto 1#4 (onto a (onto d 10))))),
    of_fields (onto q (onto w (onto 2#4 (onto a (onto d 10))))), of_fields (onto q (onto w (onto 3#4 (onto a (onto d 10))))),
    of_fields (onto q (onto w (onto 4#4 (onto a (onto d 10))))), of_fields (onto q (onto w (onto 5#4 (onto a (onto d 10))))),
    of_fields (onto q (onto w (onto 6#4 (onto a (onto d 10))))), of_fields (onto q (onto w (onto 7#4 (onto a (onto d 10))))),
    of_fields (onto q (onto w (onto 8#4 (onto a (onto d 10))))), List.forall_mem_nil _⟩

/-- The integer reductions (R374). -/
theorem reductions (a b : BitVec 6) (w : BitVec 1) :
    ∀ j ∈ [Instr.redAdd a b w, .redAnd a b w, .redOr a b w, .redXor a b w, .redMin a b w, .redMax a b w, .redMinu a b w, .redMaxu a b w],
      ReadsBackIn 32 encodeLs rawLs j := by
  simp only [List.forall_mem_cons]
  exact ⟨of_fields (onto 0#3 (onto w (onto 0#4 (onto b (onto a (onto 0#6 12)))))),
    of_fields (onto 0#3 (onto w (onto 1#4 (onto b (onto a (onto 0#6 12)))))),
    of_fields (onto 0#3 (onto w (onto 2#4 (onto b (onto a (onto 0#6 12)))))),
    of_fields (onto 0#3 (onto w (onto 3#4 (onto b (onto a (onto 0#6 12)))))),
    of_fields (onto 0#3 (onto w (onto 4#4 (onto b (onto a (onto 0#6 12)))))),
    of_fields (onto 0#3 (onto w (onto 5#4 (onto b (onto a (onto 0#6 12)))))),
    of_fields (onto 0#3 (onto w (onto 6#4 (onto b (onto a (onto 0#6 12)))))),
    of_fields (onto 0#3 (onto w (onto 7#4 (onto b (onto a (onto 0#6 12)))))), List.forall_mem_nil _⟩

/-- The integer lanes with two operands (R393). -/
theorem integerLanes (d a b : BitVec 6) (k : BitVec 4) (e : Fmt) :
    ∀ j ∈ [Instr.vadd d a b k e, .vsub d a b k e, .vmul d a b k e, .vmulh d a b k e, .vmin d a b k e, .vmax d a b k e, .vand d a b k e,
      .vor d a b k e, .vxor d a b k e, .vandn d a b k e, .vshl d a b k e, .vshr d a b k e, .vsar d a b k e, .vadds d a b k e, .vsubs d a b k e],
      ReadsBackIn 32 encodeV rawV j := by
  simp only [List.forall_mem_cons]
  exact ⟨of_fields (onto (fmtBits e) (onto k (onto b (onto a (onto d 1))))), of_fields (onto (fmtBits e) (onto k (onto b (onto a (onto d 2))))),
    of_fields (onto (fmtBits e) (onto k (onto b (onto a (onto d 3))))), of_fields (onto (fmtBits e) (onto k (onto b (onto a (onto d 4))))),
    of_fields (onto (fmtBits e) (onto k (onto b (onto a (onto d 5))))), of_fields (onto (fmtBits e) (onto k (onto b (onto a (onto d 6))))),
    of_fields (onto (fmtBits e) (onto k (onto b (onto a (onto d 8))))), of_fields (onto (fmtBits e) (onto k (onto b (onto a (onto d 9))))),
    of_fields (onto (fmtBits e) (onto k (onto b (onto a (onto d 10))))), of_fields (onto (fmtBits e) (onto k (onto b (onto a (onto d 11))))),
    of_fields (onto (fmtBits e) (onto k (onto b (onto a (onto d 12))))), of_fields (onto (fmtBits e) (onto k (onto b (onto a (onto d 13))))),
    of_fields (onto (fmtBits e) (onto k (onto b (onto a (onto d 14))))), of_fields (onto (fmtBits e) (onto k (onto b (onto a (onto d 15))))),
    of_fields (onto (fmtBits e) (onto k (onto b (onto a (onto d 16))))), List.forall_mem_nil _⟩

/-- The floating lanes with two operands, and the other instructions of their layout (R393). -/
theorem floatingLanes (d a b : BitVec 6) (k : BitVec 4) (e : Fmt) :
    ∀ j ∈ [Instr.vsel d a b k e, .vclmulLo d a b k e, .vclmulHi d a b k e, .vperm d a b k e, .vfadd d a b k e, .vfsub d a b k e, .vfmul d a b k e,
      .vfma d a b k e, .vfmin d a b k e, .vfmax d a b k e],
      ReadsBackIn 32 encodeV rawV j := by
  simp only [List.forall_mem_cons]
  exact ⟨of_fields (onto (fmtBits e) (onto k (onto b (onto a (onto d 21))))), of_fields (onto (fmtBits e) (onto k (onto b (onto a (onto d 25))))),
    of_fields (onto (fmtBits e) (onto k (onto b (onto a (onto d 26))))), of_fields (onto (fmtBits e) (onto k (onto b (onto a (onto d 29))))),
    of_fields (onto (fmtBits e) (onto k (onto b (onto a (onto d 35))))), of_fields (onto (fmtBits e) (onto k (onto b (onto a (onto d 36))))),
    of_fields (onto (fmtBits e) (onto k (onto b (onto a (onto d 37))))), of_fields (onto (fmtBits e) (onto k (onto b (onto a (onto d 38))))),
    of_fields (onto (fmtBits e) (onto k (onto b (onto a (onto d 39))))), of_fields (onto (fmtBits e) (onto k (onto b (onto a (onto d 40))))),
    List.forall_mem_nil _⟩

/-- The vector instructions with one operand (R393): what tells them apart stands where the second would. -/
theorem oneOperand (d a : BitVec 6) (k : BitVec 4) (e : Fmt) :
    ∀ j ∈ [Instr.vabs d a k e, .vbcast d a k e, .vscanAdd d a k e, .vscanMin d a k e, .vscanMax d a k e, .vscanXor d a k e, .vscanAnd d a k e,
      .vscanOr d a k e, .vreduceAdd d a k e, .vreduceMin d a k e, .vreduceMax d a k e, .vreduceXor d a k e, .vreduceAnd d a k e, .vreduceOr d a k e,
      .vcompress d a k e, .vexpand d a k e, .vmov d a k e],
      ReadsBackIn 32 encodeV rawV j := by
  simp only [List.forall_mem_cons]
  exact ⟨of_fields (onto (fmtBits e) (onto k (onto 0#6 (onto a (onto d 7))))), of_fields (onto (fmtBits e) (onto k (onto 0#6 (onto a (onto d 22))))),
    of_fields (onto (fmtBits e) (onto k (onto 0#6 (onto a (onto d 27))))), of_fields (onto (fmtBits e) (onto k (onto 1#6 (onto a (onto d 27))))),
    of_fields (onto (fmtBits e) (onto k (onto 2#6 (onto a (onto d 27))))), of_fields (onto (fmtBits e) (onto k (onto 3#6 (onto a (onto d 27))))),
    of_fields (onto (fmtBits e) (onto k (onto 4#6 (onto a (onto d 27))))), of_fields (onto (fmtBits e) (onto k (onto 5#6 (onto a (onto d 27))))),
    of_fields (onto (fmtBits e) (onto k (onto 0#6 (onto a (onto d 28))))), of_fields (onto (fmtBits e) (onto k (onto 1#6 (onto a (onto d 28))))),
    of_fields (onto (fmtBits e) (onto k (onto 2#6 (onto a (onto d 28))))), of_fields (onto (fmtBits e) (onto k (onto 3#6 (onto a (onto d 28))))),
    of_fields (onto (fmtBits e) (onto k (onto 4#6 (onto a (onto d 28))))), of_fields (onto (fmtBits e) (onto k (onto 5#6 (onto a (onto d 28))))),
    of_fields (onto (fmtBits e) (onto k (onto 0#6 (onto a (onto d 30))))), of_fields (onto (fmtBits e) (onto k (onto 0#6 (onto a (onto d 31))))),
    of_fields (onto (fmtBits e) (onto k (onto 0#6 (onto a (onto d 52))))), List.forall_mem_nil _⟩

/-- The comparisons, whose destination is a mask (R393). -/
theorem comparisons (d : BitVec 4) (a b : BitVec 6) (k : BitVec 4) (e : Fmt) :
    ∀ j ∈ [Instr.vcmpeq d a b k e, .vcmpne d a b k e, .vcmplt d a b k e, .vcmple d a b k e],
      ReadsBackIn 32 encodeV rawV j := by
  simp only [List.forall_mem_cons]
  exact ⟨of_fields (onto (fmtBits e) (onto k (onto b (onto a (onto d (onto 0#2 17)))))),
    of_fields (onto (fmtBits e) (onto k (onto b (onto a (onto d (onto 0#2 18)))))),
    of_fields (onto (fmtBits e) (onto k (onto b (onto a (onto d (onto 0#2 19)))))),
    of_fields (onto (fmtBits e) (onto k (onto b (onto a (onto d (onto 0#2 20)))))), List.forall_mem_nil _⟩

/-- Every instruction of the CTL map reads back (R331, R352). -/
theorem ctl (i : Instr) : ReadsBackIn 32 encodeCtl rawCtl i := by
  cases i
  case br i => exact of_fields (onto i 1)
  case brz a i => exact of_fields (onto i (onto a 2))
  case brnz a i => exact of_fields (onto i (onto a 3))
  case loop c n e => exact of_fields (onto e (onto n (onto 0#1 (onto c 4))))
  case loopReg c a e => exact of_fields (onto e (onto 0#6 (onto a (onto 1#1 (onto c 4)))))
  case call d i => exact of_fields (onto i (onto d 5))
  case callr d a => exact of_fields (onto 0#14 (onto a (onto d 6)))
  case ret a => exact of_fields (onto 0#14 (onto a (onto 0#6 7)))
  case tend => exact of_fields (onto 0#26 8)
  case trap i => exact of_fields (onto i (onto 0#6 9))
  case eret => exact of_fields (onto 0#26 10)
  case eretSkip => exact of_fields (onto 1#26 10)
  case waitt x y z => exact of_fields (onto 0#8 (onto z (onto y (onto x 11))))
  case waitg a b => exact of_fields (onto 0#8 (onto b (onto a (onto 0#6 12))))
  case drain s => exact of_fields (onto s (onto 0#23 13))
  case fenceT s => exact of_fields (onto s (onto 0#23 14))
  case fenceSvDie => exact of_fields (onto 0#26 15)
  case fenceSvModule => exact of_fields (onto 1#26 15)
  case segchk c => exact of_fields (onto c (onto 0#14 16))
  case sysr d i => exact of_fields (onto i (onto 0#8 (onto d 17)))
  case sysw a i => exact of_fields (onto i (onto 0#2 (onto a (onto 0#6 18))))
  case yieldp => exact of_fields (onto 0#26 19)
  case shapepub a s => exact of_fields (onto s (onto 0#4 (onto a (onto 0#6 20))))
  case shapepubClr s => exact of_fields (onto s (onto 0#4 (onto 0#6 (onto 1#6 20))))
  case ctlHint h x => exact of_hint h x rfl fun w op => by obtain op | op | op | op := op <;> simp only [rawCtl, op]
  all_goals exact fun w _ h => nomatch h

/-- Every instruction of the S0 and S1 map reads back (R332, R364). -/
theorem scalar (i : Instr) : ReadsBackIn 32 encodeS rawS i := by
  cases i
  case  add d a b | sub d a b | and_ d a b | or_ d a b | xor_ d a b | shl d a b | shr d a b | sar d a b | slt d a b | sltu d a b | seq d a b |
      min d a b | max d a b | minu d a b | maxu d a b | mul d a b | mulh d a b | mulhu d a b | clmul d a b | clmulh d a b | gptr d a b | gptrH d a b |
      padd d a b =>
    exact registers d a b _ (by simp)
  case  addi d a i | andi d a i | ori d a i | xori d a i | slti d a i | sltui d a i | seqi d a i =>
    exact immediates d a i _ (by simp)
  case sel d a b c => exact of_fields (onto 0#2 (onto c (onto b (onto a (onto d 5)))))
  case movi d i => exact of_fields (onto i (onto d 6))
  case movhi d p i => exact of_fields (onto i (onto 0#2 (onto p (onto d 7))))
  case clz d a => exact of_fields (onto 0#14 (onto a (onto d 8)))
  case ctz d a => exact of_fields (onto 1#14 (onto a (onto d 8)))
  case popc d a => exact of_fields (onto 2#14 (onto a (onto d 8)))
  case sptest d a => exact of_fields (onto 0#14 (onto a (onto d 9)))
  case spcastSp d a => exact of_fields (onto 0#14 (onto a (onto d 10)))
  case spcastCl d a => exact of_fields (onto 1#14 (onto a (onto d 10)))
  case stg r p a => exact of_fields (onto 0#14 (onto a (onto p (onto r 13))))
  case shf r p a => exact of_fields (onto 0#14 (onto a (onto p (onto r 14))))
  case mpw r p a => exact of_fields (onto 0#14 (onto a (onto p (onto r 15))))
  case shli d a i => exact of_fields (onto i (onto 0#8 (onto a (onto d 20))))
  case shri d a i => exact of_fields (onto i (onto 0#8 (onto a (onto d 21))))
  case sari d a i => exact of_fields (onto i (onto 0#8 (onto a (onto d 22))))
  case sHint h x => exact of_hint h x rfl fun w op => by obtain op | op | op | op := op <;> simp only [rawS, op]
  all_goals exact fun w _ h => nomatch h

/-- Every instruction of the LS map reads back (R333, R374). -/
theorem loadStore (i : Instr) : ReadsBackIn 32 encodeLs rawLs i := by
  cases i
  case  amoAdd d a w q | amoAnd d a w q | amoOr d a w q | amoXor d a w q | amoMin d a w q | amoMax d a w q | amoMinu d a w q | amoMaxu d a w q |
      amoSwap d a w q =>
    exact atomics d a w q _ (by simp)
  case  redAdd a b w | redAnd a b w | redOr a b w | redXor a b w | redMin a b w | redMax a b w | redMinu a b w | redMaxu a b w =>
    exact reductions a b w _ (by simp)
  case ld d a z x i => exact of_fields (onto i (onto x (onto z (onto a (onto d 1)))))
  case st b a z i => exact of_fields (onto i (onto 0#1 (onto z (onto a (onto b 2)))))
  case vld d a i => exact of_fields (onto i (onto 0#4 (onto a (onto d 3))))
  case vst b a k i => exact of_fields (onto i (onto k (onto a (onto b 4))))
  case vlds d a s k e => exact of_fields (onto (fmtBits e) (onto k (onto s (onto a (onto d 5)))))
  case vsts b a s k e => exact of_fields (onto (fmtBits e) (onto k (onto s (onto a (onto b 6)))))
  case vldx d a x k e => exact of_fields (onto (fmtBits e) (onto k (onto x (onto a (onto d 7)))))
  case vstx b a x k e => exact of_fields (onto (fmtBits e) (onto k (onto x (onto a (onto b 8)))))
  case ldl d a f r => exact of_fields (onto r (onto f (onto a (onto d 9))))
  case amoFadd d a q => exact of_fields (onto q (onto 0#1 (onto 9#4 (onto a (onto d 10)))))
  case cas d a w r => exact of_fields (onto r (onto 0#1 (onto w (onto a (onto d 11)))))
  case redFadd a b => exact of_fields (onto 0#3 (onto 0#1 (onto 9#4 (onto b (onto a (onto 0#6 12))))))
  case ldAcq d a z s => exact of_fields (onto 0#9 (onto s (onto z (onto 1#1 (onto a (onto d 13))))))
  case stRel b a z s => exact of_fields (onto 0#9 (onto s (onto z (onto 1#1 (onto a (onto b 14))))))
  case hingeRel c a b => exact of_fields (onto 0#8 (onto b (onto a (onto c 15))))
  case hingeAcq d a b => exact of_fields (onto 0#8 (onto b (onto a (onto d 16))))
  case bgive h i n => exact of_fields (onto 0#12 (onto n (onto i (onto h (onto 0#6 17)))))
  case syncarm a b => exact of_fields (onto 0#8 (onto b (onto a (onto 0#6 18))))
  case spill b v s => exact of_fields (onto 0#8 (onto s (onto 0#1 (onto v (onto b 19)))))
  case fill d v s => exact of_fields (onto 0#8 (onto s (onto 0#1 (onto v (onto d 20)))))
  case pref a n => exact of_fields (onto 0#10 (onto n (onto a (onto 0#6 21))))
  case lsHint h x => exact of_hint h x rfl fun w op => by obtain op | op | op | op := op <;> simp only [rawLs, op]
  all_goals exact fun w _ h => nomatch h

/-- Every instruction of the V0 and V1 map reads back (R334, R393). -/
theorem vector (i : Instr) : ReadsBackIn 32 encodeV rawV i := by
  cases i
  case  vadd d a b k e | vsub d a b k e | vmul d a b k e | vmulh d a b k e | vmin d a b k e | vmax d a b k e | vand d a b k e | vor d a b k e |
      vxor d a b k e | vandn d a b k e | vshl d a b k e | vshr d a b k e | vsar d a b k e | vadds d a b k e | vsubs d a b k e =>
    exact integerLanes d a b k e _ (by simp)
  case  vsel d a b k e | vclmulLo d a b k e | vclmulHi d a b k e | vperm d a b k e | vfadd d a b k e | vfsub d a b k e | vfmul d a b k e |
      vfma d a b k e | vfmin d a b k e | vfmax d a b k e =>
    exact floatingLanes d a b k e _ (by simp)
  case  vabs d a k e | vbcast d a k e | vscanAdd d a k e | vscanMin d a k e | vscanMax d a k e | vscanXor d a k e | vscanAnd d a k e |
      vscanOr d a k e | vreduceAdd d a k e | vreduceMin d a k e | vreduceMax d a k e | vreduceXor d a k e | vreduceAnd d a k e | vreduceOr d a k e |
      vcompress d a k e | vexpand d a k e | vmov d a k e =>
    exact oneOperand d a k e _ (by simp)
  case  vcmpeq d a b k e | vcmpne d a b k e | vcmplt d a b k e | vcmple d a b k e =>
    exact comparisons d a b k e _ (by simp)
  case vextr d a b e => exact of_fields (onto (fmtBits e) (onto 0#4 (onto b (onto a (onto d 23)))))
  case vinsr d a b e => exact of_fields (onto (fmtBits e) (onto 0#4 (onto b (onto a (onto d 24)))))
  case vmergeLo d a b m e => exact of_fields (onto (fmtBits e) (onto m (onto 0#2 (onto b (onto a (onto d 32))))))
  case vmergeHi d a b m e => exact of_fields (onto (fmtBits e) (onto m (onto 0#2 (onto b (onto a (onto d 33))))))
  case vmergekv d a b m e => exact of_fields (onto (fmtBits e) (onto m (onto 0#2 (onto b (onto a (onto d 34))))))
  case vcvt d a t r p s e => exact of_fields (onto (fmtBits e) (onto s (onto p (onto r (onto (fmtBits t) (onto a (onto d 41)))))))
  case vamax d a p k e => exact of_fields (onto (fmtBits e) (onto k (onto p (onto a (onto d 42)))))
  case vbqpack d a s b e => exact of_fields (onto (fmtBits e) (onto 0#1 (onto b (onto s (onto a (onto d 43))))))
  case vbqunpk d a s b e => exact of_fields (onto (fmtBits e) (onto 0#1 (onto b (onto s (onto a (onto d 44))))))
  case kand d a b => exact of_fields (onto 0#8 (onto b (onto 0#2 (onto a (onto 0#2 (onto d (onto 0#2 46)))))))
  case kor d a b => exact of_fields (onto 0#8 (onto b (onto 0#2 (onto a (onto 0#2 (onto d (onto 0#2 47)))))))
  case kxor d a b => exact of_fields (onto 0#8 (onto b (onto 0#2 (onto a (onto 0#2 (onto d (onto 0#2 48)))))))
  case knot d a => exact of_fields (onto 0#14 (onto a (onto 0#2 (onto d (onto 0#2 49)))))
  case kpop d a e => exact of_fields (onto (fmtBits e) (onto 0#10 (onto a (onto 0#2 (onto d 50)))))
  case kset d a b => exact of_fields (onto 0#8 (onto b (onto a (onto d (onto 0#2 51)))))
  case vmovFromMg d a => exact of_fields (onto 0#8 (onto 1#6 (onto a (onto 0#2 (onto 0#2 (onto d 52))))))
  case vmovToMg d a => exact of_fields (onto 0#8 (onto 2#6 (onto a (onto d (onto 0#4 52)))))
  case vmovMaskLo d a => exact of_fields (onto 0#8 (onto 3#6 (onto a (onto 0#2 (onto d 52)))))
  case vmovMaskHi d a => exact of_fields (onto 0#8 (onto 4#6 (onto a (onto 0#2 (onto d 52)))))
  case vHint h x => exact of_hint h x rfl fun w op => by obtain op | op | op | op := op <;> simp only [rawV, op]
  all_goals exact fun w _ h => nomatch h

/-- Every instruction of the SF map reads back (R335, R412). -/
theorem special (i : Instr) : ReadsBackIn 32 encodeSf rawSf i := by
  cases i
  case fexp2 d a k e => exact of_fields (onto (fmtBits e) (onto k (onto 0#6 (onto a (onto d 1)))))
  case flog2 d a k e => exact of_fields (onto (fmtBits e) (onto k (onto 0#6 (onto a (onto d 2)))))
  case frcp d a k e => exact of_fields (onto (fmtBits e) (onto k (onto 0#6 (onto a (onto d 3)))))
  case frsq d a k e => exact of_fields (onto (fmtBits e) (onto k (onto 0#6 (onto a (onto d 4)))))
  case fsqrt d a k e => exact of_fields (onto (fmtBits e) (onto k (onto 0#6 (onto a (onto d 5)))))
  case frsqe d a b x => exact of_fields (onto 10#4 (onto x (onto b (onto a (onto d 6)))))
  case ftanh d a k e => exact of_fields (onto (fmtBits e) (onto k (onto 0#6 (onto a (onto d 7)))))
  case fsig d a k e => exact of_fields (onto (fmtBits e) (onto k (onto 0#6 (onto a (onto d 8)))))
  case ferf d a k e => exact of_fields (onto (fmtBits e) (onto k (onto 0#6 (onto a (onto d 9)))))
  case scalegen s a h k e => exact of_fields (onto (fmtBits e) (onto k (onto h (onto 0#5 (onto a (onto s (onto 0#3 10)))))))
  case scld s a d => exact of_fields (onto 0#4 (onto d (onto a (onto s (onto 0#3 11)))))
  case tbld t a => exact of_fields (onto 0#14 (onto a (onto t (onto 0#5 12))))
  case sfHint h x => exact of_hint h x rfl fun w op => by obtain op | op | op | op := op <;> simp only [rawSf, op]
  all_goals exact fun w _ h => nomatch h

/-- Every instruction of the MX map reads back (R336, R422). -/
theorem matrix (i : Instr) : ReadsBackIn 32 encodeMx rawMx i := by
  cases i
  case mxcall o x y e s => exact of_fields (onto 0#1 (onto s (onto 0#2 (onto (fmtBits e) (onto y (onto x (onto o 1)))))))
  case mxjoin o x y s => exact of_fields (onto 0#1 (onto s (onto 0#6 (onto y (onto x (onto o 2))))))
  case mxpart o x y s => exact of_fields (onto 0#1 (onto s (onto 0#6 (onto y (onto x (onto o 3))))))
  case mxnorm o x y s => exact of_fields (onto 0#1 (onto s (onto 0#6 (onto y (onto x (onto o 4))))))
  case mxzero o x y s => exact of_fields (onto 0#1 (onto s (onto 0#6 (onto y (onto x (onto o 5))))))
  case mxrda o x y e s => exact of_fields (onto 0#1 (onto s (onto 0#2 (onto (fmtBits e) (onto y (onto x (onto o 6)))))))
  case mxwra o x y e s => exact of_fields (onto 0#1 (onto s (onto 0#2 (onto (fmtBits e) (onto y (onto x (onto o 7)))))))
  case mxwb o x y e s => exact of_fields (onto 0#1 (onto s (onto 0#2 (onto (fmtBits e) (onto y (onto x (onto o 8)))))))
  case mxucw o x y s => exact of_fields (onto 0#1 (onto s (onto 0#6 (onto y (onto x (onto o 9))))))
  case mxHint h x => exact of_hint h x rfl fun w op => by obtain op | op | op | op := op <;> simp only [rawMx, op]
  all_goals exact fun w _ h => nomatch h

/-- Every instruction of the XF map reads back (R337, R447). -/
theorem copy (i : Instr) : ReadsBackIn 32 encodeXf rawXf i := by
  cases i
  case xcopy o x y z s => exact of_fields (onto 0#1 (onto s (onto z (onto y (onto x (onto o 1))))))
  case xstore o x y z s => exact of_fields (onto 0#1 (onto s (onto z (onto y (onto x (onto o 2))))))
  case xweight o x y z s => exact of_fields (onto 0#1 (onto s (onto z (onto y (onto x (onto o 3))))))
  case xtrans o x y z s => exact of_fields (onto 0#1 (onto s (onto z (onto y (onto x (onto o 4))))))
  case xgather o x y z s => exact of_fields (onto 0#1 (onto s (onto z (onto y (onto x (onto o 5))))))
  case xkv o x y z s => exact of_fields (onto 0#1 (onto s (onto z (onto y (onto x (onto o 6))))))
  case xsend o x y z s => exact of_fields (onto 0#1 (onto s (onto z (onto y (onto x (onto o 7))))))
  case xred o x y z s => exact of_fields (onto 0#1 (onto s (onto z (onto y (onto x (onto o 8))))))
  case xdecomp o x y z s => exact of_fields (onto 0#1 (onto s (onto z (onto y (onto x (onto o 9))))))
  case xfill o x y z s => exact of_fields (onto 0#1 (onto s (onto z (onto y (onto x (onto o 10))))))
  case xcancel o x y z s => exact of_fields (onto 0#1 (onto s (onto z (onto y (onto x (onto o 11))))))
  case xfHint h x => exact of_hint h x rfl fun w op => by obtain op | op | op | op := op <;> simp only [rawXf, op]
  all_goals exact fun w _ h => nomatch h

/-- Every micro-operation reads back (R439, R440). -/
theorem micro (i : Instr) : ReadsBackIn 64 encodeMicro rawMicro i := by
  cases i
  case mloada ra tr ic => exact of_fields (onto 0#32 (onto tr (onto ic (onto 0#22 (onto ra 1)))))
  case mloadb ra tr => exact of_fields (onto 0#32 (onto tr (onto 0#23 (onto ra 2))))
  case mmac => exact of_fields (onto 0#59 3)
  case mmact => exact of_fields (onto 0#59 4)
  case mscale ra rb => exact of_fields (onto 0#53 (onto rb (onto ra 5)))
  case mbcast => exact of_fields (onto 0#59 6)
  case mskip x => exact of_fields (onto 0#32 (onto x (onto 0#11 7)))
  case mnext ra rb => exact of_fields (onto 0#53 (onto rb (onto ra 8)))
  case mloop ct x => exact of_fields (onto 0#32 (onto x (onto 0#3 (onto ct (onto 0#6 9)))))
  case mnorm x => exact of_fields (onto 0#32 (onto x (onto 0#19 10)))
  case mend => exact of_fields (onto 0#59 11)
  case msync => exact of_fields (onto 0#59 12)
  all_goals exact fun w _ h => nomatch h

end ReadsBackIn

/-- Settles O2: in each map, the word of an instruction is the row of fields that its encoding table gives it. -/
theorem slotEncodingsRoundTrip : Obligations.SlotEncodingsRoundTrip := by
  unfold Obligations.SlotEncodingsRoundTrip
  intro i w hwf
  exact ⟨ReadsBackIn.ctl i w hwf, ReadsBackIn.scalar i w hwf, ReadsBackIn.loadStore i w hwf, ReadsBackIn.vector i w hwf, ReadsBackIn.special i w hwf,
    ReadsBackIn.matrix i w hwf, ReadsBackIn.copy i w hwf, ReadsBackIn.micro i w hwf⟩

/-! ### From a word to its instruction -/

/-- The bits of a word below bit `k`. -/
def below (w k : Nat) : Nat := w % 2 ^ k

theorem below_add (w lo n : Nat) : below w (lo + n) = below w lo + num w lo n * 2 ^ lo := by
  rw [below, below, num, Nat.pow_add, Nat.mod_mul, Nat.mul_comm (2 ^ lo)]

theorem below_of_lt {w n : Nat} (h : w < 2 ^ n) : below w n = w := Nat.mod_eq_of_lt h

theorem num_zero_eq (w n : Nat) : num w 0 n = below w n := by rw [num, pow_zero, Nat.div_one, below]

/-- A field that is known, in terms of the bits below its ends. -/
theorem num_eq_iff (w lo n c : Nat) : num w lo n = c ↔ below w (lo + n) = below w lo + c * 2 ^ lo := by
  rw [below_add, Nat.add_left_cancel_iff, Nat.mul_left_inj (Nat.two_pow_pos lo).ne']

/-- A field in its place is a difference, so that the fields of a word add up to it. -/
theorem put_num (w lo n : Nat) : ((put (num w lo n) lo : Nat) : Int) = below w (lo + n) - below w lo := by
  rw [below_add, put, Nat.cast_add, add_sub_cancel_left]

theorem toNat_fld (w lo n : Nat) : (fld w lo n).toNat = num w lo n := BitVec.toNat_ofNat ..

/-- The bits of a word with the opcode of a hint are the word of the hint. -/
theorem hint_word {w k : Nat} (op : num w 26 6 = k) (h : k / 4 = 14) : 0xe0000000 + put (fld w 26 2).toNat 26 + (fld w 0 26).toNat = below w 32 := by
  simp only [toNat_fld, num, put, below] at *
  omega

/-- If a decoder answers an instruction, `w` is its word. -/
def WordOf (enc : Instr → Option Nat) (w : Nat) (r : Except DecodeError Instr) : Prop := ∀ i, r = .ok i → enc i = some w

namespace WordOf

variable {enc : Instr → Option Nat} {w v : Nat} {i j : Instr} {r : Except DecodeError Instr}

theorem error (e : DecodeError) : WordOf enc w (.error e) := fun _ h => nomatch h

theorem ok (value : enc j = some v) (same : v = w) : WordOf enc w (.ok j) := by
  intro i h
  obtain rfl := Except.ok.inj h
  rw [value, same]

/-- A row with a condition on its fields, in front of the other rows of its opcode. -/
theorem row {c : Prop} [Decidable c] (value : enc j = some v) (same : c → v = w) (rest : WordOf enc w r) : WordOf enc w (if c then .ok j else r) := by
  split
  · exact ok value (same ‹c›)
  · exact rest

/-- A word that stands with its operand values is the word of a well-formed instruction. -/
theorem withOperands (h : WordOf enc w r) (hr : withOperands r = .ok i) : i.wf = true ∧ enc i = some w := by
  cases r with
  | error e => exact nomatch hr
  | ok j =>
    by_cases hwf : j.wf = true
    · obtain rfl := Except.ok.inj ((if_pos hwf).symm.trans hr)
      exact ⟨hwf, h j rfl⟩
    · exact nomatch (if_neg hwf).symm.trans hr

/-- Each row of the CTL, S and LS maps names every bit of its words (R331-R333): with the conditions of the row, the fields add up to the word. -/
theorem scalarSlots (w : Nat) :
    WordOf encodeCtl (below w 32) (rawCtl w) ∧ WordOf encodeS (below w 32) (rawS w) ∧ WordOf encodeLs (below w 32) (rawLs w) := by
  refine ⟨?_, ?_, ?_⟩ <;> [rw [rawCtl.eq_def]; rw [rawS.eq_def]; rw [rawLs.eq_def]]
  all_goals
    split
    all_goals
      rename_i op
      repeat' first
        | exact error _
        | refine ok rfl ?_
        | refine row rfl (fun _ => ?_) ?_
    all_goals first
      | exact hint_word op rfl
      | rw [← @Nat.cast_inj Int]
        simp only [toNat_fld, code_fmtAt, Nat.cast_add, put_num, num_zero_eq, num_eq_iff, Nat.reduceAdd, Nat.reducePow, Nat.reduceMul] at *
        omega

/-- The same for the V, SF, MX and XF maps (R334-R337). -/
theorem vectorSlots (w : Nat) :
    WordOf encodeV (below w 32) (rawV w) ∧ WordOf encodeSf (below w 32) (rawSf w) ∧ WordOf encodeMx (below w 32) (rawMx w) ∧
    WordOf encodeXf (below w 32) (rawXf w) := by
  refine ⟨?_, ?_, ?_, ?_⟩ <;> [rw [rawV.eq_def]; rw [rawSf.eq_def]; rw [rawMx.eq_def]; rw [rawXf.eq_def]]
  all_goals
    split
    all_goals
      rename_i op
      repeat' first
        | exact error _
        | refine ok rfl ?_
        | refine row rfl (fun _ => ?_) ?_
    all_goals first
      | exact hint_word op rfl
      | rw [← @Nat.cast_inj Int]
        simp only [toNat_fld, code_fmtAt, Nat.cast_add, put_num, num_zero_eq, num_eq_iff, Nat.reduceAdd, Nat.reducePow, Nat.reduceMul] at *
        omega

/-- The same for the micro-operations (R439, R440). -/
theorem micro (w : Nat) : WordOf encodeMicro (below w 64) (rawMicro w) := by
  rw [rawMicro.eq_def]
  split
  all_goals
    repeat' first
      | exact error _
      | refine ok rfl ?_
      | refine row rfl (fun _ => ?_) ?_
  all_goals
    zify
    simp only [toNat_fld, put_num, num_zero_eq, num_eq_iff, Nat.reduceAdd, Nat.reducePow, Nat.reduceMul] at *
    omega

end WordOf

/-- Settles O3: the rows of each map leave no bit of a word unnamed. -/
theorem slotWordsHaveOneMeaning : Obligations.SlotWordsHaveOneMeaning := by
  unfold Obligations.SlotWordsHaveOneMeaning
  intro i w
  refine ⟨fun hw => ?slot, fun hw => ?micro⟩
  case slot =>
    obtain ⟨ctl, scalar, loadStore⟩ := WordOf.scalarSlots w
    obtain ⟨vector, special, matrix, copy⟩ := WordOf.vectorSlots w
    rw [below_of_lt hw] at ctl scalar loadStore vector special matrix copy
    exact ⟨ctl.withOperands, scalar.withOperands, loadStore.withOperands, vector.withOperands, special.withOperands, matrix.withOperands, copy.withOperands⟩
  case micro => exact (below_of_lt hw ▸ WordOf.micro w).withOperands

end Sys2Proof.Machine
end

section
/-! What a slot instruction does alone in its bundle (R320, R323, R331-R337). -/

namespace Sys2Proof.Machine

open Sys2Proof.Safety

/-- An instruction with a word in the map of a slot runs that slot's operation alone. -/
def RunsAlone (pos : Nat) (enc : Instr → Option Nat) : Prop := ∀ i w s, enc i = some w → exec i s = runSlot pos (slotEff i) s

/-- Each instruction either has no word in a map or is dispatched to the slot of the map. -/
theorem runsAlone :
    RunsAlone 0 encodeCtl ∧ RunsAlone 1 encodeS ∧ RunsAlone 3 encodeLs ∧ RunsAlone 4 encodeV ∧ RunsAlone 6 encodeMx ∧ RunsAlone 7 encodeXf ∧
    RunsAlone 8 encodeSf := by
  refine ⟨?_, ?_, ?_, ?_, ?_, ?_, ?_⟩
  all_goals
    intro i w s h
    cases i
    all_goals first | exact absurd h.symm (Option.some_ne_none w) | rfl

/-- Settles O7: what a slot's map accepts has a word of that map, and each instruction with such a word runs its slot alone. -/
theorem slotInstructionsAreTheirEffects : Obligations.SlotInstructionsAreTheirEffects := by
  unfold Obligations.SlotInstructionsAreTheirEffects
  intro s p w i hp hi
  obtain ⟨ctlRuns, scalarRuns, loadStoreRuns, vectorRuns, matrixRuns, copyRuns, specialRuns⟩ := runsAlone
  obtain ⟨ctl, scalar, loadStore⟩ := WordOf.scalarSlots w
  obtain ⟨vector, special, matrix, copy⟩ := WordOf.vectorSlots w
  match p, hp with
  | 0, _ => exact ctlRuns i _ s (ctl.withOperands hi).2
  | 1, _ => exact scalarRuns i _ s (scalar.withOperands hi).2
  | 3, _ => exact loadStoreRuns i _ s (loadStore.withOperands hi).2
  | 4, _ => exact vectorRuns i _ s (vector.withOperands hi).2
  | 6, _ => exact matrixRuns i _ s (matrix.withOperands hi).2
  | 7, _ => exact copyRuns i _ s (copy.withOperands hi).2
  | 8, _ => exact specialRuns i _ s (special.withOperands hi).2

end Sys2Proof.Machine
end

section
/-! How commands enter the matrix and copy engines (R339-R341, R420-R422, R426, R444-R455). -/

namespace Sys2Proof.Machine

open Sys2Proof.Safety

/-! ### Operations that touch their own core -/

/-- Where an operation touches its own core alone, each issuer finds its core settled and keeps what its operation makes of it. -/
theorem core_slotDone_own {s : State} {k : Nat → State → State → State} (own : ∀ q t c, c ≠ q → coreAt (k q (settled s) t) c = coreAt t c) {q : Nat}
    (hq : q ∈ issuers s) : ∃ t, coreAt t q = coreAt (settled s) q ∧ coreAt (slotDone k s) q = coreAt (k q (settled s) t) q := by
  have turns : ∀ (l : List Nat), l.Nodup → ∀ u, (q ∉ l → coreAt (l.foldl (fun t q => k q (settled s) t) u) q = coreAt u q) ∧
      (q ∈ l → ∃ t, coreAt t q = coreAt u q ∧ coreAt (l.foldl (fun t q => k q (settled s) t) u) q = coreAt (k q (settled s) t) q) := by
    intro l
    induction l with
    | nil => exact fun _ _ => ⟨fun _ => rfl, nofun⟩
    | cons c l ih =>
      intro hl u
      obtain ⟨hc, hl⟩ := List.nodup_cons.1 hl
      obtain ⟨apart, here⟩ := ih hl (k c (settled s) u)
      refine ⟨fun hn => ?_, fun hm => ?_⟩
      · obtain ⟨hne, hn⟩ := not_or.1 (mt List.mem_cons.2 hn)
        exact (apart hn).trans (own c u q hne)
      · by_cases hqc : q = c
        · subst hqc
          exact ⟨u, rfl, apart hc⟩
        · obtain ⟨t, ht, done⟩ := here ((List.mem_cons.1 hm).resolve_left hqc)
          exact ⟨t, ht.trans (own c u q hqc), done⟩
  exact (turns (issuers s) (issuers_nodup s) (settled s)).2 hq

theorem task_settled (s : State) (q : Nat) : (coreAt (settled s) q).b.task = (coreAt s q).b.task :=
  body_onCores Body.task (f := fun _ => settle) (fun _ _ => rfl) (issuers s) s q

/-- What the bundle of such an operation leaves on an issuer, but for what its end changes. -/
theorem standing_issued_own {s : State} (h : Ready s) {k : Nat → State → State → State}
    (own : ∀ q t c, c ≠ q → coreAt (k q (settled s) t) c = coreAt t c)
    (task : ∀ q t, (coreAt (k q (settled s) t) q).b.task = (coreAt t q).b.task) {q : Nat} (hq : q ∈ issuers s) :
    ∃ t, coreAt t q = coreAt (settled s) q ∧ standing (coreAt (issued k s) q).b = standing (coreAt (k q (settled s) t) q).b := by
  have runs (c : Nat) (hc : c ∈ issuers s) : inTend (slotDone k s) c = false := by
    obtain ⟨t, ht, done⟩ := core_slotDone_own own hc
    have same : (coreAt (slotDone k s) c).b.task = (coreAt s c).b.task := by rw [done, task, ht, task_settled]
    rw [inTend_congr same, not_inTend_of_ready h hc]
  obtain ⟨t, ht, done⟩ := core_slotDone_own own hq
  exact ⟨t, ht, by rw [issued, body_finishBundle standing standing_advance runs, done]⟩

/-! ### A command at issue -/

/-- The token record of a command that enters its engine (R247). -/
def pendingRec (engine : BitVec 4) (f : Refetch) : TokenRec :=
  { used := true, status := .pending, code := 0, short := false, tout := false, engine := engine, progress := 0, pc := f.pc, vcc := BitVec.ofNat 48 f.vcc,
    snap := f.snap, taken := false }

/-- A command is logged for a rerun (R250): in the external log, or among the commands of its phase. -/
def loggedCmd (ext int : Bool) (f : Refetch) (b : Body) : Body :=
  let b := if ext then (if b.extLog.length < 64 then { b with extLog := b.extLog ++ [logOf f] } else { b with noroll := true }) else b
  if int then { b with phaseCmds := b.phaseCmds ++ [f] } else b

/-- A command has entered its engine outside a rerun (R341, R421): the exchange, its token, then `push`, its place in the queue. -/
def entersCmd (ext int sw : Bool) (f : Refetch) (engine : BitVec 4) (push : Body → Body) (c : Nat) (s : State) : State :=
  updBody (setTok (if sw then updRegs s c (exchange (f.slot == 6)) else s) c f.tok (fun _ => pendingRec engine f)) c (fun b => loggedCmd ext int f (push b))

section

variable {c q : Nat} {o s : State} {ext int sw : Bool} {f : Refetch} {toks : List Nat} {engine : BitVec 4}

/-- A change of a core counts for the body the core has. -/
theorem updBody_congr {g h : Body → Body} (same : g (coreAt s c).b = h (coreAt s c).b) : updBody s c g = updBody s c h := by
  simp only [updBody, updCore, Tab.upd]
  rw [show g (s.cores.get .zero c).b = h (s.cores.get .zero c).b from same]

theorem enterCmd_of_noCheck {push : List Nat → Option (BitVec 8) → Body → Body} (hcheck : (coreAt s c).b.check = none)
    (hpush : ∀ ins fault b, (push ins fault b).check = b.check) :
    enterCmd c o s ext int sw f toks engine push =
      entersCmd ext int sw f engine (push (toks.filter (tokLive o c))
        ((toks.filter (fun t => (tokRec o c t).used && (tokRec o c t).status == .fault)).head?.map (fun t => (tokRec o c t).code))) c s := by
  have swapped : (coreAt (if sw = true then updRegs s c (exchange (f.slot == 6)) else s) c).b.check = none := by
    split
    · rw [core_updRegs, if_pos rfl, hcheck]
    · exact hcheck
  have noLog : nextLog (if sw = true then updRegs s c (exchange (f.slot == 6)) else s) c = none := by rw [nextLog, swapped]
  simp only [enterCmd, binds, noLog, Option.isSome_none, Bool.and_false, Bool.false_eq_true, if_false, show (none == some (logOf f)) = false from rfl]
  refine updBody_congr ?_
  have kept : (coreAt (setTok (if sw = true then updRegs s c (exchange (f.slot == 6)) else s) c f.tok (fun _ => pendingRec engine f)) c).b.check = none := by
    rw [core_setTok, if_pos rfl, swapped]
  have pushed := (hpush (toks.filter (tokLive o c))
    ((toks.filter (fun t => (tokRec o c t).used && (tokRec o c t).status == .fault)).head?.map (fun t => (tokRec o c t).code)) _).trans kept
  unfold pendingRec at *
  generalize push _ _ _ = b at pushed ⊢
  by_cases room : b.extLog.length < 64
  all_goals cases ext <;> simp only [loggedCmd, room, pushed, Bool.false_eq_true, if_false, if_true]

theorem core_entersCmd_other {push : Body → Body} (hq : q ≠ c) : coreAt (entersCmd ext int sw f engine push c s) q = coreAt s q := by
  rw [entersCmd, core_updBody, if_neg hq, core_setTok, if_neg hq]
  split
  · rw [core_updRegs, if_neg hq]
  · rfl

/-- The registers behind the exchange. -/
def exchanged (sw mx : Bool) (r : Regs) : Regs := if sw then exchange mx r else r

theorem body_entersCmd {push : Body → Body} : (coreAt (entersCmd ext int sw f engine push c s) c).b =
    loggedCmd ext int f (push { (coreAt s c).b with
      r := { exchanged sw (f.slot == 6) (coreAt s c).b.r with toks := (exchanged sw (f.slot == 6) (coreAt s c).b.r).toks.upd .free f.tok (fun _ => pendingRec engine f) } }) := by
  cases sw <;> simp [entersCmd, exchanged]

/-- A reading of a body in which the log of a rerun has no part. -/
structure OffLog {α : Type} (g : Body → α) : Prop where
  log : ∀ b l, g { b with extLog := l } = g b
  roll : ∀ b n, g { b with noroll := n } = g b
  phase : ∀ b l, g { b with phaseCmds := l } = g b

theorem OffLog.loggedCmd {α : Type} {g : Body → α} (off : OffLog g) (b : Body) : g (loggedCmd ext int f b) = g b := by
  unfold Machine.loggedCmd
  cases ext <;> cases int <;> simp only [Bool.false_eq_true, if_false, if_true, off.phase]
  all_goals split <;> simp only [off.log, off.roll]

/-- Of a body that enters a command only the registers, the queue and the log of a rerun change. -/
theorem OffLog.entersCmd {α : Type} {g : Body → α} (off : OffLog g) {push : Body → Body} (hr : ∀ b r, g { b with r := r } = g b)
    (hpush : ∀ b, g (push b) = g b) : g (coreAt (entersCmd ext int sw f engine push c s) q).b = g (coreAt s q).b := by
  by_cases hq : q = c
  · rw [hq, body_entersCmd, off.loggedCmd, hpush, hr]
  · rw [core_entersCmd_other hq]

end

theorem offLog_r : OffLog Body.r := ⟨fun _ _ => rfl, fun _ _ => rfl, fun _ _ => rfl⟩
theorem offLog_detected : OffLog Body.detected := ⟨fun _ _ => rfl, fun _ _ => rfl, fun _ _ => rfl⟩
theorem offLog_task : OffLog Body.task := ⟨fun _ _ => rfl, fun _ _ => rfl, fun _ _ => rfl⟩
theorem offLog_mxQ : OffLog Body.mxQ := ⟨fun _ _ => rfl, fun _ _ => rfl, fun _ _ => rfl⟩
theorem offLog_xfQ : OffLog Body.xfQ := ⟨fun _ _ => rfl, fun _ _ => rfl, fun _ _ => rfl⟩
theorem offLog_commitQ : OffLog Body.commitQ := ⟨fun _ _ => rfl, fun _ _ => rfl, fun _ _ => rfl⟩

/-! ### A fault of the leading core -/

/-- The leading core's fault is the first of what stops a bundle: the other cores add to it. -/
theorem evalSlots_of_lead_fault {s o : State} {pos : Nat} {f : Eff} {code : BitVec 8} {a : Word} (hf : f (lead s) o o = .error (.fault code a none)) :
    ∃ rest, (evalSlots (issuers s) [(pos, f)] o).2 = (lead s, pos, .fault code a none) :: rest := by
  obtain ⟨l, leads, -⟩ := issuers_eq s
  rw [evalSlots, leads, List.foldl_cons]
  refine List.foldlRecOn l _ (motive := fun (k : State × List (Nat × Nat × Stop)) => ∃ rest, k.2 = (lead s, pos, .fault code a none) :: rest)
    ⟨[], by simp [hf]⟩ fun k ⟨rest, hk⟩ q _ => ?_
  simp only [List.foldl_cons, List.foldl_nil]
  split
  · exact ⟨rest, hk⟩
  · split
    · exact ⟨rest, hk⟩
    · exact ⟨rest ++ _, by rw [hk, List.cons_append]⟩

/-- A fault of the leading core that no token reports is taken by the group, whatever the other cores answer (R244, R273). -/
theorem runSlot_fault {s : State} (h : Ready s) {pos : Nat} {f : Eff} {code : BitVec 8} {a : Word}
    (hf : f (lead s) (settled s) (settled s) = .error (.fault code a none)) :
    runSlot pos f s = .next (takeFault (issuers s) (faultHere s (lead s) code pos none a) s) := by
  obtain ⟨can, clear, -, -⟩ := h
  obtain ⟨rest, stops⟩ := evalSlots_of_lead_fault (pos := pos) hf
  have fault : firstFault (evalSlots (issuers s) [(pos, f)] (settled s)).2 = some (lead s, pos, code, a, none) := by rw [stops]; rfl
  simp only [issuers, lead, settled] at clear fault ⊢
  simp only [runSlot, issueSlots, can, clear, fault, Bool.not_true, Bool.false_eq_true, if_false, Option.map_none]

theorem runSlot_hint {s : State} (h : Ready s) {i : Instr} {pos : Nat} (hi : exec i s = runSlot pos effHint s) (hp : pos ≠ 0) :
    exec i s = .next (issued (fun _ _ t => t) s) :=
  issues_ok h hi hp (fun _ _ _ => rfl) (fun _ _ _ => rfl)

/-! ### MX words (R420, R421, R426) -/

/-- The command of an MX word stands last in the queue of its engine. -/
def mxPush (o : State) (q op : Nat) (et : Fmt) (tout t0 t1 : BitVec 6) (sw : Bool) (b : Body) : Body :=
  { b with mxQ := b.mxQ ++ [newMx (cmdNow o q 6 op et tout.toNat (snapM (coreAt o q).b.r sw)) (waitsOn o q tout [t0, t1]) (ownFirst o q) (faultsOn o q tout [t0, t1])] }

/-- The joint state behind an MX word: MXJOIN sets it and MXPART clears it (R434). -/
def joining (op q : Nat) (t : State) : State :=
  if op = 2 then updRegs t q (fun r => { r with joined := true }) else if op = 3 then updRegs t q (fun r => { r with joined := false }) else t

/-- What an MX word that its command accepts makes of its core. -/
def mxEnters (op : Nat) (et : Fmt) (tout t0 t1 : BitVec 6) (sw : Bool) (q : Nat) (o t : State) : State :=
  let x := snapM (coreAt o q).b.r sw
  let ext := mxExternal q op x
  joining op q (entersCmd ext ((op == 6 || op == 8) && !ext) sw (cmdNow o q 6 op et tout.toNat x) 1 (mxPush o q op et tout t0 t1 sw) q t)

section

variable {op : Nat} {et : Fmt} {tout t0 t1 : BitVec 6} {q c : Nat} {o t : State}

theorem binds_of_noCheck {ext : Bool} {f : Refetch} (h : (coreAt t q).b.check = none) : binds t q ext f = false := by
  rw [binds, nextLog, h]
  exact Bool.and_false _

theorem effMx_of_illegal {sw : BitVec 1} (notLive : tokLive o q tout.toNat = false)
    (legal : mxIllegal (coreAt o q).b op et (snapM (coreAt o q).b.r (sw == 1)) = true) : effMx op et tout t0 t1 sw q o t = flt codeIllegal := by
  simp only [effMx, notLive, legal, Bool.false_eq_true, false_and, if_false, if_true]

theorem effMx_of_live {sw : BitVec 1} (hcheck : (coreAt t q).b.check = none) (live : tokLive o q tout.toNat = true) :
    effMx op et tout t0 t1 sw q o t = flt codeTokenLive := by
  simp only [effMx, live, binds_of_noCheck hcheck, Bool.not_false, and_self, if_true]

theorem effMx_of_accepts {sw : BitVec 1} (h : MxAccepts o q op et tout (sw == 1)) (hcheck : (coreAt t q).b.check = none) :
    behindTable (effMx op et tout t0 t1 sw) q o t = .ok (mxEnters op et tout t0 t1 (sw == 1) q o t) := by
  obtain ⟨notLive, legal, microcode, join, joined, region, room, table, -⟩ := h
  have entered : effMx op et tout t0 t1 sw q o t = .ok (mxEnters op et tout t0 t1 (sw == 1) q o t) := by
    unfold effMx mxEnters
    dsimp only
    generalize staged : snapM (coreAt o q).b.r (sw == 1) = x at *
    have privileged : ¬ (op = 9 ∧ (mxUword x < 512 ∨ mxWent x = true ∧ mxEntry x < 32)) := by
      rintro ⟨e, low | ⟨went, low⟩⟩
      · exact absurd (microcode e).1 (Nat.not_le.2 low)
      · exact absurd ((microcode e).2.2 went) (Nat.not_le.2 low)
    have beyond : ¬ (op = 9 ∧ 1024 < mxUword x + mxUcount x) := fun ⟨e, far⟩ => absurd (microcode e).2.1 (Nat.not_le.2 far)
    have alone : ¬ (op = 2 ∧ (!isGroup o q) = true ∨ op = 1 ∧ mxJoint x = true ∧ (!(coreAt o q).b.r.joined) = true) := by
      rintro (⟨e, group⟩ | ⟨e, joint, apart⟩)
      · simp [join e] at group
      · simp [joined e joint] at apart
    have inside (e : (op == 1 || op == 4 || op == 5 || op == 6 || op == 7 || op == 8) = true) := region (by
      simp only [Bool.or_eq_true, beq_iff_eq] at e
      omega)
    rw [if_neg (by simp [notLive]), legal, if_neg Bool.false_ne_true, if_neg privileged, if_neg beyond, if_neg alone,
      if_neg (fun ⟨e, out⟩ => Bool.false_ne_true ((inside e).1.symm.trans out)), if_neg (fun ⟨e, bad⟩ => Bool.false_ne_true ((inside e).2.symm.trans bad)),
      if_neg (fun full => absurd room (Nat.not_lt.2 full.1)), enterCmd_of_noCheck hcheck]
    · subst staged
      rfl
    · exact fun _ _ _ => rfl
  simp only [behindTable, entered, table, Bool.false_eq_true, if_false]

theorem core_joining_other (h : c ≠ q) : coreAt (joining op q t) c = coreAt t c := by
  unfold joining
  split
  · rw [core_updRegs, if_neg h]
  · split
    · rw [core_updRegs, if_neg h]
    · rfl

theorem core_mxEnters_other {sw : Bool} (h : c ≠ q) : coreAt (mxEnters op et tout t0 t1 sw q o t) c = coreAt t c := by
  rw [mxEnters, core_joining_other h, core_entersCmd_other h]

theorem body_joining : (coreAt (joining op q t) q).b =
    { (coreAt t q).b with r := { (coreAt t q).b.r with joined := if op = 2 then true else if op = 3 then false else (coreAt t q).b.r.joined } } := by
  unfold joining
  split
  · simp
  · split <;> simp

/-- An MX word that its command accepts has entered its engine (R420, R421). -/
theorem mxEntered_mxEnters {sw : Bool} (found : coreAt t q = coreAt o q) : MxEntered o (mxEnters op et tout t0 t1 sw q o t) q op et tout t0 t1 sw := by
  simp only [MxEntered, mxEnters, tokRec, body_joining, body_entersCmd, offLog_r.loggedCmd, offLog_mxQ.loggedCmd, mxPush, found]
  refine ⟨trivial, ?_, fun n _ other => ?_, ?_, ?_, ?_⟩
  · exact (Tab.get_upd ..).trans (if_pos rfl)
  · refine (Tab.get_upd ..).trans ((if_neg other).trans ?_)
    cases sw <;> rfl
  all_goals cases sw <;> rfl

theorem MxEntered.congr {sw : Bool} {u : State} (same : standing (coreAt u q).b = standing (coreAt t q).b) (h : MxEntered o t q op et tout t0 t1 sw) :
    MxEntered o u q op et tout t0 t1 sw := by
  have kept {α : Type} (g : Body → α) := congrArg g same
  have queue : (coreAt u q).b.mxQ = (coreAt t q).b.mxQ := kept (·.mxQ)
  have toks : (coreAt u q).b.r.toks = (coreAt t q).b.r.toks := kept (·.r.toks)
  have live : (coreAt u q).b.r.liveM = (coreAt t q).b.r.liveM := kept (·.r.liveM)
  have shad : (coreAt u q).b.r.shadM = (coreAt t q).b.r.shadM := kept (·.r.shadM)
  have joined : (coreAt u q).b.r.joined = (coreAt t q).b.r.joined := kept (·.r.joined)
  simpa only [MxEntered, tokRec, queue, toks, live, shad, joined] using h

theorem OffLog.mxEnters {α : Type} {g : Body → α} (off : OffLog g) {sw : Bool} (hr : ∀ b r, g { b with r := r } = g b)
    (hq : ∀ b l, g { b with mxQ := l } = g b) : g (coreAt (mxEnters op et tout t0 t1 sw q o t) c).b = g (coreAt t c).b := by
  by_cases hc : c = q
  · rw [hc, Machine.mxEnters, body_joining, hr, off.entersCmd hr]
    exact fun b => hq b _
  · rw [core_mxEnters_other hc]

end

/-- An MX word whose staging every issuer accepts enters their engines. -/
theorem exec_mx_accepted {s : State} (h : Ready s) {i : Instr} {op : Nat} {et : Fmt} {tout t0 t1 : BitVec 6} {sw : BitVec 1}
    (hi : exec i s = runSlot 6 (behindTable (effMx op et tout t0 t1 sw)) s) (accepts : ∀ q ∈ issuers s, MxAccepts (settled s) q op et tout (sw == 1)) :
    ∃ t, exec i s = .next t ∧ ∀ q ∈ issuers s, MxEntered (settled s) t q op et tout t0 t1 (sw == 1) := by
  have own (q : Nat) (t : State) (c : Nat) (hc : c ≠ q) : coreAt (mxEnters op et tout t0 t1 (sw == 1) q (settled s) t) c = coreAt t c := core_mxEnters_other hc
  refine ⟨_, issues_own h (fun q t => (coreAt t q).b.check = none) hi (by decide) (fun q hq => (accepts q hq).2.2.2.2.2.2.2.2)
    (fun q hq t ht => effMx_of_accepts (accepts q hq) ht) (fun q c t hc ht => by rwa [own q t c hc])
    (fun q t c => offLog_detected.mxEnters (fun _ _ => rfl) (fun _ _ => rfl)), fun q hq => ?_⟩
  obtain ⟨t, found, same⟩ := standing_issued_own h own
    (fun q t => offLog_task.mxEnters (fun _ _ => rfl) (fun _ _ => rfl)) hq
  exact MxEntered.congr same (mxEntered_mxEnters found)

/-- An MX word outside a rerun faults where its token is live, and then where its staging is refused (R426). -/
theorem exec_mx_fault {s : State} (h : Ready s) {i : Instr} {op : Nat} {et : Fmt} {tout t0 t1 : BitVec 6} {sw : BitVec 1} {code : BitVec 8}
    (hi : exec i s = runSlot 6 (behindTable (effMx op et tout t0 t1 sw)) s)
    (hf : effMx op et tout t0 t1 sw (lead s) (settled s) (settled s) = flt code) :
    exec i s = .next (takeFault (issuers s) (faultHere s (lead s) code 6 none 0) s) :=
  hi.trans (runSlot_fault h (by rw [behindTable, hf]; rfl))

/-! ### XF words (R420, R421, R444-R454) -/

/-- The command an XF word makes: XCANCEL waits for no token, and names those it stops (R455). -/
def xfCmdOf (o : State) (q op : Nat) (tout t0 t1 t2 : BitVec 6) (sw : Bool) : XfCmd :=
  let f := cmdNow o q 7 op .i8 tout.toNat (snapX (coreAt o q).b.r sw)
  let names := tokIns tout.toNat [t0.toNat, t1.toNat, t2.toNat]
  let toks := if op = 11 then [] else names
  { newXf f (toks.filter (tokLive o q)) (ownFirst o q)
      ((toks.filter (fun t => (tokRec o q t).used && (tokRec o q t).status == .fault)).head?.map (fun t => (tokRec o q t).code)) (op == 2) with
    did := if op = 11 then names else [] }

/-- The command of an XF word stands last in the queue of its engine. -/
def xfPush (o : State) (q op : Nat) (tout t0 t1 t2 : BitVec 6) (sw : Bool) (b : Body) : Body := { b with xfQ := b.xfQ ++ [xfCmdOf o q op tout t0 t1 t2 sw] }

/-- The command of an XF word has entered its engine. -/
def xfIn (op : Nat) (tout t0 t1 t2 : BitVec 6) (sw : Bool) (q : Nat) (o t : State) : State :=
  let x := snapX (coreAt o q).b.r sw
  let ext := xfExternal q op x
  entersCmd ext (op != 2 && op != 11 && !ext) sw (cmdNow o q 7 op .i8 tout.toNat x) 0 (xfPush o q op tout t0 t1 t2 sw) q t

/-- What an XF word that its command accepts makes of its core: an XSTORE waits in the commit queue as well (R447), and an XCANCEL
stops the commands it names. -/
def xfEnters (op : Nat) (tout t0 t1 t2 : BitVec 6) (sw : Bool) (q : Nat) (o t : State) : State :=
  let u := xfIn op tout t0 t1 t2 sw q o t
  if op = 2 then queued q o (.xstore tout.toNat) u
  else if op = 11 then cancelCmds q (tokIns tout.toNat [t0.toNat, t1.toNat, t2.toNat]) u else u

section

variable {op : Nat} {tout t0 t1 t2 : BitVec 6} {q c : Nat} {o t : State}

theorem need_bind_of_true {α : Type} {b : Bool} {code : BitVec 8} {p : Word} {f : Unit → Except Stop α} (h : b = true) : (need b code p >>= f) = f () := by
  rw [h]
  rfl

theorem need_bind_of_false {α : Type} {b : Bool} {code : BitVec 8} {p : Word} {f : Unit → Except Stop α} (h : b = false) :
    (need b code p >>= f) = fltAt code p := by
  rw [h]
  rfl

theorem effXf_of_live {sw : BitVec 1} (hcheck : (coreAt t q).b.check = none) (live : tokLive o q tout.toNat = true) :
    effXf op tout t0 t1 t2 sw q o t = flt codeTokenLive :=
  need_bind_of_false (by rw [live, binds_of_noCheck hcheck]; rfl)

theorem effXf_of_illegal {sw : BitVec 1} (notLive : tokLive o q tout.toNat = false) (refused : xfIllegal op (snapX (coreAt o q).b.r (sw == 1)) = true) :
    effXf op tout t0 t1 t2 sw q o t = flt codeIllegal :=
  (need_bind_of_true (by rw [notLive]; rfl)).trans (need_bind_of_false (by rw [refused]; rfl))

theorem offLog_xfIn {α : Type} {g : Body → α} (off : OffLog g) {sw : Bool} (hr : ∀ b r, g { b with r := r } = g b)
    (hq : ∀ b l, g { b with xfQ := l } = g b) : g (coreAt (xfIn op tout t0 t1 t2 sw q o t) c).b = g (coreAt t c).b := by
  rw [xfIn, off.entersCmd hr]
  exact fun b => hq b _

theorem effXf_of_accepts {sw : BitVec 1} (h : XfAccepts o q op tout (sw == 1)) (hcheck : (coreAt t q).b.check = none)
    (hroom : op = 2 → (coreAt t q).b.commitQ.length < 256) :
    effXf op tout t0 t1 t2 sw q o t = .ok (xfEnters op tout t0 t1 t2 (sw == 1) q o t) := by
  obtain ⟨notLive, legal, weights, provisional, room, -, -⟩ := h
  have inBuffer : (op != 3 || decide (xwEnd (snapX (coreAt o q).b.r (sw == 1)) ≤ 262144)) = true := by
    simp only [bne_iff_ne, Bool.or_eq_true, decide_eq_true_eq]
    exact Decidable.not_or_of_imp weights
  have retractable : (!isProv o q || !(op == 7 || op == 8 || (op == 2 && !xstoreRetr o q (snapX (coreAt o q).b.r (sw == 1))))) = true := by
    cases prov : isProv o q with
    | false => rfl
    | true =>
      obtain ⟨send, red, store⟩ := provisional prov
      by_cases e : op = 2
      · rw [store e]
        simp [e]
      · simp [send, red, e]
  refine (need_bind_of_true (by rw [notLive]; rfl)).trans ((need_bind_of_true (by rw [legal]; rfl)).trans
    ((need_bind_of_true inBuffer).trans ((need_bind_of_true retractable).trans ?_)))
  rw [if_neg (fun full => absurd room (Nat.not_lt.2 full.1)), enterCmd_of_noCheck hcheck]
  · by_cases e : op = 2
    · rw [if_pos e, xfEnters, if_pos e]
      have kept := offLog_xfIn (op := op) (tout := tout) (t0 := t0) (t1 := t1) (t2 := t2) (q := q) (c := q) (o := o) (t := t) offLog_commitQ (sw := sw == 1)
        (fun _ _ => rfl) (fun _ _ => rfl)
      exact commit_of_room (s := xfIn op tout t0 t1 t2 (sw == 1) q o t) (kept ▸ hroom e)
    · rw [if_neg e, xfEnters, if_neg e]
      rfl
  · exact fun _ _ _ => rfl

theorem xfCmdOf_of_ne {sw : Bool} (h : op ≠ 11) : xfCmdOf o q op tout t0 t1 t2 sw =
    newXf (cmdNow o q 7 op .i8 tout.toNat (snapX (coreAt o q).b.r sw)) (waitsOn o q tout [t0, t1, t2]) (ownFirst o q) (faultsOn o q tout [t0, t1, t2])
      (op == 2) := by
  simp only [xfCmdOf, if_neg h]
  rfl

theorem body_xfEnters {sw : Bool} (h : op ≠ 11) : (coreAt (xfEnters op tout t0 t1 t2 sw q o t) q).b =
    { (coreAt (xfIn op tout t0 t1 t2 sw q o t) q).b with commitQ := (coreAt (xfIn op tout t0 t1 t2 sw q o t) q).b.commitQ ++
        if op = 2 then [{ body := .xstore tout.toNat, pc := (coreAt o q).b.r.pc, vcc := (coreAt o q).b.r.vcc }] else [] } := by
  by_cases e : op = 2
  · simp [xfEnters, if_pos e, queued]
  · simp [xfEnters, if_neg e, if_neg h]

/-- An XF word that its command accepts, and that is no XCANCEL, has entered its engine. -/
theorem xfEntered_xfEnters {sw : Bool} (h : op ≠ 11) (found : coreAt t q = coreAt o q) :
    XfEntered o (xfEnters op tout t0 t1 t2 sw q o t) q op tout t0 t1 t2 sw := by
  simp only [XfEntered, tokRec, body_xfEnters h, xfIn, body_entersCmd, offLog_r.loggedCmd, offLog_xfQ.loggedCmd, offLog_commitQ.loggedCmd, xfPush,
    xfCmdOf_of_ne h, found]
  refine ⟨trivial, ?_, fun n _ other => ?_, ?_, ?_, trivial⟩
  · exact (Tab.get_upd ..).trans (if_pos rfl)
  · refine (Tab.get_upd ..).trans ((if_neg other).trans ?_)
    cases sw <;> rfl
  all_goals cases sw <;> rfl

theorem XfEntered.congr {sw : Bool} {u : State} (same : standing (coreAt u q).b = standing (coreAt t q).b) (h : XfEntered o t q op tout t0 t1 t2 sw) :
    XfEntered o u q op tout t0 t1 t2 sw := by
  have kept {α : Type} (g : Body → α) := congrArg g same
  have queue : (coreAt u q).b.xfQ = (coreAt t q).b.xfQ := kept (·.xfQ)
  have commits : (coreAt u q).b.commitQ = (coreAt t q).b.commitQ := kept (·.commitQ)
  have toks : (coreAt u q).b.r.toks = (coreAt t q).b.r.toks := kept (·.r.toks)
  have live : (coreAt u q).b.r.liveX = (coreAt t q).b.r.liveX := kept (·.r.liveX)
  have shad : (coreAt u q).b.r.shadX = (coreAt t q).b.r.shadX := kept (·.r.shadX)
  simpa only [XfEntered, tokRec, queue, commits, toks, live, shad] using h

end

/-! ### XCANCEL (R455) -/

/-- What XCANCEL does about one command. -/
def cancelOne (c : Nat) (s : State) (x : XfCmd) : State :=
  if inFlight s c x then updXf c x (fun y => { y with cancel := true }) s else endXf c x .part 0 s

/-- A command but for what a stop, or the end of another command, changes of it. -/
def plainXf (x : XfCmd) : XfCmd := { x with cancel := false, ins := [], fault := none }

/-- A command has been asked to stop, and has a line in flight (R455). -/
def Stopping (x : XfCmd) : Prop := x.cancel = true ∧ (x.sent ≠ [] ∨ hostSource x = true ∨ (x.op = 9 ∧ x.outb ≠ []))

/-- Whether a command is `x`, by its token and its bundle. -/
def isThis (x y : XfCmd) : Bool := isCmd x.tok x.vcc y && y.orphan == x.orphan

/-- A command learns that `x` has ended PARTIAL (R234, R455). -/
def parted (x y : XfCmd) : XfCmd :=
  if y.orphan = false then { y with ins := (tokEnded x.tok none y.ins y.fault).1, fault := (tokEnded x.tok none y.ins y.fault).2 } else y

section

variable {c q : Nat} {s : State} {x y : XfCmd}

theorem core_endXf_part_other (h : q ≠ c) (ho : x.orphan = false) : coreAt (endXf c x .part 0 s) q = coreAt s q := by
  simp only [endXf, endTok, ho, reduceCtorEq, and_false, Bool.false_eq_true, if_false, core_updBody, core_setTok, coreAt_withMod, h]

/-- Of a body a command that ends leaves all but the tokens, the queues that name them, and the wait of a rollback. -/
theorem body_endXf_part {α : Type} (g : Body → α) (hg : ∀ b r l m w k, g { b with r := r, xfQ := l, wbQ := w, mxQ := m, refetchWait := k } = g b) (ho : x.orphan = false) :
    g (coreAt (endXf c x .part 0 s) q).b = g (coreAt s q).b := by
  by_cases h : q = c
  · subst h
    simp only [endXf, endTok, ho, reduceCtorEq, and_false, Bool.false_eq_true, if_false, core_updBody, core_setTok, coreAt_withMod, if_true]
    exact hg (coreAt s q).b _ _ _ _ _
  · rw [core_endXf_part_other h ho]

theorem xfQ_endXf_part (ho : x.orphan = false) :
    (coreAt (endXf c x .part 0 s) c).b.xfQ = ((coreAt s c).b.xfQ.filter (fun y => !isThis x y)).map (parted x) := by
  simp only [endXf, endTok, ho, reduceCtorEq, and_false, Bool.false_eq_true, if_false, core_updBody, core_setTok, coreAt_withMod, if_true, isThis]
  rfl

theorem tokRec_endXf_part (ho : x.orphan = false) {n : Nat} (hn : n ≠ x.tok) : tokRec (endXf c x .part 0 s) c n = tokRec s c n := by
  simp only [endXf, endTok, ho, reduceCtorEq, and_false, Bool.false_eq_true, if_false, core_updBody, core_setTok, coreAt_withMod, if_true, tokRec, Tab.get_upd, hn]

theorem core_updXf_other {f : XfCmd → XfCmd} (h : q ≠ c) (ho : x.orphan = false) : coreAt (updXf c x f s) q = coreAt s q := by
  simp only [updXf, ho, Bool.false_eq_true, if_false, core_updBody, core_setTok, h]

theorem body_updXf {α : Type} {f : XfCmd → XfCmd} (g : Body → α) (hg : ∀ b r l, g { b with r := r, xfQ := l } = g b)
    (ho : x.orphan = false) : g (coreAt (updXf c x f s) q).b = g (coreAt s q).b := by
  by_cases h : q = c
  · subst h
    simp only [updXf, ho, Bool.false_eq_true, if_false, core_updBody, core_setTok, if_true]
    exact hg (coreAt s q).b _ _
  · rw [core_updXf_other h ho]

theorem xfQ_updXf {f : XfCmd → XfCmd} (ho : x.orphan = false) :
    (coreAt (updXf c x f s) c).b.xfQ = (coreAt s c).b.xfQ.map (fun y => if isThis x y then f y else y) := by
  simp only [updXf, ho, Bool.false_eq_true, if_false, core_updBody, core_setTok, if_true, isThis]

theorem tokRec_updXf {f : XfCmd → XfCmd} (ho : x.orphan = false) {n : Nat} (hn : n ≠ x.tok) : tokRec (updXf c x f s) c n = tokRec s c n := by
  simp only [updXf, ho, Bool.false_eq_true, if_false, core_updBody, core_setTok, if_true, tokRec, Tab.get_upd, hn]

end

theorem isThis_of_plain {x y : XfCmd} (same : plainXf y = plainXf x) : isThis x y = true := by
  have like {α : Type} (g : XfCmd → α) : g (plainXf y) = g (plainXf x) := congrArg g same
  have tok : y.tok = x.tok := like (·.tok)
  have vcc : y.vcc = x.vcc := like (·.vcc)
  have orphan : y.orphan = x.orphan := like (·.orphan)
  simp [isThis, isCmd, tok, vcc, orphan]

/-- What a line in flight says of a command, and of each one like it. -/
theorem of_inFlight {c : Nat} {s : State} {x y : XfCmd} (h : inFlight s c x = true) (same : plainXf y = plainXf x) :
    y.sent ≠ [] ∨ hostSource y = true ∨ (y.op = 9 ∧ y.outb ≠ []) := by
  have like {α : Type} (g : XfCmd → α) : g (plainXf y) = g (plainXf x) := congrArg g same
  have op : y.op = x.op := like (·.op)
  have sent : y.sent = x.sent := like (·.sent)
  have outb : y.outb = x.outb := like (·.outb)
  have source : hostSource y = hostSource x := like hostSource
  rw [op, sent, outb, source]
  simp only [inFlight, Bool.or_eq_true, bne_iff_ne] at h
  refine h.imp_right fun issued => ?_
  unfold readIssued at issued
  split at issued
  next copy =>
    simp only [Bool.or_eq_true, bne_iff_ne, Bool.and_eq_true] at issued
    exact issued.elim (fun left => .inr ⟨copy, left⟩) (fun asked => .inl asked.1.1)
  next =>
    simp only [Bool.and_eq_true] at issued
    exact .inl issued.1.1

/-! What the stop of one command keeps. -/

section

variable {c q : Nat} {s : State} {x : XfCmd} (ho : x.orphan = false)

include ho

theorem core_cancelOne_other (h : q ≠ c) : coreAt (cancelOne c s x) q = coreAt s q := by
  unfold cancelOne
  split
  · exact core_updXf_other h ho
  · exact core_endXf_part_other h ho

theorem body_cancelOne {α : Type} (g : Body → α) (hg : ∀ b r l m w k, g { b with r := r, xfQ := l, wbQ := w, mxQ := m, refetchWait := k } = g b) : g (coreAt (cancelOne c s x) q).b = g (coreAt s q).b := by
  unfold cancelOne
  split
  · exact body_updXf g (fun b r l => hg b r l _ _ _) ho
  · exact body_endXf_part g hg ho

theorem tokRec_cancelOne {n : Nat} (hn : n ≠ x.tok) : tokRec (cancelOne c s x) c n = tokRec s c n := by
  unfold cancelOne
  split
  · exact tokRec_updXf ho hn
  · exact tokRec_endXf_part ho hn


/-- Behind the stop of a command each one that stood like it is stopping, and each other one stands as it did. -/
theorem of_mem_cancelOne {y : XfCmd} (hy : y ∈ (coreAt (cancelOne c s x) c).b.xfQ) :
    ∃ z ∈ (coreAt s c).b.xfQ, plainXf y = plainXf z ∧ (Stopping z → Stopping y) ∧ (plainXf z = plainXf x → Stopping y) := by
  unfold cancelOne at hy
  split at hy
  next flying =>
    rw [xfQ_updXf ho] at hy
    obtain ⟨z, hz, rfl⟩ := List.mem_map.1 hy
    refine ⟨z, hz, ?_, fun stop => ?_, fun same => ?_⟩
    · split <;> rfl
    · split
      · exact ⟨rfl, stop.2⟩
      · exact stop
    · rw [if_pos (isThis_of_plain same)]
      exact ⟨rfl, of_inFlight flying same⟩
  next =>
    rw [xfQ_endXf_part ho] at hy
    obtain ⟨z, hz, rfl⟩ := List.mem_map.1 hy
    obtain ⟨hz, other⟩ := List.mem_filter.1 hz
    refine ⟨z, hz, ?_, fun stop => ?_, fun same => ?_⟩
    · unfold parted
      split <;> rfl
    · unfold parted
      split
      · exact stop
      · exact stop
    · rw [isThis_of_plain same] at other
      exact absurd other Bool.false_ne_true

/-- A command that waits for no token stays where another one is stopped. -/
theorem mem_xfQ_cancelOne {y : XfCmd} (hy : y ∈ (coreAt s c).b.xfQ) (tok : y.tok ≠ x.tok) (ins : y.ins = []) : y ∈ (coreAt (cancelOne c s x) c).b.xfQ := by
  have other : isThis x y = false := by simp [isThis, isCmd, tok]
  unfold cancelOne
  split
  · rw [xfQ_updXf ho]
    exact List.mem_map.2 ⟨y, hy, by rw [other]; rfl⟩
  · rw [xfQ_endXf_part ho]
    refine List.mem_map.2 ⟨y, List.mem_filter.2 ⟨hy, by rw [other]; rfl⟩, ?_⟩
    unfold parted
    split
    · rw [ins]
      simp only [tokEnded, List.contains_nil, Bool.false_eq_true, if_false]
      rw [← ins]
    · rfl

end

/-! What XCANCEL makes of the commands it names. -/

/-- Whether XCANCEL stops a command. -/
def namedBy (names : List Nat) (x : XfCmd) : Bool := !x.orphan && names.contains x.tok && cancellable x.op

theorem orphan_of_namedBy {names : List Nat} {x : XfCmd} (h : namedBy names x = true) : x.orphan = false := by
  simp only [namedBy, Bool.and_eq_true, Bool.not_eq_true'] at h
  exact h.1.1

theorem tok_of_namedBy {names : List Nat} {x : XfCmd} (h : namedBy names x = true) : x.tok ∈ names := by
  simp only [namedBy, Bool.and_eq_true, List.contains_iff_mem] at h
  exact h.1.2

theorem cancelCmds_eq (c : Nat) (names : List Nat) (s : State) :
    cancelCmds c names s = ((coreAt s c).b.xfQ.filter (namedBy names)).foldl (cancelOne c) s := rfl

section

variable {c : Nat} {names : List Nat}

/-- What each stop of a named command keeps, XCANCEL keeps. -/
theorem cancelCmds_keeps {P : State → Prop} {s : State} (h0 : P s)
    (hstep : ∀ (u : State) (x : XfCmd), x.orphan = false → x.tok ∈ names → P u → P (cancelOne c u x)) : P (cancelCmds c names s) := by
  rw [cancelCmds_eq]
  refine List.foldlRecOn _ _ (motive := P) h0 fun u hu x hx => ?_
  have named := (List.mem_filter.1 hx).2
  exact hstep u x (orphan_of_namedBy named) (tok_of_namedBy named) hu

theorem core_cancelCmds_other {q : Nat} {s : State} (h : q ≠ c) : coreAt (cancelCmds c names s) q = coreAt s q :=
  cancelCmds_keeps (P := fun u => coreAt u q = coreAt s q) rfl (fun _ _ ho _ hu => (core_cancelOne_other ho h).trans hu)

theorem body_cancelCmds {α : Type} {q : Nat} {s : State} (g : Body → α)
    (hg : ∀ b r l m w k, g { b with r := r, xfQ := l, wbQ := w, mxQ := m, refetchWait := k } = g b) :
    g (coreAt (cancelCmds c names s) q).b = g (coreAt s q).b :=
  cancelCmds_keeps (P := fun u => g (coreAt u q).b = g (coreAt s q).b) rfl (fun _ _ ho _ hu => (body_cancelOne ho g hg).trans hu)

theorem tokRec_cancelCmds {s : State} {n : Nat} (hn : n ∉ names) : tokRec (cancelCmds c names s) c n = tokRec s c n :=
  cancelCmds_keeps (P := fun u => tokRec u c n = tokRec s c n) rfl
    (fun _ x ho hx hu => (tokRec_cancelOne (n := n) ho (fun e => hn (by rwa [e]))).trans hu)

theorem mem_xfQ_cancelCmds {s : State} {y : XfCmd} (hy : y ∈ (coreAt s c).b.xfQ) (tok : y.tok ∉ names) (ins : y.ins = []) :
    y ∈ (coreAt (cancelCmds c names s) c).b.xfQ :=
  cancelCmds_keeps (P := fun u => y ∈ (coreAt u c).b.xfQ) hy (fun _ _ ho hx hu => mem_xfQ_cancelOne ho hu (fun e => tok (e ▸ hx)) ins)

/-- Once each command of a list has had its turn, every named one that is left is stopping, if each of them stood in the list or was. -/
theorem stopping_of_turns (l : List XfCmd) : ∀ s, (∀ x ∈ l, x.orphan = false) →
    (∀ y ∈ (coreAt s c).b.xfQ, namedBy names y = true → Stopping y ∨ ∃ x ∈ l, plainXf y = plainXf x) →
    ∀ y ∈ (coreAt (l.foldl (cancelOne c) s) c).b.xfQ, namedBy names y = true → Stopping y := by
  induction l with
  | nil => exact fun s _ h y hy named => (h y hy named).resolve_right (fun ⟨_, no, _⟩ => absurd no List.not_mem_nil)
  | cons x l ih =>
    intro s orphans h
    refine ih _ (fun z hz => orphans z (List.mem_cons_of_mem x hz)) fun y hy named => ?_
    obtain ⟨z, hz, like, still, stopped⟩ := of_mem_cancelOne (orphans x List.mem_cons_self) hy
    have namedToo : namedBy names z = true := (congrArg (namedBy names) like).symm.trans named
    rcases h z hz namedToo with stop | ⟨w, hw, same⟩
    · exact .inl (still stop)
    · rcases List.mem_cons.1 hw with rfl | hw
      · exact .inl (stopped same)
      · exact .inr ⟨w, hw, like.trans same⟩

theorem stopping_of_mem_cancelCmds {s : State} {y : XfCmd} (hy : y ∈ (coreAt (cancelCmds c names s) c).b.xfQ) (named : namedBy names y = true) : Stopping y :=
  stopping_of_turns _ s (fun _ hx => orphan_of_namedBy (List.mem_filter.1 hx).2)
    (fun z hz namedToo => .inr ⟨z, List.mem_filter.2 ⟨hz, namedToo⟩, rfl⟩) y hy named

end

/-! ### The XF slot's words at issue -/

section

variable {op : Nat} {tout t0 t1 t2 : BitVec 6} {q c : Nat} {o t : State} {sw : Bool}

theorem core_xfIn_other (h : c ≠ q) : coreAt (xfIn op tout t0 t1 t2 sw q o t) c = coreAt t c := core_entersCmd_other h

theorem core_xfEnters_other (h : c ≠ q) : coreAt (xfEnters op tout t0 t1 t2 sw q o t) c = coreAt t c := by
  unfold xfEnters
  split
  · exact (core_queued_of_ne h ..).trans (core_xfIn_other h)
  · split
    · exact (core_cancelCmds_other h).trans (core_xfIn_other h)
    · exact core_xfIn_other h

theorem OffLog.xfEnters {α : Type} {g : Body → α} (off : OffLog g) (hcommit : ∀ b l, g { b with commitQ := l } = g b)
    (hg : ∀ b r l m w k, g { b with r := r, xfQ := l, wbQ := w, mxQ := m, refetchWait := k } = g b) :
    g (coreAt (xfEnters op tout t0 t1 t2 sw q o t) c).b = g (coreAt t c).b := by
  have entered : g (coreAt (xfIn op tout t0 t1 t2 sw q o t) c).b = g (coreAt t c).b := offLog_xfIn off (fun b r => hg b r _ _ _ _) (fun b l => hg b _ l _ _ _)
  unfold Machine.xfEnters
  split
  · exact (body_updBody g (fun b => hcommit b _) _ q c).trans entered
  · split
    · exact (body_cancelCmds g hg).trans entered
    · exact entered

end

/-- XCANCEL has entered its engine and ended or stopped the commands it names (R455). -/
def XcancelEntered (o t : State) (q : Nat) (tout t0 t1 t2 : BitVec 6) (sw : Bool) : Prop :=
  (∃ x ∈ (coreAt t q).b.xfQ, x.op = 11 ∧ x.tok = tout.toNat ∧ x.ins = [] ∧ x.orphan = false) ∧ tokRec t q tout.toNat = entered o q 0 (snapX (coreAt o q).b.r sw) ∧
    ∀ x ∈ (coreAt t q).b.xfQ, x.orphan = false → x.tok ∈ [t0.toNat, t1.toNat, t2.toNat] → x.tok ≠ tout.toNat → cancellable x.op = true →
      x.cancel = true ∧ (x.sent ≠ [] ∨ hostSource x = true ∨ (x.op = 9 ∧ x.outb ≠ []))

section

variable {tout t0 t1 t2 : BitVec 6} {q : Nat} {o t : State} {sw : Bool}

theorem mem_tokIns {n m : Nat} {l : List Nat} : n ∈ tokIns m l ↔ n ∈ l ∧ n ≠ m := by
  simp [tokIns]

theorem xcancelEntered_xfEnters : XcancelEntered o (xfEnters 11 tout t0 t1 t2 sw q o t) q tout t0 t1 t2 sw := by
  have apart : tout.toNat ∉ tokIns tout.toNat [t0.toNat, t1.toNat, t2.toNat] := fun h => (mem_tokIns.1 h).2 rfl
  have stops : xfEnters 11 tout t0 t1 t2 sw q o t = cancelCmds q (tokIns tout.toNat [t0.toNat, t1.toNat, t2.toNat]) (xfIn 11 tout t0 t1 t2 sw q o t) := rfl
  rw [stops]
  refine ⟨⟨xfCmdOf o q 11 tout t0 t1 t2 sw, mem_xfQ_cancelCmds ?_ apart rfl, rfl, rfl, rfl, rfl⟩, ?_, fun x hx here named other kind => ?_⟩
  · simp only [xfIn, body_entersCmd, offLog_xfQ.loggedCmd, xfPush]
    exact List.mem_append_right _ List.mem_cons_self
  · rw [tokRec_cancelCmds apart]
    simp only [xfIn, tokRec, body_entersCmd, offLog_r.loggedCmd, xfPush]
    refine (Tab.get_upd ..).trans ((if_pos rfl).trans ?_)
    rfl
  · refine stopping_of_mem_cancelCmds hx ?_
    simp only [namedBy, here, kind, List.contains_iff_mem, mem_tokIns, named, other, Bool.and_true, Bool.not_false, Bool.true_and, ne_eq, not_false_iff, and_self]

theorem XcancelEntered.congr {u : State} (same : standing (coreAt u q).b = standing (coreAt t q).b) (h : XcancelEntered o t q tout t0 t1 t2 sw) :
    XcancelEntered o u q tout t0 t1 t2 sw := by
  have kept {α : Type} (g : Body → α) := congrArg g same
  have queue : (coreAt u q).b.xfQ = (coreAt t q).b.xfQ := kept (·.xfQ)
  have toks : (coreAt u q).b.r.toks = (coreAt t q).b.r.toks := kept (·.r.toks)
  simpa only [XcancelEntered, tokRec, queue, toks] using h

end

section

variable {s : State} {i : Instr} {op : Nat} {tout t0 t1 t2 : BitVec 6} {sw : BitVec 1}

/-- An XF word whose staging every issuer accepts leaves each of them as its own operation makes it. -/
theorem exec_xf_accepted (h : Ready s) (hi : exec i s = runSlot 7 (effXf op tout t0 t1 t2 sw) s)
    (accepts : ∀ q ∈ issuers s, XfAccepts (settled s) q op tout (sw == 1)) :
    ∃ u, exec i s = .next u ∧ ∀ q ∈ issuers s, ∃ t, coreAt t q = coreAt (settled s) q ∧
      standing (coreAt u q).b = standing (coreAt (xfEnters op tout t0 t1 t2 (sw == 1) q (settled s) t) q).b := by
  have own (q : Nat) (t : State) (c : Nat) (hc : c ≠ q) : coreAt (xfEnters op tout t0 t1 t2 (sw == 1) q (settled s) t) c = coreAt t c := core_xfEnters_other hc
  refine ⟨_, issues_own h (fun q t => (coreAt t q).b.check = none ∧ (op = 2 → (coreAt t q).b.commitQ.length < 256)) hi (by decide)
    (fun q hq => ⟨(accepts q hq).2.2.2.2.2.2, (accepts q hq).2.2.2.2.2.1⟩) (fun q hq t ht => effXf_of_accepts (accepts q hq) ht.1 ht.2)
    (fun q c t hc ht => by rwa [own q t c hc]) (fun q t c => offLog_detected.xfEnters (fun _ _ => rfl) (fun _ _ _ _ _ _ => rfl)), fun q hq => ?_⟩
  exact standing_issued_own h own (fun q t => offLog_task.xfEnters (fun _ _ => rfl) (fun _ _ _ _ _ _ => rfl)) hq

/-- An XF word outside a rerun faults where its token is live, and then where its staging is refused (R422). -/
theorem exec_xf_fault (h : Ready s) {code : BitVec 8} (hi : exec i s = runSlot 7 (effXf op tout t0 t1 t2 sw) s)
    (hf : effXf op tout t0 t1 t2 sw (lead s) (settled s) (settled s) = flt code) :
    exec i s = .next (takeFault (issuers s) (faultHere s (lead s) code 7 none 0) s) :=
  hi.trans (runSlot_fault h hf)

end

/-- Settles O38: each word is the issue of its engine's operation, which its own core alone answers. -/
theorem engineCommandsEnter : Obligations.EngineCommandsEnter := by
  unfold Obligations.EngineCommandsEnter
  refine ⟨fun s tout t0 t1 e sw h z ready => ⟨fun w hw => ?_, runSlot_hint ready rfl (by decide)⟩,
    fun s tout t0 t1 t2 sw h z ready => ⟨fun w hw => ?_, fun accepts => ?_, runSlot_hint ready rfl (by decide)⟩⟩
  · have issue : exec w.2.2 s = runSlot 6 (behindTable (effMx w.1 w.2.1 tout t0 t1 sw)) s := by
      revert w
      simp only [List.forall_mem_cons]
      exact ⟨rfl, rfl, rfl, rfl, rfl, rfl, rfl, rfl, rfl, List.forall_mem_nil _⟩
    exact ⟨exec_mx_accepted ready issue, fun check live => exec_mx_fault ready issue (effMx_of_live check live),
      fun _ notLive illegal => exec_mx_fault ready issue (effMx_of_illegal notLive illegal)⟩
  · have issue : exec w.2 s = runSlot 7 (effXf w.1 tout t0 t1 t2 sw) s ∧ w.1 ≠ 11 := by
      revert w
      simp only [List.forall_mem_cons]
      exact ⟨⟨rfl, by decide⟩, ⟨rfl, by decide⟩, ⟨rfl, by decide⟩, ⟨rfl, by decide⟩, ⟨rfl, by decide⟩, ⟨rfl, by decide⟩, ⟨rfl, by decide⟩, ⟨rfl, by decide⟩,
        ⟨rfl, by decide⟩, ⟨rfl, by decide⟩, List.forall_mem_nil _⟩
    obtain ⟨issue, kind⟩ := issue
    refine ⟨fun accepts => ?_, fun check live => exec_xf_fault ready issue (effXf_of_live check live),
      fun _ notLive illegal => exec_xf_fault ready issue (effXf_of_illegal notLive illegal)⟩
    obtain ⟨u, ends, left⟩ := exec_xf_accepted ready issue accepts
    refine ⟨u, ends, fun q hq => ?_⟩
    obtain ⟨t, found, same⟩ := left q hq
    exact XfEntered.congr same (xfEntered_xfEnters kind found)
  · obtain ⟨u, ends, left⟩ := exec_xf_accepted ready (op := 11) (i := .xcancel tout t0 t1 t2 sw) rfl accepts
    refine ⟨u, ends, fun q hq => ?_⟩
    obtain ⟨t, -, same⟩ := left q hq
    exact XcancelEntered.congr same xcancelEntered_xfEnters

end Sys2Proof.Machine
end

section
/-! The events of a core: its bundles, checkpoints, pauses, rollbacks and retirement, its scrubber, and its stores that fail or release (R237, R241, R249-R257, R278, R279). -/

namespace Sys2Proof.Machine

open Sys2Proof.Safety

/-! ### The records an event keeps -/

theorem core_sendMsix (e : Nat) (s : State) (q : Nat) : coreAt (sendMsix e s) q = coreAt s q := by
  unfold sendMsix
  split <;> rfl

theorem core_logErr (e : BitVec 128) (s : State) (q : Nat) : coreAt (logErr e s) q = coreAt s q := core_sendMsix ..

theorem errnext_sendMsix (e : Nat) (s : State) : (sendMsix e s).mod.errnext = s.mod.errnext := by
  unfold sendMsix
  split <;> rfl

theorem errnext_logErr (e : BitVec 128) (s : State) : (logErr e s).mod.errnext = s.mod.errnext + 1 := errnext_sendMsix ..

theorem isRetired_sendMsix (e : Nat) (s : State) (cl : Nat) : isRetired (sendMsix e s) cl = isRetired s cl := by
  unfold sendMsix
  split <;> rfl

theorem isRetired_logErr (e : BitVec 128) (s : State) (cl : Nat) : isRetired (logErr e s) cl = isRetired s cl := isRetired_sendMsix ..

theorem poison_logErr (e : BitVec 128) (s : State) : (logErr e s).poison = s.poison := poison_sendMsix ..

theorem body_countErr (c field : Nat) (s : State) (q : Nat) : (coreAt (countErr c field s) q).b = (coreAt s q).b := by
  rw [countErr, core_updCore]
  split
  next e => rw [e]
  next => rfl

section

variable {s : State} {c id : Nat} {code : BitVec 8}

/-! ### One-slot bundles (R320, R323) -/

theorem issueBundle_of_single {hdr p w : Nat} {i : Instr} (one : groupOf s c = [c]) (fetched : fetchBundle s c = .ok (hdr, [(p, w)]))
    (decoded : decodeSlot p w = .ok i) : issueBundle c s = issueSlots c [(p, slotEff i)] none (setHeader [c] hdr [w] s) := by
  have passes : checkWords [] [(p, w)] = none := by simp [checkWords, decoded]
  have effs : bundleEffs [(p, w)] = [(p, slotEff i)] := by simp [bundleEffs, decoded]
  simp only [issueBundle, one, List.headD_cons, fetched, passes, effs, List.map_cons, List.map_nil]

theorem issueBundle_of_error (one : groupOf s c = [c]) (fetched : fetchBundle s c = .error code) :
    issueBundle c s = issueSlots c [] (some (code, 15)) s := by
  simp only [issueBundle, one, List.headD_cons, fetched]

/-! ### Pauses (R279) -/

theorem pausedFor_of_pause {z : Pause} (h : (coreAt s c).b.pause = some z) : pausedFor z.cause [c] c s = true := by
  simp [pausedFor, h]

/-- What the end of its pause leaves of a core. -/
theorem body_clearPause {z : Pause} (h : (coreAt s c).b.pause = some z) :
    (coreAt (clearPause [c] s) c).b.pause = none ∧ (z.since < s.clk →
      (coreAt (clearPause [c] s) c).b.pauseCnt.toNat = min (2 ^ 48 - 1) ((coreAt s c).b.pauseCnt.toNat + (s.clk - z.since)) ∧
      (coreAt (clearPause [c] s) c).b.lastPause = BitVec.ofNat 4 z.cause) := by
  simp only [clearPause, onCores, List.foldl_cons, List.foldl_nil, core_updBody, if_true, h]
  split
  next none => exact ⟨rfl, fun later => absurd none (Nat.sub_ne_zero_of_lt later)⟩
  next =>
    refine ⟨rfl, fun _ => ⟨?_, rfl⟩⟩
    rw [BitVec.toNat_ofNat]
    exact Nat.mod_eq_of_lt (Nat.lt_of_le_of_lt (Nat.min_le_left ..) (by decide))

theorem endPause_of_paused {z : Pause} (one : groupOf s c = [c]) (h : (coreAt s c).b.pause = some z) (runs : inTend s c = false) :
    endPause c s = if pausedFor z.cause [c] c (issueBundle c (unpause [c] s)) then
      updBody (issueBundle c (unpause [c] s)) c (fun b => { b with pause := some z }) else clearPause [c] s := by
  simp only [endPause, one, List.headD_cons, h, runs, Bool.false_eq_true, if_false]
  rfl

/-! ### Checkpoints (R249) -/

/-- A core takes its checkpoint: it copies what it has, releases its commit queue, and its bundle may issue. -/
def checkpointed (c : Nat) (s : State) : State :=
  updBody (releaseQueue c (updBody (clearPause [c] s) c copyCkpt)) c (fun b => { b with ckptDone := true })

theorem takeCheckpoint_of_faulting (one : groupOf s c = [c]) (paused : pausedFor 12 [c] c s = true) (clean : (coreAt s c).b.detected = none)
    (faults : pausedFor 12 [c] c (issueBundle c (unpause [c] s)) = false) : takeCheckpoint c s = clearPause [c] s := by
  simp only [takeCheckpoint, one, paused, clean, faults, List.any_cons, List.any_nil, Option.isSome_none, Bool.or_self, Bool.not_true, Bool.not_false,
    Bool.false_eq_true, or_self, if_false, if_true]

/-- Outside a rerun the phase that ends takes effect (R253). -/
theorem judgePhase_of_noCheck (h : (coreAt s c).b.check = none) : judgePhase [c] s = (s, true) := by
  simp only [judgePhase, List.head?_cons, Option.bind_some, h]

theorem takeCheckpoint_of_paused (one : groupOf s c = [c]) (paused : pausedFor 12 [c] c s = true) (clean : (coreAt s c).b.detected = none)
    (noCheck : (coreAt s c).b.check = none) (waits : pausedFor 12 [c] c (issueBundle c (unpause [c] s)) = true) : takeCheckpoint c s = checkpointed c s := by
  have judged : judgePhase [c] (clearPause [c] s) = (clearPause [c] s, true) :=
    judgePhase_of_noCheck ((core_clearPause_keeps (f := fun k => k.b.check) (fun _ _ _ _ => rfl) [c] s c).trans noCheck)
  simp only [takeCheckpoint, one, paused, clean, waits, judged, List.any_cons, List.any_nil, Option.isSome_none, Bool.or_self, Bool.not_true,
    Bool.false_eq_true, or_self, if_false, if_true]
  rfl

theorem body_sendFrom (dst : Node) (after : List Nat) (body : PBody) (q : Nat) : (coreAt (sendFrom c dst after body s) q).b = (coreAt s q).b := by
  unfold sendFrom
  rw [core_updCore]
  split
  next e => rw [e]; rfl
  next => rfl

/-- The release of a held entry leaves of a body all but the copy commands (R224, R447). -/
theorem body_releaseEntry {α : Type} (g : Body → α) (hg : ∀ b l, g { b with xfQ := l } = g b) (r : Release) (e : CEntry) (q : Nat) :
    g (coreAt (releaseEntry c r e).s q).b = g (coreAt r.s q).b := by
  unfold releaseEntry
  split
  case h_5 => exact body_updBody g (fun b => hg b _) r.s c q
  case h_6 => rfl
  all_goals exact congrArg g (body_sendFrom ..)

/-- The release of the commit queue leaves of a body all but that queue and the copy commands (R224). -/
theorem body_releaseQueue {α : Type} (g : Body → α) (hx : ∀ b l, g { b with xfQ := l } = g b) (hc : ∀ b l, g { b with commitQ := l } = g b) (q : Nat) :
    g (coreAt (releaseQueue c s) q).b = g (coreAt s q).b := by
  refine (body_updBody g (fun b => hc b _) _ c q).trans ?_
  have kept (l : List CEntry) (r : Release) : g (coreAt (l.foldl (releaseEntry c) r).s q).b = g (coreAt r.s q).b :=
    foldl_keeps (g := fun r : Release => g (coreAt r.s q).b) (fun r e => body_releaseEntry g hx r e q) l r
  exact kept _ _

theorem commitQ_releaseQueue : (coreAt (releaseQueue c s) c).b.commitQ = [] := by
  rw [releaseQueue, core_updBody, if_pos rfl]

/-- A checkpoint leaves the copy of its core's registers, no pause and an empty commit queue. -/
theorem body_checkpointed {z : Pause} (h : (coreAt s c).b.pause = some z) :
    (coreAt (checkpointed c s) c).b.ckpt = some (coreAt s c).b.r ∧ (coreAt (checkpointed c s) c).b.pause = none ∧
      (coreAt (checkpointed c s) c).b.commitQ = [] ∧ (coreAt (checkpointed c s) c).b.ckptDone = true := by
  have copied : coreAt (updBody (clearPause [c] s) c copyCkpt) c = { coreAt (clearPause [c] s) c with b := copyCkpt (coreAt (clearPause [c] s) c).b } := by
    rw [core_updBody, if_pos rfl]
  have regs : (coreAt (clearPause [c] s) c).b.r = (coreAt s c).b.r := core_clearPause_keeps (f := fun k => k.b.r) (fun _ _ _ _ => rfl) [c] s c
  simp only [checkpointed, core_updBody, if_true]
  refine ⟨?_, ?_, commitQ_releaseQueue, trivial⟩
  · rw [body_releaseQueue Body.ckpt (fun _ _ => rfl) (fun _ _ => rfl), copied, ← regs]
    rfl
  · rw [body_releaseQueue Body.pause (fun _ _ => rfl) (fun _ _ => rfl), copied]
    exact (body_clearPause h).1

/-! ### Rollback (R252) -/

/-- A core returns to its checkpoint in check mode. -/
def rolledBack (c : Nat) (e : BitVec 128) (m : CheckMode) (s : State) : State :=
  setStage [c] .running (countErr c 2 (updBody (dropBehind c (logErr e (clearPause [c] s))) c (beginRerun m)))

theorem rollBack_of_detected {pc ptr : Word} (one : groupOf s c = [c]) (error : (coreAt s c).b.detected = some (code, pc, ptr)) (may : rollable s c = true)
    (noCheck : (coreAt s c).b.check = none) (mayRoll : (coreAt s c).b.noroll = false) : ∃ e m, rollBack c s = rolledBack c e m s := by
  have check : (coreAt (clearPause [c] s) c).b.check = none := (core_clearPause_keeps (f := fun k => k.b.check) (fun _ _ _ _ => rfl) [c] s c).trans noCheck
  have noroll : (coreAt (clearPause [c] s) c).b.noroll = false := (core_clearPause_keeps (f := fun k => k.b.noroll) (fun _ _ _ _ => rfl) [c] s c).trans mayRoll
  have found : detectedIn [c] s = some (c, code, pc, ptr) := by simp [detectedIn, error]
  simp only [rollBack, one, found, may, List.headD_cons, check, noroll, List.any_cons, List.any_nil, Option.isSome_none, Bool.or_self, Bool.false_eq_true,
    if_false]
  exact ⟨_, _, rfl⟩

/-- The commands of the refetch list change of a body only its tokens, its engines and the wait for them (R252). -/
theorem reissueRefetch_keeps {α : Type} (g : Body → α)
    (hg : ∀ b t k m x, g { b with r := { b.r with toks := t }, refetchWait := k, mxQ := m, xfQ := x } = g b) (b : Body) : g (reissueRefetch b) = g b := by
  refine (foldl_keeps (g := g) (fun b f => ?_) _ _).trans (hg b _ _ _ _)
  dsimp only
  split
  all_goals exact hg b _ _ _ _

/-- A rerun begins with the registers of the checkpoint but for the tokens, with its accumulators, and with nothing held (R249, R252). -/
theorem body_beginRerun {m : CheckMode} {b : Body} {k : Regs} (h : b.ckpt = some k) :
    (beginRerun m b).r = { k with toks := (beginRerun m b).r.toks } ∧ (beginRerun m b).acc = b.accSave ∧ (beginRerun m b).commitQ = [] ∧
      (beginRerun m b).detected = none ∧ (beginRerun m b).check.isSome = true := by
  have kept {α : Type} (g : Body → α) (hg : ∀ b t k m x, g { b with r := { b.r with toks := t }, refetchWait := k, mxQ := m, xfQ := x } = g b) :
      g (beginRerun m b) = g { restoreCkpt b with check := some { m with next := 0, crcB := 0 }, ckptDone := true } := reissueRefetch_keeps g hg _
  have regs := kept (fun b => { b.r with toks := .empty }) (fun _ _ _ _ _ => rfl)
  have acc := kept Body.acc (fun _ _ _ _ _ => rfl)
  have held := kept Body.commitQ (fun _ _ _ _ _ => rfl)
  have error := kept Body.detected (fun _ _ _ _ _ => rfl)
  have check := kept Body.check (fun _ _ _ _ _ => rfl)
  simp only [restoreCkpt, h] at regs acc held error check
  exact ⟨congrArg (fun r : Regs => { r with toks := (beginRerun m b).r.toks }) regs, acc, held, error, by rw [check]; rfl⟩

/-- What a rollback leaves of its core, but for the stage of its task. -/
theorem body_rolledBack {α : Type} (g : Body → α) (hg : ∀ b t, g { b with task := t } = g b) (e : BitVec 128) (m : CheckMode) :
    g (coreAt (rolledBack c e m s) c).b = g (beginRerun m (coreAt (clearPause [c] s) c).b) := by
  simp only [rolledBack, setStage, onCores, List.foldl_cons, List.foldl_nil]
  rw [body_updBody g (fun b => hg b _), body_countErr, core_updBody, if_pos rfl, body_dropBehind, core_logErr]

theorem errnext_rolledBack (e : BitVec 128) (m : CheckMode) : (rolledBack c e m s).mod.errnext = s.mod.errnext + 1 := errnext_logErr e (clearPause [c] s)

/-! ### Retirement (R254) -/

theorem retiredBit_lt {cl : Nat} (h : clusterExists cl = true) : retiredBit cl < 80 := by
  have fits : cl % 16 < dieClusters (cl / 16) := of_decide_eq_true h
  unfold dieClusters at fits
  unfold retiredBit
  split at fits
  next compute => rw [if_pos compute]; omega
  next io => rw [if_neg io]; split at fits <;> omega

theorem isRetired_retireCluster {cl : Nat} (h : clusterExists cl = true) (s : State) : isRetired (retireCluster cl s) cl = true := by
  simp only [isRetired, retireCluster]
  rw [BitVec.getLsbD_or, BitVec.getLsbD_shiftLeft]
  simp [retiredBit_lt h]

/-- An error in a rerun of one of its cores retires the cluster. -/
theorem isRetired_retireAfterRerun {cl q : Nat} (h : clusterExists cl = true) (hq : q < 4) (check : (coreAt s (clusterCore cl q)).b.check.isSome = true)
    (error : (coreAt s (clusterCore cl q)).b.detected.isSome = true) (first : repeatsPoison (coreAt s (clusterCore cl q)).b = false) :
    isRetired (retireAfterRerun cl s) cl = true := by
  unfold retireAfterRerun
  split
  next none =>
    have passed := List.find?_eq_none.1 none q (List.mem_range.2 hq)
    simp [check, error, first] at passed
  next r found =>
    have errs := List.find?_some found
    simp only [Bool.and_eq_true] at errs
    obtain ⟨d, hd⟩ := Option.isSome_iff_exists.1 errs.1.2
    simp only [hd, isRetired_logErr]
    exact isRetired_retireCluster h s

/-! ### The scrubber (R257) -/

theorem natMin_eq (a b : Nat) : Nat.min a b = min a b := rfl

theorem fieldW_countField_low (x : Word) : fieldW (countField x 0) 0 16 = min 65535 (fieldW x 0 16 + 1) := by
  have bound := x.isLt
  simp only [fieldW, countField, withBits, bitsOf, BitVec.toNat_ofNat, natMin_eq]
  omega

theorem fieldW_countField_high (x : Word) : fieldW (countField x 16) 16 16 = min 65535 (fieldW x 16 16 + 1) := by
  have bound := x.isLt
  simp only [fieldW, countField, withBits, bitsOf, BitVec.toNat_ofNat, natMin_eq]
  omega

theorem coreerr_countErr (field : Nat) : (coreAt (countErr c field s) c).coreerr = countField (coreAt s c).coreerr (16 * field) := by
  rw [countErr, core_updCore, if_pos rfl]

/-- Every sector of a place that is poisoned reads so. -/
theorem poison_poisonLoc {l : Loc} {n : Nat} (hn : 0 < n) : (poisonLoc s l n).poison.get false (locKey s l 0 / 32) = true := by
  obtain ⟨n, rfl⟩ : ∃ m, n = m + 1 := ⟨n - 1, by omega⟩
  rw [poisonLoc, List.range_succ_eq_map, List.foldl_cons]
  refine List.foldlRecOn _ _ (motive := fun u : State => u.poison.get false (locKey s l 0 / 32) = true) ?_ fun u hu i _ => ?_
  · rw [Tab.get_set, if_pos rfl]
  · rw [Tab.get_set]
    split
    · rfl
    · exact hu

section

variable {sector : Nat} (low : sector < 2 ^ 17) (ready : (coreAt s c).ready.getLsbD (sector / 2 ^ 12) = true)

include low ready

theorem not_skips : ¬ (2 ^ 17 ≤ sector ∨ (!(coreAt s c).ready.getLsbD (sector / 2 ^ 12)) = true) := by
  rw [ready]
  exact fun skips => skips.elim (Nat.not_le.2 low) Bool.false_ne_true

theorem scrubSector_uncorrectable :
    ∃ e, scrubSector c sector .uncorrectable s = logErr e (countErr c 1 (poisonLoc s (.flat (spadKey c (32 * sector))) 32)) :=
  ⟨_, if_neg (not_skips low ready)⟩

end

theorem fieldW_coreerr_corrected : fieldW (coreAt (countErr c 0 s) c).coreerr 0 16 = min 65535 (fieldW (coreAt s c).coreerr 0 16 + 1) := by
  rw [coreerr_countErr]
  exact fieldW_countField_low _

theorem scrub_uncorrectable (e : BitVec 128) (key : Nat) :
    fieldW (coreAt (logErr e (countErr c 1 (poisonLoc s (.flat key) 32))) c).coreerr 16 16 = min 65535 (fieldW (coreAt s c).coreerr 16 16 + 1) ∧
      (logErr e (countErr c 1 (poisonLoc s (.flat key) 32))).poison.get false (key / 32) = true := by
  have same : coreAt (poisonLoc s (.flat key) 32) c = coreAt s c := by
    unfold poisonLoc
    refine foldl_keeps (g := fun u => coreAt u c) (fun _ _ => ?_) _ _
    rfl
  constructor
  · rw [core_logErr, coreerr_countErr, same]
    exact fieldW_countField_high _
  · rw [poison_logErr]
    exact poison_poisonLoc (s := s) (l := .flat key) (by decide)

end

/-! ### Accesses that fail, and releases (R237, R241) -/

section

variable {s : State} {c : Nat} {x : Packet}

theorem hingeRelease_of_first {h : HingeRel} {own part : Nat} {e : CEntry} (first : firstHinge s c = some x) (body : x.body = .hinge h own part e) :
    hingeRelease c s = performHinge x h own part e s := by
  simp only [hingeRelease, first, body]

theorem performHinge_of_pages {h : HingeRel} {own part : Nat} {e : CEntry} {pages : List Nat} (here : dieGone s (handleDie h.flagH) = false)
    (mine : (trec s h.flagH).owner.toNat = own) (chain : walkChain s (handleDie h.flagH) own part h.count h.head [] = .pages pages)
    (room : (newPages s h.flagH h.flagO 8).length ≤ freePages s (handleDie h.flagH)) :
    performHinge x h own part e s = accessOver x (tagDeltas s.nextId x.core (storeGlob
      (pages.foldl (fun s q => updRec s q (fun r => { r with owner := BitVec.ofNat 6 h.newown })) s) h.flagH h.flagO (leBytes h.value.toNat 8) (allMask 8))) := by
  simp only [performHinge, here, mine, chain, Bool.false_eq_true, if_false, ne_eq, not_true_eq_false, Nat.not_lt.2 room]

theorem performHinge_of_fail {h : HingeRel} {own part : Nat} {e : CEntry} {code : BitVec 8} (here : dieGone s (handleDie h.flagH) = false)
    (mine : (trec s h.flagH).owner.toNat = own) (chain : walkChain s (handleDie h.flagH) own part h.count h.head [] = .fail code) :
    performHinge x h own part e s = storeFails x e code s := by
  simp only [performHinge, here, mine, chain, Bool.false_eq_true, if_false, ne_eq, not_true_eq_false]

end

/-- Settles O59: each clause is the lemma of its event. -/
theorem coreEvents : Obligations.CoreEvents := by
  unfold Obligations.CoreEvents
  intro s c id q cl sector p own part hdr w i z code pc ptr k x l op o e h pages
  dsimp only
  refine ⟨fun one fetched decoded => congrArg Host.Outcome.next (issueBundle_of_single one fetched decoded),
    fun one fetched => congrArg Host.Outcome.next (issueBundle_of_error one fetched), fun one paused cause clean faults => ?_,
    fun one paused cause clean noCheck waits => ?_, fun one paused runs again => ?_, fun one paused runs ended => ?_, ?_,
    fun one error may noCheck mayRoll copy => ?_,
    fun real hq check error first => makes_of rfl (isRetired_retireAfterRerun real hq check error first), fun low ready => ?_, fun core found body lone => ?_,
    fun core first body here mine => ?_⟩
  · exact congrArg Host.Outcome.next (takeCheckpoint_of_faulting one (cause ▸ pausedFor_of_pause paused) clean faults)
  · exact makes_of (congrArg Host.Outcome.next (takeCheckpoint_of_paused one (cause ▸ pausedFor_of_pause paused) clean noCheck waits)) (body_checkpointed paused)
  · exact congrArg Host.Outcome.next ((endPause_of_paused one paused runs).trans (if_pos again))
  · exact makes_of (congrArg Host.Outcome.next ((endPause_of_paused one paused runs).trans (if_neg (by simp [ended])))) (body_clearPause paused)
  · refine makes_of rfl ((lands_updLanding ..).trans (List.map_congr_left fun y _ => ?_))
    by_cases named : y.id = id
    · cases y.data <;> simp [named]
    · simp [named]
  · obtain ⟨e, m, rolls⟩ := rollBack_of_detected one error may noCheck mayRoll
    have paused {α : Type} (g : Body → α) (hg : ∀ b p n l, g { b with pause := p, pauseCnt := n, lastPause := l } = g b) :
        g (coreAt (clearPause [c] s) c).b = g (coreAt s c).b := core_clearPause_keeps (f := fun k => g k.b) (fun k => hg k.b) [c] s c
    obtain ⟨regs, acc, held, clean, checks⟩ := body_beginRerun (m := m) ((paused Body.ckpt (fun _ _ _ _ => rfl)).trans copy)
    have left {α : Type} (g : Body → α) (hg : ∀ b t, g { b with task := t } = g b) := body_rolledBack (s := s) (c := c) g hg e m
    refine makes_of (congrArg Host.Outcome.next rolls) ⟨?_, ?_, ?_, ?_, ?_, errnext_rolledBack e m⟩
    · rw [left Body.r (fun _ _ => rfl)]
      exact regs
    · rw [left Body.acc (fun _ _ => rfl), acc]
      exact paused Body.accSave (fun _ _ _ _ => rfl)
    · exact (left Body.commitQ (fun _ _ => rfl)).trans held
    · exact (left Body.detected (fun _ _ => rfl)).trans clean
    · rw [left Body.check (fun _ _ => rfl)]
      exact checks
  · exact ⟨congrArg Host.Outcome.next (if_neg (not_skips low ready)),
      makes_of (t := countErr c 0 s) (congrArg Host.Outcome.next (if_neg (not_skips low ready))) (fieldW_coreerr_corrected ..), by
        obtain ⟨e, found⟩ := scrubSector_uncorrectable low ready
        exact makes_of (congrArg Host.Outcome.next found) (scrub_uncorrectable ..)⟩
  · refine congrArg Host.Outcome.next ?_
    unfold storeUnresolved
    split
    next none => exact nomatch none.symm.trans found
    next y some =>
      obtain rfl : y = x := Option.some.inj (some.symm.trans found)
      simp only [body, core, lone, if_true]
  · have runs : exec (.hingeReleasePerform c) s = .next (performHinge x h own part e s) :=
      congrArg Host.Outcome.next ((if_pos core).trans (hingeRelease_of_first first body))
    exact ⟨fun chain room => runs.trans (congrArg Host.Outcome.next (performHinge_of_pages here mine chain room)),
      fun chain => runs.trans (congrArg Host.Outcome.next (performHinge_of_fail here mine chain))⟩

end Sys2Proof.Machine
end

section
/-! Register-register forms, products, immediate forms, moves and bit counts of the scalar slots (R364-R368). -/

namespace Sys2Proof.Machine

open Sys2Proof.Safety

/-! ### Forms of two registers, of an immediate and of one register -/

section

variable {s : State} (h : Ready s) {i : Instr} {d a b : BitVec 6} {x : BitVec 14} {lat : Nat} {f : Word → Word → Word} {g : Word → Word} {v : Nat → State → Word}

include h

/-- A register-register form gives the function it is made of. -/
theorem givesS_effBin (hi : exec i s = runSlot 1 (effBin f lat d a b) s) (hv : ∀ q o, f (sReg o q a.toNat) (sReg o q b.toNat) = v q o) : GivesS i s d lat v :=
  givesS_of h hi (by decide) (fun q _ t => by rw [← hv]; rfl)

/-- An immediate form gives the function at the extended immediate (R366). -/
theorem givesS_effImm (hi : exec i s = runSlot 1 (effImm f d a x) s) (hv : ∀ q o, f (sReg o q a.toNat) (x.signExtend 64) = v q o) : GivesS i s d 1 v :=
  givesS_of h hi (by decide) (fun q _ t => by rw [← hv]; rfl)

/-- A shift by an immediate gives the shift by its 6 bits (R366). -/
theorem givesS_effShi (hi : exec i s = runSlot 1 (effShi f d a b) s) (hv : ∀ q o, f (sReg o q a.toNat) (b.setWidth 64) = v q o) : GivesS i s d 1 v :=
  givesS_of h hi (by decide) (fun q _ t => by rw [← hv]; rfl)

/-- A one-register form gives its function. -/
theorem givesS_effUn (hi : exec i s = runSlot 1 (effUn g d a) s) (hv : ∀ q o, g (sReg o q a.toNat) = v q o) : GivesS i s d 1 v :=
  givesS_of h hi (by decide) (fun q _ t => by rw [← hv]; rfl)

end

/-! ### The functions -/

theorem fnSlt_eq (x y : Word) : fnSlt x y = if x.toInt < y.toInt then 1 else 0 := (fSlt_eq x y).symm
theorem fnSltu_eq (x y : Word) : fnSltu x y = if x.toNat < y.toNat then 1 else 0 := (fSltu_eq x y).symm

/-- Settles O12: each form gives its function of the two registers. -/
theorem scalarRegisterForms : Obligations.ScalarRegisterForms := by
  unfold Obligations.ScalarRegisterForms
  intro s d a b h
  exact ⟨givesS_effBin h rfl (fun _ _ => rfl), givesS_effBin h rfl (fun _ _ => rfl), givesS_effBin h rfl (fun _ _ => rfl),
    givesS_effBin h rfl (fun _ _ => rfl), givesS_effBin h rfl (fun _ _ => rfl), givesS_effBin h rfl (fun _ _ => rfl),
    givesS_effBin h rfl (fun _ _ => rfl), givesS_effBin h rfl (fun _ _ => rfl), givesS_effBin h rfl (fun _ _ => fnSlt_eq _ _),
    givesS_effBin h rfl (fun _ _ => fnSltu_eq _ _), givesS_effBin h rfl (fun _ _ => rfl), givesS_effBin h rfl (fun _ _ => (fMin_eq _ _).symm),
    givesS_effBin h rfl (fun _ _ => (fMax_eq _ _).symm), givesS_effBin h rfl (fun _ _ => (fMinu_eq _ _).symm),
    givesS_effBin h rfl (fun _ _ => (fMaxu_eq _ _).symm)⟩

/-! ### Products (R367) -/

theorem fnMul_eq (x y : Word) : fnMul x y = (x.setWidth 128 * y.setWidth 128).setWidth 64 := by
  simp [fnMul, BitVec.setWidth_mul]

/-- The upper half of a signed product. -/
theorem fnMulh_eq (x y : Word) : fnMulh x y = (x.signExtend 128 * y.signExtend 128).extractLsb' 64 64 := by
  have product : x.signExtend 128 * y.signExtend 128 = BitVec.ofInt 128 (x.toInt * y.toInt) := by
    apply BitVec.eq_of_toInt_eq
    simp [BitVec.toInt_mul, BitVec.toInt_signExtend_of_le, BitVec.toInt_ofInt]
  apply BitVec.eq_of_toNat_eq
  rw [product, fnMulh, BitVec.extractLsb'_toNat, Nat.shiftRight_eq_div_pow]
  simp only [BitVec.toNat_ofInt]
  generalize x.toInt * y.toInt = z
  omega

/-- Over the bits of its second factor below a bound, the carry-less product is the XOR of the shifted first one. -/
theorem toNat_carryless_below (x y : Word) : ∀ n ≤ 64,
    ((List.range n).foldl (fun p i => if y.getLsbD i then p ^^^ (x.setWidth 128 <<< i) else p) 0).toNat = clmulN x.toNat y.toNat n := by
  intro n
  induction n with
  | zero => exact fun _ => rfl
  | succ n ih =>
    intro hn
    have shifted : ((x.setWidth 128) <<< n).toNat = x.toNat * 2 ^ n := by
      have inside : x.toNat * 2 ^ n < 2 ^ 128 := calc
        x.toNat * 2 ^ n < 2 ^ 64 * 2 ^ 64 := Nat.mul_lt_mul_of_lt_of_le x.isLt (Nat.pow_le_pow_right (by decide) (by omega)) (by positivity)
        _ = 2 ^ 128 := by norm_num
      rw [BitVec.toNat_shiftLeft, BitVec.toNat_setWidth_of_le (by decide), Nat.shiftLeft_eq, Nat.mod_eq_of_lt inside]
    rw [List.range_succ, List.foldl_append, List.foldl_cons, List.foldl_nil, clmulN, ← ih (by omega), bitAt_toNat]
    split
    · rw [BitVec.toNat_xor, shifted, Nat.xor_comm]; rfl
    · exact (Nat.zero_xor _).symm

theorem toNat_carryless (x y : Word) : (carryless x y).toNat = clmulN x.toNat y.toNat 64 := toNat_carryless_below x y 64 le_rfl

theorem fnClmul_eq (x y : Word) : fnClmul x y = (carryless x y).setWidth 64 := by
  apply BitVec.eq_of_toNat_eq
  rw [fnClmul, ← toNat_carryless, BitVec.toNat_ofNat, BitVec.toNat_setWidth]

theorem fnClmulh_eq (x y : Word) : fnClmulh x y = (carryless x y).extractLsb' 64 64 := by
  apply BitVec.eq_of_toNat_eq
  rw [fnClmulh, ← toNat_carryless, BitVec.toNat_ofNat, BitVec.extractLsb'_toNat, Nat.shiftRight_eq_div_pow]

/-! ### Bit counts (R368) -/

/-- The run of numbers from zero on that satisfy a condition ends at the first that does not. -/
theorem length_takeWhile_range {p : Nat → Bool} {m n : Nat} (hm : m ≤ n) (before : ∀ i < m, p i = true) (here : m < n → p m = false) :
    ((List.range n).takeWhile p).length = m := by
  obtain ⟨k, rfl⟩ := Nat.exists_eq_add_of_le hm
  have run : (List.range m).takeWhile p = List.range m := List.takeWhile_eq_self_iff.2 (fun i hi => before i (List.mem_range.1 hi))
  rw [List.range_add, List.takeWhile_append_of_pos (fun i hi => before i (List.mem_range.1 hi))]
  cases k with
  | zero => simp
  | succ k => simp [List.range_succ_eq_map, here (by omega)]

/-- The number of clear bits from a bit on is where the first set one stands. -/
theorem ctzN_spec (x n : Nat) : ∀ i, i ≤ ctzN x i n ∧ ctzN x i n ≤ i + n ∧ (∀ j, i ≤ j → j < ctzN x i n → bitAt x j = false) ∧
    (ctzN x i n < i + n → bitAt x (ctzN x i n) = true) := by
  induction n with
  | zero => exact fun i => ⟨le_rfl, le_rfl, fun j h h' => absurd h (by simpa [ctzN] using h'), fun h => absurd h (lt_irrefl _)⟩
  | succ n ih =>
    intro i
    rw [ctzN]
    split
    next set => exact ⟨le_rfl, by omega, fun j h h' => absurd h (by omega), fun _ => set⟩
    next clear =>
      obtain ⟨low, high, zeros, last⟩ := ih (i + 1)
      refine ⟨by omega, by omega, fun j hj hlt => ?_, fun hlt => last (by omega)⟩
      rcases Nat.eq_or_lt_of_le hj with rfl | hj
      · exact Bool.eq_false_iff.2 clear
      · exact zeros j hj hlt

theorem fnCtz_eq (x : Word) : fnCtz x = BitVec.ofNat 64 (trailingZeros x) := by
  obtain ⟨-, high, zeros, last⟩ := ctzN_spec x.toNat 64 0
  rw [fnCtz, trailingZeros, length_takeWhile_range (m := ctzN x.toNat 0 64) (by omega)]
  · exact fun i hi => by simpa [bitAt_toNat] using zeros i (Nat.zero_le i) hi
  · exact fun hlt => by simpa [bitAt_toNat] using last (by omega)

theorem popN_eq_length (x n : Nat) : popN x n = ((List.range n).filter (bitAt x)).length := by
  induction n with
  | zero => rfl
  | succ n ih =>
    rw [popN, ih, List.range_succ, List.filter_append, List.length_append, Nat.add_comm]
    cases h : bitAt x n <;> simp [h]

theorem fnPopc_eq (x : Word) : fnPopc x = BitVec.ofNat 64 (setBits x) := by
  have bits : bitAt x.toNat = x.getLsbD := funext (bitAt_toNat x)
  rw [fnPopc, popN_eq_length, bits, setBits]

theorem fnClz_eq (x : Word) : fnClz x = BitVec.ofNat 64 (leadingZeros x) := by
  rw [fnClz, leadingZeros]
  split
  next zero => rw [zero, length_takeWhile_range (m := 64) le_rfl (by simp) (by simp)]; rfl
  next nonzero =>
    have hx : x.toNat ≠ 0 := fun h => nonzero (BitVec.eq_of_toNat_eq h)
    have top : topBit x.toNat < 64 := (Nat.log2_lt hx).2 x.isLt
    rw [length_takeWhile_range (m := 63 - topBit x.toNat) (by omega)]
    · intro i hi
      have below : x.toNat < 2 ^ (63 - i) := (Nat.log2_lt hx).1 (by rw [topBit] at hi; omega)
      simpa [← BitVec.testBit_toNat] using Nat.testBit_lt_two_pow below
    · intro _
      have place : 63 - (63 - topBit x.toNat) = x.toNat.log2 := by rw [topBit] at *; omega
      rw [place]
      simpa [← BitVec.testBit_toNat] using Nat.testBit_log2 hx

/-! ### Moves (R368) -/

/-- A field replaced: its bits are those written, and the others stand. -/
theorem testBit_withBits (x lo n v j : Nat) :
    (withBits x lo n v).testBit j = if lo ≤ j ∧ j < lo + n then v.testBit (j - lo) else x.testBit j := by
  have parts : withBits x lo n v = 2 ^ lo * (2 ^ n * (x / 2 ^ lo / 2 ^ n) + v % 2 ^ n) + x % 2 ^ lo := by
    have low := Nat.div_add_mod x (2 ^ lo)
    have field := Nat.div_add_mod (x / 2 ^ lo) (2 ^ n)
    have whole : x = 2 ^ lo * (2 ^ n * (x / 2 ^ lo / 2 ^ n)) + x % 2 ^ lo + bitsOf x lo n * 2 ^ lo := calc
      x = 2 ^ lo * (2 ^ n * (x / 2 ^ lo / 2 ^ n) + x / 2 ^ lo % 2 ^ n) + x % 2 ^ lo := by rw [field, low]
      _ = _ := by rw [bitsOf]; ring
    rw [withBits]
    conv_lhs => enter [1, 1]; rw [whole]
    rw [Nat.add_sub_cancel]
    ring
  rw [parts, Nat.testBit_two_pow_mul_add _ (Nat.mod_lt _ (Nat.two_pow_pos lo)), Nat.testBit_two_pow_mul_add _ (Nat.mod_lt _ (Nat.two_pow_pos n))]
  simp only [Nat.testBit_mod_two_pow, Nat.testBit_div_two_pow]
  by_cases below : j < lo
  · simp [below, Nat.not_le.2 below]
  · by_cases inside : j - lo < n
    · simp [below, inside, Nat.not_lt.1 below, show j < lo + n by omega]
    · simp [below, inside, show ¬ j < lo + n by omega, show j - lo - n + n + lo = j by omega]

/-- A quarter of a word replaced: its bits, and the others as they were. -/
theorem getLsbD_withBits_quarter (x : Word) (p : BitVec 2) (v : BitVec 16) {j : Nat} (hj : j < 64) :
    (BitVec.ofNat 64 (withBits x.toNat (16 * p.toNat) 16 v.toNat)).getLsbD j = if j / 16 = p.toNat then v.getLsbD (j % 16) else x.getLsbD j := by
  have quarter : (16 * p.toNat ≤ j ∧ j < 16 * p.toNat + 16) ↔ j / 16 = p.toNat := by omega
  simp only [BitVec.getLsbD_ofNat, hj, decide_true, Bool.true_and, testBit_withBits, quarter, BitVec.testBit_toNat]
  split
  next here => rw [← here, ← Nat.mod_def]
  next => rfl

theorem shift_amount (b : BitVec 6) : (b.setWidth 64).toNat % 64 = b.toNat := by
  rw [BitVec.toNat_setWidth_of_le (by decide), Nat.mod_eq_of_lt b.isLt]

/-- Settles O13: the products, the immediate forms and the bit counts each by the lemma of its function. -/
theorem scalarProductsAndMoves : Obligations.ScalarProductsAndMoves := by
  unfold Obligations.ScalarProductsAndMoves
  refine ⟨fun s d a b h => ?products, fun s d a b c i n p x z h => ?forms⟩
  case products =>
    exact ⟨givesS_effBin h rfl (fun _ _ => fnMul_eq _ _), givesS_effBin h rfl (fun _ _ => fnMulh_eq _ _), givesS_effBin h rfl (fun _ _ => fMulhu_eq _ _),
      givesS_effBin h rfl (fun _ _ => fnClmul_eq _ _), givesS_effBin h rfl (fun _ _ => fnClmulh_eq _ _)⟩
  case forms =>
    have signed : (i.signExtend 64).toInt = i.toInt := BitVec.toInt_signExtend_of_le (by decide)
    exact ⟨givesS_effImm h rfl (fun _ _ => rfl), givesS_effImm h rfl (fun _ _ => rfl), givesS_effImm h rfl (fun _ _ => rfl),
      givesS_effImm h rfl (fun _ _ => rfl), givesS_effShi h rfl (fun _ _ => congrArg _ (shift_amount b)),
      givesS_effShi h rfl (fun _ _ => congrArg _ (shift_amount b)), givesS_effShi h rfl (fun _ _ => congrArg _ (shift_amount b)),
      givesS_effImm h rfl (fun _ _ => signed ▸ fnSlt_eq _ _), givesS_effImm h rfl (fun _ _ => fnSltu_eq _ _), givesS_effImm h rfl (fun _ _ => rfl),
      givesS_of (f := effSel d a b c) h rfl (by decide) (fun q _ t => by rw [effSel, ite_not]),
      givesS_of (f := effMovi d n) h rfl (by decide) (fun _ _ _ => rfl), givesS_effUn h rfl (fun _ _ => fnClz_eq _),
      givesS_effUn h rfl (fun _ _ => fnCtz_eq _), givesS_effUn h rfl (fun _ _ => fnPopc_eq _),
      ⟨_, givesS_of (f := effMovhi d p x) h rfl (by decide) (fun _ _ _ => rfl), fun _ _ _ hj => getLsbD_withBits_quarter _ p x hj⟩,
      issues_ok (f := effHint) h rfl (by decide) (fun _ _ _ => rfl) (fun _ _ _ => rfl)⟩

end Sys2Proof.Machine
end

section
/-! Pointer tests, casts and displacements, global pointers, and the engines' shadow registers (R340, R369-R373). -/

namespace Sys2Proof.Machine

open Sys2Proof.Safety

/-! ### SPTEST (R369) -/

/-- The seven flags of SPTEST, from bit 4 on. -/
def spFlags (s : State) (c : Nat) (p : Word) : List Bool :=
  let x := p.toNat
  let w := winOf p
  [w == 3 || w == 5 || w == 6 || w == 7,
   (w == 0 && !(bitsOf x 51 9 == c && bitsOf x 46 5 == Safety.slotOf s c)) || (w == 1 && bitsOf x 51 9 != c),
   (w == 1 && bitsOf x 22 29 != 0) || (w == 2 && bitsOf x 24 36 != 0),
   (w == 0 && decide (0x4000 ≤ bitsOf x 0 46)) || ((w == 1 || w == 2) && decide (0x380000 ≤ bitsOf x 0 22)),
   (w == 1 || w == 2) && owned s (if w = 1 then bitsOf x 51 9 else clusterCore (coreCluster c) (bitsOf x 22 2)) (bitsOf x 0 22) 1 (coreCic c),
   w == 8 && !(taskOps s c).any (fun q => opHandle q == bitsOf x 40 23),
   w == 4 && (routeFor s (taskPart s c) (bitsOf x 0 60) 1).isNone]

theorem winOf_lt (p : Word) : winOf p < 16 := by
  rw [winOf]
  split
  · decide
  · exact Nat.mod_lt _ (by decide)

theorem sptest_eq (s : State) (c : Nat) (p : Word) : sptest s c p = 2 ^ 4 * packElems 1 ((spFlags s c p).map Bool.toNat) + winOf p := by
  have flag (b : Bool) (i : Nat) : (if b then 2 ^ i else 0) = b.toNat * 2 ^ i := by cases b <;> simp
  have bit (b : Bool) : b.toNat % 2 ^ 1 = b.toNat := Nat.mod_eq_of_lt b.toNat_lt
  simp only [sptest, flag, spFlags, List.map_cons, List.map_nil, packElems, bit, Safety.slotOf]
  ring

/-- A packed list of bits is below the power of two of its length. -/
theorem packElems_lt (w : Nat) (l : List Nat) : packElems w l < 2 ^ (w * l.length) := by
  induction l with
  | nil => simp [packElems]
  | cons x t ih =>
    have head : x % 2 ^ w < 2 ^ w := Nat.mod_lt _ (Nat.two_pow_pos w)
    calc x % 2 ^ w + 2 ^ w * packElems w t < 2 ^ w + 2 ^ w * packElems w t := by omega
      _ = 2 ^ w * (packElems w t + 1) := by ring
      _ ≤ 2 ^ w * 2 ^ (w * t.length) := Nat.mul_le_mul_left _ ih
      _ = 2 ^ (w * (x :: t).length) := by rw [List.length_cons, Nat.mul_succ, Nat.add_comm, pow_add]

theorem sptest_lt (s : State) (c : Nat) (p : Word) : sptest s c p < 2048 := by
  have flags : packElems 1 ((spFlags s c p).map Bool.toNat) < 2 ^ 7 := packElems_lt 1 _
  have window := winOf_lt p
  rw [sptest_eq]
  omega

theorem bitAt_sptest (s : State) (c : Nat) (p : Word) (i : Nat) : bitAt (sptest s c p) (4 + i) = (spFlags s c p).getD i false := by
  rw [bitAt_eq_testBit, sptest_eq, Nat.testBit_two_pow_mul_add _ (winOf_lt p), if_neg (by omega), Nat.add_sub_cancel_left, testBit_packElems_one]
  simp only [List.getD_eq_getElem?_getD, List.getElem?_map]
  cases (spFlags s c p)[i]? with
  | none => rfl
  | some b => cases b <;> rfl

theorem sptestSays_sptest (q : Nat) (o : State) (p : Word) : SptestSays q o p.toNat (sptest o q p) := by
  have window : windowOf p.toNat = winOf p := rfl
  refine ⟨?_, sptest_lt o q p, ?_, ?_, ?_, ?_, ?_, ?_, ?_⟩
  · have low := winOf_lt p
    rw [sptest_eq, window]
    omega
  · rw [bitAt_sptest o q p 0, window]; simp [spFlags, or_assoc]
  · rw [bitAt_sptest o q p 1, window]; simp [spFlags]
  · rw [bitAt_sptest o q p 2, window]; simp [spFlags]
  · rw [bitAt_sptest o q p 3, window]; simp [spFlags]
  · rw [bitAt_sptest o q p 4, window]
    by_cases w1 : winOf p = 1 <;> simp [spFlags, w1]
  · rw [bitAt_sptest o q p 5, window]; simp [spFlags]
  · rw [bitAt_sptest o q p 6, window]; simp [spFlags]

/-- Settles O14: the flags that SPTEST writes are the checks of a 1-byte load. -/
theorem sptestClassifies : Obligations.SptestClassifies := by
  unfold Obligations.SptestClassifies
  refine fun s d a h => ⟨fun q o => BitVec.ofNat 64 (sptest o q (sReg o q a.toNat)), givesS_of (f := effSptest d a) h rfl (by decide) (fun _ _ _ => rfl),
    fun q o => ?_⟩
  have small : sptest o q (sReg o q a.toNat) < 2 ^ 64 := (sptest_lt _ _ _).trans (by norm_num)
  rw [BitVec.toNat_ofNat, Nat.mod_eq_of_lt small]
  exact sptestSays_sptest q o _

/-! ### Casts and displacements (R370, R372) -/

theorem spcastSp_eq (c : Nat) (p : Word) : spcastSp c p = castToScratchpad c p := by
  simp only [spcastSp, castToScratchpad, Nat.one_mul]

theorem padd_eq (p q : Word) : padd p q = displaced p q.toInt := by
  have width : offWidth p = offsetWidth p.toNat := rfl
  have field : fieldW p 0 (offWidth p) = p.toNat % 2 ^ offWidth p := by rw [fieldW, bitsOf, pow_zero, Nat.div_one]
  simp only [padd, displaced, field, ← width]
  split
  next => rfl
  next inside =>
    obtain ⟨-, low, high⟩ : ¬ _ ∧ ¬ _ ∧ ¬ _ := by simpa only [not_or] using inside
    congr 1
    generalize ((p.toNat % 2 ^ offWidth p : Nat) : Int) + q.toInt = sum at *
    have small : sum.toNat % 2 ^ offWidth p = sum.toNat := Nat.mod_eq_of_lt (by zify; rw [Int.toNat_of_nonneg (not_lt.1 low)]; exact not_le.1 high)
    have split := Nat.div_add_mod' p.toNat (2 ^ offWidth p)
    rw [withBits, bitsOf, pow_zero, Nat.div_one, Nat.mul_one, Nat.mul_one, small]
    omega

/-! ### Global pointers (R371) -/

/-- GPTR and GPTR.H: INVALID where the operand words name no global pointer, else the pointer, for a handle of an operand. -/
theorem effGptr_eq {h : Bool} {d a b : BitVec 6} {c : Nat} {o : State} (s : State)
    (named : fieldW (sReg o c b.toNat) 40 24 = 0 → (h = false → (sReg o c a.toNat).getLsbD 63 = true) →
      ∃ x ∈ taskOps o c, opHandle x = fieldW (sReg o c a.toNat) (if h then 0 else 40) 23) :
    effGptr h d a b c o s = .ok (resultS c d.toNat
      (if fieldW (sReg o c b.toNat) 40 24 ≠ 0 ∨ (h = false ∧ (sReg o c a.toNat).getLsbD 63 = false) then ptrInvalid
       else BitVec.ofNat 64 (2 ^ 63 + fieldW (sReg o c a.toNat) (if h then 0 else 40) 23 * 2 ^ 40 + fieldW (sReg o c b.toNat) 0 40)) 1 s) := by
  have handle : (if h then fieldW (sReg o c a.toNat) 0 23 else fieldW (sReg o c a.toNat) 40 23) = fieldW (sReg o c a.toNat) (if h then 0 else 40) 23 := by
    cases h <;> rfl
  simp only [effGptr, bitAt_toNat, handle]
  split
  next => rfl
  next valid =>
    obtain ⟨x, mem, hx⟩ := named (by_contra fun e => valid (.inl e)) (fun e => by_contra fun g => valid (.inr ⟨e, Bool.eq_false_iff.2 g⟩))
    rw [if_pos (List.any_eq_true.2 ⟨x, mem, by simpa using hx⟩)]

/-! ### Parts of shadow registers (R340) -/

/-- A part of a shadow register written: its bits, the others as they were, and the reserved ones zero. -/
theorem getLsbD_part (w : Word) (x : BitVec 1024) (lo n keep : Nat) {i : Nat} (hi : i < 64) :
    (BitVec.ofNat 64 (withBits w.toNat lo n x.toNat) &&& BitVec.ofNat 64 keep).getLsbD i =
      ((if lo ≤ i ∧ i < lo + n then x.getLsbD (i - lo) else w.getLsbD i) && Nat.testBit keep i) := by
  simp only [BitVec.getLsbD_and, BitVec.getLsbD_ofNat, hi, decide_true, Bool.true_and, testBit_withBits, BitVec.testBit_toNat]

/-- Settles O15: each pointer by the lemma of its function, and a part of a shadow register by its bits. -/
theorem pointersAndShadows : Obligations.PointersAndShadows := by
  unfold Obligations.PointersAndShadows
  refine ⟨fun s d a b h => ⟨?_, ?_, givesS_effBin h rfl (fun _ _ => padd_eq _ _)⟩, fun s d a b h => ⟨fun named => ?_, fun named => ?_⟩, fun s r p a h => ⟨?_, ?_, ?_⟩,
    fun r n p i x hp hi => ?_⟩
  · exact givesS_of (f := effSpcast false d a) h rfl (by decide) (fun q _ t => by rw [← spcastSp_eq]; rfl)
  · exact givesS_of (f := effSpcast true d a) h rfl (by decide) (fun _ _ _ => rfl)
  · refine givesS_of (f := effGptr false d a b) h rfl (by decide) (fun q hq t => ?_)
    simpa using effGptr_eq (d := d) t (fun zero global => named q hq zero (global rfl))
  · refine givesS_of (f := effGptr true d a b) h rfl (by decide) (fun q hq t => ?_)
    simpa using effGptr_eq (h := true) (d := d) t (fun zero _ => named q hq zero)
  · exact gives_of (f := effStg r p a) h rfl (by decide) (fun _ _ _ => rfl)
  · refine gives_of (f := effShf r p a) h rfl (by decide) (fun q _ t => ?_)
    have shape (high : ¬ r.toNat < 4) : 8 + (r.toNat - 4) = 4 + r.toNat := by omega
    by_cases low : r.toNat < 4
    · simp only [effShf, low, if_true]
    · simp only [effShf, low, if_false, shape low]
  · exact gives_of (f := effMpw r p a) h rfl (by decide) (fun _ _ _ => rfl)
  · interval_cases p <;> simp only [writeDst, Tab.get_upd, if_true, getLsbD_part _ _ _ _ _ hi, partRange, and_self]

end Sys2Proof.Machine
end

section
/-! The integer operations of the vector slots on each active element, and the comparisons (R391-R395). -/

namespace Sys2Proof.Machine

open Sys2Proof.Safety

/-! ### Elements -/

theorem elem_lt (v w i : Nat) : elem v w i < 2 ^ w := Nat.mod_lt _ (Nat.two_pow_pos w)

theorem vElem_lt (o : State) (c n : Nat) (e : Fmt) (i : Nat) : vElem o c n e i < 2 ^ e.width := elem_lt _ _ _

/-- An operation on two elements gives its function of them. -/
theorem givesExact_effVInt {s : State} (h : Ready s) {i : Instr} {pos : Nat} {f : Fmt → Nat → Nat → Nat} {d a b : BitVec 6} {k : BitVec 4} {e : Fmt}
    {v : Nat → State → Nat → Nat} (hi : exec i s = runSlot pos (effVInt f d a b k e) s) (hp : pos ≠ 0)
    (hv : ∀ q o j, f e (vElem o q a.toNat e j) (vElem o q b.toNat e j) = v q o j) : GivesExact i s d k e 2 v :=
  givesExact_of h hi hp (fun q _ t => by simp only [effVInt, hv])

/-! ### The functions (R394) -/

/-- The upper half of a product of integers, modulo the width. -/
theorem vMulh_eq (e : Fmt) (x y : Nat) : vMulh e x y = wrap e.width (eVal e x * eVal e y / 2 ^ e.width) := by
  rw [vMulh]
  generalize eVal e x * eVal e y = z
  have pos : (0 : Int) < 2 ^ e.width := by positivity
  have square : (2 : Int) ^ (2 * e.width) = 2 ^ e.width * 2 ^ e.width := by rw [two_mul, pow_add]
  have halves : z % (2 ^ e.width * 2 ^ e.width) / 2 ^ e.width = z / 2 ^ e.width % 2 ^ e.width := by
    rw [Int.emod_def z, Int.emod_def (z / 2 ^ e.width), ← Int.ediv_ediv_of_nonneg pos.le, mul_assoc, sub_eq_add_neg, ← mul_neg,
      Int.add_mul_ediv_left _ _ pos.ne', sub_eq_add_neg]
  have reads (x n : Int) (hn : 0 < n) : ((x % n).toNat : Int) = x % n := Int.toNat_of_nonneg (Int.emod_nonneg x hn.ne')
  apply Int.ofNat_inj.1
  rw [wrap, wrap, square, Int.natCast_ediv, reads _ _ (by positivity), reads _ _ pos, ← halves]
  push_cast
  rfl

theorem vMin_eq (e : Fmt) (x y : Nat) : vMin e x y = if eVal e x ≤ eVal e y then x else y := by
  simp only [vMin, ← Int.not_lt, ite_not]

theorem ilo_le_ihi (sgn : Bool) (w : Nat) : ilo sgn w ≤ ihi sgn w := by
  have half : (0 : Int) < 2 ^ (w - 1) := by positivity
  have whole : (0 : Int) < 2 ^ w := by positivity
  cases sgn <;> simp only [ilo, ihi, if_true, Bool.false_eq_true, if_false] <;> omega

theorem satI_eq {lo hi : Int} (h : lo ≤ hi) (x : Int) : satI x lo hi = max lo (min hi x) := by
  rw [satI]
  omega

theorem vAndn_eq {e : Fmt} {x y : Nat} (hy : y < 2 ^ e.width) : vAndn e x y = x &&& (2 ^ e.width - 1 - y) := by
  rw [vAndn, Nat.mod_eq_of_lt hy]
  rfl

theorem vShl_eq (e : Fmt) (x y : Nat) : vShl e x y = x <<< (y % e.width) % 2 ^ e.width := by rw [vShl, Nat.shiftLeft_eq]

theorem vShr_eq (e : Fmt) (x y : Nat) : vShr e x y = x >>> (y % e.width) := by rw [vShr, Nat.shiftRight_eq_div_pow]

theorem vAdds_eq (e : Fmt) (x y : Nat) :
    vAdds e x y = wrap e.width (max (ilo e.isSigned e.width) (min (ihi e.isSigned e.width) (eVal e x + eVal e y))) := by
  rw [vAdds, satI_eq (ilo_le_ihi _ _)]

theorem vSubs_eq (e : Fmt) (x y : Nat) :
    vSubs e x y = wrap e.width (max (ilo e.isSigned e.width) (min (ihi e.isSigned e.width) (eVal e x - eVal e y))) := by
  rw [vSubs, satI_eq (ilo_le_ihi _ _)]

/-- Settles O16: each operation by the lemma of its function of two elements. -/
theorem vectorIntegerLanes : Obligations.VectorIntegerLanes := by
  unfold Obligations.VectorIntegerLanes
  intro s d a b k e h _
  refine ⟨givesExact_effVInt h rfl (by decide) (fun _ _ _ => rfl), givesExact_effVInt h rfl (by decide) (fun _ _ _ => rfl),
    givesExact_effVInt h rfl (by decide) (fun _ _ _ => rfl), givesExact_effVInt h rfl (by decide) (fun _ _ _ => vMulh_eq ..),
    givesExact_effVInt h rfl (by decide) (fun _ _ _ => vMin_eq ..), givesExact_effVInt h rfl (by decide) (fun _ _ _ => rfl),
    fun signedType => givesExact_of (f := effVabs d a k e) h rfl (by decide) (fun q _ t => ?_),
    givesExact_effVInt h rfl (by decide) (fun _ _ _ => rfl), givesExact_effVInt h rfl (by decide) (fun _ _ _ => rfl),
    givesExact_effVInt h rfl (by decide) (fun _ _ _ => rfl), givesExact_effVInt h rfl (by decide) (fun _ _ _ => vAndn_eq (vElem_lt ..)),
    givesExact_effVInt h rfl (by decide) (fun _ _ _ => vShl_eq ..), givesExact_effVInt h rfl (by decide) (fun _ _ _ => vShr_eq ..),
    givesExact_effVInt h rfl (by decide) (fun _ _ _ => rfl), givesExact_effVInt h rfl (by decide) (fun _ _ _ => vAdds_eq ..),
    givesExact_effVInt h rfl (by decide) (fun _ _ _ => vSubs_eq ..)⟩
  simp only [effVabs, eVal, ival, signedType, if_true, Int.natCast_natAbs]

/-! ### Comparisons (R395) -/

theorem nthD_map_range {α : Type} (f : Nat → α) {n i : Nat} (h : i < n) (d : α) : nthD ((List.range n).map f) i d = f i := by
  simp [nthD, h]

theorem maskOf_congr {w n : Nat} {f g : Nat → Bool} (h : ∀ i < n, f i = g i) : maskOf w n f = maskOf w n g := by
  rw [maskOf, maskOf, List.map_congr_left (fun i hi => by rw [h i (List.mem_range.1 hi)])]

/-- A comparison writes the truth of its relation of each active element. -/
theorem givesMask_effVcmp {s : State} (h : Ready s) {i : Instr} {pos : Nat} {r : Int → Bool} {rel : Int → Int → Prop} [DecidableRel rel] {ne ordered : Bool}
    {d : BitVec 4} {a b : BitVec 6} {k : BitVec 4} {e : Fmt} (hi : exec i s = runSlot pos (effVcmp r ne ordered d a b k e) s) (hp : pos ≠ 0)
    (hr : ∀ x y, r (x - y) = decide (rel x y)) :
    GivesMask i s d k e 2 (fun q o j => compared rel ne ordered e (vElem o q a.toNat e j) (vElem o q b.toNat e j)) := by
  have cmp (x y : Nat) : vCmp r ne ordered e x y = compared rel ne ordered e x y := by
    simp only [vCmp, compared, hr, ← hr _ 0, sub_zero]
  refine issues_ok (f := effVcmp r ne ordered d a b k e) h hi hp (fun q _ t => ?_) (fun q t c => by simp)
  simp only [effVcmp, cmp, List.foldl_map]
  rw [maskOf_congr (fun i hi => by rw [nthD_map_range _ hi])]

/-- Settles O17: each comparison by its relation of a difference and zero. -/
theorem vectorComparisons : Obligations.VectorComparisons := by
  unfold Obligations.VectorComparisons
  intro s d a b k e h
  refine ⟨givesMask_effVcmp h rfl (by decide) (fun x y => ?_), givesMask_effVcmp h rfl (by decide) (fun x y => ?_),
    givesMask_effVcmp h rfl (by decide) (fun x y => ?_), givesMask_effVcmp h rfl (by decide) (fun x y => ?_)⟩
  · exact Bool.eq_iff_iff.2 (by simp [relEq, sub_eq_zero])
  · exact Bool.eq_iff_iff.2 (by simp [relNe, sub_eq_zero])
  · simp [relLt, sub_neg]
  · simp [relLe]

end Sys2Proof.Machine
end

section
/-! Element moves, masks, permutations, scans, merges and floating-point arithmetic of the vector slots (R396-R407). -/

namespace Sys2Proof.Machine

open Sys2Proof.Safety

/-! ### Element moves and masks (R396-R398) -/

theorem extendE_of_lt {e : Fmt} {x : Nat} (hx : x < 2 ^ e.width) :
    extendE e x = if e.isSigned then BitVec.ofInt 64 (signed e.width x) else BitVec.ofNat 64 x := by
  rw [extendE, Nat.mod_eq_of_lt hx]

theorem half_mask (m : Mask) (n : Nat) : (m >>> n).setWidth 64 = m.extractLsb' n 64 := by
  ext i hi
  simp

/-- Settles O18: each instruction is the operation of its rule on the registers of its own core. -/
theorem elementMovesAndMasks : Obligations.ElementMovesAndMasks := by
  unfold Obligations.ElementMovesAndMasks
  refine ⟨fun s d a b k m g z x e h => ⟨?_, ?_, ?_, ?_, ?_, ?_, ?_, ?_, ?_, ?_⟩, fun s d a b r x y e h => ⟨?_, ?_, ?_, ?_, ?_, ?_⟩⟩
  · exact givesV_of (f := effVsel d a b k e) h rfl (by decide) (fun _ _ _ => rfl)
  · exact givesExact_of (f := effVbcast d a k e) h rfl (by decide) (fun _ _ _ => rfl)
  · exact givesS_of (f := effVextr d a b e) h rfl (by decide) (fun q _ t => by simp only [effVextr, extendE_of_lt (vElem_lt _ _ _ _ _)])
  · exact givesV_of (f := effVinsr d a b e) h rfl (by decide) (fun _ _ _ => rfl)
  · exact givesExact_of (f := effVmov d a k e) h rfl (by decide) (fun _ _ _ => rfl)
  · exact givesS_of (f := effVmovFromMg d g) h rfl (by decide) (fun _ _ _ => rfl)
  · exact gives_of (f := effVmovToMg g a) h rfl (by decide) (fun _ _ _ => rfl)
  · exact givesS_of (f := effVmovMask false d m) h rfl (by decide) (fun q _ t => by rw [← half_mask]; rfl)
  · exact givesS_of (f := effVmovMask true d m) h rfl (by decide) (fun q _ t => by rw [← half_mask]; rfl)
  · exact issues_ok (f := effHint) h rfl (by decide) (fun _ _ _ => rfl) (fun _ _ _ => rfl)
  · exact givesK_of (f := effKbin (· &&& ·) d a b) h rfl (by decide) (fun _ _ _ => rfl)
  · exact givesK_of (f := effKbin (· ||| ·) d a b) h rfl (by decide) (fun _ _ _ => rfl)
  · exact givesK_of (f := effKbin (· ^^^ ·) d a b) h rfl (by decide) (fun _ _ _ => rfl)
  · exact givesK_of (f := effKnot d a) h rfl (by decide) (fun _ _ _ => rfl)
  · exact givesK_of (f := effKset d x y) h rfl (by decide) (fun _ _ _ => rfl)
  · exact givesS_of (f := effKpop r a e) h rfl (by decide) (fun _ _ _ => rfl)

/-! ### Permutations (R399, R401, R402) -/

/-- The carry-less product of two elements of 64 bits. -/
theorem clmulN_elems {x y : Nat} (hx : x < 2 ^ 64) (hy : y < 2 ^ 64) : clmulN x y 64 = (carryless (BitVec.ofNat 64 x) (BitVec.ofNat 64 y)).toNat := by
  rw [toNat_carryless, BitVec.toNat_ofNat, BitVec.toNat_ofNat, Nat.mod_eq_of_lt hx, Nat.mod_eq_of_lt hy]

theorem width_of_is64 {e : Fmt} (h : e.is64 = true) : e.width = 64 := by
  cases e <;> first | rfl | cases h

/-- The elements before the `i`-th that a selection takes. -/
def selectedBefore (sel : Nat → Bool) (i : Nat) : Nat := ((List.range i).filter sel).length

theorem selectedBefore_succ (sel : Nat → Bool) (i : Nat) : selectedBefore sel (i + 1) = selectedBefore sel i + if sel i then 1 else 0 := by
  rw [selectedBefore, List.range_succ, List.filter_append, List.length_append]
  cases h : sel i <;> simp [selectedBefore, h]

theorem selectedBefore_le (sel : Nat → Bool) (i : Nat) : selectedBefore sel i ≤ i :=
  (List.length_filter_le _ _).trans (List.length_range (n := i)).le

/-- An expansion from place `i` on takes the source elements that the selected places before `i` have left. -/
theorem expandL_from (sel : Nat → Bool) (src : List Nat) (n : Nat) : ∀ i,
    expandL sel (List.range' i n) (src.drop (selectedBefore sel i)) =
      (List.range' i n).map (fun j => if sel j then nthD src (selectedBefore sel j) 0 else 0) := by
  induction n with
  | zero => exact fun _ => rfl
  | succ n ih =>
    intro i
    have later := ih (i + 1)
    rw [selectedBefore_succ] at later
    rw [List.range'_succ, List.map_cons]
    cases hs : sel i with
    | false =>
      simp only [hs, Bool.false_eq_true, if_false, Nat.add_zero] at later
      cases hd : src.drop (selectedBefore sel i) <;> simp [expandL, hs, ← hd, later]
    | true =>
      simp only [hs, if_true] at later
      cases hd : src.drop (selectedBefore sel i) with
      | nil =>
        have out : src.length ≤ selectedBefore sel i := List.drop_eq_nil_iff.1 hd
        rw [List.drop_eq_nil_of_le (by omega)] at later
        simp [expandL, hs, nthD, List.getElem?_eq_none out, later]
      | cons x r =>
        have rest : src.drop (selectedBefore sel i + 1) = r := by rw [← List.tail_drop, hd, List.tail_cons]
        have head : src[selectedBefore sel i]? = some x := by rw [← List.head?_drop, hd, List.head?_cons]
        rw [rest] at later
        simp [expandL, hs, nthD, head, later]

theorem expandL_range (sel : Nat → Bool) (src : List Nat) (n : Nat) :
    expandL sel (List.range n) src = (List.range n).map (fun j => if sel j then nthD src (selectedBefore sel j) 0 else 0) := by
  have all := expandL_from sel src n 0
  rwa [List.range_eq_range']

/-- An element of a vector that holds it. -/
theorem nthD_elems {v : Vec} {e : Fmt} {i : Nat} (hi : i < lanes e) : nthD (elems v e.width) i 0 = elem v.toNat e.width i := by
  have inside : i < 1024 / e.width := by
    rw [lanes] at hi
    split at hi
    · omega
    · exact hi
  exact nthD_map_range _ inside 0

theorem effVexpand_eq (d a : BitVec 6) (k : BitVec 4) (e : Fmt) (c : Nat) (o s : State) :
    effVexpand d a k e c o s = .ok (resultV c d.toNat (ofElems e.width ((List.range (lanes e)).map (fun i =>
      if active o c k e.width i then vElem o c a.toNat e ((List.range i).filter (fun j => active o c k e.width j)).length else 0))) 3 s) := by
  rw [effVexpand, expandL_range, List.map_congr_left (fun i hi => ?_)]
  have inside : selectedBefore (active o c k e.width) i < lanes e := (selectedBefore_le _ i).trans_lt (List.mem_range.1 hi)
  rw [nthD_elems inside]
  rfl

/-- Settles O19: products of lanes by their carry-less product, an expansion by the places selected before each. -/
theorem vectorPermutations : Obligations.VectorPermutations := by
  unfold Obligations.VectorPermutations
  intro s d a b k e h
  refine ⟨fun wide => ?_, fun wide => ?_, ?_, ?_, ?_⟩
  · have elem64 (q : Nat) (r : BitVec 6) (j : Nat) : vElem (settled s) q r.toNat e j < 2 ^ 64 := width_of_is64 wide ▸ vElem_lt _ _ _ _ _
    refine givesExact_of (f := effVclmul false d a b k e) h rfl (by decide) (fun q _ t => ?_)
    simp only [effVclmul, clmulN_elems (elem64 q a _) (elem64 q b _), Bool.false_eq_true, if_false]
  · have elem64 (q : Nat) (r : BitVec 6) (j : Nat) : vElem (settled s) q r.toNat e j < 2 ^ 64 := width_of_is64 wide ▸ vElem_lt _ _ _ _ _
    refine givesExact_of (f := effVclmul true d a b k e) h rfl (by decide) (fun q _ t => ?_)
    simp only [effVclmul, clmulN_elems (elem64 q a _) (elem64 q b _), if_true]
  · exact givesExact_of (f := effVperm d a b k e) h rfl (by decide) (fun _ _ _ => rfl)
  · exact givesV_of (f := effVcompress d a k e) h rfl (by decide) (fun _ _ _ => rfl)
  · exact givesV_of (f := effVexpand d a k e) h rfl (by decide) (fun q _ t => effVexpand_eq d a k e q _ t)

/-! ### Scans (R400) -/

/-- A later value of a scan is one step from the value before it. -/
theorem scanRun_get (p : ScanOp) (e : Fmt) : ∀ (l : List Nat) (acc i : Nat) (hi : i < l.length),
    nthD (scanRun p e acc l) i (lane 0) =
      scanStep p e (if i = 0 then acc else (nthD (scanRun p e acc l) (i - 1) (lane 0)).bits) l[i]
  | [], _, _, hi => absurd hi (Nat.not_lt_zero _)
  | x :: t, acc, 0, _ => rfl
  | x :: t, acc, i + 1, hi => by
    have next := scanRun_get p e t (scanStep p e acc x).bits i (by simpa using hi)
    cases i with
    | zero => exact next
    | succ i => exact next

/-- The running values of a scan, by the number of their element. -/
def scanVal (p : ScanOp) (a : BitVec 6) (k : BitVec 4) (e : Fmt) (q : Nat) (o : State) (i : Nat) : Rnd :=
  nthD (scanVals q o p a k e) i (lane 0)

theorem lanes_pos {e : Fmt} (h : e.isPlain = true) : 0 < lanes e := by
  cases e <;> first | decide | cases h

theorem scanVals_eq {p : ScanOp} {a : BitVec 6} {k : BitVec 4} {e : Fmt} {q : Nat} {o : State} (h : e.isPlain = true) :
    let x := fun i => if active o q k e.width i then vElem o q a.toNat e i else scanId p e
    scanVals q o p a k e = lane (x 0) :: scanRun p e (x 0) ((List.range (lanes e - 1)).map (fun i => x (i + 1))) := by
  have count : lanes e = (lanes e - 1) + 1 := (Nat.sub_add_cancel (lanes_pos h)).symm
  rw [scanVals, count, List.range_succ_eq_map, List.map_cons, List.map_map]
  rfl

theorem scanVal_zero (p : ScanOp) (a : BitVec 6) (k : BitVec 4) {e : Fmt} (q : Nat) (o : State) (h : e.isPlain = true) :
    scanVal p a k e q o 0 = lane (if active o q k e.width 0 then vElem o q a.toNat e 0 else scanId p e) := by
  rw [scanVal, scanVals_eq h]
  rfl

theorem scanVal_succ (p : ScanOp) (a : BitVec 6) (k : BitVec 4) {e : Fmt} (q : Nat) (o : State) (h : e.isPlain = true) {i : Nat} (hi : i + 1 < lanes e) :
    scanVal p a k e q o (i + 1) = scanStep p e (scanVal p a k e q o i).bits
      (if active o q k e.width (i + 1) then vElem o q a.toNat e (i + 1) else scanId p e) := by
  have step := scanRun_get p e ((List.range (lanes e - 1)).map (fun i => if active o q k e.width (i + 1) then vElem o q a.toNat e (i + 1) else scanId p e))
    (if active o q k e.width 0 then vElem o q a.toNat e 0 else scanId p e) i (by simpa using (by omega : i < lanes e - 1))
  rw [scanVal, scanVal, scanVals_eq h]
  cases i with
  | zero => simpa [nthD, lane] using step
  | succ i => simpa [nthD, lane] using step

/-! ### Merges (R404, R405) -/

/-- The merge of what is left of two lists of sixteen goes on as the merge of their elements by number. -/
theorem mergeL_from (e : Fmt) (a b : Nat → Nat) (n : Nat) : ∀ i j, i ≤ 16 → j ≤ 16 → i + j + n = 32 →
    mergeL e n (((List.range 16).map a).drop i) (((List.range 16).map b).drop j) = mergeFrom e a b n i j := by
  have gone (f : Nat → Nat) : ((List.range 16).map f).drop 16 = [] := List.drop_eq_nil_of_le (by simp)
  have next (f : Nat → Nat) {i : Nat} (hi : i < 16) : ((List.range 16).map f).drop i = f i :: ((List.range 16).map f).drop (i + 1) := by
    rw [List.drop_eq_getElem_cons (by simpa using hi)]
    simp
  induction n with
  | zero => exact fun _ _ _ _ _ => by simp [mergeL, mergeFrom]
  | succ n ih =>
    intro i j hi hj total
    rw [mergeFrom]
    rcases Nat.eq_or_lt_of_le hj with rfl | hj
    · have left : i < 16 := by omega
      have later := ih (i + 1) 16 (by omega) (by omega) (by omega)
      rw [gone b] at later ⊢
      rw [next a left, mergeL, later, if_pos (.inl rfl)]
    rcases Nat.eq_or_lt_of_le hi with rfl | hi
    · have later := ih 16 (j + 1) (by omega) (by omega) (by omega)
      rw [gone a] at later ⊢
      rw [next b hj, mergeL, later, if_neg (by omega)]
    · rw [next a hi, next b hj, mergeL]
      by_cases first : eVal e (b j) < eVal e (a i)
      · have later := ih i (j + 1) (by omega) (by omega) (by omega)
        rw [next a hi] at later
        rw [if_pos first, later, if_neg (by omega)]
      · have later := ih (i + 1) j (by omega) (by omega) (by omega)
        rw [next b hj] at later
        rw [if_neg first, later, if_pos (.inr ⟨hi, first⟩)]

theorem mergeL_elems (e : Fmt) (v w : Vec) :
    mergeL e 32 (elems v 64) (elems w 64) = mergeFrom e (elem v.toNat 64) (elem w.toNat 64) 32 0 0 :=
  mergeL_from e (elem v.toNat 64) (elem w.toNat 64) 32 0 0 (by decide) (by decide) (by decide)

theorem length_mergeFrom (e : Fmt) (a b : Nat → Nat) (n : Nat) : ∀ i j, (mergeFrom e a b n i j).length = n := by
  induction n with
  | zero => exact fun _ _ => rfl
  | succ n ih =>
    intro i j
    rw [mergeFrom]
    split <;> rw [List.length_cons, ih]

theorem popN_double_add (x n : Nat) {c : Nat} (hc : c < 2) : popN (c + 2 * x) (n + 1) = c + popN x n := by
  have shifted (i : Nat) : bitAt (c + 2 * x) (i + 1) = bitAt x i := by
    have half : (c + 2 * x) / 2 = x := by omega
    rw [bitAt, bitAt, Nat.pow_succ', ← Nat.div_div_eq_div_mul, half]
  have lowest : bitAt (c + 2 * x) 0 = (c == 1) := by
    rw [bitAt, pow_zero, Nat.div_one, Nat.add_mul_mod_self_left, Nat.mod_eq_of_lt hc]
  induction n with
  | zero =>
    have low : c = 0 ∨ c = 1 := by omega
    change (if bitAt (c + 2 * x) 0 then 1 else 0) + 0 = c + 0
    rw [lowest]
    rcases low with rfl | rfl <;> rfl
  | succ n ih => rw [popN, ih, shifted, popN]; omega

/-- The set bits of packed marks are the marked entries. -/
theorem popN_marks (l : List (Nat × Bool)) : popN (packElems 1 (l.map (fun z => if z.2 then 1 else 0))) l.length = (l.filter (fun z => z.2)).length := by
  induction l with
  | nil => rfl
  | cons z t ih =>
    rw [List.map_cons, packElems, List.length_cons, pow_one, popN_double_add _ _ (Nat.mod_lt _ (by decide)), ih]
    cases hz : z.2 <;> simp [hz, Nat.add_comm]

/-- What a merge of two vectors makes of a core: the sixteen lower or upper outputs, and the merge register. -/
theorem effVmerge_eq (hi : Bool) (d a b : BitVec 6) (m : BitVec 2) (e : Fmt) (q : Nat) (o t : State) :
    let half := ((mergeFrom e (elem (vReg o q a.toNat).toNat 64) (elem (vReg o q b.toNat).toNat 64) 32 0 0).drop (if hi then 16 else 0)).take 16
    let nb := (half.filter (fun z => z.2)).length
    effVmerge hi d a b m e q o t = .ok (result q (.mg m.toNat)
      (BitVec.ofNat 1024 (packElems 1 (half.map (fun z => if z.2 then 1 else 0)) + (if hi then 2 ^ 16 else 0) +
        (fieldW (mgReg o q m.toNat) 17 23 + (16 - nb)) % 2 ^ 23 * 2 ^ 17 + (fieldW (mgReg o q m.toNat) 40 23 + nb) % 2 ^ 23 * 2 ^ 40)) 3
      (resultV q d.toNat (ofElems 64 (half.map (fun z => z.1))) 3 t)) := by
  intro half nb
  have length : half.length = 16 := by
    cases hi <;> simp [half, length_mergeFrom]
  have count : popN (packElems 1 (half.map (fun z => if z.2 then 1 else 0))) 16 = nb := length ▸ popN_marks half
  simp only [effVmerge, mergeL_elems, ← count]
  rfl

/-- The lanes of a selection from lane `t` on, where `m` lanes before it came from the second vector. -/
theorem mergekvL_from (src : Nat) (a b : Nat → Nat) (ia ib n : Nat) : ∀ t,
    mergekvL src ((List.range 16).map a) ((List.range 16).map b) n t (ia + (t - selectedBefore (bitAt src) t)) (ib + selectedBefore (bitAt src) t) =
      (List.range' t n).map (payload src a b ia ib) := by
  have entry (f : Nat → Nat) (i : Nat) : nthD ((List.range 16).map f) i 0 = if i < 16 then f i else 0 := by
    by_cases h : i < 16 <;> simp [nthD, h]
  induction n with
  | zero => exact fun _ => rfl
  | succ n ih =>
    intro t
    have later := ih (t + 1)
    have before := selectedBefore_le (bitAt src) t
    rw [selectedBefore_succ] at later
    rw [List.range'_succ, List.map_cons, mergekvL, payload]
    cases hb : bitAt src t with
    | true =>
      have same : t + 1 - (selectedBefore (bitAt src) t + 1) = t - selectedBefore (bitAt src) t := by omega
      simp only [hb, if_true, same] at later ⊢
      rw [entry, ← later]
      rfl
    | false =>
      have more : ia + (t + 1 - selectedBefore (bitAt src) t) = ia + (t - selectedBefore (bitAt src) t) + 1 := by omega
      simp only [hb, Bool.false_eq_true, if_false, Nat.add_zero, more] at later ⊢
      rw [entry, ← later]
      rfl

theorem mergekvL_elems (src : Nat) (v w : Vec) (ia ib : Nat) :
    mergekvL src (elems v 64) (elems w 64) 16 0 ia ib = (List.range 16).map (payload src (elem v.toNat 64) (elem w.toNat 64) ia ib) := by
  have all := mergekvL_from src (elem v.toNat 64) (elem w.toNat 64) ia ib 16 0
  rwa [← List.range_eq_range'] at all

theorem popN_low_bits (g : Nat) : popN (g % 2 ^ 16) 16 = ((List.range 16).filter (bitAt g)).length := by
  rw [popN_eq_length, List.filter_congr (fun i hi => ?_)]
  rw [bitAt_eq_testBit, bitAt_eq_testBit, Nat.testBit_mod_two_pow, decide_eq_true (List.mem_range.1 hi), Bool.true_and]

/-- Settles O20: scans by their values in order, merges by the elements left of each vector. -/
theorem scansReductionsAndMerges : Obligations.ScansReductionsAndMerges := by
  unfold Obligations.ScansReductionsAndMerges
  refine ⟨fun s d a k e h plain p _ => ?scans, fun s d a b m e h _ => ?merges⟩
  case scans =>
    refine ⟨scanVal p a k e, fun q o => scanVal_zero p a k q o plain, fun q o i hi => scanVal_succ p a k q o plain hi, ?_, ?_⟩
    · cases p <;> exact givesLanes_of (f := effVscan _ d a k e) h rfl (by decide) (fun _ _ _ => rfl)
    · cases p <;> exact issues_ok (f := effVreduce _ d a k e) h rfl (by decide) (fun _ _ _ => rfl) (fun _ _ _ => by simp)
  case merges =>
    refine ⟨issues_ok (f := effVmerge false d a b m e) h rfl (by decide) (fun q _ t => effVmerge_eq false d a b m e q _ t) (fun _ _ _ => by simp),
      issues_ok (f := effVmerge true d a b m e) h rfl (by decide) (fun q _ t => effVmerge_eq true d a b m e q _ t) (fun _ _ _ => by simp),
      givesV_of (f := effVmergekv d a b m e) h rfl (by decide) (fun q _ t => ?_)⟩
    have low (g : Word) : fieldW g 0 16 = g.toNat % 2 ^ 16 := by rw [fieldW, bitsOf, pow_zero, Nat.div_one]
    simp only [effVmergekv, mergekvL_elems, low, popN_low_bits]

/-! ### Floating-point arithmetic (R406, R407) -/

/-- Settles O21: each operation is the rounding of its rule on each active element. -/
theorem vectorFloatingArithmetic : Obligations.VectorFloatingArithmetic := by
  unfold Obligations.VectorFloatingArithmetic
  intro s d a b k e h _
  exact ⟨givesLanes_of (f := effVFlt vFadd d a b k e) h rfl (by decide) (fun _ _ _ => rfl),
    givesLanes_of (f := effVFlt vFsub d a b k e) h rfl (by decide) (fun _ _ _ => rfl),
    givesLanes_of (f := effVFlt vFmul d a b k e) h rfl (by decide) (fun _ _ _ => rfl),
    givesLanes_of (f := effVfma d a b k e) h rfl (by decide) (fun _ _ _ => rfl),
    givesLanes_of (f := effVfminmax false d a b k e) h rfl (by decide) (fun _ _ _ => rfl),
    givesLanes_of (f := effVfminmax true d a b k e) h rfl (by decide) (fun _ _ _ => rfl)⟩

end Sys2Proof.Machine
end

section
/-! The functions of the SF slot (R412-R414), and conversions, block formats, scale registers and decode tables (R409-R411, R415-R417). -/

namespace Sys2Proof.Machine

open Sys2Proof.Safety

/-! ### The functions (R292, R413, R414) -/

/-- An operation of the SF slot goes ahead where no weight block waits for its table (R292). -/
theorem behindTable_of_free {f : Eff} {c : Nat} {o : State} (h : tableStall o c = false) (s : State) : behindTable f c o s = f c o s := by
  rw [behindTable, h]
  cases f c o s with
  | ok t => rfl
  | error stop => cases stop <;> rfl

/-- A function gives the rounded value of each active element. -/
theorem givesLanes_effFn {s : State} (h : Ready s) (free : ∀ q ∈ issuers s, tableStall (settled s) q = false) {i : Instr} {pos : Nat} {f : FFmt → FV → Rnd}
    {lat : Nat} {d a : BitVec 6} {k : BitVec 4} {e : Fmt} (hi : exec i s = runSlot pos (behindTable (effFn f lat d a k e)) s) (hp : pos ≠ 0) :
    GivesLanes i s d k e lat (fun q o j => f (ffOf e) (fdec (ffOf e) (vElem o q a.toNat e j))) :=
  givesLanes_of h hi hp (fun q hq t => behindTable_of_free (free q hq) t)

theorem effFrsqe_eq (d a b : BitVec 6) (x : BitVec 4) (q : Nat) (o t : State) :
    let el := fun (r : BitVec 6) (i : Nat) => elem (vReg o q r.toNat).toNat 32 i
    let step := fun (i : Nat) => rsqe x.toNat (fdec (ffOf .f32) (el a i)) (fdec (ffOf .f32) (el b i)) (fdec (ffOf .f32) (el d i))
    effFrsqe d a b x q o t = .ok (addNan q ((List.range 32).filter (fun i => match step i with | .keep _ => true | .set _ => false)).length
      (setFlags q ((List.range 32).foldl (fun f i => fOr f (match step i with | .keep y => y | .set y => y.flags)) 0)
        (resultV q d.toNat (ofElems 32 ((List.range 32).map (fun i => match step i with | .keep _ => el d i | .set y => y.bits))) 16 t))) := by
  simp only [effFrsqe, List.map_map, List.foldl_map, List.filter_map, List.length_map]
  rfl

/-- Settles O23: each function by its values of the active elements, FRSQE by the step of each lane. -/
theorem specialFunctions : Obligations.SpecialFunctions := by
  unfold Obligations.SpecialFunctions
  intro s d a b k x z y e h free
  refine ⟨givesLanes_effFn h free rfl (by decide), givesLanes_effFn h free rfl (by decide), givesLanes_effFn h free rfl (by decide),
    givesLanes_effFn h free rfl (by decide), givesLanes_effFn h free rfl (by decide), givesLanes_effFn h free rfl (by decide),
    givesLanes_effFn h free rfl (by decide), givesLanes_effFn h free rfl (by decide),
    issues_ok (f := behindTable (effFrsqe d a b x)) h rfl (by decide) (fun q hq t => ?_) (fun _ _ _ => by simp),
    issues_ok (f := effHint) h rfl (by decide) (fun _ _ _ => rfl) (fun _ _ _ => rfl)⟩
  rw [behindTable_of_free (free q hq)]
  exact effFrsqe_eq d a b x q _ t

/-! ### Conversions and block formats (R409-R411) -/

/-- A conversion of one part of the wider side. -/
theorem effVcvt_eq {d a : BitVec 6} {t : Fmt} {r : BitVec 2} {p : BitVec 3} {z : BitVec 1} {e : Fmt} (q : Nat) (o u : State) :
    let m := 1024 / max e.width t.width
    let c := fun (i : Nat) => convert (vElem o q a.toNat e i) e t r.toNat (z == 1)
    effVcvt d a t r p z e q o u = .ok (setFlags q ((List.range m).foldl (fun f i => fOr f (c (if t.width ≤ e.width then i else p.toNat * m + i)).flags) 0)
      (resultV q d.toNat (ofElems t.width ((List.range (1024 / t.width)).map (fun j =>
        if t.width ≤ e.width then
          (if p.toNat * m ≤ j ∧ j < p.toNat * m + m then (c (j - p.toNat * m)).bits else vElem o q d.toNat t j)
        else (c (p.toNat * m + j)).bits))) 3 u)) := by
  intro m c
  have size : 1024 / Nat.max e.width t.width = m := rfl
  simp only [effVcvt, size, List.foldl_map]
  congr 4
  refine List.map_congr_left (fun j hj => ?_)
  have hj := List.mem_range.1 hj
  by_cases narrow : t.width ≤ e.width
  · simp only [narrow, if_true]
    split
    next inside => rw [nthD_map_range _ (by omega)]
    next => rfl
  · have part : 1024 / t.width = m := by simp only [m, max_eq_right (Nat.le_of_not_le narrow)]
    simp only [narrow, if_false]
    rw [nthD_map_range _ (part ▸ hj)]

/-- A block packed at its position of the register (R411). -/
theorem effVbqpack_eq (d a : BitVec 6) (sc : BitVec 3) (blk : BitVec 6) (e : Fmt) (q : Nat) (o u : State) :
    let bq8 := e == .bq8
    let w := if bq8 then 8 else 4
    let pos := blk.toNat % (if bq8 then 4 else 8)
    let code := fun (i : Nat) => elem (scReg o q sc.toNat).toNat 8 (2 * blk.toNat + i)
    let packed := fun (i : Nat) => packVal bq8 (code 0) (code 1) (fdec (ffOf .f32) (elem (vReg o q a.toNat).toNat 32 i))
    effVbqpack d a sc blk e q o u = .ok (setFlags q ((List.range 32).foldl (fun f i => fOr f (packed i).2) 0)
      (resultV q d.toNat (BitVec.ofNat 1024 (withBits (vReg o q d.toNat).toNat (32 * w * pos) (32 * w)
        (packElems w ((List.range 32).map (fun i => (packed i).1))))) 4 u)) := by
  simp only [effVbqpack, List.map_map, List.foldl_map]
  cases e == .bq8 <;> rfl

/-- A block unpacked from its position of the register (R411). -/
theorem effVbqunpk_eq (d a : BitVec 6) (sc : BitVec 3) (blk : BitVec 6) (e : Fmt) (q : Nat) (o u : State) :
    let bq8 := e == .bq8
    let w := if bq8 then 8 else 4
    let pos := blk.toNat % (if bq8 then 4 else 8)
    let code := fun (i : Nat) => elem (scReg o q sc.toNat).toNat 8 (2 * blk.toNat + i)
    effVbqunpk d a sc blk e q o u = .ok (resultV q d.toNat (ofElems 32 ((List.range 32).map (fun i =>
      (fto (ffOf .f32) 0 (blockVal bq8 (code 0) (code 1) (elem (bitsOf (vReg o q a.toNat).toNat (32 * w * pos) (32 * w)) w i))).bits))) 4 u) := by
  simp only [effVbqunpk]
  cases e == .bq8 <;> rfl

/-! ### Scale registers and decode tables (R415-R417) -/

theorem effScalegen_eq (sc : BitVec 3) (a : BitVec 6) (h : BitVec 1) (k : BitVec 4) (e : Fmt) (q : Nat) (o u : State) :
    let codes := fun (j : Nat) => scaleVal (e == .bq8) (fdec (ffOf .f32) (elem (vReg o q a.toNat).toNat 32 j % 2 ^ 31))
    effScalegen sc a h k e q o u = .ok (setFlags q (if (List.range 32).any (fun j => active o q k 32 j && (codes j).2.2) then fFLOOR else 0)
      (result q (.sc sc.toNat) (ofElems 8 ((List.range 128).map (fun b =>
        if b / 64 = h.toNat ∧ active o q k 32 (b % 64 / 2) then (if b % 2 = 0 then (codes (b % 64 / 2)).1 else (codes (b % 64 / 2)).2.1)
        else elem (scReg o q sc.toNat).toNat 8 b))) 6 u)) := by
  intro codes
  have code (j : Nat) (hj : j < 32) := nthD_map_range codes hj (1, 1, false)
  have raised : (List.range 32).any (fun j => active o q k 32 j && (nthD ((List.range 32).map codes) j (1, 1, false)).2.2) =
      (List.range 32).any (fun j => active o q k 32 j && (codes j).2.2) := by
    rw [Bool.eq_iff_iff, List.any_eq_true, List.any_eq_true]
    exact exists_congr (fun j => and_congr_right (fun hj => by rw [code j (List.mem_range.1 hj)]))
  simp only [effScalegen]
  rw [raised]
  rw [List.map_congr_left (fun b _ => by rw [code (b % 64 / 2) (by omega)])]

/-- A read of the core's own storages at issue, of READY banks and clean bytes, with no error armed (R230). -/
theorem readOwn_of_readable {src c : Nat} {o s : State} {p : Word} {l : Loc} {n : Nat} (ready : bankReady o l n = true) (clean : poisoned (seen o c) l n = false)
    (quiet : NoInjection s) : readOwn src c o s p l n = .ok (readLoc (seen o c) l n, s) := by
  simp [readOwn, ready, clean, injected_none quiet]

/-- An instruction whose operation gives one result where no error is armed. -/
theorem gives_reading {s : State} (h : Ready s) (quiet : NoInjection s) {i : Instr} {pos : Nat} {f : Eff} {dst : Dst} {lat : Nat} {v : Nat → State → BitVec 1024}
    (hi : exec i s = runSlot pos f s) (hp : pos ≠ 0)
    (hf : ∀ q ∈ issuers s, ∀ t, NoInjection t → f q (settled s) t = .ok (result q dst (v q (settled s)) lat t)) : Gives i s dst lat v :=
  issues_under h NoInjection hi hp (noInjection_settled quiet) (fun q hq t ht => ⟨hf q hq t ht, ht⟩) (fun _ _ _ => detected_result ..)

theorem detected_setTab (ts : Nat) (x : TableSlot) (t : State) (q c : Nat) : (coreAt (updBody t q (setTab ts x)) c).b.detected = (coreAt t c).b.detected :=
  detected_updBody (fun b => by rw [setTab]; split <;> rfl) t q c

section

variable {ts : BitVec 1} {a : BitVec 6} {c : Nat} {o : State} {l : Loc} (reached : access o c (sReg o c a.toNat) 16 16 winTable false = .ok l)
  (free : tabRefd o c ts.toNat = false)

include reached free

theorem effTbld_local (near : winOf (sReg o c a.toNat) ≠ 8) (ready : bankReady o l 16 = true) {t : State} (quiet : NoInjection t) :
    effTbld ts a c o t = .ok (updBody t c (setTab ts.toNat
      { data := BitVec.ofNat 128 (readNat (seen o c) l 16), loading := true, due := o.clk + 6, stamp := 0, bad := poisoned (seen o c) l 16 })) := by
  have calm (f : Body → Body) : NoInjection (updBody t c f) := quiet
  simp [effTbld, reached, free, near, ready, injected_none (calm _), bind, Except.bind]

theorem effTbld_global (far : winOf (sReg o c a.toNat) = 8) (room : outstanding o c < 8192) (t : State) :
    effTbld ts a c o t = .ok (
      let op : AccessOp := .table ts.toNat t.nextId (heldBytes o c l 16)
      post c (updBody { t with nextId := t.nextId + 1 } c (setTab ts.toNat { data := 0, loading := true, due := 0, stamp := t.nextId, bad := false }))
        (sReg o c a.toNat) l op none (entryNow o c (.access (sReg o c a.toNat) l op)) []) := by
  simp [effTbld, reached, free, far, Nat.not_le.2 room, fresh, bind, Except.bind]

end

/-- Settles O22: each instruction by the lemma of its operation, a load from the core's own storages by what it sees there. -/
theorem conversionsBlocksAndScales : Obligations.ConversionsBlocksAndScales := by
  unfold Obligations.ConversionsBlocksAndScales
  refine ⟨fun s d a k e h => ⟨fun t r p z _ => ?_, fun p _ => ?_, fun sc blk _ => ⟨?_, ?_⟩⟩, fun s sc a hf ts k e dp l h quiet free => ⟨?_, fun read => ?_, fun near => ?_, fun far => ?_⟩⟩
  · exact issues_ok (f := effVcvt d a t r p z e) h rfl (by decide) (fun q _ u => effVcvt_eq q _ u) (fun _ _ _ => by simp)
  · exact givesV_of (f := effVamax d a p k e) h rfl (by decide) (fun _ _ _ => rfl)
  · exact issues_ok (f := effVbqpack d a sc blk e) h rfl (by decide) (fun q _ u => effVbqpack_eq d a sc blk e q _ u) (fun _ _ _ => by simp)
  · exact givesV_of (f := effVbqunpk d a sc blk e) h rfl (by decide) (fun q _ u => effVbqunpk_eq d a sc blk e q _ u)
  · exact issues_ok (f := behindTable (effScalegen sc a hf k e)) h rfl (by decide)
      (fun q hq u => (behindTable_of_free (free q hq) u).trans (effScalegen_eq sc a hf k e q _ u)) (fun _ _ _ => by simp)
  · refine gives_reading (f := behindTable (effScld sc a dp)) h quiet rfl (by decide) (fun q hq u calm => ?_)
    obtain ⟨reached, ready, clean⟩ := read q hq
    have reached : access (settled s) q (sReg (settled s) q a.toNat + 128 * sx dp) 128 128 winScale false = .ok (l q) := reached
    rw [behindTable_of_free (free q hq), effScld, reached]
    simp only [bind, Except.bind, readOwn_of_readable ready clean calm]
    rfl
  · refine issues_under (f := behindTable (effTbld ts a)) h NoInjection rfl (by decide) (noInjection_settled quiet) (fun q hq u calm => ?_) (fun q u c => detected_setTab ..)
    obtain ⟨reached, window, ready, unused⟩ := near q hq
    exact ⟨(behindTable_of_free (free q hq) u).trans (effTbld_local reached unused window ready calm), calm⟩
  · refine issues_ok (f := behindTable (effTbld ts a)) h rfl (by decide) (fun q hq u => ?_) (fun q u c => ?_)
    · obtain ⟨reached, window, room, unused⟩ := far q hq
      exact (behindTable_of_free (free q hq) u).trans (effTbld_global reached unused window room u)
    · exact (detected_post ..).trans (detected_setTab ..)

end Sys2Proof.Machine
end

section
/-! Loads from the core's own storages, and what stores to them write and leave (R230, R256, R376-R378). -/

namespace Sys2Proof.Machine

open Sys2Proof.Safety

/-! ### Loads (R376-R378) -/

section

variable {s : State} (h : Ready s) (quiet : NoInjection s) {i : Instr} {f : Eff} {d : BitVec 6} {lat : Nat} (hi : exec i s = runSlot 3 f s)

include h quiet hi

theorem givesS_reading {v : Nat → State → Word}
    (hf : ∀ q ∈ issuers s, ∀ t, NoInjection t → f q (settled s) t = .ok (resultS q d.toNat (v q (settled s)) lat t)) : GivesS i s d lat v :=
  gives_reading h quiet hi (by decide) hf

theorem givesV_reading {v : Nat → State → Vec}
    (hf : ∀ q ∈ issuers s, ∀ t, NoInjection t → f q (settled s) t = .ok (resultV q d.toNat (v q (settled s)) lat t)) : GivesV i s d lat v :=
  gives_reading h quiet hi (by decide) hf

end

/-- The places of the active elements, where each passes its checks on a READY bank. -/
theorem elemLocs_of_reaches {o : State} {c : Nat} {k : BitVec 4} {e : Fmt} {addr : Nat → Word} {wr : Bool} {loc : Nat → Loc} (js : List Nat)
    (reached : ∀ j ∈ js, active o c k e.width j = true →
      Reaches o c (addr j) (e.width / 8) (e.width / 8) winLocal wr (loc j) ∧ bankReady o (loc j) (e.width / 8) = true) :
    elemLocs o c k e addr wr js = .ok ((js.filter (active o c k e.width)).map (fun j => (j, loc j))) := by
  induction js with
  | nil => rfl
  | cons j js ih =>
    have later := ih (fun i hi => reached i (List.mem_cons_of_mem j hi))
    cases act : active o c k e.width j with
    | false => simp [elemLocs, act, later]
    | true =>
      obtain ⟨here, ready⟩ := reached j List.mem_cons_self act
      have here : access o c (addr j) (e.width / 8) (e.width / 8) winLocal wr = .ok (loc j) := here
      simp [elemLocs, act, here, ready, later, bind, Except.bind]

/-- The entry of a listed place is found by its number where the number was selected. -/
theorem find?_selected {α : Type} (p : Nat → Bool) (f : Nat → α) {js : List Nat} {i : Nat} (hi : i ∈ js) :
    ((js.filter p).map (fun j => (j, f j))).find? (fun x => x.1 == i) = if p i then some (i, f i) else none := by
  cases hp : p i with
  | false =>
    refine List.find?_eq_none.2 (fun x hx => ?_)
    obtain ⟨j, hj, rfl⟩ := List.mem_map.1 hx
    have selected := (List.mem_filter.1 hj).2
    exact fun same => Bool.false_ne_true (hp.symm.trans (eq_of_beq same ▸ selected))
  | true =>
    have listed : (i, f i) ∈ (js.filter p).map (fun j => (j, f j)) := List.mem_map_of_mem (List.mem_filter.2 ⟨hi, hp⟩)
    obtain ⟨x, hx⟩ := Option.isSome_iff_exists.1 (List.find?_isSome (p := fun x => x.1 == i).2 ⟨_, listed, beq_self_eq_true i⟩)
    obtain ⟨j, -, rfl⟩ := List.mem_map.1 (List.mem_of_find?_eq_some hx)
    have named : (j == i) = true := List.find?_some (p := fun x : Nat × α => x.1 == i) hx
    obtain rfl : j = i := eq_of_beq named
    exact hx

/-- A gathered load of elements that can all be read at once (R378). -/
theorem gather_of_readable {d : BitVec 6} {k : BitVec 4} {e : Fmt} {addr : Nat → State → Nat → Word} {c : Nat} {o : State} {loc : Nat → Loc}
    (readable : ∀ j < lanes e, active o c k e.width j = true → Readable o c (addr c o j) (e.width / 8) (e.width / 8) winLocal false (loc j))
    {t : State} (quiet : NoInjection t) :
    gather d k e addr c o t = .ok (resultV c d.toNat (ofElems e.width ((List.range (lanes e)).map (fun j =>
      if active o c k e.width j then readNat (seen o c) (loc j) (e.width / 8) else 0))) 5 t) := by
  have places := elemLocs_of_reaches (o := o) (c := c) (k := k) (addr := addr c o) (wr := false) (loc := loc) (List.range (lanes e))
    (fun j hj act => by
      obtain ⟨here, ready, -⟩ := readable j (List.mem_range.1 hj) act
      exact ⟨here, ready⟩)
  have clean : (((List.range (lanes e)).filter (active o c k e.width)).map (fun j => (j, loc j))).find? (fun x => poisoned (seen o c) x.2 (e.width / 8)) = none := by
    refine List.find?_eq_none.2 (fun x hx => ?_)
    obtain ⟨j, hj, rfl⟩ := List.mem_map.1 hx
    obtain ⟨inside, act⟩ := List.mem_filter.1 hj
    obtain ⟨-, -, unpoisoned⟩ := readable j (List.mem_range.1 inside) act
    simp [unpoisoned]
  have still (l : List (Nat × Loc)) : l.foldl (fun s x => injected 1 c (coreAt o c).b.r.pc x.2 (e.width / 8) s) t = t :=
    List.foldlRecOn (motive := fun u => u = t) l _ rfl (fun u hu x _ => by rw [hu, injected_none quiet])
  simp only [gather, places, bind, Except.bind, clean, still]
  rw [List.map_congr_left (fun j hj => ?_)]
  rw [find?_selected _ _ hj]
  cases active o c k e.width j <;> rfl

/-- Settles O24: each load reads what its core sees at a place that it can read at once. -/
theorem loadsFromOwnStorages : Obligations.LoadsFromOwnStorages := by
  unfold Obligations.LoadsFromOwnStorages
  intro s d a x k e h quiet
  refine ⟨fun z sg i l readable => ?_, fun i l readable => ?_, fun l readable => ?_, fun l readable => ?_⟩
  · refine givesS_reading (f := effLd d a z sg i) h quiet rfl (fun q hq t calm => ?_)
    obtain ⟨reached, ready, clean⟩ := readable q hq
    have reached : access (settled s) q (disp_ (sReg (settled s) q a.toNat) (sx i)) (2 ^ z.toNat) (2 ^ z.toNat) winLocal false = .ok (l q) := reached
    simp only [effLd, reached, bind, Except.bind, readOwn_of_readable ready clean calm]
    rfl
  · refine givesV_reading (f := effVld d a i) h quiet rfl (fun q hq t calm => ?_)
    obtain ⟨reached, ready, clean⟩ := readable q hq
    have reached : access (settled s) q (disp_ (sReg (settled s) q a.toNat) (8 * sx i)) 128 8 winLocal false = .ok (l q) := reached
    simp only [effVld, reached, bind, Except.bind, readOwn_of_readable ready clean calm]
    rfl
  · exact givesV_reading (f := gather d k e (strideAddr a x)) h quiet rfl (fun q hq t calm => gather_of_readable (addr := strideAddr a x) (readable q hq) calm)
  · exact givesV_reading (f := gather d k e (indexAddr a x e)) h quiet rfl (fun q hq t calm => gather_of_readable (addr := indexAddr a x e) (readable q hq) calm)

end Sys2Proof.Machine
end

section
/-! Stores to the core's own storages and what of memory they leave (R230, R256, R376-R378). -/

namespace Sys2Proof.Machine

open Sys2Proof.Safety

/-! ### Changes one after another -/

theorem foldl_keeps_of_mem {σ α β : Type} {g : σ → α} {f : σ → β → σ} {l : List β} (h : ∀ b ∈ l, ∀ s, g (f s b) = g s) (s : σ) : g (l.foldl f s) = g s :=
  List.foldlRecOn (motive := fun t => g t = g s) l f rfl (fun t ht b hb => (h b hb t).trans ht)

/-- What one of several changes makes of a value that the others leave. -/
theorem foldl_once {σ α : Type} {g : σ → α} {v : α → α} {f : σ → Nat → σ} {l : List Nat} {q : Nat} (hl : l.Nodup) (hq : q ∈ l)
    (here : ∀ s, g (f s q) = v (g s)) (others : ∀ c ∈ l, c ≠ q → ∀ s, g (f s c) = g s) (s : σ) : g (l.foldl f s) = v (g s) := by
  obtain ⟨before, behind, rfl⟩ := List.append_of_mem hq
  have single := (List.nodup_middle.1 hl)
  have apart {c : Nat} (hc : c ∈ before ++ behind) : c ≠ q := fun e => (List.nodup_cons.1 single).1 (e ▸ hc)
  rw [List.foldl_append, List.foldl_cons,
    foldl_keeps_of_mem (fun c hc => others c (by simp [hc]) (apart (List.mem_append_right _ hc))), here,
    foldl_keeps_of_mem (fun c hc => others c (by simp [hc]) (apart (List.mem_append_left _ hc)))]

/-- What a change establishes and every change keeps stands at the end. -/
theorem foldl_establishes {σ β : Type} {P : σ → Prop} {f : σ → β → σ} {l : List β} {b : β} (hb : b ∈ l) (here : ∀ s, P (f s b)) (keeps : ∀ s c, P s → P (f s c)) (s : σ) :
    P (l.foldl f s) := by
  obtain ⟨before, behind, rfl⟩ := List.append_of_mem hb
  rw [List.foldl_append, List.foldl_cons]
  exact List.foldlRecOn behind f (here _) (fun t ht c _ => keeps t c ht)

/-! ### Changes of bytes -/

/-- From the first state to the second nothing changes but bytes of memory and their poison. -/
structure OnlyBytes (s t : State) : Prop where
  state : { t with mem := s.mem, poison := s.poison, wrong := s.wrong } = s

theorem OnlyBytes.refl (s : State) : OnlyBytes s s := ⟨rfl⟩

theorem OnlyBytes.trans {s t u : State} (h : OnlyBytes s t) (h' : OnlyBytes t u) : OnlyBytes s u where
  state := (congrArg (fun x : State => { x with mem := s.mem, poison := s.poison, wrong := s.wrong }) h'.state).trans h.state

theorem OnlyBytes.coreAt_eq {s t : State} (h : OnlyBytes s t) (q : Nat) : coreAt t q = coreAt s q := by
  have same := congrArg (fun u : State => coreAt u q) h.state
  exact same

theorem onlyBytes_foldl {β : Type} {f : State → β → State} (hf : ∀ s b, OnlyBytes s (f s b)) (l : List β) (s : State) : OnlyBytes s (l.foldl f s) :=
  List.foldlRecOn l f (OnlyBytes.refl s) (fun t ht b _ => ht.trans (hf t b))

theorem onlyBytes_clearPoison (s : State) (l : Loc) (n : Nat) (mask : List Bool) : OnlyBytes s (clearPoison s l n mask) := by
  refine onlyBytes_foldl (fun t i => ?_) _ s
  dsimp only
  split <;> exact ⟨rfl⟩

theorem onlyBytes_putFlat (l : Loc) (s : State) (bytes : List Byte) (mask : List Bool) : OnlyBytes s (putFlat l s bytes mask) := by
  obtain ⟨mem, written⟩ := writeMasked_changes l bytes mask 0 s
  have first : OnlyBytes s (writeMasked s l 0 bytes mask) := by rw [written]; exact ⟨rfl⟩
  exact first.trans (onlyBytes_clearPoison _ l _ mask)

/-- A write of a run of bytes: those whose mask flag is set are written, and every other byte stands. -/
theorem byte_writeMasked_flat (k x : Nat) : ∀ (bytes : List Byte) (mask : List Bool) (i : Nat) (s : State),
    (writeMasked s (.flat k) i bytes mask).mem.byte x =
      if k + i ≤ x ∧ x < k + i + bytes.length ∧ mask.getD (x - (k + i)) false = true then bytes.getD (x - (k + i)) 0 else s.mem.byte x
  | [], _, i, s => by
    rw [writeMasked, if_neg (by simp; omega)]
    nofun
  | _ :: _, [], i, s => by
    rw [writeMasked, if_neg (by simp)]
    nofun
  | b :: t, m :: ms, i, s => by
    have first : (if m then { s with mem := s.mem.setByte (locKey s (.flat k) i) b } else s).mem.byte x = if x = k + i ∧ m = true then b else s.mem.byte x := by
      cases m <;> simp [locKey]
    rw [writeMasked, byte_writeMasked_flat k x t ms (i + 1), first]
    rcases Nat.lt_trichotomy x (k + i) with below | rfl | above
    · rw [if_neg (by omega), if_neg (by omega), if_neg (by omega)]
    · rw [if_neg (by omega)]
      cases m <;> simp
    · obtain ⟨j, rfl⟩ := Nat.exists_eq_add_of_lt above
      have place : k + i + j + 1 - (k + i) = j + 1 := by omega
      have later : k + i + j + 1 - (k + (i + 1)) = j := by omega
      rw [place, later, if_neg (c := k + i + j + 1 = k + i ∧ m = true) (by omega)]
      refine if_congr ?_ rfl rfl
      simp only [List.length_cons, List.getD_cons_succ]
      constructor <;> rintro ⟨low, high, flag⟩ <;> exact ⟨by omega, by omega, flag⟩

theorem byte_putFlat (k x : Nat) (s : State) (bytes : List Byte) (mask : List Bool) :
    (putFlat (.flat k) s bytes mask).mem.byte x =
      if k ≤ x ∧ x < k + bytes.length ∧ mask.getD (x - k) false = true then bytes.getD (x - k) 0 else s.mem.byte x := by
  rw [putFlat, mem_clearPoison, byte_writeMasked_flat]
  rfl

/-- A byte outside the run stands. -/
theorem byte_putFlat_outside {k x : Nat} {bytes : List Byte} (h : x < k ∨ k + bytes.length ≤ x) (s : State) (mask : List Bool) :
    (putFlat (.flat k) s bytes mask).mem.byte x = s.mem.byte x := by
  rw [byte_putFlat, if_neg (by omega)]

/-- A byte of the run. -/
theorem byte_putFlat_inside {k i : Nat} {bytes : List Byte} (h : i < bytes.length) (s : State) (mask : List Bool) :
    (putFlat (.flat k) s bytes mask).mem.byte (k + i) = if mask.getD i false = true then bytes.getD i 0 else s.mem.byte (k + i) := by
  rw [byte_putFlat, Nat.add_sub_cancel_left]
  exact if_congr ⟨fun h => h.2.2, fun m => ⟨by omega, by omega, m⟩⟩ rfl rfl

/-! ### Poison (R256) -/

theorem poison_clearPoison_of_clean {s : State} {sec : Nat} (h : s.poison.get false sec = false) (l : Loc) (n : Nat) (mask : List Bool) :
    (clearPoison s l n mask).poison.get false sec = false := by
  refine List.foldlRecOn (motive := fun t : State => t.poison.get false sec = false) _ _ h (fun t ht i _ => ?_)
  dsimp only
  split
  · rw [Tab.get_set]
    split <;> simp [ht]
  · exact ht

theorem poison_writeMasked (l : Loc) (bytes : List Byte) (mask : List Bool) (i : Nat) (s : State) : (writeMasked s l i bytes mask).poison = s.poison := by
  obtain ⟨mem, written⟩ := writeMasked_changes l bytes mask i s
  rw [written]

theorem poison_putFlat_of_clean {s : State} {sec : Nat} (h : s.poison.get false sec = false) (l : Loc) (bytes : List Byte) (mask : List Bool) :
    (putFlat l s bytes mask).poison.get false sec = false :=
  poison_clearPoison_of_clean (by rwa [poison_writeMasked]) l _ mask

/-- A sector stored whole is no longer poisoned. -/
theorem poison_putFlat_whole {k sec : Nat} {bytes : List Byte} {mask : List Bool}
    (whole : ∀ j < 32, ∃ i < bytes.length, k + i = 32 * sec + j ∧ mask.getD i false = true) (s : State) :
    (putFlat (.flat k) s bytes mask).poison.get false sec = false := by
  obtain ⟨i, -, first, -⟩ := whole 0 (by decide)
  obtain ⟨last, inside, atLast, -⟩ := whole 31 (by decide)
  have aligned : (k + i) % 32 = 0 := by omega
  have number : (k + i) / 32 = sec := by omega
  have room : i + 32 ≤ bytes.length := by omega
  have set : ((mask.drop i).take 32).all (fun b => b) = true := by
    refine List.all_eq_true.2 (fun b hb => ?_)
    obtain ⟨m, hm, rfl⟩ := List.getElem_of_mem hb
    have few : m < 32 := lt_of_lt_of_le hm (List.length_take_le _ _)
    obtain ⟨j, -, there, flag⟩ := whole m few
    have same : j = i + m := by omega
    rw [same, List.getD_eq_getElem?_getD] at flag
    rw [List.getElem_take, List.getElem_drop]
    rwa [List.getElem?_eq_getElem (by simp at hm; omega)] at flag
  refine foldl_establishes (P := fun t : State => t.poison.get false sec = false) (List.mem_range.2 (show i < bytes.length by omega)) (fun t => ?_) (fun t j ht => ?_) _
  · dsimp only [locKey]
    rw [if_pos ⟨aligned, room, set⟩, number, Tab.get_set, if_pos rfl]
  · dsimp only
    split
    · rw [Tab.get_set]
      split <;> simp [ht]
    · exact ht

/-! ### Bundles that store -/

/-- The end of a bundle leaves the memory, its poison and the packets, where no operation ended a task. -/
theorem finishBundle_leaves {s u : State} (h : Ready s) (tasks : ∀ q, (coreAt u q).b.task = (coreAt (settled s) q).b.task) :
    (finishBundle (issuers s) (settled s) u).mem = u.mem ∧ (finishBundle (issuers s) (settled s) u).poison = u.poison ∧
      (finishBundle (issuers s) (settled s) u).packets = u.packets := by
  have rest := (onlyBodies_finishBundle (settled s) (s := u) (l := issuers s)
    (fun q hq => (inTend_congr ((tasks q).trans (task_settled s q))).trans (not_inTend_of_ready h hq))).state
  exact ⟨by have same := congrArg State.mem rest; exact same, by have same := congrArg State.poison rest; exact same,
    by have same := congrArg State.packets rest; exact same⟩

/-- The registers that operations write, and the results in flight. -/
def operands (b : Body) : Tab Word × Tab Vec × List Res := (b.r.s, b.r.v, b.r.res)

theorem operands_advance (old : Body) (taken : Option Word) (b : Body) : operands (advance old taken b) = operands b := by
  unfold advance countLoops
  dsimp only
  split_ifs <;> rfl

theorem operands_finishBundle {s u : State} (h : Ready s) (tasks : ∀ q, (coreAt u q).b.task = (coreAt (settled s) q).b.task) (q : Nat) :
    operands (coreAt (finishBundle (issuers s) (settled s) u) q).b = operands (coreAt u q).b :=
  body_finishBundle operands operands_advance
    (fun c hc => (inTend_congr ((tasks c).trans (task_settled s c))).trans (not_inTend_of_ready h hc)) q

/-! ### Stores of one run of bytes (R376, R377) -/

/-- A place of the scratchpads or of a core's own area is reached through windows 0 to 2. -/
theorem winOf_lt_of_reaches_flat {o : State} {c : Nat} {p : Word} {n align : Nat} {win : Windows} {wr : Bool} {k : Nat}
    (h : Reaches o c p n align win wr (.flat k)) : winOf p < 3 := by
  have reached : accessAs o c (issuerOf o c) p n align win wr = .ok (.flat k) := h
  rw [winOf]
  simp only [accessAs] at reached
  split at reached
  next far =>
    simp only [need_bind_eq_ok] at reached
    obtain ⟨-, -, found⟩ := reached
    split at found <;> cases found
  next near =>
    rw [if_neg near]
    split at reached
    next w => omega
    next w => omega
    next w => omega
    next w =>
      simp only [need_bind_eq_ok] at reached
      obtain ⟨-, -, found⟩ := reached
      split at found
      · cases found
      · split at found <;> cases found
    next => cases reached

/-- What a store of `n` bytes by each issuer to its own storages makes of the state: the bytes given are written, the others stand; a
sector stored whole is no longer poisoned; no register is written. -/
def StoredOwn (s t : State) (key : Nat → Nat) (n : Nat) (byte : Nat → State → Nat → Option Byte) : Prop :=
  (∀ x, (∀ q ∈ issuers s, x < key q ∨ key q + n ≤ x) → t.mem.byte x = s.mem.byte x) ∧
  (∀ q ∈ issuers s, (∀ u ∈ issuers s, u ≠ q → key u + n ≤ key q ∨ key q + n ≤ key u) → ∀ i < n,
    t.mem.byte (key q + i) = (byte q (settled s) i).getD (s.mem.byte (key q + i))) ∧
  (∀ q ∈ issuers s, ∀ sec, (∀ j < 32, ∃ i < n, key q + i = 32 * sec + j ∧ byte q (settled s) i ≠ none) → t.poison.get false sec = false) ∧
  (∀ q, (coreAt t q).b.r.s = (coreAt (settled s) q).b.r.s ∧ (coreAt t q).b.r.v = (coreAt (settled s) q).b.r.v ∧ (coreAt t q).b.r.res = (coreAt (settled s) q).b.r.res)

section

variable {s : State} (h : Ready s) {key : Nat → Nat} {n : Nat} {bytes : Nat → State → List Byte} {mask : Nat → State → List Bool}
  (hlen : ∀ q o, (bytes q o).length = n)

include h

/-- A store to the core's own storages, where no earlier access of the core there is under way, writes at issue (R230). -/
theorem exec_storeOwn {i : Instr} {f : Eff} {align : Nat} {p : Nat → State → Word} (hi : exec i s = runSlot 3 f s)
    (hlen : ∀ q o, (bytes q o).length = n)
    (hf : ∀ q o t, f q o t = (do let l ← access o q (p q o) n align winAll true; storeTo q o t (p q o) l (bytes q o) (mask q o)))
    (own : ∀ q ∈ issuers s, Reaches (settled s) q (p q (settled s)) n align winAll true (.flat (key q)) ∧ winOf (p q (settled s)) ≠ 2 ∧
      bankReady (settled s) (.flat (key q)) n = true ∧ ownPend (settled s) q = []) :
    exec i s = .next (issued (fun q o t => putFlat (.flat (key q)) t (bytes q o) (mask q o)) s) := by
  refine issues_ok h hi (by decide) (fun q hq t => ?_) (fun q t c => by rw [(onlyBytes_putFlat ..).coreAt_eq])
  obtain ⟨reached, window, ready, alone⟩ := own q hq
  have near : winOf (p q (settled s)) < 2 := by
    have low := winOf_lt_of_reaches_flat reached
    omega
  rw [hf, reached]
  exact (storeTo_own near ((hlen q _).symm ▸ ready)).trans (congrArg _ (ownAccess_store_alone alone))

include hlen

theorem storedOwn_of_putFlat {byte : Nat → State → Nat → Option Byte}
    (given : ∀ q o i, i < n → byte q o i = if (mask q o).getD i false = true then some ((bytes q o).getD i 0) else none) :
    StoredOwn s (issued (fun q o t => putFlat (.flat (key q)) t (bytes q o) (mask q o)) s) key n byte := by
  have only : OnlyBytes (settled s) (slotDone (fun q o t => putFlat (.flat (key q)) t (bytes q o) (mask q o)) s) :=
    onlyBytes_foldl (fun _ _ => onlyBytes_putFlat ..) _ _
  have tasks (q : Nat) := congrArg (fun k : Core => k.b.task) (only.coreAt_eq q)
  obtain ⟨mem, poison, -⟩ := finishBundle_leaves h tasks
  have start (x : Nat) : (settled s).mem.byte x = s.mem.byte x := by rw [settled_mem]
  refine ⟨fun x outside => ?_, fun q hq apart i hi => ?_, fun q hq sec whole => ?_, fun q => ?_⟩
  · rw [issued, mem, ← start x]
    exact foldl_keeps_of_mem (g := fun t : State => t.mem.byte x) (fun q hq t => byte_putFlat_outside (by rw [hlen]; exact outside q hq) t _) (settled s)
  · rw [issued, mem, ← start]
    refine (foldl_once (g := fun t : State => t.mem.byte (key q + i)) (v := fun old => (byte q (settled s) i).getD old) (issuers_nodup s) hq (fun t => ?_)
      (fun c hc other t => byte_putFlat_outside (by have := apart c hc other; rw [hlen]; omega) t _) (settled s))
    rw [byte_putFlat_inside (by rw [hlen]; exact hi), given q _ i hi]
    split <;> rfl
  · rw [issued, poison]
    refine foldl_establishes (P := fun t : State => t.poison.get false sec = false) hq (fun t => poison_putFlat_whole (fun j hj => ?_) t)
      (fun t c clean => poison_putFlat_of_clean clean _ _ _) (settled s)
    obtain ⟨i, hi, place, some⟩ := whole j hj
    rw [given q _ i hi] at some
    exact ⟨i, by rw [hlen]; exact hi, place, by_contra fun unset => some (if_neg unset)⟩
  · have all := (operands_finishBundle h tasks q).trans (congrArg (fun k : Core => operands k.b) (only.coreAt_eq q))
    exact ⟨congrArg (·.1) all, congrArg (·.2.1) all, congrArg (·.2.2) all⟩

end

theorem getD_leBytes (x : Nat) {n i : Nat} (h : i < n) : (leBytes x n).getD i 0 = BitVec.ofNat 8 (x >>> (8 * i)) := by
  rw [leBytes_eq_map, List.getD_eq_getElem?_getD]
  simp [h]

/-! ### Scattered stores (R378) -/

theorem body_post (c : Nat) (s : State) (p : Word) (l : Loc) (op : AccessOp) (own : Option Nat) (e : CEntry) (after : List Nat) (q : Nat) :
    (coreAt (post c s p l op own e after) q).b = (coreAt s q).b := by
  rw [post, core_updCore]
  split
  next e => rw [e]; rfl
  next => rfl

theorem onlyBytes_clearWhole (ls : List Nat) (s : State) : OnlyBytes s (clearWhole ls s) :=
  onlyBytes_foldl (f := fun s q => { s with poison := s.poison.set false q false, wrong := s.wrong.set 0 q 0 }) (fun _ _ => ⟨rfl⟩) _ s

/-- The bytes of an element. -/
def laneBytes (b : BitVec 6) (e : Fmt) (c : Nat) (o : State) (j : Nat) : List Byte := leBytes (vElem o c b.toNat e j) (e.width / 8)

section

variable (b : BitVec 6) (k : BitVec 4) (e : Fmt) (addr : Nat → State → Nat → Word) (key : Nat → Nat → Nat)

/-- The store of one element. -/
def elemStore (c : Nat) (o s : State) (j : Nat) : State :=
  ownAccess c o s (addr c o j) (.flat (key c j)) (.store (laneBytes b e c o j) (allMask (e.width / 8)))

/-- The numbers of the active elements, in order. -/
def selectedElems (c : Nat) (o : State) : List Nat := (List.range (lanes e)).filter (active o c k e.width)

/-- What a scattered store whose checks pass makes of the state: the elements' stores, one after another. -/
def scattered (c : Nat) (o s : State) : State :=
  let done := (selectedElems k e c o).foldl (elemStore b e addr key c o) s
  if (ownPend o c).isEmpty then
    clearWhole (((selectedElems k e c o).map (fun j => (j, Loc.flat (key c j)))).flatMap (fun x => (List.range (e.width / 8)).map (locKey o x.2))) done
  else done

/-- Every active element passes its checks, on a READY bank. -/
def ScatterReaches (o : State) (c : Nat) : Prop := ∀ j < lanes e, active o c k e.width j = true →
  Reaches o c (addr c o j) (e.width / 8) (e.width / 8) winLocal true (.flat (key c j)) ∧ bankReady o (.flat (key c j)) (e.width / 8) = true

variable {b k e addr key}

theorem mem_selectedElems {c : Nat} {o : State} {j : Nat} : j ∈ selectedElems k e c o ↔ j < lanes e ∧ active o c k e.width j = true := by
  rw [selectedElems, List.mem_filter, List.mem_range]

theorem scatter_of_reaches {c : Nat} {o s : State} (reached : ScatterReaches k e addr key o c) :
    scatter b k e addr c o s = .ok (scattered b k e addr key c o s) := by
  have places := elemLocs_of_reaches (o := o) (c := c) (k := k) (addr := addr c o) (wr := true) (loc := fun j => .flat (key c j)) (List.range (lanes e))
    (fun j hj act => reached j (List.mem_range.1 hj) act)
  simp only [scatter, places, bind, Except.bind, List.foldl_map]
  rfl

theorem elemStore_alone {c : Nat} {o : State} (hp : ownPend o c = []) (s : State) (j : Nat) :
    elemStore b e addr key c o s j = putFlat (.flat (key c j)) s (laneBytes b e c o j) (allMask (e.width / 8)) := ownAccess_store_alone hp

theorem body_elemStore (c : Nat) (o s : State) (j q : Nat) : (coreAt (elemStore b e addr key c o s j) q).b = (coreAt s q).b := by
  by_cases hp : ownPend o c = []
  · rw [elemStore_alone hp, (onlyBytes_putFlat ..).coreAt_eq]
  · rw [elemStore, ownAccess_behind hp, body_post]

theorem body_scattered (c : Nat) (o s : State) (q : Nat) : (coreAt (scattered b k e addr key c o s) q).b = (coreAt s q).b := by
  have stored := foldl_keeps (g := fun t => (coreAt t q).b) (f := elemStore b e addr key c o) (fun t j => body_elemStore c o t j q) (selectedElems k e c o) s
  rw [scattered]
  split
  · rw [(onlyBytes_clearWhole ..).coreAt_eq, stored]
  · exact stored

theorem mem_scattered (c : Nat) (o s : State) :
    (scattered b k e addr key c o s).mem = ((selectedElems k e c o).foldl (elemStore b e addr key c o) s).mem := by
  rw [scattered]
  split
  · rw [mem_clearWhole]
  · rfl

/-- A byte that no active element names stands. -/
theorem byte_scattered_outside {c : Nat} {o : State} {x : Nat}
    (outside : ∀ j ∈ selectedElems k e c o, x < key c j ∨ key c j + e.width / 8 ≤ x) (s : State) :
    (scattered b k e addr key c o s).mem.byte x = s.mem.byte x := by
  rw [mem_scattered]
  refine foldl_keeps_of_mem (g := fun t : State => t.mem.byte x) (fun j hj t => ?_) s
  by_cases hp : ownPend o c = []
  · rw [elemStore_alone hp, byte_putFlat_outside (by rw [laneBytes, length_leBytes]; exact outside j hj)]
  · rw [elemStore, ownAccess_behind hp, mem_post]

/-- A byte of an active element that no later one names. -/
theorem byte_scattered_last {c : Nat} {o : State} (hp : ownPend o c = []) {j i : Nat} (hj : j ∈ selectedElems k e c o)
    (last : ∀ m ∈ selectedElems k e c o, j < m → key c m + e.width / 8 ≤ key c j ∨ key c j + e.width / 8 ≤ key c m) (hi : i < e.width / 8) (s : State) :
    (scattered b k e addr key c o s).mem.byte (key c j + i) = BitVec.ofNat 8 (vElem o c b.toNat e j / 2 ^ (8 * i)) := by
  have sorted : (selectedElems k e c o).Pairwise (· < ·) := List.Pairwise.filter _ List.pairwise_lt_range
  obtain ⟨before, behind, parts⟩ := List.append_of_mem hj
  rw [parts] at sorted last
  have later {m : Nat} (hm : m ∈ behind) : j < m := (List.pairwise_cons.1 (List.pairwise_append.1 sorted).2.1).1 m hm
  rw [mem_scattered, parts, List.foldl_append, List.foldl_cons]
  refine (foldl_keeps_of_mem (g := fun t : State => t.mem.byte (key c j + i)) (fun m hm t => ?_) _).trans ?_
  · have apart := last m (by simp [hm]) (later hm)
    rw [elemStore_alone hp, byte_putFlat_outside (by rw [laneBytes, length_leBytes]; omega)]
  · rw [elemStore_alone hp, byte_putFlat_inside (by rwa [laneBytes, length_leBytes]), laneBytes, getD_leBytes _ hi, allMask, Nat.shiftRight_eq_div_pow]
    simp [hi]

/-- The core, what it waits for and the access of a packet. -/
def sentAs (p : Packet) : Nat × List Nat × PBody := (p.core, p.after, p.body)

/-- Behind accesses under way the elements go out as packets, in order. -/
theorem packets_scattered {c : Nat} {o : State} (hp : ownPend o c ≠ []) (s : State) :
    (scattered b k e addr key c o s).packets.map sentAs = s.packets.map sentAs ++ (selectedElems k e c o).map (fun j =>
      let op : AccessOp := .store (laneBytes b e c o j) (allMask (e.width / 8))
      (c, behindOwn o c, .access (addr c o j) (.flat (key c j)) op none (entryNow o c (.access (addr c o j) (.flat (key c j)) op)))) := by
  have pending : (ownPend o c).isEmpty = false := by simpa using hp
  rw [scattered]
  simp only [pending, Bool.false_eq_true, if_false]
  generalize selectedElems k e c o = js
  induction js generalizing s with
  | nil => simp
  | cons j js ih =>
    rw [List.foldl_cons, ih, elemStore, ownAccess_behind hp]
    simp [post, fresh, sentAs, updCore]

theorem mem_scattered_behind {c : Nat} {o : State} (hp : ownPend o c ≠ []) (s : State) : (scattered b k e addr key c o s).mem = s.mem := by
  rw [mem_scattered]
  exact foldl_keeps (g := State.mem) (fun t j => by rw [elemStore, ownAccess_behind hp, mem_post]) _ s

section

variable {s : State} (h : Ready s)
include h

theorem exec_scatter {i : Instr} (hi : exec i s = runSlot 3 (scatter b k e addr) s) (reached : ∀ q ∈ issuers s, ScatterReaches k e addr key (settled s) q) :
    exec i s = .next (issued (scattered b k e addr key) s) :=
  issues_ok h hi (by decide) (fun q hq _ => scatter_of_reaches (reached q hq)) (fun q t c => by rw [body_scattered])

theorem issued_scattered_leaves : (issued (scattered b k e addr key) s).mem = (slotDone (scattered b k e addr key) s).mem ∧
    (issued (scattered b k e addr key) s).packets = (slotDone (scattered b k e addr key) s).packets := by
  obtain ⟨mem, -, packets⟩ := finishBundle_leaves (u := slotDone (scattered b k e addr key) s) h
    (fun q => foldl_keeps (g := fun t => (coreAt t q).b.task) (fun t c => by rw [body_scattered]) (issuers s) (settled s))
  exact ⟨mem, packets⟩

theorem byte_issued_scattered_outside {x : Nat}
    (outside : ∀ q ∈ issuers s, ∀ j ∈ selectedElems k e q (settled s), x < key q j ∨ key q j + e.width / 8 ≤ x) :
    (issued (scattered b k e addr key) s).mem.byte x = s.mem.byte x := by
  rw [(issued_scattered_leaves h).1, ← settled_mem s]
  exact foldl_keeps_of_mem (g := fun t : State => t.mem.byte x) (fun q hq t => byte_scattered_outside (outside q hq) t) (settled s)

end
end

/-- A core that issues alone. -/
theorem slotDone_of_single {s : State} {q : Nat} (hs : issuers s = [q]) (k : Nat → State → State → State) :
    slotDone k s = k q (settled s) (settled s) := by
  rw [slotDone, hs]
  rfl

/-- What a scattered store writes, or sends behind the accesses under way. -/
theorem scatter_stores {b : BitVec 6} {k : BitVec 4} {e : Fmt} {addr : Nat → State → Nat → Word} {key : Nat → Nat → Nat} {s : State} (h : Ready s) {i : Instr}
    (hi : exec i s = runSlot 3 (scatter b k e addr) s) (reached : ∀ q ∈ issuers s, ScatterReaches k e addr key (settled s) q) :
    ∃ t, exec i s = .next t ∧
      (∀ q, issuers s = [q] → ownPend (settled s) q ≠ [] →
        (∀ y, t.mem.byte y = s.mem.byte y) ∧
        t.packets.map sentAs = s.packets.map sentAs ++ (selectedElems k e q (settled s)).map (fun j =>
          let op : AccessOp := .store (laneBytes b e q (settled s) j) (allMask (e.width / 8))
          (q, behindOwn (settled s) q, .access (addr q (settled s) j) (.flat (key q j)) op none
            (entryNow (settled s) q (.access (addr q (settled s) j) (.flat (key q j)) op))))) ∧
      (∀ y, (∀ q ∈ issuers s, ∀ j < lanes e, active (settled s) q k e.width j = true → y < key q j ∨ key q j + e.width / 8 ≤ y) →
        t.mem.byte y = s.mem.byte y) ∧
      (∀ q, issuers s = [q] → ownPend (settled s) q = [] → ∀ j < lanes e, active (settled s) q k e.width j = true →
        (∀ m < lanes e, j < m → active (settled s) q k e.width m = true → key q m + e.width / 8 ≤ key q j ∨ key q j + e.width / 8 ≤ key q m) →
        ∀ i < e.width / 8, t.mem.byte (key q j + i) = BitVec.ofNat 8 (vElem (settled s) q b.toNat e j / 2 ^ (8 * i))) := by
  obtain ⟨mem, packets⟩ := issued_scattered_leaves (b := b) (k := k) (e := e) (addr := addr) (key := key) h
  refine ⟨_, exec_scatter h hi reached, fun q single pending => ⟨fun y => ?_, ?_⟩, fun y outside => ?_, fun q single alone j hj act last i hi => ?_⟩
  · rw [mem, slotDone_of_single single, mem_scattered_behind pending, settled_mem]
  · rw [packets, slotDone_of_single single, packets_scattered pending, settled_packets]
  · exact byte_issued_scattered_outside h (fun q hq j hj => outside q hq j (mem_selectedElems.1 hj).1 (mem_selectedElems.1 hj).2)
  · rw [mem, slotDone_of_single single]
    exact byte_scattered_last alone (mem_selectedElems.2 ⟨hj, act⟩)
      (fun m hm later => last m (mem_selectedElems.1 hm).1 later (mem_selectedElems.1 hm).2) hi _

/-- A byte of a stored value. -/
theorem getD_leBytes_toNat {w : Nat} (x : BitVec w) {n i : Nat} (h : i < n) : (leBytes x.toNat n).getD i 0 = x.extractLsb' (8 * i) 8 := by
  rw [getD_leBytes _ h]
  exact BitVec.eq_of_toNat_eq (by simp [BitVec.extractLsb'_toNat])

/-- Settles O25: a store writes its own run of bytes, a scattered one the runs of its elements one after another. -/
theorem storesAndScatters : Obligations.StoresAndScatters := by
  unfold Obligations.StoresAndScatters
  refine ⟨fun s b a k key h => ⟨fun z i own => ?_, fun i own => ?_⟩, fun s b a x k e key h => ?_⟩
  · have hlen (q : Nat) (o : State) := length_leBytes (sReg o q b.toNat).toNat (2 ^ z.toNat)
    exact ⟨_, exec_storeOwn h (i := .st b a z i) (f := effSt b a z i) (p := fun q o => sReg o q a.toNat + i.signExtend 64)
      (mask := fun _ _ => allMask (2 ^ z.toNat)) rfl hlen (fun _ _ _ => rfl) own,
      storedOwn_of_putFlat (key := key) (mask := fun _ _ => allMask (2 ^ z.toNat)) (byte := fun q o j => some ((sReg o q b.toNat).extractLsb' (8 * j) 8))
        h hlen (fun q o j hj => by rw [getD_leBytes_toNat _ hj]; simp [allMask, hj])⟩
  · have hlen (q : Nat) (o : State) := length_leBytes (vReg o q b.toNat).toNat 128
    let mask (q : Nat) (o : State) := (List.range 128).map (fun j => k == 0 || (kReg o q k.toNat).getLsbD j)
    exact ⟨_, exec_storeOwn h (i := .vst b a k i) (f := effVst b a k i) (p := fun q o => sReg o q a.toNat + 8 * i.signExtend 64)
      (mask := mask) rfl hlen (fun _ _ _ => rfl) own,
      storedOwn_of_putFlat (key := key) (mask := mask)
        (byte := fun q o j => if k = 0 ∨ (kReg o q k.toNat).getLsbD j = true then some ((vReg o q b.toNat).extractLsb' (8 * j) 8) else none)
        h hlen (fun q o j hj => by rw [getD_leBytes_toNat _ hj]; simp [mask, hj])⟩
  · intro w addr indexed
    have bytes (q j : Nat) : laneBytes b e q (settled s) j = (List.range w).map (fun i => BitVec.ofNat 8 (vElem (settled s) q b.toNat e j / 2 ^ (8 * i))) :=
      leBytes_eq_div _ _
    simp only [← bytes]
    intro reached
    cases indexed with
    | false => exact scatter_stores (addr := strideAddr a x) h rfl reached
    | true => exact scatter_stores (addr := indexAddr a x e) h rfl reached

end Sys2Proof.Machine
end

section
/-! Atomics and reductions (R164, R226, R230, R381, R382). -/

namespace Sys2Proof.Machine

open Sys2Proof.Safety

/-! ### The value an atomic or reduction computes (R381) -/

section

variable {w m b : Nat} {w8 : Bool} (hw : (if w8 then 64 else 32) = w) (hm : m < 2 ^ w)
include hw hm

/-- Sums, bitwise forms, the exchange and the FP32 sum. -/
theorem amoVal_combined :
    let x := BitVec.ofNat w m
    let y := BitVec.ofNat w b
    amoVal 0 w8 m b = (x + y).toNat ∧ amoVal 1 w8 m b = (x &&& y).toNat ∧ amoVal 2 w8 m b = (x ||| y).toNat ∧ amoVal 3 w8 m b = (x ^^^ y).toNat ∧
      amoVal 8 w8 m b = y.toNat ∧ amoVal 9 w8 m b = (fadd (ffOf .f32) 0 (fdec (ffOf .f32) m) (fdec (ffOf .f32) y.toNat)).bits := by
  intro x y
  have atX : x.toNat = m := by rw [BitVec.toNat_ofNat, Nat.mod_eq_of_lt hm]
  have atY : y.toNat = b % 2 ^ w := BitVec.toNat_ofNat _ _
  rw [BitVec.toNat_add, BitVec.toNat_and, BitVec.toNat_or, BitVec.toNat_xor, atX, atY, ← hw]
  exact ⟨rfl, rfl, rfl, rfl, rfl, rfl⟩

/-- Minima and maxima. -/
theorem amoVal_selected :
    let x := BitVec.ofNat w m
    let y := BitVec.ofNat w b
    amoVal 4 w8 m b = (if x.toInt ≤ y.toInt then x else y).toNat ∧ amoVal 5 w8 m b = (if x.toInt < y.toInt then y else x).toNat ∧
      amoVal 6 w8 m b = (if x ≤ y then x else y).toNat ∧ amoVal 7 w8 m b = (if x < y then y else x).toNat := by
  intro x y
  have positive : 0 < w := by subst hw; cases w8 <;> decide
  have atX : x.toNat = m := by rw [BitVec.toNat_ofNat, Nat.mod_eq_of_lt hm]
  have atY : y.toNat = b % 2 ^ w := BitVec.toNat_ofNat _ _
  have signedX : signed w m = x.toInt := signed_eq_toInt positive m
  have signedY : signed w (b % 2 ^ w) = y.toInt := by rw [signed_eq_toInt positive, ← atY, BitVec.ofNat_toNat, BitVec.setWidth_eq]
  have pick (c : Prop) [Decidable c] (u v : BitVec w) : (if c then u else v).toNat = if c then u.toNat else v.toNat := apply_ite ..
  simp only [amoVal, hw, signedX, signedY, pick, atX, atY, BitVec.le_def, BitVec.lt_def, ← Int.not_lt, ← Nat.not_lt, ite_not, and_self]

end

/-! ### An access performed at issue is the same under any later number -/

/-- The state with another next number. -/
def numbered (n : Nat) (s : State) : State := { s with nextId := n }

theorem readNat_numbered (n : Nat) (s : State) (k m : Nat) : readNat (numbered n s) (.flat k) m = readNat s (.flat k) m := rfl

theorem readLoc_numbered (n : Nat) (s : State) (k m : Nat) : readLoc (numbered n s) (.flat k) m = readLoc s (.flat k) m := rfl

theorem poisonBeyond_numbered (n : Nat) (s : State) (k m : Nat) (held : List (Option Byte)) :
    poisonBeyond (numbered n s) (.flat k) m held = poisonBeyond s (.flat k) m held := rfl

theorem poisoned_numbered (n : Nat) (s : State) (k m : Nat) : poisoned (numbered n s) (.flat k) m = poisoned s (.flat k) m := rfl

theorem writeMasked_numbered (k n : Nat) : ∀ (bytes : List Byte) (mask : List Bool) (i : Nat) (s : State),
    writeMasked (numbered n s) (.flat k) i bytes mask = numbered n (writeMasked s (.flat k) i bytes mask)
  | [], _, _, s => by simp [writeMasked]
  | _ :: _, [], _, s => by simp [writeMasked]
  | b :: t, m :: ms, i, s => by
    rw [writeMasked, writeMasked, ← writeMasked_numbered k n t ms]
    cases m <;> rfl

theorem clearPoison_numbered (k n len : Nat) (mask : List Bool) (s : State) :
    clearPoison (numbered n s) (.flat k) len mask = numbered n (clearPoison s (.flat k) len mask) := by
  unfold clearPoison
  refine List.foldl_hom (numbered n) (fun t i => ?_)
  dsimp only [locKey]
  split <;> rfl

theorem putFlat_numbered (k n : Nat) (s : State) (bytes : List Byte) (mask : List Bool) :
    putFlat (.flat k) (numbered n s) bytes mask = numbered n (putFlat (.flat k) s bytes mask) := by
  rw [putFlat, writeMasked_numbered, clearPoison_numbered, putFlat]

theorem applyOp_numbered (k n : Nat) (s : State) (op : AccessOp) :
    applyOp (numbered n s) (.flat k) op (putFlat (.flat k)) = (numbered n (applyOp s (.flat k) op (putFlat (.flat k))).1, (applyOp s (.flat k) op (putFlat (.flat k))).2) := by
  cases op with
  | store bytes mask => simp only [applyOp, putFlat_numbered]
  | red opc w8 b => simp only [applyOp, putFlat_numbered, readNat_numbered]
  | amo opc w8 b id => simp only [applyOp, putFlat_numbered, readNat_numbered, poisoned_numbered]
  | cas w8 cmp new id => simp only [applyOp, putFlat_numbered, readNat_numbered, poisoned_numbered, apply_ite (numbered n)]
  | load m id held => simp only [applyOp, readLoc_numbered, poisonBeyond_numbered]
  | table slot stamp held => simp only [applyOp, readLoc_numbered, poisonBeyond_numbered]

theorem OnlyBytes.ite {s t : State} {c : Prop} [Decidable c] (h : OnlyBytes s t) : OnlyBytes s (if c then t else s) := by
  split
  · exact h
  · exact OnlyBytes.refl s

theorem onlyBytes_applyOp (l : Loc) (s : State) (op : AccessOp) : OnlyBytes s (applyOp s l op (putFlat l)).1 := by
  cases op with
  | store bytes mask => exact onlyBytes_putFlat l s _ _
  | red opc w8 b => simp only [applyOp]; exact onlyBytes_putFlat l s _ _
  | amo opc w8 b id => simp only [applyOp]; exact onlyBytes_putFlat l s _ _
  | cas w8 cmp new id =>
    simp only [applyOp]
    exact OnlyBytes.ite (onlyBytes_putFlat l s _ _)
  | load m id held => exact OnlyBytes.refl s
  | table slot stamp held => exact OnlyBytes.refl s

theorem nextId_applyOp (l : Loc) (s : State) (op : AccessOp) : (applyOp s l op (putFlat l)).1.nextId = s.nextId := by
  have same := congrArg State.nextId (onlyBytes_applyOp l s op).state
  exact same

/-! ### The landing request of an atomic (R277) -/

theorem exists_flat_of_isOwn {c : Nat} {l : Loc} (h : isOwn c l = true) : ∃ k, l = .flat k := by
  cases l with
  | flat k => exact ⟨k, rfl⟩
  | glob => exact absurd h (by simp [isOwn])
  | host => exact absurd h (by simp [isOwn])

/-- An access that reads and changes nothing. -/
def isLoad (op : AccessOp) : Bool := match op with | .load _ _ _ => true | _ => false

theorem land_eq (c : Nat) (o s : State) (dst : Dst) (p : Word) (l : Loc) (n due : Nat) (op : Nat → AccessOp) (held : Bool) :
    land c o s dst p l n due op held =
      if landLimit ≤ landEntries o c ∨ 8192 ≤ outstanding o c then pauseFor 8
      else if decide (winOf p < 2) && !bankReady o l n then pauseWake o l n
      else
        let u := numbered (s.nextId + 1) s
        let here := isOwn c l && bankReady o l n
        let loads := isLoad (op s.nextId)
        let atOnce := here && !loads && decide (winOf p < 2) && (ownPend o c).isEmpty
        let done := applyOp u l (op s.nextId) (putFlat l)
        let now : Option (BitVec 1024 × Bool) :=
          if loads && here then some (vecOf (readLoc (seen o c) l n), poisoned (seen o c) l n) else if atOnce then done.2 else none
        let v := updRegs (if atOnce then done.1 else u) c (fun r =>
          { r with lands := r.lands ++ [{ id := s.nextId, dst := dst, ptr := p, n := n, due := due, resp := now, data := none, held := held }] })
        if held then holdIn c o v (.access p l (op s.nextId))
        else if (loads && here) || atOnce then .ok v
        else .ok (post c v p l (op s.nextId) (ownerCtx o c) (entryNow o c (.access p l (op s.nextId))) (if winOf p < 2 then behindOwn o c else [])) := by
  refine if_congr Iff.rfl rfl (if_congr Iff.rfl rfl ?_)
  cases l <;> rfl

section

variable {c : Nat} {o : State} {dst : Dst} {p : Word} {l : Loc} {n due : Nat} {op : Nat → AccessOp} (room : CanLand o c) (atomic : ∀ id, isLoad (op id) = false)
include room atomic

/-- Outside the core's own storages the access goes out, or waits in the hold queue. -/
theorem land_far (far : 2 ≤ winOf p) (held : Bool) (s : State) :
    land c o s dst p l n due op held =
      if held then holdIn c o (awaiting c dst p n due none true s) (.access p l (op s.nextId))
      else .ok (requested c o dst p l n due op [] s) := by
  obtain ⟨places, requests⟩ := room
  have away : ¬ winOf p < 2 := by omega
  rw [land_eq, if_neg (by omega)]
  simp only [atomic, away, decide_false, Bool.false_and, Bool.and_false, Bool.or_false, Bool.false_eq_true, if_false]
  cases held
  · simp only [requested, awaiting, numbered, Bool.false_eq_true, if_false]
  · simp only [awaiting, numbered, if_true]

/-- In the core's own storages it performs at issue, or behind what is under way there (R230). -/
theorem land_near (near : winOf p < 2) (own : isOwn c l = true) (ready : bankReady o l n = true) (s : State) :
    land c o s dst p l n due op false =
      .ok (if ownPend o c = [] then answered c dst p l n due op s else requested c o dst p l n due op (behindOwn o c) s) := by
  obtain ⟨k, rfl⟩ := exists_flat_of_isOwn own
  obtain ⟨places, requests⟩ := room
  have next := nextId_applyOp (.flat k) s (op s.nextId)
  rw [land_eq, if_neg (by omega)]
  simp only [atomic, near, own, ready, applyOp_numbered, decide_true, Bool.not_false, Bool.not_true, Bool.and_true, Bool.and_false, Bool.true_and,
    Bool.false_or, Bool.false_eq_true, if_false, if_true, List.isEmpty_iff]
  split
  · simp only [answered, awaiting, next, numbered]
  · simp only [requested, awaiting, numbered]

end

/-! ### Atomics (R382) -/

/-- The landing of a request joins those kept with the checkpoint (R226). -/
def keepLanding (b : Body) : Body := { b with amoKeep := b.amoKeep ++ b.r.lands.drop (b.r.lands.length - 1) }

theorem globalAmo_first {c : Nat} {o : State} {d : Nat} (first : keptAmo o c d = none) (s : State) (p : Word) (l : Loc) (n due : Nat) (op : Nat → AccessOp) (held : Bool) :
    globalAmo c o s d p l n due op held = (do let u ← land c o s (.s d) p l n due op held; .ok (updBody u c keepLanding)) := by
  rw [globalAmo, first]
  rfl

theorem holdIn_of_room {c : Nat} {o s : State} {body : CBody} (h : (coreAt s c).b.holdQ.length < 64) : holdIn c o s body = .ok (heldBack c o body s) :=
  if_neg (Nat.not_le.2 h)

theorem detected_heldBack (c : Nat) (o : State) (body : CBody) (t : State) (q : Nat) : (coreAt (heldBack c o body t) q).b.detected = (coreAt t q).b.detected := by
  rw [heldBack, detected_updBody]
  exact fun _ => rfl

theorem holdQ_awaiting (c : Nat) (dst : Dst) (p : Word) (n due : Nat) (resp : Option (BitVec 1024 × Bool)) (held : Bool) (t : State) (q : Nat) :
    (coreAt (awaiting c dst p n due resp held t) q).b.holdQ = (coreAt t q).b.holdQ := by
  rw [awaiting, updRegs, body_updBody Body.holdQ]
  · rfl
  · exact fun _ => rfl

theorem detected_answered (c : Nat) (dst : Dst) (p : Word) (l : Loc) (n due : Nat) (op : Nat → AccessOp) (t : State) (q : Nat) :
    (coreAt (answered c dst p l n due op t) q).b.detected = (coreAt t q).b.detected := by
  rw [answered, detected_awaiting, (onlyBytes_applyOp ..).coreAt_eq]

/-- What an atomic of each window makes of the state: the bundle of an atomic to the cluster window, to its own scratchpad and to global
space, and of one that a provisional task holds back. -/
def IssuesAtomic (s : State) (i : Instr) (d a : BitVec 6) (l : Nat → Loc) (n due : Nat) (op : Nat → State → Nat → AccessOp) : Prop :=
  ((∀ q ∈ issuers s, winOf (sReg (settled s) q a.toNat) = 2) →
    exec i s = .next (issued (fun q o t => requested q o (.s d.toNat) (sReg o q a.toNat) (l q) n ((coreAt o q).b.r.vcc + due) (op q o) [] t) s)) ∧
  ((∀ q ∈ issuers s, winOf (sReg (settled s) q a.toNat) = 1 ∧ bankReady (settled s) (l q) n = true) →
    exec i s = .next (issued (fun q o t =>
      if ownPend o q = [] then answered q (.s d.toNat) (sReg o q a.toNat) (l q) n ((coreAt o q).b.r.vcc + due) (op q o) t
      else requested q o (.s d.toNat) (sReg o q a.toNat) (l q) n ((coreAt o q).b.r.vcc + due) (op q o) (behindOwn o q) t) s)) ∧
  ((∀ q ∈ issuers s, winOf (sReg (settled s) q a.toNat) = 8 ∧ (coreAt (settled s) q).b.hdrCkpt = true ∧ keptAmo (settled s) q d.toNat = none ∧
      (isProv (settled s) q && !locRetr (settled s) q (l q) n) = false) →
    exec i s = .next (issued (fun q o t =>
      updBody (requested q o (.s d.toNat) (sReg o q a.toNat) (l q) n ((coreAt o q).b.r.vcc + due) (op q o) [] t) q keepLanding) s)) ∧
  ((∀ q ∈ issuers s, winOf (sReg (settled s) q a.toNat) = 8 ∧ (coreAt (settled s) q).b.hdrCkpt = true ∧ keptAmo (settled s) q d.toNat = none ∧
      isProv (settled s) q = true ∧ locRetr (settled s) q (l q) n = false ∧ (coreAt (settled s) q).b.holdQ.length < 64) →
    exec i s = .next (issued (fun q o t =>
      updBody (heldBack q o (.access (sReg o q a.toNat) (l q) (op q o t.nextId))
        (awaiting q (.s d.toNat) (sReg o q a.toNat) n ((coreAt o q).b.r.vcc + due) none true t)) q keepLanding) s))

/-- The checks of an atomic, and where it goes. -/
def atomicEff (d a : BitVec 6) (n due : Nat) (op : Nat → State → Nat → AccessOp) : Eff := fun c o s => do
  let p := sReg o c a.toNat
  let l ← access o c p n n winAtomic true
  if winOf p = 8 ∧ !(coreAt o c).b.hdrCkpt then flt codeIllegal
  else
    let held := winOf p == 8 && isProv o c && !locRetr o c l n
    let due := (coreAt o c).b.r.vcc + due
    if winOf p = 8 then globalAmo c o s d.toNat p l n due (op c o) held else land c o s (.s d.toNat) p l n due (op c o) held

section

variable {d a : BitVec 6} {n due : Nat} {op : Nat → State → Nat → AccessOp} {c : Nat} {o : State} {l : Loc}

theorem atomicEff_local (reached : Reaches o c (sReg o c a.toNat) n n winAtomic true l) (here : winOf (sReg o c a.toNat) ≠ 8) (s : State) :
    atomicEff d a n due op c o s = land c o s (.s d.toNat) (sReg o c a.toNat) l n ((coreAt o c).b.r.vcc + due) (op c o) false := by
  have place : access o c (sReg o c a.toNat) n n winAtomic true = .ok l := reached
  simp only [atomicEff, place, bind, Except.bind, here, false_and, if_false, beq_eq_false_iff_ne.2 here, Bool.false_and]

theorem atomicEff_global (reached : Reaches o c (sReg o c a.toNat) n n winAtomic true l) (global : winOf (sReg o c a.toNat) = 8)
    (ckpt : (coreAt o c).b.hdrCkpt = true) (first : keptAmo o c d.toNat = none) (s : State) :
    atomicEff d a n due op c o s = (do
      let u ← land c o s (.s d.toNat) (sReg o c a.toNat) l n ((coreAt o c).b.r.vcc + due) (op c o) (isProv o c && !locRetr o c l n)
      .ok (updBody u c keepLanding)) := by
  have place : access o c (sReg o c a.toNat) n n winAtomic true = .ok l := reached
  simp only [atomicEff, place, bind, Except.bind, global, ckpt, Bool.not_true, Bool.false_eq_true, and_false, if_false, if_true, beq_self_eq_true, Bool.true_and,
    globalAmo_first first]

end

theorem issuesAtomic {s : State} (h : Ready s) {i : Instr} {d a : BitVec 6} {l : Nat → Loc} {n due : Nat} {op : Nat → State → Nat → AccessOp}
    (hi : exec i s = runSlot 3 (atomicEff d a n due op) s) (atomic : ∀ q o id, isLoad (op q o id) = false)
    (reach : ∀ q ∈ issuers s, Reaches (settled s) q (sReg (settled s) q a.toNat) n n winAtomic true (l q) ∧ CanLand (settled s) q) :
    IssuesAtomic s i d a l n due op := by
  refine ⟨fun cluster => ?_, fun near => ?_, fun global => ?_, fun back => ?_⟩
  · refine issues_ok h hi (by decide) (fun q hq t => ?_) (fun q t c => detected_requested ..)
    obtain ⟨reached, room⟩ := reach q hq
    have window := cluster q hq
    rw [atomicEff_local reached (by omega), land_far room (atomic q _) (by omega)]
    rfl
  · refine issues_ok h hi (by decide) (fun q hq t => ?_) (fun q t c => ?_)
    · obtain ⟨reached, room⟩ := reach q hq
      obtain ⟨window, ready⟩ := near q hq
      rw [atomicEff_local reached (by omega), land_near room (atomic q _) (by omega) (isOwn_of_reaches reached (by omega)) ready]
    · split
      · exact detected_answered ..
      · exact detected_requested ..
  · refine issues_ok h hi (by decide) (fun q hq t => ?_) (fun q t c => ?_)
    · obtain ⟨reached, room⟩ := reach q hq
      obtain ⟨window, ckpt, first, goes⟩ := global q hq
      rw [atomicEff_global reached window ckpt first, goes, land_far room (atomic q _) (by omega)]
      rfl
    · rw [detected_updBody (f := keepLanding) (fun _ => rfl), detected_requested]
  · refine issues_own h (fun q t => (coreAt t q).b.holdQ.length < 64) hi (by decide) (fun q hq => (back q hq).2.2.2.2.2) (fun q hq t free => ?_) (fun q c t other free => ?_)
      (fun q t c => ?_)
    · obtain ⟨reached, room⟩ := reach q hq
      obtain ⟨window, ckpt, first, prov, outside, -⟩ := back q hq
      rw [atomicEff_global reached window ckpt first, prov, outside, land_far room (atomic q _) (by omega)]
      simp only [Bool.not_false, Bool.and_self, if_true]
      rw [holdIn_of_room (by rw [holdQ_awaiting]; exact free)]
      rfl
    · rw [core_updBody, if_neg other, heldBack, core_updBody, if_neg other, holdQ_awaiting]
      exact free
    · rw [detected_updBody (f := keepLanding) (fun _ => rfl), detected_heldBack, detected_awaiting]

/-- The bytes of an access whose width bit is `w`. -/
theorem accessWidth (w : BitVec 1) : (if w == 1 then 8 else 4) = if w = 1 then 8 else 4 := if_congr beq_iff_eq rfl rfl

theorem effAmo_eq (opc : Nat) (d a : BitVec 6) (w : BitVec 1) (f : BitVec 9) :
    effAmo opc d a w f = atomicEff d a (if w = 1 then 8 else 4) (8 * f.toNat) (fun c o id => .amo opc (w == 1) (sReg o c d.toNat) id) := by
  rw [← accessWidth]
  rfl

theorem effCas_eq (d a : BitVec 6) (w : BitVec 1) (r : BitVec 12) :
    effCas d a w r = atomicEff d a (if w = 1 then 8 else 4) r.toNat (fun c o id => .cas (w == 1) (sReg o c d.toNat) (sReg o c (d.toNat + 1)) id) := by
  rw [← accessWidth]
  rfl

theorem exec_amo {s : State} (h : Ready s) {i : Instr} {opc : Nat} {d a : BitVec 6} {w : BitVec 1} {f : BitVec 9} (hi : exec i s = runSlot 3 (effAmo opc d a w f) s)
    {l : Nat → Loc} (reach : ∀ q ∈ issuers s,
      Reaches (settled s) q (sReg (settled s) q a.toNat) (if w = 1 then 8 else 4) (if w = 1 then 8 else 4) winAtomic true (l q) ∧ CanLand (settled s) q) :
    IssuesAtomic s i d a l (if w = 1 then 8 else 4) (8 * f.toNat) (fun q o id => .amo opc (w == 1) (sReg o q d.toNat) id) :=
  issuesAtomic h (by rw [hi, effAmo_eq]) (fun _ _ _ => rfl) reach

/-- Settles O28: an atomic's window decides where it goes. -/
theorem atomicsRequestAndAnswer : Obligations.AtomicsRequestAndAnswer := by
  unfold Obligations.AtomicsRequestAndAnswer
  refine ⟨?_, ?_⟩
  · intro s d a w l h n issue
    refine ⟨fun f => ⟨exec_amo h (i := .amoAdd d a w f) rfl, exec_amo h (i := .amoAnd d a w f) rfl, exec_amo h (i := .amoOr d a w f) rfl,
      exec_amo h (i := .amoXor d a w f) rfl, exec_amo h (i := .amoMin d a w f) rfl, exec_amo h (i := .amoMax d a w f) rfl,
      exec_amo h (i := .amoMinu d a w f) rfl, exec_amo h (i := .amoMaxu d a w f) rfl, exec_amo h (i := .amoSwap d a w f) rfl,
      exec_amo h (i := .amoFadd d a f) (w := 0) rfl⟩, fun r => ?_⟩
    have cas : exec (.cas d a w r) s = runSlot 3 (effCas d a w r) s := rfl
    exact issuesAtomic h (by rw [cas, effCas_eq]) (fun _ _ _ => rfl)
  · intro w8 m b w x y hm
    obtain ⟨add, and, or, xor, swap, fadd⟩ := amoVal_combined (w8 := w8) (b := b) rfl hm
    obtain ⟨min, max, minu, maxu⟩ := amoVal_selected (w8 := w8) (b := b) rfl hm
    exact ⟨add, and, or, xor, min, max, minu, maxu, swap, fadd⟩

end Sys2Proof.Machine
end

section
/-! Reductions (R164, R230, R381, R382). -/

namespace Sys2Proof.Machine

open Sys2Proof.Safety

/-! ### Runs of bytes -/

theorem bytes_eq_map_byte (m : Memory) : ∀ (n k : Nat), m.bytes k n = (List.range n).map (fun i => m.byte (k + i))
  | 0, _ => rfl
  | n + 1, k => by
    rw [Memory.bytes, bytes_eq_map_byte m n (k + 1), List.range_succ_eq_map, List.map_cons, List.map_map, Nat.add_zero]
    refine congrArg _ (List.map_congr_left (fun i _ => ?_))
    rw [Function.comp_apply, Nat.add_right_comm, Nat.add_assoc]

theorem readNat_flat (s : State) (k n : Nat) : readNat s (.flat k) n = leNat (s.mem.bytes k n) := by
  rw [readNat, readLoc, bytes_eq_map_byte]
  rfl

theorem leNat_leBytes : ∀ n x : Nat, leNat (leBytes x n) = x % 2 ^ (8 * n)
  | 0, x => by simp [leBytes, leNat, Nat.mod_one]
  | n + 1, x => by
    have low : (BitVec.ofNat 8 x).toNat = x % 256 := BitVec.toNat_ofNat _ _
    have base : 2 ^ (8 * (n + 1)) = 256 * 2 ^ (8 * n) := by rw [Nat.mul_succ, Nat.pow_add, Nat.mul_comm]
    rw [leBytes, leNat, leNat_leBytes n, low, base, Nat.mod_mul]

/-- The number at a run of bytes written whole. -/
theorem leNat_bytes_putFlat (k x n : Nat) (s : State) : leNat ((putFlat (.flat k) s (leBytes x n) (allMask n)).mem.bytes k n) = x % 2 ^ (8 * n) := by
  rw [← leNat_leBytes, bytes_eq_map_byte]
  refine congrArg leNat (List.ext_getElem (by simp [length_leBytes]) (fun i inside _ => ?_))
  have few : i < n := by simpa using inside
  rw [List.getElem_map, List.getElem_range, byte_putFlat_inside (by rwa [length_leBytes]), allMask, if_pos (by simp [few])]
  simp [length_leBytes, few]

/-- The windows an atomic or reduction may name. -/
theorem window_of_reaches_atomic {o : State} {c : Nat} {p : Word} {n align : Nat} {wr : Bool} {l : Loc} (h : Reaches o c p n align winAtomic wr l) :
    winOf p = 1 ∨ winOf p = 2 ∨ winOf p = 8 := by
  have reached : accessAs o c (issuerOf o c) p n align winAtomic wr = .ok l := h
  rw [winOf]
  simp only [accessAs] at reached
  split at reached
  next far => exact Or.inr (Or.inr (if_pos far))
  next near =>
    rw [if_neg near]
    split at reached
    next w => exact absurd (need_bind_eq_ok.1 reached).1 (by decide)
    next w => exact Or.inl w
    next w => exact Or.inr (Or.inl w)
    next w => exact absurd (need_bind_eq_ok.1 reached).1 (by decide)
    next => cases reached

/-! ### Reductions (R382) -/

/-- What a reduction makes of the state, by its window and, in global space, whether its provisional task holds it back. -/
def redDone (opc : Nat) (w8 : Bool) (a b : BitVec 6) (n : Nat) (l : Loc) (c : Nat) (o t : State) : State :=
  let p := sReg o c a.toNat
  let op := AccessOp.red opc w8 (sReg o c b.toNat)
  if winOf p = 8 then (if isProv o c && !locRetr o c l n then heldBack c o (.access p l op) t else queued c o (.access p l op) t)
  else if winOf p = 2 then post c t p l op none (entryNow o c (.access p l op)) []
  else if ownPend o c = [] then (applyOp t l op (putFlat l)).1
  else post c t p l op none (entryNow o c (.access p l op)) (behindOwn o c)

/-- The core has a place for what its reduction leaves. -/
def RedRoom (a : BitVec 6) (n : Nat) (l : Loc) (o : State) (c : Nat) (t : State) : Prop :=
  winOf (sReg o c a.toNat) = 8 → if isProv o c && !locRetr o c l n then (coreAt t c).b.holdQ.length < 64 else (coreAt t c).b.commitQ.length < 256

section

variable {opc : Nat} {a b : BitVec 6} {w : BitVec 1} {n : Nat} {l : Loc} {c : Nat} {o : State}

theorem effRed_eq (hn : (if w == 1 then 8 else 4) = n) (reached : Reaches o c (sReg o c a.toNat) n n winAtomic true l)
    (ready : winOf (sReg o c a.toNat) = 1 → bankReady o l n = true) {t : State} (room : RedRoom a n l o c t) :
    effRed opc a b w c o t = .ok (redDone opc (w == 1) a b n l c o t) := by
  have place : access o c (sReg o c a.toNat) n n winAtomic true = .ok l := reached
  have near (global : winOf (sReg o c a.toNat) ≠ 8) (cluster : winOf (sReg o c a.toNat) ≠ 2) : bankReady o l n = true :=
    ready ((window_of_reaches_atomic reached).resolve_right (by simp [global, cluster]))
  simp only [effRed, hn, place, bind, Except.bind, redDone]
  by_cases global : winOf (sReg o c a.toNat) = 8
  · have room := room global
    rw [if_pos global, if_pos global]
    split at room
    next back => rw [if_pos back, if_pos back, holdIn_of_room room]
    next on => rw [if_neg on, if_neg on, commit_of_room room]
  · rw [if_neg global, if_neg global]
    by_cases cluster : winOf (sReg o c a.toNat) = 2
    · simp [cluster]
    · simp [cluster, near global cluster, ownAccess]

end

/-- A reduction leaves the places of another core, and every core's detected error. -/
theorem core_redDone {opc : Nat} {w8 : Bool} {a b : BitVec 6} {n : Nat} {l : Loc} {c : Nat} {o : State} {q : Nat} (other : q ≠ c) (t : State) :
    (coreAt (redDone opc w8 a b n l c o t) q).b = (coreAt t q).b := by
  simp only [redDone]
  split_ifs
  · rw [heldBack, core_updBody, if_neg other]
  · rw [core_queued_of_ne other]
  · exact body_post ..
  · rw [(onlyBytes_applyOp ..).coreAt_eq]
  · exact body_post ..

theorem detected_redDone {opc : Nat} {w8 : Bool} {a b : BitVec 6} {n : Nat} {l : Loc} {c : Nat} {o : State} (t : State) (q : Nat) :
    (coreAt (redDone opc w8 a b n l c o t) q).b.detected = (coreAt t q).b.detected := by
  simp only [redDone]
  split_ifs
  · exact detected_heldBack ..
  · exact detected_queued ..
  · exact detected_post ..
  · rw [(onlyBytes_applyOp ..).coreAt_eq]
  · exact detected_post ..

section

variable {s : State} (h : Ready s) {opc : Nat} {a b : BitVec 6} {w : BitVec 1} {n : Nat} {l : Nat → Loc} {i : Instr} (hi : exec i s = runSlot 3 (effRed opc a b w) s)
  (hn : (if w == 1 then 8 else 4) = n) (reach : ∀ q ∈ issuers s, Reaches (settled s) q (sReg (settled s) q a.toNat) n n winAtomic true (l q))
include h hi hn reach

theorem exec_red (room : ∀ q ∈ issuers s, RedRoom a n (l q) (settled s) q (settled s) ∧ (winOf (sReg (settled s) q a.toNat) = 1 → bankReady (settled s) (l q) n = true)) :
    exec i s = .next (issued (fun q o t => redDone opc (w == 1) a b n (l q) q o t) s) := by
  refine issues_own h (fun q t => RedRoom a n (l q) (settled s) q t) hi (by decide) (fun q hq => (room q hq).1) (fun q hq t free => ?_) (fun q c t other free => ?_)
    (fun q t c => detected_redDone t c)
  · exact effRed_eq hn (reach q hq) (room q hq).2 free
  · unfold RedRoom at free ⊢
    rwa [core_redDone other]

/-- In the core's own scratchpad a reduction writes the combined value, where it is alone there. -/
theorem red_writes {q key : Nat} (single : issuers s = [q]) (place : l q = .flat key) (near : winOf (sReg (settled s) q a.toNat) = 1)
    (ready : bankReady (settled s) (l q) n = true) (alone : ownPend (settled s) q = []) :
    ∃ t, exec i s = .next t ∧ (∀ x, x < key ∨ key + n ≤ x → t.mem.byte x = s.mem.byte x) ∧
      leNat (t.mem.bytes key n) = amoVal opc (w == 1) (leNat (s.mem.bytes key n)) (sReg (settled s) q b.toNat).toNat % 2 ^ (8 * n) := by
  have only {c : Nat} (hc : c ∈ issuers s) : c = q := by simpa [single] using hc
  have done : slotDone (fun q o t => redDone opc (w == 1) a b n (l q) q o t) s = putFlat (.flat key) (settled s)
      (leBytes (amoVal opc (w == 1) (leNat (s.mem.bytes key n)) (sReg (settled s) q b.toNat).toNat) n) (allMask n) := by
    rw [slotDone_of_single single, redDone]
    simp only [near, alone, place, if_true, applyOp, hn, readNat_flat, settled_mem]
    rfl
  obtain ⟨mem, -, -⟩ := finishBundle_leaves h (u := slotDone (fun q o t => redDone opc (w == 1) a b n (l q) q o t) s)
    (fun c => by rw [done, (onlyBytes_putFlat ..).coreAt_eq])
  refine ⟨_, exec_red h hi hn reach (fun c hc => ?_), fun x outside => ?_, ?_⟩
  · obtain rfl := only hc
    exact ⟨fun global => absurd (near.symm.trans global) (by decide), fun _ => ready⟩
  · rw [issued, mem, done, byte_putFlat_outside (by rwa [length_leBytes]), settled_mem]
  · rw [issued, mem, done, leNat_bytes_putFlat]

/-- What a reduction issues, in every window. -/
theorem issues_red :
    ((∀ q ∈ issuers s, RedRoom a n (l q) (settled s) q (settled s) ∧ (winOf (sReg (settled s) q a.toNat) = 1 → bankReady (settled s) (l q) n = true)) →
      exec i s = .next (issued (fun q o t => redDone opc (w == 1) a b n (l q) q o t) s)) ∧
    (∀ q key, issuers s = [q] → l q = .flat key → winOf (sReg (settled s) q a.toNat) = 1 → bankReady (settled s) (l q) n = true → ownPend (settled s) q = [] →
      ∃ t, exec i s = .next t ∧ (∀ x, x < key ∨ key + n ≤ x → t.mem.byte x = s.mem.byte x) ∧
        leNat (t.mem.bytes key n) = amoVal opc (w == 1) (leNat (s.mem.bytes key n)) (sReg (settled s) q b.toNat).toNat % 2 ^ (8 * n)) :=
  ⟨exec_red h hi hn reach, fun _ _ single place near ready alone => red_writes h hi hn reach single place near ready alone⟩

end

/-- Settles O29: a reduction's window decides where it goes. -/
theorem reductionsPerform : Obligations.ReductionsPerform := by
  unfold Obligations.ReductionsPerform
  intro s a b w l h p issue
  exact ⟨issues_red h (i := .redAdd a b w) rfl rfl, issues_red h (i := .redAnd a b w) rfl rfl, issues_red h (i := .redOr a b w) rfl rfl,
    issues_red h (i := .redXor a b w) rfl rfl, issues_red h (i := .redMin a b w) rfl rfl, issues_red h (i := .redMax a b w) rfl rfl,
    issues_red h (i := .redMinu a b w) rfl rfl, issues_red h (i := .redMaxu a b w) rfl rfl, issues_red h (i := .redFadd a b) (w := 0) rfl rfl⟩

end Sys2Proof.Machine
end

section
/-! Acquire loads, the Hinge flag and releases (R218, R241, R242, R383, R384). -/

namespace Sys2Proof.Machine

open Sys2Proof.Safety

/-! ### A read as the memory channels and the L2 see it changes no core -/

theorem cores_updBank (m : Nat) (f : MemBank → MemBank) (s : State) : (updBank m f s).cores = s.cores := by
  unfold updBank
  split <;> rfl

theorem cores_sendMsix (e : Nat) (s : State) : (sendMsix e s).cores = s.cores := by
  unfold sendMsix
  split <;> rfl

theorem cores_logMem (m addr kind symbol : Nat) (s : State) : (logMem m addr kind symbol s).cores = s.cores :=
  (cores_sendMsix ..).trans (cores_updBank ..)

theorem cores_sectorAddr (s : State) (k : Nat) : (sectorAddr s k).1.cores = s.cores := by
  unfold sectorAddr
  split <;> rfl

theorem cores_findOnRead (q : Nat) (s : State) : (findOnRead q s).cores = s.cores := by
  unfold findOnRead
  split
  · rfl
  · dsimp only
    split
    · rw [cores_logMem, cores_sectorAddr]
    · split
      · rfl
      · split
        · rw [cores_logMem, cores_updBank]
          exact cores_sectorAddr s _
        · rw [cores_logMem, cores_updBank]
          exact cores_sectorAddr s _

theorem cores_countRead (s : State) (die h o n : Nat) : (countRead s die h o n).cores = s.cores :=
  foldl_keeps (g := State.cores) (fun t k => by dsimp only; split <;> rfl) _ s

theorem coreAt_acqRead (c : Nat) (l : Loc) (n : Nat) (s : State) (q : Nat) : coreAt (acqRead c l n s) q = coreAt s q := by
  refine coreAt_congr ?_ q
  unfold acqRead
  split
  · exact (cores_countRead ..).trans (foldl_keeps (g := State.cores) (fun t k => cores_findOnRead k t) _ s)
  · rfl

/-! ### Reads at issue (R383, R384) -/

section

variable {d a b : BitVec 6} {c : Nat} {o : State} {l : Loc}

theorem effLdAcq_eq {z : BitVec 1} {sc : BitVec 3} {n : Nat} (hn : (if z = 1 then 8 else 4) = n) (reached : Reaches o c (sReg o c a.toNat) n n winAtomic false l)
    (ready : bankReady o l n = true) (clean : poisonBeyond o l n (heldBytes o c l n) = false) (present : locGone o l = false) (settled : Settled o c l n) (t : State) :
    effLdAcq d a z sc c o t = .ok (resultS c d.toNat (BitVec.ofNat 64 (leNat (overlay o c l n))) 1 (acqRead c l n t)) := by
  have place : access o c (sReg o c a.toNat) n n winAtomic false = .ok l := reached
  have apart : pendingTo o c l n = false := settled
  simp only [effLdAcq, hn, place, bind, Except.bind]
  simp [present, ready, apart, clean, need]

theorem effHingeAcq_eq (confirmed : isProv o c = false) (reached : Reaches o c (sReg o c a.toNat) 8 8 winGlobal true l)
    (clean : poisonBeyond o l 8 (heldBytes o c l 8) = false) (present : locGone o l = false) (settled : Settled o c l 8)
    (enough : (sReg o c b.toNat).toNat ≤ leNat (overlay o c l 8)) (t : State) :
    effHingeAcq d a b c o t = .ok (resultS c d.toNat (BitVec.ofNat 64 (leNat (overlay o c l 8))) 1 (acqRead c l 8 t)) := by
  have place : access o c (sReg o c a.toNat) 8 8 winGlobal true = .ok l := reached
  have apart : pendingTo o c l 8 = false := settled
  simp [effHingeAcq, place, bind, Except.bind, present, apart, clean, need, notProv, confirmed, Nat.not_lt.2 enough]

theorem effHingeRel_eq (confirmed : isProv o c = false) (reached : Reaches o c (sReg o c a.toNat) 8 8 winGlobal true l)
    (plain : (sReg o c d.toNat).getLsbD 23 = false) (reserved : fieldW (sReg o c d.toNat) 38 26 = 0)
    (partition : (ctx o (fieldW (sReg o c d.toNat) 32 6)).part.toNat = taskPart o c) (t : State) :
    effHingeRel d a b c o t = commit c o t (.hinge (sReg o c a.toNat) (hingeOf (sReg o c a.toNat) (sReg o c d.toNat) (sReg o c b.toNat))) := by
  have place : access o c (sReg o c a.toNat) 8 8 winGlobal true = .ok l := reached
  simp only [effHingeRel, place, bind, Except.bind, need, notProv, confirmed, bitAt_toNat, plain, reserved, partition, beq_self_eq_true, Bool.and_self,
    Bool.not_false, if_true]

end

/-! ### Releases (R383) -/

section

variable {b a : BitVec 6} {z : BitVec 1} {sc : BitVec 3} {n c : Nat} {o : State} {l : Loc} (hn : (if z = 1 then 8 else 4) = n)
  (reached : Reaches o c (sReg o c a.toNat) n n winRelease true l)
include hn reached

theorem effStRel_held (held : isHeldWin (sReg o c a.toNat) = true) (goes : (isProv o c && !locRetr o c l n) = false) (t : State) :
    effStRel b a z sc c o t =
      commit c o t (.rel sc.toNat (sReg o c a.toNat) l (.store (leBytes (sReg o c b.toNat).toNat n) (allMask n))) := by
  have place : access o c (sReg o c a.toNat) n n winRelease true = .ok l := reached
  simp only [effStRel, hn, place, bind, Except.bind, held, goes, if_true, Bool.false_eq_true, if_false]

theorem effStRel_posted (near : isHeldWin (sReg o c a.toNat) = false) (t : State) :
    effStRel b a z sc c o t =
      .ok (let op : AccessOp := .store (leBytes (sReg o c b.toNat).toNat n) (allMask n)
        post c t (sReg o c a.toNat) l op none (entryNow o c (.rel sc.toNat (sReg o c a.toNat) l op)) ((coreAt t c).out ++ heldId t c)) := by
  have place : access o c (sReg o c a.toNat) n n winRelease true = .ok l := reached
  simp only [effStRel, hn, place, bind, Except.bind, near, Bool.false_eq_true, if_false]

end

/-- Settles O30: an acquire reads at issue, and a release enters the commit queue or is posted. -/
theorem acquireAndRelease : Obligations.AcquireAndRelease := by
  unfold Obligations.AcquireAndRelease
  intro s d a b z sc l h n p value clean
  simp only [← leBytes_word]
  have apart (q : Nat) (x : Word) (m : Nat) (t : State) (c : Nat) :
      (coreAt (resultS q d.toNat x 1 (acqRead q (l q) m t)) c).b.detected = (coreAt t c).b.detected := by rw [detected_resultS, coreAt_acqRead]
  refine ⟨fun reach => ?_, fun reach => ⟨fun held => ?_, fun near => ?_⟩, fun reach => ?_, fun reach => ?_⟩
  · refine issues_ok h (f := effLdAcq d a z sc) rfl (by decide) (fun q hq t => ?_) (fun q t c => apart ..)
    obtain ⟨reached, ready, clean, present, settled⟩ := reach q hq
    exact effLdAcq_eq rfl reached ready clean present settled t
  · refine issues_queued h (f := effStRel b a z sc) rfl (by decide) (fun q hq => (held q hq).2.2) (fun q hq t => ?_)
    obtain ⟨window, goes, -⟩ := held q hq
    exact effStRel_held rfl (reach q hq) window goes t
  · exact issues_ok h (f := effStRel b a z sc) rfl (by decide) (fun q hq t => effStRel_posted rfl (reach q hq) (near q hq) t) (fun q t c => detected_post ..)
  · refine issues_ok h (f := effHingeAcq d a b) rfl (by decide) (fun q hq t => ?_) (fun q t c => apart ..)
    obtain ⟨confirmed, reached, ⟨clean, present, settled⟩, enough⟩ := reach q hq
    exact effHingeAcq_eq confirmed reached clean present settled enough t
  · refine issues_queued h (f := effHingeRel d a b) rfl (by decide) (fun q hq => (reach q hq).2.2.1) (fun q hq t => ?_)
    obtain ⟨confirmed, reached, -, plain, reserved, partition⟩ := reach q hq
    exact effHingeRel_eq confirmed reached plain reserved partition t

end Sys2Proof.Machine
end

section
/-! Transfers and loops of core code (R326, R353-R355). -/

namespace Sys2Proof.Machine

open Sys2Proof.Safety

/-! ### Groups -/

theorem mem_groupOf (s : State) (c : Nat) : c ∈ groupOf s c := by
  unfold groupOf
  split
  · exact List.mem_map.2 ⟨coreCic c, List.mem_range.2 (Nat.mod_lt _ (by decide)), by unfold clusterCore coreCluster coreCic; omega⟩
  · exact List.mem_singleton_self c

theorem groupOf_nodup (s : State) (c : Nat) : (groupOf s c).Nodup := by
  unfold groupOf
  split
  · exact List.Nodup.map (fun i j e => by simpa [clusterCore] using e) List.nodup_range
  · exact List.nodup_singleton _

/-! ### The end of a bundle outside TEND -/

/-- Each issuer goes on to its next bundle, which the leading core's transfer names. -/
theorem body_advanced {s u : State} (runs : inTend u (lead s) = false) {q : Nat} (hq : q ∈ issuers s) :
    (coreAt (finishBundle (issuers s) (settled s) u) q).b = advance (coreAt (settled s) q).b (coreAt u (lead s)).b.taken (coreAt u q).b := by
  obtain ⟨l, all, -⟩ := issuers_eq s
  have nodup := issuers_nodup s
  rw [all] at hq nodup ⊢
  rw [finishBundle_of_running runs]
  refine Eq.trans ?_ (body_onCores_of_mem (f := fun q => advance (coreAt (settled s) q).b (coreAt u (lead s)).b.taken) nodup hq u)
  exact congrArg Core.b (foldl_keeps (g := fun s => coreAt s q) (fun s c => coreAt_snapVcc ..) (lead s :: l) _)

/-! ### Transfers (R353) -/

/-- What a CTL operation does to a state before its transfer: it leaves tasks and detected errors. -/
structure KeepsTask (k : State → State) : Prop where
  task : ∀ u q, (coreAt (k u) q).b.task = (coreAt u q).b.task
  detected : ∀ u q, (coreAt (k u) q).b.detected = (coreAt u q).b.detected

theorem keepsTask_id : KeepsTask id := ⟨fun _ _ => rfl, fun _ _ => rfl⟩

theorem keepsTask_onCores {f : Nat → Body → Body} (hf : ∀ q b, (f q b).task = b.task ∧ (f q b).detected = b.detected) (l : List Nat) :
    KeepsTask (onCores (fun q u => updBody u q (f q)) l) :=
  ⟨fun u q => body_onCores Body.task (fun q b => (hf q b).1) l u q, fun u q => body_onCores Body.detected (fun q b => (hf q b).2) l u q⟩

theorem task_resultS (c n : Nat) (x : Word) (lat : Nat) (s : State) (q : Nat) : (coreAt (resultS c n x lat s) q).b.task = (coreAt s q).b.task := by
  rw [resultS, result, updRegs, body_updBody Body.task]
  exact fun _ => rfl

theorem keepsTask_results (d : Nat) (v : Nat → Word) (lat : Nat) (l : List Nat) : KeepsTask (onCores (fun q u => resultS q d (v q) lat u) l) where
  task u q := foldl_keeps (g := fun u => (coreAt u q).b.task) (fun _ _ => task_resultS ..) l u
  detected u q := foldl_keeps (g := fun u => (coreAt u q).b.detected) (fun _ _ => detected_resultS ..) l u

theorem keepsTask_takes {k : State → State} (hk : KeepsTask k) (t : Word) (c : Nat) : KeepsTask (fun u => takes t c (k u)) where
  task u q := (body_updBody Body.task (f := fun b => { b with taken := some t }) (fun _ => rfl) (k u) c q).trans (hk.task u q)
  detected u q := (body_updBody Body.detected (f := fun b => { b with taken := some t }) (fun _ => rfl) (k u) c q).trans (hk.detected u q)

section

variable {s : State} (h : Ready s)
include h

/-- A CTL operation alone in its bundle that leaves tasks and detected errors. -/
theorem exec_lead {i : Instr} {f : Eff} {k : State → State} (hk : KeepsTask k) (hi : exec i s = runSlot 0 f s)
    (hf : f (lead s) (settled s) (settled s) = .ok (k (settled s))) : exec i s = .next (issuedLead (fun _ _ u => k u) s) := by
  obtain ⟨-, -, -, clean⟩ := id h
  exact hi.trans (runSlot_lead h (k := fun _ _ u => k u) hf (fun q hq => (hk.detected _ q).trans (clean q hq)))

theorem body_issuedLead {k : State → State} (hk : KeepsTask k) {q : Nat} (hq : q ∈ issuers s) :
    (coreAt (issuedLead (fun _ _ u => k u) s) q).b =
      advance (coreAt (settled s) q).b (coreAt (k (settled s)) (lead s)).b.taken (coreAt (k (settled s)) q).b :=
  body_advanced ((inTend_congr ((hk.task _ _).trans (task_settled s _))).trans (not_inTend_of_ready h (lead_mem s))) hq

/-- A taken transfer: every issuer goes on at the target, three cycles and the idle count later. -/
theorem issues_at_target {k : State → State} (hk : KeepsTask k) (t : Word) {q : Nat} (hq : q ∈ issuers s) :
    (coreAt (issuedLead (fun c _ u => takes t c (k u)) s) q).b.r.pc = t ∧
      (coreAt (issuedLead (fun c _ u => takes t c (k u)) s) q).b.r.vcc = (coreAt (settled s) q).b.r.vcc + 3 + (coreAt (settled s) q).b.hdrIdle := by
  have body := body_issuedLead h (keepsTask_takes hk t (lead s)) hq
  have taken : (coreAt (takes t (lead s) (k (settled s))) (lead s)).b.taken = some t := by rw [takes, core_updBody, if_pos rfl]
  rw [taken] at body
  have same : issuedLead (fun c _ u => takes t c (k u)) s = issuedLead (fun _ _ u => takes t (lead s) (k u)) s := rfl
  rw [same, body]
  exact ⟨rfl, (Nat.add_assoc ..).symm⟩

/-- A transfer goes to a code address, or is refused (R326). -/
theorem exec_transfer {i : Instr} {f : Eff} {k : State → State} (hk : KeepsTask k) {t : Word} (hi : exec i s = runSlot 0 f s)
    (hf : f (lead s) (settled s) (settled s) = transfer (lead s) (settled s) (k (settled s)) t) :
    (isCodeAddr (settled s) (lead s) t = true → exec i s = .next (issuedLead (fun c _ u => takes t c (k u)) s) ∧
      ∀ q ∈ issuers s, (coreAt (issuedLead (fun c _ u => takes t c (k u)) s) q).b.r.pc = t ∧
        (coreAt (issuedLead (fun c _ u => takes t c (k u)) s) q).b.r.vcc = (coreAt (settled s) q).b.r.vcc + 3 + (coreAt (settled s) q).b.hdrIdle) ∧
    (isCodeAddr (settled s) (lead s) t = false → exec i s = .next (takeFault (issuers s) (faultHere s (lead s) codeIllegal 0 none 0) s)) := by
  refine ⟨fun code => ⟨exec_lead h (keepsTask_takes hk t (lead s)) hi ?_, fun q hq => issues_at_target h hk t hq⟩, fun other => ?_⟩
  · rw [hf, transfer, if_pos code]
    rfl
  · exact hi.trans (runSlot_lead_fault h (hf.trans (if_neg (by rw [other]; exact Bool.false_ne_true))))

end

/-- Settles O32: each transfer's target, and the operands of the conditional ones. -/
theorem controlTransfers : Obligations.ControlTransfers := by
  unfold Obligations.ControlTransfers
  intro s i26 i20 d a h
  dsimp only
  have linked := keepsTask_results d.toNat (fun _ => (coreAt (settled s) (lead s)).b.r.pc + BitVec.ofNat 64 (coreAt (settled s) (lead s)).b.hdrLen) 1
    (groupOf (settled s) (lead s))
  refine ⟨exec_transfer h keepsTask_id (f := effBr i26) rfl rfl, fun zero => ⟨?_, ?_⟩, fun other => ⟨?_, ?_⟩,
    exec_transfer h linked (f := effCall d i20) rfl rfl, exec_transfer h linked (f := effCallr d a) rfl rfl, exec_transfer h keepsTask_id (f := effRet a) rfl rfl⟩
  · exact exec_transfer h keepsTask_id (f := effBrz false a i20) rfl (if_pos (by simp [zero]))
  · exact exec_lead h keepsTask_id (f := effBrz true a i20) rfl (if_neg (by simp [zero]))
  · exact exec_transfer h keepsTask_id (f := effBrz true a i20) rfl (if_pos (by rw [beq_eq_false_iff_ne.2 other]; rfl))
  · exact exec_lead h keepsTask_id (f := effBrz false a i20) rfl (if_neg (by rw [beq_eq_false_iff_ne.2 other]; exact Bool.false_ne_true))

end Sys2Proof.Machine
end

section
/-! Counted loops (R354, R355). -/

namespace Sys2Proof.Machine

open Sys2Proof.Safety

/-! ### Setting a loop up (R354) -/

theorem setLoop_eq (l : BitVec 1) (x : LoopCtr) : setLoop (l == 1) x = fun r : Regs => if l = 1 then { r with lc1 := x } else { r with lc0 := x } :=
  funext fun _ => if_congr beq_iff_eq rfl rfl

theorem keepsTask_regs (g : Nat → Regs → Regs) (l : List Nat) : KeepsTask (onCores (fun q u => updRegs u q (g q)) l) :=
  keepsTask_onCores (f := fun q b => { b with r := g q b.r }) (fun _ _ => ⟨rfl, rfl⟩) l

section

variable {c : Nat} {o s : State} {lc1 : Bool} {n : Nat} {e : BitVec 12}

theorem loopWith_refused (h : e = 0 ∨ isCodeAddr o c (codeaddr o c (e.setWidth 64)) = false) : loopWith c o s lc1 n e = flt codeIllegal :=
  if_pos (h.imp_right (fun other => by rw [other]; rfl))

section

variable (some_ : e ≠ 0) (code : isCodeAddr o c (codeaddr o c (e.setWidth 64)) = true)
include some_ code

theorem loopWith_count (h : n ≠ 0) :
    loopWith c o s lc1 n e = .ok (onCores (fun q u => updRegs u q
      (setLoop lc1 { count := BitVec.ofNat 32 n, start := nextpc o c, stop := some (codeaddr o c (e.setWidth 64)) })) (groupOf o c) s) := by
  rw [loopWith]
  simp only [some_, code, h, Bool.not_true, Bool.false_eq_true, or_self, if_false]

theorem loopWith_zero :
    loopWith c o s lc1 0 e = transfer c o (onCores (fun q u => updRegs u q (fun r => setLoop lc1 { getLoop lc1 r with count := 0 } r)) (groupOf o c) s)
      (after o c (codeaddr o c (e.setWidth 64))) := by
  rw [loopWith]
  simp only [some_, code, Bool.not_true, Bool.false_eq_true, or_self, if_false, if_true]

end
end

/-! ### Back edges (R355) -/

/-- A counter counted down, where it is not zero. -/
def countDown (l : LoopCtr) : LoopCtr := if l.count = 0 then l else { l with count := l.count - 1 }

theorem toNat_countDown (l : LoopCtr) : (countDown l).count.toNat = l.count.toNat - 1 := by
  unfold countDown
  split
  next zero => rw [zero]; rfl
  next other =>
    have positive : (1 : BitVec 32) ≤ l.count := BitVec.le_def.2 (Nat.one_le_iff_ne_zero.2 fun e => other (BitVec.eq_of_toNat_eq e))
    exact BitVec.toNat_sub_of_le positive

/-- The loop bodies that a bundle ends and whose counters send issue back. -/
abbrev Back1 (r : Regs) : Prop := r.lc1.stop = some r.pc ∧ 2 ≤ r.lc1.count.toNat

abbrev Back0 (r : Regs) : Prop := ¬ Back1 r ∧ r.lc0.stop = some r.pc ∧ 2 ≤ r.lc0.count.toNat

section

variable {b : Body} {after : Word}

theorem nextBundle_back1 (h : Back1 b.r) : nextBundle b none after = (b.r.lc1.start, 1 + b.hdrIdle, false, true) := if_pos h

theorem nextBundle_back0 (h : Back0 b.r) : nextBundle b none after = (b.r.lc0.start, 1 + b.hdrIdle, true, false) := (if_neg h.1).trans (if_pos h.2)

theorem nextBundle_falls (h1 : ¬ Back1 b.r) (h0 : ¬ Back0 b.r) : nextBundle b none after = (after, 1 + b.hdrIdle, false, false) :=
  (if_neg h1).trans (if_neg fun back => h0 ⟨h1, back⟩)

end

/-- The registers once lc1 has been examined. -/
def countFirst (r : Regs) : Regs := if r.lc1.stop = some r.pc ∧ r.lc1 = r.lc1 then { r with lc1 := countDown r.lc1 } else r

/-- The counters after a bundle that wrote neither: lc1 counts down at its own end, lc0 where lc1 takes no back edge. -/
theorem countLoops_self (r : Regs) (back1 : Bool) :
    (countLoops r r back1).lc1 = (if r.lc1.stop = some r.pc then countDown r.lc1 else r.lc1) ∧
      (countLoops r r back1).lc0 = (if r.lc0.stop = some r.pc ∧ back1 = false then countDown r.lc0 else r.lc0) := by
  have first1 : (countFirst r).lc1 = if r.lc1.stop = some r.pc then countDown r.lc1 else r.lc1 := by
    simp only [countFirst, and_true]
    split <;> rfl
  have first0 : (countFirst r).lc0 = r.lc0 := by
    rw [countFirst]
    split <;> rfl
  have unfolded : countLoops r r back1 = if r.lc0.stop = some r.pc ∧ (!back1) = true ∧ (countFirst r).lc0 = r.lc0 then
      { countFirst r with lc0 := countDown (countFirst r).lc0 } else countFirst r := rfl
  by_cases at0 : r.lc0.stop = some r.pc ∧ back1 = false
  · rw [unfolded, if_pos ⟨at0.1, by rw [at0.2]; rfl, first0⟩, if_pos at0]
    exact ⟨first1, congrArg countDown first0⟩
  · rw [unfolded, if_neg (fun found => at0 ⟨found.1, by simpa using found.2.1⟩), if_neg at0]
    exact ⟨first1, first0⟩

/-- Where issue goes on after a bundle that takes no transfer, and its counters. -/
theorem advance_falls (b : Body) :
    (advance b none b).r.vcc = b.r.vcc + 1 + b.hdrIdle ∧
    (Back1 b.r → (advance b none b).r.pc = b.r.lc1.start ∧ (advance b none b).r.lc0 = b.r.lc0) ∧
    (Back0 b.r → (advance b none b).r.pc = b.r.lc0.start) ∧
    (¬ Back1 b.r → ¬ Back0 b.r → (advance b none b).r.pc = b.r.pc + BitVec.ofNat 64 b.hdrLen) ∧
    (advance b none b).r.lc1.count.toNat = (if b.r.lc1.stop = some b.r.pc then b.r.lc1.count.toNat - 1 else b.r.lc1.count.toNat) ∧
    (advance b none b).r.lc0.count.toNat = (if b.r.lc0.stop = some b.r.pc ∧ ¬ Back1 b.r then b.r.lc0.count.toNat - 1 else b.r.lc0.count.toNat) := by
  have regs : ∀ n : Word × Nat × Bool × Bool, nextBundle b none (b.r.pc + BitVec.ofNat 64 b.hdrLen) = n →
      (advance b none b).r.pc = n.1 ∧ (advance b none b).r.vcc = b.r.vcc + n.2.1 ∧ (advance b none b).r.lc1 = (countLoops b.r b.r n.2.2.2).lc1 ∧
        (advance b none b).r.lc0 = (countLoops b.r b.r n.2.2.2).lc0 := by
    rintro n rfl
    exact ⟨rfl, rfl, rfl, rfl⟩
  have count1 (back : Bool) : (countLoops b.r b.r back).lc1.count.toNat = if b.r.lc1.stop = some b.r.pc then b.r.lc1.count.toNat - 1 else b.r.lc1.count.toNat := by
    rw [(countLoops_self b.r back).1, apply_ite (fun l : LoopCtr => l.count.toNat), toNat_countDown]
  have count0 := (countLoops_self b.r false).2
  have kept0 := (countLoops_self b.r true).2
  by_cases back1 : Back1 b.r
  · obtain ⟨pc, vcc, lc1, lc0⟩ := regs _ (nextBundle_back1 back1)
    rw [if_neg (by simp)] at kept0
    rw [pc, vcc, lc1, lc0, count1, kept0, if_neg (c := b.r.lc0.stop = some b.r.pc ∧ ¬ Back1 b.r) (fun found => found.2 back1)]
    exact ⟨(Nat.add_assoc ..).symm, fun _ => ⟨rfl, rfl⟩, fun other => absurd back1 other.1, fun other => absurd back1 other, rfl, rfl⟩
  · have falls0 : (countLoops b.r b.r false).lc0.count.toNat = if b.r.lc0.stop = some b.r.pc ∧ ¬ Back1 b.r then b.r.lc0.count.toNat - 1 else b.r.lc0.count.toNat := by
      rw [count0, apply_ite (fun l : LoopCtr => l.count.toNat), toNat_countDown]
      exact if_congr (and_congr_right fun _ => by simp [back1]) rfl rfl
    by_cases back0 : Back0 b.r
    · obtain ⟨pc, vcc, lc1, lc0⟩ := regs _ (nextBundle_back0 back0)
      rw [pc, vcc, lc1, lc0, count1, falls0]
      exact ⟨(Nat.add_assoc ..).symm, fun back => absurd back back1, fun _ => rfl, fun _ other => absurd back0 other, rfl, rfl⟩
    · obtain ⟨pc, vcc, lc1, lc0⟩ := regs _ (nextBundle_falls back1 back0)
      rw [pc, vcc, lc1, lc0, count1, falls0]
      exact ⟨(Nat.add_assoc ..).symm, fun back => absurd back back1, fun back => absurd back back0, fun _ _ => rfl, rfl, rfl⟩

/-- The three outcomes of a LOOP. -/
theorem exec_loop {s : State} (h : Ready s) {l : BitVec 1} {e : BitVec 12} {i : Instr} {f : Eff} {m : Nat} (hi : exec i s = runSlot 0 f s)
    (hf : f (lead s) (settled s) (settled s) = loopWith (lead s) (settled s) (settled s) (l == 1) m e) :
    let stop := codeaddr (settled s) (lead s) (e.setWidth 64)
    (e = 0 ∨ isCodeAddr (settled s) (lead s) stop = false → exec i s = .next (takeFault (issuers s) (faultHere s (lead s) codeIllegal 0 none 0) s)) ∧
    (e ≠ 0 → isCodeAddr (settled s) (lead s) stop = true → m ≠ 0 →
      exec i s = .next (issuedLead (fun _ _ u => onCores (fun q u => updRegs u q (setLoop (l == 1)
        { count := BitVec.ofNat 32 m, start := nextpc (settled s) (lead s), stop := some stop })) (groupOf (settled s) (lead s)) u) s)) ∧
    (e ≠ 0 → isCodeAddr (settled s) (lead s) stop = true → m = 0 → isCodeAddr (settled s) (lead s) (after (settled s) (lead s) stop) = true →
      ∃ t, exec i s = .next t ∧ ∀ q ∈ issuers s, (coreAt t q).b.r.pc = after (settled s) (lead s) stop) := by
  intro stop
  refine ⟨fun refused => ?_, fun some_ code count => ?_, fun some_ code zero behind => ?_⟩
  · exact hi.trans (runSlot_lead_fault h (hf.trans (loopWith_refused refused)))
  · exact exec_lead h (keepsTask_regs _ _) hi (hf.trans (loopWith_count some_ code count))
  · subst zero
    obtain ⟨taken, -⟩ := exec_transfer h (keepsTask_regs _ _) hi (hf.trans (loopWith_zero some_ code))
    obtain ⟨run, there⟩ := taken behind
    exact ⟨_, run, fun q hq => (there q hq).1⟩

/-- Settles O33: LOOP's three outcomes, and the counters at the end bundle of a body. -/
theorem loopsRepeat : Obligations.LoopsRepeat := by
  unfold Obligations.LoopsRepeat
  intro s l n e a hh z h
  have words (i : Instr) (f : Eff) (m : Nat) (hi : exec i s = runSlot 0 f s)
      (hf : f (lead s) (settled s) (settled s) = loopWith (lead s) (settled s) (settled s) (l == 1) m e) := exec_loop h hi hf
  simp only [setLoop_eq] at words
  refine ⟨words (.loop l n e) (effLoop l n e) _ rfl rfl, words (.loopReg l a e) (effLoopReg l a e) _ rfl rfl, fun none_ => ?_⟩
  refine ⟨_, exec_lead h keepsTask_id (i := .ctlHint hh z) (f := effHint) rfl rfl, fun q hq => ?_⟩
  have body := body_issuedLead h keepsTask_id hq
  rw [show (coreAt (id (settled s)) (lead s)).b.taken = none from none_] at body
  dsimp only
  rw [body]
  exact advance_falls _

end Sys2Proof.Machine
end

section
/-! The end of a task and the return from a handler (R246, R356, R357). -/

namespace Sys2Proof.Machine

open Sys2Proof.Safety

/-! ### The task leaves its cores (R356, steps 4 to 6) -/

/-- A core's body behind the end of its task. -/
def freedBody (b : Body) : Body :=
  match b.task with
  | none => b
  | some _ => { b with
      task := none, pause := none, commitQ := [], holdQ := [], check := none, ckpt := none, detected := none, deferred := [], taken := none, tendRegs := none, inHandler := false,
      mxQ := b.mxQ.map (fun m => { m with orphan := true }),
      xfQ := (b.xfQ.filter (fun x => !x.held)).map (fun x => { x with orphan := true }),
      r := { b.r with joined := false, lands := [], res := [] } }

theorem body_freeCore (c : Nat) (s : State) : (coreAt (freeCore c s) c).b = freedBody (coreAt s c).b := by
  unfold freeCore freedBody taskOf
  cases runs : (coreAt s c).b.task with
  | none => dsimp only
  | some t => simp only [core_updCore, core_updLaunch, if_true, body_dropBehind]

/-- What a core that ran a task keeps none of. -/
def Idle (b : Body) : Prop := b.task = none ∧ b.commitQ = [] ∧ b.r.lands = []

theorem idle_freedBody {b : Body} (h : b.task ≠ none) : Idle (freedBody b) := by
  obtain ⟨t, runs⟩ := Option.ne_none_iff_exists'.1 h
  simp only [freedBody, runs]
  exact ⟨rfl, rfl, rfl⟩

theorem idle_leaveTask {g : List Nat} {c q : Nat} {s : State} (hc : g.head? = some c) (nodup : g.Nodup) (runs : ∀ q ∈ g, taskOf s q ≠ none) (hq : q ∈ g) :
    Idle (coreAt (leaveTask g s) q).b := by
  obtain ⟨t, ht⟩ := Option.ne_none_iff_exists'.1 (runs c (List.mem_of_mem_head? hc))
  have freed := foldl_once (g := fun s => (coreAt s q).b) (v := freedBody) (f := fun s q => freeCore q s) nodup hq (fun s => body_freeCore q s)
    (fun a _ other s => by rw [core_freeCore_of_ne (Ne.symm other)]) (updLaunch s t.launch (fun l => { l with live := l.live - 1 }))
  simp only [leaveTask, hc, ht]
  rw [freed]
  exact idle_freedBody (runs q hq)

/-- What the last steps tell the launch changes no core. -/
theorem tendFree_eq (g : List Nat) (s : State) : ∃ u : State, u.cores = s.cores ∧ tendFree g s = leaveTask g u := by
  refine ⟨_, ?_, rfl⟩
  refine (foldl_keeps (g := State.cores) (fun u q => ?_) g _).trans ?_
  · split <;> rfl
  · split
    · split <;> rfl
    · rfl

theorem idle_tendFree {g : List Nat} {c q : Nat} {s : State} (hc : g.head? = some c) (nodup : g.Nodup) (runs : ∀ q ∈ g, taskOf s q ≠ none) (hq : q ∈ g) :
    Idle (coreAt (tendFree g s) q).b := by
  obtain ⟨u, cores, ends⟩ := tendFree_eq g s
  rw [ends]
  exact idle_leaveTask hc nodup (fun a ha => by rw [taskOf, coreAt_congr cores]; exact runs a ha) hq

/-! ### The steps of TEND (R356) -/

/-- What the steps of TEND look at. -/
structure TendReady (b : Body) : Prop where
  runs : b.task ≠ none
  clean : b.detected = none
  arrived : b.r.lands.all (fun l => l.data.isSome) = true

/-- The tokens, held entries and check mode that TEND examines. -/
def tendView (b : Body) : Tab TokenRec × List CEntry × Bool := (b.r.toks, b.commitQ, b.check.isSome)

theorem liveToks_congr {s t : State} {q : Nat} (h : tendView (coreAt t q).b = tendView (coreAt s q).b) : liveToks t q = liveToks s q := by
  have toks : (coreAt t q).b.r.toks = (coreAt s q).b.r.toks := congrArg Prod.fst h
  have held : (coreAt t q).b.commitQ = (coreAt s q).b.commitQ := congrArg (fun v => v.2.1) h
  unfold liveToks tokRec
  rw [toks, held]

theorem faultTok_congr {s t : State} {q : Nat} (h : tendView (coreAt t q).b = tendView (coreAt s q).b) : faultTok t q = faultTok s q := by
  have toks : (coreAt t q).b.r.toks = (coreAt s q).b.r.toks := congrArg Prod.fst h
  unfold faultTok tokRec
  rw [toks]

theorem tendReady_congr {a b : Body} (task : a.task.isSome = b.task.isSome) (detected : a.detected = b.detected) (lands : a.r.lands = b.r.lands) (h : TendReady b) :
    TendReady a :=
  ⟨fun none_ => h.runs (by rw [none_] at task; simpa using task.symm), detected.trans h.clean, lands ▸ h.arrived⟩

/-- Outside check mode the phase that ends takes effect (R253). -/
theorem judgePhase_outside {g : List Nat} {c : Nat} {s : State} (hc : g.head? = some c) (check : (coreAt s c).b.check = none) : judgePhase g s = (s, true) := by
  simp only [judgePhase, hc, Option.bind_some, check]

/-- What the release of the commit queues and the next stage leave of a body. -/
theorem body_released {α : Type} (p : Body → α) (hx : ∀ b l, p { b with xfQ := l } = p b) (hq : ∀ b l, p { b with commitQ := l } = p b)
    (ht : ∀ b f, p { b with task := Option.map f b.task } = p b) (g : List Nat) (st : TaskStage) (s : State) (q : Nat) :
    p (coreAt (setStage g st (g.foldl (fun s q => releaseQueue q s) s)) q).b = p (coreAt s q).b :=
  (body_onCores p (f := fun _ b => { b with task := b.task.map (fun t => { t with stage := st }) }) (fun _ b => ht b _) g _ q).trans
    (foldl_keeps (g := fun s => p (coreAt s q).b) (fun _ _ => body_releaseQueue p hx hq q) g s)

section

variable {g : List Nat} {c : Nat} {s : State} (hc : g.head? = some c) (nodup : g.Nodup)
include hc nodup

theorem idle_tendLand (ready : ∀ q ∈ g, TendReady (coreAt s q).b) {q : Nat} (hq : q ∈ g) : Idle (coreAt (tendLand g s) q).b := by
  have arrived : g.all (fun q => (coreAt s q).b.r.lands.all (fun l => l.data.isSome)) = true := List.all_eq_true.2 fun a ha => (ready a ha).arrived
  rw [tendLand, if_pos arrived]
  refine idle_tendFree hc nodup (fun a ha => ?_) hq
  rw [taskOf, core_clearPause_keeps (f := fun k => k.b.task) (fun _ _ _ _ => rfl)]
  exact (ready a ha).runs

/-- A TEND that nothing holds up ends the task on every core of its group. -/
theorem idle_tendGo (ready : ∀ q ∈ g, TendReady (coreAt s q).b) (live : ∀ q ∈ g, liveToks s q = []) (sound : ∀ q ∈ g, faultTok s q = none)
    (check : (coreAt s c).b.check = none) {q : Nat} (hq : q ∈ g) : Idle (coreAt (tendGo g s) q).b := by
  have cleared {α : Type} (p : Body → α) (hp : ∀ b x n l, p { b with pause := x, pauseCnt := n, lastPause := l } = p b) (q : Nat) :
      p (coreAt (clearPause g s) q).b = p (coreAt s q).b := core_clearPause_keeps (f := fun k => p k.b) (fun k x n l => hp k.b x n l) g s q
  have clean : g.any (fun q => (coreAt s q).b.detected.isSome) = false := List.any_eq_false.2 fun a ha => by simp [(ready a ha).clean]
  have ended : g.any (fun q => liveToks s q != []) = false := List.any_eq_false.2 fun a ha => by simp [live a ha]
  have untaken : ((List.range 64).flatMap (fun t => (g.filter (fun q => faultTok (clearPause g s) q == some t)).map (fun q => (q, t)))).head? = none := by
    refine List.head?_eq_none_iff.2 (List.flatMap_eq_nil_iff.2 fun t _ => List.map_eq_nil_iff.2 (List.filter_eq_nil_iff.2 fun a ha => ?_))
    rw [faultTok_congr (cleared tendView (fun _ _ _ _ => rfl) a), sound a ha]
    exact Bool.false_ne_true
  have judged := judgePhase_outside (s := clearPause g s) hc ((cleared Body.check (fun _ _ _ _ => rfl) c).trans check)
  simp only [tendGo, clean, ended, untaken, judged, Bool.false_eq_true, if_false, if_true]
  refine idle_tendLand hc nodup (fun a ha => tendReady_congr ?_ ?_ ?_ (ready a ha)) hq
  · exact (body_released (fun b => b.task.isSome) (fun _ _ => rfl) (fun _ _ => rfl) (fun _ _ => Option.isSome_map) g _ _ a).trans
      (cleared (fun b => b.task.isSome) (fun _ _ _ _ => rfl) a)
  · exact (body_released Body.detected (fun _ _ => rfl) (fun _ _ => rfl) (fun _ _ => rfl) g _ _ a).trans (cleared Body.detected (fun _ _ _ _ => rfl) a)
  · exact (body_released (fun b => b.r.lands) (fun _ _ => rfl) (fun _ _ => rfl) (fun _ _ => rfl) g _ _ a).trans (cleared (fun b => b.r.lands) (fun _ _ _ _ => rfl) a)

end

/-! ### TEND (R356) -/

/-- A core's body as its TEND issues. -/
def tending (o : State) (q : Nat) (b : Body) : Body :=
  { b with task := b.task.map (fun t => { t with stage := .tend 1 }), tendRegs := some (coreAt o q).b.r }

/-- The state in which the steps of TEND begin: each issuer stands at its TEND bundle. -/
def atTend (s u : State) : State :=
  let g := issuers s
  let o := settled s
  onCores (fun q s => updRegs s q (fun r => { r with pc := (coreAt o q).b.r.pc, vcc := (coreAt o q).b.r.vcc })) g
    (onCores (fun q s => snapVcc q (coreAt o q).b.r.vcc (coreAt s q).b.r.vcc s) g
      (onCores (fun q u' => updBody u' q (advance (coreAt o q).b (coreAt u (lead s)).b.taken)) g u))

/-- What the end of a TEND bundle leaves of a body. -/
theorem body_atTend {α : Type} (p : Body → α) (advanced : ∀ old taken b, p (advance old taken b) = p b)
    (moved : ∀ b pc vcc, p { b with r := { b.r with pc := pc, vcc := vcc } } = p b) (s u : State) (q : Nat) : p (coreAt (atTend s u) q).b = p (coreAt u q).b := by
  have snapped (v : State) : coreAt (onCores (fun q s' => snapVcc q (coreAt (settled s) q).b.r.vcc (coreAt s' q).b.r.vcc s') (issuers s) v) q = coreAt v q :=
    foldl_keeps (g := fun v => coreAt v q) (fun v c => coreAt_snapVcc ..) (issuers s) v
  refine (body_onCores p (f := fun q b => { b with r := { b.r with pc := (coreAt (settled s) q).b.r.pc, vcc := (coreAt (settled s) q).b.r.vcc } })
    (fun _ b => moved b _ _) (issuers s) _ q).trans ?_
  rw [snapped]
  exact body_onCores p (f := fun q => advance (coreAt (settled s) q).b (coreAt u (lead s)).b.taken) (fun _ b => advanced _ _ b) (issuers s) u q

theorem finishBundle_tend {s u : State} (h : inTend u (lead s) = true) : finishBundle (issuers s) (settled s) u = tendGo (issuers s) (atTend s u) := by
  have snapped (v : State) (q : Nat) : coreAt (onCores (fun q s' => snapVcc q (coreAt (settled s) q).b.r.vcc (coreAt s' q).b.r.vcc s') (issuers s) v) q = coreAt v q :=
    foldl_keeps (g := fun v => coreAt v q) (fun v c => coreAt_snapVcc ..) (issuers s) v
  have task := body_onCores Body.task (f := fun q => advance (coreAt (settled s) q).b (coreAt u (lead s)).b.taken) (fun _ _ => rfl) (issuers s) u (lead s)
  simp only [finishBundle, head?_issuers]
  refine if_pos ?_
  rw [inTend_congr (s := u) ((congrArg (fun k => k.b.task) (snapped _ _)).trans task), h]

/-- What the end of a TEND bundle leaves and the steps of TEND look at. -/
def tendParts (b : Body) : Bool × Option (BitVec 8 × Word × Word) × List Landing × (Tab TokenRec × List CEntry × Bool) :=
  (b.task.isSome, b.detected, b.r.lands, tendView b)

theorem tendParts_advance (old : Body) (taken : Option Word) (b : Body) : tendParts (advance old taken b) = tendParts b := by
  unfold advance countLoops tendParts tendView
  dsimp only
  split_ifs <;> simp only [Option.isSome_map]

theorem tendParts_tending (o : State) (q : Nat) (b : Body) : tendParts (tending o q b) = tendParts b := by
  simp only [tendParts, tendView, tending, Option.isSome_map]

/-- The group enters TEND. -/
def tendEntered (c : Nat) (o s : State) : State := onCores (fun q s => updBody s q (tending o q)) (groupOf o c) s

theorem tendParts_entered (c : Nat) (o s : State) (q : Nat) : tendParts (coreAt (tendEntered c o s) q).b = tendParts (coreAt s q).b :=
  body_onCores tendParts (f := tending o) (tendParts_tending o) (groupOf o c) s q

theorem inTend_entered {c : Nat} {o s : State} (runs : taskOf s c ≠ none) : inTend (tendEntered c o s) c = true := by
  obtain ⟨t, ht⟩ := Option.ne_none_iff_exists'.1 runs
  have task : taskOf (tendEntered c o s) c = some { t with stage := .tend 1 } := by
    rw [taskOf, tendEntered, body_onCores_of_mem (f := tending o) (groupOf_nodup o c) (mem_groupOf o c), tending, show (coreAt s c).b.task = some t from ht]
    rfl
  rw [inTend, task]

section

variable {s : State} (h : Ready s)
include h

/-- A TEND that nothing holds up leaves every issuer without its task. -/
theorem idle_tend (quiet : ∀ q ∈ issuers s, liveToks (settled s) q = [] ∧ faultTok (settled s) q = none ∧ (coreAt (settled s) q).b.check = none ∧
    (coreAt (settled s) q).b.r.lands.all (fun l => l.data.isSome) = true) :
    ∃ t, exec .tend s = .next t ∧ ∀ q ∈ issuers s, Idle (coreAt t q).b := by
  obtain ⟨-, -, -, clean⟩ := id h
  have runs {q : Nat} (hq : q ∈ issuers s) : taskOf (settled s) q ≠ none := by
    rw [taskOf, task_settled]
    exact taskOf_ne_none_of_ready h hq
  have entered (q : Nat) := tendParts_entered (lead s) (settled s) (settled s) q
  have begun (q : Nat) : tendParts (coreAt (atTend s (tendEntered (lead s) (settled s) (settled s))) q).b = tendParts (coreAt (settled s) q).b :=
    (body_atTend tendParts tendParts_advance (fun _ _ _ => rfl) s _ q).trans (entered q)
  have view (q : Nat) := congrArg (fun v => v.2.2.2) (begun q)
  have run : exec .tend s = .next (issuedLead tendEntered s) :=
    runSlot_lead h (f := effTend) rfl (fun q hq => (congrArg (fun v => v.2.1) (entered q)).trans (clean q hq))
  refine ⟨_, run, fun q hq => ?_⟩
  rw [issuedLead, finishBundle_tend (inTend_entered (runs (lead_mem s)))]
  refine idle_tendGo (head?_issuers s) (issuers_nodup s) (fun a ha => ?_) (fun a ha => ?_) (fun a ha => ?_) ?_ hq
  · obtain ⟨-, -, -, arrived⟩ := quiet a ha
    exact tendReady_congr (congrArg (fun v => v.1) (begun a)) (congrArg (fun v => v.2.1) (begun a)) (congrArg (fun v => v.2.2.1) (begun a))
      ⟨runs ha, clean a ha, arrived⟩
  · exact (liveToks_congr (view a)).trans (quiet a ha).1
  · exact (faultTok_congr (view a)).trans (quiet a ha).2.1
  · obtain ⟨-, -, check, -⟩ := quiet _ (lead_mem s)
    have same : (coreAt (atTend s (tendEntered (lead s) (settled s) (settled s))) (lead s)).b.check.isSome = (coreAt (settled s) (lead s)).b.check.isSome :=
      congrArg (fun v => v.2.2) (view (lead s))
    rw [check] at same
    exact Option.not_isSome_iff_eq_none.1 (by rw [same]; exact Bool.false_ne_true)

/-! ### ERET (R246, R357) -/

theorem exec_eret_outside (out : (coreAt (settled s) (lead s)).b.inHandler = false) {i : Instr} {skip : Bool} (hi : exec i s = runSlot 0 (effEret skip) s) :
    exec i s = .next (takeFault (issuers s) (faultHere s (lead s) codeIllegal 0 none 0) s) :=
  hi.trans (runSlot_lead_fault h (if_pos (by rw [out]; rfl)))

/-- Where a return from the handler resumes. -/
def resumeAt (o : State) (c : Nat) (skip : Bool) : Word :=
  if skip && !(fieldW (coreAt o c).b.fltstat 0 8 == codeDeferred.toNat) then after o c (coreAt o c).b.fltpc else (coreAt o c).b.resumePc

theorem exec_eret (handles : (coreAt (settled s) (lead s)).b.inHandler = true) {i : Instr} {skip : Bool} (hi : exec i s = runSlot 0 (effEret skip) s) :
    ∃ t, exec i s = .next t ∧
      (coreAt t (lead s)).b = advance (coreAt (settled s) (lead s)).b (some (resumeAt (settled s) (lead s) skip))
        (leaveHandler (resumeAt (settled s) (lead s) skip) (coreAt (settled s) (lead s)).b) := by
  have keeps : KeepsTask (onCores (fun q u => updBody u q (leaveHandler (resumeAt (settled s) (lead s) skip))) (groupOf (settled s) (lead s))) :=
    keepsTask_onCores (f := fun _ => leaveHandler _) (fun _ _ => ⟨rfl, rfl⟩) _
  have body := body_issuedLead h keeps (lead_mem s)
  rw [body_onCores_of_mem (f := fun _ => leaveHandler _) (groupOf_nodup _ _) (mem_groupOf _ _)] at body
  exact ⟨_, exec_lead h keeps hi (if_neg (by rw [handles]; exact Bool.false_ne_true)), body⟩

end

/-- Settles O34: the steps of TEND, and the body a handler's return leaves. -/
theorem taskEndsAndHandlerReturns : Obligations.TaskEndsAndHandlerReturns := by
  unfold Obligations.TaskEndsAndHandlerReturns
  intro s h
  refine ⟨fun quiet => idle_tend h quiet, fun out i hi => ?_, fun handles skip => ?_⟩
  · rcases List.mem_pair.1 hi with rfl | rfl
    · exact exec_eret_outside h out (skip := false) rfl
    · exact exec_eret_outside h out (skip := true) rfl
  · have word : exec (if skip then .eretSkip else .eret) s = runSlot 0 (effEret skip) s := by cases skip <;> rfl
    obtain ⟨t, run, body⟩ := exec_eret h handles word
    refine ⟨t, run, ?_⟩
    rw [body]
    exact ⟨rfl, rfl, (Nat.add_assoc ..).symm, rfl, rfl, rfl, rfl⟩

end Sys2Proof.Machine
end

section
/-! System registers, segment checks, YIELDP and shape publication (R117, R255, R282, R360-R363). -/

namespace Sys2Proof.Machine

open Sys2Proof.Safety

/-! ### What the indices name (R282, R361) -/

theorem sysReg_buf (s : State) (c : Nat) {j : Nat} (h : j < 16) : sysReg s c (0x50 + j) = some ((coreAt s c).b.r.bufs.get 0 j) := by
  interval_cases j <;> rfl

theorem sysReg_spill (s : State) (c : Nat) {j : Nat} (h : j < 16) : sysReg s c (0x10 + j) = some ((coreAt s c).b.r.spill.extractLsb' (64 * j) 64) := by
  have part : sysReg s c (0x10 + j) = some (BitVec.ofNat 64 (bitsOf (coreAt s c).b.r.spill.toNat (64 * j) 64)) := by
    interval_cases j <;> rfl
  rw [part]
  refine congrArg some (BitVec.eq_of_toNat_eq ?_)
  rw [BitVec.toNat_ofNat, BitVec.extractLsb'_toNat, bitsOf, Nat.shiftRight_eq_div_pow, Nat.mod_mod]

theorem sysReg_values (s : State) (c : Nat) :
    let b := (coreAt s c).b
    sysReg s c 1 = some (BitVec.ofNat 64 (b.r.vcc % 2 ^ 48)) ∧ sysReg s c 0x20 = some b.fltstat ∧ sysReg s c 0x21 = some b.fltpc ∧
      sysReg s c 0x22 = some (b.fltvcc.setWidth 64) ∧ sysReg s c 0x23 = some b.fltaddr ∧ sysReg s c 0x24 = some b.trapvec ∧ sysReg s c 0x40 = some b.numstat ∧
      sysReg s c 0x48 = some (b.r.lc0.count.setWidth 64) ∧ sysReg s c 0x49 = some (b.r.lc1.count.setWidth 64) ∧
      sysReg s c 0x60 = some (BitVec.ofNat 64 ((coreAt s c).gate.toNat + (coreAt s c).ready.toNat * 2 ^ 32)) ∧ sysReg s c 0x61 = some (coreAt s c).spstat ∧
      (∀ j < 16, sysReg s c (0x50 + j) = some (b.r.bufs.get 0 j) ∧ sysReg s c (0x10 + j) = some (b.r.spill.extractLsb' (64 * j) 64)) ∧
      ∀ j ∈ [3, 0x0F, 0x25, 0x2F, 0x41, 0x47, 0x4A, 0x4F, 0x62, 4095], sysReg s c j = none := by
  refine ⟨rfl, rfl, rfl, rfl, rfl, rfl, rfl, rfl, rfl, rfl, rfl, fun j hj => ⟨sysReg_buf s c hj, sysReg_spill s c hj⟩, fun j hj => ?_⟩
  fin_cases hj <;> rfl

/-! ### SYSW (R361) -/

/-- A CTL operation reads the settled state. -/
theorem issuedLead_reads {s : State} (k : State → State → State) : issuedLead (fun _ o u => k o u) s = issuedLead (fun _ _ u => k (settled s) u) s := rfl

theorem body_dropBank (c : Nat) (s : State) (b q : Nat) : (coreAt (dropBank c s b) q).b = (coreAt s q).b := rfl

theorem body_writeSpgate (s : State) (c : Nat) (x : Word) (q : Nat) : (coreAt (writeSpgate s c x) q).b = (coreAt s q).b := by
  refine (foldl_keeps (g := fun s => (coreAt s q).b) (fun s b => body_dropBank c s b q) _ _).trans ?_
  rw [core_updCore]
  split
  next e => rw [e]
  next => rfl

theorem effSysr_unnamed {d : BitVec 6} {i : BitVec 12} {c : Nat} {o s : State} (h : sysReg o c i.toNat = none) : effSysr d i c o s = flt codeIllegal := by
  rw [effSysr, h]

theorem effSysr_named {d : BitVec 6} {i : BitVec 12} {c : Nat} {o s : State} {x : Word} (h : sysReg o c i.toNat = some x) :
    effSysr d i c o s = .ok (onCores (fun q s => resultS q d.toNat ((sysReg o q i.toNat).getD 0) 2 s) (groupOf o c) s) := by
  rw [effSysr, h]

theorem effSysw_unnamed {a : BitVec 6} {i : BitVec 12} {c : Nat} {o s : State} (h : sysReg o c i.toNat = none) : effSysw a i c o s = flt codeIllegal := by
  simp only [effSysw, h, Option.isNone_none, if_true]

theorem effSysw_buf {a : BitVec 6} {j c : Nat} {o s : State} (h : j < 16) (accepted : ∀ q ∈ groupOf o c, bufRefuse o q j (sReg o q a.toNat) = none) :
    effSysw a (BitVec.ofNat 12 (0x50 + j)) c o s =
      .ok (onCores (fun q s => updRegs s q (fun r => { r with bufs := r.bufs.set 0 j (sReg o q a.toNat) })) (groupOf o c) s) := by
  have index : (BitVec.ofNat 12 (0x50 + j)).toNat = 0x50 + j := by rw [BitVec.toNat_ofNat]; omega
  have refused : (groupOf o c).filterMap (fun q => bufRefuse o q j (sReg o q a.toNat)) = [] := List.filterMap_eq_nil_iff.2 accepted
  simp only [effSysw, index, sysReg_buf o c h, Nat.add_sub_cancel_left, refused]
  rw [if_neg (by simp), if_neg (by omega), if_pos (by omega)]
  rfl

theorem keepsTask_spgate (x : Word) (l : List Nat) : KeepsTask (onCores (fun q u => writeSpgate u q x) l) where
  task u q := foldl_keeps (g := fun u => (coreAt u q).b.task) (fun u c => by rw [body_writeSpgate]) l u
  detected u q := foldl_keeps (g := fun u => (coreAt u q).b.detected) (fun u c => by rw [body_writeSpgate]) l u

theorem keepsTask_spstat (f : Word → Word) (l : List Nat) : KeepsTask (onCores (fun q u => updCore u q (fun k => { k with spstat := f k.spstat })) l) := by
  have one (u : State) (c q : Nat) : (coreAt (updCore u c (fun k => { k with spstat := f k.spstat })) q).b = (coreAt u q).b := by
    rw [core_updCore]
    split
    next e => rw [e]
    next => rfl
  exact ⟨fun u q => foldl_keeps (g := fun u => (coreAt u q).b.task) (fun u c => by rw [one]) l u,
    fun u q => foldl_keeps (g := fun u => (coreAt u q).b.detected) (fun u c => by rw [one]) l u⟩

theorem effSysw_gate_plain {a : BitVec 6} {c : Nat} {o s : State} (h : isPriv o c = false) : effSysw a 0x60 c o s = flt codePrivilege := by
  have named : (sysReg o c 0x60).isNone = false := rfl
  have index : (0x60 : BitVec 12).toNat = 0x60 := rfl
  simp only [effSysw, named, index, h, Bool.false_eq_true, Bool.not_false, and_self, if_false, if_true]

theorem effSysw_gate_priv {a : BitVec 6} {c : Nat} {o s : State} (h : isPriv o c = true) :
    effSysw a 0x60 c o s = .ok (onCores (fun q u => writeSpgate u q (sReg o c a.toNat)) (groupOf o c) s) := by
  have named : (sysReg o c 0x60).isNone = false := rfl
  have index : (0x60 : BitVec 12).toNat = 0x60 := rfl
  have write : sysWrite 0x60 (sReg o c a.toNat) = fun q u => writeSpgate u q (sReg o c a.toNat) := rfl
  simp only [effSysw, named, index, h, write, Bool.false_eq_true, Bool.not_true, and_false, if_false]
  exact if_neg (by decide)

section

variable {s : State} (h : Ready s) {a : BitVec 6} {n : BitVec 12}
include h

theorem exec_sysw {k : State → State} (hk : KeepsTask k) (hf : effSysw a n (lead s) (settled s) (settled s) = .ok (k (settled s))) :
    exec (.sysw a n) s = .next (issuedLead (fun _ _ u => k u) s) := exec_lead h hk (f := effSysw a n) rfl hf

/-- A write of an index that is neither SPGATE nor a buffer entry. -/
theorem exec_sysw_plain {k : State → State} (hk : KeepsTask k) (named : ∀ o c, (sysReg o c n.toNat).isNone = false) (gate : n.toNat ≠ 0x60)
    (buf : ¬ (0x50 ≤ n.toNat ∧ n.toNat ≤ 0x5F))
    (hw : onCores (sysWrite n.toNat (sReg (settled s) (lead s) a.toNat)) (groupOf (settled s) (lead s)) (settled s) = k (settled s)) :
    exec (.sysw a n) s = .next (issuedLead (fun _ _ u => k u) s) := by
  refine exec_sysw h hk (Eq.trans ?_ (congrArg Except.ok hw))
  simp only [effSysw, named, gate, buf, Bool.false_eq_true, false_and, if_false]

theorem exec_sysw_body {f : Body → Body} (hb : ∀ b, (f b).task = b.task ∧ (f b).detected = b.detected) (named : ∀ o c, (sysReg o c n.toNat).isNone = false)
    (gate : n.toNat ≠ 0x60) (buf : ¬ (0x50 ≤ n.toNat ∧ n.toNat ≤ 0x5F))
    (hw : ∀ q u, sysWrite n.toNat (sReg (settled s) (lead s) a.toNat) q u = updBody u q f) :
    exec (.sysw a n) s = .next (issuedLead (fun _ _ u => onCores (fun q u => updBody u q f) (groupOf (settled s) (lead s)) u) s) :=
  exec_sysw_plain h (keepsTask_onCores (f := fun _ => f) (fun _ => hb) _) named gate buf (by rw [show sysWrite _ _ = fun q u => updBody u q f from funext₂ hw])

/-- A write on every core of the group, from the leading core's register. -/
def WritesAll (s : State) (a : BitVec 6) (n : BitVec 12) (f : Body → Body) : Prop :=
  exec (.sysw a n) s = .next (issuedLead (fun _ _ u => onCores (fun q u => updBody u q f) (groupOf (settled s) (lead s)) u) s)

theorem sysw_trapvec (a : BitVec 6) : WritesAll s a 0x24 (fun k => { k with trapvec := sReg (settled s) (lead s) a.toNat }) :=
  exec_sysw_body h (fun _ => ⟨rfl, rfl⟩) (fun _ _ => rfl) (by decide) (by decide) (fun _ _ => rfl)

theorem sysw_tksel (a : BitVec 6) : WritesAll s a 0x30 (fun k => { k with tksel := (sReg (settled s) (lead s) a.toNat).setWidth 6 }) :=
  exec_sysw_body h (fun _ => ⟨rfl, rfl⟩) (fun _ _ => rfl) (by decide) (by decide) (fun _ _ => rfl)

theorem sysw_numstat (a : BitVec 6) : WritesAll s a 0x40 (fun k => { k with numstat := numstatWrite k.numstat (sReg (settled s) (lead s) a.toNat) }) :=
  exec_sysw_body h (fun _ => ⟨rfl, rfl⟩) (fun _ _ => rfl) (by decide) (by decide) (fun _ _ => rfl)

theorem sysw_lc0 (a : BitVec 6) :
    WritesAll s a 0x48 (fun k => { k with r := { k.r with lc0 := { k.r.lc0 with count := (sReg (settled s) (lead s) a.toNat).setWidth 32 } } }) :=
  exec_sysw_body h (fun _ => ⟨rfl, rfl⟩) (fun _ _ => rfl) (by decide) (by decide) (fun _ _ => rfl)

theorem sysw_lc1 (a : BitVec 6) :
    WritesAll s a 0x49 (fun k => { k with r := { k.r with lc1 := { k.r.lc1 with count := (sReg (settled s) (lead s) a.toNat).setWidth 32 } } }) :=
  exec_sysw_body h (fun _ => ⟨rfl, rfl⟩) (fun _ _ => rfl) (by decide) (by decide) (fun _ _ => rfl)

theorem sysw_spstat (a : BitVec 6) : exec (.sysw a 0x61) s = .next (issuedLead (fun _ _ u =>
    onCores (fun q u => updCore u q (fun k => { k with spstat := k.spstat &&& ~~~ (sReg (settled s) (lead s) a.toNat &&& 1) })) (groupOf (settled s) (lead s)) u) s) :=
  exec_sysw_plain h (keepsTask_spstat (fun w => w &&& ~~~(sReg (settled s) (lead s) a.toNat &&& 1)) _) (fun _ _ => rfl) (by decide) (by decide) rfl

theorem exec_sysr {d : BitVec 6} {i : BitVec 12} (named : sysReg (settled s) (lead s) i.toNat ≠ none) :
    exec (.sysr d i) s = .next (issuedLead (fun _ o u => onCores (fun q u => resultS q d.toNat ((sysReg o q i.toNat).getD 0) 2 u) (groupOf (settled s) (lead s)) u) s) := by
  obtain ⟨x, hx⟩ := Option.ne_none_iff_exists'.1 named
  rw [issuedLead_reads (fun o u => onCores (fun q u => resultS q d.toNat ((sysReg o q i.toNat).getD 0) 2 u) (groupOf (settled s) (lead s)) u)]
  exact exec_lead h (keepsTask_results d.toNat (fun q => (sysReg (settled s) q i.toNat).getD 0) 2 _) (f := effSysr d i) rfl (effSysr_named hx)

theorem sysw_buf {a : BitVec 6} {j : Nat} (hj : j < 16) (accepted : ∀ q ∈ groupOf (settled s) (lead s), bufRefuse (settled s) q j (sReg (settled s) q a.toNat) = none) :
    exec (.sysw a (BitVec.ofNat 12 (0x50 + j))) s = .next (issuedLead (fun _ o u =>
      onCores (fun q u => updRegs u q (fun r => { r with bufs := r.bufs.set 0 j (sReg o q a.toNat) })) (groupOf (settled s) (lead s)) u) s) := by
  rw [issuedLead_reads (fun o u => onCores (fun q u => updRegs u q (fun r => { r with bufs := r.bufs.set 0 j (sReg o q a.toNat) })) (groupOf (settled s) (lead s)) u)]
  exact exec_sysw h (keepsTask_regs _ _) (effSysw_buf hj accepted)

theorem exec_sysw_readOnly {n : Nat}
    (hn : n ∈ [0x00, 0x01, 0x02, 0x10, 0x1F, 0x20, 0x21, 0x22, 0x23, 0x31, 0x3F]) :
    exec (.sysw a (BitVec.ofNat 12 n)) s = .next (issuedLead (fun _ _ u => u) s) := by
  have named (o : State) (c : Nat) : (sysReg o c (BitVec.ofNat 12 n).toNat).isNone = false := by fin_cases hn <;> rfl
  have gate : (BitVec.ofNat 12 n).toNat ≠ 0x60 := by fin_cases hn <;> decide
  have buf : ¬ (0x50 ≤ (BitVec.ofNat 12 n).toNat ∧ (BitVec.ofNat 12 n).toNat ≤ 0x5F) := by fin_cases hn <;> decide
  have still (x : Word) (q : Nat) (u : State) : sysWrite (BitVec.ofNat 12 n).toNat x q u = u := by fin_cases hn <;> rfl
  exact exec_sysw_plain h keepsTask_id named gate buf (foldl_keeps (g := id) (fun u q => still _ q u) _ _)

end

/-! ### SEGCHK (R255, R360) -/

/-- A CTL operation alone in its bundle that does not stop, where no core repeats the poison of a rollback (R253). -/
theorem runSlot_lead_of_sound {s : State} (h : Ready s) {f : Eff} {u : State} (hf : f (lead s) (settled s) (settled s) = .ok u)
    (sound : ∀ q ∈ issuers s, repeatsPoison (coreAt u q).b = false) : runSlot 0 f s = .next (finishBundle (issuers s) (settled s) u) := by
  obtain ⟨can, clear, ckpt, -⟩ := h
  have eval : evalSlots (issuers s) [(0, f)] (settled s) = (u, []) := by rw [evalSlots_lead, hf]
  have noPoison : (issuers s).find? (fun q => repeatsPoison (coreAt u q).b) = none := List.find?_eq_none.2 (fun q hq => by simp [sound q hq])
  have noCkpt : ((coreAt s (lead s)).b.hdrCkpt && !(coreAt s (lead s)).b.ckptDone) = false := by
    cases hc : (coreAt s (lead s)).b.hdrCkpt <;> simp_all
  simp only [issuers, lead, settled] at clear eval noPoison noCkpt ⊢
  simp only [runSlot, issueSlots, can, clear, eval, noCkpt, noPoison, Bool.not_true, Bool.false_eq_true, if_false, firstFault, firstPause]

/-- The segment's VCCs against the constant, and its CRC where the constant names one. -/
def segPasses (b : Body) (k : Nat) : Bool :=
  (if bitAt k 48 then decide (b.r.vcc - b.r.seg.vcc0 ≤ bitsOf k 0 48) else b.r.vcc - b.r.seg.vcc0 == bitsOf k 0 48) &&
    (!bitAt k 49 || b.r.seg.crc.toNat == bitsOf k 64 32)

theorem segPasses_iff (b : Body) (k : Nat) : segPasses b k = true ↔
    (if bitAt k 48 then b.r.vcc - b.r.seg.vcc0 ≤ bitsOf k 0 48 else b.r.vcc - b.r.seg.vcc0 = bitsOf k 0 48) ∧
      (bitAt k 49 = true → b.r.seg.crc.toNat = bitsOf k 64 32) := by
  unfold segPasses
  cases bitAt k 48 <;> cases bitAt k 49 <;> simp

/-- The segment that begins behind a bundle. -/
def nextSeg (b : Body) : Seg := { vcc0 := b.r.vcc + 1 + b.hdrIdle, crc := 0 }

theorem segEnd_stage (pass : Bool) (seg : Seg) (clk : Nat) (b : Body) : (segEnd pass seg clk b).task.map (fun t => t.stage) = b.task.map (fun t => t.stage) := by
  cases pass with
  | false => rfl
  | true =>
    cases task : b.task with
    | none => simp [segEnd, task]
    | some t =>
      simp only [segEnd, task, if_true, Option.map_some]
      split <;> rfl

theorem repeatsPoison_segEnd (pass : Bool) (seg : Seg) (clk : Nat) {b : Body} (clean : b.detected = none) : repeatsPoison (segEnd pass seg clk b) = false := by
  have other : codeSegMismatch ≠ codePoison := by decide
  cases pass <;> cases check : b.check <;> simp [repeatsPoison, segEnd, clean, check, other]

theorem inTend_of_stage {s t : State} {c : Nat} (h : (coreAt t c).b.task.map (fun t => t.stage) = (coreAt s c).b.task.map (fun t => t.stage)) : inTend t c = inTend s c := by
  unfold inTend taskOf
  cases old : (coreAt s c).b.task <;> cases new : (coreAt t c).b.task <;> simp_all

/-- The segment ends on every core of the group. -/
def segEnded (pass : Bool) (c : Nat) (o : State) : State := onCores (fun q s => updBody s q (segEnd pass (nextSeg (coreAt o c).b) o.clk)) (groupOf o c) o

theorem body_onCores_of_not_mem {f : Nat → Body → Body} {l : List Nat} {q : Nat} (hq : q ∉ l) (s : State) :
    (coreAt (onCores (fun q s => updBody s q (f q)) l s) q).b = (coreAt s q).b :=
  foldl_keeps_of_mem (g := fun s => (coreAt s q).b) (fun c hc s => by rw [core_updBody, if_neg (fun e : q = c => hq (e ▸ hc))]) s

theorem body_segEnded_lead (pass : Bool) (c : Nat) (o : State) :
    (coreAt (segEnded pass c o) c).b = segEnd pass (nextSeg (coreAt o c).b) o.clk (coreAt o c).b :=
  body_onCores_of_mem (f := fun _ => segEnd pass (nextSeg (coreAt o c).b) o.clk) (groupOf_nodup o c) (mem_groupOf o c) o

theorem seg_countLoops (old new : Regs) (back1 : Bool) : (countLoops old new back1).seg = new.seg := by
  unfold countLoops
  dsimp only
  split_ifs <;> rfl

/-- A segment that begins behind the bundle takes nothing of it. -/
theorem seg_advance_of_later {old b : Body} (taken : Option Word) (h : old.r.vcc < b.r.seg.vcc0) : (advance old taken b).r.seg = b.r.seg := by
  have counted : (if taken = none then countLoops old.r b.r (nextBundle old taken (old.r.pc + BitVec.ofNat 64 old.hdrLen)).2.2.2 else b.r).seg = b.r.seg := by
    split
    · exact seg_countLoops ..
    · rfl
  exact (if_pos (by rw [counted]; exact h)).trans counted

section

variable {s : State} (h : Ready s) {i : BitVec 12} {k : Nat} (entry : constEntry (settled s) (lead s) i.toNat = .ok k) (plain : bitsOf k 50 14 = 0) (high : bitsOf k 96 32 = 0)
include h entry plain high

theorem exec_segchk :
    exec (.segchk i) s = .next (finishBundle (issuers s) (settled s) (segEnded (segPasses (coreAt (settled s) (lead s)).b k) (lead s) (settled s))) := by
  obtain ⟨-, -, -, clean⟩ := id h
  refine runSlot_lead_of_sound h (f := effSegchk i) ?_ (fun q hq => ?_)
  · simp only [effSegchk, entry, bind, Except.bind, plain, high, ne_eq, not_true_eq_false, or_self, if_false]
    rfl
  · by_cases member : q ∈ groupOf (settled s) (lead s)
    · rw [segEnded, body_onCores_of_mem (f := fun _ => segEnd _ _ _) (groupOf_nodup _ _) member]
      exact repeatsPoison_segEnd _ _ _ (clean q hq)
    · rw [segEnded, body_onCores_of_not_mem (f := fun _ => segEnd _ _ _) member, repeatsPoison, clean q hq]
      cases (coreAt (settled s) q).b.check <;> rfl

/-- A segment check begins the next segment, and one that fails is the detected error SEG_MISMATCH. -/
theorem segchk_ends :
    ∃ t, exec (.segchk i) s = .next t ∧ (coreAt t (lead s)).b.r.seg = nextSeg (coreAt (settled s) (lead s)).b ∧
      (segPasses (coreAt (settled s) (lead s)).b k = true → (coreAt t (lead s)).b.detected = none) ∧
      (¬ segPasses (coreAt (settled s) (lead s)).b k = true →
        (coreAt t (lead s)).b.detected = some (codeSegMismatch, (coreAt (settled s) (lead s)).b.r.pc, 0)) := by
  obtain ⟨-, -, -, clean⟩ := id h
  have none_ := clean _ (lead_mem s)
  have ended := body_segEnded_lead (segPasses (coreAt (settled s) (lead s)).b k) (lead s) (settled s)
  have runs : inTend (segEnded (segPasses (coreAt (settled s) (lead s)).b k) (lead s) (settled s)) (lead s) = false := by
    refine ((inTend_of_stage (s := settled s) ?_).trans (inTend_congr (task_settled s _))).trans (not_inTend_of_ready h (lead_mem s))
    rw [ended]
    exact segEnd_stage ..
  have body := body_advanced runs (lead_mem s)
  rw [ended] at body
  refine ⟨_, exec_segchk h entry plain high, ?_, fun pass => ?_, fun fail => ?_⟩
  · rw [body]
    have later : (segEnd (segPasses (coreAt (settled s) (lead s)).b k) (nextSeg (coreAt (settled s) (lead s)).b) (settled s).clk (coreAt (settled s) (lead s)).b).r.seg =
        nextSeg (coreAt (settled s) (lead s)).b := by
      unfold segEnd
      split <;> rfl
    have behind : (coreAt (settled s) (lead s)).b.r.vcc < (nextSeg (coreAt (settled s) (lead s)).b).vcc0 :=
      Nat.lt_of_lt_of_le (Nat.lt_succ_self _) (Nat.le_add_right _ _)
    rw [seg_advance_of_later _ (by rw [later]; exact behind), later]
  · rw [body, pass]
    exact none_
  · rw [body, Bool.eq_false_of_not_eq_true fail]
    show some ((coreAt (settled s) (lead s)).b.detected.getD _) = _
    rw [none_]
    rfl

end

/-! ### Shape publication (R117, R363) -/

theorem shapes_slotLaunches (v : Nat) (l : List Nat) (s : State) : (l.foldl (meetTruth v) s).shapes = s.shapes ∧ (l.foldl (meetTruth v) s).cores = s.cores := by
  have one (s : State) (x : Nat) : (meetTruth v s x).shapes = s.shapes ∧ (meetTruth v s x).cores = s.cores := by
    unfold meetTruth
    dsimp only
    split
    · exact ⟨rfl, rfl⟩
    · split <;> exact ⟨rfl, rfl⟩
  exact ⟨foldl_keeps (g := State.shapes) (fun s x => (one s x).1) l s, foldl_keeps (g := State.cores) (fun s x => (one s x).2) l s⟩

theorem cores_publish (s : State) (part slot v : Nat) : (publish s part slot v).cores = s.cores := by
  unfold publish
  split
  · rfl
  · exact (shapes_slotLaunches ..).2

/-- The first publication of a slot wins. -/
theorem shape_publish (s : State) (part slot : Nat) {v : Nat} (h : v ≤ 65535) :
    ((publish s part slot v).shapes.get 0 (part * 1024 + slot)).toNat =
      if bitAt (s.shapes.get 0 (part * 1024 + slot)).toNat 16 then (s.shapes.get 0 (part * 1024 + slot)).toNat else v + 2 ^ 16 := by
  unfold publish
  split
  · rfl
  · dsimp only
    rw [(shapes_slotLaunches ..).1, Tab.get_set, if_pos rfl, BitVec.toNat_ofNat]
    omega

section

variable {c : Nat} {o s : State}

theorem shapeGuard_passes (ckpt : (coreAt o c).b.hdrCkpt = true) (confirmed : isProv o c = false) (performed : ∀ q ∈ groupOf o c, allPerformed o q = true) :
    shapeGuard c o = .ok () := by
  have all : (groupOf o c).all (fun q => allPerformed o q) = true := List.all_eq_true.2 performed
  simp only [shapeGuard, ckpt, confirmed, all, Bool.not_true, Bool.false_eq_true, if_false, if_true]

theorem shapeGuard_outside (ckpt : (coreAt o c).b.hdrCkpt = false) : shapeGuard c o = flt codeIllegal := if_pos (by rw [ckpt]; rfl)

end

theorem keepsTask_of_cores {k : State → State} (h : ∀ u, (k u).cores = u.cores) : KeepsTask k :=
  ⟨fun u q => by rw [coreAt_congr (h u)], fun u q => by rw [coreAt_congr (h u)]⟩

theorem shapes_issuedLead {s : State} (h : Ready s) {k : State → State} (hk : KeepsTask k) : (issuedLead (fun _ _ u => k u) s).shapes = (k (settled s)).shapes := by
  have rest := (onlyBodies_finishBundle (settled s) (s := k (settled s)) (l := issuers s)
    (fun q hq => (inTend_congr ((hk.task _ q).trans (task_settled s q))).trans (not_inTend_of_ready h hq))).state
  have same := congrArg State.shapes rest
  exact same

theorem settled_shapes (s : State) : (settled s).shapes = s.shapes := onCores_keep (·.shapes) _ (fun _ _ _ => rfl) _ _

section

variable {s : State} (h : Ready s)
include h

theorem exec_yieldp (idle : ∀ t, taskOf (settled s) (lead s) = some t → t.persist = false ∨ (settled s).softs.getLsbD t.part = false) :
    exec .yieldp s = .next (issuedLead (fun _ _ u => u) s) := by
  refine exec_lead h keepsTask_id (f := effYieldp) rfl ?_
  unfold effYieldp
  split
  next t runs => exact if_neg (by rcases idle t runs with off | off <;> simp [off])
  next => rfl

variable (ckpt : (coreAt (settled s) (lead s)).b.hdrCkpt = true) (confirmed : isProv (settled s) (lead s) = false)
  (performed : ∀ q ∈ groupOf (settled s) (lead s), allPerformed (settled s) q = true)
include ckpt confirmed performed

theorem exec_shapepub {a : BitVec 6} (n : BitVec 10) (few : (sReg (settled s) (lead s) a.toNat).toNat ≤ 65535) :
    ∃ t, exec (.shapepub a n) s = .next t ∧ t.shapes = (publish (settled s) (taskPart (settled s) (lead s)) n.toNat (sReg (settled s) (lead s) a.toNat).toNat).shapes := by
  have keeps : KeepsTask (fun u => publish u (taskPart (settled s) (lead s)) n.toNat (sReg (settled s) (lead s) a.toNat).toNat) :=
    keepsTask_of_cores (fun u => cores_publish u _ _ _)
  refine ⟨_, exec_lead h keeps (f := effShapepub a n) rfl ?_, shapes_issuedLead h keeps⟩
  rw [effShapepub, if_neg (by omega), shapeGuard_passes ckpt confirmed performed]
  rfl

theorem exec_shapepubClr (n : BitVec 10) :
    ∃ t, exec (.shapepubClr n) s = .next t ∧ t.shapes = (unpublish (settled s) (taskPart (settled s) (lead s)) n.toNat).shapes := by
  have keeps : KeepsTask (fun u => unpublish u (taskPart (settled s) (lead s)) n.toNat) := keepsTask_of_cores (fun _ => rfl)
  refine ⟨_, exec_lead h keeps (f := effShapepubClr n) rfl ?_, shapes_issuedLead h keeps⟩
  rw [effShapepubClr, shapeGuard_passes ckpt confirmed performed]
  rfl

end

/-- Settles O37: the registers each index names, and the operations of SEGCHK, YIELDP and shape publication. -/
theorem systemRegistersSegmentsAndShapes : Obligations.SystemRegistersSegmentsAndShapes := by
  unfold Obligations.SystemRegistersSegmentsAndShapes
  refine ⟨fun s d a i h => ?_, fun s a i n k h => ⟨fun entry plain high => ?_, exec_yieldp h, fun ckpt confirmed performed => ⟨fun few => ?_, fun many => ?_, ?_⟩,
    fun outside j hj => ?_⟩⟩
  · refine ⟨fun none_ => ⟨?_, ?_⟩, exec_sysr h, sysReg_values (settled s),
      sysw_trapvec h a, sysw_tksel h a, sysw_numstat h a, sysw_lc0 h a, sysw_lc1 h a, fun n hn => exec_sysw_readOnly h hn, sysw_spstat h a, fun plain => ?_, fun priv => ?_, fun j hj accepted => sysw_buf h hj accepted⟩
    · exact runSlot_lead_fault (f := effSysr d i) h (effSysr_unnamed none_)
    · exact runSlot_lead_fault (f := effSysw a i) h (effSysw_unnamed none_)
    · exact runSlot_lead_fault (f := effSysw a 0x60) h (effSysw_gate_plain plain)
    · exact exec_sysw h (keepsTask_spgate _ _) (effSysw_gate_priv priv)
  · obtain ⟨t, run, seg, passes, fails⟩ := segchk_ends h entry plain high
    exact ⟨t, run, seg, fun pass => passes ((segPasses_iff _ k).2 pass), fun fail => fails fun pass => fail ((segPasses_iff _ k).1 pass)⟩
  · obtain ⟨t, run, shapes⟩ := exec_shapepub h ckpt confirmed performed n few
    exact ⟨t, run, by rw [shapes, ← settled_shapes s]; exact shape_publish _ _ _ few⟩
  · exact runSlot_lead_fault (f := effShapepub a n) h (if_pos ⟨many, ckpt⟩)
  · obtain ⟨t, run, shapes⟩ := exec_shapepubClr h ckpt confirmed performed n
    exact ⟨t, run, by rw [shapes, unpublish, Tab.get_set, if_pos rfl]⟩
  · rcases List.mem_pair.1 hj with rfl | rfl
    · exact runSlot_lead_fault (f := effShapepub a n) h (by rw [effShapepub, if_neg (by simp [outside]), shapeGuard_outside outside]; rfl)
    · exact runSlot_lead_fault (f := effShapepubClr n) h (by rw [effShapepubClr, shapeGuard_outside outside]; rfl)

end Sys2Proof.Machine
end

section
/-! The control micro-operations of a matrix routine (R427, R438, R439). -/

namespace Sys2Proof.Machine

open Sys2Proof.Safety

/-! ### The routine of a core -/

theorem microOf_eq_some {s : State} {c : Nat} {p : MxCmd × MicroState} : microOf s c = some p ↔ mxHead s c = some p.1 ∧ p.1.micro = some p.2 := by
  obtain ⟨m, st⟩ := p
  unfold microOf
  cases mxHead s c with
  | none => simp
  | some x => cases hx : x.micro <;> aesop

theorem microOf_of_routine {s : State} {m : MxCmd} {st : MicroState} (h : Routine s m st) : microOf s s.curCore = some (m, st) := microOf_eq_some.2 h

theorem mxHead_updHead (c : Nat) (f : MxCmd → MxCmd) (s : State) (q : Nat) :
    mxHead (updHead c f s) q = if q = c then (mxHead s c).map f else mxHead s q := by
  rw [mxHead, updHead, core_updBody]
  split
  · unfold mxHead
    cases (coreAt s c).b.mxQ <;> rfl
  · rfl

/-- A routine's state changes: its command carries the new one. -/
theorem microOf_setMicro_same {c : Nat} {s : State} {m : MxCmd} (h : mxHead s c = some m) (st : MicroState) :
    microOf (setMicro c st s) c = some ({ m with micro := some st }, st) := by
  rw [microOf_eq_some, setMicro, mxHead_updHead, if_pos rfl, h]
  exact ⟨rfl, rfl⟩

theorem microOf_setMicro_other {c q : Nat} (h : q ≠ c) (st : MicroState) (s : State) : microOf (setMicro c st s) q = microOf s q := by
  unfold microOf setMicro
  rw [mxHead_updHead, if_neg h]

/-! ### The end of a routine (R427) -/

theorem body_setTok {α : Type} (g : Body → α) (hg : ∀ b r, g { b with r := r } = g b) (s : State) (c t : Nat) (f : TokenRec → TokenRec) (q : Nat) :
    g (coreAt (setTok s c t f) q).b = g (coreAt s q).b := body_updBody g (fun b => hg b _) s c q

/-- The commands of a core's engines learn that a token of its task has ended. -/
def tokenGone (t : Nat) (bad : Option (BitVec 8)) (b : Body) : Body :=
  { b with
    mxQ := b.mxQ.map (fun m => if m.orphan = false then { m with ins := (tokEnded t bad m.ins m.fault).1, fault := (tokEnded t bad m.ins m.fault).2 } else m)
    xfQ := b.xfQ.map (fun x => if x.orphan = false then { x with ins := (tokEnded t bad x.ins x.fault).1, fault := (tokEnded t bad x.ins x.fault).2 } else x)
    refetchWait := b.refetchWait.filter (fun u => u != t) }

/-- The end of a command DONE under its own token. -/
theorem endTok_done (c t : Nat) (who : Issuer) (code : BitVec 8) (prog : Nat) (s : State) :
    endTok c t false who .done code prog s =
      updBody (setTok s c t (fun r => { r with status := .done, code := code, progress := BitVec.ofNat 48 prog })) c (tokenGone t none) := by
  simp only [endTok, Bool.false_eq_true, if_false, reduceCtorEq, and_false]
  rfl

/-- A command leaves the head of the matrix engine. -/
def headGone (b : Body) : Body := { b with mxQ := b.mxQ.drop 1 }

theorem endMx_of_head {s : State} {c : Nat} {m : MxCmd} (head : mxHead s c = some m) (st : TokStatus) (code : BitVec 8) (prog : Nat) :
    endMx c st code prog s = endTok c m.tok m.orphan m.who st code prog (updBody s c headGone) := by
  unfold endMx
  rw [head]
  rfl

/-- A command with a token of its own that ends DONE writes the token's record and leaves the matrix engine, but no accumulator. -/
theorem endMx_done {s : State} {c : Nat} {m : MxCmd} (head : mxHead s c = some m) (own : m.orphan = false) :
    (tokRec (endMx c .done 0 0 s) c m.tok).status = .done ∧ (coreAt (endMx c .done 0 0 s) c).b.mxQ.length + 1 = (coreAt s c).b.mxQ.length ∧
    (coreAt (endMx c .done 0 0 s) c).b.acc = (coreAt s c).b.acc := by
  obtain ⟨rest, queue⟩ : ∃ rest, (coreAt s c).b.mxQ = m :: rest := List.head?_eq_some_iff.1 head
  rw [endMx_of_head head, own, endTok_done]
  refine ⟨?_, ?_, ?_⟩
  · rw [tokRec_updBody (f := tokenGone m.tok none) _ _ (fun _ => rfl), tokRec, core_setTok, if_pos rfl, Tab.get_upd, if_pos rfl]
  · rw [core_updBody, if_pos rfl, tokenGone, List.length_map, body_setTok Body.mxQ (fun _ _ => rfl), core_updBody, if_pos rfl, headGone, queue]
    rfl
  · rw [body_updBody Body.acc (f := tokenGone m.tok none) (fun _ => rfl), body_setTok Body.acc (fun _ _ => rfl), body_updBody Body.acc (f := headGone) (fun _ => rfl)]

/-! ### MSYNC -/

theorem clusterCores_nodup (c : Nat) : (clusterCores c).Nodup :=
  List.Nodup.map (fun i j e => by simpa [clusterCore] using e) List.nodup_range

/-- Whether a core's routine stands at the MSYNC at a micro-word. -/
def standsAt (upc : Nat) (s : State) (q : Nat) : Bool := match microOf s q with | some (_, t) => t.sync && t.upc == upc | none => false

theorem standsAt_iff {upc : Nat} {s : State} {q : Nat} : standsAt upc s q = true ↔ ∃ p, microOf s q = some p ∧ p.2.sync = true ∧ p.2.upc = upc := by
  unfold standsAt
  cases microOf s q <;> simp

/-- A core's routine goes on behind its MSYNC. -/
def leaveSync (s : State) (q : Nat) : State := match microOf s q with | some (_, t) => setMicro q (nextU { t with sync := false }) s | none => s

theorem runMsync_joint {s : State} {c : Nat} {m : MxCmd} {st : MicroState} (h : microOf s c = some (m, st)) (joint : mxJoint m.snap = true) :
    runMsync c s =
      if (clusterCores c).all (standsAt st.upc (setMicro c { st with sync := true } s)) then
        (clusterCores c).foldl leaveSync (setMicro c { st with sync := true } s)
      else setMicro c { st with sync := true } s := by
  unfold runMsync
  rw [h]
  dsimp only
  rw [joint]
  rfl

/-- Behind the MSYNC a routine waits no longer. -/
def behindSync (p : MxCmd × MicroState) : MxCmd × MicroState :=
  let st := nextU { p.2 with sync := false }
  ({ p.1 with micro := some st }, st)

theorem microOf_leaveSync_same (s : State) (q : Nat) : microOf (leaveSync s q) q = (microOf s q).map behindSync := by
  unfold leaveSync
  cases h : microOf s q with
  | none => exact h
  | some p => exact microOf_setMicro_same (microOf_eq_some.1 h).1 _

theorem microOf_leaveSync_other {s : State} {q k : Nat} (h : k ≠ q) : microOf (leaveSync s k) q = microOf s q := by
  unfold leaveSync
  cases microOf s k with
  | none => rfl
  | some p => exact microOf_setMicro_other h.symm _ _

/-- All engines of the cluster stand at the MSYNC: each goes on. -/
theorem runMsync_of_all {s : State} {c : Nat} {m : MxCmd} {st : MicroState} (h : microOf s c = some (m, st)) (joint : mxJoint m.snap = true)
    (others : ∀ k ∈ clusterCores c, k ≠ c → ∃ p, microOf s k = some p ∧ p.2.sync = true ∧ p.2.upc = st.upc) :
    ∀ k ∈ clusterCores c, ∃ p, microOf (runMsync c s) k = some p ∧ p.2.sync = false ∧ p.2.upc = st.upc + 1 := by
  have stand : ∀ k ∈ clusterCores c, ∃ p, microOf (setMicro c { st with sync := true } s) k = some p ∧ p.2.sync = true ∧ p.2.upc = st.upc := by
    intro k hk
    by_cases e : k = c
    · rw [e]
      exact ⟨_, microOf_setMicro_same (microOf_eq_some.1 h).1 _, rfl, rfl⟩
    · rw [microOf_setMicro_other e]
      exact others k hk e
  rw [runMsync_joint h joint, if_pos (List.all_eq_true.2 (fun k hk => standsAt_iff.2 (stand k hk)))]
  intro k hk
  obtain ⟨p, hp, -, same⟩ := stand k hk
  refine ⟨behindSync p, ?_, rfl, congrArg (· + 1) same⟩
  rw [foldl_once (g := fun s => microOf s k) (v := Option.map behindSync) (clusterCores_nodup c) hk (fun s => microOf_leaveSync_same s k)
    (fun q _ hq s => microOf_leaveSync_other hq), hp]
  rfl

/-- An engine of the cluster stands elsewhere: the routine waits. -/
theorem runMsync_of_missing {s : State} {c k : Nat} {m : MxCmd} {st : MicroState} (h : microOf s c = some (m, st)) (joint : mxJoint m.snap = true)
    (hk : k ∈ clusterCores c) (other : k ≠ c) (missing : ∀ p, microOf s k = some p → ¬ (p.2.sync = true ∧ p.2.upc = st.upc)) :
    runMsync c s = setMicro c { st with sync := true } s := by
  rw [runMsync_joint h joint]
  refine if_neg (fun all => ?_)
  obtain ⟨p, hp, stands⟩ := standsAt_iff.1 (List.all_eq_true.1 all k hk)
  rw [microOf_setMicro_other other] at hp
  exact missing p hp stands

/-! ### The control micro-operations -/

/-- Settles O39: each micro-operation writes its routine's state; MSYNC, in a joint operation, those of the four engines. -/
theorem routineControl : Obligations.RoutineControl := by
  unfold Obligations.RoutineControl
  intro s m st x ra rb ct y routine
  have micro := microOf_of_routine routine
  refine ⟨?_, ⟨st.mw.upd 0 ra.toNat (fun w => w + BitVec.ofNat 64 (fieldW (st.mw.get 0 rb.toNat) 0 32)), ?_, ?_, ?_⟩, fun some_left => ?_, fun last => ?_, ?_, ?_, fun own => ?_, fun alone => ?_,
    fun joint others => ⟨_, rfl, runMsync_of_all micro joint others⟩, ?_⟩
  · change Host.Outcome.next (runMskip x s.curCore s) = _
    rw [runMskip, micro]
    dsimp only
    split <;> rfl
  · rw [Tab.get_upd, if_pos rfl]
  · intro n hn
    rw [Tab.get_upd, if_neg hn]
  · change Host.Outcome.next (runMnext ra rb s.curCore s) = _
    rw [runMnext, micro]
    rfl
  · change Host.Outcome.next (runMloop ct x s.curCore s) = _
    rw [runMloop, micro]
    dsimp only
    rw [if_pos some_left]
    rfl
  · change Host.Outcome.next (runMloop ct x s.curCore s) = _
    rw [runMloop, micro]
    dsimp only
    rw [if_neg (Nat.not_le.2 last)]
    rfl
  · change Host.Outcome.next (runMbcast s.curCore s) = _
    rw [runMbcast, micro]
    rfl
  · change Host.Outcome.next (runMnorm y s.curCore s) = _
    rw [runMnorm, micro]
    rfl
  · refine ⟨endMx s.curCore .done 0 0 s, ?_, endMx_done routine.1 own⟩
    change Host.Outcome.next (runMend s.curCore s) = _
    rw [runMend, micro]
  · change Host.Outcome.next (runMsync s.curCore s) = _
    rw [runMsync, micro]
    dsimp only
    rw [alone]
    rfl
  · rintro joint ⟨k, hk, other, missing⟩
    exact congrArg Host.Outcome.next (runMsync_of_missing micro joint hk other missing)

end Sys2Proof.Machine
end

section
/-! The loads and multiply-accumulates of a matrix routine (R315, R438, R439). -/

namespace Sys2Proof.Machine

open Sys2Proof.Safety

/-! ### Loads -/

/-- MSCALE reads nothing for a type without scales. -/
theorem runMscale_unscaled {s : State} {c : Nat} {m : MxCmd} {st : MicroState} (h : microOf s c = some (m, st)) (ra rb : BitVec 3) (unscaled : isBlk m.et = false) :
    runMscale ra rb c s = setMicro c (nextU st) s := by
  rw [runMscale, h]
  dsimp only
  rw [unscaled]
  rfl

/-- The requests of MSCALE: the scale pairs of the panels' rows and of their columns in the current block. -/
def scaleReqs (c : Nat) (q : List Word) (st : MicroState) (ra rb : BitVec 3) : List (List Req) :=
  let two := 2 * blockIdx q st
  [(panelRows c q st).map (fun i => Req.mem (moved (st.mw.get 0 ra.toNat) (i * fieldW (mpOf q 5) 0 32 + two : Nat)) 2),
    (panelCols c q).map (fun j => if mxBsrc q then Req.wb (fieldW (st.mw.get 0 rb.toNat) 0 18 + (j * fieldW (mpOf q 5) 32 32 + two)) 2
      else Req.mem (moved (st.mw.get 0 rb.toNat) (j * fieldW (mpOf q 5) 32 32 + two : Nat)) 2)]

theorem runMscale_scaled {s s' : State} {c : Nat} {m : MxCmd} {st : MicroState} (h : microOf s c = some (m, st)) {ra rb : BitVec 3} (scaled : isBlk m.et = true)
    {a b : List Nat} (read : readRows c m.who (rotSrc c m.snap st) (mxWb m.snap) s (scaleReqs c m.snap st ra rb) = .ok (s', [a, b])) :
    runMscale ra rb c s =
      setMicro c { st with sa := a.map (fun x => (x % 256, x / 256)), sb := b.map (fun x => (x % 256, x / 256)), upc := st.upc + 1 } s' := by
  unfold scaleReqs at read
  rw [runMscale, h]
  dsimp only
  rw [scaled]
  simp only [Bool.not_true, Bool.false_eq_true, if_false]
  rw [read]
  rfl

/-! ### Elements of the accumulator -/

theorem accGet_of_word {b : Body} {bank row col : Nat} {x : Int} (h : b.acc.get 0 (accKey bank row col) = BitVec.ofInt 40 x) (lo : -(2 ^ 39) ≤ x) (hi : x ≤ 2 ^ 39 - 1) :
    accGet b bank row col = x := by
  rw [accGet, h, signed_eq_toInt (by decide), BitVec.ofNat_toNat, BitVec.setWidth_eq, BitVec.toInt_ofInt]
  exact Int.bmod_eq_of_le (by omega) (by omega)

theorem saturated_bounds (a : Int) : -(2 ^ 39) ≤ saturated a ∧ saturated a ≤ 2 ^ 39 - 1 := by
  unfold saturated
  omega

/-- A change of a body that writes one element of the accumulator, and neither exponent words nor commands. -/
structure PutsElement (bank row col : Nat) (x : Int) (b b' : Body) : Prop where
  acc : b'.acc = b.acc.set 0 (accKey bank row col) (BitVec.ofInt 40 x)
  accX : b'.accX = b.accX
  mxQ : b'.mxQ = b.mxQ

theorem putsElement_accPut (bank row col : Nat) (a : Int) (b : Body) : PutsElement bank row col a b (accPut bank row col a b) := ⟨rfl, rfl, rfl⟩

theorem saturated_of_high {a : Int} (h : a > 2 ^ 39 - 1) : saturated a = 2 ^ 39 - 1 := by unfold saturated; omega

theorem saturated_of_low {a : Int} (h : a < -(2 ^ 39)) : saturated a = -(2 ^ 39) := by unfold saturated; omega

theorem saturated_of_between {a : Int} (hi : ¬ a > 2 ^ 39 - 1) (lo : ¬ a < -(2 ^ 39)) : saturated a = a := by unfold saturated; omega

theorem putsElement_accSat (bank row col : Nat) (a : Int) (b : Body) : PutsElement bank row col (saturated a) b (accSat bank row col a b) := by
  unfold accSat
  split
  next high => rw [saturated_of_high high]; exact ⟨rfl, rfl, rfl⟩
  next notHigh =>
    split
    next low => rw [saturated_of_low low]; exact ⟨rfl, rfl, rfl⟩
    next notLow => rw [saturated_of_between notHigh notLow]; exact ⟨rfl, rfl, rfl⟩

theorem accKey_inj {bank row col row' col' : Nat} (hc : col < 128) (hc' : col' < 128) (h : accKey bank row col = accKey bank row' col') : row = row' ∧ col = col' := by
  unfold accKey at h
  omega

theorem macElem_of_number {et : Fmt} {bank row col : Nat} {ps : List (FV × FV)} {b : Body} {d : Int} (number : segGet b bank row col ≠ nanX)
    (sum : contribution et (segGet b bank row col) ps = some d) : macElem et bank row col ps b = accSat bank row col (accGet b bank row col + d) b := by
  unfold macElem
  unfold contribution at sum
  dsimp only
  rw [if_neg number]
  by_cases bf : et = .bf16
  · rw [if_pos bf] at sum ⊢
    rw [sum]
  · rw [if_neg bf] at sum ⊢
    cases h : dotExact ps with
    | none => simp [h] at sum
    | some p => simp only [h, Option.map_some, Option.some.injEq] at sum ⊢; rw [sum]

/-! ### The tile of a multiply-accumulate -/

/-- The places of a tile, row by row. -/
def places (rows cols : Nat) : List (Nat × Nat) := List.product (List.range rows) (List.range cols)

theorem mem_places {rows cols i j : Nat} : (i, j) ∈ places rows cols ↔ i < rows ∧ j < cols := by
  rw [places, List.pair_mem_product, List.mem_range, List.mem_range]

theorem places_nodup (rows cols : Nat) : (places rows cols).Nodup := List.nodup_range.product List.nodup_range

/-- Outside a joint operation the tile lies whole in the core's bank. -/
theorem macPanels_alone {m : MxCmd} (alone : mxJoint m.snap = false) (c : Nat) (st : MicroState) (mask : Nat → Nat → Bool) (b : Body) :
    macPanels c m st mask b = (places (rowsOf m.snap st.g) (mxN m.snap)).foldl (fun b p =>
      if mask (st.rc + p.1) p.2 then accPut (mxBank m.snap) (mxRow0 m.snap + (st.rc + p.1)) (mxCol0 m.snap + p.2) (-(2 ^ 39)) b
      else macElem m.et (mxBank m.snap) (mxRow0 m.snap + (st.rc + p.1)) (mxCol0 m.snap + p.2)
        ((panelVals m.et st.pa st.sa p.1).zip (panelVals m.et st.pb st.sb p.2)) b) b := by
  simp only [macPanels, panelRows, panelCols, bankRow, bankCol, alone, Bool.false_eq_true, if_false, List.length_map, List.length_range, places, List.product,
    List.foldl_flatMap, List.foldl_map]
  refine List.foldl_ext _ _ _ (fun b i hi => List.foldl_ext _ _ _ (fun b j hj => ?_))
  have column : nthD (List.range (mxN m.snap)) j 0 = j := by simpa using nthD_map_range id (List.mem_range.1 hj) 0
  rw [nthD_map_range _ (List.mem_range.1 hi), nthD_map_range _ (List.mem_range.1 hj), column]

section

variable {bank row col : Nat} {f : Nat × Nat → Body → Body} {value : Nat × Nat → Int → Int}

/-- The key of a place of a tile whose corner is given. -/
def placeKey (bank row col : Nat) (p : Nat × Nat) : Nat := accKey bank (row + p.1) (col + p.2)

theorem placeKey_inj {p p' : Nat × Nat} (hp : col + p.2 < 128) (hp' : col + p'.2 < 128) (h : placeKey bank row col p = placeKey bank row col p') : p = p' := by
  obtain ⟨rows, cols⟩ := accKey_inj hp hp' h
  exact Prod.ext (by omega) (by omega)

/-- What writing each of several places once, by what it held, makes of a body whose exponent words stand. -/
structure WritesPlaces (bank row col : Nat) (value : Nat × Nat → Int → Int) (l : List (Nat × Nat)) (b b' : Body) : Prop where
  written : ∀ p ∈ l, b'.acc.get 0 (placeKey bank row col p) = BitVec.ofInt 40 (value p (accGet b bank (row + p.1) (col + p.2)))
  others : ∀ k, (∀ p ∈ l, k ≠ placeKey bank row col p) → b'.acc.get 0 k = b.acc.get 0 k
  accX : b'.accX = b.accX
  mxQ : b'.mxQ = b.mxQ

/-- A write of each of several places in turn. -/
theorem writesPlaces_foldl {X : Tab (BitVec 16)} {l : List (Nat × Nat)} (nodup : l.Nodup) (inside : ∀ p ∈ l, col + p.2 < 128)
    (puts : ∀ p ∈ l, ∀ b : Body, b.accX = X → PutsElement bank (row + p.1) (col + p.2) (value p (accGet b bank (row + p.1) (col + p.2))) b (f p b))
    {b : Body} (hX : b.accX = X) : WritesPlaces bank row col value l b (l.foldl (fun b p => f p b) b) := by
  induction l generalizing b with
  | nil => exact ⟨fun p hp => absurd hp List.not_mem_nil, fun _ _ => rfl, rfl, rfl⟩
  | cons p l ih =>
    obtain ⟨fresh, nodup⟩ := List.nodup_cons.1 nodup
    have first := puts p List.mem_cons_self b hX
    have rest := ih nodup (fun q hq => inside q (List.mem_cons_of_mem p hq)) (fun q hq => puts q (List.mem_cons_of_mem p hq)) (first.accX.trans hX)
    have apart : ∀ q ∈ l, placeKey bank row col p ≠ placeKey bank row col q := fun q hq e =>
      fresh (placeKey_inj (inside p List.mem_cons_self) (inside q (List.mem_cons_of_mem p hq)) e ▸ hq)
    have kept : ∀ k, k ≠ placeKey bank row col p → (f p b).acc.get 0 k = b.acc.get 0 k := fun k hk => by rw [first.acc, Tab.get_set]; exact if_neg hk
    refine ⟨fun q hq => ?_, fun k hk => ?_, rest.accX.trans first.accX, rest.mxQ.trans first.mxQ⟩
    · rcases List.mem_cons.1 hq with rfl | hq
      · rw [List.foldl_cons, rest.others _ apart, first.acc, Tab.get_set]
        exact if_pos rfl
      · rw [List.foldl_cons, rest.written q hq, accGet, accGet]
        exact congrArg (fun w => BitVec.ofInt 40 (value q (signed 40 w.toNat))) (kept _ (apart q hq).symm)
    · rw [List.foldl_cons, rest.others k (fun q hq => hk q (List.mem_cons_of_mem p hq)), kept k (hk p List.mem_cons_self)]

end

/-- MMAC and MMACT outside a joint operation, on numbers whose sums of products are numbers: each element is written once. -/
theorem macPanels_writes {m : MxCmd} (alone : mxJoint m.snap = false) {c : Nat} {st : MicroState} {mask : Nat → Nat → Bool} {b : Body} {d : Nat × Nat → Int}
    (inside : mxCol0 m.snap + mxN m.snap ≤ 128)
    (numbers : ∀ p ∈ places (rowsOf m.snap st.g) (mxN m.snap), segGet b (mxBank m.snap) (mxRow0 m.snap + (st.rc + p.1)) (mxCol0 m.snap + p.2) ≠ nanX ∧
      contribution m.et (segGet b (mxBank m.snap) (mxRow0 m.snap + (st.rc + p.1)) (mxCol0 m.snap + p.2))
        ((panelVals m.et st.pa st.sa p.1).zip (panelVals m.et st.pb st.sb p.2)) = some (d p)) :
    WritesPlaces (mxBank m.snap) (mxRow0 m.snap + st.rc) (mxCol0 m.snap) (fun p a => if mask (st.rc + p.1) p.2 then -(2 ^ 39) else saturated (a + d p))
      (places (rowsOf m.snap st.g) (mxN m.snap)) b (macPanels c m st mask b) := by
  rw [macPanels_alone alone]
  refine writesPlaces_foldl (X := b.accX) (places_nodup _ _) (fun p hp => ?_) (fun p hp b' hX => ?_) rfl
  · have := (mem_places.1 hp).2
    omega
  · obtain ⟨number, sum⟩ := numbers p hp
    have same : segGet b' (mxBank m.snap) (mxRow0 m.snap + (st.rc + p.1)) (mxCol0 m.snap + p.2) =
        segGet b (mxBank m.snap) (mxRow0 m.snap + (st.rc + p.1)) (mxCol0 m.snap + p.2) := by rw [segGet, segGet, hX]
    rw [← same] at number sum
    rw [Nat.add_assoc (mxRow0 m.snap) st.rc p.1]
    split
    next => exact putsElement_accPut ..
    next =>
      rw [macElem_of_number number sum]
      exact putsElement_accSat ..

/-- A multiply-accumulate goes on behind itself, its loads rotated no longer. -/
def behindMac (st : MicroState) : MicroState := { st with rot := false, upc := st.upc + 1 }

theorem runMac_of_micro {s : State} {c : Nat} {m : MxCmd} {st : MicroState} (h : microOf s c = some (m, st)) (masked : Bool) :
    runMac masked c s = setMicro c (behindMac st) (updBody s c (macPanels c m st (fun i j => masked && causal m.snap i j))) := by
  rw [runMac, h]
  rfl

theorem body_setMicro {α : Type} (g : Body → α) (hg : ∀ b l, g { b with mxQ := l } = g b) (c : Nat) (st : MicroState) (s : State) (q : Nat) :
    g (coreAt (setMicro c st s) q).b = g (coreAt s q).b := body_updBody g (fun b => hg b _) s c q

/-- Settles O40: a load takes what it reads, and a multiply-accumulate writes each element of its tile once. -/
theorem routineLoadsAndAccumulates : Obligations.RoutineLoadsAndAccumulates := by
  unfold Obligations.RoutineLoadsAndAccumulates
  refine ⟨fun s s' m st ra rb tr ic p routine => ?_, fun s m st masked routine alone => ?_⟩
  · have micro := microOf_of_routine routine
    refine ⟨fun read => ?_, fun read => ?_, fun notBq8 notBq4 => ?_, fun scaled a b e read => ?_⟩
    · change Host.Outcome.next (runMloada ra tr ic s.curCore s) = _
      rw [runMloada, micro]
      dsimp only
      rw [read]
      rfl
    · change Host.Outcome.next (runMloadb ra tr s.curCore s) = _
      rw [runMloadb, micro]
      dsimp only
      rw [read]
      rfl
    · exact congrArg Host.Outcome.next (runMscale_unscaled micro ra rb (by simp [isBlk, notBq8, notBq4]))
    · subst e
      exact congrArg Host.Outcome.next (runMscale_scaled micro (by simpa [isBlk] using scaled) read)
  · have micro := microOf_of_routine routine
    intro c q bank row col sum rowsFit colsFit numbers
    have written := macPanels_writes alone (c := c) (st := st) (mask := fun i j => masked && causal q i j) (b := (coreAt s c).b) (d := fun p => (sum p.1 p.2).getD 0)
      colsFit (fun p hp => ?_)
    · have stepped : exec (if masked then .mmact else .mmac) s = .next (runMac masked c s) := by cases masked <;> rfl
      have body {α : Type} (g : Body → α) (hg : ∀ b l, g { b with mxQ := l } = g b) : g (coreAt (runMac masked c s) c).b =
          g (macPanels c m st (fun i j => masked && causal q i j) (coreAt s c).b) := by
        rw [runMac_of_micro micro, body_setMicro g hg, core_updBody, if_pos rfl]
      refine ⟨_, stepped, ?_, fun i hi j hj => ?_, (body Body.accX (fun _ _ => rfl)).trans written.accX, fun k hk => ?_⟩
      · rw [runMac_of_micro micro]
        refine microOf_setMicro_same ?_ _
        rw [mxHead, core_updBody, if_pos rfl, written.mxQ]
        exact routine.1
      · have word := written.written (i, j) (mem_places.2 ⟨hi, hj⟩)
        have bounds := saturated_bounds (accGet (coreAt s c).b bank (row i) (col j) + (sum i j).getD 0)
        refine accGet_of_word ?_ ?_ ?_
        · rw [body Body.acc (fun _ _ => rfl)]
          simpa only [placeKey, Nat.add_assoc, causal, Bool.and_eq_true, decide_eq_true_eq] using word
        · split <;> omega
        · split <;> omega
      · rw [body Body.acc (fun _ _ => rfl)]
        refine written.others k (fun p hp => ?_)
        have := hk p.1 (mem_places.1 hp).1 p.2 (mem_places.1 hp).2
        rw [placeKey, Nat.add_assoc]
        exact this
    · obtain ⟨number, finite⟩ := numbers p.1 (mem_places.1 hp).1 p.2 (mem_places.1 hp).2
      obtain ⟨d, hd⟩ := Option.ne_none_iff_exists'.1 finite
      refine ⟨number, ?_⟩
      change sum p.1 p.2 = some ((sum p.1 p.2).getD 0)
      rw [hd]
      rfl

end Sys2Proof.Machine
end

section
/-!
What of the Deadbolt registers and of the contexts the model's functions leave: the slots of a die's pages aside, only a fence, a rebuild and a
retirement write these registers (R254, R258-R266).
-/

namespace Sys2Proof.Machine

open Sys2Proof.Safety

/-! ### The registers of die loss -/

/-- The Deadbolt registers that say which dies and clusters are lost and which rebuild is under way. -/
structure LossRegs where
  lostdies : BitVec 8
  pendLoss : List Nat
  rebuilding : Bool
  mrebuild : Bool
  retired : BitVec 80

def lossRegs (s : State) : LossRegs :=
  { lostdies := s.mod.db.lostdies, pendLoss := s.mod.db.pendLoss, rebuilding := s.mod.db.rebuilding, mrebuild := s.mod.db.mrebuild, retired := s.mod.db.retired }

/-- These registers with the contexts. -/
def lossView (s : State) : LossRegs × Bool × Tab Ctx := (lossRegs s, s.degraded, s.ctxs)

theorem lossRegs_of_lossView {s t : State} (h : lossView t = lossView s) : lossRegs t = lossRegs s := congrArg (fun x => x.1) h

theorem ctx_of_lossView {s t : State} (h : lossView t = lossView s) (c : Nat) : ctx t c = ctx s c := congrArg (fun x => x.2.2.get .zero c) h

theorem lossRegs_of_mod {s t : State} (h : t.mod = s.mod) : lossRegs t = lossRegs s := congrArg (fun m : Module => (⟨m.db.lostdies, m.db.pendLoss, m.db.rebuilding, m.db.mrebuild, m.db.retired⟩ : LossRegs)) h

/-! ### Writes of cores, records, launches and the Hasp -/

theorem lossView_updCore (s : State) (c : Nat) (f : Core → Core) : lossView (updCore s c f) = lossView s := rfl

theorem lossView_updBody (s : State) (c : Nat) (f : Body → Body) : lossView (updBody s c f) = lossView s := rfl

theorem lossView_setTok (s : State) (c t : Nat) (f : TokenRec → TokenRec) : lossView (setTok s c t f) = lossView s := rfl

theorem lossView_peerReads (s : State) (l : List PeerRead) : lossView { s with mod := { s.mod with peerReads := l } } = lossView s := rfl

theorem lossView_slots (s : State) (t m : Tab (Nat × Nat)) :
    lossView { s with mod := { s.mod with db := { s.mod.db with slots := t, mslots := m } } } = lossView s := rfl

theorem lossView_dropLines (h : Nat) (s : State) : lossView (dropLines h s) = lossView s := rfl

theorem lossView_updLaunch (s : State) (l : Nat) (f : Launch → Launch) : lossView (updLaunch s l f) = lossView s := rfl

theorem lossView_updHasp (s : State) (d : Nat) (f : Hasp → Hasp) : lossView (updHasp s d f) = lossView s := rfl

theorem lossView_recs (s : State) (t : Tab TRec) : lossView { s with recs := t } = lossView s := rfl

theorem lossView_packets (s : State) (l : List Packet) : lossView { s with packets := l } = lossView s := rfl

/-! ### Messages, the error log and snapshots -/

theorem lossView_sendMsix (e : Nat) (s : State) : lossView (sendMsix e s) = lossView s := by unfold sendMsix; split <;> rfl

theorem lossView_logErr (e : BitVec 128) (s : State) : lossView (logErr e s) = lossView s := lossView_sendMsix 4 _

theorem lossView_logDie (src d : Nat) (fence : Bool) (s : State) : lossView (logDie src d fence s) = lossView s := lossView_logErr ..

theorem lossView_fireTrig (cause : Nat) (code : BitVec 8) (s : State) : lossView (fireTrig cause code s) = lossView s := by
  simp only [fireTrig]
  repeat' split
  all_goals rfl

theorem lossView_snapFault (code : BitVec 8) (s : State) : lossView (snapFault code s) = lossView s := by
  unfold snapFault
  split
  · exact lossView_fireTrig ..
  · rfl

theorem lossView_sendVec (part v : Nat) (s : State) : lossView (sendVec part v s) = lossView s := by
  simp only [sendVec]
  split
  · exact lossView_sendMsix ..
  · rfl

/-! ### Tasks, their cores and their faults -/

theorem lossView_onCores {f : Nat → Body → Body} (g : List Nat) (s : State) : lossView (onCores (fun q s => updBody s q (f q)) g s) = lossView s := by
  unfold onCores
  exact foldl_keeps (g := lossView) (by intro _ _; rfl) g s

theorem lossView_freeCore (c : Nat) (s : State) : lossView (freeCore c s) = lossView s := by
  unfold freeCore
  split
  · rfl
  · dsimp only
    rw [lossView_updCore, lossView_updLaunch, dropBehind, lossView_updCore, lossView_packets]

theorem lossView_leaveTask (g : List Nat) (s : State) : lossView (leaveTask g s) = lossView s := by
  unfold leaveTask
  split
  · rfl
  · split
    · rfl
    · exact foldl_keeps (g := lossView) (fun s q => lossView_freeCore q s) g _

theorem lossView_endFaulted (g : List Nat) (code : BitVec 8) (s : State) : lossView (endFaulted g code s) = lossView s := by
  unfold endFaulted
  split
  · rfl
  · split
    · rfl
    · exact lossView_leaveTask g s

theorem lossView_takeFault (g : List Nat) (f : FaultInfo) (s : State) : lossView (takeFault g f s) = lossView s := by
  simp only [takeFault]
  split
  · rfl
  · split
    · exact (lossView_endFaulted ..).trans ((lossView_onCores ..).trans (lossView_snapFault ..))
    · split
      · exact (lossView_endFaulted ..).trans ((lossView_onCores ..).trans (lossView_snapFault ..))
      · exact (lossView_onCores ..).trans (lossView_snapFault ..)

theorem lossView_killTask (c : Nat) (s : State) : lossView (killTask c s) = lossView s := by
  unfold killTask
  exact (lossView_leaveTask ..).trans (foldl_keeps (g := lossView) (f := fun s q => killCmds q s) (fun _ _ => rfl) _ s)

theorem lossView_dropFrames (p : Task → Bool) (c : Nat) (s : State) : lossView (dropFrames p c s) = lossView s := by
  unfold dropFrames
  exact (foldl_keeps (g := lossView) (fun s _ => lossView_updLaunch s _ _) _ _).trans (lossView_updCore ..)

theorem lossView_dropSaved (p : Task → Bool) (s : State) : lossView (dropSaved p s) = lossView s :=
  foldl_keeps (g := lossView) (fun s c => lossView_dropFrames p c s) _ s

theorem lossView_killLaunch (l : Nat) (s : State) : lossView (killLaunch l s) = lossView s :=
  (lossView_dropSaved _ _).trans (foldl_keeps (g := lossView) (fun s c => lossView_killTask c s) _ s)

/-! ### Engine commands that end -/

theorem lossView_endTok (c t : Nat) (orphan : Bool) (who : Issuer) (st : TokStatus) (code : BitVec 8) (prog : Nat) (s : State) :
    lossView (endTok c t orphan who st code prog s) = lossView s := by
  have told (u : State) (hu : lossView u = lossView s) (f g : Body → Body) (p : Prop) [Decidable p] (fault : State → FaultInfo) :
      lossView (if p then takeFault (groupOf (updBody (updBody u c f) c g) c) (fault (updBody (updBody u c f) c g)) (updBody (updBody u c f) c g) else updBody u c f) = lossView s := by
    split
    · exact (lossView_takeFault ..).trans hu
    · exact hu
  refine told _ ?_ _ _ _ (fun s => faultHere s c code 15 none 0)
  rw [apply_ite lossView, apply_ite lossView, failLaunch, lossView_updLaunch, ite_self, lossView_setTok, ite_self]

theorem lossView_endXf (c : Nat) (x : XfCmd) (st : TokStatus) (code : BitVec 8) (s : State) : lossView (endXf c x st code s) = lossView s := by
  unfold endXf
  rw [lossView_endTok, lossView_peerReads, apply_ite lossView, lossView_setTok, ite_self, lossView_updBody]

/-! ### Packets for other dies and modules -/

theorem lossView_netRoute (q : Nat) (p : NetPacket) (s : State) : lossView (netRoute q p s).1 = lossView s := by
  dsimp only [netRoute]
  repeat' split
  all_goals rfl

theorem lossView_netSend (p : NetPacket) (s : State) : lossView (netSend p s).1 = lossView s := lossView_netRoute 0 p s

theorem lossView_sendMdelta (d j off : Nat) (bytes : List Byte) (s : State) : lossView (sendMdelta d j off bytes s) = lossView s := by
  have routes : lossView (netSend (mdelta (fresh s).2 d (fresh s).1 j off bytes) (fresh s).2).1 = lossView s := lossView_netSend ..
  dsimp only [sendMdelta]
  split <;> exact routes

theorem lossView_dieDelta (h page off : Nat) (bytes : List Byte) (s : State) : lossView (dieDelta h page off bytes s) = lossView s := by
  unfold dieDelta
  split
  · split <;> rfl
  · rfl

theorem lossView_modDelta (h page off : Nat) (bytes : List Byte) (s : State) : lossView (modDelta h page off bytes s) = lossView s := by
  unfold modDelta
  split
  · exact lossView_sendMdelta ..
  · rfl

theorem lossView_pageDelta (s : State) (h page off : Nat) (bytes : List Byte) : lossView (pageDelta s h page off bytes) = lossView s :=
  (lossView_modDelta ..).trans (lossView_dieDelta ..)

theorem lossView_answerLine (tag line : Nat) (code : BitVec 8) (s : State) : lossView (answerLine tag line (some code) s) = lossView s := by
  unfold answerLine
  split
  · split
    · exact lossView_endXf ..
    · rfl
  · exact lossView_netSend ..

theorem lossView_discardBounced (h : Nat) (code : BitVec 8) (s : State) : lossView (discardBounced h code s) = lossView s := by
  unfold discardBounced
  exact (foldl_keeps (g := lossView) (fun s (b : Bounced) => lossView_answerLine b.tag b.line code s) _ _).trans rfl

/-! ### Tensors -/

theorem lossView_freeTensorPages (s : State) (h : Nat) : lossView (freeTensorPages s h) = lossView s := by
  unfold freeTensorPages
  exact foldl_keeps (g := lossView) (by intro _ _; rfl) _ s

theorem lossView_zeroTensor (h : Nat) (s : State) : lossView (zeroTensor h s) = lossView s := by
  unfold zeroTensor
  exact foldl_keeps (g := lossView) (by intro _ _; rfl) _ s

theorem lossView_pageContents (h page : Nat) (s : State) : lossView (pageContents h page s) = lossView s := by
  simp only [pageContents]
  split
  · rfl
  · exact lossView_pageDelta ..

theorem lossView_releaseParity (h : Nat) (s : State) : lossView (releaseParity h s) = lossView s := by
  simp only [releaseParity]
  split
  · rfl
  · rw [lossView_slots]
    exact foldl_keeps (g := lossView) (fun s i => lossView_pageContents h i s) _ s

/-- The bytes of a tensor are given up: its pages, its lines and its slots. -/
theorem lossView_emptied (h : Nat) (s : State) : lossView (dropLines h (freeTensorPages (zeroTensor h s) h)) = lossView s := by
  rw [lossView_dropLines, lossView_freeTensorPages, lossView_zeroTensor]

theorem lossView_freeRecipe (h : Nat) (s : State) : lossView (freeRecipe h s) = lossView s := by unfold freeRecipe; split <;> rfl

theorem lossView_hforceEnd (d why : Nat) (s : State) : lossView (hforceEnd d why s) = lossView s := lossView_sendMsix 3 _

theorem lossView_dropMove (h : Nat) (s : State) : lossView (dropMove h s) = lossView s := rfl

theorem lossView_releaseRecord (h : Nat) (s : State) : lossView (releaseRecord h s) = lossView s := by
  unfold releaseRecord
  rw [lossView_recs, lossView_updHasp, lossView_discardBounced, lossView_dropMove, lossView_freeRecipe, lossView_emptied, lossView_releaseParity]

theorem lossView_unpin (h : Nat) (s : State) : lossView (unpin h s) = lossView s := by
  simp only [unpin]
  split
  · exact lossView_releaseRecord h _
  · rfl

theorem lossView_unpins (l : List Nat) (s : State) : lossView (l.foldl (fun s h => unpin h s) s) = lossView s :=
  foldl_keeps (g := lossView) (fun s h => lossView_unpin h s) l s

/-! ### Launches and contexts that end -/

theorem lossView_freeLaunch (l : Nat) (s : State) : lossView (freeLaunch l s) = lossView s := lossView_unpins _ _

theorem lossView_endLaunches (ls : List Nat) (s : State) : lossView (endLaunches ls s) = lossView s :=
  foldl_keeps (g := lossView) (fun s l => (lossView_freeLaunch l _).trans (lossView_killLaunch l s)) ls _

theorem lossView_clearCtx (c : Nat) (s : State) : lossView (clearCtx c s) = lossView s := lossView_endLaunches _ s

/-! ### The fence of a die (R258, R259) -/

/-- The registers of die loss with the degraded mark. -/
def fenceView (s : State) : LossRegs × Bool := (lossRegs s, s.degraded)

theorem fenceView_of_lossView {s t : State} (h : lossView t = lossView s) : fenceView t = fenceView s := congrArg (fun x => (x.1, x.2.1)) h

theorem fenceView_updCtx (s : State) (c : Nat) (f : Ctx → Ctx) : fenceView (updCtx s c f) = fenceView s := rfl

theorem fenceView_ctxFaulted (c : Nat) (code : BitVec 8) (s : State) : fenceView (ctxFaulted c code s) = fenceView s := by
  simp only [ctxFaulted]
  rw [fenceView_of_lossView (lossView_logErr ..), fenceView_of_lossView (lossView_sendVec ..)]
  rfl

theorem ctx_ctxFaulted_other {c n : Nat} (h : n ≠ c) (code : BitVec 8) (s : State) : ctx (ctxFaulted c code s) n = ctx s n := by
  simp only [ctxFaulted, ctx_logErr, ctx_sendVec]
  exact ctx_updCtx_other _ _ h

theorem fenceView_loseCtx (c : Nat) (s : State) : fenceView (loseCtx c s) = fenceView s := by
  unfold loseCtx
  rw [fenceView_ctxFaulted, fenceView_updCtx]
  exact fenceView_of_lossView ((lossView_snapFault ..).trans (lossView_clearCtx ..))

theorem ctx_loseCtx_other {c n : Nat} (h : n ≠ c) (s : State) : ctx (loseCtx c s) n = ctx s n := by
  unfold loseCtx
  rw [ctx_ctxFaulted_other h, ctx_updCtx_other _ _ h]
  exact ctx_of_lossView ((lossView_snapFault ..).trans (lossView_clearCtx ..)) n

theorem ctx_loseCtx_same (c : Nat) (s : State) : (ctx (loseCtx c s) c).state = .faulted ∧ (ctx (loseCtx c s) c).fcode = codeDieLost := by
  unfold loseCtx
  rw [ctx_ctxFaulted, ctx_updCtx_same]
  exact ⟨rfl, rfl⟩

theorem fenceView_cleared (h : Nat) (f : Reissue → Reissue) (s : State) (t : Tab Ctx) : fenceView (updReissue h f { s with ctxs := t }) = fenceView s := rfl

theorem ctx_cleared (h : Nat) (f : Reissue → Reissue) (s : State) {c n : Nat} (other : n ≠ c) :
    ctx (updReissue h f { s with ctxs := s.ctxs.set .zero c .zero }) n = ctx s n := (Tab.get_set _ _ _ _ _).trans (if_neg other)

theorem fenceView_loseSub (c : Nat) (s : State) : fenceView (loseSub c s) = fenceView s := by
  unfold loseSub
  split
  · rfl
  · exact (fenceView_cleared ..).trans (fenceView_of_lossView (lossView_endLaunches ..))

theorem ctx_loseSub_other {c n : Nat} (h : n ≠ c) (s : State) : ctx (loseSub c s) n = ctx s n := by
  unfold loseSub
  split
  · rfl
  · exact (ctx_cleared _ _ _ h).trans (ctx_of_lossView (lossView_endLaunches ..) n)

/-- A cluster joins the retired ones. -/
def retiring (b : BitVec 80) (v : LossRegs × Bool × Tab Ctx) : LossRegs × Bool × Tab Ctx := ({ v.1 with retired := v.1.retired ||| b }, v.2)

theorem lossView_retired (s : State) (b : BitVec 80) :
    lossView { s with mod := { s.mod with db := { s.mod.db with retired := s.mod.db.retired ||| b } } } = retiring b (lossView s) := rfl

theorem lossView_dropShares (p : Share → Bool) (s : State) : lossView (dropShares p s) = lossView s := rfl

theorem lossView_unmapCluster (cl : Nat) (s : State) : lossView (unmapCluster cl s) = lossView s := rfl

theorem lossView_failLaunch (l : Nat) (code : BitVec 8) (who : Nat) (s : State) : lossView (failLaunch l code who s) = lossView s := rfl

theorem lossView_retireCluster (cl : Nat) (s : State) : lossView (retireCluster cl s) = retiring (1#80 <<< retiredBit cl) (lossView s) := by
  simp only [retireCluster]
  rw [lossView_retired, lossView_unmapCluster, foldl_keeps (g := lossView) (fun s l => lossView_failLaunch l _ _ s), lossView_dropShares,
    foldl_keeps (g := lossView) (fun s q => lossView_dropFrames _ (clusterCore cl q) s), foldl_keeps (g := lossView) (fun s c => lossView_killTask c s)]

theorem lossView_retireLost (d k : Nat) (s : State) :
    lossView (retireLost d k s) = if isRetired s (16 * d + k) then lossView s else retiring (1#80 <<< retiredBit (16 * d + k)) (lossView s) := by
  simp only [retireLost]
  split
  · rfl
  · exact (lossView_logErr ..).trans (lossView_retireCluster ..)

/-- The retirement of a cluster writes of the registers of die loss the one of retired clusters only. -/
def lostView (s : State) : BitVec 8 × Bool × Bool × Tab Ctx := (s.mod.db.lostdies, s.mod.db.rebuilding, s.degraded, s.ctxs)

theorem lostView_of_lossView {s t : State} (h : lossView t = lossView s) : lostView t = lostView s :=
  congrArg (fun x : LossRegs × Bool × Tab Ctx => (x.1.lostdies, x.1.rebuilding, x.2.1, x.2.2)) h

theorem lostView_retireLost (d k : Nat) (s : State) : lostView (retireLost d k s) = lostView s := by
  have view := lossView_retireLost d k s
  split at view
  · exact lostView_of_lossView view
  · exact congrArg (fun x : LossRegs × Bool × Tab Ctx => (x.1.lostdies, x.1.rebuilding, x.2.1, x.2.2)) view

theorem isRetired_of_lossView {s t : State} (h : lossView t = lossView s) (cl : Nat) : isRetired t cl = isRetired s cl :=
  congrArg (fun x : LossRegs × Bool × Tab Ctx => x.1.retired.getLsbD (retiredBit cl)) h

theorem isRetired_of_retiring {s t : State} {b : BitVec 80} (h : lossView t = retiring b (lossView s)) (cl : Nat) :
    isRetired t cl = (isRetired s cl || b.getLsbD (retiredBit cl)) :=
  (congrArg (fun x : LossRegs × Bool × Tab Ctx => x.1.retired.getLsbD (retiredBit cl)) h).trans BitVec.getLsbD_or

theorem isRetired_retireLost_keeps (d k : Nat) {s : State} {cl : Nat} (h : isRetired s cl = true) : isRetired (retireLost d k s) cl = true := by
  have view := lossView_retireLost d k s
  split at view
  · rw [isRetired_of_lossView view, h]
  · rw [isRetired_of_retiring view, h, Bool.true_or]

theorem clusterExists_of_die {d n : Nat} (hn : n < dieClusters d) : clusterExists (16 * d + n) = true := by
  have few : dieClusters d ≤ 12 := by
    unfold dieClusters
    split
    · exact Nat.le_refl _
    · split <;> decide
  have die : (16 * d + n) / 16 = d := by omega
  have place : (16 * d + n) % 16 = n := by omega
  rw [clusterExists, die, place]
  exact decide_eq_true hn

theorem isRetired_retireLost {d n : Nat} (hn : n < dieClusters d) (s : State) : isRetired (retireLost d n s) (16 * d + n) = true := by
  have view := lossView_retireLost d n s
  split at view
  next before => rw [isRetired_of_lossView view, before]
  next =>
    rw [isRetired_of_retiring view]
    simp [retiredBit_lt (clusterExists_of_die hn)]

theorem lossView_loseHasp (d : Nat) (s : State) : lossView (loseHasp d s) = lossView s := by
  simp only [loseHasp]
  rw [lossView_updHasp, foldl_keeps (g := lossView) (fun s h => lossView_discardBounced h _ s)]
  refine foldl_keeps (g := lossView) (fun s m => ?_) _ s
  split
  · exact lossView_hforceEnd ..
  · rfl

/-- What a fence writes before it ends what the loss of its die touches. -/
def fenced (d : Nat) (s : State) : State :=
  let s := updDb (fun b => { b with
    pendLoss := b.pendLoss ++ d :: hosted s d, lostdies := b.lostdies ||| (1#8 <<< d), adopters := b.adopters &&& ~~~ (1#8 <<< d),
    rebuilding := true, progress := 0, kept := if b.lostdies = 0 then keptPages s d else .empty }) s
  logDie 9 d true { s with degraded := true, l2 := s.l2.keep (fun k _ => !lineOf d k), l2Dirty := s.l2Dirty.keep (fun k _ => !lineOf d k || heldLine s d k) }

/-- The state of a fence once the contexts and sub-streams it touches have ended. -/
def afterTouched (d : Nat) (s : State) : State :=
  (subCtxs d).foldl (fun s c => loseSub c s) (((List.range 64).filter (touched s d)).foldl (fun s c => loseCtx c s) (fenced d s))

theorem fenceDie_eq {d : Nat} {s : State} (hd : d < 8) (up : isUp s = true) (alive : isLost s d = false) :
    fenceDie d s = sendMsix 5 (loseHasp d ((List.range (dieClusters d)).foldl (fun s k => retireLost d k s) (afterTouched d s))) := by
  unfold fenceDie
  rw [if_neg (by simp [up, alive, hd])]
  rfl

theorem fenceView_afterTouched (d : Nat) (s : State) : fenceView (afterTouched d s) = fenceView (fenced d s) := by
  unfold afterTouched
  rw [foldl_keeps (g := fenceView) (fun s c => fenceView_loseSub c s), foldl_keeps (g := fenceView) (fun s c => fenceView_loseCtx c s)]

/-- A touched context is FAULTED with DIE_LOST. -/
theorem ctx_afterTouched {d n : Nat} {s : State} (hn : n < 64) (h : touched s d n = true) :
    (ctx (afterTouched d s) n).state = .faulted ∧ (ctx (afterTouched d s) n).fcode = codeDieLost := by
  have apart : ∀ c ∈ subCtxs d, n ≠ c := by
    intro c hc
    obtain ⟨k, -, rfl⟩ := List.mem_map.1 hc
    omega
  unfold afterTouched
  rw [foldl_keeps_of_mem (g := fun s => ctx s n) (f := fun s c => loseSub c s) (fun c hc s => ctx_loseSub_other (apart c hc) s)]
  refine foldl_establishes (P := fun s => (ctx s n).state = .faulted ∧ (ctx s n).fcode = codeDieLost) (List.mem_filter.2 ⟨List.mem_range.2 hn, h⟩)
    (fun s => ctx_loseCtx_same n s) (fun s c faulted => ?_) _
  by_cases e : n = c
  · exact e ▸ ctx_loseCtx_same n s
  · rw [ctx_loseCtx_other e]
    exact faulted

theorem isRetired_retired {d n : Nat} (hn : n < dieClusters d) (s : State) :
    isRetired ((List.range (dieClusters d)).foldl (fun s k => retireLost d k s) s) (16 * d + n) = true :=
  foldl_establishes (P := fun s => isRetired s (16 * d + n) = true) (f := fun s k => retireLost d k s) (List.mem_range.2 hn)
    (fun s => isRetired_retireLost hn s) (fun _ k before => isRetired_retireLost_keeps d k before) s

/-- The last steps of a fence: the clusters of the die retire, and nothing of the rest is taken back. -/
theorem fence_ends {d : Nat} {a u : State} (last : lossView u = lossView ((List.range (dieClusters d)).foldl (fun s k => retireLost d k s) a)) :
    u.mod.db.lostdies = a.mod.db.lostdies ∧ u.mod.db.rebuilding = a.mod.db.rebuilding ∧ u.degraded = a.degraded ∧
      (∀ n < dieClusters d, isRetired u (16 * d + n) = true) ∧ ∀ n, ctx u n = ctx a n := by
  have held : lostView u = lostView a := (lostView_of_lossView last).trans (foldl_keeps (g := lostView) (fun s k => lostView_retireLost d k s) _ _)
  simp only [lostView, Prod.mk.injEq] at held
  obtain ⟨lost, rebuilding, degraded, ctxs⟩ := held
  refine ⟨lost, rebuilding, degraded, fun n hn => ?_, fun n => congrArg (fun x : Tab Ctx => x.get .zero n) ctxs⟩
  rw [isRetired_of_lossView last]
  exact isRetired_retired hn a

theorem fenceView_eq {s t : State} (h : fenceView s = fenceView t) :
    s.mod.db.lostdies = t.mod.db.lostdies ∧ s.mod.db.rebuilding = t.mod.db.rebuilding ∧ s.degraded = t.degraded :=
  ⟨congrArg (fun x : LossRegs × Bool => x.1.lostdies) h, congrArg (fun x : LossRegs × Bool => x.1.rebuilding) h, congrArg (fun x : LossRegs × Bool => x.2) h⟩

theorem fenced_marks (d : Nat) (s : State) :
    (fenced d s).mod.db.lostdies = s.mod.db.lostdies ||| (1#8 <<< d) ∧ (fenced d s).mod.db.rebuilding = true ∧ (fenced d s).degraded = true := by
  unfold fenced
  dsimp only
  obtain ⟨lost, rebuilding, degraded⟩ := fenceView_eq (fenceView_of_lossView (lossView_logDie 9 d true _))
  exact ⟨lost, rebuilding, degraded⟩

/-- A fence loses its die, ends what it touches and retires the die's clusters. -/
theorem fenceDie_loses {d : Nat} {s : State} (hd : d < 8) (up : isUp s = true) (alive : isLost s d = false) :
    (fenceDie d s).mod.db.lostdies.getLsbD d = true ∧ (fenceDie d s).degraded = true ∧ (fenceDie d s).mod.db.rebuilding = true ∧
      (∀ n < dieClusters d, isRetired (fenceDie d s) (16 * d + n) = true) ∧
      ∀ n < 64, touched s d n = true → (ctx (fenceDie d s) n).state = .faulted ∧ (ctx (fenceDie d s) n).fcode = codeDieLost := by
  rw [fenceDie_eq hd up alive]
  obtain ⟨lost, rebuilding, degraded, retired, ctxs⟩ := fence_ends (d := d) (a := afterTouched d s) ((lossView_sendMsix ..).trans (lossView_loseHasp ..))
  obtain ⟨lostA, rebuildingA, degradedA⟩ := fenceView_eq (fenceView_afterTouched d s)
  obtain ⟨lostF, rebuildingF, degradedF⟩ := fenced_marks d s
  refine ⟨?_, degraded.trans (degradedA.trans degradedF), rebuilding.trans (rebuildingA.trans rebuildingF), retired, fun n hn h => ?_⟩
  · rw [lost.trans (lostA.trans lostF)]
    simp [hd]
  · rw [ctxs n]
    exact ctx_afterTouched hn h

end Sys2Proof.Machine
end

section
/-! The rebuild of a lost die and the module rebuild (R263, R266): what of the registers of die loss the rebuild's steps leave. -/

namespace Sys2Proof.Machine

open Sys2Proof.Safety

/-! ### Raw writes -/

theorem lossRegs_updRec (s : State) (h : Nat) (f : TRec → TRec) : lossRegs (updRec s h f) = lossRegs s := rfl

theorem lossRegs_updHasp (s : State) (d : Nat) (f : Hasp → Hasp) : lossRegs (updHasp s d f) = lossRegs s := rfl

theorem lossRegs_updCtx (s : State) (c : Nat) (f : Ctx → Ctx) : lossRegs (updCtx s c f) = lossRegs s := rfl

theorem lossRegs_packets (s : State) (l : List Packet) : lossRegs { s with packets := l } = lossRegs s := rfl

theorem lossRegs_reissues (s : State) (l : List Reissue) : lossRegs { s with reissues := l } = lossRegs s := rfl

theorem lossRegs_updReissue (h : Nat) (f : Reissue → Reissue) (s : State) : lossRegs (updReissue h f s) = lossRegs s := rfl

theorem lossRegs_mem (s : State) (m : Memory) : lossRegs { s with mem := m } = lossRegs s := rfl

theorem lossRegs_bytes (s : State) (m : Memory) (q : Tab Bool) : lossRegs { s with mem := m, poison := q } = lossRegs s := rfl

theorem lossRegs_pages (s : State) (t : Tab Bool) : lossRegs { s with pages := t } = lossRegs s := rfl

theorem lossRegs_l2Dirty (s : State) (t : Tab Bool) : lossRegs { s with l2Dirty := t } = lossRegs s := rfl

theorem lossRegs_freeNat (s : State) : lossRegs (freeNat s).1 = lossRegs s := rfl

theorem lossRegs_slots (s : State) (t : Tab (Nat × Nat)) : lossRegs { s with mod := { s.mod with db := { s.mod.db with slots := t } } } = lossRegs s := rfl

theorem lossRegs_mslots (s : State) (t : Tab (Nat × Nat)) : lossRegs { s with mod := { s.mod with db := { s.mod.db with mslots := t } } } = lossRegs s := rfl

theorem lossRegs_progress (s : State) (n : BitVec 46) : lossRegs (updDb (fun b => { b with progress := b.progress + n }) s) = lossRegs s := rfl

/-! ### Pins and moves -/

theorem lossRegs_sendMsix (e : Nat) (s : State) : lossRegs (sendMsix e s) = lossRegs s := lossRegs_of_lossView (lossView_sendMsix e s)

theorem lossRegs_dropMove (h : Nat) (s : State) : lossRegs (dropMove h s) = lossRegs s := rfl

section

variable {α : Type} {g : State → α} (record : ∀ s h f, g (updRec s h f) = g s) (slice : ∀ s d f, g (updHasp s d f) = g s) (message : ∀ e s, g (sendMsix e s) = g s)
  (places : ∀ (s : State) tlb mem ptw poison pages, g { s with tlb := tlb, mem := mem, ptw := ptw, poison := poison, pages := pages } = g s)

include places

theorem settlePage_keeps (h page : Nat) (s : State) : g (settlePage h page s) = g s := by
  have leaf (t : State) (die p : Nat) : g (writeLeaf die p t) = g t := by
    obtain ⟨tlb, mem, ptw, changed⟩ := writeLeaf_changes die p t
    rw [changed]
    exact places t tlb mem ptw t.poison t.pages
  refine (leaf ..).trans ?_
  split
  · rfl
  · exact places s s.tlb _ s.ptw _ s.pages

include record slice message

/-- A move that is abandoned writes its tensor's record, its slice of the Hasp, and places and bytes of its pages. -/
theorem abandonMove_keeps (h : Nat) (s : State) : g (abandonMove h s) = g s := by
  have dropped (t : State) (ht : g t = g s) (forced : Bool) :
      g (if forced then hforceEnd (handleDie h) 6 (updRec (dropMove h t) h (fun r => { r with busy := false })) else updRec (dropMove h t) h (fun r => { r with busy := false })) =
        g s := by
    rw [apply_ite g, hforceEnd, message, slice, ite_self, record, dropMove, slice]
    exact ht
  unfold abandonMove
  split
  next m _ =>
    split
    · rfl
    · refine dropped _ ?_ m.forced
      split
      · rw [nextPage, updMove, slice, settlePage_keeps places]
        exact places s s.tlb s.mem s.ptw s.poison _
      · rfl
  · rfl

end

theorem lossRegs_abandonMove (h : Nat) (s : State) : lossRegs (abandonMove h s) = lossRegs s :=
  abandonMove_keeps lossRegs_updRec lossRegs_updHasp lossRegs_sendMsix (fun _ _ _ _ _ _ => rfl) h s

theorem lossRegs_pin (h : Nat) (s : State) : lossRegs (pin h s) = lossRegs s := (lossRegs_updRec ..).trans (lossRegs_abandonMove h s)

theorem lossRegs_beginMove (h : Nat) (restore comp forced : Bool) (s : State) : lossRegs (beginMove h restore comp forced s) = lossRegs s := rfl

theorem lossRegs_requestRestore (h : Nat) (s : State) : lossRegs (requestRestore h s) = lossRegs s := lossRegs_of_mod (mod_requestRestore h s)

/-! ### Tensors that are dropped or lost -/

theorem lossRegs_emptied (h : Nat) (s : State) : lossRegs (dropLines h (freeTensorPages (zeroTensor h s) h)) = lossRegs s :=
  lossRegs_of_lossView (lossView_emptied h s)

theorem lossRegs_releaseParity (h : Nat) (s : State) : lossRegs (releaseParity h s) = lossRegs s := lossRegs_of_lossView (lossView_releaseParity h s)

theorem lossRegs_freeTensorPages (s : State) (h : Nat) : lossRegs (freeTensorPages s h) = lossRegs s := lossRegs_of_lossView (lossView_freeTensorPages s h)

theorem lossRegs_dropLines (h : Nat) (s : State) : lossRegs (dropLines h s) = lossRegs s := rfl

theorem lossRegs_dropEntries (h : Nat) (s : State) : lossRegs (dropEntries h s) = lossRegs s := by
  unfold dropEntries
  split
  · rfl
  · exact foldl_keeps (g := lossRegs) (fun s (i : Nat × BitVec 32) => lossRegs_updRec s i.1 _) _ s

theorem lossRegs_markLost (h : Nat) (s : State) : lossRegs (markLost h s) = lossRegs s := (lossRegs_updRec ..).trans (lossRegs_dropEntries h s)

theorem lossRegs_dropTensor (h : Nat) (s : State) : lossRegs (dropTensor h s) = lossRegs s := by
  unfold dropTensor
  dsimp only
  rw [lossRegs_updRec, lossRegs_emptied, lossRegs_releaseParity]
  exact foldl_keeps (g := lossRegs) (fun s (i : Nat × BitVec 32) => lossRegs_updRec s i.1 _) _ s

theorem lossRegs_loseTensor (h : Nat) (s : State) : lossRegs (loseTensor h s) = lossRegs s := by
  unfold loseTensor
  rw [lossRegs_emptied, lossRegs_updRec]

theorem lossRegs_dropLost (ok : Bool) (h : Nat) (s : State) : lossRegs (dropLost ok h s) = lossRegs s := by
  unfold dropLost
  rw [apply_ite lossRegs, lossRegs_dropTensor, lossRegs_updRec, lossRegs_loseTensor, ite_self]

/-! ### Room by eviction -/

theorem lossRegs_setHstat (d bit : Nat) (s : State) : lossRegs (setHstat d bit s) = lossRegs s := by
  unfold setHstat
  rw [apply_ite lossRegs, lossRegs_sendMsix, lossRegs_updHasp, ite_self]

theorem lossRegs_refreshUse (h : Nat) (s : State) : lossRegs (refreshUse h s) = lossRegs s := by
  unfold refreshUse
  dsimp only
  split
  · rfl
  · split
    · rfl
    · rfl
    · exact (lossRegs_updHasp ..).trans (lossRegs_setHstat ..)

theorem lossRegs_perform (h : Nat) (a : Act) (s : State) : lossRegs (perform h false a s) = lossRegs s := by
  cases a with
  | drop => exact lossRegs_dropTensor h s
  | compress => exact lossRegs_beginMove ..
  | spill => exact lossRegs_beginMove ..

theorem lossRegs_placedAt (h : Nat) (s : State) : lossRegs (placedAt h s) = lossRegs s := rfl

theorem lossRegs_endSpill (h : Nat) (s : State) : lossRegs (endSpill h false s) = lossRegs s := by
  unfold endSpill
  rw [if_neg Bool.false_ne_true, lossRegs_placedAt, lossRegs_updRec, lossRegs_dropMove, lossRegs_freeTensorPages, lossRegs_dropLines, lossRegs_releaseParity]

theorem lossRegs_endCompress (h : Nat) (s : State) : lossRegs (endCompress h false s) = lossRegs s := by
  unfold endCompress
  dsimp only
  split
  · rw [if_neg Bool.false_ne_true, lossRegs_placedAt, lossRegs_updRec, lossRegs_freeTensorPages, lossRegs_dropLines, lossRegs_updRec, lossRegs_dropMove, lossRegs_refreshUse]
  · rw [if_neg Bool.false_ne_true]
    split
    · rw [lossRegs_perform, lossRegs_updRec, lossRegs_dropMove, lossRegs_refreshUse]
    · rw [lossRegs_updRec, lossRegs_dropMove, lossRegs_refreshUse]

theorem lossRegs_makeRoom (d need f : Nat) (s : State) : lossRegs (makeRoom d need f s) = lossRegs s := by
  induction f generalizing s with
  | zero => rfl
  | succ f ih =>
    have used (l : List Nat) : lossRegs (l.foldl (fun s h => refreshUse h s) s) = lossRegs s := foldl_keeps (g := lossRegs) (fun s h => lossRegs_refreshUse h s) l s
    unfold makeRoom
    split
    · rfl
    · dsimp only
      split
      · exact used _
      · rw [ih]
        split
        · rw [lossRegs_dropTensor, lossRegs_updHasp, used]
        · rw [lossRegs_endCompress, lossRegs_updHasp, used]
        · rw [lossRegs_endSpill, lossRegs_updHasp, used]
        · rw [lossRegs_updHasp, used]

/-! ### Pages and their parity -/

theorem lossRegs_putPage (s : State) (h i : Nat) (bytes : List Byte) (bad : Nat → Bool) : lossRegs (putPage s h i bytes bad) = lossRegs s := lossRegs_bytes ..

theorem lossRegs_rebuildPage (d : Nat) (s : State) (h i : Nat) : lossRegs (rebuildPage d s h i) = lossRegs s := by
  unfold rebuildPage
  split
  · rfl
  · exact lossRegs_putPage ..

theorem lossRegs_rebuildFar (s : State) (h i : Nat) : lossRegs (rebuildFar s h i) = lossRegs s := by
  unfold rebuildFar
  split
  · rfl
  · refine foldl_keeps (g := lossRegs) (fun s p => ?_) _ s
    split
    · split
      · dsimp only
        split
        · exact lossRegs_freeNat s
        · exact (lossRegs_mem ..).trans (lossRegs_freeNat s)
      · rfl
    · rfl

theorem lossRegs_pageDelta (s : State) (h page off : Nat) (bytes : List Byte) : lossRegs (pageDelta s h page off bytes) = lossRegs s :=
  lossRegs_of_lossView (lossView_pageDelta ..)

theorem lossRegs_survDelta (s : State) (h o : Nat) (d : List Byte) : lossRegs (survDelta s h o d) = lossRegs s := by
  unfold survDelta
  split
  · rfl
  · exact foldl_keeps (g := lossRegs) (fun s i => lossRegs_pageDelta s h _ _ _) _ s

theorem lossRegs_storeGlob (s : State) (h o : Nat) (bytes : List Byte) (mask : List Bool) : lossRegs (storeGlob s h o bytes mask) = lossRegs s := by
  unfold storeGlob
  dsimp only
  rw [lossRegs_survDelta, lossRegs_of_mod (mod_markMove ..), lossRegs_of_mod (mod_dropCounts ..), lossRegs_of_mod (mod_clearPoison ..), lossRegs_of_mod (mod_writeMasked ..),
    lossRegs_of_mod (mod_writeEntries ..), lossRegs_of_mod (mod_takePages ..)]

/-- A page given a slot is sent as a delta unless it is zero. -/
theorem lossRegs_sent {s t : State} {f : State → State} (hf : ∀ t, lossRegs (f t) = lossRegs t) (ht : lossRegs t = lossRegs s) (zero : Bool) :
    lossRegs (if zero then t else f t) = lossRegs s := by
  rw [apply_ite lossRegs, hf, ite_self, ht]

theorem lossRegs_assignPage (h i : Nat) (s : State) : lossRegs (assignPage h i s) = lossRegs s := by
  have die (t : State) : lossRegs (dieDelta h i 0 (pageBytes s h i) t) = lossRegs t := lossRegs_of_lossView (lossView_dieDelta ..)
  have module (t : State) : lossRegs (modDelta h i 0 (pageBytes s h i) t) = lossRegs t := lossRegs_of_lossView (lossView_modDelta ..)
  have second (t : State) (ht : lossRegs t = lossRegs s) (slot free : Option Nat) (m : Bool) (key : Nat → Nat) :
      lossRegs (if m then t else match slot, free with
        | none, some k => if (pageBytes s h i).all (fun x => x == 0) then { t with mod := { t.mod with db := { t.mod.db with mslots := t.mod.db.mslots.set (0, 0) (key k) (h, i) } } }
          else modDelta h i 0 (pageBytes s h i) { t with mod := { t.mod with db := { t.mod.db with mslots := t.mod.db.mslots.set (0, 0) (key k) (h, i) } } }
        | _, _ => t) = lossRegs s := by
    split
    · exact ht
    · split
      · exact lossRegs_sent module ((lossRegs_mslots t _).trans ht) _
      · exact ht
  unfold assignPage
  dsimp only
  split
  · rfl
  · refine second _ ?_ _ _ _ (fun k => handleDie h * 2 ^ 24 + k)
    split
    · exact lossRegs_sent die (lossRegs_slots s _) _
    · rfl

theorem lossRegs_assignParity (h : Nat) (s : State) : lossRegs (assignParity h s) = lossRegs s :=
  foldl_keeps (g := lossRegs) (fun s i => lossRegs_assignPage h i s) _ s

theorem lossRegs_allocTensor (h : Nat) (s : State) : lossRegs (allocTensor h s) = lossRegs s := by
  unfold allocTensor
  exact foldl_keeps (g := lossRegs) (fun s _ => lossRegs_pages s _) _ s

theorem lossRegs_applyHeld (h : Nat) (before s : State) : lossRegs (applyHeld h before s) = lossRegs s := by
  unfold applyHeld
  dsimp only
  rw [lossRegs_l2Dirty]
  exact foldl_keeps (g := lossRegs) (fun s k => lossRegs_storeGlob s h _ _ _) _ s

/-! ### The tensors of a lost die -/

theorem lossRegs_rebuildTensor (d : Nat) (before : State) (h : Nat) (s : State) : lossRegs (rebuildTensor d before h s) = lossRegs s := by
  have pages (l : List Nat) (t : State) : lossRegs (l.foldl (fun s i => if oneLost s then rebuildPage d s h i else rebuildFar s h i) t) = lossRegs t :=
    foldl_keeps (g := lossRegs) (fun s i => by rw [apply_ite lossRegs, lossRegs_rebuildPage, lossRegs_rebuildFar, ite_self]) l t
  unfold rebuildTensor
  dsimp only
  rw [apply_ite lossRegs, lossRegs_loseTensor, apply_ite lossRegs, lossRegs_applyHeld, lossRegs_placedAt, lossRegs_updRec, lossRegs_freeTensorPages, lossRegs_applyHeld,
    lossRegs_assignParity, lossRegs_updRec, lossRegs_allocTensor, ite_self]
  split
  · exact lossRegs_makeRoom ..
  · rw [lossRegs_progress, apply_ite lossRegs, pages, ite_self, lossRegs_makeRoom]

theorem lossRegs_dealTensor (d : Nat) (before : State) (s : State) (h : Nat) : lossRegs (dealTensor d before s h) = lossRegs s := by
  unfold dealTensor
  rw [apply_ite lossRegs, apply_ite lossRegs, apply_ite lossRegs, lossRegs_markLost, lossRegs_rebuildTensor, lossRegs_dropLost, ite_self, ite_self, ite_self]

/-! ### Requests anew (R197, R259) -/

theorem lossRegs_ctxFaulted (c : Nat) (code : BitVec 8) (s : State) : lossRegs (ctxFaulted c code s) = lossRegs s :=
  congrArg (fun x : LossRegs × Bool => x.1) (fenceView_ctxFaulted c code s)

theorem lossRegs_failSub (h : Nat) (s : State) : lossRegs (failSub h s) = lossRegs s := rfl

theorem lossRegs_setChain (c : Nat) (chain : List Nat) (s : State) : lossRegs (setChain c chain s) = lossRegs s := by
  unfold setChain
  rw [apply_ite lossRegs, lossRegs_updCtx, ite_self]

theorem lossRegs_snapFault (code : BitVec 8) (s : State) : lossRegs (snapFault code s) = lossRegs s := lossRegs_of_lossView (lossView_snapFault code s)

theorem lossRegs_streamFault (c : Nat) (code : BitVec 8) (info : Word) (len : Nat) (chain : List Nat) (s : State) :
    lossRegs (streamFault c code info len chain s) = lossRegs s := by
  unfold streamFault
  dsimp only
  split
  · rw [lossRegs_failSub, lossRegs_updCtx]
  · split
    · rw [lossRegs_updCtx, lossRegs_updCtx, lossRegs_snapFault, lossRegs_setChain]
    · rw [lossRegs_ctxFaulted, lossRegs_updCtx, lossRegs_snapFault, lossRegs_setChain]

theorem lossRegs_refuseCtx (c h : Nat) (code : BitVec 8) (chain : List Nat) (s : State) : lossRegs (refuseCtx c h code chain s) = lossRegs s := by
  unfold refuseCtx
  dsimp only
  split
  · rw [apply_ite lossRegs, lossRegs_streamFault, ite_self]
  · rw [apply_ite lossRegs, lossRegs_streamFault, ite_self]
  · rw [apply_ite lossRegs, lossRegs_streamFault, ite_self]
  · rw [apply_ite lossRegs, lossRegs_streamFault, ite_self]
  · split
    · rw [lossRegs_streamFault, lossRegs_updCtx, lossRegs_packets]
    · rfl

theorem lossRegs_failRes (l : Nat) (code : BitVec 8) (chain : List Nat) (s : State) : lossRegs (failRes l code chain s) = lossRegs s := rfl

theorem lossRegs_discardBounced (h : Nat) (code : BitVec 8) (s : State) : lossRegs (discardBounced h code s) = lossRegs s :=
  lossRegs_of_lossView (lossView_discardBounced h code s)

theorem lossRegs_unpins (l : List Nat) (s : State) : lossRegs (l.foldl (fun s h => unpin h s) s) = lossRegs s := lossRegs_of_lossView (lossView_unpins l s)

theorem lossRegs_materialise (f : Nat) (op : MatOp) (s : State) : lossRegs (materialise f op s) = lossRegs s := by
  induction f generalizing op s with
  | zero => rfl
  | succ f ih =>
    cases op with
    | request h ask above part cls =>
      unfold materialise
      dsimp only
      split
      · exact ih ..
      · split
        · exact ih ..
        · split
          · rw [apply_ite lossRegs, lossRegs_updReissue, ite_self]
          · rw [ih, lossRegs_updRec, lossRegs_reissues]
    | advance h =>
      unfold materialise
      dsimp only
      split
      · rfl
      · split
        · rfl
        · split
          · exact ih ..
          · rw [ih, lossRegs_requestRestore, lossRegs_updReissue, lossRegs_pin]
    | fail h code chain =>
      unfold materialise
      dsimp only
      split
      · rfl
      · rw [foldl_keeps (g := lossRegs) (fun s (a : Ask × List Nat) => ih (.refuse a.1 h code (askChain a.2 chain h)) s), lossRegs_updRec, lossRegs_unpins, lossRegs_reissues]
    | refuse ask h code chain =>
      cases ask with
      | launch l => exact lossRegs_failRes ..
      | ctx c => exact lossRegs_refuseCtx ..
      | parent p => exact ih ..
      | dep => exact (lossRegs_setHstat ..).trans (lossRegs_markLost h s)
      | bounce => exact (lossRegs_discardBounced ..).trans (lossRegs_markLost h s)

theorem lossRegs_requestResident (h : Nat) (ask : Ask) (part cls : Nat) (s : State) : lossRegs (requestResident h ask part cls s) = lossRegs s := by
  unfold requestResident
  rw [apply_ite lossRegs, lossRegs_materialise, lossRegs_requestRestore, ite_self]

theorem lossRegs_askAgain (hs : List Nat) (s : State) : lossRegs (askAgain hs s) = lossRegs s := by
  unfold askAgain
  refine foldl_keeps (g := lossRegs) (fun s l => ?_) _ s
  dsimp only
  split
  · rfl
  · exact foldl_keeps (g := lossRegs) (fun s h => by rw [apply_ite lossRegs, lossRegs_requestResident, ite_self]) _ s

/-! ### The rebuild of a die (R263) -/

/-- The tensors of a lost die dealt with, and the parity deltas gone. -/
def dealt (d : Nat) (s : State) : State :=
  let t := (lostTensors s).foldl (fun u h => dealTensor d s u h) ((List.range 5).foldl (fun s _ => logDie 7 d false s) s)
  { t with packets := t.packets.filter (fun p => p.lane != 3) }

theorem lossRegs_dealt (d : Nat) (s : State) : lossRegs (dealt d s) = lossRegs s := by
  unfold dealt
  rw [lossRegs_packets, foldl_keeps (g := lossRegs) (fun u h => lossRegs_dealTensor d s u h),
    foldl_keeps (g := lossRegs) (fun s _ => lossRegs_of_lossView (lossView_logDie 7 d false s))]

theorem rebuildDie_eq {d : Nat} {s : State} (hd : d < 8) (gone : dieGone s d = true) (lost : isLost s d = true) (applied : ∀ p ∈ s.packets, p.lane ≠ 3) :
    rebuildDie d s = askAgain (lostTensors s) (updDb (fun b => { b with
      pendLoss := [], kept := .empty, rebuilding := b.mrebuild, adopters := s.mod.db.pendLoss.foldl (fun m e => m ||| (1#8 <<< adopterOf s e)) b.adopters }) (dealt d s)) := by
  unfold rebuildDie
  refine (if_neg ?_).trans rfl
  simp only [gone, lost, Nat.not_le.2 hd, Bool.not_true, Bool.false_eq_true, false_or, List.any_eq_true, Bool.and_eq_true, beq_iff_eq, not_exists, not_and]
  exact fun p hp lane => absurd lane (applied p hp)

/-- The registers of die loss once a rebuild has ended. -/
theorem lossRegs_rebuildDie {d : Nat} {s : State} (hd : d < 8) (gone : dieGone s d = true) (lost : isLost s d = true) (applied : ∀ p ∈ s.packets, p.lane ≠ 3) :
    lossRegs (rebuildDie d s) = { (lossRegs s) with pendLoss := [], rebuilding := s.mod.db.mrebuild } := by
  rw [rebuildDie_eq hd gone lost applied, lossRegs_askAgain]
  have rest := lossRegs_dealt d s
  generalize dealt d s = t at rest ⊢
  exact congrArg (fun r : LossRegs => { r with pendLoss := [], rebuilding := r.mrebuild }) rest

theorem rebuildDie_ends {d : Nat} {s : State} (hd : d < 8) (gone : dieGone s d = true) (lost : isLost s d = true) (applied : ∀ p ∈ s.packets, p.lane ≠ 3) :
    (∀ n, dieGone (rebuildDie d s) n = false) ∧ (rebuildDie d s).mod.db.rebuilding = s.mod.db.mrebuild := by
  have regs := lossRegs_rebuildDie hd gone lost applied
  generalize rebuildDie d s = t at regs ⊢
  refine ⟨fun n => ?_, congrArg LossRegs.rebuilding regs⟩
  have none_pending : t.mod.db.pendLoss = [] := congrArg LossRegs.pendLoss regs
  rw [dieGone, none_pending]
  rfl

/-! ### The module rebuild (R266) -/

theorem db_logErr (e : BitVec 128) (s : State) : (logErr e s).mod.db = s.mod.db := by
  unfold logErr sendMsix
  dsimp only
  split <;> rfl

/-- A write of DBCTL with MREBUILD in a group that takes part starts a module rebuild. -/
theorem db_writeDbctl {s : State} {v : BitVec 64} (up : isUp s = true) (asked : v.getLsbD 0 = true) (group : s.mod.db.group.getLsbD 50 = true) :
    (writeDbctl fullMask v.toNat s).mod.db = { s.mod.db with rebuilding := true, mrebuild := true, progress := 0 } := by
  have full : bitAt fullMask 0 = true := by decide
  unfold writeDbctl
  rw [if_neg (by simp [up, full, bitAt_toNat, asked, group])]
  exact db_logErr _ _

end Sys2Proof.Machine
end

section
/-! Steps of the engines: commands that start, lines of plain walks, weight blocks, and matrix commands without a routine (R292, R308, R309, R421, R445, R448). -/

namespace Sys2Proof.Machine

open Sys2Proof.Safety

/-! ### Commands that start (R421) -/

theorem startCommand_matrix {s : State} {c : Nat} {m : MxCmd} (head : mxHead s c = some m) (waits : m.started = false) : startCommand c m.tok s = beginMx c m.tok s := by
  simp [startCommand, head, waits]

theorem startCommand_copy {s : State} {c tok : Nat} {x : XfCmd} (head : mxHead s c = none) (found : xfFind s c tok false = some x) : startCommand c tok s = beginXf c x s := by
  simp only [startCommand, head, found]

section

variable {s : State} {c : Nat} {m : MxCmd} (head : mxHead s c = some m) (waits : m.started = false) (ins : m.ins = []) (single : m.op ≠ 1)
  (after : ∀ i ∈ m.after, notDone s i = false)

include head waits ins single after

/-- A command of one engine whose tokens have ended without a fault starts. -/
theorem beginMx_starts (good : m.fault = none) : beginMx c m.tok s = updHead c (fun m => { m with started := true }) s := by
  have alone : (m.op == 1 && mxJoint m.snap) = false := by simp [single]
  have done : m.after.any (notDone s) = false := List.any_eq_false.2 (fun i hi => by simp [after i hi])
  simp [beginMx, head, waits, ins, alone, jointCores, done, good, startMx, single]

/-- A command of one engine takes the fault of its tokens. -/
theorem beginMx_fails {code : BitVec 8} (bad : m.fault = some code) : beginMx c m.tok s = endMx c .fault code 0 s := by
  have alone : (m.op == 1 && mxJoint m.snap) = false := by simp [single]
  have done : m.after.any (notDone s) = false := List.any_eq_false.2 (fun i hi => by simp [after i hi])
  simp [beginMx, head, waits, ins, alone, jointCores, done, bad, failMx]

end

/-- A matrix command with a token of its own that ends FAULT, with no rollback waiting for it. -/
theorem tokRec_endMx_fault {s : State} {c : Nat} {m : MxCmd} (head : mxHead s c = some m) (own : m.orphan = false)
    (free : (coreAt s c).b.refetchWait.contains m.tok = false) (code : BitVec 8) :
    (tokRec (endMx c .fault code 0 s) c m.tok).status = .fault ∧ (tokRec (endMx c .fault code 0 s) c m.tok).code = code := by
  rw [endMx_of_head head, own, tokRec_endTok_fault]
  · exact ⟨rfl, rfl⟩
  · rw [body_updBody Body.refetchWait (f := headGone) (fun _ => rfl)]
    exact free

theorem cores_abandonMove (h : Nat) (s : State) : (abandonMove h s).cores = s.cores :=
  abandonMove_keeps (g := State.cores) (fun _ _ _ => rfl) (fun _ _ _ => rfl) cores_sendMsix (fun _ _ _ _ _ _ => rfl) h s

/-- The record of a copy command that ends DONE. -/
theorem status_endXf_done {c : Nat} {x : XfCmd} (own : x.orphan = false) (code : BitVec 8) (s : State) : (tokRec (endXf c x .done code s) c x.tok).status = .done := by
  unfold endXf
  rw [own, endTok_done, tokRec_updBody (f := tokenGone x.tok none) _ _ (fun _ => rfl), tokRec_setTok, if_pos rfl]

/-- A copy command as it starts, with its locks. -/
def startedXf (s : State) (x : XfCmd) (y : XfCmd) : XfCmd := { y with started := true, locks := lockRanges s x }

/-- The state in which a copy command has started. -/
def xfStarted (c : Nat) (x : XfCmd) (s : State) : State :=
  updXf c x (startedXf s x) ((lockRanges s x).foldl (fun s r => abandonMove r.1 s) s)

section

variable {s : State} {c : Nat} {x : XfCmd} (ins : x.ins = []) (after : x.after = [])

include ins after

theorem beginXf_fails {code : BitVec 8} (bad : x.fault = some code) : beginXf c x s = endXf c x .fault code s := by
  simp [beginXf, ins, after, bad]

variable (good : x.fault = none) (plain : x.op ≠ 8 ∧ x.op ≠ 11) (locks : locksFit s (lockRanges s x) = true)

include good plain locks

theorem beginXf_starts (moves : x.op = 9 ∨ xfEmpty x.snap = false) : beginXf c x s = xfStarted c x s := by
  have notEmpty : ¬ (x.op ≠ 9 ∧ xfEmpty x.snap = true) := by
    rintro ⟨other, empty⟩
    rcases moves with nine | full
    · exact other nine
    · rw [full] at empty
      exact Bool.false_ne_true empty
  simp only [beginXf, ins, after, good, plain.1, plain.2, locks, notEmpty, List.any_nil, ne_eq, not_true_eq_false, Bool.false_eq_true, or_self, if_false, Bool.not_true]
  rfl

theorem beginXf_empty (other : x.op ≠ 9) (empty : xfEmpty x.snap = true) : beginXf c x s = endXf c (startedXf s x x) .done 0 (xfStarted c x s) := by
  simp only [beginXf, ins, after, good, plain.1, plain.2, locks, other, empty, List.any_nil, ne_eq, not_true_eq_false, not_false_eq_true, Bool.false_eq_true, or_self, and_self,
    if_false, if_true, Bool.not_true]
  rfl

end

/-- The queue of a core whose copy command has started. -/
theorem xfQ_xfStarted {s : State} {c : Nat} {x : XfCmd} (own : x.orphan = false) :
    (coreAt (xfStarted c x s) c).b.xfQ = (coreAt s c).b.xfQ.map (fun y => if isCmd x.tok x.vcc y && y.orphan == x.orphan then startedXf s x y else y) := by
  have cores : ((lockRanges s x).foldl (fun s r => abandonMove r.1 s) s).cores = s.cores :=
    foldl_keeps (g := State.cores) (fun s (r : Nat × Nat × Nat) => cores_abandonMove r.1 s) _ s
  unfold xfStarted updXf
  rw [own]
  simp only [Bool.false_eq_true, if_false, core_updBody, if_true, core_setTok, coreAt_congr cores]

/-! ### Lines of a plain walk (R445) -/

/-- The next line of a plain walk reads its source, writes its destination, counts and is done. -/
theorem plainLine_performs {s u1 u2 u3 : State} {c : Nat} {x : XfCmd} {bytes : List Byte} {bad : List Bool} (going : x.cancel = false) (other : x.op ≠ 6)
    (inRows : x.row < xfRows x) (inLine : x.line < xfLines x x.row) (new : x.row * 2 ^ 20 + x.line ∉ x.did)
    (source : lineSource c x x.row (xfSpan x x.row x.line).1 (xfSpan x x.row x.line).2
      (if hostSource x then askPeer c x x.row (xfRowSrc x x.row) (xfLen x) ((xfSpan x x.row x.line).1 + (xfSpan x x.row x.line).2)
        ((xfSpan x x.row x.line).2 + 1) (xfSpan x x.row x.line).1 s else s) = .ok (u1, bytes, bad))
    (sink : lineSink c x x.row (xfSpan x x.row x.line).1 bytes bad u1 = .ok u2) (sync : syncUpdate c x (xfSpan x x.row x.line).2 u2 = .ok u3) :
    plainLine c x x.row x.line s =
      lineDone c x (x.row * 2 ^ 20 + x.line) (forgetReads c x x.row ((xfSpan x x.row x.line).1 + (xfSpan x x.row x.line).2) u3) := by
  have notDid : x.did.contains (x.row * 2 ^ 20 + x.line) = false := by simpa using new
  simp only [plainLine, notDid, going, other, Nat.not_le.2 inRows, Nat.not_le.2 inLine, Nat.lt_irrefl, and_false, Bool.false_eq_true, or_self, if_false, Bool.not_false, Bool.and_true,
    and_self, not_true_eq_false, source, engSeq, sink, sync]

theorem performXf_plain {s : State} {c tok : Nat} {x : XfCmd} (found : xfFind s c tok true = some x) (going : x.cancel = false) (plain : x.op ∈ [1, 2, 5, 10]) (id : Nat) :
    performXf c tok id s = plainLine c x (id / 2 ^ 20) (id % 2 ^ 20) s := by
  unfold performXf
  rw [found]
  dsimp only
  rw [going, Bool.false_and, if_neg Bool.false_ne_true]
  simp only [List.mem_cons, List.not_mem_nil, or_false] at plain
  rcases plain with op | op | op | op <;> simp only [op]

/-! ### Weight blocks (R292, R448) -/

theorem wbQ_freeCore (c : Nat) (s : State) (q : Nat) : (coreAt (freeCore c s) q).b.wbQ = (coreAt s q).b.wbQ := by
  by_cases e : q = c
  · subst e
    rw [body_freeCore, freedBody]
    split <;> rfl
  · rw [core_freeCore_of_ne e]

theorem wbQ_leaveTask (g : List Nat) (s : State) (q : Nat) : (coreAt (leaveTask g s) q).b.wbQ = (coreAt s q).b.wbQ := by
  unfold leaveTask
  split
  · rfl
  · split
    · rfl
    · exact foldl_keeps (g := fun s => (coreAt s q).b.wbQ) (fun s c => wbQ_freeCore c s q) g _

theorem wbQ_endFaulted (g : List Nat) (code : BitVec 8) (s : State) (q : Nat) : (coreAt (endFaulted g code s) q).b.wbQ = (coreAt s q).b.wbQ := by
  unfold endFaulted
  split
  · rfl
  · split
    · rfl
    · exact wbQ_leaveTask g s q

theorem wbQ_onCores {f : Body → Body} (hf : ∀ b, (f b).wbQ = b.wbQ) (g : List Nat) (s : State) (q : Nat) :
    (coreAt (onCores (fun q s => updBody s q f) g s) q).b.wbQ = (coreAt s q).b.wbQ := body_onCores Body.wbQ (f := fun _ => f) (fun _ => hf) g s q

theorem wbQ_faultRegs (stat pc addr : Word) (vcc : BitVec 48) (b : Body) : ({ b with fltstat := stat, fltpc := pc, fltvcc := vcc, fltaddr := addr } : Body).wbQ = b.wbQ := rfl

theorem wbQ_recordFault (code : BitVec 8) (slot : Nat) (tok : Option Nat) (cause : BitVec 8) (pc addr : Word) (vcc : Nat) (b : Body) :
    (recordFault b code slot tok cause pc addr vcc).wbQ = b.wbQ := wbQ_faultRegs ..

theorem wbQ_enterHandler (vec : Word) (code : BitVec 8) (slot : Nat) (tok : Option Nat) (cause : BitVec 8) (pc addr : Word) (vcc : Nat) (resume : Word) (b : Body) :
    (enterHandler vec code slot tok cause pc addr vcc resume b).wbQ = b.wbQ := rfl

theorem wbQ_takeFault (g : List Nat) (f : FaultInfo) (s : State) (q : Nat) : (coreAt (takeFault g f s) q).b.wbQ = (coreAt s q).b.wbQ := by
  have recorded (u : State) := wbQ_onCores (wbQ_recordFault f.code f.slot f.tok f.cause f.pc f.addr f.vcc) g u q
  have handled (vec : Word) (u : State) := wbQ_onCores (wbQ_enterHandler vec f.code f.slot f.tok f.cause f.pc f.addr f.vcc f.resume) g u q
  unfold takeFault
  split
  · rfl
  · dsimp only
    split
    · rw [wbQ_endFaulted, recorded, coreAt_snapFault]
    · split
      · rw [wbQ_endFaulted, recorded, coreAt_snapFault]
      · rw [handled, coreAt_snapFault]

theorem wbQ_endTok (c t : Nat) (orphan : Bool) (who : Issuer) (st : TokStatus) (code : BitVec 8) (prog : Nat) (s : State) (q : Nat) :
    (coreAt (endTok c t orphan who st code prog s) q).b.wbQ = (coreAt s q).b.wbQ := by
  have told (u : State) (hu : (coreAt u q).b.wbQ = (coreAt s q).b.wbQ) (f g : Body → Body) (hf : ∀ b, (f b).wbQ = b.wbQ) (hg : ∀ b, (g b).wbQ = b.wbQ)
      (p : Prop) [Decidable p] (fault : State → FaultInfo) :
      (coreAt (if p then takeFault (groupOf (updBody (updBody u c f) c g) c) (fault (updBody (updBody u c f) c g)) (updBody (updBody u c f) c g) else updBody u c f) q).b.wbQ =
        (coreAt s q).b.wbQ := by
    split
    · rw [wbQ_takeFault, body_updBody Body.wbQ hg, body_updBody Body.wbQ hf, hu]
    · rw [body_updBody Body.wbQ hf, hu]
  refine told _ ?_ _ _ (by intro _; rfl) (by intro _; rfl) _ (fun s => faultHere s c code 15 none 0)
  split
  · split <;> rfl
  · exact body_setTok Body.wbQ (fun _ _ => rfl) s c t _ q

/-- A copy command that ends enters no weight block. -/
theorem mem_wbQ_endXf {c : Nat} {x : XfCmd} {st : TokStatus} {code : BitVec 8} {s : State} {w : WBlock} (h : w ∈ (coreAt (endXf c x st code s) c).b.wbQ) :
    w ∈ (coreAt s c).b.wbQ := by
  have removed : (coreAt (endXf c x st code s) c).b.wbQ = (coreAt s c).b.wbQ.filter (fun w => !(w.tok == x.tok && w.vcc == x.vcc)) := by
    unfold endXf
    rw [wbQ_endTok, coreAt_withMod]
    split
    · rw [core_updBody, if_pos rfl]
    · rw [body_setTok Body.wbQ (fun _ _ => rfl), core_updBody, if_pos rfl]
  rw [removed] at h
  exact (List.mem_filter.1 h).1

theorem wbQ_updXf (c : Nat) (x : XfCmd) (f : XfCmd → XfCmd) (s : State) (q : Nat) : (coreAt (updXf c x f s) q).b.wbQ = (coreAt s q).b.wbQ := by
  unfold updXf
  dsimp only
  rw [body_updBody Body.wbQ (by intro _; rfl)]
  split
  · rfl
  · exact body_setTok Body.wbQ (fun _ _ => rfl) ..

/-- Without a sync word nothing is counted. -/
theorem syncRun_of_none {c : Nat} {x : XfCmd} (noSync : xfSync x.snap = 0) (start n : Nat) (s : State) : syncRun c x start n s = .ok s := by
  have update (n : Nat) : syncUpdate c x n s = .ok s := if_pos noSync
  have all (l : List Nat) (f : Nat → Nat) : l.foldlM (fun s k => syncUpdate c x (f k) s) s = .ok s := by
    induction l with
    | nil => rfl
    | cons k l ih =>
      rw [List.foldlM_cons, update]
      exact ih
  unfold syncRun
  split
  · rfl
  · exact all _ _

/-- The bytes a weight block expands to (R308, R309). -/
def expansionOf (b : Body) (w : WBlock) : List Byte := match w.table with | some ts => expandCb3 (tabSlot b ts).data w.src | none => expandS24 w.src w.pos

theorem length_expandCb3 (table : BitVec 128) (src : List Byte) : (expandCb3 table src).length = 256 := by
  simp [expandCb3, List.length_flatMap, length_leBytes]

theorem length_expandS24 (src pos : List Byte) : (expandS24 src pos).length = 256 := by
  simp [expandS24, List.length_flatMap, length_leBytes]

theorem length_expansionOf (b : Body) (w : WBlock) : (expansionOf b w).length = 256 := by
  unfold expansionOf
  split
  · exact length_expandCb3 ..
  · exact length_expandS24 ..

/-- A weight block that has expanded leaves the queue, and its bytes stand in the weight buffer. -/
theorem expandWeight_expands {s : State} {c : Nat} {w : WBlock} {x : XfCmd} (ready : (coreAt s c).b.wbQ.find? (wbReady (coreAt s c).b) = some w)
    (found : (coreAt s c).b.xfQ.find? (isCmd w.tok w.vcc) = some x) (noSync : xfSync x.snap = 0) :
    w ∉ (coreAt (expandWeight c s) c).b.wbQ ∧
      (expandWeight c s).mem = s.mem.setBytes (wbufKey c (fieldW (xfDst x.snap) 18 1) (fieldW (xfDst x.snap) 0 18 + 256 * w.idx)) (expansionOf (coreAt s c).b w) := by
  have gone (u : State) : w ∉ (coreAt (updBody u c (fun b => { b with wbQ := b.wbQ.filter (fun y => y != w) })) c).b.wbQ := by
    rw [core_updBody, if_pos rfl]
    exact fun h => by simpa using (List.mem_filter.1 h).2
  unfold expandWeight
  dsimp only
  rw [ready]
  dsimp only
  rw [found]
  dsimp only
  rw [syncRun_of_none noSync]
  dsimp only
  split
  · refine ⟨fun h => gone _ (mem_wbQ_endXf h), ?_⟩
    rw [mem_endXf]
    rfl
  · split
    · refine ⟨fun h => gone _ (mem_wbQ_endXf h), ?_⟩
      rw [mem_endXf]
      rfl
    · refine ⟨fun h => gone _ (wbQ_updXf c x _ _ c ▸ h), ?_⟩
      rw [mem_updXf]
      rfl

/-! ### Matrix commands without a routine (R421) -/

theorem finishMx_of_head {s : State} {c : Nat} {m : MxCmd} (head : mxHead s c = some m) (started : m.started = true) (plain : m.micro = none) :
    (m.op = 3 → finishMx c s = endMx c .done 0 0 s) ∧
    (m.op = 4 → finishMx c s = endMx c .done 0 0 (updBody s c (onSegments (fun r k b => normSeg (mxBank m.snap) (mxD m.snap) r k b) (box c 4 m.snap)))) ∧
    (m.op = 5 → finishMx c s = endMx c .done 0 0 (updBody s c (clearRegion (mxBank m.snap) (mxXset m.snap) (box c 5 m.snap)))) := by
  unfold finishMx
  rw [head]
  dsimp only
  rw [started, plain]
  refine ⟨fun op => ?_, fun op => ?_, fun op => ?_⟩ <;> simp only [op] <;> rfl

/-! ### Decode tables (R417) -/

theorem tabSlot_setTab (ts : Nat) (t : TableSlot) (b : Body) : tabSlot (setTab ts t b) ts = t := by
  unfold tabSlot setTab
  split <;> rfl

/-- A table slot as its load completes. -/
def tableDone (c ts : Nat) (s : State) : State :=
  updBody s c (setTab ts { tabSlot (coreAt s c).b ts with loading := false, due := 0, stamp := 0, bad := false })

theorem finishTable_of_due {s : State} {c ts : Nat} (loading : (tabSlot (coreAt s c).b ts).loading = true) (due : (tabSlot (coreAt s c).b ts).due ≠ 0)
    (now : (tabSlot (coreAt s c).b ts).due ≤ s.clk) :
    finishTable c ts s = if (tabSlot (coreAt s c).b ts).bad then detect c codePoison (tableDone c ts s) else tableDone c ts s := by
  unfold finishTable
  dsimp only
  rw [if_neg (by simp [loading, due, now])]
  rfl

theorem tabSlot_detect (ts c : Nat) (code : BitVec 8) (s : State) : tabSlot (coreAt (detect c code s) c).b ts = tabSlot (coreAt s c).b ts :=
  body_updBody (fun b => tabSlot b ts) (fun b => by split <;> rfl) s c c

theorem detected_detect {c : Nat} {s : State} (runs : (coreAt s c).b.task.isSome = true) (code : BitVec 8) : (coreAt (detect c code s) c).b.detected.isSome = true := by
  have busy : (coreAt s c).b.task.isNone = false := by rw [Option.isNone_eq_false_iff]; exact runs
  rw [detect, detectAt, detectPtr, core_updBody, if_pos rfl]
  dsimp only
  rw [busy]
  rfl

theorem tabSlot_tableDone (c ts : Nat) (s : State) :
    tabSlot (coreAt (tableDone c ts s) c).b ts = { tabSlot (coreAt s c).b ts with loading := false, due := 0, stamp := 0, bad := false } := by
  rw [tableDone, core_updBody, if_pos rfl, tabSlot_setTab]

theorem task_tableDone (c ts : Nat) (s : State) : (coreAt (tableDone c ts s) c).b.task = (coreAt s c).b.task :=
  body_updBody Body.task (fun b => by rw [setTab]; split <;> rfl) s c c

/-- A decode table whose bytes have come is complete; a poisoned byte among them is a detected error. -/
theorem finishTable_completes {s : State} {c ts : Nat} (loading : (tabSlot (coreAt s c).b ts).loading = true) (due : (tabSlot (coreAt s c).b ts).due ≠ 0)
    (now : (tabSlot (coreAt s c).b ts).due ≤ s.clk) :
    (tabSlot (coreAt (finishTable c ts s) c).b ts).loading = false ∧ (tabSlot (coreAt (finishTable c ts s) c).b ts).data = (tabSlot (coreAt s c).b ts).data ∧
    ((tabSlot (coreAt s c).b ts).bad = false → (coreAt (finishTable c ts s) c).b.detected = (coreAt s c).b.detected) ∧
    ((tabSlot (coreAt s c).b ts).bad = true → (coreAt s c).b.task.isSome = true → (coreAt (finishTable c ts s) c).b.detected.isSome = true) := by
  rw [finishTable_of_due loading due now]
  cases poisoned : (tabSlot (coreAt s c).b ts).bad with
  | false =>
    rw [if_neg Bool.false_ne_true, tabSlot_tableDone]
    exact ⟨rfl, rfl, fun _ => detected_setTab .., nofun⟩
  | true =>
    rw [if_pos rfl, tabSlot_detect, tabSlot_tableDone]
    exact ⟨rfl, rfl, nofun, fun _ runs => detected_detect (by rw [task_tableDone]; exact runs) _⟩

/-! ### Parity deltas (R262) -/

theorem applyDelta_applies {s : State} {d k off : Nat} {p : Packet} {bytes : List Byte} (alive : isLost s d = false)
    (first : s.packets.find? (fun y => y.lane == 3 && y.dst == .die d) = some p) (body : p.body = .delta k off bytes) :
    applyDelta d s = xorInto (parityKey d (k / 8) off) bytes (dropPacket p.id s) := by
  unfold applyDelta
  rw [if_neg (by simp [alive]), first]
  dsimp only
  rw [body]

theorem byte_xorInto {k i : Nat} {bytes : List Byte} (h : i < bytes.length) (s : State) : (xorInto k bytes s).mem.byte (k + i) = bytes[i] ^^^ s.mem.byte (k + i) := by
  have length : (xorBytes bytes (s.mem.bytes k bytes.length)).length = bytes.length := by simp [xorBytes, bytes_eq_map_byte]
  refine (Memory.byte_setBytes_inside s.mem k i (xorBytes bytes (s.mem.bytes k bytes.length)) (length.symm ▸ h)).trans ?_
  simp [xorBytes, bytes_eq_map_byte]

/-! ### The steps together -/

/-- Settles O60: each step is one function of the model, whose result the lemmas above state. -/
theorem enginesAndDeadbolt : Obligations.EnginesAndDeadbolt := by
  unfold Obligations.EnginesAndDeadbolt
  intro s u1 u2 u3 c tok d ts id k off m x code bytes bad w p v b T q lone row span asked
  refine ⟨?matrix, ?copy, ?line, ?weight, ?ends, ?table, ?delta, ?fence, ?rebuild, ?module⟩
  case matrix =>
    rintro head rfl waits ins single after
    refine ⟨fun good => ⟨_, congrArg Host.Outcome.next ((startCommand_matrix head waits).trans (beginMx_starts head waits ins single after good)), ?_⟩,
      fun failed own free => ⟨_, congrArg Host.Outcome.next ((startCommand_matrix head waits).trans (beginMx_fails head waits ins single after failed)), ?_⟩⟩
    · refine (mxHead_updHead ..).trans ?_
      rw [if_pos rfl, head]
      rfl
    · exact tokRec_endMx_fault head own free code
  case copy =>
    rintro head found ins after ⟨own, free⟩ op8 op11 locks
    have named := tok_of_xfFind found
    have starts : exec (.engineCommandStart c tok) s = .next (beginXf c x s) := congrArg Host.Outcome.next (startCommand_copy head found)
    refine ⟨fun good moves => ⟨_, starts, ?_⟩, fun good other empty => ⟨_, starts, ?_⟩, fun failed => ⟨_, starts, ?_⟩⟩
    · rw [beginXf_starts ins after good ⟨op8, op11⟩ locks moves]
      exact xfQ_xfStarted own
    · rw [beginXf_empty ins after good ⟨op8, op11⟩ locks other empty, ← named]
      exact status_endXf_done (x := startedXf s x x) own 0 _
    · rw [beginXf_fails ins after failed, ← named]
      exact tokRec_endXf_fault own (named ▸ free) code
  case line =>
    rintro found going plain inRows inLine new rfl short source sink sync
    have other : x.op ≠ 6 := by
      rintro six
      rw [six] at plain
      exact absurd plain (by decide)
    have place : (row * 2 ^ 20 + x.line) / 2 ^ 20 = row ∧ (row * 2 ^ 20 + x.line) % 2 ^ 20 = x.line := by omega
    refine congrArg Host.Outcome.next ((performXf_plain found going plain _).trans ?_)
    rw [place.1, place.2]
    exact plainLine_performs going other inRows inLine new source sink sync
  case weight =>
    intro ready found noSync
    obtain ⟨gone, stored⟩ := expandWeight_expands ready found noSync
    refine ⟨_, rfl, gone, fun i hi => ?_⟩
    have inside : i < (expansionOf b w).length := (length_expansionOf b w).symm ▸ hi
    rw [stored, Memory.byte_setBytes_inside _ _ _ _ inside]
    change (expansionOf b w)[i] = nthD (expansionOf b w) i 0
    rw [nthD, List.getElem?_eq_getElem inside]
    rfl
  case ends =>
    intro head started plain
    obtain ⟨leave, norm, clear⟩ := finishMx_of_head head started plain
    exact ⟨fun op => congrArg Host.Outcome.next (leave op), fun op => congrArg Host.Outcome.next (norm op), fun op => congrArg Host.Outcome.next (clear op)⟩
  case table =>
    intro loading due now _
    exact ⟨_, rfl, finishTable_completes loading due now⟩
  case delta =>
    intro hd alive first body
    refine ⟨xorInto (parityKey d (k / 8) off) bytes (dropPacket p.id s), ?_, fun i hi => byte_xorInto hi _, rfl⟩
    exact congrArg Host.Outcome.next ((if_pos hd).trans (applyDelta_applies alive first body))
  case fence => exact fun hd up alive => ⟨_, rfl, fenceDie_loses hd up alive⟩
  case rebuild => exact fun hd gone lost applied => ⟨_, rfl, rebuildDie_ends hd gone lost applied⟩
  case module =>
    intro up set group
    have db := db_writeDbctl up set group
    exact ⟨_, rfl, congrArg Deadbolt.rebuilding db, congrArg Deadbolt.mrebuild db, congrArg Deadbolt.progress db⟩

end Sys2Proof.Machine
end
